-- ==== Sys2Proof/Syntax.lean ====
section
/-! DEFINITION. Sys2Proof/Syntax.lean: the commands the block takes, one constructor per row of spec/opcode_table.json, and
the operand types they carry.  A command names the module (`n`) and the instance it acts on, and carries what comes from
outside: a written value, a packet, a sample. -/

namespace Sys2Proof

/-- A module of the system, by node number (01 R22). -/
abbrev Node := Fin 64
/-- A tile of a module (02 R24). -/
abbrev TileIx := Fin 1024
/-- A gang of a module, driven by the ACU of the same number (06 R147). -/
abbrev GangIx := Fin 16
/-- An ACU of a module. -/
abbrev AcuIx := Fin 16
/-- A task of an ACU. -/
abbrev TaskIx := Fin 64

/-- Who makes a register or memory access, and so whose selects and inspection registers it uses (14 R336, 08 R191,
12 R285, 20 R450). -/
inductive Ctx where
  /-- Host queue context `q`; direct BAR accesses use context 0. -/
  | queue (q : Fin 16)
  /-- ACU `a` of node `n`. -/
  | acu (n : Node) (a : AcuIx)
  /-- Gecko region `r` of node `n`. -/
  | region (n : Node) (r : Fin 8)
  deriving DecidableEq, Repr

/-- A side of a tile or a gang; also the direction an exchange takes its data from (02 R25). -/
inductive Side where
  | north | south | east | west
  deriving DecidableEq, Repr

/-- What the error-correcting code finds in a word that a command checks (02 R34). -/
inductive WordCheck where
  | clean | correctable | uncorrectable
  deriving DecidableEq, Repr

/-- A BAR0 write as it arrives: byte offset, data, 64-bit or 32-bit, byte enables (01 R14). -/
structure BarWrite where
  off : Nat
  data : DWord
  wide : Bool
  be : BitVec 8
  deriving DecidableEq, Repr

/-- A memory request: write or read, byte address, and one entry per byte; in a write `none` is a byte not enabled, in a read
only the number of entries counts (10 R225, R229, 16 R363). -/
structure MemReq where
  wr : Bool
  addr : Nat
  bytes : List (Option (BitVec 8))
  deriving DecidableEq, Repr

/-- What becomes of a request on the networks (16 R364, R370): it is served in time; its answer comes after its time limit; or router `r`
discards one of its flits as uncorrectable: the answer's (`back`), or the request's. -/
inductive BusWay where
  | served
  | late
  | lost (r : Fin 48) (back : Bool)
  deriving DecidableEq, Repr

/-- A memory request, and what becomes of it on its way. -/
structure NetReq extends MemReq where
  way : BusWay := .served
  deriving DecidableEq, Repr

/-- A BAR0 write, and what becomes of it on its way. -/
structure NetWrite extends BarWrite where
  way : BusWay := .served
  deriving DecidableEq, Repr

/-- What meets a READ or a WRITE: what the design behind a Gecko window answers, `none` if it never does (a WRITE's answer carries no
data); and what becomes of its flits. -/
structure PacketIn where
  ans : Option (List (BitVec 8)) := none
  way : BusWay := .served
  deriving DecidableEq, Repr

/-- The cause that a MSG delivers, and what becomes of its flits (16 R363). -/
structure MsgIn where
  cause : Fin 32
  way : BusWay := .served
  deriving DecidableEq, Repr

/-- A flit that comes to an input of a router, with what its check bits show (16 R364, R369). -/
structure RtrIn where
  input : Fin 8
  flit : BitVec 128
  found : WordCheck
  deriving DecidableEq, Repr

/-- A flit of a Bunel link: its traffic class (15 R348), whether it is a Chorus call or an answer to one, and its 240 bytes of payload. -/
structure BunelFlit where
  cls : Fin 5
  call : Bool
  data : BitVec 1920
  deriving DecidableEq, Repr

/-- What reaches a cell of the fabric at a clock edge (12 "Cells and wide multiplexers"): its LUT inputs, BA and BB, the carry into its
cluster (cell 0), the clock enables and resets of its two flip-flops, and their values before the edge. -/
structure CellIn where
  lut : BitVec 6 := 0
  ba : Bool := false
  bb : Bool := false
  cin : Bool := false
  ce : BitVec 2 := 0
  rst : BitVec 2 := 0
  q : BitVec 2 := 0
  deriving DecidableEq, Repr

/-- A tile of a gang that spans modules: its module and its place there. -/
structure TileAt where
  node : Node
  tile : TileIx
  deriving DecidableEq, Repr

/-- The Wheel serves tile `tile`; of an A.WOUT it takes up to `upto` elements (10 R241, R243); `way`: what becomes of the request of the
first of them (16 R370, 10 R242). -/
structure TileMove where
  tile : TileIx
  upto : Half
  way : BusWay := .served
  deriving DecidableEq, Repr

/-- A step of the time exchange on a WSL lane: `start`, the module begins it; else the packet that has come in (11 R251). -/
structure SyncStep where
  start : Bool
  bytes : List (BitVec 8)
  deriving DecidableEq, Repr

/-- A word of a raw lane half: to the lane (`out`) or from it (11 R253). -/
structure LaneWord where
  out : Bool
  word : DWord
  deriving DecidableEq, Repr

/-- A request of a master channel with the channel's own tag (12 R285, 16 R362). -/
structure TaggedReq where
  tag : BitVec 10
  req : NetReq
  deriving DecidableEq, Repr

/-- A word of a region's configuration and the bits of it upset since its last check (12 R294). -/
structure ConfigUpset where
  word : BitVec 19
  flips : BitVec 72
  deriving DecidableEq, Repr

/-- What comes with a flit: what FEC finds in it, and the flits that have come to its sender's pair in the meantime (15 R347, R348). -/
structure FlitIn where
  found : WordCheck
  put : List BunelFlit
  deriving DecidableEq, Repr

/-- What comes with a command packet: FLAGS.FENCE of each queue's next packet (14 R329), and how the answer to the command's register
access `miss`, the first being 0, will come about; the others are served (14 R338, 16 R370, R374). -/
structure TakeIn where
  fence : BitVec 16
  miss : Fin 4 := 0
  way : BusWay := .served
  deriving DecidableEq, Repr

/-- The commands of the NS1024: one constructor for each row of spec/opcode_table.json, in its order. -/
inductive Instr where
  /-- REGISTER_WRITE (R5). A write to a register that has no row of its own takes effect by field type, with reserved values handled under R7. -/
  | registerWrite (c : Ctx) (b : NetWrite)
  /-- RWL_SHADOW_WRITE (R300). A write to an RWL field, direct or through its shadow alias, is accepted into the module's shadow and waits for the next commit. -/
  | rwlShadowWrite (c : Ctx) (b : NetWrite)
  /-- SELECT_WRITE (R337). A write to a select register of a context takes effect for the next access; an out-of-range value is refused. -/
  | selectWrite (c : Ctx) (q : Option (Fin 16)) (k : Fin 11) (w : Word)
  /-- COUNTER_CLEAR_WRITE (R5). Writing 1 to a CLEAR field sets that register's error or event counts to 0. -/
  | counterClearWrite (c : Ctx) (b : NetWrite)
  /-- BAR2_ACCESS (R17). A host access through BAR2 reaches staging memory or the record store aperture of the selected module. -/
  | bar2Access (req : NetReq)
  /-- TIM_NOW_LO_READ (R411). A read of TIM_NOW_LO returns device time and latches TIM_NOW_HI and TIM_NOW_FRAC for the reading context. -/
  | timNowLoRead (c : Ctx)
  /-- SEC_CHALLENGE_READ (R430). A read of SEC_CHALLENGE_0 draws a fresh 32-byte challenge and ends the one before it. -/
  | secChallengeRead (c : Ctx)
  /-- TILE_CYCLE (R59). A tile executes one microword and its nano-word: PE truth tables, register updates, plane reads and write, generator updates, and sequencing. -/
  | tileCycle (n : Node) (t : TileIx)
  /-- EXCHANGE_STEP_ARRIVAL (R42). An exchange step from a neighbouring tile, a wrap path or a Bunel link becomes present at the receiving tile. -/
  | exchangeStepArrival (n : Node) (t : TileIx) (d : Side) (wrap : Bool)
  /-- NEWT_WAIT_END (R66). A waiting tile's wait condition (neighbour step, Croak, Wheel buffer or QSETTLE) holds, and its cycle begins. -/
  | newtWaitEnd (n : Node) (t : TileIx)
  /-- FINAL_GATE (R77). A tile waiting at a FINAL microword passes the gate once the final-enable line is asserted, or abandons the op. -/
  | finalGate (n : Node) (t : TileIx)
  /-- NEWT_EDGE_STALL (R43). A neighbour-handshake wait exceeds WAIT_LIMIT, and Millrace stops the gang. -/
  | newtEdgeStall (n : Node) (t : TileIx)
  /-- NEWT_WAIT_STALL (R67). A CROAK or WHEEL wait, or a fifth Croak contribution, exceeds WAIT_LIMIT, and Millrace stops the gang. -/
  | newtWaitStall (n : Node) (t : TileIx)
  /-- STORE_CE_WRITEBACK (R87). The corrected store word is written back to the store within 16 tile cycles. -/
  | storeCeWriteback (n : Node) (t : TileIx)
  /-- STORE_PATROL_CHECK (R90). Every 256 tile cycles the Newt checks one store word, correcting it or setting STORE_BAD. -/
  | storePatrolCheck (n : Node) (t : TileIx)
  /-- SCRUB_SLOT (R49). A due scrub slot reads the plane address at CURSOR across all tile rows and advances CURSOR. -/
  | scrubSlot (n : Node) (t : TileIx)
  /-- SCRUB_FORCED_SLOT (R49). After 2^FORCE_LOG2 tile cycles without a free slot, the Newt inserts a scrub cycle of its own. -/
  | scrubForcedSlot (n : Node) (t : TileIx)
  /-- SCRUB_IDLE_WAKE (R49). In Idle and Furl the Newt wakes its clock every 1 ms for one scrub slot. -/
  | scrubIdleWake (n : Node) (t : TileIx)
  /-- SCRUB_WRITEBACK (R50). A corrected row is written back in the first free write cycle, unless a nano-word write cancels it. -/
  | scrubWriteback (n : Node) (t : TileIx)
  /-- SCRUB_EN_WRITE (R51). A write of NEWT_SCRUB_CTRL.EN enables scrub or moves it to DRAINING. -/
  | scrubEnWrite (n : Node) (en : Bool)
  /-- SCRUB_DRAIN_DONE (R51). Every tile has finished its scrub slot in progress, and STATE reads OFF. -/
  | scrubDrainDone (n : Node)
  /-- INSPECTION_READ (R53). NEWT_INSP_CTRL.CMD = read starts a read of a plane row, raw row or PE register of the selected tile. -/
  | inspectionRead (c : Ctx) (n : Node) (t : TileIx) (kind : BitVec 2) (row : BitVec 6) (addr : BitVec 11)
  /-- INSPECTION_WRITE (R54). NEWT_INSP_CTRL.CMD = write starts a write of a plane row, raw row or PE register, refused while the gang runs. -/
  | inspectionWrite (c : Ctx) (n : Node) (t : TileIx) (kind : BitVec 2) (row : BitVec 6) (addr : BitVec 11)
  /-- INSPECTION_DONE (R53). An inspection completes, loading the context's data registers and setting DONE, REFUSED, CE or UE. -/
  | inspectionDone (c : Ctx)
  /-- STORE_WORD_READ (R80). NEWT_STORE_CTRL.CMD = read reads one store word through the second read port. -/
  | storeWordRead (n : Node) (t : TileIx) (store : BitVec 2) (bcast raw : Bool) (addr : BitVec 13)
  /-- STORE_WORD_WRITE (R81). NEWT_STORE_CTRL.CMD = write writes one store word of one tile or of all tiles, refused on a running tile. -/
  | storeWordWrite (n : Node) (t : TileIx) (store : BitVec 2) (bcast raw : Bool) (addr : BitVec 13)
  /-- STORE_VERIFY (R82). NEWT_STORE_CTRL.CMD = verify computes a CRC-32 over the tile's stores into NEWT_STORE_CRC. -/
  | storeVerify (n : Node) (t : TileIx) (bcast : Bool)
  /-- STORE_OP_DONE (R81). A register-path store read, write or verify completes and sets DONE. -/
  | storeOpDone (n : Node) (t : TileIx)
  /-- DISPATCH (R71). A tile dispatches the next macro-op from its FIFO, setting sequencer state, once the previous routine is done and LEAD allows. -/
  | dispatch (n : Node) (t : TileIx)
  /-- A_NOP (R105). Macro-op doing nothing. -/
  | aNop (n : Node) (g : GangIx)
  /-- A_END (R110). Macro-op ending the gang program once all earlier ops have retired; its retirement is the program's commit point. -/
  | aEnd (n : Node) (g : GangIx)
  /-- A_FBAR (R111). Floating-point barrier retiring only after earlier float ops have delivered flags and traps. -/
  | aFbar (n : Node) (g : GangIx)
  /-- A_CLRF (R105). Macro-op clearing F in active PEs. -/
  | aClrf (n : Node) (g : GangIx)
  /-- A_GETF (R105). Macro-op writing F into a one-bit destination. -/
  | aGetf (n : Node) (g : GangIx)
  /-- A_PUTF (R105). Macro-op loading F from a one-bit operand. -/
  | aPutf (n : Node) (g : GangIx)
  /-- A_SETM (R109). Macro-op setting M in every PE by the function in PRM. -/
  | aSetm (n : Node) (g : GangIx)
  /-- A_GETM (R109). Macro-op writing M into a one-bit destination in every PE. -/
  | aGetm (n : Node) (g : GangIx)
  /-- A_ADD (R124). Integer add with wrap and V. -/
  | aAdd (n : Node) (g : GangIx)
  /-- A_FADD (R129). Floating-point add, correctly rounded. -/
  | aFadd (n : Node) (g : GangIx)
  /-- A_SUB (R124). Integer subtract with wrap and V. -/
  | aSub (n : Node) (g : GangIx)
  /-- A_FSUB (R129). Floating-point subtract, correctly rounded. -/
  | aFsub (n : Node) (g : GangIx)
  /-- A_NEG (R124). Integer negate with wrap and V. -/
  | aNeg (n : Node) (g : GangIx)
  /-- A_FNEG (R131). Floating-point negate changing only the sign bit. -/
  | aFneg (n : Node) (g : GangIx)
  /-- A_ABS (R124). Integer absolute value with wrap and V. -/
  | aAbs (n : Node) (g : GangIx)
  /-- A_FABS (R131). Floating-point absolute value changing only the sign bit. -/
  | aFabs (n : Node) (g : GangIx)
  /-- A_MUL (R125). Integer or fixed-point multiply scaled back to the shared binary point. -/
  | aMul (n : Node) (g : GangIx)
  /-- A_FMUL (R129). Floating-point multiply. -/
  | aFmul (n : Node) (g : GangIx)
  /-- A_MAC (R125). Integer multiply-accumulate, rounded once. -/
  | aMac (n : Node) (g : GangIx)
  /-- A_FMAC (R129). Fused floating-point multiply-add. -/
  | aFmac (n : Node) (g : GangIx)
  /-- A_DIV (R125). Integer division of stored integers, truncated by default. -/
  | aDiv (n : Node) (g : GangIx)
  /-- A_FDIV (R129). Floating-point division. -/
  | aFdiv (n : Node) (g : GangIx)
  /-- A_REM (R125). Integer remainder with the sign of the dividend. -/
  | aRem (n : Node) (g : GangIx)
  /-- A_FSQRT (R129). Floating-point square root. -/
  | aFsqrt (n : Node) (g : GangIx)
  /-- A_MIN (R124). Integer minimum. -/
  | aMin (n : Node) (g : GangIx)
  /-- A_FMIN (R132). Floating-point minimumNumber. -/
  | aFmin (n : Node) (g : GangIx)
  /-- A_MAX (R124). Integer maximum. -/
  | aMax (n : Node) (g : GangIx)
  /-- A_FMAX (R132). Floating-point maximumNumber. -/
  | aFmax (n : Node) (g : GangIx)
  /-- A_CMP (R106). Integer comparison by the relation in PRM into a one-bit destination. -/
  | aCmp (n : Node) (g : GangIx)
  /-- A_FCMP (R133). Floating-point comparison by the relation in PRM. -/
  | aFcmp (n : Node) (g : GangIx)
  /-- A_CVT (R126). Conversion from an integer format to the format held in PRM. -/
  | aCvt (n : Node) (g : GangIx)
  /-- A_FCVT (R134). Conversion from a float format to the format held in PRM. -/
  | aFcvt (n : Node) (g : GangIx)
  /-- A_AND (R107). Bitwise AND. -/
  | aAnd (n : Node) (g : GangIx)
  /-- A_OR (R107). Bitwise OR. -/
  | aOr (n : Node) (g : GangIx)
  /-- A_XOR (R107). Bitwise XOR. -/
  | aXor (n : Node) (g : GangIx)
  /-- A_NOT (R107). Bitwise NOT. -/
  | aNot (n : Node) (g : GangIx)
  /-- A_LOGIC (R107). Three-input logic function from the table in PRM. -/
  | aLogic (n : Node) (g : GangIx)
  /-- A_SHL (R107). Left shift by operand 2. -/
  | aShl (n : Node) (g : GangIx)
  /-- A_SHR (R107). Logical right shift by operand 2. -/
  | aShr (n : Node) (g : GangIx)
  /-- A_SAR (R107). Arithmetic right shift by operand 2. -/
  | aSar (n : Node) (g : GangIx)
  /-- A_ROL (R107). Rotate left by operand 2. -/
  | aRol (n : Node) (g : GangIx)
  /-- A_ROR (R107). Rotate right by operand 2. -/
  | aRor (n : Node) (g : GangIx)
  /-- A_SHLI (R107). Left shift by PRM. -/
  | aShli (n : Node) (g : GangIx)
  /-- A_SHRI (R107). Logical right shift by PRM. -/
  | aShri (n : Node) (g : GangIx)
  /-- A_SARI (R107). Arithmetic right shift by PRM. -/
  | aSari (n : Node) (g : GangIx)
  /-- A_ROLI (R107). Rotate left by PRM. -/
  | aRoli (n : Node) (g : GangIx)
  /-- A_RORI (R107). Rotate right by PRM. -/
  | aRori (n : Node) (g : GangIx)
  /-- A_MOV (R108). Move with extension or truncation and V. -/
  | aMov (n : Node) (g : GangIx)
  /-- A_FILL (R108). Fill with the 32-bit immediate CNT:PRM. -/
  | aFill (n : Node) (g : GangIx)
  /-- A_SEL (R108). Select between two sources by F. -/
  | aSel (n : Node) (g : GangIx)
  /-- A_MOVN (R116). Resumable neighbour move over a distance, using the committed edge modes. -/
  | aMovn (n : Node) (g : GangIx) (upto : BitVec 16)
  /-- A_CROAK (R112). Returns the gang OR of a bit or of F. -/
  | aCroak (n : Node) (g : GangIx)
  /-- A_CMAX (R112). Returns the gang maximum by Croak bisection. -/
  | aCmax (n : Node) (g : GangIx)
  /-- A_FCMAX (R112). Returns the gang floating-point maximum. -/
  | aFcmax (n : Node) (g : GangIx)
  /-- A_CMIN (R112). Returns the gang minimum by Croak bisection. -/
  | aCmin (n : Node) (g : GangIx)
  /-- A_FCMIN (R112). Returns the gang floating-point minimum. -/
  | aFcmin (n : Node) (g : GangIx)
  /-- A_COUNT (R112). Returns the count of active PEs with the bit set, summed over the mesh and read out by Croak. -/
  | aCount (n : Node) (g : GangIx)
  /-- A_COPY (R113). Resumable block copy of CNT elements. -/
  | aCopy (n : Node) (g : GangIx) (upto : BitVec 16)
  /-- A_SCAN (R114). Resumable inclusive prefix scan along one axis of the gang. -/
  | aScan (n : Node) (g : GangIx) (upto : BitVec 16)
  /-- A_BFLY (R115). Resumable integer radix-2 butterfly stage over CNT batches. -/
  | aBfly (n : Node) (g : GangIx) (upto : BitVec 16)
  /-- A_FBFLY (R115). Resumable floating-point radix-2 butterfly stage over CNT batches. -/
  | aFbfly (n : Node) (g : GangIx) (upto : BitVec 16)
  /-- A_WIN (R113). Resumable transfer of CNT elements from a Wheel stream into the planes. -/
  | aWin (n : Node) (g : GangIx) (upto : BitVec 16)
  /-- A_WOUT (R113). Resumable transfer of CNT elements from the planes to a Wheel stream. -/
  | aWout (n : Node) (g : GangIx) (only : Option TileAt)
  /-- USER_OP (R122). A macro-op at opcodes 0xC0–0xFF runs the routine that software loaded. -/
  | userOp (n : Node) (t : TileIx) (cycles : BitVec 12)
  /-- MILLRACE_ACCEPT (R152). Millrace accepts a macro-op from the issuing task when it has room, checks it and numbers it. -/
  | millraceAccept (n : Node) (g : GangIx)
  /-- MACRO_OP_DELIVERY (R153). Millrace copies an accepted macro-op into a tile FIFO as the FIFO has room and pacing allows. -/
  | macroOpDelivery (n : Node) (g : GangIx) (tn : Node) (t : TileIx)
  /-- COLD_WAVE_RELEASE (R154). Every INTERVAL ns Millrace releases the next wave of cold tiles. -/
  | coldWaveRelease (n : Node) (g : GangIx)
  /-- MACRO_OP_RETIRE (R152). A macro-op retires when every tile has reported it done and the previous op has retired. -/
  | macroOpRetire (n : Node) (g : GangIx)
  /-- CROAK_RESULT_LATCH (R68). The gang result of a Croak step is latched into CRF on every tile of the gang. -/
  | croakResultLatch (n : Node) (g : GangIx) (ns : Half)
  /-- GANG_EN_WRITE (R158). Writing MILL_GANG_CTRL.EN = 1 enables a formed gang, and 0 starts draining it. -/
  | gangEnWrite (n : Node) (g : GangIx) (en : Bool)
  /-- GANG_STOP_WRITE (R159). Writing MILL_GANG_CTRL.STOP = 1 requests a stop of the gang. -/
  | gangStopWrite (n : Node) (g : GangIx)
  /-- GANG_RESUME_WRITE (R160). Writing MILL_GANG_CTRL.RESUME = 1 resumes a stopped gang. -/
  | gangResumeWrite (n : Node) (g : GangIx)
  /-- YIELD_DECISION (R76). When every tile has parked or reported, Millrace chooses completion or Cmax and the tiles catch up. -/
  | yieldDecision (n : Node) (g : GangIx)
  /-- STOP_COMPLETE (R159). The gang reaches STOPPED with the frontier op held or completed. -/
  | stopComplete (n : Node) (g : GangIx)
  /-- GANG_DRAIN_DONE (R162). Every tile and the queue of a draining gang have drained, and STATE reads OFF. -/
  | gangDrainDone (n : Node) (g : GangIx)
  /-- RESUME_DISCARD (R119). Writing MILL_RESUME_CTRL.DISCARD = 1 while stopped drops the held macro-op. -/
  | resumeDiscard (n : Node) (g : GangIx)
  /-- ADD (R208). ACU add. -/
  | add (n : Node) (a : AcuIx) (k : TaskIx)
  /-- ADDC (R208). ACU add with carry. -/
  | addc (n : Node) (a : AcuIx) (k : TaskIx)
  /-- SUB (R208). ACU subtract. -/
  | sub (n : Node) (a : AcuIx) (k : TaskIx)
  /-- SUBC (R208). ACU subtract with borrow. -/
  | subc (n : Node) (a : AcuIx) (k : TaskIx)
  /-- NEG (R208). ACU negate. -/
  | neg (n : Node) (a : AcuIx) (k : TaskIx)
  /-- AND (R208). ACU bitwise AND. -/
  | and (n : Node) (a : AcuIx) (k : TaskIx)
  /-- OR (R208). ACU bitwise OR. -/
  | or (n : Node) (a : AcuIx) (k : TaskIx)
  /-- XOR (R208). ACU bitwise XOR. -/
  | xor (n : Node) (a : AcuIx) (k : TaskIx)
  /-- ANDN (R208). ACU AND NOT. -/
  | andn (n : Node) (a : AcuIx) (k : TaskIx)
  /-- SHL (R210). ACU left shift by register, unmasked. -/
  | shl (n : Node) (a : AcuIx) (k : TaskIx)
  /-- SHR (R210). ACU logical right shift by register. -/
  | shr (n : Node) (a : AcuIx) (k : TaskIx)
  /-- SAR (R210). ACU arithmetic right shift by register. -/
  | sar (n : Node) (a : AcuIx) (k : TaskIx)
  /-- ROL (R210). ACU rotate left by register. -/
  | rol (n : Node) (a : AcuIx) (k : TaskIx)
  /-- ROR (R210). ACU rotate right by register. -/
  | ror (n : Node) (a : AcuIx) (k : TaskIx)
  /-- MUL (R172). ACU signed 64-bit multiply into MDH:MDL. -/
  | mul (n : Node) (a : AcuIx) (k : TaskIx)
  /-- MULU (R172). ACU unsigned 64-bit multiply into MDH:MDL. -/
  | mulu (n : Node) (a : AcuIx) (k : TaskIx)
  /-- DIV (R174). ACU signed divide on the shared iterative divider. -/
  | div (n : Node) (a : AcuIx) (k : TaskIx)
  /-- DIVU (R174). ACU unsigned divide on the shared divider. -/
  | divu (n : Node) (a : AcuIx) (k : TaskIx)
  /-- DIVIDE_COMPLETE (R174). After 36 cycles the divide commits its quotient, remainder and flags, and frees the divider. -/
  | divideComplete (n : Node) (a : AcuIx)
  /-- DADD (R212). Packed-decimal add. -/
  | dadd (n : Node) (a : AcuIx) (k : TaskIx)
  /-- DSUB (R212). Packed-decimal subtract. -/
  | dsub (n : Node) (a : AcuIx) (k : TaskIx)
  /-- DADJ (R213). Mixed-radix adjust of four two-digit fields. -/
  | dadj (n : Node) (a : AcuIx) (k : TaskIx)
  /-- ADDI (R206). Add sign-extended immediate. -/
  | addi (n : Node) (a : AcuIx) (k : TaskIx)
  /-- ANDI (R206). AND zero-extended immediate. -/
  | andi (n : Node) (a : AcuIx) (k : TaskIx)
  /-- ORI (R206). OR zero-extended immediate. -/
  | ori (n : Node) (a : AcuIx) (k : TaskIx)
  /-- XORI (R206). XOR zero-extended immediate. -/
  | xori (n : Node) (a : AcuIx) (k : TaskIx)
  /-- LUI (R206). Load upper immediate. -/
  | lui (n : Node) (a : AcuIx) (k : TaskIx)
  /-- CMPI (R206). Compare with immediate, setting flags. -/
  | cmpi (n : Node) (a : AcuIx) (k : TaskIx)
  /-- SHLI (R210). Left shift by immediate. -/
  | shli (n : Node) (a : AcuIx) (k : TaskIx)
  /-- SHRI (R210). Logical right shift by immediate. -/
  | shri (n : Node) (a : AcuIx) (k : TaskIx)
  /-- SARI (R210). Arithmetic right shift by immediate. -/
  | sari (n : Node) (a : AcuIx) (k : TaskIx)
  /-- ROLI (R210). Rotate left by immediate. -/
  | roli (n : Node) (a : AcuIx) (k : TaskIx)
  /-- RORI (R210). Rotate right by immediate. -/
  | rori (n : Node) (a : AcuIx) (k : TaskIx)
  /-- LDB (R214). Load sign-extended byte. -/
  | ldb (n : Node) (a : AcuIx) (k : TaskIx) (way : BusWay)
  /-- LDBU (R214). Load zero-extended byte. -/
  | ldbu (n : Node) (a : AcuIx) (k : TaskIx) (way : BusWay)
  /-- LDH (R214). Load sign-extended halfword. -/
  | ldh (n : Node) (a : AcuIx) (k : TaskIx) (way : BusWay)
  /-- LDHU (R214). Load zero-extended halfword. -/
  | ldhu (n : Node) (a : AcuIx) (k : TaskIx) (way : BusWay)
  /-- LD (R214). Load word. -/
  | ld (n : Node) (a : AcuIx) (k : TaskIx) (way : BusWay)
  /-- LDD (R214). Load doubleword into an even pair. -/
  | ldd (n : Node) (a : AcuIx) (k : TaskIx) (way : BusWay)
  /-- LWG (R214). Load eight words into the caller's register group in a trap window. -/
  | lwg (n : Node) (a : AcuIx) (k : TaskIx) (way : BusWay)
  /-- STB (R214). Store byte into the store buffer. -/
  | stb (n : Node) (a : AcuIx) (k : TaskIx)
  /-- STH (R214). Store halfword. -/
  | sth (n : Node) (a : AcuIx) (k : TaskIx)
  /-- ST (R214). Store word. -/
  | st (n : Node) (a : AcuIx) (k : TaskIx)
  /-- STD (R214). Store doubleword from an even pair. -/
  | std (n : Node) (a : AcuIx) (k : TaskIx)
  /-- SWG (R214). Store the caller's register group in a trap window. -/
  | swg (n : Node) (a : AcuIx) (k : TaskIx)
  /-- B_COND (R215). Conditional branch on the flags. -/
  | bCond (n : Node) (a : AcuIx) (k : TaskIx)
  /-- CALL (R216). Call, writing the return address to W8. -/
  | call (n : Node) (a : AcuIx) (k : TaskIx)
  /-- JRL (R216). Jump to register and link. -/
  | jrl (n : Node) (a : AcuIx) (k : TaskIx)
  /-- FADD (R221). ACU floating-point add. -/
  | fadd (n : Node) (a : AcuIx) (k : TaskIx)
  /-- FSUB (R221). ACU floating-point subtract. -/
  | fsub (n : Node) (a : AcuIx) (k : TaskIx)
  /-- FMUL (R221). ACU floating-point multiply. -/
  | fmul (n : Node) (a : AcuIx) (k : TaskIx)
  /-- FMADD (R221). ACU fused multiply-add. -/
  | fmadd (n : Node) (a : AcuIx) (k : TaskIx)
  /-- FDIV (R221). ACU floating-point divide, occupying the unit. -/
  | fdiv (n : Node) (a : AcuIx) (k : TaskIx)
  /-- FSQRT (R221). ACU floating-point square root, occupying the unit. -/
  | fsqrt (n : Node) (a : AcuIx) (k : TaskIx)
  /-- FMIN (R221). ACU floating-point minimum. -/
  | fmin (n : Node) (a : AcuIx) (k : TaskIx)
  /-- FMAX (R221). ACU floating-point maximum. -/
  | fmax (n : Node) (a : AcuIx) (k : TaskIx)
  /-- FNEG (R221). ACU floating-point negate. -/
  | fneg (n : Node) (a : AcuIx) (k : TaskIx)
  /-- FABS (R221). ACU floating-point absolute value. -/
  | fabs (n : Node) (a : AcuIx) (k : TaskIx)
  /-- FCVT_F (R221). Convert between binary32 and binary64. -/
  | fcvtF (n : Node) (a : AcuIx) (k : TaskIx)
  /-- FCVT_I (R221). Convert float to SINT 32. -/
  | fcvtI (n : Node) (a : AcuIx) (k : TaskIx)
  /-- FCVT_U (R221). Convert float to UINT 32. -/
  | fcvtU (n : Node) (a : AcuIx) (k : TaskIx)
  /-- FCVT_FI (R221). Convert SINT 32 to float. -/
  | fcvtFi (n : Node) (a : AcuIx) (k : TaskIx)
  /-- FCVT_FU (R221). Convert UINT 32 to float. -/
  | fcvtFu (n : Node) (a : AcuIx) (k : TaskIx)
  /-- FCMP (R221). ACU floating-point comparison into a register. -/
  | fcmp (n : Node) (a : AcuIx) (k : TaskIx)
  /-- FP_REPORT (R200). A floating-point op's result becomes available and its flags enter FSR, possibly making FP_TRAP pending. -/
  | fpReport (n : Node) (a : AcuIx) (k : TaskIx) (r : Nat)
  /-- WADV (R176). Window advance, or WINDOW_OVF. -/
  | wadv (n : Node) (a : AcuIx) (k : TaskIx)
  /-- WREV (R176). Window revert, or WINDOW_UNF. -/
  | wrev (n : Node) (a : AcuIx) (k : TaskIx)
  /-- RETI (R184). Return from trap, or chain to a pending cause. -/
  | reti (n : Node) (a : AcuIx) (k : TaskIx)
  /-- TRAP (R217). Raises SWTRAP. -/
  | trap (n : Node) (a : AcuIx) (k : TaskIx)
  /-- WAIT (R170). Waits until any interrupt cause is pending for the task. -/
  | wait (n : Node) (a : AcuIx) (k : TaskIx)
  /-- SYNC (R193). Waits until the task's earlier stores have drained. -/
  | sync (n : Node) (a : AcuIx) (k : TaskIx)
  /-- ISYNC (R196). Drains stores and invalidates the ACU's instruction cache. -/
  | isync (n : Node) (a : AcuIx) (k : TaskIx)
  /-- FBAR (R201). Commits after every earlier floating-point op has reported. -/
  | fbar (n : Node) (a : AcuIx) (k : TaskIx)
  /-- MFSR (R218). Read a special register. -/
  | mfsr (n : Node) (a : AcuIx) (k : TaskIx)
  /-- MTSR (R218). Write a special register. -/
  | mtsr (n : Node) (a : AcuIx) (k : TaskIx)
  /-- MILL_ISS (R186). Presents a macro-op to Millrace and writes its acceptance number. -/
  | millIss (n : Node) (a : AcuIx) (k : TaskIx)
  /-- MILL_RES (R188). Takes the oldest Croak value from the gang's result queue. -/
  | millRes (n : Node) (a : AcuIx) (k : TaskIx)
  /-- MILL_WAIT (R189). Waits for and returns the outcome of a numbered macro-op. -/
  | millWait (n : Node) (a : AcuIx) (k : TaskIx)
  /-- MILL_YIELD (R190). Sends a stop request with cause ACU to the gang. -/
  | millYield (n : Node) (a : AcuIx) (k : TaskIx)
  /-- MILL_RESUME (R190). Acts as a RESUME write to the gang. -/
  | millResume (n : Node) (a : AcuIx) (k : TaskIx)
  /-- TASK_WAKE (R170). A waiting task's condition clears, such as cache data returning, and it becomes READY. -/
  | taskWake (n : Node) (a : AcuIx) (k : TaskIx)
  /-- TRAP_ENTRY (R182). A takeable cause is taken: registers saved in the next window and the PC set to the vector. -/
  | trapEntry (n : Node) (a : AcuIx) (k : TaskIx)
  /-- STORE_DRAIN (R192). The oldest store-buffer entry drains to its target. -/
  | storeDrain (n : Node) (a : AcuIx) (way : BusWay)
  /-- RAM_TEST_WINDOW (R198). Every INTERVAL µs the ACU march-tests one window of local RAM and restores it. -/
  | ramTestWindow (n : Node) (a : AcuIx) (fails yielded : Bool)
  /-- TASK_EN_WRITE (R202). Writing ACU_TASK_CTRL.EN starts a task at its PC or moves it to DRAINING. -/
  | taskEnWrite (n : Node) (a : AcuIx) (k : TaskIx) (en : Bool)
  /-- TASK_DRAIN_DONE (R202). A draining task has no instruction, store or float op outstanding, and STATE reads OFF. -/
  | taskDrainDone (n : Node) (a : AcuIx) (k : TaskIx)
  /-- ACU_IPI_WRITE (R179). Writing 1 to a bit of ACU_IPI raises the matching IPI cause. -/
  | acuIpiWrite (n : Node) (a : AcuIx) (w : Half)
  /-- ACU_BELL_WRITE (R180). A write to ACU_BELL stores MSG and raises cause CMD at the ACU. -/
  | acuBellWrite (n : Node) (a : AcuIx) (w : Word)
  /-- OWNER_WRITE (R226). Writing STG_BANK_OWNER.OWNER starts a handover of a staging bank. -/
  | ownerWrite (n : Node) (b : Fin 8) (owner : Fin 32)
  /-- HANDOVER_COMMIT (R226). After the old owner's accesses and cache write-backs, CURRENT takes OWNER and PENDING clears. -/
  | handoverCommit (n : Node) (b : Fin 8)
  /-- STAGING_ACCESS (R225). A staging-bank request is served for the current owner or given the non-owner treatment. -/
  | stagingAccess (n : Node) (m : Fin 32) (al : Fin 3) (req : NetReq)
  /-- STG_TEST_WINDOW (R231). Every INTERVAL µs each bank march-tests one 64-word window and restores it. -/
  | stgTestWindow (n : Node) (fails : BitVec 8) (yielded : Bool)
  /-- RECORD_STORE_ACCESS (R233). A record store request is served with SEC-DED correction. -/
  | recordStoreAccess (n : Node) (m : Fin 32) (req : NetReq)
  /-- REC_SCRUB_STEP (R233). The controller scrubs the next record store words of its pass. -/
  | recScrubStep (n : Node)
  /-- REC_CLEAR_DONE (R234). The background clear after a wake finishes and CLEARING reads 0. -/
  | recClearDone (n : Node)
  /-- RING_TRIGGER (R236). Writing REC_RING_CTRL.TRIGGER = 1 fires the register trigger source of the ring. -/
  | ringTrigger (n : Node) (r : Fin 32)
  /-- RING_FREEZE (R236). POST KiB after a trigger, the ring sets FROZEN and accepts no data. -/
  | ringFreeze (n : Node) (r : Fin 32)
  /-- RING_RESUME (R236). Writing FROZEN = 1 clears FROZEN and TRIGGERED and appending continues. -/
  | ringResume (n : Node) (r : Fin 32)
  /-- RING_EN_WRITE (R237). Writing REC_RING_CTRL.EN enables a ring or moves it to DRAINING. -/
  | ringEnWrite (n : Node) (r : Fin 32) (en : Bool)
  /-- RING_DRAIN_DONE (R237). The appends issued have landed and the ring's STATE reads OFF. -/
  | ringDrainDone (n : Node) (r : Fin 32)
  /-- WHEEL_TRANSFER (R243). A Wheel engine moves a tile's elements between memory and its transfer buffer and makes the buffer ready. -/
  | wheelTransfer (n : Node) (t : TileMove)
  /-- WHEEL_EN_WRITE (R244). Writing WHL_ENG.EN = 0 moves the engine to DRAINING. -/
  | wheelEnWrite (n : Node) (e : Fin 4) (en : Bool)
  /-- WHEEL_DRAIN_DONE (R244). The last latched transfer of a draining engine retires and STATE reads OFF. -/
  | wheelDrainDone (n : Node) (e : Fin 4)
  /-- JLINK_EN_WRITE (R247). Writing SP_JLINK_CFG0.EN starts or drains a JESD204C link. -/
  | jlinkEnWrite (n : Node) (k : Fin 16) (en : Bool)
  /-- JLINK_UP (R249). A receive link aligns after lane lock and SYSREF and comes UP. -/
  | jlinkUp (n : Node) (k : Fin 16)
  /-- JESD_BLOCK_RECEIVE (R248). A receive link takes a 64b/66b block, stamps its samples or discards it on CRC-12 failure. -/
  | jesdBlockReceive (n : Node) (k : Fin 8) (bad : BitVec 8) (octs : List (BitVec 64))
  /-- LANE_ALIGN_LOSS (R249). A lane loses block alignment and its link goes down until realigned. -/
  | laneAlignLoss (n : Node) (p : Fin 24)
  /-- SYSREF_PULSE (R247). A SYSREF pulse leaves at every multiple of PERIOD_NS and is checked against each link's clock. -/
  | sysrefPulse (n : Node)
  /-- LANE_SIGNAL_LOSS (R252). A WSL lane loses signal and its channels are treated as lost. -/
  | laneSignalLoss (n : Node) (p : Fin 24)
  /-- SAMPLES (R252). A WSL SAMPLES packet is taken, checked and its stamped samples passed to the channel engine. -/
  | samples (n : Node) (p : Fin 24) (bytes : List (BitVec 8)) (period : Nat)
  /-- TIME_SYNC (R251). Every 1 ms a two-way time exchange keeps the front-end's sample clock on device time. -/
  | timeSync (n : Node) (p : Fin 24) (x : SyncStep)
  /-- CONTROL (R251). A WSL CONTROL packet carries front-end register access. -/
  | control (n : Node) (p : Fin 24) (toFrontEnd : Bool) (bytes : List (BitVec 8))
  /-- RAW_LANE_WORD (R284). A raw-mode lane half delivers a 64-bit word to its Gecko region. -/
  | rawLaneWord (n : Node) (p : Fin 24) (w : LaneWord)
  /-- SAMPLE_WRITE_DONE (R259). A container write completes and its lateness is checked against LATE_LIMIT. -/
  | sampleWriteDone (n : Node) (t : Fin 64)
  /-- SAMPLE_LOST_DUE (R260). At a sample's due time plus LATE_LIMIT with no sample, it is written as lost. -/
  | sampleLostDue (n : Node) (c : Fin 16384)
  /-- BLOCK_COMPLETE (R262). A complete block's descriptor is written, routes change, interrupts fire, a monitor is armed and copies go to ring and Log. -/
  | blockComplete (n : Node) (t : Fin 64)
  /-- STREAM_EN_WRITE (R262). Writing CH_STRM_CTRL.EN enables a stream or starts completing its block. -/
  | streamEnWrite (n : Node) (t : Fin 64) (en : Bool)
  /-- STREAM_DRAIN_DONE (R262). A draining stream's last descriptor is written and STATE reads OFF. -/
  | streamDrainDone (n : Node) (t : Fin 64)
  /-- DRIVE_FETCH (R263). An output fetches ready samples from its ring into its FIFO. -/
  | driveFetch (n : Node) (o : Fin 256) (count : BitVec 12)
  /-- DRIVE_SAMPLE_DUE (R263). At a due time the output sends the sample, ramp step, loop or SAFE to its sink. -/
  | driveSampleDue (n : Node) (o : Fin 256)
  /-- DRV_READY_WRITE (R263). A write of DRV_READY raises the ready index, or is refused if it would fall. -/
  | drvReadyWrite (n : Node) (o : Fin 256) (half : Fin 3) (v : DWord)
  /-- DRIVE_MUTE_WRITE (R266). Writing DRV_CTRL.MUTE starts a ramp down of the selected output. -/
  | driveMuteWrite (n : Node) (o : Fin 256)
  /-- DRIVE_UNMUTE_WRITE (R267). Writing DRV_CTRL.UNMUTE starts a ramp up or is refused. -/
  | driveUnmuteWrite (n : Node) (o : Fin 256)
  /-- MUTE_ALL_WRITE (R266). Writing DRV_GLOBAL.MUTE_ALL starts a ramp down on every output. -/
  | muteAllWrite (n : Node)
  /-- DRIVE_EN_WRITE (R269). Writing DRV_CFG.EN enables an output MUTED or drains it through the ramp. -/
  | driveEnWrite (n : Node) (o : Fin 256) (en : Bool)
  /-- INHIBIT_ASSERT (R268). DRV_INHIBIT_N low for 100 ns mutes every output. -/
  | inhibitAssert (n : Node)
  /-- INHIBIT_RELEASE (R268). DRV_INHIBIT_N high for 100 ns clears INHIBIT. -/
  | inhibitRelease (n : Node)
  /-- LOG_EVENT_WRITE (R270). An aligned 64-bit write of LOG_EVENT posts one EVENT record. -/
  | logEventWrite (c : Ctx) (n : Node) (d : DWord)
  /-- LOG_HOST_COPY (R275). The engine copies a whole record into the host ring and advances WPTR. -/
  | logHostCopy (n : Node)
  /-- LOG_IRQ_TIMER (R275). TIMER_US after the first unsignalled record, the LOG interrupt is raised. -/
  | logIrqTimer (n : Node)
  /-- LOG_RPTR_WRITE (R275). A write of LOG_HOST_RPTR frees host ring room, or is refused. -/
  | logRptrWrite (n : Node) (half : Fin 3) (v : DWord)
  /-- LOG_EN_WRITE (R276). Writing LOG_CTRL.EN enables the engine or starts its drain. -/
  | logEnWrite (n : Node) (en : Bool)
  /-- LOG_DRAIN_DONE (R276). Nothing remains to copy and the engine's STATE reads OFF. -/
  | logDrainDone (n : Node)
  /-- FABRIC_CONTENTION (R281). Two drivers drive one long track for 5 ns, and the contention is recorded. -/
  | fabricContention (n : Node) (track : Fin 1024) (user : BitVec 16)
  /-- REGION_RAM_READ (R279). A design reads a RAM block word, with ECC correction in the ECC shape. -/
  | regionRamRead (n : Node) (r : Fin 8) (m : Fin 64) (b : Bool) (w : BitVec 14) (wr : Option (BitVec 14 × DWord)) (oneClock : Bool)
  /-- INBOUND_BEAT (R283). An inbound stream beat enters the port FIFO or is discarded when full. -/
  | inboundBeat (n : Node) (port : Fin 32) (beat : BitVec 128) (period : Word) (taken : BitVec 7)
  /-- OUTBOUND_BEAT_EXPIRE (R283). An outbound beat not taken by its due time is discarded. -/
  | outboundBeatExpire (n : Node) (port : Fin 32) (taken : Bool)
  /-- FABRIC_MASTER_REQUEST (R285). A region issues a request through its master channel. -/
  | fabricMasterRequest (n : Node) (r : Fin 8) (q : TaggedReq) (ans : Option (List (BitVec 8)))
  /-- GECKO_WINDOW_ACCESS (R286). An access to a region's target window goes to its design or is answered as isolated. -/
  | geckoWindowAccess (n : Node) (r : Fin 8) (who : BitVec 8) (req : NetReq) (data : List (BitVec 8))
  /-- GECKO_TRIGGER (R286). A rising trigger line fires its ring trigger source or monitor event. -/
  | geckoTrigger (n : Node) (l : Fin 32)
  /-- GECKO_IRQ_LINE (R286). A rising interrupt line sets GKO_IRQ_PEND, raising FABRIC if enabled. -/
  | geckoIrqLine (n : Node) (l : Fin 16)
  /-- REGION_EN_WRITE (R293). Writing GKO_REGION_CTRL.EN releases a held region or drains it after muting its outputs. -/
  | regionEnWrite (n : Node) (r : Fin 8) (en : Bool)
  /-- REGION_DRAIN_DONE (R293). A draining region has stopped and reads OFF with PHASE HOLD. -/
  | regionDrainDone (n : Node) (r : Fin 8)
  /-- CONFIG_WORD_CHECK (R294). A configuration word of a running region is checked, corrected or found uncorrectable. -/
  | configWordCheck (n : Node) (r : Fin 8) (w : ConfigUpset)
  /-- CAPTURE (R296). GKO_CAPTURE_CTRL.CMD = capture names regions and a device time to capture. -/
  | capture (n : Node) (freeze : Bool) (regions : BitVec 8)
  /-- CAPTURE_EDGE (R296). At the first region clock edge at or after T, each named region records its state and may freeze. -/
  | captureEdge (n : Node) (r : Fin 8) (cells : List CellIn)
  /-- CAPTURE_WRITTEN (R296). Every named region's record is written and DONE is set. -/
  | captureWritten (n : Node)
  /-- CAPTURE_RESUME (R296). GKO_CAPTURE_CTRL.CMD = resume restarts the clocks of FROZEN regions. -/
  | captureResume (n : Node)
  /-- EPOCH_BOUNDARY (R299). In PERIODIC mode a boundary at each multiple of the period starts a commit or is skipped. -/
  | epochBoundary 
  /-- WEIR_COMMIT_WRITE (R299). Writing WEIR_CTRL.COMMIT on the primary makes an explicit boundary, held if a commit runs. -/
  | weirCommitWrite (n : Node)
  /-- WEIR_DISCARD (R304). Writing WEIR_CTRL.DISCARD drops unsealed shadow writes on every node. -/
  | weirDiscard (n : Node)
  /-- PREPARE (R301). A node takes PREPARE, seals its shadow and publications, records its vote in three copies and sends it. -/
  | prepareCommit (n : Node) (e0 e1 e2 : BitVec 104)
  /-- VOTE (R308). A vote reaches the primary; with every vote YES the primary sends COMMIT with Ta. -/
  | vote (n : Node)
  /-- COMMIT (R308). A node takes COMMIT and schedules its apply at Ta, or applies at once if late. -/
  | commit (n : Node)
  /-- APPLY (R308). At Ta each node applies RWL fields, checks, fronts, node table and E, and signals EPOCH. -/
  | applyEpoch 
  /-- SNAPSHOT_IMAGE_DONE (R314). A node's image ends and its header is written, or WEIR_SNAP_DROP is raised. -/
  | snapshotImageDone (n dn : Node) (g : GangIx)
  /-- COMMIT_ACK (R308). A node's acknowledgement of COMMIT reaches the primary. -/
  | commitAck (n : Node)
  /-- ABANDON (R311). A node takes ABANDON, applies nothing and merges its sealed set back. -/
  | abandon (n : Node)
  /-- VOTE_TIMEOUT (R311). A vote missing at VOTE_US after the boundary fails the commit. -/
  | voteTimeout 
  /-- COMMIT_LATE (R309). A node that has neither applied nor abandoned by the late limit raises DLM_EPOCH_LATE. -/
  | commitLate (n : Node)
  /-- OUTCOME_TIMEOUT (R312). A node holding a YES vote with no outcome after VOTE_US + 100 µs becomes ISOLATED. -/
  | outcomeTimeout (n : Node)
  /-- PUB_READY (R305). Writing WEIR_PUB_CTRL.READY marks the copy being written ready for the next seal. -/
  | pubReady (n : Node) (p : Fin 32) (copy : Fin 4)
  /-- PUB_EN_WRITE (R307). Writing WEIR_PUB_CTRL.EN enables a publication or starts its drain. -/
  | pubEnWrite (n : Node) (p : Fin 32) (en : Bool)
  /-- SQ_TAIL_WRITE (R327). A submission tail doorbell submits entries, or is discarded with CMD_QUEUE_ERROR. -/
  | sqTailWrite (q : Fin 16) (v : Half)
  /-- CQ_HEAD_WRITE (R327). A completion head doorbell frees completion entries. -/
  | cqHeadWrite (q : Fin 16) (v : Half)
  /-- QUEUE_EN_WRITE (R328). Writing CMD_Q_CTRL.EN enables a queue pair or starts its drain. -/
  | queueEnWrite (q : Fin 16) (en : Bool)
  /-- QUEUE_DRAIN_DONE (R328). Every reply of a draining queue is written and STATE reads OFF. -/
  | queueDrainDone (q : Fin 16)
  /-- COMMAND_TAKE (R329). The processor takes the next command of a queue in round robin when the completion queue has room, and checks it. -/
  | commandTake (q : Fin 16) (pkt : BitVec 512) (x : TakeIn)
  /-- COMMAND_COMPLETION (R334). A triggered, epoch or long command's work ends and its reply is written. -/
  | commandCompletion (q : Fin 16) (cid : Half)
  /-- NOP (R338). Command that completes OK. -/
  | nop 
  /-- IDENTIFY (R340). Command writing 64 bytes of identification for a node. -/
  | identify (dma : Fin 3)
  /-- ABORT (R335). Command aborting a target command, resolved against its commit point. -/
  | abort 
  /-- REG_READ (R338). Command reading 1–4 registers through the queue's context. -/
  | regRead 
  /-- REG_WRITE (R338). Command writing 1–4 registers through the queue's context. -/
  | regWrite 
  /-- STORE_SETTINGS (R423). Command writing a settings page in three verified copies. -/
  | storeSettings (data : List (BitVec 8)) (bad : BitVec 3) (dma : Fin 3)
  /-- READ_SETTINGS (R422). Command returning the selected copy of a settings page. -/
  | readSettings (dma : Fin 3)
  /-- IMAGE_WRITE (R426). Command checking and writing an image into an MRAM slot. -/
  | imageWrite (data : List (BitVec 8)) (fail : Bool) (dma : Fin 3)
  /-- MICROCODE_LOAD (R84). Command loading a microcode image into every tile's stores and verifying it. -/
  | microcodeLoad 
  /-- BOOT_SELECT (R338). Command writing the boot record for the next boot. -/
  | bootSelect (bad : BitVec 3)
  /-- GANG_RUN (R339). Command starting a gang program on its issuing task and completing at A.END. -/
  | gangRun 
  /-- GANG_STOP (R338). Command requesting a stop with cause HOST. -/
  | gangStop 
  /-- GANG_RESUME (R338). Command resuming a stopped gang. -/
  | gangResume 
  /-- GANG_DISABLE (R338). Command draining a gang to OFF. -/
  | gangDisable 
  /-- TASK_START (R338). Command starting an ACU task at a PC and PSW. -/
  | taskStart 
  /-- TASK_STOP (R338). Command disabling an ACU task. -/
  | taskStop 
  /-- STREAM_CTRL (R338). Command enabling or disabling a stream. -/
  | streamCtrl 
  /-- DRIVE_MUTE (R338). Command muting an output, group, node or all nodes. -/
  | driveMute 
  /-- DRIVE_UNMUTE (R338). Command unmuting outputs and returning the number refused. -/
  | driveUnmute 
  /-- EPOCH_COMMIT (R338). Command making an explicit boundary and completing at the apply instant. -/
  | epochCommit 
  /-- EPOCH_STAGE (R315). Command staging RWL writes in the queue's command set. -/
  | epochStage 
  /-- SNAPSHOT (R313). Command imaging named gangs at the next apply instant. -/
  | snapshot 
  /-- FAULT_ACK (R386). Command acknowledging the open faults of a source. -/
  | faultAck 
  /-- FAULT_READ (R338). Command writing current fault records or the black-box history to host memory. -/
  | faultRead (dma : Fin 3)
  /-- POWER_STATE (R341). Command moving named nodes to a power state. -/
  | powerState 
  /-- FABRIC_LOAD (R288). Command loading a whole or region fabric image at a commit. -/
  | fabricLoad 
  /-- TOPOLOGY_READ (R362). Command writing the node table. -/
  | topologyRead (dma : Fin 3)
  /-- TOPOLOGY_RESCAN (R356). Command calling on every link and staging every admitted module. -/
  | topologyRescan 
  /-- VECTOR_UNMASK (R343). Unmasking a vector with its PBA bit set sends its held message. -/
  | vectorUnmask (v : BitVec 8)
  /-- LINK_TRAINED (R320). The PCI Express link trains to the best common rate and width. -/
  | linkTrained (n : Node) (rate width : Fin 5) (lanes : BitVec 16) (reversed : Bool)
  /-- FUNCTION_LEVEL_RESET (R324). FLR, hot reset or link loss resets the command interface and resolves in-flight commands. -/
  | functionLevelReset (loss : Bool)
  /-- D3HOT_WRITE (R322). A write of D3hot is taken as a request for Brake or held with D3_HELD. -/
  | d3hotWrite 
  /-- D0_WRITE (R321). A write of D0 clears D3_HELD, releases held replies and requests Run. -/
  | d0Write 
  /-- PERST_N_ASSERT (R441). PERST_N low resets the endpoint and command interface. -/
  | perstNAssert (n : Node)
  /-- SPAN_LINK_UP (R346). A Bunel link finishes training with all 4 lanes and reads UP. -/
  | spanLinkUp (n : Node) (l : Fin 8) (pn : Node) (pl : Fin 8) (asym : Word)
  /-- SPAN_TRAIN_RETRY (R346). A link with a failed lane retries training every 10 ms. -/
  | spanTrainRetry (n : Node) (l : Fin 8)
  /-- FLIT_RECEIVE (R347). A link receives a flit, delivering it in order or asking for a replay. -/
  | flitReceive (n : Node) (l : Fin 8) (seq : BitVec 32) (x : FlitIn)
  /-- LINK_DOWN_DETECT (R347). A link without a valid flit for 1 µs reads DOWN and its traffic moves to the pair. -/
  | linkDownDetect (n : Node) (l : Fin 8)
  /-- SPAN_LINK_EN_WRITE (R346). Writing SPAN_LINK_CTRL.EN enables a link or moves its traffic and drains it. -/
  | spanLinkEnWrite (n : Node) (l : Fin 8) (en : Bool)
  /-- CALL_PERIOD (R352). Every CALL_MS each UP link or WSL lane sends a Chorus call. -/
  | callPeriod (n : Node)
  /-- CHORUS_CALL (R352). A Chorus call is taken, answered and judged for admission. -/
  | chorusCall (n : Node) (port : Fin 32) (bytes : List (BitVec 8))
  /-- CHORUS_ANSWER (R359). A Chorus answer is taken; a front-end answering is admitted on its lane. -/
  | chorusAnswer (n : Node) (port : Fin 32) (bytes : List (BitVec 8))
  /-- PRIMARY_ELECTION (R353). After 50 ms of calls the lowest-serial candidate becomes PRIMARY. -/
  | primaryElection 
  /-- LOSS_REPORT (R357). A surviving end reports a lost node to the primary, which raises PARTNER_LOST. -/
  | lossReport (n : Node) (d : Fin 4)
  /-- FENCE (R358). A module fences a lost node's links, stops its gangs and mutes its outputs. -/
  | fence (n lost : Node)
  /-- PRIMARY_UNREACHABLE (R357). A node unable to reach the primary for 20 µs takes role ISOLATED and mutes. -/
  | primaryUnreachable (n : Node)
  /-- FRONT_END_LEAVE (R359). Three unanswered calls or a changed serial make a front-end leave and its outputs mute. -/
  | frontEndLeave (n : Node) (p : Fin 24)
  /-- TIME_TRANSFER (R360). Every 10 µs parent and child exchange stamped messages and the child corrects its timebase. -/
  | timeTransfer (n : Node) (l : Fin 8) (t1 t2 t3 t4 : DWord)
  /-- KEEP_ALIVE_WAKE (R409). A keep-alive wake from the primary wakes a node below Run. -/
  | keepAliveWake (n : Node)
  /-- READ (R363). A READ request reaches its target and is answered with RDATA. -/
  | read (n : Node) (c : Ctx) (f : BitVec 128) (ans : PacketIn)
  /-- WRITE (R363). A WRITE header with its WDATA reaches its target as one request and is answered. -/
  | write (n : Node) (c : Ctx) (f : BitVec 128) (data : List (BitVec 8)) (ans : PacketIn)
  /-- MSG (R363). A MSG delivers an event to an ACU or the command processor. -/
  | msg (n : Node) (f : BitVec 128) (msg : MsgIn)
  /-- ACK (R363). A response reaches its initiator and completes its request, or is discarded if late. -/
  | ack (n : Node) (e : BitVec 8) (tag : BitVec 12)
  /-- HELD (R376). A HELD notice extends the initiator's timeout for a wake. -/
  | held (n : Node) (e : BitVec 8) (tag : BitVec 12)
  /-- SNOOP_INV (R363). A snoop invalidates a data-cache line. -/
  | snoopInv (n : Node) (f : BitVec 128) (line : BitVec 21)
  /-- SNOOP_WBINV (R363). A snoop writes back and invalidates a data-cache line. -/
  | snoopWbinv (n : Node) (f : BitVec 128) (line : BitVec 21)
  /-- SNOOP_ACK (R363). A snoop acknowledgement returns to its requester. -/
  | snoopAck (n : Node) (e : BitVec 8)
  /-- ROUTER_FORWARD (R369). A router sends the oldest head flit onward, or discards it with NOROUTE or DECERR. -/
  | routerForward (n : Node) (r : Fin 48) (out : Fin 8) (ins : List RtrIn)
  /-- INITIATOR_TIMEOUT (R370). A request unanswered at its limit gets a synthesised RSP_TIMEOUT. -/
  | initiatorTimeout (n : Node) (e : BitVec 8) (tag : BitVec 12)
  /-- NOC_ISOLATE_WRITE (R371). A write of NOC_ISOLATE isolates or releases endpoints while MAINT allows. -/
  | nocIsolateWrite (n : Node) (k : Fin 8) (w : Word)
  /-- ROUTER_SWAP (R373). Writing SWAP = 1 holds the router's feeders and drains it for a table swap. -/
  | routerSwap (n : Node) (r : Fin 48)
  /-- SWAP_DRAIN_DONE (R373). The router has drained, the banks are exchanged and the feeders reopen. -/
  | swapDrainDone (n : Node) (r : Fin 48)
  /-- NOC_RECONF_STALL (R373). A swap whose drain has not ended within 10 µs is reported. -/
  | nocReconfStall (n : Node) (r : Fin 48)
  /-- DOMAIN_DOWN_WRITE (R410). Writing GOV_DOMAIN.DOWN powers a domain down or up in Run. -/
  | domainDownWrite (n : Node) (w : BitVec 4)
  /-- BRIDGE_CLOSED (R375). Every owed response has left a closing domain, its bridges close and it powers down. -/
  | bridgeClosed (n : Node) (d : Fin 8)
  /-- DOMAIN_WAKE_DONE (R376). A domain woken for a held request is up and the held requests are forwarded. -/
  | domainWakeDone (n : Node) (d : Fin 8)
  /-- FAULT_EVENT (R378). The collector takes an event, decides its level, records it and applies that level's reactions. -/
  | faultEvent (n : Node) (k : Fin 64)
  /-- QUIET_WINDOW_END (R390). The quiet window of a block reset ends. -/
  | quietWindowEnd (n : Node) (src : BitVec 8) (inst : Half)
  /-- LEAK_TIMER (R383). A source's leak timer expires and COUNT falls by 1. -/
  | leakTimer (n : Node) (src : BitVec 8)
  /-- ESCALATION_TIMER (R385). An open fault's escalation timer expires and an ESCALATED record is made one level higher. -/
  | escalationTimer (n : Node) (src : BitVec 8)
  /-- FAULT_ACK_WRITE (R386). Writing FLT_SRC_STATUS.ACK closes the source's open faults. -/
  | faultAckWrite (n : Node) (src : BitVec 8)
  /-- CLEAR_FIRST (R381). Writing FLT_CTRL.CLEAR_FIRST clears FLT_FIRST and FLT_NEXT. -/
  | clearFirst (n : Node)
  /-- BLACKBOX_WRITE (R429). A queued record is written to the black-box history. -/
  | blackboxWrite (n : Node)
  /-- DLM_ARM_WRITE (R392). Writing DLM_CTRL.ARM arms a monitor, or sets REARM if armed. -/
  | dlmArmWrite (n : Node) (m : Fin 64)
  /-- DLM_DONE_WRITE (R393). Writing DLM_CTRL.DONE completes a monitor, met, late or stray. -/
  | dlmDoneWrite (n : Node) (m : Fin 64)
  /-- DEADLINE_EXPIRY (R393). An armed monitor's deadline passes and it misses. -/
  | deadlineExpiry (n : Node) (m : Fin 64)
  /-- DLM_EN_WRITE (R394). Writing DLM_CTRL.EN enables a monitor or disarms it without a miss. -/
  | dlmEnWrite (n : Node) (m : Fin 64) (en : Bool)
  /-- SAG_STRETCH (R399). An island's supply drops below SAG_MV and it stretches its clock. -/
  | sagStretch (n : Node) (g : Fin 1096) (d : BitVec 10)
  /-- SAG_RECOVER (R399). After 20 ns below threshold the island shortens its period step by step. -/
  | sagRecover (n : Node) (g : Fin 1096)
  /-- SAG_SUSTAINED (R400). An island stretched for SUSTAIN_US makes its compute die's throttle rise. -/
  | sagSustained (n : Node) (d : Fin 4)
  /-- THROTTLE_STEP (R400). The throttle level of a die rises every 10 µs or falls every 100 µs. -/
  | throttleStep (n : Node) (d : Fin 4)
  /-- POWER_SAMPLE (R401). Every 10 µs the Governor measures power and raises throttling above the cap. -/
  | powerSample (n : Node) (dw : Half)
  /-- TEMP_SAMPLE (R402). Every 1 ms each die's temperature is read against WARN_C and the trip limit. -/
  | tempSample (n : Node) (t0 t1 t2 t3 io : BitVec 8)
  /-- RAIL_OUT_OF_RANGE (R403). A monitored rail leaves its range, or VIN falls below 42 V or PWR_FAIL_N falls. -/
  | railOutOfRange (n : Node) (rail : Option (Fin 18 × Bool)) (pwrFail : Bool)
  /-- RAIL_FAULT_TIMEOUT (R403). A rail not recovered by the end of the mute or 1 s makes the Governor enter Rest. -/
  | railFaultTimeout (n : Node) (back : BitVec 9)
  /-- VIN_COLLAPSE (R438). VIN below 36 V for 10 µs stops every VIN domain at once. -/
  | vinCollapse (n : Node)
  /-- VAUX_LOSS (R439). VAUX below 3.0 V takes the module to Off. -/
  | vauxLoss (n : Node)
  /-- POWER_GOOD (R437). All supplies are in range with RESET_N high, and the module sequences rails and boots. -/
  | powerGood (n : Node) (recovery : Bool) (straps : BitVec 10) (link : Bool)
  /-- RESET_N_ASSERT (R440). RESET_N low for 1 µs mutes outputs, finishes MRAM writes and resets the module. -/
  | resetNAssert (n : Node) (high recovery : Bool) (addr : BitVec 2) (link : Bool)
  /-- GOV_REQ_WRITE (R405). A write of GOV_REQ requests a lower power state. -/
  | govReqWrite (n : Node) (target : BitVec 3) (all : Bool)
  /-- POWER_ENTRY_DONE (R406). Clocks stop and power is removed, and GOV_STATE reads the new state. -/
  | powerEntryDone (n : Node)
  /-- WAKE_N_LOW (R407). WAKE_N low for 100 ns wakes the module. -/
  | wakeNLow (n : Node)
  /-- WAKE_TIMER (R407). Device time reaches GOV_WAKE and wakes the module. -/
  | wakeTimer (n : Node)
  /-- POWER_EXIT_DONE (R408). The module reaches Run after a wake and tasks and tiles continue or restart. -/
  | powerExitDone (n : Node)
  /-- RELOAD_DONE (R408). After a wake from Brake or Rest the stores and images are reloaded and READY is set. -/
  | reloadDone (n : Node)
  /-- GOV_CLK_WRITE (R398). A write of GOV_CLK changes island rates at their next cycle boundary. -/
  | govClkWrite (n : Node) (w : Word)
  /-- REF_LOCK (R412). The timebase locks its rate to a valid REFIN. -/
  | refLock (n : Node)
  /-- REFIN_LOSS (R412). REFIN is lost and the timebase enters holdover. -/
  | refinLoss (n : Node)
  /-- PPS_EDGE (R413). A PPS_IN edge aligns phase or makes a pending time load. -/
  | ppsEdge (n : Node)
  /-- TIM_PPS_LOSS (R413). No PPS edge within 1.1 s of the expected edge is reported. -/
  | timPpsLoss (n : Node)
  /-- PPS_OUT_PULSE (R413). PPS_OUT rises at each whole second of device time. -/
  | ppsOutPulse (n : Node)
  /-- TIM_SET_WRITE (R414). Writing TIM_CTRL.SET schedules a load of device time on every node, or is refused. -/
  | timSetWrite (n : Node)
  /-- TIME_LOAD (R414). Device time is loaded from TIM_SET on every node at the PPS edge or 1 s after the write. -/
  | timeLoad 
  /-- TIM_HOLDOVER_LIMIT (R415). The holdover error estimate passes LIMIT_NS. -/
  | timHoldoverLimit (n : Node)
  /-- BMC_WRITE (R416). An I²C write transaction sets the pointer and writes bytes, including a power request. -/
  | bmcWrite (n : Node) (addr : BitVec 2) (ptr : BitVec 8) (bytes : List (BitVec 8))
  /-- MRAM_PATROL (R420). Firmware reads MRAM words, rewriting correctable ones and invalidating uncorrectable copies. -/
  | mramPatrol (n : Node) (addr : BitVec 23) (found : WordCheck)
  /-- SEC_UNLOCK (R430). Writing SEC_UNLOCK.GO verifies the response and unlocks the requested scopes. -/
  | secUnlock (n : Node) (scope : BitVec 3)
  /-- CHALLENGE_EXPIRY (R430). A challenge not used within 60 s expires. -/
  | challengeExpiry (n : Node)
  /-- DBG_REG_READ (R431). DBG_ACU_REG.CMD = read loads a task register into DBG_ACU_DATA. -/
  | dbgRegRead (n : Node) (a : Fin 16) (k : Fin 64) (reg : BitVec 6)
  /-- DBG_REG_WRITE (R431). DBG_ACU_REG.CMD = write writes DBG_ACU_DATA into a task register. -/
  | dbgRegWrite (n : Node) (a : Fin 16) (k : Fin 64) (reg : BitVec 6)
  /-- SENSOR_LANE_LOCK (R245). A sensor lane half gains signal and locks at its quad's rate, moving SP_LANE_STATUS.STATE from NO_SIGNAL or LOCKING to UP. -/
  | sensorLaneLock (n : Node) (p : Fin 24)
  /-- VIN_RETURN (R438). VIN comes back within its operating range after having fallen below 42 V on a module that had reached power good. -/
  | vinReturn (n : Node)
  /-- TLP_WAKE (R321). A host TLP, read or configuration request included, arriving in Idle, Furl or Brake wakes the link and the module. -/
  | tlpWake 
  /-- ASPM_L1_ENTRY (R321). After the PCI Express link has been idle for 10 µs in Run or Idle, the endpoint requests ASPM L1. -/
  | aspmL1Entry (en : Bool)
  deriving DecidableEq, Repr

end Sys2Proof
end

