-- ==== Sys2Proof/Config.lean ====
section
/-! DEFINITION. Sys2Proof/Config.lean: what an implementation fixes and the spec does not print, and the free values. Every
constant here is opaque: no proof can see what it is. -/

namespace Sys2Proof

/-- The n-th free value: 64 bits that the spec leaves undefined at the moment they are drawn (log 2). -/
opaque Config.freeValue : Nat → BitVec 64

/-- Undefined contents: of a scratch row, and of A, C and N of a tile row, by generation and key (02 R30, 03 R72; log 2). -/
opaque Config.freeRow : Nat → Nat → BitVec 64
opaque Config.freePe : Nat → Nat → BitVec 64

/-- Words of the Worlith microcode image, which the spec does not print (03, introduction; log 3). -/
opaque Config.worlithMicro : Nat → BitVec 24
opaque Config.worlithNano : Nat → BitVec 128
/-- Entry addresses of the Worlith dispatch table; VALID and CLASS are 04 R105's (log 3). -/
opaque Config.worlithEntry : Nat → BitVec 13

/-- What a fabric image sets, whose bit format the spec does not print: the clock of a region, the mode of a region's two drivers
on each long track (0 OFF, 1 ON, 2 USER), and the initial contents of its RAM blocks (12 R279, R280, R282, R288; log 40). -/
opaque Config.fabricFreq : List (BitVec 8) → Nat → Nat
opaque Config.fabricDriver : List (BitVec 8) → Nat → Nat → Nat → BitVec 2
opaque Config.fabricRam : List (BitVec 8) → Nat → Nat → BitVec 72
/-- Further: the clock input of a region (0 its island clock, 1 and 2 the pins FIO(12r) and FIO(12r + 1)), a word of its configuration,
a cell (truth table in bits 63 to 0; bits 65:64 the source of flip-flop 0; bit 66 flip-flop 1 takes the rung; bits 67 and 68 the initial
values), the shape of a RAM port; and the clock that a pin carries, and the carry logic of a cell: sum and carry out
(12 R278, R279, R282, R294; log 40). -/
opaque Config.fabricClock : List (BitVec 8) → Nat → BitVec 2
opaque Config.fabricWord : List (BitVec 8) → Nat → Nat → BitVec 64
opaque Config.fabricCell : List (BitVec 8) → Nat → Nat → BitVec 69
opaque Config.fabricShape : List (BitVec 8) → Nat → Nat → BitVec 3
opaque Config.pinClock : Nat → Nat → Nat
opaque Config.fabricCarry : Bool → Bool → Bool → Bool × Bool
/-- How far the time port of a region lags device time (12 R283). -/
opaque Config.fabricTimeLag : Nat → Nat → Nat → Nat

/-- The serial number of a module (14 R340, 19 "Settings store"; log 30). -/
opaque Config.serialNumber : Nat → BitVec 64

/-- Does an ECDSA P-384 signature verify over SHA-384 of a message? The key is 0 for Worlith's, whose value the spec does not print,
or 1 for the owner key given (19 R424, R425, R430; log 48). -/
opaque Config.sigOk : Nat → List (BitVec 8) → List (BitVec 8) → List (BitVec 8) → Bool

/-- Version and FIO of the firmware Worlith ships in a slot: CMD_FW_VERSION (14; log 30). -/
opaque Config.factoryVersion : Nat → BitVec 32

/-- What the fuses of a module name: the spare columns in use in each tile, as NEWT_TILE_REPAIR, and the staging banks that use
redundant columns (02 R37, 10 STG_STATUS; log 30). -/
opaque Config.tileRepair : Nat → Nat → BitVec 32
opaque Config.bankRepair : Nat → BitVec 8

/-- Output port of a router for a defined endpoint in the default table (16 "Router reconfiguration"; log 49). -/
opaque Config.defaultRoute : Nat → Nat → BitVec 3
/-- The wiring of the routers: the one beside an endpoint, the one that a port leads to (none: a unit), and whether it feeds the bridges of
a domain (16 "Router reconfiguration", R373; log 49). -/
opaque Config.routerOf : Nat → Fin 48
opaque Config.routerNext : Nat → Nat → Option (Fin 48)
opaque Config.bridgeFeeds : Nat → Nat → Bool

end Sys2Proof
end

