-- ==== Sys2Proof/Machine/Ecc.lean ====
section
/-! DEFINITION. Sys2Proof/Machine/Ecc.lean: the one extended Hamming code of the NS1024 (02 R33, R34), used at the widths of
plane rows (64), Newt stores (24, 128, 16; 03 R86), staging and record store words (64), and every other memory whose rule
names it; and the CRC-32 of 03 R82. -/

namespace Sys2Proof.Machine

/-- A code: `k` data bits, `h` Hamming check bits, and one overall parity bit held as check bit `h`. -/
structure Code where
  k : Nat
  h : Nat
  deriving DecidableEq, Repr

/-- 64 data bits and 8 check bits (02 R33). -/
def code64 : Code := ⟨64, 7⟩
/-- Microwords (03 R86). -/
def code24 : Code := ⟨24, 5⟩
/-- Nano-words (03 R86). -/
def code128 : Code := ⟨128, 8⟩
/-- Dispatch entries (03 R86). -/
def code16 : Code := ⟨16, 5⟩

/-- Is `p` a power of two? -/
def isPow2 (p : Nat) : Bool := p != 0 && Nat.land p (p - 1) == 0

/-- The positions of the data bits, in ascending order: those from 3 up that are not powers of two (02 R33). -/
def dataPositions (k : Nat) : List Nat :=
  ((List.range (k + 12)).filter fun p => decide (2 < p) && !isPow2 p).take k

/-- The data bits whose position has bit `j` set, as a mask. -/
def checkMask (c : Code) (j : Nat) : Nat :=
  ((dataPositions c.k).zipIdx).foldl (fun m pi => if pi.1.testBit j then m + 2 ^ pi.2 else m) 0

/-- The exclusive OR of all bits of a number below 2^256. -/
def parity (n : Nat) : Bool :=
  let a := Nat.xor n (n >>> 128)
  let a := Nat.xor a (a >>> 64)
  let a := Nat.xor a (a >>> 32)
  let a := Nat.xor a (a >>> 16)
  let a := Nat.xor a (a >>> 8)
  let a := Nat.xor a (a >>> 4)
  let a := Nat.xor a (a >>> 2)
  let a := Nat.xor a (a >>> 1)
  a.testBit 0

/-- The Hamming check bits of `d`, c0 in bit 0. -/
def hamming (c : Code) (d : Nat) : Nat :=
  (List.range c.h).foldl (fun m j => m + 2 ^ j * b2n (parity (Nat.land d (checkMask c j)))) 0

/-- All check bits of `d`: the Hamming bits, and above them the overall parity (02 R33). -/
def encodeCheck (c : Code) (d : Nat) : Nat :=
  let hb := if d = 0 then 0 else hamming c d
  hb + 2 ^ c.h * b2n (parity d != parity hb)

/-- What a decoder finds (02 R34). -/
inductive Found where
  | clean
  /-- One bit corrected; the column is `k + j` for check bit `cj`, else the data bit's number. -/
  | fixed (col : Nat)
  | bad
  deriving DecidableEq, Repr

/-- A decoded word: its data and check bits as corrected, and what was found. -/
structure Decoded where
  data : Nat
  chk : Nat
  found : Found
  deriving DecidableEq, Repr

/-- Decode a stored word (02 R34). -/
def decodeWord (c : Code) (d chk : Nat) : Decoded :=
  if d = 0 && chk = 0 then ⟨0, 0, .clean⟩
  else
  let syn := Nat.xor (hamming c d) (chk % 2 ^ c.h)
  let odd := parity d != parity chk
  if !odd then
    if syn = 0 then ⟨d, chk, .clean⟩ else ⟨d, chk, .bad⟩
  else if syn = 0 then ⟨d, Nat.xor chk (2 ^ c.h), .fixed (c.k + c.h)⟩
  else if isPow2 syn then ⟨d, Nat.xor chk syn, .fixed (c.k + Nat.log2 syn)⟩
  else
    match (dataPositions c.k).idxOf? syn with
    | some i => ⟨Nat.xor d (2 ^ i), chk, .fixed i⟩
    | none => ⟨d, chk, .bad⟩

/-- A stored word with fresh check bits, the check bits above the data. -/
def freshWord (c : Code) (d : Nat) : Nat := d % 2 ^ c.k + 2 ^ c.k * encodeCheck c (d % 2 ^ c.k)

/-- Decode a stored word held with its check bits above the data. -/
def decodeStored (c : Code) (w : Nat) : Decoded := decodeWord c (w % 2 ^ c.k) (w / 2 ^ c.k)

/-! ### CRC-32, IEEE 802.3, reflected (03 R82) -/

/-- One bit of the reflected CRC. -/
def crcBit (crc : Nat) : Nat :=
  if crc.testBit 0 then Nat.xor (crc / 2) 0xEDB88320 else crc / 2

/-- One byte into the CRC. -/
def crcByte (crc b : Nat) : Nat :=
  let x := Nat.xor crc b
  crcBit (crcBit (crcBit (crcBit (crcBit (crcBit (crcBit (crcBit x)))))))

/-- CRC-32 of a list of bytes: initial value all ones, result complemented. -/
def crc32 (bs : List Nat) : Nat := Nat.xor (bs.foldl crcByte 0xFFFFFFFF) 0xFFFFFFFF

/-- The `n` low bytes of a word, least significant first. -/
def bytesLE : Nat → Nat → List Nat
  | 0, _ => []
  | n + 1, w => w % 256 :: bytesLE n (w / 256)

/-- A number from its bytes, least significant first. -/
def ofBytesLE : List Nat → Nat
  | [] => 0
  | b :: bs => b % 256 + 256 * ofBytesLE bs

end Sys2Proof.Machine
end

