-- ==== Sys2Proof/Machine/Flags.lean ====
section
/-! DEFINITION. Sys2Proof/Machine/Flags.lean: numbers and the flags their operations raise. One exact arithmetic serves the
array's integer and floating-point macro-ops (05 R123-R146), the ACUs' floating-point instructions (09 R220-R223) and the
Wheel's VALUE conversion (10 R240): a result is formed exactly and rounded once. -/

namespace Sys2Proof.Machine

/-! ### Rounding modes -/

/-- The five rounding modes (04 R101, 05 R136). -/
inductive RMode where
  | nearestEven | towardZero | towardPos | towardNeg | nearestAway
  deriving DecidableEq, Repr

/-- The mode an encoded value 1-5 names (04 R101); any other value is treated as 1. -/
def rmodeOf : Nat → RMode
  | 2 => .towardZero
  | 3 => .towardPos
  | 4 => .towardNeg
  | 5 => .nearestAway
  | _ => .nearestEven

/-- Does a magnitude between `q` and `q + 1` round up to `q + 1`?  `half` compares its distance above `q` with one half
(`.lt` below, `.eq` a tie, `.gt` above); it is inexact. -/
def roundUp (mode : RMode) (neg odd : Bool) (half : Ordering) : Bool :=
  match mode with
  | .nearestEven => half == .gt || (half == .eq && odd)
  | .nearestAway => half == .gt || half == .eq
  | .towardZero => false
  | .towardPos => !neg
  | .towardNeg => neg

/-- A magnitude rounded to an integer, and whether that changed it. -/
structure Rounded where
  mag : Nat
  inexact : Bool
  deriving DecidableEq, Repr

/-- Round the magnitude `m × 2^(-sh)` (a little more than that when `sticky`) to an integer. -/
def roundShift (mode : RMode) (neg : Bool) (m : Nat) (sticky : Bool) (sh : Nat) : Rounded :=
  let q := m / 2 ^ sh
  let r := m % 2 ^ sh
  if r = 0 && !sticky then ⟨q, false⟩
  else
    let twice := 2 * r
    let half : Ordering :=
      if twice < 2 ^ sh then .lt else if twice = 2 ^ sh then (if sticky then .gt else .eq) else .gt
    let half := if sh = 0 then .lt else half
    ⟨if roundUp mode neg (q % 2 == 1) half then q + 1 else q, true⟩

/-- Round the fraction `num / den` (`den` not zero) to an integer magnitude. -/
def roundDiv (mode : RMode) (neg : Bool) (num den : Nat) : Rounded :=
  let q := num / den
  let r := num % den
  if r = 0 then ⟨q, false⟩
  else
    let half : Ordering := compare (2 * r) den
    ⟨if roundUp mode neg (q % 2 == 1) half then q + 1 else q, true⟩

/-- A sign and a magnitude as an integer. -/
def signMag (neg : Bool) (m : Nat) : Int := if neg then -(m : Int) else (m : Int)

/-- Round the integer fraction `n × 2^(-f)` to an integer. -/
def roundScaled (mode : RMode) (n : Int) (f : Nat) : Rounded × Bool :=
  (roundShift mode (decide (n < 0)) n.natAbs false f, decide (n < 0))

/-! ### Flags (05 "Flags") -/

/-- The flags in the bit order of MILL_FFLAGS: IX, UF, OF, DZ, IV, V (05 R139, MILL_FFLAGS). -/
structure Flags where
  ix : Bool := false
  uf : Bool := false
  ofl : Bool := false
  dz : Bool := false
  iv : Bool := false
  v : Bool := false
  deriving DecidableEq, Repr

/-- No flag. -/
def noFlags : Flags := {}

/-- Both sets of flags together. -/
def Flags.join (a b : Flags) : Flags :=
  ⟨a.ix || b.ix, a.uf || b.uf, a.ofl || b.ofl, a.dz || b.dz, a.iv || b.iv, a.v || b.v⟩

/-- The flags as the bits of MILL_FFLAGS. -/
def Flags.toNat (f : Flags) : Nat :=
  b2n f.ix + 2 * b2n f.uf + 4 * b2n f.ofl + 8 * b2n f.dz + 16 * b2n f.iv + 32 * b2n f.v

/-- The flags that the bits of MILL_FFLAGS name. -/
def Flags.ofNat (n : Nat) : Flags :=
  ⟨n.testBit 0, n.testBit 1, n.testBit 2, n.testBit 3, n.testBit 4, n.testBit 5⟩

/-! ### Floating-point formats and values (05 R128) -/

/-- A FLOAT format: exponent width and fraction width. -/
structure Fmt where
  e : Nat
  f : Nat
  deriving DecidableEq, Repr

/-- Width of the format. -/
def Fmt.width (t : Fmt) : Nat := 1 + t.e + t.f
/-- Bias, which is also emax (05 R128). -/
def Fmt.bias (t : Fmt) : Nat := 2 ^ (t.e - 1) - 1
/-- emin = 1 − emax. -/
def Fmt.emin (t : Fmt) : Int := 1 - (t.bias : Int)
/-- All ones of the exponent field. -/
def Fmt.eAll (t : Fmt) : Nat := 2 ^ t.e - 1
/-- The canonical quiet NaN: sign 0, E all ones, only the top bit of T set. -/
def Fmt.qnan (t : Fmt) : Nat := t.eAll * 2 ^ t.f + 2 ^ (t.f - 1)
/-- An infinity. -/
def Fmt.inf (t : Fmt) (neg : Bool) : Nat := b2n neg * 2 ^ (t.e + t.f) + t.eAll * 2 ^ t.f
/-- The largest finite value. -/
def Fmt.maxFin (t : Fmt) (neg : Bool) : Nat := t.inf neg - 1
/-- A zero. -/
def Fmt.zero (t : Fmt) (neg : Bool) : Nat := b2n neg * 2 ^ (t.e + t.f)

def binary32 : Fmt := ⟨8, 23⟩
def binary64 : Fmt := ⟨11, 52⟩

/-- What a float pattern holds: a NaN (signalling or quiet), an infinity, or the finite value `mag × 2^exp`. -/
inductive FVal where
  | nan (signalling : Bool)
  | inf (neg : Bool)
  | fin (neg : Bool) (mag : Nat) (exp : Int)
  deriving DecidableEq, Repr

/-- The value of a pattern (05 R128); with `ftz`, a subnormal reads as a zero of its sign (05 R138). -/
def fval (t : Fmt) (ftz : Bool) (w : Nat) : FVal :=
  let T := w % 2 ^ t.f
  let E := (w / 2 ^ t.f) % 2 ^ t.e
  let s := w.testBit (t.e + t.f)
  if E = t.eAll then
    if T = 0 then .inf s else .nan (!T.testBit (t.f - 1))
  else if E = 0 then
    if ftz then .fin s 0 0 else .fin s T (t.emin - (t.f : Int))
  else .fin s (T + 2 ^ t.f) ((E : Int) - (t.bias : Int) - (t.f : Int))

/-- A float result: the pattern and the flags raised. -/
structure FRes where
  bits : Nat
  flags : Flags
  deriving DecidableEq, Repr

/-- The canonical NaN with IV (05 R130). -/
def invalidNan (t : Fmt) : FRes := ⟨t.qnan, { iv := true }⟩

/-- What an overflow delivers (05 R137). -/
def overflowBits (t : Fmt) (mode : RMode) (neg : Bool) : Nat :=
  match mode with
  | .nearestEven => t.inf neg
  | .nearestAway => t.inf neg
  | .towardZero => t.maxFin neg
  | .towardPos => if neg then t.maxFin neg else t.inf neg
  | .towardNeg => if neg then t.inf neg else t.maxFin neg

/-- Number of bits of a magnitude. -/
def bitLen (m : Nat) : Nat := if m = 0 then 0 else Nat.log2 m + 1

/-- Round the exact magnitude `m × 2^x` (a little more when `sticky`; then `m` has at least p + 2 bits) into the format, with
tininess after rounding and flush to zero (05 R137, R138).  `m` is not zero. -/
def roundFloat (t : Fmt) (mode : RMode) (ftz neg : Bool) (m : Nat) (x : Int) (sticky : Bool) : FRes :=
  let p := t.f + 1
  let len := bitLen m
  -- to precision p, exponent unbounded
  let r1 : Rounded := if p ≤ len then roundShift mode neg m sticky (len - p) else ⟨m * 2 ^ (p - len), false⟩
  let carry := decide (2 ^ p ≤ r1.mag)
  let e1 : Int := x + (len : Int) - 1 + (if carry then 1 else 0)
  if e1 < t.emin then
    if ftz then ⟨t.zero neg, { ix := true, uf := true }⟩
    else
      let q : Int := t.emin - (t.f : Int)
      let r2 : Rounded :=
        if x < q then roundShift mode neg m sticky (q - x).toNat else ⟨m * 2 ^ (x - q).toNat, false⟩
      ⟨t.zero neg + r2.mag, { ix := r2.inexact, uf := r2.inexact }⟩
  else if (t.bias : Int) < e1 then ⟨overflowBits t mode neg, { ix := true, ofl := true }⟩
  else
    let frac := if carry then 0 else r1.mag - 2 ^ t.f
    ⟨t.zero neg + (e1 + (t.bias : Int)).toNat * 2 ^ t.f + frac, { ix := r1.inexact }⟩

/-- Round a finite exact value, zero included; a zero takes the sign given for it. -/
def roundValue (t : Fmt) (mode : RMode) (ftz neg : Bool) (m : Nat) (x : Int) : FRes :=
  if m = 0 then ⟨t.zero neg, {}⟩ else roundFloat t mode ftz neg m x false

/-- Is either value a signalling NaN? -/
def FVal.isSNan : FVal → Bool
  | .nan s => s
  | _ => false

/-- Is the value a NaN? -/
def FVal.isNan : FVal → Bool
  | .nan _ => true
  | _ => false

/-- The exact sum of two finite values as a signed integer at the lower exponent. -/
def exactSum (sa : Bool) (ma : Nat) (xa : Int) (sb : Bool) (mb : Nat) (xb : Int) : Int × Int :=
  let x := min xa xb
  (signMag sa (ma * 2 ^ (xa - x).toNat) + signMag sb (mb * 2 ^ (xb - x).toNat), x)

/-- Round an exact sum.  An exact zero sum is +0, but −0 toward −∞ (05 R135).  The sum of two zeros of one sign keeps it, which R135
says of −0 only: (+0) + (+0) toward −∞ is +0 as in IEEE 754-2019 (05 R129; DESIGN CHOICE, log 62). -/
def roundSum (t : Fmt) (mode : RMode) (ftz sa sb bothZero : Bool) (v : Int) (x : Int) : FRes :=
  if v = 0 then
    let neg := if bothZero && sa == sb then sa else decide (mode = .towardNeg)
    ⟨t.zero neg, {}⟩
  else roundFloat t mode ftz (decide (v < 0)) v.natAbs x false

/-- Floating-point addition (05 R129, R130, R135). -/
def fAdd (t : Fmt) (mode : RMode) (ftz : Bool) (a b : Nat) : FRes :=
  match fval t ftz a, fval t ftz b with
  | .nan sa, vb => ⟨t.qnan, { iv := sa || vb.isSNan }⟩
  | va, .nan sb => ⟨t.qnan, { iv := va.isSNan || sb }⟩
  | .inf sa, .inf sb => if sa = sb then ⟨t.inf sa, {}⟩ else invalidNan t
  | .inf sa, .fin _ _ _ => ⟨t.inf sa, {}⟩
  | .fin _ _ _, .inf sb => ⟨t.inf sb, {}⟩
  | .fin sa ma xa, .fin sb mb xb =>
    let r := exactSum sa ma xa sb mb xb
    roundSum t mode ftz sa sb (ma = 0 && mb = 0) r.1 r.2

/-- Flip the sign bit. -/
def flipSign (t : Fmt) (a : Nat) : Nat :=
  if a.testBit (t.e + t.f) then a - 2 ^ (t.e + t.f) else a + 2 ^ (t.e + t.f)

/-- Floating-point subtraction. -/
def fSub (t : Fmt) (mode : RMode) (ftz : Bool) (a b : Nat) : FRes := fAdd t mode ftz a (flipSign t b)

/-- Floating-point multiplication (05 R129, R130, R135). -/
def fMul (t : Fmt) (mode : RMode) (ftz : Bool) (a b : Nat) : FRes :=
  match fval t ftz a, fval t ftz b with
  | .nan sa, vb => ⟨t.qnan, { iv := sa || vb.isSNan }⟩
  | va, .nan sb => ⟨t.qnan, { iv := va.isSNan || sb }⟩
  | .inf sa, .inf sb => ⟨t.inf (sa != sb), {}⟩
  | .inf sa, .fin sb mb _ => if mb = 0 then invalidNan t else ⟨t.inf (sa != sb), {}⟩
  | .fin sa ma _, .inf sb => if ma = 0 then invalidNan t else ⟨t.inf (sa != sb), {}⟩
  | .fin sa ma xa, .fin sb mb xb => roundValue t mode ftz (sa != sb) (ma * mb) (xa + xb)

/-- fusedMultiplyAdd: a × b + d rounded once; 0 × ∞ raises IV even when d is a quiet NaN (05 R129, R130). -/
def fMac (t : Fmt) (mode : RMode) (ftz : Bool) (d a b : Nat) : FRes :=
  let vd := fval t ftz d
  let snan := fun (x y : FVal) => x.isSNan || y.isSNan || vd.isSNan
  match fval t ftz a, fval t ftz b with
  | .nan sa, vb => ⟨t.qnan, { iv := snan (.nan sa) vb }⟩
  | va, .nan sb => ⟨t.qnan, { iv := snan va (.nan sb) }⟩
  | .inf sa, .inf sb => infProd t vd (sa != sb)
  | .inf sa, .fin sb mb _ => if mb = 0 then invalidNan t else infProd t vd (sa != sb)
  | .fin sa ma _, .inf sb => if ma = 0 then invalidNan t else infProd t vd (sa != sb)
  | .fin sa ma xa, .fin sb mb xb =>
    match vd with
    | .nan s => ⟨t.qnan, { iv := s }⟩
    | .inf s => ⟨t.inf s, {}⟩
    | .fin sd md xd =>
      let r := exactSum (sa != sb) (ma * mb) (xa + xb) sd md xd
      roundSum t mode ftz (sa != sb) sd (ma * mb = 0 && md = 0) r.1 r.2
where
  /-- An infinite product added to d. -/
  infProd (t : Fmt) (vd : FVal) (neg : Bool) : FRes :=
    match vd with
    | .nan s => ⟨t.qnan, { iv := s }⟩
    | .inf s => if s = neg then ⟨t.inf neg, {}⟩ else invalidNan t
    | .fin _ _ _ => ⟨t.inf neg, {}⟩

/-- Floating-point division (05 R129, R130). -/
def fDiv (t : Fmt) (mode : RMode) (ftz : Bool) (a b : Nat) : FRes :=
  match fval t ftz a, fval t ftz b with
  | .nan sa, vb => ⟨t.qnan, { iv := sa || vb.isSNan }⟩
  | va, .nan sb => ⟨t.qnan, { iv := va.isSNan || sb }⟩
  | .inf _, .inf _ => invalidNan t
  | .inf sa, .fin sb _ _ => ⟨t.inf (sa != sb), {}⟩
  | .fin sa _ _, .inf sb => ⟨t.zero (sa != sb), {}⟩
  | .fin sa ma xa, .fin sb mb xb =>
    if mb = 0 then
      if ma = 0 then invalidNan t else ⟨t.inf (sa != sb), { dz := true }⟩
    else if ma = 0 then ⟨t.zero (sa != sb), {}⟩
    else
      let k := t.f + 4 + bitLen mb
      let num := ma * 2 ^ k
      roundFloat t mode ftz (sa != sb) (num / mb) (xa - xb - (k : Int)) (num % mb != 0)

/-- Integer square root, bit `i` downward from the partial root `r`. -/
def isqrtFrom (m : Nat) : Nat → Nat → Nat
  | 0, r => r
  | i + 1, r =>
    let r' := r + 2 ^ i
    isqrtFrom m i (if r' * r' ≤ m then r' else r)

/-- The integer square root. -/
def isqrt (m : Nat) : Nat := isqrtFrom m (bitLen m / 2 + 1) 0

/-- squareRoot (05 R129, R130, R135). -/
def fSqrt (t : Fmt) (mode : RMode) (ftz : Bool) (a : Nat) : FRes :=
  match fval t ftz a with
  | .nan s => ⟨t.qnan, { iv := s }⟩
  | .inf s => if s then invalidNan t else ⟨t.inf false, {}⟩
  | .fin s m x =>
    if m = 0 then ⟨t.zero s, {}⟩
    else if s then invalidNan t
    else
      let odd := x % 2 != 0
      let m1 := if odd then 2 * m else m
      let x1 := if odd then x - 1 else x
      let k := t.f + 4
      let big := m1 * 2 ^ (2 * k)
      let r := isqrt big
      roundFloat t mode ftz false r (x1 / 2 - (k : Int)) (r * r != big)

/-- Change of sign: only the sign bit of a number changes; a NaN gives the canonical NaN (05 R131). -/
def fNeg (t : Fmt) (a : Nat) : FRes :=
  match fval t false a with
  | .nan s => ⟨t.qnan, { iv := s }⟩
  | _ => ⟨flipSign t (a % 2 ^ t.width), {}⟩

/-- Absolute value (05 R131). -/
def fAbs (t : Fmt) (a : Nat) : FRes :=
  match fval t false a with
  | .nan s => ⟨t.qnan, { iv := s }⟩
  | _ => ⟨a % 2 ^ (t.e + t.f), {}⟩

/-- Order two numbers that are not NaNs, +0 and −0 equal. -/
def fOrder : FVal → FVal → Ordering
  | .inf sa, .inf sb => if sa = sb then .eq else if sa then .lt else .gt
  | .inf sa, _ => if sa then .lt else .gt
  | _, .inf sb => if sb then .gt else .lt
  | .fin sa ma xa, .fin sb mb xb =>
    let r := exactSum sa ma xa (!sb) mb xb
    compare r.1 0
  | _, _ => .eq

/-- Is the value negative, counting −0? -/
def FVal.negative : FVal → Bool
  | .inf s => s
  | .fin s _ _ => s
  | .nan _ => false

/-- Is `a` before `b` in the order that puts −0 below +0? -/
def fBelow (va vb : FVal) : Bool :=
  match fOrder va vb with
  | .lt => true
  | .gt => false
  | .eq => va.negative && !vb.negative

/-- minimumNumber / maximumNumber (05 R132); with `ftz` a subnormal source reads as zero. -/
def fMinMax (t : Fmt) (ftz wantMax : Bool) (a b : Nat) : FRes :=
  let va := fval t ftz a
  let vb := fval t ftz b
  let iv := va.isSNan || vb.isSNan
  let flush := fun (w : Nat) (v : FVal) =>
    match v with
    | .fin s 0 _ => t.zero s
    | _ => w % 2 ^ t.width
  let bits :=
    if va.isNan && vb.isNan then t.qnan
    else if va.isNan then flush b vb
    else if vb.isNan then flush a va
    else if fBelow va vb = wantMax then flush b vb else flush a va
  ⟨bits, { iv := iv }⟩

/-- The relations of A.CMP and A.FCMP (04 R106). -/
def relHolds (rel : Nat) (lt eq un : Bool) : Bool :=
  match rel with
  | 0 => eq && !un
  | 1 => un || !eq
  | 2 => lt && !un
  | 3 => (lt || eq) && !un
  | 4 => !lt && !eq && !un
  | 5 => !lt && !un
  | 6 => un
  | 7 => !un
  | _ => false

/-- A.FCMP: the relation and IV; relations 2-5 signal for any NaN (05 R133). -/
def fCmp (t : Fmt) (ftz : Bool) (rel : Nat) (a b : Nat) : Bool × Flags :=
  let va := fval t ftz a
  let vb := fval t ftz b
  let un := va.isNan || vb.isNan
  let o := fOrder va vb
  let signals := decide (2 ≤ rel) && decide (rel ≤ 5)
  (relHolds rel (o == .lt) (o == .eq) un, { iv := if signals then un else va.isSNan || vb.isSNan })

/-- convertFormat between FLOAT formats (05 R129, R138). -/
def fToFloat (src dst : Fmt) (mode : RMode) (ftz : Bool) (a : Nat) : FRes :=
  match fval src ftz a with
  | .nan s => ⟨dst.qnan, { iv := s }⟩
  | .inf s => ⟨dst.inf s, {}⟩
  | .fin s m x => roundValue dst mode ftz s m x

/-- The smallest and the largest stored integer of an integer operand (05 R123). -/
def intRange (signed : Bool) (w : Nat) : Int × Int :=
  if signed then (-((2 ^ (w - 1) : Nat) : Int), ((2 ^ (w - 1) : Nat) : Int) - 1) else (0, ((2 ^ w : Nat) : Int) - 1)

/-- A.FCVT to an integer or fixed-point destination (05 R134): the stored integer's bits and the flags. -/
def fToInt (src : Fmt) (mode : RMode) (ftz signed : Bool) (wd frac : Nat) (a : Nat) : FRes :=
  let rng := intRange signed wd
  match fval src ftz a with
  | .nan _ => ⟨0, { iv := true }⟩
  | .inf s => ⟨wrapTo wd (if s then rng.1 else rng.2), { iv := true }⟩
  | .fin s m x =>
    let e := x + (frac : Int)
    let r : Rounded := if e < 0 then roundShift mode s m false (-e).toNat else ⟨m * 2 ^ e.toNat, false⟩
    let v := signMag s r.mag
    if v < rng.1 then ⟨wrapTo wd rng.1, { iv := true }⟩
    else if rng.2 < v then ⟨wrapTo wd rng.2, { iv := true }⟩
    else ⟨wrapTo wd v, { ix := r.inexact }⟩

/-- Conversion of a stored integer with `frac` fraction bits to FLOAT (05 R126, R129). -/
def intToFloat (dst : Fmt) (mode : RMode) (ftz : Bool) (n : Int) (frac : Nat) : FRes :=
  roundValue dst mode ftz (decide (n < 0)) n.natAbs (-(frac : Int))

/-! ### Integer and fixed-point results (05 R124 to R127) -/

/-- An integer operand's stored integer (05 R123). -/
def stored (signed : Bool) (w bits : Nat) : Int := if signed then signedOf w bits else ((bits % 2 ^ w : Nat) : Int)

/-- What an integer op leaves in one PE: the bits written and its flags. -/
structure IRes where
  bits : Nat
  flags : Flags
  deriving DecidableEq, Repr

/-- Write the low bits of an exact result; V when they differ from it in value (05 R124). -/
def intResult (signed : Bool) (wd : Nat) (v : Int) : IRes :=
  let b := wrapTo wd v
  ⟨b, { v := decide (stored signed wd b ≠ v) }⟩

/-- A stored integer product scaled back by `f` fraction bits and rounded (05 R125). -/
def scaledProduct (mode : RMode) (na nb : Int) (f : Nat) : Int :=
  let r := roundScaled mode (na * nb) f
  signMag r.2 r.1.mag

/-- A.MAC's exact sum Nd + Na × Nb × 2^−f, rounded once (05 R125). -/
def scaledMac (mode : RMode) (nd na nb : Int) (f : Nat) : Int :=
  let r := roundScaled mode (nd * ((2 ^ f : Nat) : Int) + na * nb) f
  signMag r.2 r.1.mag

/-- A.DIV (05 R125, R127): a zero divisor gives all ones and DZ. -/
def intDiv (mode : RMode) (signed : Bool) (wd : Nat) (na nb : Int) : IRes :=
  if nb = 0 then ⟨2 ^ wd - 1, { dz := true }⟩
  else
    let neg := decide (na < 0) != decide (nb < 0)
    let r := roundDiv mode neg na.natAbs nb.natAbs
    intResult signed wd (signMag neg r.mag)

/-- A.REM (05 R125, R127): a zero divisor gives the dividend and DZ. -/
def intRem (wd : Nat) (na nb : Int) : IRes :=
  if nb = 0 then ⟨wrapTo wd na, { dz := true }⟩
  else ⟨wrapTo wd (na - nb * Int.tdiv na nb), {}⟩

/-- A.CVT from integer to integer (05 R126): the value rounded to the destination's FRAC; V when not representable. -/
def intConvert (mode : RMode) (dstSigned : Bool) (wd f1 f2 : Nat) (n : Int) : IRes :=
  let v : Int :=
    if f1 ≤ f2 then n * ((2 ^ (f2 - f1) : Nat) : Int)
    else
      let r := roundScaled mode n (f1 - f2)
      signMag r.2 r.1.mag
  intResult dstSigned wd v

end Sys2Proof.Machine
end

