-- ==== Sys2Proof/Machine/RegTable.lean ====
section
/-! DEFINITION. Sys2Proof/Machine/RegTable.lean: the register map of the NS1024 as the register tables of spec/ give it:
every register's name, BAR0 offset, strides, select, fields (type, legal values, reset) and the home of its block's sticky
CFG_REJECT. Listed from the tables under the headings "NAME — offset …" of the section files. -/

namespace Sys2Proof.Machine

/-- The registers of BAR0 (00 R4 to 19 R432), one name per register set.  A `_LO`/`_HI` pair, or a numbered family, is one
name here; its members differ in the address index of `regInst`. -/
inductive Reg where
  | GLB_ID
  | GLB_PARAM0
  | GLB_PARAM1
  | GLB_PARAM2
  | GLB_PARAM3
  | GLB_STATUS
  | GLB_REC_APERTURE
  | NEWT_PLANE_ECC
  | NEWT_PLANE_ERRADDR
  | NEWT_TILE_REPAIR
  | MILL_EDGE
  | NEWT_SCRUB_CTRL
  | NEWT_SCRUB_STATUS
  | NEWT_STATUS
  | NEWT_INSP_CTRL
  | NEWT_INSP_STATUS
  | NEWT_INSP_DATA_LO
  | NEWT_INSP_DATA_HI
  | NEWT_INSP_CHECK
  | NEWT_STORE_CTRL
  | NEWT_STORE_STATUS
  | NEWT_STORE_DATA
  | NEWT_STORE_CHECK
  | NEWT_STORE_ECC
  | NEWT_STORE_ERR
  | NEWT_STORE_CRC
  | NEWT_SEQ_STATUS
  | NEWT_SEQ_CURSOR
  | MILL_RESUME_CTRL
  | MILL_RESUME_OP
  | MILL_ILLEGAL
  | MILL_ILLEGAL_OP
  | MILL_FPCTRL
  | MILL_FFLAGS
  | MILL_FTRAP
  | MILL_GANG_SHAPE
  | MILL_GANG_FORM
  | MILL_TILE_OWNER
  | MILL_PACE
  | MILL_INFLIGHT
  | MILL_RETIRED
  | CRK_RESULT
  | CRK_ROUND
  | CRK_COUNT
  | MILL_GANG_CTRL
  | MILL_GANG_STATUS
  | MILL_STATUS
  | ACU_TASK_PSW
  | ACU_VECBASE
  | ACU_IRQ_ROUTE
  | ACU_IPI
  | ACU_BELL
  | ACU_TASK_PEND
  | ACU_MILL
  | ACU_RAM_TEST
  | ACU_RAM_ECC
  | ACU_REC_WINDOW
  | ACU_CTRL
  | ACU_STATUS
  | ACU_TASK_CTRL
  | ACU_TASK_STATUS
  | ACU_TASK_PC
  | ACU_TASK_FSR
  | STG_BANK_OWNER
  | STG_STATUS
  | STG_TEST
  | STG_ECC
  | REC_STATUS
  | REC_ECC
  | REC_SCRUB
  | REC_RING_AREA
  | REC_RING_CTRL
  | REC_RING_COUNT
  | WHL_ENG
  | WHL_SLOT_CFG
  | WHL_SLOT_FMT
  | WHL_SLOT_BASE
  | WHL_SLOT_PSTRIDE
  | WHL_SLOT_ESTRIDE
  | WHL_SLOT_MAP
  | WHL_SLOT_STATUS
  | SP_LANE_CFG
  | SP_LANE_STATUS
  | SP_JLINK_CFG0
  | SP_JLINK_CFG1
  | SP_JLINK_STATUS
  | SP_SYSREF
  | CH_SRC
  | CH_ROUTE
  | CH_GAIN
  | CH_OFFSET
  | CH_STATUS
  | CH_STRM_CTRL
  | CH_STRM_SHAPE
  | CH_STRM_BASE
  | CH_STRM_BUFSTRIDE
  | CH_STRM_DESC
  | CH_STRM_LATE
  | CH_STRM_BLOCK
  | CH_STRM_STATUS
  | DRV_CFG
  | DRV_RING
  | DRV_RINGLEN
  | DRV_READY
  | DRV_RAMP
  | DRV_SAFE
  | DRV_CTRL
  | DRV_STATUS
  | DRV_POS
  | DRV_GRP_START
  | DRV_GRP_PERIOD
  | DRV_GLOBAL
  | LOG_CTRL
  | LOG_STATUS
  | LOG_SEQ
  | LOG_HOST_BASE
  | LOG_HOST_SIZE
  | LOG_HOST_WPTR
  | LOG_HOST_RPTR
  | LOG_IRQ
  | LOG_EVENT
  | GKO_STATUS
  | GKO_CONTENTION
  | GKO_IRQ_PEND
  | GKO_IRQ_EN
  | GKO_CAPTURE_CTRL
  | GKO_CAPTURE_TIME
  | GKO_CAPTURE_DEST
  | GKO_REGION_CTRL
  | GKO_REGION_STATUS
  | GKO_REGION_IMAGE
  | GKO_REGION_RAM
  | GKO_PIN
  | WEIR_CTRL
  | WEIR_PERIOD
  | WEIR_VOTE
  | WEIR_STATUS
  | WEIR_EPOCH
  | WEIR_APPLY
  | WEIR_COMMIT_NS
  | WEIR_PUB_CTRL
  | WEIR_PUB_BASE
  | WEIR_PUB_SIZE
  | WEIR_PUB_STATE
  | CMD_STATUS
  | CMD_FW_VERSION
  | CMD_SELECT
  | CMD_Q_CTRL
  | CMD_Q_SQBASE
  | CMD_Q_CQBASE
  | CMD_Q_SQ_TAIL
  | CMD_Q_CQ_HEAD
  | CMD_Q_STATUS
  | CMD_Q_COUNT
  | CMD_IRQ_MAP
  | CMD_IRQ_NODES
  | SPAN_LINK_CTRL
  | SPAN_LINK_STATUS
  | SPAN_LINK_ERR
  | SPAN_LINK_TIME
  | SPAN_STATUS
  | CHR_CTRL
  | CHR_STATUS
  | CHR_STAGED
  | CHR_FE
  | CHR_FE_SERIAL
  | NOC_CTRL
  | NOC_STATUS
  | NOC_TIMEOUT
  | NOC_ERR
  | NOC_ERR_ADDR
  | NOC_LATE
  | NOC_ISOLATE
  | NOC_DOMAIN
  | NOC_RTR_CTRL
  | NOC_RTR_TADDR
  | NOC_RTR_TDATA
  | NOC_RTR_TACTIVE
  | FLT_CTRL
  | FLT_STATUS
  | FLT_SEQ
  | FLT_REACT
  | FLT_RING
  | FLT_FIRST
  | FLT_NEXT
  | FLT_SRC_CFG
  | FLT_SRC_LEAK
  | FLT_SRC_ESC
  | FLT_SRC_STATUS
  | FLT_SRC_TOTAL
  | DLM_CTRL
  | DLM_OFFSET
  | DLM_ABS
  | DLM_DEADLINE
  | DLM_STATUS
  | DLM_LATE_NS
  | DLM_MET
  | DLM_MISSES
  | DLM_OUT_MARGIN
  | GOV_STATE
  | GOV_REQ
  | GOV_CLK
  | GOV_SAG
  | GOV_CAP
  | GOV_TEMP
  | GOV_DOMAIN
  | GOV_MONITOR
  | GOV_WAKE
  | GOV_WAKE_CTRL
  | TIM_CTRL
  | TIM_STATUS
  | TIM_NOW_LO
  | TIM_NOW_HI
  | TIM_NOW_FRAC
  | TIM_SET
  | TIM_PPS_OFFSET
  | TIM_HOLD
  | NVS_STATUS
  | NVS_ECC
  | NVS_BB
  | SEC_STATUS
  | SEC_UNLOCK
  | SEC_CHALLENGE
  | SEC_RESPONSE
  | DBG_ACU_REG
  | DBG_ACU_DATA
  deriving DecidableEq, Repr, Inhabited

/-- Field types of 00 R5. -/
inductive FTy where
  | rw | ro | w1c | w1s | wo | rwl | live
  deriving DecidableEq, Repr

/-- The values a field may take; any other value is reserved (00 R7). -/
inductive Legal where
  | any
  | range (lo hi : Nat)
  | among (vals : List Nat)
  deriving DecidableEq, Repr

/-- Is `v` a value the register table allows? (00 R7) -/
def legalOk : Legal → Nat → Bool
  | .any, _ => true
  | .range lo hi, v => decide (lo ≤ v) && decide (v ≤ hi)
  | .among vs, v => vs.contains v

/-- The select register, if any, that stands before a register (00 R8). -/
inductive Sel where
  | none | gang | tile | ch | drv | port | link | dlm | flt | acu | acuTask
  deriving DecidableEq, Repr

/-- One field of a register: bits `[hi:lo]`, its type, the values allowed, its reset value. -/
structure FieldSpec where
  hi : Nat
  lo : Nat
  ty : FTy
  legal : Legal
  reset : Nat
  deriving DecidableEq, Repr

/-- One register set: base offset in BAR0, up to two address strides `(stride, count)`, its select, its fields. -/
structure RegSpec where
  base : Nat
  strides : List (Nat × Nat)
  sel : Sel
  fields : List FieldSpec
  deriving DecidableEq, Repr

/-- The register tables of spec/, one row per register set. -/
def regSpec : Reg → RegSpec
  | .GLB_ID => ⟨0x00000000, [], .none, [⟨31, 16, .ro, .any, 22355⟩,
      ⟨15, 8, .ro, .any, 78⟩,
      ⟨7, 4, .ro, .any, 1⟩,
      ⟨3, 0, .ro, .any, 0⟩]⟩
  | .GLB_PARAM0 => ⟨0x00000004, [], .none, [⟨31, 24, .ro, .any, 16⟩,
      ⟨23, 16, .ro, .any, 64⟩,
      ⟨15, 8, .ro, .any, 32⟩,
      ⟨7, 0, .ro, .any, 32⟩]⟩
  | .GLB_PARAM1 => ⟨0x00000008, [], .none, [⟨28, 28, .ro, .any, 0⟩,
      ⟨27, 24, .ro, .any, 8⟩,
      ⟨23, 16, .ro, .any, 64⟩,
      ⟨15, 4, .ro, .any, 1920⟩,
      ⟨3, 0, .ro, .any, 11⟩]⟩
  | .GLB_PARAM2 => ⟨0x0000000C, [], .none, [⟨27, 24, .ro, .any, 4⟩,
      ⟨23, 16, .ro, .any, 96⟩,
      ⟨15, 8, .ro, .any, 16⟩,
      ⟨7, 4, .ro, .any, 8⟩,
      ⟨3, 0, .ro, .any, 4⟩]⟩
  | .GLB_PARAM3 => ⟨0x00000010, [], .none, [⟨27, 20, .ro, .any, 64⟩,
      ⟨19, 16, .ro, .any, 8⟩,
      ⟨15, 12, .ro, .any, 14⟩,
      ⟨11, 8, .ro, .any, 8⟩,
      ⟨7, 0, .ro, .any, 24⟩]⟩
  | .GLB_STATUS => ⟨0x00000018, [], .none, [⟨13, 8, .ro, .any, 0⟩,
      ⟨0, 0, .w1c, .any, 0⟩]⟩
  | .GLB_REC_APERTURE => ⟨0x00000020, [], .none, [⟨9, 0, .rw, .range 0 767, 0⟩]⟩
  | .NEWT_PLANE_ECC => ⟨0x00508018, [], .tile, [⟨31, 31, .wo, .any, 0⟩,
      ⟨23, 16, .ro, .any, 0⟩,
      ⟨15, 0, .ro, .any, 0⟩]⟩
  | .NEWT_PLANE_ERRADDR => ⟨0x0050801C, [], .tile, [⟨31, 31, .w1c, .any, 0⟩,
      ⟨30, 30, .ro, .any, 0⟩,
      ⟨29, 23, .ro, .any, 0⟩,
      ⟨21, 16, .ro, .any, 0⟩,
      ⟨10, 0, .ro, .any, 0⟩]⟩
  | .NEWT_TILE_REPAIR => ⟨0x00508028, [], .tile, [⟨22, 16, .ro, .any, 0⟩,
      ⟨14, 8, .ro, .any, 0⟩,
      ⟨1, 1, .ro, .any, 0⟩,
      ⟨0, 0, .ro, .any, 0⟩]⟩
  | .MILL_EDGE => ⟨0x00300040, [], .gang, [⟨31, 16, .rwl, .any, 1000⟩,
      ⟨7, 6, .rwl, .range 0 2, 0⟩,
      ⟨5, 4, .rwl, .range 0 2, 0⟩,
      ⟨3, 2, .rwl, .range 0 2, 0⟩,
      ⟨1, 0, .rwl, .range 0 2, 0⟩]⟩
  | .NEWT_SCRUB_CTRL => ⟨0x00508020, [], .none, [⟨12, 8, .rw, .range 16 24, 20⟩,
      ⟨2, 1, .ro, .any, 2⟩,
      ⟨0, 0, .rw, .any, 1⟩]⟩
  | .NEWT_SCRUB_STATUS => ⟨0x00508024, [], .tile, [⟨31, 16, .ro, .any, 0⟩,
      ⟨10, 0, .ro, .any, 0⟩]⟩
  | .NEWT_STATUS => ⟨0x00508030, [], .none, [⟨0, 0, .w1c, .any, 0⟩]⟩
  | .NEWT_INSP_CTRL => ⟨0x00508000, [], .tile, [⟨31, 30, .wo, .range 0 2, 0⟩,
      ⟨29, 28, .rw, .range 0 2, 0⟩,
      ⟨26, 16, .rw, .any, 0⟩,
      ⟨5, 0, .rw, .any, 0⟩]⟩
  | .NEWT_INSP_STATUS => ⟨0x00508004, [], .tile, [⟨8, 8, .w1c, .any, 0⟩,
      ⟨4, 4, .ro, .any, 0⟩,
      ⟨3, 3, .ro, .any, 0⟩,
      ⟨2, 2, .w1c, .any, 0⟩,
      ⟨1, 1, .w1c, .any, 0⟩,
      ⟨0, 0, .ro, .any, 0⟩]⟩
  | .NEWT_INSP_DATA_LO => ⟨0x00508008, [], .tile, [⟨31, 0, .rw, .any, 0⟩]⟩
  | .NEWT_INSP_DATA_HI => ⟨0x0050800C, [], .tile, [⟨31, 0, .rw, .any, 0⟩]⟩
  | .NEWT_INSP_CHECK => ⟨0x00508010, [], .tile, [⟨7, 0, .rw, .any, 0⟩]⟩
  | .NEWT_STORE_CTRL => ⟨0x00508040, [], .tile, [⟨31, 30, .wo, .any, 0⟩,
      ⟨29, 28, .rw, .range 0 2, 0⟩,
      ⟨27, 27, .rw, .any, 0⟩,
      ⟨26, 26, .rw, .any, 0⟩,
      ⟨12, 0, .rw, .any, 0⟩]⟩
  | .NEWT_STORE_STATUS => ⟨0x00508044, [], .tile, [⟨4, 4, .ro, .any, 0⟩,
      ⟨3, 3, .ro, .any, 0⟩,
      ⟨2, 2, .w1c, .any, 0⟩,
      ⟨1, 1, .w1c, .any, 0⟩,
      ⟨0, 0, .ro, .any, 0⟩]⟩
  | .NEWT_STORE_DATA => ⟨0x00508048, [(4, 4)], .tile, [⟨31, 0, .rw, .any, 0⟩]⟩
  | .NEWT_STORE_CHECK => ⟨0x00508058, [], .tile, [⟨8, 0, .rw, .any, 0⟩]⟩
  | .NEWT_STORE_ECC => ⟨0x0050805C, [], .tile, [⟨31, 31, .wo, .any, 0⟩,
      ⟨30, 30, .ro, .any, 0⟩,
      ⟨23, 16, .ro, .any, 0⟩,
      ⟨15, 0, .ro, .any, 0⟩]⟩
  | .NEWT_STORE_ERR => ⟨0x00508060, [], .tile, [⟨31, 31, .w1c, .any, 0⟩,
      ⟨30, 30, .ro, .any, 0⟩,
      ⟨29, 28, .ro, .any, 0⟩,
      ⟨12, 0, .ro, .any, 0⟩]⟩
  | .NEWT_STORE_CRC => ⟨0x00508064, [], .tile, [⟨31, 0, .ro, .any, 0⟩]⟩
  | .NEWT_SEQ_STATUS => ⟨0x00508068, [], .tile, [⟨31, 29, .live, .any, 0⟩,
      ⟨28, 27, .live, .any, 0⟩,
      ⟨26, 26, .live, .any, 0⟩,
      ⟨25, 22, .live, .any, 0⟩,
      ⟨21, 13, .live, .any, 0⟩,
      ⟨12, 0, .live, .any, 0⟩]⟩
  | .NEWT_SEQ_CURSOR => ⟨0x0050806C, [], .tile, [⟨15, 0, .live, .any, 0⟩]⟩
  | .MILL_RESUME_CTRL => ⟨0x00300080, [], .gang, [⟨31, 31, .ro, .any, 0⟩,
      ⟨30, 30, .wo, .any, 0⟩,
      ⟨29, 28, .ro, .any, 0⟩,
      ⟨15, 0, .ro, .any, 0⟩]⟩
  | .MILL_RESUME_OP => ⟨0x00300084, [(4, 4)], .gang, [⟨31, 0, .ro, .any, 0⟩]⟩
  | .MILL_ILLEGAL => ⟨0x003000A0, [], .gang, [⟨31, 31, .w1c, .any, 0⟩,
      ⟨3, 0, .ro, .any, 0⟩]⟩
  | .MILL_ILLEGAL_OP => ⟨0x003000A4, [(4, 4)], .gang, [⟨31, 0, .ro, .any, 0⟩]⟩
  | .MILL_FPCTRL => ⟨0x003000C0, [], .gang, [⟨21, 21, .rw, .any, 0⟩,
      ⟨20, 16, .rw, .any, 0⟩,
      ⟨12, 8, .rw, .any, 28⟩,
      ⟨3, 3, .rw, .any, 0⟩,
      ⟨2, 0, .rw, .range 1 5, 1⟩]⟩
  | .MILL_FFLAGS => ⟨0x003000C4, [], .gang, [⟨5, 5, .w1c, .any, 0⟩,
      ⟨4, 4, .w1c, .any, 0⟩,
      ⟨3, 3, .w1c, .any, 0⟩,
      ⟨2, 2, .w1c, .any, 0⟩,
      ⟨1, 1, .w1c, .any, 0⟩,
      ⟨0, 0, .w1c, .any, 0⟩]⟩
  | .MILL_FTRAP => ⟨0x003000C8, [], .gang, [⟨31, 31, .w1c, .any, 0⟩,
      ⟨30, 30, .ro, .any, 0⟩,
      ⟨12, 8, .ro, .any, 0⟩,
      ⟨7, 0, .ro, .any, 0⟩]⟩
  | .MILL_GANG_SHAPE => ⟨0x00300010, [], .gang, [⟨31, 24, .rwl, .any, 0⟩,
      ⟨23, 16, .rwl, .any, 0⟩,
      ⟨15, 8, .rwl, .any, 0⟩,
      ⟨7, 0, .rwl, .any, 0⟩]⟩
  | .MILL_GANG_FORM => ⟨0x00300014, [], .gang, [⟨0, 0, .rwl, .any, 0⟩]⟩
  | .MILL_TILE_OWNER => ⟨0x00300100, [], .tile, [⟨31, 31, .ro, .any, 0⟩,
      ⟨13, 8, .ro, .any, 0⟩,
      ⟨3, 0, .ro, .any, 0⟩]⟩
  | .MILL_PACE => ⟨0x00300020, [], .gang, [⟨23, 16, .rw, .range 1 255, 64⟩,
      ⟨15, 8, .rw, .range 5 255, 20⟩,
      ⟨3, 0, .rw, .range 4 10, 6⟩]⟩
  | .MILL_INFLIGHT => ⟨0x00300030, [], .gang, [⟨23, 16, .live, .any, 0⟩,
      ⟨8, 0, .live, .any, 0⟩]⟩
  | .MILL_RETIRED => ⟨0x00300034, [], .gang, [⟨31, 0, .live, .any, 0⟩]⟩
  | .CRK_RESULT => ⟨0x00400000, [(4, 2)], .gang, [⟨31, 0, .live, .any, 0⟩]⟩
  | .CRK_ROUND => ⟨0x00400008, [], .gang, [⟨31, 31, .wo, .any, 0⟩,
      ⟨15, 0, .live, .any, 0⟩]⟩
  | .CRK_COUNT => ⟨0x0040000C, [], .gang, [⟨31, 0, .live, .any, 0⟩]⟩
  | .MILL_GANG_CTRL => ⟨0x00300000, [], .gang, [⟨2, 2, .wo, .any, 0⟩,
      ⟨1, 1, .wo, .any, 0⟩,
      ⟨0, 0, .rw, .any, 0⟩]⟩
  | .MILL_GANG_STATUS => ⟨0x00300004, [], .gang, [⟨6, 4, .live, .any, 0⟩,
      ⟨2, 0, .live, .any, 0⟩]⟩
  | .MILL_STATUS => ⟨0x00300008, [], .none, [⟨31, 16, .live, .any, 0⟩,
      ⟨0, 0, .w1c, .any, 0⟩]⟩
  | .ACU_TASK_PSW => ⟨0x0060020C, [], .acuTask, [⟨28, 28, .rw, .any, 0⟩,
      ⟨27, 27, .rw, .any, 0⟩,
      ⟨26, 26, .rw, .any, 0⟩,
      ⟨25, 25, .rw, .any, 0⟩,
      ⟨24, 24, .rw, .any, 0⟩,
      ⟨12, 9, .rw, .any, 0⟩,
      ⟨8, 8, .rw, .any, 0⟩,
      ⟨4, 4, .rw, .any, 0⟩,
      ⟨3, 3, .rw, .any, 0⟩,
      ⟨2, 2, .rw, .any, 0⟩,
      ⟨1, 0, .rw, .any, 0⟩]⟩
  | .ACU_VECBASE => ⟨0x00600008, [], .acu, [⟨31, 10, .rw, .any, 0⟩]⟩
  | .ACU_IRQ_ROUTE => ⟨0x00600100, [(4, 32)], .acu, [⟨10, 8, .rw, .any, 0⟩,
      ⟨7, 7, .rw, .any, 0⟩,
      ⟨5, 0, .rw, .any, 0⟩]⟩
  | .ACU_IPI => ⟨0x00600010, [], .acu, [⟨15, 0, .wo, .any, 0⟩]⟩
  | .ACU_BELL => ⟨0x00600018, [], .acu, [⟨31, 0, .rw, .any, 0⟩]⟩
  | .ACU_TASK_PEND => ⟨0x00600210, [], .acuTask, [⟨31, 0, .w1c, .any, 0⟩]⟩
  | .ACU_MILL => ⟨0x0060000C, [], .acu, [⟨17, 16, .ro, .any, 0⟩,
      ⟨8, 8, .rw, .any, 0⟩,
      ⟨5, 0, .rw, .any, 0⟩]⟩
  | .ACU_RAM_TEST => ⟨0x00600020, [], .acu, [⟨26, 16, .live, .any, 0⟩,
      ⟨15, 8, .rw, .range 1 255, 10⟩,
      ⟨2, 1, .ro, .any, 2⟩,
      ⟨0, 0, .rw, .any, 1⟩]⟩
  | .ACU_RAM_ECC => ⟨0x00600024, [], .acu, [⟨31, 31, .wo, .any, 0⟩,
      ⟨23, 16, .ro, .any, 0⟩,
      ⟨15, 0, .ro, .any, 0⟩]⟩
  | .ACU_REC_WINDOW => ⟨0x00600014, [], .acu, [⟨6, 0, .rw, .range 0 95, 0⟩]⟩
  | .ACU_CTRL => ⟨0x00600000, [], .acu, [⟨1, 1, .rw, .any, 0⟩,
      ⟨0, 0, .rw, .any, 0⟩]⟩
  | .ACU_STATUS => ⟨0x00600004, [], .acu, [⟨31, 31, .live, .any, 0⟩,
      ⟨29, 24, .live, .any, 0⟩,
      ⟨14, 8, .live, .any, 0⟩,
      ⟨0, 0, .w1c, .any, 0⟩]⟩
  | .ACU_TASK_CTRL => ⟨0x00600200, [], .acuTask, [⟨5, 4, .rw, .any, 0⟩,
      ⟨2, 1, .ro, .any, 0⟩,
      ⟨0, 0, .rw, .any, 0⟩]⟩
  | .ACU_TASK_STATUS => ⟨0x00600204, [], .acuTask, [⟨23, 16, .live, .any, 0⟩,
      ⟨11, 8, .live, .any, 0⟩,
      ⟨2, 0, .live, .any, 0⟩]⟩
  | .ACU_TASK_PC => ⟨0x00600208, [], .acuTask, [⟨31, 2, .rw, .any, 0⟩]⟩
  | .ACU_TASK_FSR => ⟨0x00600214, [], .acuTask, [⟨19, 19, .rw, .any, 0⟩,
      ⟨18, 16, .rw, .range 1 5, 1⟩,
      ⟨12, 8, .rw, .any, 0⟩,
      ⟨4, 4, .rw, .any, 0⟩,
      ⟨3, 3, .rw, .any, 0⟩,
      ⟨2, 2, .rw, .any, 0⟩,
      ⟨1, 1, .rw, .any, 0⟩,
      ⟨0, 0, .rw, .any, 0⟩]⟩
  | .STG_BANK_OWNER => ⟨0x00800000, [(4, 8)], .none, [⟨31, 31, .ro, .any, 0⟩,
      ⟨30, 30, .w1c, .any, 0⟩,
      ⟨12, 8, .ro, .any, 31⟩,
      ⟨4, 0, .rw, .any, 31⟩]⟩
  | .STG_STATUS => ⟨0x00800020, [], .none, [⟨23, 16, .ro, .any, 0⟩,
      ⟨0, 0, .w1c, .any, 0⟩]⟩
  | .STG_TEST => ⟨0x00800024, [], .none, [⟨30, 16, .live, .any, 0⟩,
      ⟨15, 8, .rw, .range 1 255, 2⟩,
      ⟨2, 1, .ro, .any, 2⟩,
      ⟨0, 0, .rw, .any, 1⟩]⟩
  | .STG_ECC => ⟨0x00800028, [], .none, [⟨31, 31, .wo, .any, 0⟩,
      ⟨23, 16, .ro, .any, 0⟩,
      ⟨15, 0, .ro, .any, 0⟩]⟩
  | .REC_STATUS => ⟨0x00900000, [], .none, [⟨31, 31, .live, .any, 0⟩,
      ⟨0, 0, .w1c, .any, 0⟩]⟩
  | .REC_ECC => ⟨0x00900004, [], .none, [⟨31, 31, .wo, .any, 0⟩,
      ⟨23, 16, .ro, .any, 0⟩,
      ⟨15, 0, .ro, .any, 0⟩]⟩
  | .REC_SCRUB => ⟨0x00900008, [], .none, [⟨31, 16, .live, .any, 0⟩,
      ⟨2, 1, .ro, .any, 2⟩,
      ⟨0, 0, .rw, .any, 1⟩]⟩
  | .REC_RING_AREA => ⟨0x00901000, [(32, 32)], .none, [⟨31, 16, .rw, .any, 0⟩,
      ⟨15, 0, .rw, .any, 0⟩]⟩
  | .REC_RING_CTRL => ⟨0x00901004, [(32, 32)], .none, [⟨31, 31, .w1c, .any, 0⟩,
      ⟨30, 30, .wo, .any, 0⟩,
      ⟨29, 29, .ro, .any, 0⟩,
      ⟨23, 8, .rw, .any, 0⟩,
      ⟨7, 5, .rw, .any, 0⟩,
      ⟨4, 3, .rw, .any, 0⟩,
      ⟨2, 1, .ro, .any, 0⟩,
      ⟨0, 0, .rw, .any, 0⟩]⟩
  | .REC_RING_COUNT => ⟨0x00901008, [(32, 32), (4, 2)], .none, [⟨31, 0, .live, .any, 0⟩]⟩
  | .WHL_ENG => ⟨0x00700000, [(16, 4)], .none, [⟨31, 31, .w1c, .any, 0⟩,
      ⟨30, 30, .w1c, .any, 0⟩,
      ⟨22, 16, .live, .any, 0⟩,
      ⟨2, 1, .ro, .any, 2⟩,
      ⟨0, 0, .rw, .any, 1⟩]⟩
  | .WHL_SLOT_CFG => ⟨0x00701000, [(2048, 4), (32, 64)], .none, [⟨31, 31, .rw, .any, 0⟩,
      ⟨30, 30, .rw, .any, 0⟩,
      ⟨29, 28, .rw, .range 0 2, 0⟩,
      ⟨27, 26, .rw, .range 0 2, 0⟩,
      ⟨25, 24, .rw, .any, 0⟩,
      ⟨23, 23, .rw, .any, 0⟩,
      ⟨22, 20, .rw, .range 1 5, 1⟩,
      ⟨13, 8, .rw, .any, 0⟩]⟩
  | .WHL_SLOT_FMT => ⟨0x00701004, [(2048, 4), (32, 64)], .none, [⟨31, 16, .rw, .any, 0⟩,
      ⟨15, 0, .rw, .any, 0⟩]⟩
  | .WHL_SLOT_BASE => ⟨0x00701008, [(2048, 4), (32, 64)], .none, [⟨31, 0, .rw, .any, 0⟩]⟩
  | .WHL_SLOT_PSTRIDE => ⟨0x0070100C, [(2048, 4), (32, 64)], .none, [⟨31, 0, .rw, .any, 0⟩]⟩
  | .WHL_SLOT_ESTRIDE => ⟨0x00701010, [(2048, 4), (32, 64)], .none, [⟨31, 0, .rw, .any, 0⟩]⟩
  | .WHL_SLOT_MAP => ⟨0x00701014, [(2048, 4), (32, 64)], .none, [⟨30, 0, .rw, .any, 0⟩]⟩
  | .WHL_SLOT_STATUS => ⟨0x00701018, [(2048, 4), (32, 64)], .none, [⟨31, 31, .w1c, .any, 0⟩,
      ⟨30, 28, .ro, .any, 0⟩,
      ⟨8, 8, .live, .any, 0⟩,
      ⟨5, 0, .w1c, .any, 0⟩]⟩
  | .SP_LANE_CFG => ⟨0x00A00000, [], .port, [⟨31, 16, .rw, .range 1250 32000, 0⟩,
      ⟨9, 9, .rw, .any, 0⟩,
      ⟨8, 8, .rw, .any, 0⟩,
      ⟨7, 4, .rw, .range 0 3, 0⟩,
      ⟨3, 0, .rw, .range 0 3, 0⟩]⟩
  | .SP_LANE_STATUS => ⟨0x00A00004, [], .port, [⟨31, 16, .ro, .any, 0⟩,
      ⟨15, 15, .wo, .any, 0⟩,
      ⟨3, 3, .w1c, .any, 0⟩,
      ⟨2, 0, .live, .any, 0⟩]⟩
  | .SP_JLINK_CFG0 => ⟨0x00A00100, [(16, 16)], .none, [⟨31, 31, .rw, .any, 0⟩,
      ⟨30, 29, .ro, .any, 0⟩,
      ⟨28, 24, .rw, .range 0 23, 0⟩,
      ⟨23, 20, .rw, .among [1, 2, 4, 8], 0⟩,
      ⟨19, 12, .rw, .any, 0⟩,
      ⟨11, 9, .rw, .any, 0⟩,
      ⟨8, 4, .rw, .range 7 23, 0⟩,
      ⟨3, 3, .rw, .any, 0⟩,
      ⟨2, 1, .rw, .range 0 2, 0⟩]⟩
  | .SP_JLINK_CFG1 => ⟨0x00A00104, [(16, 16)], .none, [⟨31, 28, .rw, .any, 0⟩,
      ⟨15, 0, .rw, .any, 0⟩]⟩
  | .SP_JLINK_STATUS => ⟨0x00A00108, [(16, 16)], .none, [⟨31, 16, .ro, .any, 0⟩,
      ⟨0, 0, .live, .any, 0⟩]⟩
  | .SP_SYSREF => ⟨0x00A00200, [], .none, [⟨31, 0, .rw, .any, 0⟩]⟩
  | .CH_SRC => ⟨0x00B00000, [], .ch, [⟨31, 29, .rw, .range 0 4, 0⟩,
      ⟨28, 24, .rw, .any, 0⟩,
      ⟨23, 12, .rw, .any, 0⟩]⟩
  | .CH_ROUTE => ⟨0x00B00004, [], .ch, [⟨31, 31, .rw, .any, 0⟩,
      ⟨19, 14, .rw, .any, 0⟩,
      ⟨13, 0, .rw, .any, 0⟩]⟩
  | .CH_GAIN => ⟨0x00B00008, [], .ch, [⟨31, 0, .rw, .any, 16777216⟩]⟩
  | .CH_OFFSET => ⟨0x00B0000C, [], .ch, [⟨23, 0, .rw, .any, 0⟩]⟩
  | .CH_STATUS => ⟨0x00B00010, [], .ch, [⟨31, 31, .w1c, .any, 0⟩,
      ⟨30, 30, .w1c, .any, 0⟩,
      ⟨29, 29, .w1c, .any, 0⟩]⟩
  | .CH_STRM_CTRL => ⟨0x00B10000, [(64, 64)], .none, [⟨31, 31, .rw, .any, 0⟩,
      ⟨30, 29, .ro, .any, 0⟩,
      ⟨28, 28, .rw, .any, 0⟩,
      ⟨27, 24, .rw, .any, 0⟩,
      ⟨23, 23, .rw, .any, 0⟩,
      ⟨22, 18, .rw, .any, 0⟩,
      ⟨17, 17, .rw, .any, 0⟩,
      ⟨16, 11, .rw, .any, 0⟩,
      ⟨10, 10, .rw, .any, 0⟩,
      ⟨9, 8, .rw, .range 0 2, 0⟩]⟩
  | .CH_STRM_SHAPE => ⟨0x00B10004, [(64, 64)], .none, [⟨29, 16, .rw, .any, 0⟩,
      ⟨15, 0, .rw, .any, 0⟩]⟩
  | .CH_STRM_BASE => ⟨0x00B10008, [(64, 64)], .none, [⟨31, 0, .rw, .any, 0⟩]⟩
  | .CH_STRM_BUFSTRIDE => ⟨0x00B1000C, [(64, 64)], .none, [⟨31, 0, .rw, .any, 0⟩]⟩
  | .CH_STRM_DESC => ⟨0x00B10010, [(64, 64)], .none, [⟨31, 0, .rw, .any, 0⟩]⟩
  | .CH_STRM_LATE => ⟨0x00B10014, [(64, 64)], .none, [⟨15, 0, .rw, .range 1 65535, 1000⟩]⟩
  | .CH_STRM_BLOCK => ⟨0x00B10018, [(64, 64), (4, 2)], .none, [⟨31, 0, .live, .any, 0⟩]⟩
  | .CH_STRM_STATUS => ⟨0x00B10020, [(64, 64)], .none, [⟨31, 31, .w1c, .any, 0⟩,
      ⟨30, 30, .w1c, .any, 0⟩,
      ⟨29, 29, .w1c, .any, 0⟩]⟩
  | .DRV_CFG => ⟨0x00C00000, [], .drv, [⟨31, 31, .rw, .any, 0⟩,
      ⟨30, 29, .ro, .any, 0⟩,
      ⟨28, 26, .rw, .range 0 3, 0⟩,
      ⟨25, 21, .rw, .any, 0⟩,
      ⟨20, 9, .rw, .any, 0⟩,
      ⟨8, 5, .rw, .any, 0⟩]⟩
  | .DRV_RING => ⟨0x00C00004, [], .drv, [⟨31, 0, .rw, .any, 0⟩]⟩
  | .DRV_RINGLEN => ⟨0x00C00008, [], .drv, [⟨31, 0, .rw, .any, 0⟩]⟩
  | .DRV_READY => ⟨0x00C0000C, [(4, 2)], .drv, [⟨31, 0, .rw, .any, 0⟩]⟩
  | .DRV_RAMP => ⟨0x00C00014, [], .drv, [⟨25, 16, .rw, .range 1 1000, 100⟩,
      ⟨15, 0, .rw, .any, 0⟩]⟩
  | .DRV_SAFE => ⟨0x00C00018, [], .drv, [⟨23, 0, .rw, .any, 0⟩]⟩
  | .DRV_CTRL => ⟨0x00C0001C, [], .drv, [⟨1, 1, .wo, .any, 0⟩,
      ⟨0, 0, .wo, .any, 0⟩]⟩
  | .DRV_STATUS => ⟨0x00C00020, [], .drv, [⟨31, 24, .live, .any, 0⟩,
      ⟨23, 23, .live, .any, 0⟩,
      ⟨22, 22, .w1c, .any, 0⟩,
      ⟨1, 0, .live, .any, 0⟩]⟩
  | .DRV_POS => ⟨0x00C00024, [(4, 2)], .drv, [⟨31, 0, .live, .any, 0⟩]⟩
  | .DRV_GRP_START => ⟨0x00C10000, [(16, 16), (4, 2)], .none, [⟨31, 0, .rwl, .any, 0⟩]⟩
  | .DRV_GRP_PERIOD => ⟨0x00C10008, [(16, 16)], .none, [⟨31, 0, .rwl, .any, 0⟩]⟩
  | .DRV_GLOBAL => ⟨0x00C10100, [], .none, [⟨31, 31, .live, .any, 0⟩,
      ⟨30, 30, .w1c, .any, 0⟩,
      ⟨0, 0, .wo, .any, 0⟩]⟩
  | .LOG_CTRL => ⟨0x00D00000, [], .none, [⟨31, 31, .rw, .any, 0⟩,
      ⟨30, 29, .ro, .any, 0⟩,
      ⟨28, 28, .rw, .any, 0⟩,
      ⟨27, 23, .rw, .any, 0⟩]⟩
  | .LOG_STATUS => ⟨0x00D00004, [], .none, [⟨31, 31, .w1c, .any, 0⟩,
      ⟨30, 30, .w1c, .any, 0⟩]⟩
  | .LOG_SEQ => ⟨0x00D00008, [(4, 2)], .none, [⟨31, 0, .live, .any, 0⟩]⟩
  | .LOG_HOST_BASE => ⟨0x00D00010, [(4, 2)], .none, [⟨31, 0, .rw, .any, 0⟩]⟩
  | .LOG_HOST_SIZE => ⟨0x00D00018, [], .none, [⟨4, 0, .rw, .range 16 32, 16⟩]⟩
  | .LOG_HOST_WPTR => ⟨0x00D00020, [(4, 2)], .none, [⟨31, 0, .live, .any, 0⟩]⟩
  | .LOG_HOST_RPTR => ⟨0x00D00028, [(4, 2)], .none, [⟨31, 0, .rw, .any, 0⟩]⟩
  | .LOG_IRQ => ⟨0x00D00030, [], .none, [⟨31, 16, .rw, .any, 1000⟩,
      ⟨15, 0, .rw, .any, 64⟩]⟩
  | .LOG_EVENT => ⟨0x00D00040, [(4, 2)], .none, [⟨31, 0, .wo, .any, 0⟩]⟩
  | .GKO_STATUS => ⟨0x00E00000, [], .none, [⟨31, 31, .live, .any, 0⟩,
      ⟨23, 16, .live, .any, 0⟩,
      ⟨0, 0, .w1c, .any, 0⟩]⟩
  | .GKO_CONTENTION => ⟨0x00E00010, [], .none, [⟨31, 31, .w1c, .any, 0⟩,
      ⟨25, 16, .ro, .any, 0⟩,
      ⟨11, 8, .ro, .any, 0⟩,
      ⟨3, 0, .ro, .any, 0⟩]⟩
  | .GKO_IRQ_PEND => ⟨0x00E00020, [], .none, [⟨15, 0, .w1c, .any, 0⟩]⟩
  | .GKO_IRQ_EN => ⟨0x00E00024, [], .none, [⟨15, 0, .rw, .any, 0⟩]⟩
  | .GKO_CAPTURE_CTRL => ⟨0x00E00030, [], .none, [⟨31, 30, .wo, .range 0 2, 0⟩,
      ⟨29, 29, .rw, .any, 0⟩,
      ⟨23, 16, .rw, .any, 0⟩,
      ⟨2, 2, .w1c, .any, 0⟩,
      ⟨1, 1, .w1c, .any, 0⟩,
      ⟨0, 0, .ro, .any, 0⟩]⟩
  | .GKO_CAPTURE_TIME => ⟨0x00E00034, [(4, 2)], .none, [⟨31, 0, .rw, .any, 0⟩]⟩
  | .GKO_CAPTURE_DEST => ⟨0x00E0003C, [], .none, [⟨31, 0, .rw, .any, 0⟩]⟩
  | .GKO_REGION_CTRL => ⟨0x00E00100, [(32, 8)], .none, [⟨31, 31, .rw, .any, 1⟩,
      ⟨30, 29, .ro, .any, 0⟩,
      ⟨28, 26, .live, .any, 0⟩]⟩
  | .GKO_REGION_STATUS => ⟨0x00E00104, [(32, 8)], .none, [⟨31, 31, .w1c, .any, 0⟩,
      ⟨30, 30, .w1c, .any, 0⟩,
      ⟨29, 29, .w1c, .any, 0⟩,
      ⟨28, 28, .wo, .any, 0⟩,
      ⟨25, 16, .ro, .any, 0⟩,
      ⟨15, 0, .ro, .any, 0⟩]⟩
  | .GKO_REGION_IMAGE => ⟨0x00E00108, [(32, 8)], .none, [⟨31, 0, .ro, .any, 0⟩]⟩
  | .GKO_REGION_RAM => ⟨0x00E0010C, [(32, 8)], .none, [⟨31, 31, .wo, .any, 0⟩,
      ⟨23, 16, .ro, .any, 0⟩,
      ⟨15, 0, .ro, .any, 0⟩]⟩
  | .GKO_PIN => ⟨0x00E00400, [(4, 96)], .none, [⟨31, 31, .live, .any, 0⟩,
      ⟨30, 30, .live, .any, 0⟩,
      ⟨5, 4, .ro, .any, 2⟩,
      ⟨1, 0, .rw, .any, 3⟩]⟩
  | .WEIR_CTRL => ⟨0x00200000, [], .none, [⟨5, 4, .rw, .range 0 1, 0⟩,
      ⟨1, 1, .wo, .any, 0⟩,
      ⟨0, 0, .wo, .any, 0⟩]⟩
  | .WEIR_PERIOD => ⟨0x00200004, [], .none, [⟨23, 0, .rwl, .range 1 10000000, 100000⟩]⟩
  | .WEIR_VOTE => ⟨0x00200008, [], .none, [⟨15, 0, .rw, .range 10 65535, 100⟩]⟩
  | .WEIR_STATUS => ⟨0x0020000C, [], .none, [⟨31, 31, .ro, .any, 0⟩,
      ⟨30, 30, .w1c, .any, 0⟩,
      ⟨26, 24, .live, .any, 0⟩,
      ⟨23, 16, .live, .any, 0⟩,
      ⟨15, 8, .live, .any, 0⟩,
      ⟨0, 0, .w1c, .any, 0⟩]⟩
  | .WEIR_EPOCH => ⟨0x00200010, [(4, 2)], .none, [⟨31, 0, .ro, .any, 0⟩]⟩
  | .WEIR_APPLY => ⟨0x00200018, [(4, 2)], .none, [⟨31, 0, .ro, .any, 0⟩]⟩
  | .WEIR_COMMIT_NS => ⟨0x00200020, [], .none, [⟨31, 31, .wo, .any, 0⟩,
      ⟨15, 0, .live, .any, 0⟩]⟩
  | .WEIR_PUB_CTRL => ⟨0x00201000, [(16, 32)], .none, [⟨31, 31, .rw, .any, 0⟩,
      ⟨30, 29, .ro, .any, 0⟩,
      ⟨28, 28, .rw, .any, 0⟩,
      ⟨27, 27, .rw, .any, 0⟩,
      ⟨26, 26, .wo, .any, 0⟩,
      ⟨25, 24, .wo, .any, 0⟩]⟩
  | .WEIR_PUB_BASE => ⟨0x00201004, [(16, 32)], .none, [⟨31, 0, .rw, .any, 0⟩]⟩
  | .WEIR_PUB_SIZE => ⟨0x00201008, [(16, 32)], .none, [⟨31, 0, .rw, .any, 0⟩]⟩
  | .WEIR_PUB_STATE => ⟨0x0020100C, [(16, 32)], .none, [⟨31, 24, .live, .any, 0⟩,
      ⟨23, 16, .ro, .any, 0⟩,
      ⟨15, 15, .ro, .any, 0⟩,
      ⟨14, 14, .live, .any, 0⟩,
      ⟨13, 13, .w1c, .any, 0⟩,
      ⟨5, 4, .live, .any, 0⟩,
      ⟨3, 2, .live, .any, 0⟩,
      ⟨1, 0, .ro, .any, 0⟩]⟩
  | .CMD_STATUS => ⟨0x00100000, [], .none, [⟨31, 31, .live, .any, 0⟩,
      ⟨24, 24, .ro, .any, 0⟩,
      ⟨0, 0, .w1c, .any, 0⟩]⟩
  | .CMD_FW_VERSION => ⟨0x00100004, [], .none, [⟨31, 24, .ro, .any, 0⟩,
      ⟨23, 16, .ro, .any, 0⟩,
      ⟨15, 0, .ro, .any, 0⟩]⟩
  | .CMD_SELECT => ⟨0x00102000, [(64, 16), (4, 11)], .none, [⟨13, 0, .rw, .any, 0⟩]⟩
  | .CMD_Q_CTRL => ⟨0x00101000, [(64, 16)], .none, [⟨31, 31, .rw, .any, 0⟩,
      ⟨30, 29, .ro, .any, 0⟩,
      ⟨12, 8, .rw, .range 1 16, 1⟩,
      ⟨4, 0, .rw, .range 1 16, 1⟩]⟩
  | .CMD_Q_SQBASE => ⟨0x00101008, [(64, 16), (4, 2)], .none, [⟨31, 0, .rw, .any, 0⟩]⟩
  | .CMD_Q_CQBASE => ⟨0x00101010, [(64, 16), (4, 2)], .none, [⟨31, 0, .rw, .any, 0⟩]⟩
  | .CMD_Q_SQ_TAIL => ⟨0x00101018, [(64, 16)], .none, [⟨15, 0, .rw, .any, 0⟩]⟩
  | .CMD_Q_CQ_HEAD => ⟨0x0010101C, [(64, 16)], .none, [⟨15, 0, .rw, .any, 0⟩]⟩
  | .CMD_Q_STATUS => ⟨0x00101020, [(64, 16)], .none, [⟨31, 16, .live, .any, 0⟩,
      ⟨0, 0, .w1c, .any, 0⟩]⟩
  | .CMD_Q_COUNT => ⟨0x00101024, [(64, 16)], .none, [⟨31, 16, .live, .any, 0⟩,
      ⟨15, 0, .live, .any, 0⟩]⟩
  | .CMD_IRQ_MAP => ⟨0x00103000, [(4, 32)], .none, [⟨31, 31, .rw, .any, 0⟩,
      ⟨7, 0, .rw, .any, 0⟩]⟩
  | .CMD_IRQ_NODES => ⟨0x00103100, [(8, 32), (4, 2)], .none, [⟨31, 0, .w1c, .any, 0⟩]⟩
  | .SPAN_LINK_CTRL => ⟨0x00F00000, [], .link, [⟨31, 31, .rw, .any, 1⟩,
      ⟨30, 29, .ro, .any, 0⟩]⟩
  | .SPAN_LINK_STATUS => ⟨0x00F00004, [], .link, [⟨31, 29, .live, .any, 0⟩,
      ⟨28, 26, .live, .any, 0⟩,
      ⟨25, 23, .live, .any, 0⟩,
      ⟨19, 14, .live, .any, 0⟩]⟩
  | .SPAN_LINK_ERR => ⟨0x00F00008, [], .link, [⟨31, 31, .wo, .any, 0⟩,
      ⟨23, 16, .ro, .any, 0⟩,
      ⟨15, 0, .ro, .any, 0⟩]⟩
  | .SPAN_LINK_TIME => ⟨0x00F0000C, [], .link, [⟨31, 0, .live, .any, 0⟩]⟩
  | .SPAN_STATUS => ⟨0x00F00100, [], .none, [⟨31, 24, .live, .any, 0⟩,
      ⟨23, 16, .live, .any, 0⟩,
      ⟨15, 15, .live, .any, 0⟩,
      ⟨14, 12, .live, .any, 0⟩,
      ⟨0, 0, .w1c, .any, 0⟩]⟩
  | .CHR_CTRL => ⟨0x01000000, [], .none, [⟨15, 8, .rw, .range 1 255, 1⟩,
      ⟨0, 0, .rw, .any, 1⟩]⟩
  | .CHR_STATUS => ⟨0x01000004, [], .none, [⟨31, 29, .live, .any, 0⟩,
      ⟨26, 26, .ro, .any, 0⟩,
      ⟨25, 25, .ro, .any, 0⟩,
      ⟨24, 22, .ro, .any, 0⟩,
      ⟨21, 19, .ro, .any, 0⟩,
      ⟨14, 8, .ro, .any, 0⟩,
      ⟨0, 0, .w1c, .any, 0⟩]⟩
  | .CHR_STAGED => ⟨0x01000008, [], .none, [⟨6, 0, .live, .any, 0⟩]⟩
  | .CHR_FE => ⟨0x01000100, [], .port, [⟨31, 31, .ro, .any, 0⟩,
      ⟨30, 30, .live, .any, 0⟩,
      ⟨28, 16, .ro, .any, 0⟩,
      ⟨15, 8, .ro, .any, 0⟩,
      ⟨7, 0, .ro, .any, 0⟩]⟩
  | .CHR_FE_SERIAL => ⟨0x01000104, [(4, 2)], .port, [⟨31, 0, .ro, .any, 0⟩]⟩
  | .NOC_CTRL => ⟨0x01100000, [], .none, [⟨0, 0, .rw, .any, 1⟩]⟩
  | .NOC_STATUS => ⟨0x01100004, [], .none, [⟨0, 0, .w1c, .any, 0⟩]⟩
  | .NOC_TIMEOUT => ⟨0x01100008, [], .none, [⟨31, 16, .rw, .range 1 65535, 200⟩,
      ⟨15, 0, .rw, .range 1 65535, 50⟩]⟩
  | .NOC_ERR => ⟨0x0110000C, [], .none, [⟨31, 31, .w1c, .any, 0⟩,
      ⟨26, 24, .ro, .any, 0⟩,
      ⟨23, 16, .ro, .any, 0⟩,
      ⟨15, 8, .ro, .any, 0⟩,
      ⟨5, 0, .ro, .any, 0⟩]⟩
  | .NOC_ERR_ADDR => ⟨0x01100010, [(4, 2)], .none, [⟨31, 0, .ro, .any, 0⟩]⟩
  | .NOC_LATE => ⟨0x01100018, [], .none, [⟨31, 31, .wo, .any, 0⟩,
      ⟨15, 0, .ro, .any, 0⟩]⟩
  | .NOC_ISOLATE => ⟨0x01100020, [(4, 8)], .none, [⟨31, 0, .rw, .any, 0⟩]⟩
  | .NOC_DOMAIN => ⟨0x01100040, [(4, 8)], .none, [⟨31, 31, .rw, .any, 0⟩,
      ⟨6, 3, .live, .any, 0⟩,
      ⟨2, 0, .live, .any, 0⟩]⟩
  | .NOC_RTR_CTRL => ⟨0x01101000, [(16, 48)], .none, [⟨31, 31, .wo, .any, 0⟩,
      ⟨30, 30, .w1c, .any, 0⟩,
      ⟨2, 2, .ro, .any, 0⟩,
      ⟨1, 0, .live, .any, 0⟩]⟩
  | .NOC_RTR_TADDR => ⟨0x01101004, [(16, 48)], .none, [⟨7, 0, .rw, .any, 0⟩]⟩
  | .NOC_RTR_TDATA => ⟨0x01101008, [(16, 48)], .none, [⟨3, 0, .rw, .among [0, 1, 2, 3, 4, 5, 6, 7, 15], 0⟩]⟩
  | .NOC_RTR_TACTIVE => ⟨0x0110100C, [(16, 48)], .none, [⟨3, 0, .ro, .any, 0⟩]⟩
  | .FLT_CTRL => ⟨0x01200000, [], .none, [⟨31, 31, .wo, .any, 0⟩,
      ⟨2, 0, .rw, .range 2 4, 3⟩]⟩
  | .FLT_STATUS => ⟨0x01200004, [], .none, [⟨31, 31, .live, .any, 0⟩,
      ⟨30, 28, .live, .any, 0⟩,
      ⟨27, 27, .ro, .any, 0⟩,
      ⟨26, 26, .ro, .any, 0⟩,
      ⟨24, 16, .live, .any, 0⟩,
      ⟨0, 0, .w1c, .any, 0⟩]⟩
  | .FLT_SEQ => ⟨0x01200008, [(4, 2)], .none, [⟨31, 0, .live, .any, 0⟩]⟩
  | .FLT_REACT => ⟨0x01200010, [(4, 5)], .none, [⟨5, 5, .rw, .any, 0⟩,
      ⟨4, 4, .rw, .any, 0⟩,
      ⟨3, 3, .rw, .any, 0⟩,
      ⟨2, 2, .rw, .any, 0⟩,
      ⟨1, 1, .rw, .any, 0⟩,
      ⟨0, 0, .rw, .any, 0⟩]⟩
  | .FLT_RING => ⟨0x01200028, [], .none, [⟨31, 31, .w1c, .any, 0⟩,
      ⟨8, 0, .live, .any, 0⟩]⟩
  | .FLT_FIRST => ⟨0x01200040, [(4, 8)], .none, [⟨31, 0, .ro, .any, 0⟩]⟩
  | .FLT_NEXT => ⟨0x01200060, [(4, 8)], .none, [⟨31, 0, .ro, .any, 0⟩]⟩
  | .FLT_SRC_CFG => ⟨0x01200100, [], .flt, [⟨31, 24, .rw, .any, 0⟩,
      ⟨23, 16, .rw, .any, 0⟩,
      ⟨14, 12, .rw, .range 0 4, 2⟩,
      ⟨10, 8, .rw, .range 0 4, 0⟩,
      ⟨6, 4, .ro, .any, 0⟩,
      ⟨1, 1, .rw, .any, 0⟩,
      ⟨0, 0, .rw, .any, 1⟩]⟩
  | .FLT_SRC_LEAK => ⟨0x01200104, [], .flt, [⟨31, 0, .rw, .any, 0⟩]⟩
  | .FLT_SRC_ESC => ⟨0x01200108, [], .flt, [⟨31, 16, .rw, .any, 60000⟩,
      ⟨15, 0, .rw, .any, 10000⟩]⟩
  | .FLT_SRC_STATUS => ⟨0x0120010C, [], .flt, [⟨31, 31, .ro, .any, 0⟩,
      ⟨30, 30, .wo, .any, 0⟩,
      ⟨28, 26, .ro, .any, 0⟩,
      ⟨15, 0, .live, .any, 0⟩]⟩
  | .FLT_SRC_TOTAL => ⟨0x01200110, [], .flt, [⟨31, 0, .live, .any, 0⟩]⟩
  | .DLM_CTRL => ⟨0x01300000, [], .dlm, [⟨31, 31, .rw, .any, 0⟩,
      ⟨30, 29, .ro, .any, 0⟩,
      ⟨28, 27, .rw, .any, 0⟩,
      ⟨26, 25, .rw, .range 0 2, 0⟩,
      ⟨24, 24, .rw, .any, 0⟩,
      ⟨23, 23, .wo, .any, 0⟩,
      ⟨22, 22, .wo, .any, 0⟩,
      ⟨21, 21, .rw, .any, 0⟩,
      ⟨20, 17, .rw, .any, 0⟩,
      ⟨13, 8, .rw, .any, 0⟩,
      ⟨7, 0, .rw, .any, 0⟩]⟩
  | .DLM_OFFSET => ⟨0x01300004, [(4, 2)], .dlm, [⟨31, 0, .rw, .any, 0⟩]⟩
  | .DLM_ABS => ⟨0x0130000C, [(4, 2)], .dlm, [⟨31, 0, .rw, .any, 0⟩]⟩
  | .DLM_DEADLINE => ⟨0x01300014, [(4, 2)], .dlm, [⟨31, 0, .live, .any, 0⟩]⟩
  | .DLM_STATUS => ⟨0x0130001C, [], .dlm, [⟨31, 30, .live, .any, 0⟩,
      ⟨29, 29, .w1c, .any, 0⟩,
      ⟨28, 28, .w1c, .any, 0⟩]⟩
  | .DLM_LATE_NS => ⟨0x01300020, [], .dlm, [⟨31, 0, .live, .any, 0⟩]⟩
  | .DLM_MET => ⟨0x01300024, [], .dlm, [⟨31, 0, .live, .any, 0⟩]⟩
  | .DLM_MISSES => ⟨0x01300028, [], .dlm, [⟨31, 0, .live, .any, 0⟩]⟩
  | .DLM_OUT_MARGIN => ⟨0x01301000, [], .none, [⟨15, 0, .rw, .any, 10000⟩]⟩
  | .GOV_STATE => ⟨0x01400000, [], .none, [⟨15, 8, .ro, .any, 0⟩,
      ⟨7, 7, .w1c, .any, 0⟩,
      ⟨6, 6, .live, .any, 0⟩,
      ⟨3, 3, .live, .any, 0⟩,
      ⟨2, 0, .live, .any, 0⟩]⟩
  | .GOV_REQ => ⟨0x01400004, [], .none, [⟨8, 8, .wo, .any, 0⟩,
      ⟨2, 0, .wo, .range 0 4, 0⟩]⟩
  | .GOV_CLK => ⟨0x01400008, [], .none, [⟨31, 16, .rw, .range 750 1500, 1500⟩,
      ⟨15, 0, .rw, .range 600 1200, 1200⟩]⟩
  | .GOV_SAG => ⟨0x0140000C, [], .none, [⟨25, 16, .rw, .range 1 1000, 20⟩,
      ⟨7, 0, .rw, .range 20 80, 40⟩]⟩
  | .GOV_CAP => ⟨0x01400010, [], .none, [⟨9, 0, .rw, .range 350 700, 700⟩]⟩
  | .GOV_TEMP => ⟨0x01400014, [], .none, [⟨7, 0, .rw, .range 60 105, 95⟩]⟩
  | .GOV_DOMAIN => ⟨0x01400018, [], .none, [⟨7, 4, .rw, .any, 0⟩]⟩
  | .GOV_MONITOR => ⟨0x0140001C, [], .none, [⟨31, 24, .live, .any, 0⟩,
      ⟨19, 16, .live, .any, 0⟩,
      ⟨15, 0, .live, .any, 0⟩]⟩
  | .GOV_WAKE => ⟨0x01400020, [(4, 2)], .none, [⟨31, 0, .rw, .any, 0⟩]⟩
  | .GOV_WAKE_CTRL => ⟨0x01400028, [], .none, [⟨15, 8, .rw, .any, 31⟩,
      ⟨0, 0, .rw, .any, 0⟩]⟩
  | .TIM_CTRL => ⟨0x01500000, [], .none, [⟨31, 31, .wo, .any, 0⟩,
      ⟨23, 16, .rw, .range 1 255, 100⟩,
      ⟨9, 9, .rw, .any, 0⟩,
      ⟨8, 8, .rw, .any, 0⟩,
      ⟨1, 0, .rw, .range 0 2, 0⟩]⟩
  | .TIM_STATUS => ⟨0x01500004, [], .none, [⟨4, 4, .w1c, .any, 0⟩,
      ⟨3, 3, .live, .any, 0⟩,
      ⟨2, 2, .live, .any, 0⟩,
      ⟨1, 1, .live, .any, 0⟩,
      ⟨0, 0, .live, .any, 0⟩]⟩
  | .TIM_NOW_LO => ⟨0x01500008, [], .none, [⟨31, 0, .live, .any, 0⟩]⟩
  | .TIM_NOW_HI => ⟨0x0150000C, [], .none, [⟨31, 0, .ro, .any, 0⟩]⟩
  | .TIM_NOW_FRAC => ⟨0x01500010, [], .none, [⟨15, 0, .ro, .any, 0⟩]⟩
  | .TIM_SET => ⟨0x01500014, [(4, 2)], .none, [⟨31, 0, .rw, .any, 0⟩]⟩
  | .TIM_PPS_OFFSET => ⟨0x0150001C, [], .none, [⟨31, 0, .rw, .any, 0⟩]⟩
  | .TIM_HOLD => ⟨0x01500020, [], .none, [⟨31, 16, .live, .any, 0⟩,
      ⟨15, 0, .rw, .range 1 65535, 1000⟩]⟩
  | .NVS_STATUS => ⟨0x01600000, [], .none, [⟨31, 16, .ro, .any, 0⟩,
      ⟨2, 2, .ro, .any, 0⟩,
      ⟨1, 1, .live, .any, 0⟩,
      ⟨0, 0, .w1c, .any, 0⟩]⟩
  | .NVS_ECC => ⟨0x01600004, [], .none, [⟨31, 31, .wo, .any, 0⟩,
      ⟨23, 16, .ro, .any, 0⟩,
      ⟨15, 0, .ro, .any, 0⟩]⟩
  | .NVS_BB => ⟨0x01600008, [], .none, [⟨31, 16, .ro, .any, 0⟩,
      ⟨10, 0, .live, .any, 0⟩]⟩
  | .SEC_STATUS => ⟨0x01800000, [], .none, [⟨31, 31, .w1c, .any, 0⟩,
      ⟨30, 30, .ro, .any, 0⟩,
      ⟨3, 0, .ro, .any, 0⟩]⟩
  | .SEC_UNLOCK => ⟨0x01800004, [], .none, [⟨31, 31, .wo, .any, 0⟩,
      ⟨10, 8, .ro, .any, 0⟩,
      ⟨2, 0, .rw, .any, 0⟩]⟩
  | .SEC_CHALLENGE => ⟨0x01800010, [(4, 8)], .none, [⟨31, 0, .live, .any, 0⟩]⟩
  | .SEC_RESPONSE => ⟨0x01800040, [(4, 24)], .none, [⟨31, 0, .wo, .any, 0⟩]⟩
  | .DBG_ACU_REG => ⟨0x01700000, [], .acuTask, [⟨31, 30, .wo, .range 0 2, 0⟩,
      ⟨5, 0, .rw, .range 0 39, 0⟩]⟩
  | .DBG_ACU_DATA => ⟨0x01700004, [], .acuTask, [⟨31, 0, .rw, .any, 0⟩]⟩

/-- All register sets, in the order of the tables. -/
def allRegs : List Reg :=
  ([.GLB_ID, .GLB_PARAM0, .GLB_PARAM1, .GLB_PARAM2, .GLB_PARAM3, .GLB_STATUS, .GLB_REC_APERTURE, .NEWT_PLANE_ECC,
    .NEWT_PLANE_ERRADDR, .NEWT_TILE_REPAIR, .MILL_EDGE, .NEWT_SCRUB_CTRL, .NEWT_SCRUB_STATUS, .NEWT_STATUS, .NEWT_INSP_CTRL, .NEWT_INSP_STATUS,
    .NEWT_INSP_DATA_LO, .NEWT_INSP_DATA_HI, .NEWT_INSP_CHECK, .NEWT_STORE_CTRL, .NEWT_STORE_STATUS, .NEWT_STORE_DATA, .NEWT_STORE_CHECK, .NEWT_STORE_ECC,
    .NEWT_STORE_ERR, .NEWT_STORE_CRC, .NEWT_SEQ_STATUS, .NEWT_SEQ_CURSOR, .MILL_RESUME_CTRL, .MILL_RESUME_OP, .MILL_ILLEGAL, .MILL_ILLEGAL_OP,
    .MILL_FPCTRL, .MILL_FFLAGS, .MILL_FTRAP, .MILL_GANG_SHAPE, .MILL_GANG_FORM, .MILL_TILE_OWNER, .MILL_PACE, .MILL_INFLIGHT,
    .MILL_RETIRED, .CRK_RESULT, .CRK_ROUND, .CRK_COUNT, .MILL_GANG_CTRL, .MILL_GANG_STATUS, .MILL_STATUS, .ACU_TASK_PSW,
    .ACU_VECBASE, .ACU_IRQ_ROUTE, .ACU_IPI, .ACU_BELL, .ACU_TASK_PEND, .ACU_MILL, .ACU_RAM_TEST, .ACU_RAM_ECC,
    .ACU_REC_WINDOW, .ACU_CTRL, .ACU_STATUS, .ACU_TASK_CTRL, .ACU_TASK_STATUS, .ACU_TASK_PC, .ACU_TASK_FSR, .STG_BANK_OWNER] : List Reg) ++
  ([.STG_STATUS, .STG_TEST, .STG_ECC, .REC_STATUS, .REC_ECC, .REC_SCRUB, .REC_RING_AREA, .REC_RING_CTRL,
    .REC_RING_COUNT, .WHL_ENG, .WHL_SLOT_CFG, .WHL_SLOT_FMT, .WHL_SLOT_BASE, .WHL_SLOT_PSTRIDE, .WHL_SLOT_ESTRIDE, .WHL_SLOT_MAP,
    .WHL_SLOT_STATUS, .SP_LANE_CFG, .SP_LANE_STATUS, .SP_JLINK_CFG0, .SP_JLINK_CFG1, .SP_JLINK_STATUS, .SP_SYSREF, .CH_SRC,
    .CH_ROUTE, .CH_GAIN, .CH_OFFSET, .CH_STATUS, .CH_STRM_CTRL, .CH_STRM_SHAPE, .CH_STRM_BASE, .CH_STRM_BUFSTRIDE,
    .CH_STRM_DESC, .CH_STRM_LATE, .CH_STRM_BLOCK, .CH_STRM_STATUS, .DRV_CFG, .DRV_RING, .DRV_RINGLEN, .DRV_READY,
    .DRV_RAMP, .DRV_SAFE, .DRV_CTRL, .DRV_STATUS, .DRV_POS, .DRV_GRP_START, .DRV_GRP_PERIOD, .DRV_GLOBAL,
    .LOG_CTRL, .LOG_STATUS, .LOG_SEQ, .LOG_HOST_BASE, .LOG_HOST_SIZE, .LOG_HOST_WPTR, .LOG_HOST_RPTR, .LOG_IRQ,
    .LOG_EVENT, .GKO_STATUS, .GKO_CONTENTION, .GKO_IRQ_PEND, .GKO_IRQ_EN, .GKO_CAPTURE_CTRL, .GKO_CAPTURE_TIME, .GKO_CAPTURE_DEST] : List Reg) ++
  ([.GKO_REGION_CTRL, .GKO_REGION_STATUS, .GKO_REGION_IMAGE, .GKO_REGION_RAM, .GKO_PIN, .WEIR_CTRL, .WEIR_PERIOD, .WEIR_VOTE,
    .WEIR_STATUS, .WEIR_EPOCH, .WEIR_APPLY, .WEIR_COMMIT_NS, .WEIR_PUB_CTRL, .WEIR_PUB_BASE, .WEIR_PUB_SIZE, .WEIR_PUB_STATE,
    .CMD_STATUS, .CMD_FW_VERSION, .CMD_SELECT, .CMD_Q_CTRL, .CMD_Q_SQBASE, .CMD_Q_CQBASE, .CMD_Q_SQ_TAIL, .CMD_Q_CQ_HEAD,
    .CMD_Q_STATUS, .CMD_Q_COUNT, .CMD_IRQ_MAP, .CMD_IRQ_NODES, .SPAN_LINK_CTRL, .SPAN_LINK_STATUS, .SPAN_LINK_ERR, .SPAN_LINK_TIME,
    .SPAN_STATUS, .CHR_CTRL, .CHR_STATUS, .CHR_STAGED, .CHR_FE, .CHR_FE_SERIAL, .NOC_CTRL, .NOC_STATUS,
    .NOC_TIMEOUT, .NOC_ERR, .NOC_ERR_ADDR, .NOC_LATE, .NOC_ISOLATE, .NOC_DOMAIN, .NOC_RTR_CTRL, .NOC_RTR_TADDR,
    .NOC_RTR_TDATA, .NOC_RTR_TACTIVE, .FLT_CTRL, .FLT_STATUS, .FLT_SEQ, .FLT_REACT, .FLT_RING, .FLT_FIRST,
    .FLT_NEXT, .FLT_SRC_CFG, .FLT_SRC_LEAK, .FLT_SRC_ESC, .FLT_SRC_STATUS, .FLT_SRC_TOTAL, .DLM_CTRL, .DLM_OFFSET] : List Reg) ++
  ([.DLM_ABS, .DLM_DEADLINE, .DLM_STATUS, .DLM_LATE_NS, .DLM_MET, .DLM_MISSES, .DLM_OUT_MARGIN, .GOV_STATE,
    .GOV_REQ, .GOV_CLK, .GOV_SAG, .GOV_CAP, .GOV_TEMP, .GOV_DOMAIN, .GOV_MONITOR, .GOV_WAKE,
    .GOV_WAKE_CTRL, .TIM_CTRL, .TIM_STATUS, .TIM_NOW_LO, .TIM_NOW_HI, .TIM_NOW_FRAC, .TIM_SET, .TIM_PPS_OFFSET,
    .TIM_HOLD, .NVS_STATUS, .NVS_ECC, .NVS_BB, .SEC_STATUS, .SEC_UNLOCK, .SEC_CHALLENGE, .SEC_RESPONSE,
    .DBG_ACU_REG, .DBG_ACU_DATA] : List Reg)

/-- The register that holds the sticky CFG_REJECT of a register's block (00 R7), if the block has one. -/
def cfgHome : Reg → Option Reg
  | .GLB_ID => some .GLB_STATUS
  | .GLB_PARAM0 => some .GLB_STATUS
  | .GLB_PARAM1 => some .GLB_STATUS
  | .GLB_PARAM2 => some .GLB_STATUS
  | .GLB_PARAM3 => some .GLB_STATUS
  | .GLB_STATUS => some .GLB_STATUS
  | .GLB_REC_APERTURE => some .GLB_STATUS
  | .NEWT_PLANE_ECC => some .NEWT_STATUS
  | .NEWT_PLANE_ERRADDR => some .NEWT_STATUS
  | .NEWT_TILE_REPAIR => some .NEWT_STATUS
  | .MILL_EDGE => some .MILL_STATUS
  | .NEWT_SCRUB_CTRL => some .NEWT_STATUS
  | .NEWT_SCRUB_STATUS => some .NEWT_STATUS
  | .NEWT_STATUS => some .NEWT_STATUS
  | .NEWT_INSP_CTRL => some .NEWT_STATUS
  | .NEWT_INSP_STATUS => some .NEWT_STATUS
  | .NEWT_INSP_DATA_LO => some .NEWT_STATUS
  | .NEWT_INSP_DATA_HI => some .NEWT_STATUS
  | .NEWT_INSP_CHECK => some .NEWT_STATUS
  | .NEWT_STORE_CTRL => some .NEWT_STATUS
  | .NEWT_STORE_STATUS => some .NEWT_STATUS
  | .NEWT_STORE_DATA => some .NEWT_STATUS
  | .NEWT_STORE_CHECK => some .NEWT_STATUS
  | .NEWT_STORE_ECC => some .NEWT_STATUS
  | .NEWT_STORE_ERR => some .NEWT_STATUS
  | .NEWT_STORE_CRC => some .NEWT_STATUS
  | .NEWT_SEQ_STATUS => some .NEWT_STATUS
  | .NEWT_SEQ_CURSOR => some .NEWT_STATUS
  | .MILL_RESUME_CTRL => some .MILL_STATUS
  | .MILL_RESUME_OP => some .MILL_STATUS
  | .MILL_ILLEGAL => some .MILL_STATUS
  | .MILL_ILLEGAL_OP => some .MILL_STATUS
  | .MILL_FPCTRL => some .MILL_STATUS
  | .MILL_FFLAGS => some .MILL_STATUS
  | .MILL_FTRAP => some .MILL_STATUS
  | .MILL_GANG_SHAPE => some .MILL_STATUS
  | .MILL_GANG_FORM => some .MILL_STATUS
  | .MILL_TILE_OWNER => some .MILL_STATUS
  | .MILL_PACE => some .MILL_STATUS
  | .MILL_INFLIGHT => some .MILL_STATUS
  | .MILL_RETIRED => some .MILL_STATUS
  | .CRK_RESULT => none
  | .CRK_ROUND => none
  | .CRK_COUNT => none
  | .MILL_GANG_CTRL => some .MILL_STATUS
  | .MILL_GANG_STATUS => some .MILL_STATUS
  | .MILL_STATUS => some .MILL_STATUS
  | .ACU_TASK_PSW => some .ACU_STATUS
  | .ACU_VECBASE => some .ACU_STATUS
  | .ACU_IRQ_ROUTE => some .ACU_STATUS
  | .ACU_IPI => some .ACU_STATUS
  | .ACU_BELL => some .ACU_STATUS
  | .ACU_TASK_PEND => some .ACU_STATUS
  | .ACU_MILL => some .ACU_STATUS
  | .ACU_RAM_TEST => some .ACU_STATUS
  | .ACU_RAM_ECC => some .ACU_STATUS
  | .ACU_REC_WINDOW => some .ACU_STATUS
  | .ACU_CTRL => some .ACU_STATUS
  | .ACU_STATUS => some .ACU_STATUS
  | .ACU_TASK_CTRL => some .ACU_STATUS
  | .ACU_TASK_STATUS => some .ACU_STATUS
  | .ACU_TASK_PC => some .ACU_STATUS
  | .ACU_TASK_FSR => some .ACU_STATUS
  | .STG_BANK_OWNER => some .STG_STATUS
  | .STG_STATUS => some .STG_STATUS
  | .STG_TEST => some .STG_STATUS
  | .STG_ECC => some .STG_STATUS
  | .REC_STATUS => some .REC_STATUS
  | .REC_ECC => some .REC_STATUS
  | .REC_SCRUB => some .REC_STATUS
  | .REC_RING_AREA => some .REC_STATUS
  | .REC_RING_CTRL => some .REC_STATUS
  | .REC_RING_COUNT => some .REC_STATUS
  | .WHL_ENG => some .WHL_ENG
  | .WHL_SLOT_CFG => some .WHL_ENG
  | .WHL_SLOT_FMT => some .WHL_ENG
  | .WHL_SLOT_BASE => some .WHL_ENG
  | .WHL_SLOT_PSTRIDE => some .WHL_ENG
  | .WHL_SLOT_ESTRIDE => some .WHL_ENG
  | .WHL_SLOT_MAP => some .WHL_ENG
  | .WHL_SLOT_STATUS => some .WHL_ENG
  | .SP_LANE_CFG => some .SP_LANE_STATUS
  | .SP_LANE_STATUS => some .SP_LANE_STATUS
  | .SP_JLINK_CFG0 => some .SP_LANE_STATUS
  | .SP_JLINK_CFG1 => some .SP_LANE_STATUS
  | .SP_JLINK_STATUS => some .SP_LANE_STATUS
  | .SP_SYSREF => some .SP_LANE_STATUS
  | .CH_SRC => some .CH_STRM_STATUS
  | .CH_ROUTE => none
  | .CH_GAIN => none
  | .CH_OFFSET => none
  | .CH_STATUS => none
  | .CH_STRM_CTRL => some .CH_STRM_STATUS
  | .CH_STRM_SHAPE => some .CH_STRM_STATUS
  | .CH_STRM_BASE => some .CH_STRM_STATUS
  | .CH_STRM_BUFSTRIDE => some .CH_STRM_STATUS
  | .CH_STRM_DESC => some .CH_STRM_STATUS
  | .CH_STRM_LATE => some .CH_STRM_STATUS
  | .CH_STRM_BLOCK => some .CH_STRM_STATUS
  | .CH_STRM_STATUS => some .CH_STRM_STATUS
  | .DRV_CFG => some .DRV_GLOBAL
  | .DRV_RING => some .DRV_GLOBAL
  | .DRV_RINGLEN => some .DRV_GLOBAL
  | .DRV_READY => some .DRV_GLOBAL
  | .DRV_RAMP => some .DRV_GLOBAL
  | .DRV_SAFE => some .DRV_GLOBAL
  | .DRV_CTRL => some .DRV_GLOBAL
  | .DRV_STATUS => some .DRV_GLOBAL
  | .DRV_POS => some .DRV_GLOBAL
  | .DRV_GRP_START => some .DRV_GLOBAL
  | .DRV_GRP_PERIOD => some .DRV_GLOBAL
  | .DRV_GLOBAL => some .DRV_GLOBAL
  | .LOG_CTRL => some .LOG_STATUS
  | .LOG_STATUS => some .LOG_STATUS
  | .LOG_SEQ => some .LOG_STATUS
  | .LOG_HOST_BASE => some .LOG_STATUS
  | .LOG_HOST_SIZE => some .LOG_STATUS
  | .LOG_HOST_WPTR => some .LOG_STATUS
  | .LOG_HOST_RPTR => some .LOG_STATUS
  | .LOG_IRQ => some .LOG_STATUS
  | .LOG_EVENT => some .LOG_STATUS
  | .GKO_STATUS => some .GKO_STATUS
  | .GKO_CONTENTION => some .GKO_STATUS
  | .GKO_IRQ_PEND => some .GKO_STATUS
  | .GKO_IRQ_EN => some .GKO_STATUS
  | .GKO_CAPTURE_CTRL => some .GKO_STATUS
  | .GKO_CAPTURE_TIME => some .GKO_STATUS
  | .GKO_CAPTURE_DEST => some .GKO_STATUS
  | .GKO_REGION_CTRL => some .GKO_STATUS
  | .GKO_REGION_STATUS => some .GKO_STATUS
  | .GKO_REGION_IMAGE => some .GKO_STATUS
  | .GKO_REGION_RAM => some .GKO_STATUS
  | .GKO_PIN => some .GKO_STATUS
  | .WEIR_CTRL => some .WEIR_STATUS
  | .WEIR_PERIOD => some .WEIR_STATUS
  | .WEIR_VOTE => some .WEIR_STATUS
  | .WEIR_STATUS => some .WEIR_STATUS
  | .WEIR_EPOCH => some .WEIR_STATUS
  | .WEIR_APPLY => some .WEIR_STATUS
  | .WEIR_COMMIT_NS => some .WEIR_STATUS
  | .WEIR_PUB_CTRL => some .WEIR_STATUS
  | .WEIR_PUB_BASE => some .WEIR_STATUS
  | .WEIR_PUB_SIZE => some .WEIR_STATUS
  | .WEIR_PUB_STATE => some .WEIR_STATUS
  | .CMD_STATUS => some .CMD_STATUS
  | .CMD_FW_VERSION => some .CMD_STATUS
  | .CMD_SELECT => some .CMD_STATUS
  | .CMD_Q_CTRL => some .CMD_Q_STATUS
  | .CMD_Q_SQBASE => some .CMD_Q_STATUS
  | .CMD_Q_CQBASE => some .CMD_Q_STATUS
  | .CMD_Q_SQ_TAIL => some .CMD_Q_STATUS
  | .CMD_Q_CQ_HEAD => some .CMD_Q_STATUS
  | .CMD_Q_STATUS => some .CMD_Q_STATUS
  | .CMD_Q_COUNT => some .CMD_Q_STATUS
  | .CMD_IRQ_MAP => some .CMD_STATUS
  | .CMD_IRQ_NODES => some .CMD_STATUS
  | .SPAN_LINK_CTRL => some .SPAN_STATUS
  | .SPAN_LINK_STATUS => some .SPAN_STATUS
  | .SPAN_LINK_ERR => some .SPAN_STATUS
  | .SPAN_LINK_TIME => some .SPAN_STATUS
  | .SPAN_STATUS => some .SPAN_STATUS
  | .CHR_CTRL => some .CHR_STATUS
  | .CHR_STATUS => some .CHR_STATUS
  | .CHR_STAGED => some .CHR_STATUS
  | .CHR_FE => some .CHR_STATUS
  | .CHR_FE_SERIAL => some .CHR_STATUS
  | .NOC_CTRL => some .NOC_STATUS
  | .NOC_STATUS => some .NOC_STATUS
  | .NOC_TIMEOUT => some .NOC_STATUS
  | .NOC_ERR => some .NOC_STATUS
  | .NOC_ERR_ADDR => some .NOC_STATUS
  | .NOC_LATE => some .NOC_STATUS
  | .NOC_ISOLATE => some .NOC_STATUS
  | .NOC_DOMAIN => some .NOC_STATUS
  | .NOC_RTR_CTRL => some .NOC_STATUS
  | .NOC_RTR_TADDR => some .NOC_STATUS
  | .NOC_RTR_TDATA => some .NOC_STATUS
  | .NOC_RTR_TACTIVE => some .NOC_STATUS
  | .FLT_CTRL => some .FLT_STATUS
  | .FLT_STATUS => some .FLT_STATUS
  | .FLT_SEQ => some .FLT_STATUS
  | .FLT_REACT => some .FLT_STATUS
  | .FLT_RING => some .FLT_STATUS
  | .FLT_FIRST => some .FLT_STATUS
  | .FLT_NEXT => some .FLT_STATUS
  | .FLT_SRC_CFG => some .FLT_STATUS
  | .FLT_SRC_LEAK => some .FLT_STATUS
  | .FLT_SRC_ESC => some .FLT_STATUS
  | .FLT_SRC_STATUS => some .FLT_STATUS
  | .FLT_SRC_TOTAL => some .FLT_STATUS
  | .DLM_CTRL => some .FLT_STATUS
  | .DLM_OFFSET => some .FLT_STATUS
  | .DLM_ABS => some .FLT_STATUS
  | .DLM_DEADLINE => some .FLT_STATUS
  | .DLM_STATUS => some .FLT_STATUS
  | .DLM_LATE_NS => some .FLT_STATUS
  | .DLM_MET => some .FLT_STATUS
  | .DLM_MISSES => some .FLT_STATUS
  | .DLM_OUT_MARGIN => some .FLT_STATUS
  | .GOV_STATE => some .GOV_STATE
  | .GOV_REQ => some .GOV_STATE
  | .GOV_CLK => some .GOV_STATE
  | .GOV_SAG => some .GOV_STATE
  | .GOV_CAP => some .GOV_STATE
  | .GOV_TEMP => some .GOV_STATE
  | .GOV_DOMAIN => some .GOV_STATE
  | .GOV_MONITOR => some .GOV_STATE
  | .GOV_WAKE => some .GOV_STATE
  | .GOV_WAKE_CTRL => some .GOV_STATE
  | .TIM_CTRL => some .TIM_STATUS
  | .TIM_STATUS => some .TIM_STATUS
  | .TIM_NOW_LO => some .TIM_STATUS
  | .TIM_NOW_HI => some .TIM_STATUS
  | .TIM_NOW_FRAC => some .TIM_STATUS
  | .TIM_SET => some .TIM_STATUS
  | .TIM_PPS_OFFSET => some .TIM_STATUS
  | .TIM_HOLD => some .TIM_STATUS
  | .NVS_STATUS => some .NVS_STATUS
  | .NVS_ECC => some .NVS_STATUS
  | .NVS_BB => some .NVS_STATUS
  | .SEC_STATUS => none
  | .SEC_UNLOCK => none
  | .SEC_CHALLENGE => none
  | .SEC_RESPONSE => none
  | .DBG_ACU_REG => some .ACU_STATUS
  | .DBG_ACU_DATA => some .ACU_STATUS

/-- A named field of a register. -/
structure Fld where
  reg : Reg
  hi : Nat
  lo : Nat
  deriving DecidableEq, Repr

namespace F
def GLB_ID_VENDOR : Fld := ⟨.GLB_ID, 31, 16⟩
def GLB_ID_FAMILY : Fld := ⟨.GLB_ID, 15, 8⟩
def GLB_ID_STEP_MAJOR : Fld := ⟨.GLB_ID, 7, 4⟩
def GLB_ID_STEP_MINOR : Fld := ⟨.GLB_ID, 3, 0⟩
def GLB_PARAM0_ACUS : Fld := ⟨.GLB_PARAM0, 31, 24⟩
def GLB_PARAM0_TILE_DIM : Fld := ⟨.GLB_PARAM0, 23, 16⟩
def GLB_PARAM0_TILE_ROWS : Fld := ⟨.GLB_PARAM0, 15, 8⟩
def GLB_PARAM0_TILE_COLS : Fld := ⟨.GLB_PARAM0, 7, 0⟩
def GLB_PARAM1_DIV_STALL : Fld := ⟨.GLB_PARAM1, 28, 28⟩
def GLB_PARAM1_INFLIGHT_LOG2 : Fld := ⟨.GLB_PARAM1, 27, 24⟩
def GLB_PARAM1_TASKS : Fld := ⟨.GLB_PARAM1, 23, 16⟩
def GLB_PARAM1_USER_PLANES : Fld := ⟨.GLB_PARAM1, 15, 4⟩
def GLB_PARAM1_PLANE_LOG2 : Fld := ⟨.GLB_PARAM1, 3, 0⟩
def GLB_PARAM2_HBM_STACKS : Fld := ⟨.GLB_PARAM2, 27, 24⟩
def GLB_PARAM2_REC_GIB : Fld := ⟨.GLB_PARAM2, 23, 16⟩
def GLB_PARAM2_STG_BANK_MIB : Fld := ⟨.GLB_PARAM2, 15, 8⟩
def GLB_PARAM2_STG_BANKS : Fld := ⟨.GLB_PARAM2, 7, 4⟩
def GLB_PARAM2_WHEELS : Fld := ⟨.GLB_PARAM2, 3, 0⟩
def GLB_PARAM3_MAX_NODES : Fld := ⟨.GLB_PARAM3, 27, 20⟩
def GLB_PARAM3_SPAN_LINKS : Fld := ⟨.GLB_PARAM3, 19, 16⟩
def GLB_PARAM3_CH_LOG2 : Fld := ⟨.GLB_PARAM3, 15, 12⟩
def GLB_PARAM3_DRV_LOG2 : Fld := ⟨.GLB_PARAM3, 11, 8⟩
def GLB_PARAM3_SENSOR_LANES : Fld := ⟨.GLB_PARAM3, 7, 0⟩
def GLB_STATUS_NODE_ID : Fld := ⟨.GLB_STATUS, 13, 8⟩
def GLB_STATUS_CFG_REJECT : Fld := ⟨.GLB_STATUS, 0, 0⟩
def GLB_REC_APERTURE_WINDOW : Fld := ⟨.GLB_REC_APERTURE, 9, 0⟩
def NEWT_PLANE_ECC_CLEAR : Fld := ⟨.NEWT_PLANE_ECC, 31, 31⟩
def NEWT_PLANE_ECC_UE_COUNT : Fld := ⟨.NEWT_PLANE_ECC, 23, 16⟩
def NEWT_PLANE_ECC_CE_COUNT : Fld := ⟨.NEWT_PLANE_ECC, 15, 0⟩
def NEWT_PLANE_ERRADDR_VALID : Fld := ⟨.NEWT_PLANE_ERRADDR, 31, 31⟩
def NEWT_PLANE_ERRADDR_UE : Fld := ⟨.NEWT_PLANE_ERRADDR, 30, 30⟩
def NEWT_PLANE_ERRADDR_COL : Fld := ⟨.NEWT_PLANE_ERRADDR, 29, 23⟩
def NEWT_PLANE_ERRADDR_ROW : Fld := ⟨.NEWT_PLANE_ERRADDR, 21, 16⟩
def NEWT_PLANE_ERRADDR_ADDR : Fld := ⟨.NEWT_PLANE_ERRADDR, 10, 0⟩
def NEWT_TILE_REPAIR_COL1 : Fld := ⟨.NEWT_TILE_REPAIR, 22, 16⟩
def NEWT_TILE_REPAIR_COL0 : Fld := ⟨.NEWT_TILE_REPAIR, 14, 8⟩
def NEWT_TILE_REPAIR_SPARE1_USED : Fld := ⟨.NEWT_TILE_REPAIR, 1, 1⟩
def NEWT_TILE_REPAIR_SPARE0_USED : Fld := ⟨.NEWT_TILE_REPAIR, 0, 0⟩
def MILL_EDGE_WAIT_LIMIT : Fld := ⟨.MILL_EDGE, 31, 16⟩
def MILL_EDGE_WEST : Fld := ⟨.MILL_EDGE, 7, 6⟩
def MILL_EDGE_SOUTH : Fld := ⟨.MILL_EDGE, 5, 4⟩
def MILL_EDGE_EAST : Fld := ⟨.MILL_EDGE, 3, 2⟩
def MILL_EDGE_NORTH : Fld := ⟨.MILL_EDGE, 1, 0⟩
def NEWT_SCRUB_CTRL_FORCE_LOG2 : Fld := ⟨.NEWT_SCRUB_CTRL, 12, 8⟩
def NEWT_SCRUB_CTRL_STATE : Fld := ⟨.NEWT_SCRUB_CTRL, 2, 1⟩
def NEWT_SCRUB_CTRL_EN : Fld := ⟨.NEWT_SCRUB_CTRL, 0, 0⟩
def NEWT_SCRUB_STATUS_PASSES : Fld := ⟨.NEWT_SCRUB_STATUS, 31, 16⟩
def NEWT_SCRUB_STATUS_CURSOR : Fld := ⟨.NEWT_SCRUB_STATUS, 10, 0⟩
def NEWT_STATUS_CFG_REJECT : Fld := ⟨.NEWT_STATUS, 0, 0⟩
def NEWT_INSP_CTRL_CMD : Fld := ⟨.NEWT_INSP_CTRL, 31, 30⟩
def NEWT_INSP_CTRL_KIND : Fld := ⟨.NEWT_INSP_CTRL, 29, 28⟩
def NEWT_INSP_CTRL_ADDR : Fld := ⟨.NEWT_INSP_CTRL, 26, 16⟩
def NEWT_INSP_CTRL_ROW : Fld := ⟨.NEWT_INSP_CTRL, 5, 0⟩
def NEWT_INSP_STATUS_CFG_REJECT : Fld := ⟨.NEWT_INSP_STATUS, 8, 8⟩
def NEWT_INSP_STATUS_CE : Fld := ⟨.NEWT_INSP_STATUS, 4, 4⟩
def NEWT_INSP_STATUS_UE : Fld := ⟨.NEWT_INSP_STATUS, 3, 3⟩
def NEWT_INSP_STATUS_REFUSED : Fld := ⟨.NEWT_INSP_STATUS, 2, 2⟩
def NEWT_INSP_STATUS_DONE : Fld := ⟨.NEWT_INSP_STATUS, 1, 1⟩
def NEWT_INSP_STATUS_BUSY : Fld := ⟨.NEWT_INSP_STATUS, 0, 0⟩
def NEWT_INSP_DATA_LO_DATA : Fld := ⟨.NEWT_INSP_DATA_LO, 31, 0⟩
def NEWT_INSP_DATA_HI_DATA : Fld := ⟨.NEWT_INSP_DATA_HI, 31, 0⟩
def NEWT_INSP_CHECK_CHECK : Fld := ⟨.NEWT_INSP_CHECK, 7, 0⟩
def NEWT_STORE_CTRL_CMD : Fld := ⟨.NEWT_STORE_CTRL, 31, 30⟩
def NEWT_STORE_CTRL_STORE : Fld := ⟨.NEWT_STORE_CTRL, 29, 28⟩
def NEWT_STORE_CTRL_BCAST : Fld := ⟨.NEWT_STORE_CTRL, 27, 27⟩
def NEWT_STORE_CTRL_RAW : Fld := ⟨.NEWT_STORE_CTRL, 26, 26⟩
def NEWT_STORE_CTRL_ADDR : Fld := ⟨.NEWT_STORE_CTRL, 12, 0⟩
def NEWT_STORE_STATUS_UE : Fld := ⟨.NEWT_STORE_STATUS, 4, 4⟩
def NEWT_STORE_STATUS_CE : Fld := ⟨.NEWT_STORE_STATUS, 3, 3⟩
def NEWT_STORE_STATUS_REFUSED : Fld := ⟨.NEWT_STORE_STATUS, 2, 2⟩
def NEWT_STORE_STATUS_DONE : Fld := ⟨.NEWT_STORE_STATUS, 1, 1⟩
def NEWT_STORE_STATUS_BUSY : Fld := ⟨.NEWT_STORE_STATUS, 0, 0⟩
def NEWT_STORE_DATA_DATA : Fld := ⟨.NEWT_STORE_DATA, 31, 0⟩
def NEWT_STORE_CHECK_CHECK : Fld := ⟨.NEWT_STORE_CHECK, 8, 0⟩
def NEWT_STORE_ECC_CLEAR : Fld := ⟨.NEWT_STORE_ECC, 31, 31⟩
def NEWT_STORE_ECC_STORE_BAD : Fld := ⟨.NEWT_STORE_ECC, 30, 30⟩
def NEWT_STORE_ECC_UE_COUNT : Fld := ⟨.NEWT_STORE_ECC, 23, 16⟩
def NEWT_STORE_ECC_CE_COUNT : Fld := ⟨.NEWT_STORE_ECC, 15, 0⟩
def NEWT_STORE_ERR_VALID : Fld := ⟨.NEWT_STORE_ERR, 31, 31⟩
def NEWT_STORE_ERR_UE : Fld := ⟨.NEWT_STORE_ERR, 30, 30⟩
def NEWT_STORE_ERR_STORE : Fld := ⟨.NEWT_STORE_ERR, 29, 28⟩
def NEWT_STORE_ERR_ADDR : Fld := ⟨.NEWT_STORE_ERR, 12, 0⟩
def NEWT_STORE_CRC_CRC : Fld := ⟨.NEWT_STORE_CRC, 31, 0⟩
def NEWT_SEQ_STATUS_STATE : Fld := ⟨.NEWT_SEQ_STATUS, 31, 29⟩
def NEWT_SEQ_STATUS_CLASS : Fld := ⟨.NEWT_SEQ_STATUS, 28, 27⟩
def NEWT_SEQ_STATUS_FIN : Fld := ⟨.NEWT_SEQ_STATUS, 26, 26⟩
def NEWT_SEQ_STATUS_DEPTH : Fld := ⟨.NEWT_SEQ_STATUS, 25, 22⟩
def NEWT_SEQ_STATUS_ROUTINE : Fld := ⟨.NEWT_SEQ_STATUS, 21, 13⟩
def NEWT_SEQ_STATUS_UPC : Fld := ⟨.NEWT_SEQ_STATUS, 12, 0⟩
def NEWT_SEQ_CURSOR_CUR : Fld := ⟨.NEWT_SEQ_CURSOR, 15, 0⟩
def MILL_RESUME_CTRL_VALID : Fld := ⟨.MILL_RESUME_CTRL, 31, 31⟩
def MILL_RESUME_CTRL_DISCARD : Fld := ⟨.MILL_RESUME_CTRL, 30, 30⟩
def MILL_RESUME_CTRL_KIND : Fld := ⟨.MILL_RESUME_CTRL, 29, 28⟩
def MILL_RESUME_CTRL_CUR : Fld := ⟨.MILL_RESUME_CTRL, 15, 0⟩
def MILL_RESUME_OP_OP : Fld := ⟨.MILL_RESUME_OP, 31, 0⟩
def MILL_ILLEGAL_VALID : Fld := ⟨.MILL_ILLEGAL, 31, 31⟩
def MILL_ILLEGAL_REASON : Fld := ⟨.MILL_ILLEGAL, 3, 0⟩
def MILL_ILLEGAL_OP_OP : Fld := ⟨.MILL_ILLEGAL_OP, 31, 0⟩
def MILL_FPCTRL_TSTOP : Fld := ⟨.MILL_FPCTRL, 21, 21⟩
def MILL_FPCTRL_TE : Fld := ⟨.MILL_FPCTRL, 20, 16⟩
def MILL_FPCTRL_CMASK : Fld := ⟨.MILL_FPCTRL, 12, 8⟩
def MILL_FPCTRL_FTZ : Fld := ⟨.MILL_FPCTRL, 3, 3⟩
def MILL_FPCTRL_RMODE : Fld := ⟨.MILL_FPCTRL, 2, 0⟩
def MILL_FFLAGS_V : Fld := ⟨.MILL_FFLAGS, 5, 5⟩
def MILL_FFLAGS_IV : Fld := ⟨.MILL_FFLAGS, 4, 4⟩
def MILL_FFLAGS_DZ : Fld := ⟨.MILL_FFLAGS, 3, 3⟩
def MILL_FFLAGS_OF : Fld := ⟨.MILL_FFLAGS, 2, 2⟩
def MILL_FFLAGS_UF : Fld := ⟨.MILL_FFLAGS, 1, 1⟩
def MILL_FFLAGS_IX : Fld := ⟨.MILL_FFLAGS, 0, 0⟩
def MILL_FTRAP_PENDING : Fld := ⟨.MILL_FTRAP, 31, 31⟩
def MILL_FTRAP_MORE : Fld := ⟨.MILL_FTRAP, 30, 30⟩
def MILL_FTRAP_FLAGS : Fld := ⟨.MILL_FTRAP, 12, 8⟩
def MILL_FTRAP_OPC : Fld := ⟨.MILL_FTRAP, 7, 0⟩
def MILL_GANG_SHAPE_TY1 : Fld := ⟨.MILL_GANG_SHAPE, 31, 24⟩
def MILL_GANG_SHAPE_TX1 : Fld := ⟨.MILL_GANG_SHAPE, 23, 16⟩
def MILL_GANG_SHAPE_TY0 : Fld := ⟨.MILL_GANG_SHAPE, 15, 8⟩
def MILL_GANG_SHAPE_TX0 : Fld := ⟨.MILL_GANG_SHAPE, 7, 0⟩
def MILL_GANG_FORM_FORMED : Fld := ⟨.MILL_GANG_FORM, 0, 0⟩
def MILL_TILE_OWNER_VALID : Fld := ⟨.MILL_TILE_OWNER, 31, 31⟩
def MILL_TILE_OWNER_NODE : Fld := ⟨.MILL_TILE_OWNER, 13, 8⟩
def MILL_TILE_OWNER_GANG : Fld := ⟨.MILL_TILE_OWNER, 3, 0⟩
def MILL_PACE_LEAD : Fld := ⟨.MILL_PACE, 23, 16⟩
def MILL_PACE_INTERVAL : Fld := ⟨.MILL_PACE, 15, 8⟩
def MILL_PACE_WAVE_LOG2 : Fld := ⟨.MILL_PACE, 3, 0⟩
def MILL_INFLIGHT_SPREAD : Fld := ⟨.MILL_INFLIGHT, 23, 16⟩
def MILL_INFLIGHT_COUNT : Fld := ⟨.MILL_INFLIGHT, 8, 0⟩
def MILL_RETIRED_COUNT : Fld := ⟨.MILL_RETIRED, 31, 0⟩
def CRK_RESULT_VALUE : Fld := ⟨.CRK_RESULT, 31, 0⟩
def CRK_ROUND_CLEAR : Fld := ⟨.CRK_ROUND, 31, 31⟩
def CRK_ROUND_MAX_NS : Fld := ⟨.CRK_ROUND, 15, 0⟩
def CRK_COUNT_ROUNDS : Fld := ⟨.CRK_COUNT, 31, 0⟩
def MILL_GANG_CTRL_RESUME : Fld := ⟨.MILL_GANG_CTRL, 2, 2⟩
def MILL_GANG_CTRL_STOP : Fld := ⟨.MILL_GANG_CTRL, 1, 1⟩
def MILL_GANG_CTRL_EN : Fld := ⟨.MILL_GANG_CTRL, 0, 0⟩
def MILL_GANG_STATUS_CAUSE : Fld := ⟨.MILL_GANG_STATUS, 6, 4⟩
def MILL_GANG_STATUS_STATE : Fld := ⟨.MILL_GANG_STATUS, 2, 0⟩
def MILL_STATUS_GANGS_ON : Fld := ⟨.MILL_STATUS, 31, 16⟩
def MILL_STATUS_CFG_REJECT : Fld := ⟨.MILL_STATUS, 0, 0⟩
def ACU_TASK_PSW_DZ : Fld := ⟨.ACU_TASK_PSW, 28, 28⟩
def ACU_TASK_PSW_N : Fld := ⟨.ACU_TASK_PSW, 27, 27⟩
def ACU_TASK_PSW_Z : Fld := ⟨.ACU_TASK_PSW, 26, 26⟩
def ACU_TASK_PSW_V : Fld := ⟨.ACU_TASK_PSW, 25, 25⟩
def ACU_TASK_PSW_C : Fld := ⟨.ACU_TASK_PSW, 24, 24⟩
def ACU_TASK_PSW_DIRTY_K : Fld := ⟨.ACU_TASK_PSW, 12, 9⟩
def ACU_TASK_PSW_DIRTY_G : Fld := ⟨.ACU_TASK_PSW, 8, 8⟩
def ACU_TASK_PSW_IE : Fld := ⟨.ACU_TASK_PSW, 4, 4⟩
def ACU_TASK_PSW_TW : Fld := ⟨.ACU_TASK_PSW, 3, 3⟩
def ACU_TASK_PSW_RES2 : Fld := ⟨.ACU_TASK_PSW, 2, 2⟩
def ACU_TASK_PSW_CURW : Fld := ⟨.ACU_TASK_PSW, 1, 0⟩
def ACU_VECBASE_BASE : Fld := ⟨.ACU_VECBASE, 31, 10⟩
def ACU_IRQ_ROUTE_PRIO : Fld := ⟨.ACU_IRQ_ROUTE, 10, 8⟩
def ACU_IRQ_ROUTE_EN : Fld := ⟨.ACU_IRQ_ROUTE, 7, 7⟩
def ACU_IRQ_ROUTE_TASK : Fld := ⟨.ACU_IRQ_ROUTE, 5, 0⟩
def ACU_IPI_SET : Fld := ⟨.ACU_IPI, 15, 0⟩
def ACU_BELL_MSG : Fld := ⟨.ACU_BELL, 31, 0⟩
def ACU_TASK_PEND_PEND : Fld := ⟨.ACU_TASK_PEND, 31, 0⟩
def ACU_MILL_DENY_REASON : Fld := ⟨.ACU_MILL, 17, 16⟩
def ACU_MILL_YIELD_IRQ : Fld := ⟨.ACU_MILL, 8, 8⟩
def ACU_MILL_TASK : Fld := ⟨.ACU_MILL, 5, 0⟩
def ACU_RAM_TEST_CURSOR : Fld := ⟨.ACU_RAM_TEST, 26, 16⟩
def ACU_RAM_TEST_INTERVAL : Fld := ⟨.ACU_RAM_TEST, 15, 8⟩
def ACU_RAM_TEST_STATE : Fld := ⟨.ACU_RAM_TEST, 2, 1⟩
def ACU_RAM_TEST_EN : Fld := ⟨.ACU_RAM_TEST, 0, 0⟩
def ACU_RAM_ECC_CLEAR : Fld := ⟨.ACU_RAM_ECC, 31, 31⟩
def ACU_RAM_ECC_UE_COUNT : Fld := ⟨.ACU_RAM_ECC, 23, 16⟩
def ACU_RAM_ECC_CE_COUNT : Fld := ⟨.ACU_RAM_ECC, 15, 0⟩
def ACU_REC_WINDOW_WINDOW : Fld := ⟨.ACU_REC_WINDOW, 6, 0⟩
def ACU_CTRL_MDEXP : Fld := ⟨.ACU_CTRL, 1, 1⟩
def ACU_CTRL_LDEXP : Fld := ⟨.ACU_CTRL, 0, 0⟩
def ACU_STATUS_DIV_BUSY : Fld := ⟨.ACU_STATUS, 31, 31⟩
def ACU_STATUS_DIV_TASK : Fld := ⟨.ACU_STATUS, 29, 24⟩
def ACU_STATUS_TASKS_ON : Fld := ⟨.ACU_STATUS, 14, 8⟩
def ACU_STATUS_CFG_REJECT : Fld := ⟨.ACU_STATUS, 0, 0⟩
def ACU_TASK_CTRL_PRIO : Fld := ⟨.ACU_TASK_CTRL, 5, 4⟩
def ACU_TASK_CTRL_STATE : Fld := ⟨.ACU_TASK_CTRL, 2, 1⟩
def ACU_TASK_CTRL_EN : Fld := ⟨.ACU_TASK_CTRL, 0, 0⟩
def ACU_TASK_STATUS_HALT_CAUSE : Fld := ⟨.ACU_TASK_STATUS, 23, 16⟩
def ACU_TASK_STATUS_WAIT : Fld := ⟨.ACU_TASK_STATUS, 11, 8⟩
def ACU_TASK_STATUS_RUN : Fld := ⟨.ACU_TASK_STATUS, 2, 0⟩
def ACU_TASK_PC_PC : Fld := ⟨.ACU_TASK_PC, 31, 2⟩
def ACU_TASK_FSR_FTZ : Fld := ⟨.ACU_TASK_FSR, 19, 19⟩
def ACU_TASK_FSR_RMODE : Fld := ⟨.ACU_TASK_FSR, 18, 16⟩
def ACU_TASK_FSR_TE : Fld := ⟨.ACU_TASK_FSR, 12, 8⟩
def ACU_TASK_FSR_IV : Fld := ⟨.ACU_TASK_FSR, 4, 4⟩
def ACU_TASK_FSR_DZ : Fld := ⟨.ACU_TASK_FSR, 3, 3⟩
def ACU_TASK_FSR_OF : Fld := ⟨.ACU_TASK_FSR, 2, 2⟩
def ACU_TASK_FSR_UF : Fld := ⟨.ACU_TASK_FSR, 1, 1⟩
def ACU_TASK_FSR_IX : Fld := ⟨.ACU_TASK_FSR, 0, 0⟩
def STG_BANK_OWNER_PENDING : Fld := ⟨.STG_BANK_OWNER, 31, 31⟩
def STG_BANK_OWNER_REFUSED : Fld := ⟨.STG_BANK_OWNER, 30, 30⟩
def STG_BANK_OWNER_CURRENT : Fld := ⟨.STG_BANK_OWNER, 12, 8⟩
def STG_BANK_OWNER_OWNER : Fld := ⟨.STG_BANK_OWNER, 4, 0⟩
def STG_STATUS_REPAIRED : Fld := ⟨.STG_STATUS, 23, 16⟩
def STG_STATUS_CFG_REJECT : Fld := ⟨.STG_STATUS, 0, 0⟩
def STG_TEST_CURSOR : Fld := ⟨.STG_TEST, 30, 16⟩
def STG_TEST_INTERVAL : Fld := ⟨.STG_TEST, 15, 8⟩
def STG_TEST_STATE : Fld := ⟨.STG_TEST, 2, 1⟩
def STG_TEST_EN : Fld := ⟨.STG_TEST, 0, 0⟩
def STG_ECC_CLEAR : Fld := ⟨.STG_ECC, 31, 31⟩
def STG_ECC_UE_COUNT : Fld := ⟨.STG_ECC, 23, 16⟩
def STG_ECC_CE_COUNT : Fld := ⟨.STG_ECC, 15, 0⟩
def REC_STATUS_CLEARING : Fld := ⟨.REC_STATUS, 31, 31⟩
def REC_STATUS_CFG_REJECT : Fld := ⟨.REC_STATUS, 0, 0⟩
def REC_ECC_CLEAR : Fld := ⟨.REC_ECC, 31, 31⟩
def REC_ECC_UE_COUNT : Fld := ⟨.REC_ECC, 23, 16⟩
def REC_ECC_CE_COUNT : Fld := ⟨.REC_ECC, 15, 0⟩
def REC_SCRUB_PASSES : Fld := ⟨.REC_SCRUB, 31, 16⟩
def REC_SCRUB_STATE : Fld := ⟨.REC_SCRUB, 2, 1⟩
def REC_SCRUB_EN : Fld := ⟨.REC_SCRUB, 0, 0⟩
def REC_RING_AREA_SIZE : Fld := ⟨.REC_RING_AREA, 31, 16⟩
def REC_RING_AREA_BASE : Fld := ⟨.REC_RING_AREA, 15, 0⟩
def REC_RING_CTRL_FROZEN : Fld := ⟨.REC_RING_CTRL, 31, 31⟩
def REC_RING_CTRL_TRIGGER : Fld := ⟨.REC_RING_CTRL, 30, 30⟩
def REC_RING_CTRL_TRIGGERED : Fld := ⟨.REC_RING_CTRL, 29, 29⟩
def REC_RING_CTRL_POST : Fld := ⟨.REC_RING_CTRL, 23, 8⟩
def REC_RING_CTRL_TRIGSRC : Fld := ⟨.REC_RING_CTRL, 7, 5⟩
def REC_RING_CTRL_WRITER : Fld := ⟨.REC_RING_CTRL, 4, 3⟩
def REC_RING_CTRL_STATE : Fld := ⟨.REC_RING_CTRL, 2, 1⟩
def REC_RING_CTRL_EN : Fld := ⟨.REC_RING_CTRL, 0, 0⟩
def REC_RING_COUNT_COUNT : Fld := ⟨.REC_RING_COUNT, 31, 0⟩
def WHL_ENG_CFG_REJECT : Fld := ⟨.WHL_ENG, 31, 31⟩
def WHL_ENG_WRITE_REFUSED : Fld := ⟨.WHL_ENG, 30, 30⟩
def WHL_ENG_LATCHED : Fld := ⟨.WHL_ENG, 22, 16⟩
def WHL_ENG_STATE : Fld := ⟨.WHL_ENG, 2, 1⟩
def WHL_ENG_EN : Fld := ⟨.WHL_ENG, 0, 0⟩
def WHL_SLOT_CFG_VALID : Fld := ⟨.WHL_SLOT_CFG, 31, 31⟩
def WHL_SLOT_CFG_DIR : Fld := ⟨.WHL_SLOT_CFG, 30, 30⟩
def WHL_SLOT_CFG_KIND : Fld := ⟨.WHL_SLOT_CFG, 29, 28⟩
def WHL_SLOT_CFG_CONV : Fld := ⟨.WHL_SLOT_CFG, 27, 26⟩
def WHL_SLOT_CFG_CB : Fld := ⟨.WHL_SLOT_CFG, 25, 24⟩
def WHL_SLOT_CFG_MAPEN : Fld := ⟨.WHL_SLOT_CFG, 23, 23⟩
def WHL_SLOT_CFG_RMODE : Fld := ⟨.WHL_SLOT_CFG, 22, 20⟩
def WHL_SLOT_CFG_MW : Fld := ⟨.WHL_SLOT_CFG, 13, 8⟩
def WHL_SLOT_FMT_PLNFMT : Fld := ⟨.WHL_SLOT_FMT, 31, 16⟩
def WHL_SLOT_FMT_MEMFMT : Fld := ⟨.WHL_SLOT_FMT, 15, 0⟩
def WHL_SLOT_BASE_BASE : Fld := ⟨.WHL_SLOT_BASE, 31, 0⟩
def WHL_SLOT_PSTRIDE_PSTRIDE : Fld := ⟨.WHL_SLOT_PSTRIDE, 31, 0⟩
def WHL_SLOT_ESTRIDE_ESTRIDE : Fld := ⟨.WHL_SLOT_ESTRIDE, 31, 0⟩
def WHL_SLOT_MAP_MAP : Fld := ⟨.WHL_SLOT_MAP, 30, 0⟩
def WHL_SLOT_STATUS_ERROR : Fld := ⟨.WHL_SLOT_STATUS, 31, 31⟩
def WHL_SLOT_STATUS_ERRCODE : Fld := ⟨.WHL_SLOT_STATUS, 30, 28⟩
def WHL_SLOT_STATUS_LATCHED : Fld := ⟨.WHL_SLOT_STATUS, 8, 8⟩
def WHL_SLOT_STATUS_FLAGS : Fld := ⟨.WHL_SLOT_STATUS, 5, 0⟩
def SP_LANE_CFG_RATE_MBPS : Fld := ⟨.SP_LANE_CFG, 31, 16⟩
def SP_LANE_CFG_TX_INV : Fld := ⟨.SP_LANE_CFG, 9, 9⟩
def SP_LANE_CFG_RX_INV : Fld := ⟨.SP_LANE_CFG, 8, 8⟩
def SP_LANE_CFG_TXMODE : Fld := ⟨.SP_LANE_CFG, 7, 4⟩
def SP_LANE_CFG_RXMODE : Fld := ⟨.SP_LANE_CFG, 3, 0⟩
def SP_LANE_STATUS_CRC_COUNT : Fld := ⟨.SP_LANE_STATUS, 31, 16⟩
def SP_LANE_STATUS_CLEAR : Fld := ⟨.SP_LANE_STATUS, 15, 15⟩
def SP_LANE_STATUS_CFG_REJECT : Fld := ⟨.SP_LANE_STATUS, 3, 3⟩
def SP_LANE_STATUS_STATE : Fld := ⟨.SP_LANE_STATUS, 2, 0⟩
def SP_JLINK_CFG0_EN : Fld := ⟨.SP_JLINK_CFG0, 31, 31⟩
def SP_JLINK_CFG0_STATE : Fld := ⟨.SP_JLINK_CFG0, 30, 29⟩
def SP_JLINK_CFG0_FIRST_LANE : Fld := ⟨.SP_JLINK_CFG0, 28, 24⟩
def SP_JLINK_CFG0_L : Fld := ⟨.SP_JLINK_CFG0, 23, 20⟩
def SP_JLINK_CFG0_MM1 : Fld := ⟨.SP_JLINK_CFG0, 19, 12⟩
def SP_JLINK_CFG0_SM1 : Fld := ⟨.SP_JLINK_CFG0, 11, 9⟩
def SP_JLINK_CFG0_NM1 : Fld := ⟨.SP_JLINK_CFG0, 8, 4⟩
def SP_JLINK_CFG0_NP32 : Fld := ⟨.SP_JLINK_CFG0, 3, 3⟩
def SP_JLINK_CFG0_CS : Fld := ⟨.SP_JLINK_CFG0, 2, 1⟩
def SP_JLINK_CFG1_EM1 : Fld := ⟨.SP_JLINK_CFG1, 31, 28⟩
def SP_JLINK_CFG1_DELAY_NS : Fld := ⟨.SP_JLINK_CFG1, 15, 0⟩
def SP_JLINK_STATUS_CRC12_COUNT : Fld := ⟨.SP_JLINK_STATUS, 31, 16⟩
def SP_JLINK_STATUS_UP : Fld := ⟨.SP_JLINK_STATUS, 0, 0⟩
def SP_SYSREF_PERIOD_NS : Fld := ⟨.SP_SYSREF, 31, 0⟩
def CH_SRC_KIND : Fld := ⟨.CH_SRC, 31, 29⟩
def CH_SRC_SOURCE : Fld := ⟨.CH_SRC, 28, 24⟩
def CH_SRC_INDEX : Fld := ⟨.CH_SRC, 23, 12⟩
def CH_ROUTE_VALID : Fld := ⟨.CH_ROUTE, 31, 31⟩
def CH_ROUTE_STREAM : Fld := ⟨.CH_ROUTE, 19, 14⟩
def CH_ROUTE_SLOT : Fld := ⟨.CH_ROUTE, 13, 0⟩
def CH_GAIN_GAIN : Fld := ⟨.CH_GAIN, 31, 0⟩
def CH_OFFSET_OFFSET : Fld := ⟨.CH_OFFSET, 23, 0⟩
def CH_STATUS_LATE : Fld := ⟨.CH_STATUS, 31, 31⟩
def CH_STATUS_LOST : Fld := ⟨.CH_STATUS, 30, 30⟩
def CH_STATUS_SAT : Fld := ⟨.CH_STATUS, 29, 29⟩
def CH_STRM_CTRL_EN : Fld := ⟨.CH_STRM_CTRL, 31, 31⟩
def CH_STRM_CTRL_STATE : Fld := ⟨.CH_STRM_CTRL, 30, 29⟩
def CH_STRM_CTRL_DEST : Fld := ⟨.CH_STRM_CTRL, 28, 28⟩
def CH_STRM_CTRL_NBUF : Fld := ⟨.CH_STRM_CTRL, 27, 24⟩
def CH_STRM_CTRL_HISTEN : Fld := ⟨.CH_STRM_CTRL, 23, 23⟩
def CH_STRM_CTRL_HIST : Fld := ⟨.CH_STRM_CTRL, 22, 18⟩
def CH_STRM_CTRL_DLMEN : Fld := ⟨.CH_STRM_CTRL, 17, 17⟩
def CH_STRM_CTRL_DLM : Fld := ⟨.CH_STRM_CTRL, 16, 11⟩
def CH_STRM_CTRL_LOGEN : Fld := ⟨.CH_STRM_CTRL, 10, 10⟩
def CH_STRM_CTRL_ORDER : Fld := ⟨.CH_STRM_CTRL, 9, 8⟩
def CH_STRM_SHAPE_NCHM1 : Fld := ⟨.CH_STRM_SHAPE, 29, 16⟩
def CH_STRM_SHAPE_HOPM1 : Fld := ⟨.CH_STRM_SHAPE, 15, 0⟩
def CH_STRM_BASE_BASE : Fld := ⟨.CH_STRM_BASE, 31, 0⟩
def CH_STRM_BUFSTRIDE_BUFSTRIDE : Fld := ⟨.CH_STRM_BUFSTRIDE, 31, 0⟩
def CH_STRM_DESC_DESC : Fld := ⟨.CH_STRM_DESC, 31, 0⟩
def CH_STRM_LATE_LATE_LIMIT : Fld := ⟨.CH_STRM_LATE, 15, 0⟩
def CH_STRM_BLOCK_BLOCK : Fld := ⟨.CH_STRM_BLOCK, 31, 0⟩
def CH_STRM_STATUS_HIST_DROP : Fld := ⟨.CH_STRM_STATUS, 31, 31⟩
def CH_STRM_STATUS_LOG_DROP : Fld := ⟨.CH_STRM_STATUS, 30, 30⟩
def CH_STRM_STATUS_CFG_REJECT : Fld := ⟨.CH_STRM_STATUS, 29, 29⟩
def DRV_CFG_EN : Fld := ⟨.DRV_CFG, 31, 31⟩
def DRV_CFG_STATE : Fld := ⟨.DRV_CFG, 30, 29⟩
def DRV_CFG_SINKKIND : Fld := ⟨.DRV_CFG, 28, 26⟩
def DRV_CFG_SINK : Fld := ⟨.DRV_CFG, 25, 21⟩
def DRV_CFG_INDEX : Fld := ⟨.DRV_CFG, 20, 9⟩
def DRV_CFG_GROUP : Fld := ⟨.DRV_CFG, 8, 5⟩
def DRV_RING_RING : Fld := ⟨.DRV_RING, 31, 0⟩
def DRV_RINGLEN_RINGLEN : Fld := ⟨.DRV_RINGLEN, 31, 0⟩
def DRV_READY_READY : Fld := ⟨.DRV_READY, 31, 0⟩
def DRV_RAMP_RAMP_MS : Fld := ⟨.DRV_RAMP, 25, 16⟩
def DRV_RAMP_BLOCK : Fld := ⟨.DRV_RAMP, 15, 0⟩
def DRV_SAFE_SAFE : Fld := ⟨.DRV_SAFE, 23, 0⟩
def DRV_CTRL_UNMUTE : Fld := ⟨.DRV_CTRL, 1, 1⟩
def DRV_CTRL_MUTE : Fld := ⟨.DRV_CTRL, 0, 0⟩
def DRV_STATUS_CAUSE : Fld := ⟨.DRV_STATUS, 31, 24⟩
def DRV_STATUS_LOOPING : Fld := ⟨.DRV_STATUS, 23, 23⟩
def DRV_STATUS_UNMUTE_REFUSED : Fld := ⟨.DRV_STATUS, 22, 22⟩
def DRV_STATUS_PLAY : Fld := ⟨.DRV_STATUS, 1, 0⟩
def DRV_POS_POS : Fld := ⟨.DRV_POS, 31, 0⟩
def DRV_GRP_START_START : Fld := ⟨.DRV_GRP_START, 31, 0⟩
def DRV_GRP_PERIOD_PERIOD : Fld := ⟨.DRV_GRP_PERIOD, 31, 0⟩
def DRV_GLOBAL_INHIBIT : Fld := ⟨.DRV_GLOBAL, 31, 31⟩
def DRV_GLOBAL_CFG_REJECT : Fld := ⟨.DRV_GLOBAL, 30, 30⟩
def DRV_GLOBAL_MUTE_ALL : Fld := ⟨.DRV_GLOBAL, 0, 0⟩
def LOG_CTRL_EN : Fld := ⟨.LOG_CTRL, 31, 31⟩
def LOG_CTRL_STATE : Fld := ⟨.LOG_CTRL, 30, 29⟩
def LOG_CTRL_FAULTS : Fld := ⟨.LOG_CTRL, 28, 28⟩
def LOG_CTRL_RING : Fld := ⟨.LOG_CTRL, 27, 23⟩
def LOG_STATUS_OVERFLOW : Fld := ⟨.LOG_STATUS, 31, 31⟩
def LOG_STATUS_CFG_REJECT : Fld := ⟨.LOG_STATUS, 30, 30⟩
def LOG_SEQ_SEQ : Fld := ⟨.LOG_SEQ, 31, 0⟩
def LOG_HOST_BASE_BASE : Fld := ⟨.LOG_HOST_BASE, 31, 0⟩
def LOG_HOST_SIZE_SIZE_LOG2 : Fld := ⟨.LOG_HOST_SIZE, 4, 0⟩
def LOG_HOST_WPTR_WPTR : Fld := ⟨.LOG_HOST_WPTR, 31, 0⟩
def LOG_HOST_RPTR_RPTR : Fld := ⟨.LOG_HOST_RPTR, 31, 0⟩
def LOG_IRQ_TIMER_US : Fld := ⟨.LOG_IRQ, 31, 16⟩
def LOG_IRQ_THRESH_KIB : Fld := ⟨.LOG_IRQ, 15, 0⟩
def LOG_EVENT_DATA : Fld := ⟨.LOG_EVENT, 31, 0⟩
def GKO_STATUS_LOAD_BUSY : Fld := ⟨.GKO_STATUS, 31, 31⟩
def GKO_STATUS_RUN_MASK : Fld := ⟨.GKO_STATUS, 23, 16⟩
def GKO_STATUS_CFG_REJECT : Fld := ⟨.GKO_STATUS, 0, 0⟩
def GKO_CONTENTION_VALID : Fld := ⟨.GKO_CONTENTION, 31, 31⟩
def GKO_CONTENTION_TRACK : Fld := ⟨.GKO_CONTENTION, 25, 16⟩
def GKO_CONTENTION_WINNER : Fld := ⟨.GKO_CONTENTION, 11, 8⟩
def GKO_CONTENTION_LOSER : Fld := ⟨.GKO_CONTENTION, 3, 0⟩
def GKO_IRQ_PEND_PEND : Fld := ⟨.GKO_IRQ_PEND, 15, 0⟩
def GKO_IRQ_EN_EN : Fld := ⟨.GKO_IRQ_EN, 15, 0⟩
def GKO_CAPTURE_CTRL_CMD : Fld := ⟨.GKO_CAPTURE_CTRL, 31, 30⟩
def GKO_CAPTURE_CTRL_FREEZE : Fld := ⟨.GKO_CAPTURE_CTRL, 29, 29⟩
def GKO_CAPTURE_CTRL_REGIONS : Fld := ⟨.GKO_CAPTURE_CTRL, 23, 16⟩
def GKO_CAPTURE_CTRL_REFUSED : Fld := ⟨.GKO_CAPTURE_CTRL, 2, 2⟩
def GKO_CAPTURE_CTRL_DONE : Fld := ⟨.GKO_CAPTURE_CTRL, 1, 1⟩
def GKO_CAPTURE_CTRL_BUSY : Fld := ⟨.GKO_CAPTURE_CTRL, 0, 0⟩
def GKO_CAPTURE_TIME_T : Fld := ⟨.GKO_CAPTURE_TIME, 31, 0⟩
def GKO_CAPTURE_DEST_DEST : Fld := ⟨.GKO_CAPTURE_DEST, 31, 0⟩
def GKO_REGION_CTRL_EN : Fld := ⟨.GKO_REGION_CTRL, 31, 31⟩
def GKO_REGION_CTRL_STATE : Fld := ⟨.GKO_REGION_CTRL, 30, 29⟩
def GKO_REGION_CTRL_PHASE : Fld := ⟨.GKO_REGION_CTRL, 28, 26⟩
def GKO_REGION_STATUS_CFG_UE : Fld := ⟨.GKO_REGION_STATUS, 31, 31⟩
def GKO_REGION_STATUS_CONT_REJECT : Fld := ⟨.GKO_REGION_STATUS, 30, 30⟩
def GKO_REGION_STATUS_STREAM_DROP : Fld := ⟨.GKO_REGION_STATUS, 29, 29⟩
def GKO_REGION_STATUS_CLEAR : Fld := ⟨.GKO_REGION_STATUS, 28, 28⟩
def GKO_REGION_STATUS_FREQ_MHZ : Fld := ⟨.GKO_REGION_STATUS, 25, 16⟩
def GKO_REGION_STATUS_CFG_CE_COUNT : Fld := ⟨.GKO_REGION_STATUS, 15, 0⟩
def GKO_REGION_IMAGE_IMAGE_CRC : Fld := ⟨.GKO_REGION_IMAGE, 31, 0⟩
def GKO_REGION_RAM_CLEAR : Fld := ⟨.GKO_REGION_RAM, 31, 31⟩
def GKO_REGION_RAM_UE_COUNT : Fld := ⟨.GKO_REGION_RAM, 23, 16⟩
def GKO_REGION_RAM_CE_COUNT : Fld := ⟨.GKO_REGION_RAM, 15, 0⟩
def GKO_PIN_IN : Fld := ⟨.GKO_PIN, 31, 31⟩
def GKO_PIN_OE : Fld := ⟨.GKO_PIN, 30, 30⟩
def GKO_PIN_HOLD : Fld := ⟨.GKO_PIN, 5, 4⟩
def GKO_PIN_PRMODE : Fld := ⟨.GKO_PIN, 1, 0⟩
def WEIR_CTRL_MODE : Fld := ⟨.WEIR_CTRL, 5, 4⟩
def WEIR_CTRL_DISCARD : Fld := ⟨.WEIR_CTRL, 1, 1⟩
def WEIR_CTRL_COMMIT : Fld := ⟨.WEIR_CTRL, 0, 0⟩
def WEIR_PERIOD_PERIOD_US : Fld := ⟨.WEIR_PERIOD, 23, 0⟩
def WEIR_VOTE_VOTE_US : Fld := ⟨.WEIR_VOTE, 15, 0⟩
def WEIR_STATUS_PRIMARY : Fld := ⟨.WEIR_STATUS, 31, 31⟩
def WEIR_STATUS_LATE : Fld := ⟨.WEIR_STATUS, 30, 30⟩
def WEIR_STATUS_PHASE : Fld := ⟨.WEIR_STATUS, 26, 24⟩
def WEIR_STATUS_FAILED : Fld := ⟨.WEIR_STATUS, 23, 16⟩
def WEIR_STATUS_SKIPPED : Fld := ⟨.WEIR_STATUS, 15, 8⟩
def WEIR_STATUS_CFG_REJECT : Fld := ⟨.WEIR_STATUS, 0, 0⟩
def WEIR_EPOCH_E : Fld := ⟨.WEIR_EPOCH, 31, 0⟩
def WEIR_APPLY_TA : Fld := ⟨.WEIR_APPLY, 31, 0⟩
def WEIR_COMMIT_NS_CLEAR : Fld := ⟨.WEIR_COMMIT_NS, 31, 31⟩
def WEIR_COMMIT_NS_MAX_NS : Fld := ⟨.WEIR_COMMIT_NS, 15, 0⟩
def WEIR_PUB_CTRL_EN : Fld := ⟨.WEIR_PUB_CTRL, 31, 31⟩
def WEIR_PUB_CTRL_STATE : Fld := ⟨.WEIR_PUB_CTRL, 30, 29⟩
def WEIR_PUB_CTRL_MEM : Fld := ⟨.WEIR_PUB_CTRL, 28, 28⟩
def WEIR_PUB_CTRL_FOUR : Fld := ⟨.WEIR_PUB_CTRL, 27, 27⟩
def WEIR_PUB_CTRL_READY : Fld := ⟨.WEIR_PUB_CTRL, 26, 26⟩
def WEIR_PUB_CTRL_READY_COPY : Fld := ⟨.WEIR_PUB_CTRL, 25, 24⟩
def WEIR_PUB_BASE_BASE : Fld := ⟨.WEIR_PUB_BASE, 31, 0⟩
def WEIR_PUB_SIZE_SIZE : Fld := ⟨.WEIR_PUB_SIZE, 31, 0⟩
def WEIR_PUB_STATE_SEALS : Fld := ⟨.WEIR_PUB_STATE, 31, 24⟩
def WEIR_PUB_STATE_PUBS : Fld := ⟨.WEIR_PUB_STATE, 23, 16⟩
def WEIR_PUB_STATE_VALID : Fld := ⟨.WEIR_PUB_STATE, 15, 15⟩
def WEIR_PUB_STATE_PEND_VALID : Fld := ⟨.WEIR_PUB_STATE, 14, 14⟩
def WEIR_PUB_STATE_READY_REFUSED : Fld := ⟨.WEIR_PUB_STATE, 13, 13⟩
def WEIR_PUB_STATE_WRITE : Fld := ⟨.WEIR_PUB_STATE, 5, 4⟩
def WEIR_PUB_STATE_PENDING : Fld := ⟨.WEIR_PUB_STATE, 3, 2⟩
def WEIR_PUB_STATE_FRONT : Fld := ⟨.WEIR_PUB_STATE, 1, 0⟩
def CMD_STATUS_READY : Fld := ⟨.CMD_STATUS, 31, 31⟩
def CMD_STATUS_BOOT_SLOT : Fld := ⟨.CMD_STATUS, 24, 24⟩
def CMD_STATUS_CFG_REJECT : Fld := ⟨.CMD_STATUS, 0, 0⟩
def CMD_FW_VERSION_MAJOR : Fld := ⟨.CMD_FW_VERSION, 31, 24⟩
def CMD_FW_VERSION_MINOR : Fld := ⟨.CMD_FW_VERSION, 23, 16⟩
def CMD_FW_VERSION_BUILD : Fld := ⟨.CMD_FW_VERSION, 15, 0⟩
def CMD_SELECT_VALUE : Fld := ⟨.CMD_SELECT, 13, 0⟩
def CMD_Q_CTRL_EN : Fld := ⟨.CMD_Q_CTRL, 31, 31⟩
def CMD_Q_CTRL_STATE : Fld := ⟨.CMD_Q_CTRL, 30, 29⟩
def CMD_Q_CTRL_CQ_LOG2 : Fld := ⟨.CMD_Q_CTRL, 12, 8⟩
def CMD_Q_CTRL_SQ_LOG2 : Fld := ⟨.CMD_Q_CTRL, 4, 0⟩
def CMD_Q_SQBASE_SQBASE : Fld := ⟨.CMD_Q_SQBASE, 31, 0⟩
def CMD_Q_CQBASE_CQBASE : Fld := ⟨.CMD_Q_CQBASE, 31, 0⟩
def CMD_Q_SQ_TAIL_SQ_TAIL : Fld := ⟨.CMD_Q_SQ_TAIL, 15, 0⟩
def CMD_Q_CQ_HEAD_CQ_HEAD : Fld := ⟨.CMD_Q_CQ_HEAD, 15, 0⟩
def CMD_Q_STATUS_SQ_HEAD : Fld := ⟨.CMD_Q_STATUS, 31, 16⟩
def CMD_Q_STATUS_CFG_REJECT : Fld := ⟨.CMD_Q_STATUS, 0, 0⟩
def CMD_Q_COUNT_INFLIGHT : Fld := ⟨.CMD_Q_COUNT, 31, 16⟩
def CMD_Q_COUNT_CQ_TAIL : Fld := ⟨.CMD_Q_COUNT, 15, 0⟩
def CMD_IRQ_MAP_EN : Fld := ⟨.CMD_IRQ_MAP, 31, 31⟩
def CMD_IRQ_MAP_VECTOR : Fld := ⟨.CMD_IRQ_MAP, 7, 0⟩
def CMD_IRQ_NODES_NODES : Fld := ⟨.CMD_IRQ_NODES, 31, 0⟩
def SPAN_LINK_CTRL_EN : Fld := ⟨.SPAN_LINK_CTRL, 31, 31⟩
def SPAN_LINK_CTRL_STATE : Fld := ⟨.SPAN_LINK_CTRL, 30, 29⟩
def SPAN_LINK_STATUS_LSTATE : Fld := ⟨.SPAN_LINK_STATUS, 31, 29⟩
def SPAN_LINK_STATUS_REASON : Fld := ⟨.SPAN_LINK_STATUS, 28, 26⟩
def SPAN_LINK_STATUS_PARTNER_LINK : Fld := ⟨.SPAN_LINK_STATUS, 25, 23⟩
def SPAN_LINK_STATUS_PARTNER_NODE : Fld := ⟨.SPAN_LINK_STATUS, 19, 14⟩
def SPAN_LINK_ERR_CLEAR : Fld := ⟨.SPAN_LINK_ERR, 31, 31⟩
def SPAN_LINK_ERR_REPLAYS : Fld := ⟨.SPAN_LINK_ERR, 23, 16⟩
def SPAN_LINK_ERR_FEC_CORR : Fld := ⟨.SPAN_LINK_ERR, 15, 0⟩
def SPAN_LINK_TIME_OFFSET_PS : Fld := ⟨.SPAN_LINK_TIME, 31, 0⟩
def SPAN_STATUS_UP : Fld := ⟨.SPAN_STATUS, 31, 24⟩
def SPAN_STATUS_FENCED : Fld := ⟨.SPAN_STATUS, 23, 16⟩
def SPAN_STATUS_PARENT_VALID : Fld := ⟨.SPAN_STATUS, 15, 15⟩
def SPAN_STATUS_PARENT : Fld := ⟨.SPAN_STATUS, 14, 12⟩
def SPAN_STATUS_CFG_REJECT : Fld := ⟨.SPAN_STATUS, 0, 0⟩
def CHR_CTRL_CALL_MS : Fld := ⟨.CHR_CTRL, 15, 8⟩
def CHR_CTRL_AUTOJOIN : Fld := ⟨.CHR_CTRL, 0, 0⟩
def CHR_STATUS_ROLE : Fld := ⟨.CHR_STATUS, 31, 29⟩
def CHR_STATUS_WRAP_Y : Fld := ⟨.CHR_STATUS, 26, 26⟩
def CHR_STATUS_WRAP_X : Fld := ⟨.CHR_STATUS, 25, 25⟩
def CHR_STATUS_MYM1 : Fld := ⟨.CHR_STATUS, 24, 22⟩
def CHR_STATUS_MXM1 : Fld := ⟨.CHR_STATUS, 21, 19⟩
def CHR_STATUS_NODES : Fld := ⟨.CHR_STATUS, 14, 8⟩
def CHR_STATUS_CFG_REJECT : Fld := ⟨.CHR_STATUS, 0, 0⟩
def CHR_STAGED_COUNT : Fld := ⟨.CHR_STAGED, 6, 0⟩
def CHR_FE_PRESENT : Fld := ⟨.CHR_FE, 31, 31⟩
def CHR_FE_ADMITTED : Fld := ⟨.CHR_FE, 30, 30⟩
def CHR_FE_CHANNELS : Fld := ⟨.CHR_FE, 28, 16⟩
def CHR_FE_TYPE : Fld := ⟨.CHR_FE, 15, 8⟩
def CHR_FE_DRIVES : Fld := ⟨.CHR_FE, 7, 0⟩
def CHR_FE_SERIAL_SERIAL : Fld := ⟨.CHR_FE_SERIAL, 31, 0⟩
def NOC_CTRL_MAINT : Fld := ⟨.NOC_CTRL, 0, 0⟩
def NOC_STATUS_CFG_REJECT : Fld := ⟨.NOC_STATUS, 0, 0⟩
def NOC_TIMEOUT_REMOTE_US : Fld := ⟨.NOC_TIMEOUT, 31, 16⟩
def NOC_TIMEOUT_LOCAL_US : Fld := ⟨.NOC_TIMEOUT, 15, 0⟩
def NOC_ERR_VALID : Fld := ⟨.NOC_ERR, 31, 31⟩
def NOC_ERR_CODE : Fld := ⟨.NOC_ERR, 26, 24⟩
def NOC_ERR_INITIATOR : Fld := ⟨.NOC_ERR, 23, 16⟩
def NOC_ERR_TARGET : Fld := ⟨.NOC_ERR, 15, 8⟩
def NOC_ERR_DNODE : Fld := ⟨.NOC_ERR, 5, 0⟩
def NOC_ERR_ADDR_ADDR : Fld := ⟨.NOC_ERR_ADDR, 31, 0⟩
def NOC_LATE_CLEAR : Fld := ⟨.NOC_LATE, 31, 31⟩
def NOC_LATE_COUNT : Fld := ⟨.NOC_LATE, 15, 0⟩
def NOC_ISOLATE_ISO : Fld := ⟨.NOC_ISOLATE, 31, 0⟩
def NOC_DOMAIN_WAKE_ON_ACCESS : Fld := ⟨.NOC_DOMAIN, 31, 31⟩
def NOC_DOMAIN_HELD : Fld := ⟨.NOC_DOMAIN, 6, 3⟩
def NOC_DOMAIN_BRIDGE : Fld := ⟨.NOC_DOMAIN, 2, 0⟩
def NOC_RTR_CTRL_SWAP : Fld := ⟨.NOC_RTR_CTRL, 31, 31⟩
def NOC_RTR_CTRL_STALL : Fld := ⟨.NOC_RTR_CTRL, 30, 30⟩
def NOC_RTR_CTRL_BANK : Fld := ⟨.NOC_RTR_CTRL, 2, 2⟩
def NOC_RTR_CTRL_PHASE : Fld := ⟨.NOC_RTR_CTRL, 1, 0⟩
def NOC_RTR_TADDR_ENTRY : Fld := ⟨.NOC_RTR_TADDR, 7, 0⟩
def NOC_RTR_TDATA_PORT : Fld := ⟨.NOC_RTR_TDATA, 3, 0⟩
def NOC_RTR_TACTIVE_PORT : Fld := ⟨.NOC_RTR_TACTIVE, 3, 0⟩
def FLT_CTRL_CLEAR_FIRST : Fld := ⟨.FLT_CTRL, 31, 31⟩
def FLT_CTRL_PIN_LEVEL : Fld := ⟨.FLT_CTRL, 2, 0⟩
def FLT_STATUS_FAULT_N_ACTIVE : Fld := ⟨.FLT_STATUS, 31, 31⟩
def FLT_STATUS_HIGHEST : Fld := ⟨.FLT_STATUS, 30, 28⟩
def FLT_STATUS_FIRST_VALID : Fld := ⟨.FLT_STATUS, 27, 27⟩
def FLT_STATUS_NEXT_VALID : Fld := ⟨.FLT_STATUS, 26, 26⟩
def FLT_STATUS_OPEN : Fld := ⟨.FLT_STATUS, 24, 16⟩
def FLT_STATUS_CFG_REJECT : Fld := ⟨.FLT_STATUS, 0, 0⟩
def FLT_SEQ_SEQ : Fld := ⟨.FLT_SEQ, 31, 0⟩
def FLT_REACT_STOP_GANGS : Fld := ⟨.FLT_REACT, 5, 5⟩
def FLT_REACT_SYSTEM : Fld := ⟨.FLT_REACT, 4, 4⟩
def FLT_REACT_MUTE : Fld := ⟨.FLT_REACT, 3, 3⟩
def FLT_REACT_BLACKBOX : Fld := ⟨.FLT_REACT, 2, 2⟩
def FLT_REACT_NOTIFY : Fld := ⟨.FLT_REACT, 1, 1⟩
def FLT_REACT_RECORD : Fld := ⟨.FLT_REACT, 0, 0⟩
def FLT_RING_OVERRUN : Fld := ⟨.FLT_RING, 31, 31⟩
def FLT_RING_COUNT : Fld := ⟨.FLT_RING, 8, 0⟩
def FLT_FIRST_RECORD : Fld := ⟨.FLT_FIRST, 31, 0⟩
def FLT_NEXT_RECORD : Fld := ⟨.FLT_NEXT, 31, 0⟩
def FLT_SRC_CFG_CLASS : Fld := ⟨.FLT_SRC_CFG, 31, 24⟩
def FLT_SRC_CFG_THRESH : Fld := ⟨.FLT_SRC_CFG, 23, 16⟩
def FLT_SRC_CFG_PROMO_MAX : Fld := ⟨.FLT_SRC_CFG, 14, 12⟩
def FLT_SRC_CFG_LEVEL : Fld := ⟨.FLT_SRC_CFG, 10, 8⟩
def FLT_SRC_CFG_DEFAULT : Fld := ⟨.FLT_SRC_CFG, 6, 4⟩
def FLT_SRC_CFG_RESET : Fld := ⟨.FLT_SRC_CFG, 1, 1⟩
def FLT_SRC_CFG_EN : Fld := ⟨.FLT_SRC_CFG, 0, 0⟩
def FLT_SRC_LEAK_LEAK_MS : Fld := ⟨.FLT_SRC_LEAK, 31, 0⟩
def FLT_SRC_ESC_ESC3_MS : Fld := ⟨.FLT_SRC_ESC, 31, 16⟩
def FLT_SRC_ESC_ESC2_MS : Fld := ⟨.FLT_SRC_ESC, 15, 0⟩
def FLT_SRC_STATUS_OPEN : Fld := ⟨.FLT_SRC_STATUS, 31, 31⟩
def FLT_SRC_STATUS_ACK : Fld := ⟨.FLT_SRC_STATUS, 30, 30⟩
def FLT_SRC_STATUS_OPEN_LEVEL : Fld := ⟨.FLT_SRC_STATUS, 28, 26⟩
def FLT_SRC_STATUS_COUNT : Fld := ⟨.FLT_SRC_STATUS, 15, 0⟩
def FLT_SRC_TOTAL_EVENTS : Fld := ⟨.FLT_SRC_TOTAL, 31, 0⟩
def DLM_CTRL_EN : Fld := ⟨.DLM_CTRL, 31, 31⟩
def DLM_CTRL_STATE : Fld := ⟨.DLM_CTRL, 30, 29⟩
def DLM_CTRL_ARM_SRC : Fld := ⟨.DLM_CTRL, 28, 27⟩
def DLM_CTRL_DONE_SRC : Fld := ⟨.DLM_CTRL, 26, 25⟩
def DLM_CTRL_ABS : Fld := ⟨.DLM_CTRL, 24, 24⟩
def DLM_CTRL_ARM : Fld := ⟨.DLM_CTRL, 23, 23⟩
def DLM_CTRL_DONE : Fld := ⟨.DLM_CTRL, 22, 22⟩
def DLM_CTRL_ACU_EN : Fld := ⟨.DLM_CTRL, 21, 21⟩
def DLM_CTRL_ACU : Fld := ⟨.DLM_CTRL, 20, 17⟩
def DLM_CTRL_ARM_INDEX : Fld := ⟨.DLM_CTRL, 13, 8⟩
def DLM_CTRL_DONE_INDEX : Fld := ⟨.DLM_CTRL, 7, 0⟩
def DLM_OFFSET_OFFSET : Fld := ⟨.DLM_OFFSET, 31, 0⟩
def DLM_ABS_ABS : Fld := ⟨.DLM_ABS, 31, 0⟩
def DLM_DEADLINE_DEADLINE : Fld := ⟨.DLM_DEADLINE, 31, 0⟩
def DLM_STATUS_PHASE : Fld := ⟨.DLM_STATUS, 31, 30⟩
def DLM_STATUS_REARM : Fld := ⟨.DLM_STATUS, 29, 29⟩
def DLM_STATUS_STRAY : Fld := ⟨.DLM_STATUS, 28, 28⟩
def DLM_LATE_NS_LATE_NS : Fld := ⟨.DLM_LATE_NS, 31, 0⟩
def DLM_MET_MET : Fld := ⟨.DLM_MET, 31, 0⟩
def DLM_MISSES_MISSES : Fld := ⟨.DLM_MISSES, 31, 0⟩
def DLM_OUT_MARGIN_MARGIN_US : Fld := ⟨.DLM_OUT_MARGIN, 15, 0⟩
def GOV_STATE_WAKE_SRC : Fld := ⟨.GOV_STATE, 15, 8⟩
def GOV_STATE_CFG_REJECT : Fld := ⟨.GOV_STATE, 7, 7⟩
def GOV_STATE_MOVING : Fld := ⟨.GOV_STATE, 6, 6⟩
def GOV_STATE_D3_HELD : Fld := ⟨.GOV_STATE, 3, 3⟩
def GOV_STATE_STATE : Fld := ⟨.GOV_STATE, 2, 0⟩
def GOV_REQ_ALL : Fld := ⟨.GOV_REQ, 8, 8⟩
def GOV_REQ_TARGET : Fld := ⟨.GOV_REQ, 2, 0⟩
def GOV_CLK_TILE_MHZ : Fld := ⟨.GOV_CLK, 31, 16⟩
def GOV_CLK_ACU_MHZ : Fld := ⟨.GOV_CLK, 15, 0⟩
def GOV_SAG_SUSTAIN_US : Fld := ⟨.GOV_SAG, 25, 16⟩
def GOV_SAG_SAG_MV : Fld := ⟨.GOV_SAG, 7, 0⟩
def GOV_CAP_CAP_W : Fld := ⟨.GOV_CAP, 9, 0⟩
def GOV_TEMP_WARN_C : Fld := ⟨.GOV_TEMP, 7, 0⟩
def GOV_DOMAIN_DOWN : Fld := ⟨.GOV_DOMAIN, 7, 4⟩
def GOV_MONITOR_TEMP_MAX_C : Fld := ⟨.GOV_MONITOR, 31, 24⟩
def GOV_MONITOR_THROTTLE : Fld := ⟨.GOV_MONITOR, 19, 16⟩
def GOV_MONITOR_POWER_DW : Fld := ⟨.GOV_MONITOR, 15, 0⟩
def GOV_WAKE_WAKE : Fld := ⟨.GOV_WAKE, 31, 0⟩
def GOV_WAKE_CTRL_SRC_MASK : Fld := ⟨.GOV_WAKE_CTRL, 15, 8⟩
def GOV_WAKE_CTRL_TIMER_EN : Fld := ⟨.GOV_WAKE_CTRL, 0, 0⟩
def TIM_CTRL_SET : Fld := ⟨.TIM_CTRL, 31, 31⟩
def TIM_CTRL_PPS_WIDTH_US : Fld := ⟨.TIM_CTRL, 23, 16⟩
def TIM_CTRL_PPS_OUT_EN : Fld := ⟨.TIM_CTRL, 9, 9⟩
def TIM_CTRL_PPS_ALIGN : Fld := ⟨.TIM_CTRL, 8, 8⟩
def TIM_CTRL_REFSEL : Fld := ⟨.TIM_CTRL, 1, 0⟩
def TIM_STATUS_CFG_REJECT : Fld := ⟨.TIM_STATUS, 4, 4⟩
def TIM_STATUS_SET_PENDING : Fld := ⟨.TIM_STATUS, 3, 3⟩
def TIM_STATUS_HOLDOVER : Fld := ⟨.TIM_STATUS, 2, 2⟩
def TIM_STATUS_PPS_LOCK : Fld := ⟨.TIM_STATUS, 1, 1⟩
def TIM_STATUS_REF_LOCK : Fld := ⟨.TIM_STATUS, 0, 0⟩
def TIM_NOW_LO_NOW : Fld := ⟨.TIM_NOW_LO, 31, 0⟩
def TIM_NOW_HI_NOW : Fld := ⟨.TIM_NOW_HI, 31, 0⟩
def TIM_NOW_FRAC_FRAC : Fld := ⟨.TIM_NOW_FRAC, 15, 0⟩
def TIM_SET_SET : Fld := ⟨.TIM_SET, 31, 0⟩
def TIM_PPS_OFFSET_OFFSET : Fld := ⟨.TIM_PPS_OFFSET, 31, 0⟩
def TIM_HOLD_ERR_NS : Fld := ⟨.TIM_HOLD, 31, 16⟩
def TIM_HOLD_LIMIT_NS : Fld := ⟨.TIM_HOLD, 15, 0⟩
def NVS_STATUS_BOOT_COUNT : Fld := ⟨.NVS_STATUS, 31, 16⟩
def NVS_STATUS_SLOT_FALLBACK : Fld := ⟨.NVS_STATUS, 2, 2⟩
def NVS_STATUS_RECOVERY : Fld := ⟨.NVS_STATUS, 1, 1⟩
def NVS_STATUS_CFG_REJECT : Fld := ⟨.NVS_STATUS, 0, 0⟩
def NVS_ECC_CLEAR : Fld := ⟨.NVS_ECC, 31, 31⟩
def NVS_ECC_UE_COUNT : Fld := ⟨.NVS_ECC, 23, 16⟩
def NVS_ECC_CE_COUNT : Fld := ⟨.NVS_ECC, 15, 0⟩
def NVS_BB_DROPPED : Fld := ⟨.NVS_BB, 31, 16⟩
def NVS_BB_VALID : Fld := ⟨.NVS_BB, 10, 0⟩
def SEC_STATUS_DENIED : Fld := ⟨.SEC_STATUS, 31, 31⟩
def SEC_STATUS_LOCKOUT : Fld := ⟨.SEC_STATUS, 30, 30⟩
def SEC_STATUS_FAILS : Fld := ⟨.SEC_STATUS, 3, 0⟩
def SEC_UNLOCK_GO : Fld := ⟨.SEC_UNLOCK, 31, 31⟩
def SEC_UNLOCK_UNLOCKED : Fld := ⟨.SEC_UNLOCK, 10, 8⟩
def SEC_UNLOCK_SCOPE : Fld := ⟨.SEC_UNLOCK, 2, 0⟩
def SEC_CHALLENGE_CHAL : Fld := ⟨.SEC_CHALLENGE, 31, 0⟩
def SEC_RESPONSE_RESP : Fld := ⟨.SEC_RESPONSE, 31, 0⟩
def DBG_ACU_REG_CMD : Fld := ⟨.DBG_ACU_REG, 31, 30⟩
def DBG_ACU_REG_REG : Fld := ⟨.DBG_ACU_REG, 5, 0⟩
def DBG_ACU_DATA_DATA : Fld := ⟨.DBG_ACU_DATA, 31, 0⟩
end F

end Sys2Proof.Machine
end

