-- ==== Sys2Proof/Machine/SMap.lean ====
section
/-! DEFINITION. Sys2Proof/Machine/SMap.lean: sparse maps in one canonical form. A map is a list of key and value pairs,
keys strictly rising, with no entry equal to what an unlisted key reads as. `d` gives what an unlisted key reads as. Every
memory, register file and table of Block that the spec makes large is held this way, so equal contents are equal data. -/

namespace Sys2Proof.Machine

/-- A sparse map: key and value pairs. -/
abbrev SMap (α : Type) := List (Nat × α)

/-- The value at key `k`. -/
def mget {α : Type} (d : Nat → α) : SMap α → Nat → α
  | [], k => d k
  | (k', v) :: m, k => if k = k' then v else if k < k' then d k else mget d m k

/-- Put `(k, v)` in front of `m`, unless `v` is what `k` reads as unlisted. -/
def mcons {α : Type} [DecidableEq α] (d : Nat → α) (k : Nat) (v : α) (m : SMap α) : SMap α :=
  if v = d k then m else (k, v) :: m

/-- Set key `k` to `v`, keeping the canonical form. -/
def mput {α : Type} [DecidableEq α] (d : Nat → α) : SMap α → Nat → α → SMap α
  | [], k, v => mcons d k v []
  | (k', v') :: m, k, v =>
    if k < k' then mcons d k v ((k', v') :: m)
    else if k = k' then mcons d k v m
    else (k', v') :: mput d m k v

/-- Forget every key from `lo` up to but not including `hi`: each then reads as unlisted. -/
def mdrop {α : Type} (m : SMap α) (lo hi : Nat) : SMap α :=
  m.filter fun p => decide (p.1 < lo) || decide (hi ≤ p.1)

/-- Keys strictly rising, each above `b` if `b` is given. -/
def mrising {α : Type} : Option Nat → SMap α → Bool
  | _, [] => true
  | none, (k, _) :: m => mrising (some k) m
  | some b, (k, _) :: m => decide (b < k) && mrising (some k) m

/-- No entry equal to what its key reads as unlisted. -/
def mlean {α : Type} [DecidableEq α] (d : Nat → α) (m : SMap α) : Bool :=
  m.all fun p => !decide (p.2 = d p.1)

/-- The canonical form. -/
def mwf {α : Type} [DecidableEq α] (d : Nat → α) (m : SMap α) : Bool :=
  mrising none m && mlean d m

/-- Take the first element that a test names out of a list. -/
def takeFirst {α : Type} (p : α → Bool) : List α → Option (α × List α)
  | [] => none
  | x :: l => if p x then some (x, l) else (takeFirst p l).map fun r => (r.1, x :: r.2)

end Sys2Proof.Machine
end

