-- ==== Sys2Proof/Machine/State.lean ====
section
/-! DEFINITION. Sys2Proof/Machine/State.lean: everything the spec gives the machine, as plain data. One Block holds the whole
system of up to 64 modules behind one host interface; what belongs to a module is keyed by its node number. -/

namespace Sys2Proof.Machine

/-! ### Outcomes -/

/-- The faults a step can stop with. -/
inductive Fault where
  /-- Raised by a command whose effect the spec leaves entirely to a unit outside the block; safe: the block stops. -/
  | outsideUnit
  deriving DecidableEq, Repr

/-- The refusals. -/
inductive Refusal where
  /-- A command that has no meaning in the model yet; raised by its arm of `exec`; safe. -/
  | notModelled (mnemonic : String)
  deriving DecidableEq, Repr

/-! ### Tiles (02, 03) -/

/-- What a Newt is doing (03 NEWT_SEQ_STATUS.STATE). -/
inductive TPhase where
  | idle | run | wait | parked | stopped | loading
  deriving DecidableEq, Repr

/-- What a waiting tile waits for (03 R66, R77; 06 R156). `cont` is the neighbour handshake of a Worlith move that is run whole:
a step across a CONT side, room for one, or a link between the gang's modules (02 R43, R47). -/
inductive TWait where
  | none | nbr | croak | wheel | qsettle | gate | cont
  deriving DecidableEq, Repr

/-- One exchange step: its count in its axis, its direction, the 64 edge bits (02 R41, R42). -/
structure ExStep where
  count : Nat
  dir : Side
  bits : DWord
  deriving DecidableEq, Repr

/-- Four values, one per side. -/
structure PerSide (α : Type) where
  north : α
  south : α
  east : α
  west : α
  deriving DecidableEq, Repr

/-- Four address generators' values (03 R56). -/
structure Gens where
  g0 : BitVec 11
  g1 : BitVec 11
  g2 : BitVec 11
  g3 : BitVec 11
  deriving DecidableEq, Repr

/-- The operation a store register access has started (03 R80-R83). -/
structure StoreOp where
  cmd : Nat
  store : Nat
  bcast : Bool
  raw : Bool
  addr : Nat
  refused : Bool
  deriving DecidableEq, Repr

/-- The state of one Newt besides its stores, registers and the PEs of its tile (03 R56 and the rules named at each field). -/
structure Tile where
  /-- Sequencer state, and what it waits for (03 NEWT_SEQ_STATUS, R66). -/
  phase : TPhase := .idle
  wait : TWait := .none
  /-- Device time at which the wait began (02 R43, 03 R67). -/
  since : Nat := 0
  /-- Routine number of the current or last macro-op (03 NEWT_SEQ_STATUS). -/
  routine : Nat := 0
  /-- Class of the current routine (03 R69). -/
  cls : Nat := 0
  /-- The micro-program counter and the micro-stack (03 R56, R59). -/
  upc : BitVec 13 := 0
  stack : List (BitVec 13) := []
  /-- Loop counters, K registers and repetition counter (03 R56). -/
  lc0 : BitVec 16 := 0
  lc1 : BitVec 16 := 0
  k0 : BitVec 16 := 0
  k1 : BitVec 16 := 0
  k2 : BitVec 16 := 0
  rc : BitVec 16 := 0
  /-- A repetition is running the microword at `upc` (03 R60). -/
  rep : Bool := false
  /-- Address generators: addresses, bases and steps (03 R56). -/
  pa : Gens := ⟨0, 0, 0, 0⟩
  b : Gens := ⟨0, 0, 0, 0⟩
  s : Gens := ⟨0, 0, 0, 0⟩
  /-- Cursor, parameter, tile-quiet result (03 R56, 02 R48). -/
  cur : BitVec 16 := 0
  prm : BitVec 16 := 0
  qr : Bool := false
  /-- Tile-quiet results not yet visible, oldest first, each with the tile cycles until it is (02 R48). -/
  qpend : List (Bool × Nat) := []
  /-- Croak result flag, and the final phase (03 R56, R77). -/
  crf : Bool := false
  fin : Bool := false
  /-- Acceptance number of the macro-op being run, if any. -/
  mop : Option Nat := none
  /-- The macro-op FIFO: acceptance numbers, oldest first; at most 64 (06 "Millrace"). -/
  fifo : List Nat := []
  /-- Nano-word cycles executed since dispatch (03 R75). -/
  cycles : Nat := 0
  /-- NEWT_ATOMIC_OVERRUN raised for this macro-op (03 R75). -/
  overrun : Bool := false
  /-- Extra tile cycles owed to a CALL or RET (03 R59). -/
  owed : Nat := 0
  /-- Exchange steps made in the x and the y axis since the gang was formed (02 R41). -/
  exX : Nat := 0
  exY : Nat := 0
  /-- The current exchange cycle has sent its step already. -/
  sent : Bool := false
  /-- Steps sent across each side and not yet taken across the link, oldest first. -/
  outbox : PerSide (List ExStep) := ⟨[], [], [], []⟩
  /-- Steps present at the tile from each side, oldest first. -/
  inbox : PerSide (List ExStep) := ⟨[], [], [], []⟩
  /-- Steps sent into the wrap path of each side, and steps present from it (02 R44). -/
  wrapOut : PerSide (List ExStep) := ⟨[], [], [], []⟩
  wrapIn : PerSide (List ExStep) := ⟨[], [], [], []⟩
  /-- Exchanges of A.MOVN made in the axis of each CONT side: the count its steps are matched by (02 R47, 04 R116, R117). -/
  contCount : PerSide Nat := ⟨0, 0, 0, 0⟩
  /-- Exchanges made of the bit that an A.MOVN run whole is moving (04 R116). -/
  moved : Nat := 0
  /-- The role bits of a butterfly pass, one word a tile row, as they stood at the start of the op (04 R94, R115). -/
  roles : List DWord := []
  /-- Croak contributions made within the macro-op, and how many results have been latched (06 R156). -/
  crkSent : Nat := 0
  crkGot : Nat := 0
  /-- The Wheel has made the tile's transfer buffer ready (10 R243), and the plane values the buffer holds for an A.WIN, in
  order of element, tile row and tile column. -/
  whlReady : Bool := false
  whlBuf : List Nat := []
  /-- A macro-op waiting at this cold tile has been released by its wave (06 R154). -/
  released : Bool := false
  /-- Device time at which the tile last executed a nano-word, if it has executed one since boot (06 R154). -/
  lastRun : Option Nat := none
  /-- Repair queue: tile row and plane address, oldest first, at most 8 (02 R37). -/
  repair : List (Nat × Nat) := []
  /-- Uncorrectable rows scrub has reported and that have not been written since, at most 8 (02 R51). -/
  ueSeen : List (Nat × Nat) := []
  /-- Corrected rows waiting for their scrub write-back: tile row, plane address, 72-bit row (02 R50). -/
  scrubWb : List (Nat × Nat × Nat) := []
  /-- Next store word of the patrol: 0-8191 micro, 8192-10239 nano, 10240-10751 dispatch (03 R90). -/
  patrol : Nat := 0
  /-- Corrected store words waiting for their write-back: store, address, word with check bits (03 R87). -/
  storeWb : List (Nat × Nat × Nat) := []
  /-- Register-path store operation in progress (03 R81). -/
  storeOp : Option StoreOp := none
  deriving DecidableEq, Repr

/-! ### Gangs (06) -/

/-- The edge modes an A.MOVN was accepted with (02 R44, R45). -/
structure Edges where
  north : Nat := 0
  south : Nat := 0
  east : Nat := 0
  west : Nat := 0
  deriving DecidableEq, Repr

/-- A Wheel slot latched for a macro-op on one module (10 R238): the gang (node × 16 + gang) and acceptance number, the error
found at latching (0 none), and whether WHL_SLOT_ERROR has been raised for the op (10 R242). -/
structure Latch where
  gang : Nat
  num : Nat
  code : Nat
  raised : Bool
  /-- Containers written, with 1 + the PE index whose element each holds (10 R239). -/
  wrote : SMap Nat := []
  /-- Latched while the engine was not ON: no drain waits for it (10 R244). -/
  late : Bool := false
  deriving DecidableEq, Repr

/-- A macro-op from its acceptance to its retirement (06 R152). -/
structure Mop where
  /-- Acceptance number (06 "numbers them in order"). -/
  num : Nat
  word : BitVec 128
  /-- Edge modes and MILL_FPCTRL at acceptance (02 R45, 05 R141). -/
  edges : Edges
  fpctrl : Word
  /-- Class from the dispatch copy: 0 atomic, 1 restartable, 2 resumable (03 R69). -/
  cls : Nat
  /-- Resume cursor it is to be dispatched with (04 R119). -/
  cur : Nat := 0
  /-- Tiles (node × 1,024 + tile) whose FIFO has received it. -/
  delivered : List Nat := []
  /-- Some tile has dispatched it. -/
  started : Bool := false
  /-- Tiles that have reported it done (03 R71). -/
  doneBy : List Nat := []
  /-- Tiles that have parked, with the cursor each reported (03 R76). -/
  parkedAt : List (Nat × Nat) := []
  /-- Some tile has passed the final-phase gate (03 R77). -/
  passed : Bool := false
  /-- Flags raised in active PEs so far (05 R140). -/
  flags : Flags := {}
  /-- Flags already given to MILL_FFLAGS when the op was held at Cmax (05 R140). -/
  gave : Flags := {}
  /-- Croak value formed, if it is a Croak op (04 R112). -/
  croak : Option Nat := none
  /-- One Croak step: contributions received for each step, tile and bit (06 R156). -/
  crkIn : List (Nat × Nat × Bool) := []
  /-- Croak steps latched so far. -/
  crkDone : Nat := 0
  /-- Latches of the op, by their keys, as the stop that holds it let go of them: it raises its error once, and the containers it
  has written keep their element (10 R239, R242). -/
  kept : List (Nat × Latch) := []
  deriving DecidableEq, Repr

/-- Why a gang stops (06 MILL_GANG_STATUS.CAUSE). -/
inductive StopCause where
  | host | acu | abort | illegal | fpTrap | fault
  deriving DecidableEq, Repr

/-- The rest of a gang's state; STATE, CAUSE, MILL_RESUME, MILL_ILLEGAL and the other register fields are registers. -/
structure GangSt where
  /-- Macro-ops accepted since the gang was last enabled; the acceptance number of the latest (08 R186). -/
  accepted : Nat := 0
  /-- Macro-ops in flight, oldest first (06 R152). -/
  flight : List Mop := []
  /-- Numbers, among the latest 1,024, that ended without retiring (06 R161, 08 R189). -/
  lost : List Nat := []
  /-- A stop in progress: its cause, and the frontier it chose (06 R159). -/
  stop : Option StopCause := none
  frontier : Option Nat := none
  /-- The final-enable line (03 R77). -/
  finalEnable : Bool := true
  /-- Cmax once the yield decision has been made for a parked op; the tiles catch up to it (03 R76). -/
  cmax : Option Nat := none
  /-- The yield decision is that the frontier op completes on every tile (03 R76, R77). -/
  complete : Bool := false
  /-- The yield decision is that every tile abandons the restartable frontier op (03 R77). -/
  abandon : Bool := false
  /-- Acceptance has ended for an illegal macro-op or a float trap with TSTOP = 1; the gang stops once drained. -/
  closing : Option StopCause := none
  /-- A macro-op presented by the issuing task and not yet accepted: the word, the task, its destination register (08 R186). -/
  presented : Option (BitVec 128 × Nat × Nat) := none
  /-- Croak results not yet taken by the issuing task, oldest first, at most 16 (08 R188). -/
  crkQueue : List Nat := []
  /-- Device time of the latest wave of cold tiles, if the gang has released one (06 R154). -/
  waveAt : Option Nat := none
  /-- The GANG_RUN command in progress, queue and CID (14 R339). -/
  program : Option (Nat × Nat) := none
  /-- How the GANG_RUN program has ended: status, and the fault source or the acceptance number of A.END (14 R339). -/
  verdict : Option (Nat × Nat) := none
  deriving DecidableEq, Repr

/-! ### Faults and interrupts waiting (17) -/

/-- An event a detector has raised and the collector has not yet taken (17 R378, R379). -/
structure FaultEv where
  node : Nat
  src : Nat
  inst : Nat
  detail : Nat
  /-- For NOC_TIMEOUT, the pair of Bunel links its request was routed over (17 R390); 4 for every other event. -/
  via : Nat
  deriving DecidableEq, Repr

/-! ### The node table (15 R349, R356) -/

/-- A module of the committed node table: node number and grid position. -/
structure NodeEnt where
  node : Nat
  mx : Nat
  my : Nat
  deriving DecidableEq, Repr

/-! ### Array control units (08, 09) -/

/-- A store-buffer entry: one aligned doubleword with byte enables, and the storing task (08 R192). -/
structure SbEntry where
  task : Nat
  /-- ACU byte address, a multiple of 8. -/
  addr : Nat
  be : BitVec 8
  data : DWord
  /-- The next entry is the other half of the same split store, and drains with this one (08 R194). -/
  tied : Bool := false
  deriving DecidableEq, Repr

/-- A divide in progress: the owner, and what it commits (08 R174). -/
structure DivSt where
  task : Nat
  quot : Word
  rem : Word
  /-- V as the divide leaves it, and whether it sets the sticky DZ (09 R209). -/
  v : Bool
  dz : Bool
  deriving DecidableEq, Repr

/-- A floating-point op issued that has not reported: its address, its flags, the register slots its result goes to, and whether it is
a division or a square root (08 R199, R200). -/
structure FpOp where
  pc : Word
  flags : Nat
  dests : List Nat
  long : Bool
  deriving DecidableEq, Repr

/-- A hardware task besides its registers in the register map: G and W registers, MDH, MDL, and what is outstanding. -/
structure Task where
  /-- 0–7: G0–G7; 8 + 8k + i: register i of group Kk (08 R175). -/
  regs : SMap Word := []
  mdh : Word := 0
  mdl : Word := 0
  /-- Registers the task's previous instruction loaded, with their contents before the load (08 R171). -/
  shade : List (Nat × Word) := []
  /-- Products not yet written: instructions still to follow before the write, MDH, MDL (08 R172). -/
  products : List (Nat × Word × Word) := []
  /-- Floating-point ops issued that have not reported (08 R200). -/
  fps : List FpOp := []
  /-- The miss or the uncached access that the instruction at the PC waited for has been served (08 R170). -/
  served : Bool := false
  /-- Address kept for FP_TRAP's W11, and data address kept for STORE_ERR's (08 R177, R200). -/
  fpAddr : Word := 0
  errAddr : Word := 0
  deriving DecidableEq, Repr

/-- A data-cache line (08 R195): its eight 64-bit words with their check bits (08 R197), and whether it is newer than the
staging memory. -/
structure DLine where
  words : BitVec 576
  dirty : Bool
  deriving DecidableEq, Repr

/-- The rest of an ACU. -/
structure Acu where
  /-- Task last selected at each PRIO; 63 before the first (08 R169). -/
  lastSel : SMap Nat := []
  /-- Store buffer, oldest first, at most 16 entries (08 R192). -/
  sb : List SbEntry := []
  divider : Option DivSt := none
  /-- Instruction cache: word address / 4 to the word held and its parity bit (08 R195-R197). -/
  icache : SMap (Option (Word × Bool)) := []
  /-- Data cache: staging line number to the line held (08 R195). -/
  dcache : SMap (Option DLine) := []
  deriving DecidableEq, Repr

/-! ### Memories (10) -/

/-- A staging request of a bank's new owner that waits for the handover (10 R226): node, master code, alias (0 plain, 1 set,
2 clear), request; when its initiator's limit expires (2^-16 ns), and whether it has (16 R370). -/
structure HeldAcc where
  node : Nat
  master : Nat
  al : Nat
  req : MemReq
  due : Nat
  late : Bool := false
  deriving DecidableEq, Repr

/-- An answer the machine has given to a requester (output): who asked (the numbering is the command's), the response code of
16 R363, and the data of a read. -/
structure Rsp where
  who : Nat
  code : Nat
  data : List (BitVec 8)
  deriving DecidableEq, Repr

/-! ### The fault collector (17) -/

/-- A fault record (17 R379). -/
structure FRec where
  seq : Nat
  /-- Device time in ns. -/
  time : Nat
  src : Nat
  level : Nat
  base : Nat
  flags : Nat
  node : Nat
  inst : Nat
  detail : Nat
  /-- A FAULT_READ has returned it (17 R382). -/
  returned : Bool := false
  deriving DecidableEq, Repr

/-- An open fault of a source: level, instance, detail, record number (17 R385, R386). -/
structure OpenF where
  level : Nat
  inst : Nat
  detail : Nat
  seq : Nat
  deriving DecidableEq, Repr

/-- What a source keeps besides its registers: its open faults, and the device times (ns) at which its leak timer and its
escalation timer expire (17 R383, R385). -/
structure FSrc where
  opens : List OpenF := []
  leakDue : Option Nat := none
  escDue : Option Nat := none
  deriving DecidableEq, Repr

/-- A quiet window (17 R390): the source and instance reset, the device time (ns) at which it ends at the latest, whether the
reset still waits for outputs to be MUTED, and whether the block is back in service. -/
structure Quiet where
  src : Nat
  inst : Nat
  due : Nat
  waiting : Bool
  back : Bool
  deriving DecidableEq, Repr


/-! ### The Log engine (11 R270-R276) -/

/-- The Log engine of a module besides its registers. -/
structure LogSt where
  /-- Records in the spool not yet copied, oldest first: ring position, length, and the ring's REC_RING_AREA when it was written. -/
  queue : List (Nat × Nat × Word) := []
  /-- Lost records not yet stated in a GAP record, by record type × 65,536 + source: how many, and the first block lost. -/
  lost : SMap (Nat × Nat) := []
  /-- WPTR at the last interrupt, and when the first record not yet signalled is due to be (device time, 2^-16 ns). -/
  sigAt : Nat := 0
  unsigDue : Option Nat := none
  deriving DecidableEq, Repr

/-! ### Drive outputs (11 R263-R269) -/

/-- A drive output besides its registers. -/
structure DrvSt where
  /-- Samples fetched and not yet played: index and container value (11 R263). -/
  fifo : List (Nat × BitVec 24) := []
  /-- Next index to fetch. -/
  fetch : Nat := 0
  /-- The sample held by R264: what the output last took from its FIFO and sent. -/
  held : Option (BitVec 24) := none
  /-- Next step of the ramp in progress, and its length (11 R265). -/
  step : Nat := 0
  nr : Nat := 4
  /-- Samples due since the underrun began, if the output has underrun (11 R264). -/
  under : Option Nat := none
  /-- START (ns) and PERIOD (2^-8 ns) of the group when the output was enabled (11 R267). -/
  start : Nat := 0
  period : Nat := 0
  /-- BLOCK as it stood when the ramp in progress began from MUTED or PLAYING (11 R453). -/
  block : Nat := 0
  /-- The check of R397 has failed and not passed since. -/
  lateRun : Bool := false
  deriving DecidableEq, Repr

/-- A sample sent to a sink (output): node, drive output, due time and the time it leaves the module (2^-16 ns), value, and the
sink's kind, number and index. -/
structure Sent where
  node : Nat
  drv : Nat
  due : Nat
  leave : Nat
  value : BitVec 24
  kind : Nat
  sink : Nat
  index : Nat
  deriving DecidableEq, Repr

/-! ### Sensor ports, channels and streams (11 R245-R262) -/

/-- A sample period: `num` ÷ `den` units of 2^-16 ns. -/
structure Per where
  num : Nat
  den : Nat
  deriving DecidableEq, Repr

/-- A sensor lane besides its registers: the next packet number in each direction, and whether one has come (11 R250, R252). -/
structure LaneSt where
  rxSeq : Option Nat := none
  txSeq : Nat := 0
  /-- Device time at which the lane came UP, or at which its last time exchange began (11 R251). -/
  syncAt : Nat := 0
  /-- The lane's front-end has left, and none has entered service since (11 R252, 15 R359). -/
  down : Bool := false
  /-- Calls in a row that have not been answered (15 R359). -/
  unans : Nat := 0
  deriving DecidableEq, Repr

/-- A JESD204C link besides its registers (11 R247-R249). -/
structure JLinkSt where
  /-- Device time (2^-16 ns) of the SYSREF that the link was aligned at: an edge of its extended-multiblock clock. -/
  t0 : Nat := 0
  /-- Device time at which the link lost its alignment: only a later SYSREF brings it back (11 R249). -/
  lostAt : Option Nat := none
  /-- Extended multiblocks since t0, and octet slots of each lane received in this one: `none` is a lost octet. -/
  emb : Nat := 0
  octets : List (List (Option (BitVec 8))) := []
  /-- Frames of this extended multiblock already taken. -/
  frames : Nat := 0
  deriving DecidableEq, Repr

/-- A channel besides its registers (11 R254-R260): the settings in effect, and where it stands in its stream. -/
structure ChanSt where
  src : Word := 0
  route : Word := 0
  gain : Word := 0x01000000
  offset : Word := 0
  /-- First block of the stream that the channel belongs to, and the number of its next sample. -/
  start : Nat := 0
  pos : Nat := 0
  /-- Stamp (2^-16 ns) and period of the latest sample that its source delivered, and how many have been lost since. -/
  last : Option Nat := none
  per : Per := ⟨0, 1⟩
  since : Nat := 0
  /-- Its previous value. -/
  prev : BitVec 24 := 0
  deriving DecidableEq, Repr

/-- A container write that has not completed (11 R259): channel, slot, sample number, value, stamp, and whether the sample was
lost or clamped. -/
structure ChWrite where
  chan : Nat
  slot : Nat
  num : Nat
  value : BitVec 24
  stamp : Nat
  lost : Bool
  sat : Bool
  deriving DecidableEq, Repr

/-- What a block has counted: late, lost and saturated samples, and whether a container was refused (11 R257). -/
structure BlkSt where
  late : Nat := 0
  lost : Nat := 0
  sat : Nat := 0
  gap : Bool := false
  deriving DecidableEq, Repr

/-- A stream besides its registers. -/
structure StrmSt where
  /-- The time grid of each block, by block number: the stamp of its sample 0 (2^-16 ns) and the sample period, from the first
  sample of the block that came (11 R258). -/
  grid : SMap (Option (Nat × Per)) := []
  writes : List ChWrite := []
  /-- Samples of blocks not yet complete, by sample number × 16,384 + slot. -/
  data : SMap (BitVec 24) := []
  /-- Counts of the blocks not yet complete, by block number. -/
  blks : SMap BlkSt := []
  deriving DecidableEq, Repr

/-- A WSL packet sent to a front-end (output): node, lane, and its bytes, header and CRC included (11 R250). -/
structure WslOut where
  node : Nat
  lane : Nat
  bytes : List (BitVec 8)
  deriving DecidableEq, Repr



/-! ### The Gecko fabric (12) -/

/-- A region of the fabric besides its registers: the image loaded, what its RAM blocks hold where that differs from the image,
and since when its staged release has run at its clock's present rate (device time, 2^-16 ns), with the part of it, in 2^-16 ns × kHz,
that was done before (12 R279, R288, R291). -/
structure RegionSt where
  image : List (BitVec 8) := []
  ram : SMap (BitVec 72) := []
  relAt : Nat := 0
  relDone : Nat := 0
  /-- The flip-flops, 16 to a cluster (bit 2i + k is flip-flop k of its cell i), initial values where the list ends; none: the region's
  clocks have run, and their values come with the edge that is captured (12 R296). -/
  ffs : Option (List (BitVec 16)) := some []
  /-- The latest word read at each RAM port, block × 2 + port, with the stored check bits above it in the ECC shape (12 R297). -/
  out : SMap (Option (BitVec 72)) := []
  /-- Upset bits of configuration words, check bits above data (12 R294). -/
  upset : SMap (BitVec 72) := []
  deriving DecidableEq, Repr

/-- A capture in progress: the regions still to record, the records made, and the regions that an uncorrectable configuration
word stops once the capture is written (12 R295, R296). -/
structure CapSt where
  /-- T in ns, FREEZE and DEST as they stood when the command was taken (12 R296). -/
  time : Nat := 0
  freeze : Bool := false
  dest : Nat := 0
  todo : List Nat
  recs : List (Nat × List (BitVec 8)) := []
  upset : List Nat := []
  deriving DecidableEq, Repr

/-- A load of the fabric in progress (12 R288): the queue and CID of its command, the regions it covers, the image's payload and
IMAGE_CRC, and how far it has come: 1 checked, 2 its commit has come while a capture is being written, 3 its regions are in
HOLD, 4 they are LOADING. -/
structure LoadSt where
  q : Nat
  cid : Nat
  whole : Bool
  regions : List Nat
  image : List (BitVec 8)
  crc : Nat
  stage : Nat
  /-- The epoch whose commit was its commit point (12 R288, 14 R331). -/
  epoch : Nat := 0
  deriving DecidableEq, Repr


/-! ### Commands (14) -/

/-- How a command ends: STATUS, DETAIL, EPOCH, R0 and R1 of its reply (14 R331). -/
structure Reply where
  status : Nat
  detail : Nat := 0
  epoch : Nat := 0
  r0 : Nat := 0
  r1 : Nat := 0
  deriving DecidableEq, Repr

/-- A command taken and not yet answered (14 R329-R335). -/
structure CmdFl where
  q : Nat
  cid : Nat
  op : Nat
  node : Nat
  irq : Bool
  /-- Submission head after its taking. -/
  head : Nat
  /-- P0 to P6. -/
  ps : List Nat
  /-- The selects of its queue's context as they stood at its taking (14 R336). -/
  sels : List Nat := []
  /-- It has reached its commit point. -/
  past : Bool
  /-- Its work has been started; what the opcode's work has reached. -/
  step : Nat := 0
  /-- A handover stalls the staging memory it reads from (10 R226): the other commands go on meanwhile (14 R329). -/
  stalled : Bool := false
  /-- How the answer to its register access `miss` will come about; the others are served (14 R338, 16 R370, R374). -/
  miss : Fin 4 := 0
  way : BusWay := .served
  /-- Its CID was that of a command of its queue in flight when it was taken (14 R330): its reply alone is still to be written. -/
  dup : Bool := false
  /-- An abort waits for it (13 R316); it ends with CANCELLED, not ABORTED, as its queue drains (14 R328). -/
  aborting : Bool := false
  cancel : Bool := false
  /-- How it ends, once that is known. -/
  result : Option Reply := none
  /-- Values the work keeps, and bytes it has read from its source. -/
  nums : List Nat := []
  bytes : List (BitVec 8) := []
  deriving DecidableEq, Repr

/-- A write in a queue's command set (13 R315): its command, node, register key, the bits written and their values; and whether it
travels behind the PREPARE that its node has not taken yet (13 R301). -/
structure CmdWrite where
  q : Nat
  cid : Nat
  node : Nat
  key : Nat
  word : Word × Word
  behind : Bool := false
  deriving DecidableEq, Repr

/-! ### Bunel links and Chorus (15) -/

/-- A module that Chorus knows (15 R355, R362): node number, grid position, place relative to the primary, serial number, firmware
version, and the epoch at its admission. -/
structure ChMod where
  node : Nat
  mx : Nat := 0
  my : Nat := 0
  x : Int := 0
  y : Int := 0
  serial : Nat := 0
  fw : Nat := 0
  e0 : Nat := 0
  deriving DecidableEq, Repr

/-- A node table with what Chorus found of the grid (15 R349, R356, R362), and E of the commit that installed it. -/
structure ChTab where
  mods : List ChMod
  /-- The cabling found that closes a dimension: from a node, to a node, in a direction (0 north, 1 east, 2 south, 3 west). -/
  wraps : List (Nat × Nat × Nat) := []
  wrapX : Bool := false
  wrapY : Bool := false
  epoch : Nat := 0
  deriving DecidableEq, Repr

/-- A Bunel link besides its registers (15 R346, R347, R354, R360): the node and link at its far end, once trained; when it last
received a valid flit, and when it last began to train (device time, 2^-16 ns); the number of flits delivered in order, and
whether a replay has been asked for; the flit it has sent that is not acknowledged, and the flits it has delivered, oldest first;
the reasons it has reported; the fields of the latest call or answer; and the asymmetry
measured during training, in ps. -/
structure LinkSt where
  partner : Option (Nat × Nat) := none
  lastFlit : Nat := 0
  lastTry : Nat := 0
  rxNext : Nat := 0
  asked : Bool := false
  unacked : Option BunelFlit := none
  inbox : List BunelFlit := []
  refused : List Nat := []
  heard : List (BitVec 8) := []
  asym : Int := 0
  deriving DecidableEq, Repr

/-! ### Weir (13) -/

/-- A node's part in the commit in progress: the time (ns) of its seal, the three copies of its vote as generation, vote and CRC
(13 R310), the apply instant it has been sent, and whether it has reported the commit late (13 R309). -/
structure WeirNode where
  sealedAt : Option Nat := none
  /-- The commit it has sealed for and neither applied nor abandoned: boundary (ns), epoch, and the time after which it is late. -/
  part : Option (Nat × Nat × Nat) := none
  /-- It has recorded a YES vote for that commit (13 R312). -/
  voted : Bool := false
  copies : List (BitVec 104) := []
  ta : Option Nat := none
  late : Bool := false
  /-- Front-end lanes admitted at the seal (15 R359). -/
  fes : BitVec 24 := 0
  deriving DecidableEq, Repr

/-- The commit in progress, as the primary sees it (13 R308): its boundary (ns), its epoch, the node table it installs, votes sent
and not yet received, nodes whose YES has been received, the apply instant sent, whether it has failed, nodes whose
acknowledgement has been received, nodes lost, and the EPOCH_COMMIT command that made its boundary. -/
structure CommitSt where
  t0 : Nat
  epoch : Nat
  tab : ChTab
  sent : List (Nat × Bool) := []
  votes : List Nat := []
  ta : Option Nat := none
  failed : Bool := false
  acks : List Nat := []
  gone : List Nat := []
  /-- Nodes that have taken PREPARE. -/
  prepared : List Nat := []
  cmd : Option (Nat × Nat) := none
  deriving DecidableEq, Repr

/-- A gang's tiles on one node still to be imaged (13 R313): the gang's driving node and number, the node of the tiles, the
frontier if the gang was in RUN, the acceptance number for the header, whether the gang was stopped, and the header and payload of an
image taken at the apply instant itself. -/
structure SnapImg where
  dn : Nat
  g : Nat
  node : Nat
  k : Option Nat
  num : Nat
  stopped : Bool
  made : Option (List (BitVec 8) × List (BitVec 8)) := none
  deriving DecidableEq, Repr

/-- A snapshot (13 R313, R314): its command, the gangs of its node, Wheel engine, ring and planes; whether its set has been sealed; the epoch
and apply instant (ns) it was taken at, and the images still to write. -/
structure SnapSt where
  q : Nat
  cid : Nat
  node : Nat
  mask : Nat
  engine : Nat
  ring : Nat
  first : Nat
  last : Nat
  isSealed : Bool := false
  taken : Option (Nat × Nat) := none
  imgs : List SnapImg := []
  dropped : Bool := false
  deriving DecidableEq, Repr


/-! ### Power, time and management (18, 19, 20) -/

/-- An island's clock (18 R399): the step k of its stretch, since when it has been stretched without a break, and, while the drop is
below the threshold, when the stretch next falls by a step (2^-16 ns). -/
structure IslandSt where
  k : Nat := 0
  since : Nat := 0
  due : Option Nat := none
  deriving DecidableEq, Repr

/-- The Governor, the wake logic and the BMC target of a module besides their registers (18 R398-R417, 20 R436-R442). -/
structure PowSt where
  /-- It has lost VAUX, or is held in reset: nothing runs. -/
  off : Bool := false
  /-- It is held in reset by RESET_N, and drives FAULT_N low (17 R389). -/
  inReset : Bool := false
  /-- The boot of R427 has run since. -/
  started : Bool := false
  /-- RESET_N has been taken and the outputs are muting (20 R440). -/
  resetting : Bool := false
  /-- BMC_ADDR1 and BMC_ADDR0 as sampled (20 R442). -/
  bmcAddr : BitVec 2 := 0
  /-- State being entered; source of the exit in progress, as a bit number of WAKE_SRC (18 R405-R407). -/
  entry : Option Nat := none
  exit : Option Nat := none
  /-- A request that follows an exit; a wake source that follows an entry; one held while VIN is low (18 R405, R418, 20 R438). -/
  after : Option Nat := none
  wakeAfter : Option Nat := none
  held : Option Nat := none
  /-- A request for every node waits at the primary for the secondaries (18 R409). -/
  waitAll : Option Nat := none
  /-- A keep-alive wake is on its way to the node (18 R409). -/
  keepAlive : Bool := false
  /-- Some die reads above WARN_C − 10 °C (18 R402); VIN is below 42 V; a rail fault is open, and when its 1 s ends (ns) (R403). -/
  hot : Bool := false
  vinLow : Bool := false
  rail : Option Nat := none
  /-- PWR_FAIL_N has fallen, and the supply has not come back since; the detail of the event that shows it or VIN (20 R448). -/
  pfail : Bool := false
  supply : Nat := 0
  /-- FIO banks whose VDDIO is out of range: their pins are high impedance (20 R436). -/
  lowIo : BitVec 8 := 0
  /-- The reload after a wake is still to be done (18 R408); PERST_N was asserted in Brake or Rest (20 R441). -/
  reload : Bool := false
  perst : Bool := false
  /-- Regions that Idle froze, or that Furl stopped (18 R404). -/
  frozen : BitVec 8 := 0
  /-- Throttle levels for sag, by die, with the time of their last change (2^-16 ns); the level for power, with its own (18 R400, R401). -/
  dieLvl : SMap Nat := []
  dieStep : SMap Nat := []
  capLvl : Nat := 0
  capStep : Nat := 0
  /-- Temperatures of compute dies 0 to 3 and the I/O die, SINT 8 (18 R402). -/
  temps : List (BitVec 8) := [0, 0, 0, 0, 0]
  /-- BMC pointer, status of the last request, and the record copied at 0x40 (18 R416, R417). -/
  bmcPtr : BitVec 8 := 0
  bmcStatus : BitVec 8 := 0
  bmcRec : List (BitVec 8) := []
  /-- ASPM L1 is enabled in Link Control, and the link is in L1 (14 R321). -/
  aspm : Bool := false
  inL1 : Bool := false
  /-- The endpoint is held in Detect.Quiet until the next boot (14 R323). -/
  quietEp : Bool := false
  /-- Subsystem Vendor ID and Subsystem ID as page 0 gave them at boot (19 R421). -/
  subsys : Word := 0x00011F4E
  /-- A secondary asked for Rest: it enters once a commit has removed it from the node table (15 R357). -/
  leaving : Bool := false
  /-- Domains to be powered down again once the requests held at their bridges have gone on (16 R377). -/
  downAgain : BitVec 8 := 0
  /-- When the module reached READY at its boot (2^-16 ns, 15 R353). -/
  readyAt : Nat := 0
  /-- Trained rate in MT/s ÷ 100 and width (14 R320). -/
  rate : Nat := 0
  width : Nat := 0
  /-- What the host has set in the configuration space: the bases of BAR0 and BAR2, Max Payload Size and Max Read Request Size (128 bytes
  × 2^k), 10-bit tags as requester; and the Advanced Error Reporting status, uncorrectable and correctable (14 R318, R319, log 61). -/
  bar0 : DWord := 0
  bar2 : DWord := 0
  mps : Fin 3 := 0
  mrrs : Fin 6 := 2
  tag10 : Bool := false
  aerUnc : Word := 0
  aerCor : Word := 0
  /-- Its masks and severities, at the defaults of the PCI Express specification (log 61). -/
  aerUncMask : Word := 0
  aerUncSev : Word := 0x00462030
  aerCorMask : Word := 0x00002000
  /-- Received Target Abort and Received Master Abort of the Status register (log 61). -/
  aborts : BitVec 2 := 0
  deriving DecidableEq, Repr

/-- The timebase of a module besides its registers (18 R411-R415). -/
structure TimSt where
  /-- The module's device time less the primary's (2^-16 ns) (15 R360). -/
  skew : Int := 0
  /-- When holdover began (the module's device time, 2^-16 ns), and whether its limit has been reported. -/
  hold : Option Nat := none
  warned : Bool := false
  /-- Device time (ns) of the latest PPS_IN edge; when a pending load is due without a PPS lock (ns). -/
  ppsAt : Option Nat := none
  setDue : Option Nat := none
  /-- Device time (ns) of the latest pulse of PPS_OUT. -/
  outAt : Option Nat := none
  deriving DecidableEq, Repr

/-- A pulse of PPS_OUT (output): node, device time (ns), width (µs). -/
structure Pulse where
  node : Nat
  time : Nat
  width : Nat
  deriving DecidableEq, Repr

/-- A copy of a settings page or of the boot record (19 R422): generation, data, and whether its CRC and every word of it are
good. -/
structure NvCopy where
  gen : Nat
  data : List (BitVec 8)
  ok : Bool
  deriving DecidableEq, Repr

/-- What an image slot holds (19 R419, R426): the image Worlith ships, nothing valid, or bytes written since. -/
inductive SlotC where
  | factory
  | empty
  | bytes (bs : List (BitVec 8))
  deriving DecidableEq, Repr

/-- An entry of the black-box history (19 R429): its number, its 40 bytes, and whether it is valid. -/
structure BbEnt where
  num : Nat
  bytes : List (BitVec 8)
  ok : Bool
  deriving DecidableEq, Repr

/-- The MRAM and the security block of a module besides their registers (19). -/
structure NvsSt where
  /-- Copies, by (page × 4 + copy); page 48 is the boot record. -/
  copies : SMap (Option NvCopy) := []
  /-- The latest 1,024 entries of the history, oldest first; how many have been written; records waiting. -/
  bb : List BbEnt := []
  bbNum : Nat := 0
  bbWait : List (List (BitVec 8)) := []
  boots : Nat := 0
  /-- Failed unlocks in this boot (19 R430). -/
  fails : Nat := 0
  /-- The owner key as page 2 gave it at the latest boot or wake (19 R421, R423). -/
  owner : Option (List (BitVec 8)) := none
  /-- Copies of the calibration that hold an uncorrectable word (19 R419, R420). -/
  calBad : BitVec 3 := 0
  /-- The challenge in force, and when it expires (ns) (19 R430). -/
  challenge : Option (List (BitVec 8)) := none
  chalDue : Nat := 0
  deriving DecidableEq, Repr

/-! ### The packet networks (16) -/

/-- A request that an initiator has sent and that is not answered (16 R370): node and endpoint of the initiator, tag, the request
flit, and when its limit expires (2^-16 ns). -/
structure OutReq where
  node : Nat
  ep : Nat
  tag : Nat
  flit : BitVec 128
  due : Nat
  deriving DecidableEq, Repr

/-- The register writes and reads of the host that the command table lists as rows. -/
inductive HostRow where
  | scrubEnWrite (n : Node) (en : Bool)
  | inspectionRead (c : Ctx) (n : Node) (t : TileIx) (kind : BitVec 2) (row : BitVec 6) (addr : BitVec 11)
  | inspectionWrite (c : Ctx) (n : Node) (t : TileIx) (kind : BitVec 2) (row : BitVec 6) (addr : BitVec 11)
  | storeWordRead (n : Node) (t : TileIx) (store : BitVec 2) (bcast raw : Bool) (addr : BitVec 13)
  | storeWordWrite (n : Node) (t : TileIx) (store : BitVec 2) (bcast raw : Bool) (addr : BitVec 13)
  | gangEnWrite (n : Node) (g : GangIx) (en : Bool)
  | gangStopWrite (n : Node) (g : GangIx)
  | gangResumeWrite (n : Node) (g : GangIx)
  | resumeDiscard (n : Node) (g : GangIx)
  | taskEnWrite (n : Node) (a : AcuIx) (k : TaskIx) (en : Bool)
  | acuIpiWrite (n : Node) (a : AcuIx) (w : Half)
  | acuBellWrite (n : Node) (a : AcuIx) (w : Word)
  | ownerWrite (n : Node) (b : Fin 8) (owner : Fin 32)
  | ringTrigger (n : Node) (r : Fin 32)
  | ringResume (n : Node) (r : Fin 32)
  | ringEnWrite (n : Node) (r : Fin 32) (en : Bool)
  | wheelEnWrite (n : Node) (e : Fin 4) (en : Bool)
  | jlinkEnWrite (n : Node) (k : Fin 16) (en : Bool)
  | streamEnWrite (n : Node) (t : Fin 64) (en : Bool)
  | drvReadyWrite (n : Node) (o : Fin 256) (half : Fin 3) (v : DWord)
  | driveMuteWrite (n : Node) (o : Fin 256)
  | driveUnmuteWrite (n : Node) (o : Fin 256)
  | muteAllWrite (n : Node)
  | driveEnWrite (n : Node) (o : Fin 256) (en : Bool)
  | logEventWrite (c : Ctx) (n : Node) (d : DWord)
  | logRptrWrite (n : Node) (half : Fin 3) (v : DWord)
  | logEnWrite (n : Node) (en : Bool)
  | regionEnWrite (n : Node) (r : Fin 8) (en : Bool)
  | weirCommitWrite (n : Node)
  | weirDiscard (n : Node)
  | pubReady (n : Node) (p : Fin 32) (copy : Fin 4)
  | pubEnWrite (n : Node) (p : Fin 32) (en : Bool)
  | spanLinkEnWrite (n : Node) (l : Fin 8) (en : Bool)
  | nocIsolateWrite (n : Node) (k : Fin 8) (w : Word)
  | routerSwap (n : Node) (r : Fin 48)
  | domainDownWrite (n : Node) (w : BitVec 4)
  | faultAckWrite (n : Node) (src : BitVec 8)
  | clearFirst (n : Node)
  | dlmArmWrite (n : Node) (m : Fin 64)
  | dlmDoneWrite (n : Node) (m : Fin 64)
  | dlmEnWrite (n : Node) (m : Fin 64) (en : Bool)
  | govReqWrite (n : Node) (target : BitVec 3) (all : Bool)
  | govClkWrite (n : Node) (w : Word)
  | timSetWrite (n : Node)
  | secUnlock (n : Node) (scope : BitVec 3)
  | dbgRegRead (n : Node) (a : Fin 16) (k : Fin 64) (reg : BitVec 6)
  | dbgRegWrite (n : Node) (a : Fin 16) (k : Fin 64) (reg : BitVec 6)
  deriving DecidableEq, Repr

/-- A request of the host through the link's memory space (01 R19): a BAR0 write, or one of those the table lists by themselves; the
two BAR0 reads that change state; a register write or read that the command table lists as a row; a BAR2 request, and when its limit
expires (2^-16 ns) if it stalls. -/
inductive HostTlp where
  | write (c : Ctx) (b : NetWrite)
  | select (c : Ctx) (q : Option (Fin 16)) (i : Fin 11) (w : Word)
  | bar2 (req : NetReq) (due : Option Nat)
  | sqTail (q : Fin 16) (v : Half)
  | cqHead (q : Fin 16) (v : Half)
  | queueEn (q : Fin 16) (en : Bool)
  | unmask (v : BitVec 8)
  | timNow (c : Ctx)
  | challenge (c : Ctx)
  | row (w : HostRow)
  deriving DecidableEq, Repr

/-- A request held at a domain's bridge (16 R376): node and domain, the request flit and, for a WRITE, its data; and the staging bank
that its initiator owned when it issued the request (10 R226). -/
structure HeldReq where
  node : Nat
  dom : Nat
  flit : BitVec 128
  data : List (Option (BitVec 8))
  bank : Option Nat := none
  deriving DecidableEq, Repr

/-- A response or notice on its way to its initiator (16 R363): the flit's header, and the data of an RDATA. -/
structure RspFlit where
  flit : BitVec 128
  data : List (BitVec 8)
  deriving DecidableEq, Repr

/-- A snoop's acknowledgement on its way back (16 R363). -/
structure SnoopMsg where
  flit : BitVec 128
  deriving DecidableEq, Repr

/-- A flit that waits at the head of, or in, an input queue of a router, and when it came (2^-16 ns). -/
structure RtrFlit where
  flit : BitVec 128
  since : Nat
  deriving DecidableEq, Repr

/-- A router besides its registers (16 R373, R374): entries of its two banks where they differ from the default table, and of each
output the input served last; when a swap began, and when it last raised NOC_NOROUTE (2^-16 ns). -/
structure RouterSt where
  bank0 : SMap Nat := []
  bank1 : SMap Nat := []
  last : SMap Nat := []
  /-- The input queues, by network × 8 + input, oldest first (16 R369). -/
  inputs : SMap (List RtrFlit) := []
  /-- WRITEs discarded for want of a route whose WDATA are still to come: sender's node, sender, tag (16 R374). -/
  drops : List (Nat × Nat × Nat) := []
  swapAt : Nat := 0
  noRoute : Option Nat := none
  /-- NOC_RECONF_STALL has been raised for the swap in progress. -/
  stalled : Bool := false
  deriving DecidableEq, Repr

/-- A flit that a router has sent on (output): node, router, output port, flit. -/
structure Fwd where
  node : Nat
  router : Nat
  port : Nat
  flit : BitVec 128
  deriving DecidableEq, Repr

/-! ### The whole state -/

/-- Everything the commands act on. -/
structure Block where
  /-- How many free values have been drawn (the model's own field, not the spec's). -/
  freeCtr : Nat
  /-- Device time of the primary in units of 2^-16 ns (01 R11, 18 R411). -/
  now : Nat
  /-- BAR0 registers, by node, register and select (`rkey`). -/
  regs : SMap Word
  /-- RWL writes accepted and not sealed, those sealed by the open commit, and host writes for a node that travel behind the PREPARE it
  has not taken yet (13 R300, R301): by register, the bits written and their values. -/
  shadow : SMap (Word × Word)
  sealedRwl : SMap (Word × Word)
  shadowLate : SMap (Word × Word)
  /-- Select registers of every access context (14 R336). -/
  sels : SMap (BitVec 14)
  /-- Plane rows, 64 data bits and 8 check bits above them, by tile, tile row and plane address (`planeKey`) (02 R33). -/
  planes : SMap (BitVec 72)
  /-- PE registers of each tile row: 0 A, 1 C, 2 M, 3 F, 4 N (`peKey`) (02 "State"). -/
  pes : SMap DWord
  /-- Newt stores: words with check bits above the data; `none` where the Worlith image's word stands (`storeKey`) (03 R86). -/
  stores : SMap (Option (BitVec 137))
  /-- Store words written to every tile of a module by a broadcast or a load; a tile's own word overrides it (03 R83, R84). -/
  bstores : SMap (Option (BitVec 137))
  /-- Millrace's copy of VALID and CLASS: `none` where the Worlith image's stands (03 R70). -/
  dispCopy : SMap (Option (Bool × Nat))
  tiles : SMap Tile
  gangs : SMap GangSt
  /-- Inspections not yet complete, oldest first: context, node, tile, command word (20 R450). -/
  insps : List (Nat × Nat × Nat × Word)
  /-- Fault events not yet taken by the collectors, oldest first. -/
  events : List FaultEv
  /-- The committed node table (15 R356). -/
  nodeTab : List NodeEnt
  /-- Generation of undefined contents, by tile × 4,096 + slot; 0: defined.  Slots 0–1919: a plane address; 2048: scratch and
  A, C, N; 2050: M; 2051: F (02 R30, R38, 03 R72, 06 R161). -/
  undefGen : SMap Nat
  /-- Wheel slots latched, by node, engine and slot (10 R238). -/
  latches : SMap (Option Latch)
  /-- Containers that an A.WOUT of a gang has gathered for a Log port, by (node × 1,024 + gang) × 64 + port, then by
  element × 2^28 + PE index (10 R239, 11 R270). -/
  ports : SMap (SMap (Option Nat))
  /-- Causes 0x06 and 0x07 pending at a task, by `taskKey`: bit 0 FP_TRAP, bit 1 STORE_ERR (08 R181). -/
  pendSync : SMap (BitVec 2)
  /-- MSI-X: vectors unmasked, and the pending bit array (14 R343). -/
  unmasked : SMap Bool
  pba : SMap Bool
  /-- The endpoint is in D3hot (14 R322). -/
  d3hot : Bool
  /-- MSI-X messages sent, oldest first: vectors (output). -/
  msgs : List Nat
  /-- Hardware tasks, by `taskKey` (08). -/
  tasks : SMap Task
  /-- ACUs, by node × 16 + ACU (08). -/
  acus : SMap Acu
  /-- Staging memory: 64-bit words with check bits, by node × 2^24 + word (10). -/
  stg : SMap (BitVec 72)
  /-- Record store: 64-bit words with check bits, by node × 2^34 + word (10). -/
  record : SMap (BitVec 72)
  /-- ACU local RAM: 64-bit words with check bits, by (node × 16 + ACU) × 2^17 + word (08 R197). -/
  lram : SMap (BitVec 72)
  /-- Staging requests that wait for a handover, oldest first (10 R226). -/
  stgHeld : List HeldAcc
  /-- Bytes appended to each ring, by node × 32 + ring, since the trigger it has taken (10 R236). -/
  trigGone : SMap Nat
  /-- Next 64-byte block of each module's record store scrub (10 R233). -/
  recCursor : SMap Nat
  /-- Answers given, oldest first (output). -/
  rsps : List Rsp
  /-- Fault sources, by node × 256 + source (17). -/
  fsrcs : SMap FSrc
  /-- Each module's latest 256 fault records, oldest first (17 R382). -/
  fltRing : SMap (List FRec)
  /-- Quiet windows of each module (17 R390). -/
  quiets : SMap (List Quiet)
  /-- Memory of the host as the module has written it, by address (output). -/
  hostMem : SMap (BitVec 8)
  /-- Log engines, by node (11). -/
  logs : SMap LogSt
  /-- Drive outputs, by node × 256 + output (11). -/
  drvs : SMap DrvSt
  /-- Samples sent to the sinks, oldest first (output). -/
  sent : List Sent
  /-- Sensor lanes, by node × 32 + lane; JESD204C links, by node × 16 + link (11). -/
  lanes : SMap LaneSt
  jlinks : SMap JLinkSt
  /-- Device time (2^-16 ns) of each module's latest SYSREF pulse (11 R247). -/
  sysref : SMap (Option Nat)
  /-- Channels, by node × 16,384 + channel; streams, by node × 64 + stream (11). -/
  chans : SMap ChanSt
  strms : SMap StrmSt
  /-- Outbound stream beats presented to the fabric and not yet taken, by node × 32 + port, oldest first (12 R283). -/
  gkoOut : SMap (List (BitVec 128))
  /-- WSL packets sent, and CONTROL payloads received for firmware by node and lane, oldest first (output). -/
  wslOut : List WslOut
  ctlIn : List (Nat × Nat × List (BitVec 8))
  /-- Raw words delivered to a region, by node × 32 + lane, oldest first (12 R284). -/
  rawIn : SMap (List DWord)
  /-- Raw words that a region has sent on a lane, by node × 32 + lane, oldest first (output; 11 R253). -/
  rawOut : SMap (List DWord)
  /-- Fabric regions, by node × 8 + region; captures and loads in progress, by node (12). -/
  regions : SMap RegionSt
  caps : SMap (Option CapSt)
  loads : SMap (Option LoadSt)
  /-- Inbound stream beats not yet taken by the channel engine, each with its sample period (2^-16 ns), by node × 32 + port,
  oldest first (12 R283). -/
  gkoIn : SMap (List (BitVec 128 × Nat))
  /-- When each long track last raised FABRIC_CONTENTION, by node × 1,024 + track (12 R281). -/
  contAt : SMap (Option Nat)
  /-- What each fabric pin is given, by node × 128 + pin: 0 its hold state, 1 the user logic's level, 2 level 0, 3 level 1,
  4 the level it had when its region stopped (12 R287, R289). -/
  pins : SMap Nat
  /-- Requests delivered to the designs' target windows, oldest first: node, region, request (output, 12 R286). -/
  gkoWin : List (Nat × Nat × MemReq)
  /-- Commands in flight, in the order in which they were taken (14 R326). -/
  flight : List CmdFl
  /-- CIDs of the latest 256 commands completed on each queue, oldest first (14 R335). -/
  doneCids : SMap (List Nat)
  /-- The phase of each queue (14 R325), and the queue served last (14 R329). -/
  phases : SMap Bool
  lastQueue : Nat
  /-- Command sets not yet sealed, and sealed by the open commit (13 R315). -/
  cmdSets : List CmdWrite
  cmdSealed : List CmdWrite
  /-- The commit in progress, explicit boundaries held for later commits, oldest first, each with the command that made it, and
  the latest periodic boundary (ns) (13 R299, R308). -/
  commit : Option CommitSt
  heldBounds : List (Option (Nat × Nat))
  lastBound : Option Nat
  /-- Nodes' parts in the commit (13). -/
  weirs : SMap WeirNode
  /-- READYs taken since the seal, by node × 32 + publication (13 R305). -/
  pubReady : SMap Bool
  /-- The node table that the next commit installs, where Chorus has built another (15 R356). -/
  tabNext : Option ChTab
  snaps : List SnapSt
  /-- The committed node table in full (15 R356); modules admitted that wait for a TOPOLOGY_RESCAN; positions that have held a node
  since the primary booted (15 R355); nodes fenced (15 R357). -/
  chrTab : ChTab
  chrWaiting : List ChMod
  posHeld : List (Int × Int × Nat)
  fenced : List Nat
  /-- The size, in the dimensions x and y, of the latest table that wrapped there; 0 for none (15 R355). -/
  wrapDim : Nat × Nat
  /-- Serial numbers of modules that have been ISOLATED since the latest TOPOLOGY_RESCAN, and of those ISOLATED before one (15 R354). -/
  lostSerials : List Nat
  rescanned : List Nat
  /-- Losses whose gangs have been split: the surviving node, and the node lost (06 R164). -/
  splits : List (Nat × Nat)
  /-- Bunel links, by node × 8 + link (15). -/
  links : SMap LinkSt
  /-- Flits that wait at a pair, by node × 4 + direction, oldest first (15 R348). -/
  pairQ : SMap (List BunelFlit)
  /-- Calls and answers sent, oldest first: node, port (0-23 a lane, 24 + l link l), bytes (output). -/
  callsOut : List (Nat × Nat × List (BitVec 8))
  /-- Device time (2^-16 ns) of each node's latest calls, and since when its offset has been too large (15 R352, R360). -/
  calledAt : SMap (Option Nat)
  unlockAt : SMap (Option Nat)
  /-- The PCI Express link of each module is trained (14 R320, R323). -/
  pcieUp : SMap Bool
  /-- The Governor and the timebase of each module (18); island clocks, by node × 2,048 + island (18 R399). -/
  pows : SMap PowSt
  tims : SMap TimSt
  islands : SMap IslandSt
  /-- TIM_NOW latches in units of 2^-16 ns, by context × 64 + node (18 R411). -/
  timLatch : SMap Nat
  /-- Pulses of PPS_OUT, oldest first (output). -/
  pulses : List Pulse
  /-- The MRAM and the security block of each module; image slots, by node × 16 + slot (19). -/
  nvs : SMap NvsSt
  slots : SMap SlotC
  /-- Requests outstanding; requests held at bridges, oldest first; responses on their way; acknowledgements of snoops (16). -/
  outReqs : List OutReq
  heldReqs : List HeldReq
  /-- Host requests in order of arrival that wait: for a handover that the first of them, a BAR2 request, waits for (01 R19,
  10 R226), or for the primary's wake (14 R321). -/
  tlpQ : List HostTlp
  rspFlits : List RspFlit
  snoopAcks : List SnoopMsg
  /-- Routers, by node × 64 + router; flits they have sent on (output). -/
  routers : SMap RouterSt
  fwds : List Fwd
  /-- The MSI-X table's address and data words, by vector × 4 + word (14 R318). -/
  msixTab : SMap Word
  deriving DecidableEq, Repr

/-- The block right after reset: every sparse map empty, so every register, memory and unit reads as its reset value. -/
def Block.reset : Block where
  freeCtr := 0
  now := 0
  regs := []
  shadow := []
  sealedRwl := []
  shadowLate := []
  sels := []
  planes := []
  pes := []
  stores := []
  bstores := []
  dispCopy := []
  tiles := []
  gangs := []
  insps := []
  events := []
  nodeTab := [⟨0, 0, 0⟩]
  undefGen := []
  latches := []
  ports := []
  pendSync := []
  unmasked := []
  pba := []
  d3hot := false
  msgs := []
  tasks := []
  acus := []
  stg := []
  record := []
  lram := []
  stgHeld := []
  trigGone := []
  recCursor := []
  rsps := []
  fsrcs := []
  fltRing := []
  quiets := []
  hostMem := []
  logs := []
  drvs := []
  sent := []
  lanes := []
  jlinks := []
  sysref := []
  chans := []
  strms := []
  gkoOut := []
  wslOut := []
  ctlIn := []
  rawIn := []
  rawOut := []
  regions := []
  caps := []
  loads := []
  gkoIn := []
  contAt := []
  pins := []
  gkoWin := []
  flight := []
  doneCids := []
  phases := []
  lastQueue := 15
  cmdSets := []
  cmdSealed := []
  commit := none
  heldBounds := []
  lastBound := none
  weirs := []
  pubReady := []
  tabNext := none
  snaps := []
  chrTab := { mods := [{ node := 0 }] }
  chrWaiting := []
  posHeld := []
  wrapDim := (0, 0)
  fenced := []
  lostSerials := []
  rescanned := []
  splits := []
  links := []
  pairQ := []
  callsOut := []
  calledAt := []
  unlockAt := []
  pcieUp := []
  pows := []
  tims := []
  islands := []
  timLatch := []
  pulses := []
  nvs := []
  slots := []
  outReqs := []
  heldReqs := []
  tlpQ := []
  rspFlits := []
  snoopAcks := []
  routers := []
  fwds := []
  msixTab := []

/-- The state of the system: the block, and the queue of commands waiting, first in, first out (the model's own field). -/
structure State extends Block where
  pending : List Instr
  deriving DecidableEq, Repr

/-- The machine right after reset: no command waits. -/
def State.reset : State := { toBlock := Block.reset, pending := [] }

end Sys2Proof.Machine
end

