-- ==== Sys2Proof/Machine/Sources.lean ====
section
/-! DEFINITION. Sys2Proof/Machine/Sources.lean: the fault sources and their default levels (17 R391). -/

namespace Sys2Proof.Machine

namespace SRC
def NEWT_PLANE_CE : Nat := 0x00
def NEWT_PLANE_UE : Nat := 0x01
def NEWT_STORE_CE : Nat := 0x02
def NEWT_STORE_UE : Nat := 0x03
def NEWT_MICRO_ILLEGAL : Nat := 0x04
def NEWT_ATOMIC_OVERRUN : Nat := 0x05
def NEWT_EDGE_STALL : Nat := 0x06
def NEWT_EDGE_MISMATCH : Nat := 0x07
def NEWT_WAIT_STALL : Nat := 0x08
def ILLEGAL_ARRAY_OP : Nat := 0x10
def MILL_GANG_SPLIT : Nat := 0x11
def WINDOW_DOUBLE : Nat := 0x18
def ACU_STORE_ERR : Nat := 0x19
def ACU_RAM_CE : Nat := 0x1A
def ACU_RAM_UE : Nat := 0x1B
def ACU_CACHE_CE : Nat := 0x1C
def ACU_CACHE_UE : Nat := 0x1D
def ACU_RAM_TEST_FAIL : Nat := 0x1E
def STG_NOT_OWNER : Nat := 0x28
def STG_CE : Nat := 0x29
def STG_UE : Nat := 0x2A
def STG_TEST_FAIL : Nat := 0x2B
def REC_CE : Nat := 0x2C
def REC_UE : Nat := 0x2D
def WHL_SLOT_ERROR : Nat := 0x2E
def SP_LINK_DOWN : Nat := 0x38
def SP_LINK_ALIGN : Nat := 0x39
def CH_SAMPLE_LATE : Nat := 0x3A
def CH_SAMPLE_LOST : Nat := 0x3B
def DRV_UNDERRUN : Nat := 0x3C
def DRV_INHIBIT : Nat := 0x3D
def DLM_OUTPUT_LATE : Nat := 0x3E
def LOG_OVERFLOW : Nat := 0x3F
def GKO_RAM_CE : Nat := 0x50
def GKO_RAM_UE : Nat := 0x51
def GKO_CFG_CE : Nat := 0x52
def GKO_CFG_UE : Nat := 0x53
def FABRIC_CONTENTION : Nat := 0x54
def CFG_CONTENTION : Nat := 0x55
def DLM_EPOCH_LATE : Nat := 0x60
def WEIR_VOTE_FAIL : Nat := 0x61
def PARTNER_LOST : Nat := 0x62
def WEIR_SNAP_DROP : Nat := 0x63
def SETTINGS_DIVERGENT : Nat := 0x64
def CMD_QUEUE_ERROR : Nat := 0x65
def NVS_CE : Nat := 0x66
def NVS_UE : Nat := 0x67
def NVS_STORE_FAIL : Nat := 0x68
def SEC_IMAGE_REJECTED : Nat := 0x69
def SEC_UNLOCK_FAIL : Nat := 0x6A
def SPAN_LINK_DOWN : Nat := 0x70
def SPAN_TIME_UNLOCK : Nat := 0x71
def CHR_ADMIT_REFUSED : Nat := 0x72
def NOC_FLIT_UE : Nat := 0x73
def NOC_TIMEOUT : Nat := 0x74
def NOC_NOROUTE : Nat := 0x75
def NOC_RECONF_STALL : Nat := 0x76
def GOV_SAG : Nat := 0x80
def GOV_POWER_CAP : Nat := 0x81
def GOV_TEMP_HIGH : Nat := 0x82
def GOV_TEMP_TRIP : Nat := 0x83
def GOV_RAIL_FAULT : Nat := 0x84
def TIM_REF_LOSS : Nat := 0x85
def TIM_PPS_LOSS : Nat := 0x86
def TIM_HOLDOVER_LIMIT : Nat := 0x87
def FLT_OVERRUN : Nat := 0x90
def DLM_REARM : Nat := 0x91
def DLM_MISS : Nat := 0xC0
end SRC

/-- Default level of each source; a number not listed is reserved (17 R391). -/
def srcLevels : List (Nat × Nat) :=
  [(0x00, 0), (0x01, 3), (0x02, 0), (0x03, 3), (0x04, 3), (0x05, 2), (0x06, 2), (0x07, 2),
   (0x08, 2), (0x10, 2), (0x11, 3), (0x18, 2), (0x19, 2), (0x1A, 0), (0x1B, 3), (0x1C, 0),
   (0x1D, 3), (0x1E, 2), (0x28, 2), (0x29, 0), (0x2A, 3), (0x2B, 2), (0x2C, 0), (0x2D, 3),
   (0x2E, 2), (0x38, 2), (0x39, 2), (0x3A, 2), (0x3B, 2), (0x3C, 2), (0x3D, 1), (0x3E, 2),
   (0x3F, 2), (0x50, 0), (0x51, 2), (0x52, 0), (0x53, 3), (0x54, 2), (0x55, 2), (0x60, 2),
   (0x61, 2), (0x62, 3), (0x63, 2), (0x64, 2), (0x65, 1), (0x66, 0), (0x67, 3), (0x68, 2),
   (0x69, 2), (0x6A, 1), (0x70, 2), (0x71, 2), (0x72, 1), (0x73, 3), (0x74, 2), (0x75, 1),
   (0x76, 2), (0x80, 1), (0x81, 1), (0x82, 2), (0x83, 4), (0x84, 4), (0x85, 2), (0x86, 1),
   (0x87, 2), (0x90, 1), (0x91, 1)]

/-- The default level of a source, if the number is not reserved (17 R391). -/
def srcDefault (src : Nat) : Option Nat :=
  if 0xC0 ≤ src ∧ src ≤ 0xFF then some 2 else (srcLevels.find? fun p => p.1 == src).map (·.2)

/-- May the source be given the RESET reaction? (17 R390, R391) -/
def srcMayReset (src : Nat) : Bool := src == SRC.SP_LINK_DOWN || src == SRC.SP_LINK_ALIGN || src == SRC.SPAN_LINK_DOWN

end Sys2Proof.Machine
end

