-- ==== Sys2Proof/Machine/Ops.lean ====
section
/-! DEFINITION. Sys2Proof/Machine/Ops.lean: the named operations over Block that every family uses: registers and their
fields, plane rows, PE registers, tiles and gangs, raising a fault event, drawing a free value. -/

namespace Sys2Proof.Machine

/-- A command has had its effect on the block; the queue is as it was. -/
def done (s : State) (b : Block) : Host.Outcome State Fault Refusal := .next { s with toBlock := b }


/-! ### Registers -/

/-- Key of a register: node, register set, and `inst`, the address index × 2^14 plus the select value. -/
def rkey (n : Nat) (r : Reg) (inst : Nat) : Nat := (n * 256 + r.ctorIdx) * 2 ^ 25 + inst

/-- The `i`-th register of a numbered family without a select, or the half `i` of a `_LO`/`_HI` pair behind select `sel`. -/
def ix (i : Nat) (sel : Nat := 0) : Nat := i * 2 ^ 14 + sel

/-- Address index and select of a register's `inst`. -/
def ixIdx (inst : Nat) : Nat := inst / 2 ^ 14
def ixSel (inst : Nat) : Nat := inst % 2 ^ 14

/-- The reset word that the fields of a register's table give. -/
def fieldsReset (fs : List FieldSpec) : Nat := fs.foldl (fun w f => w + f.reset % 2 ^ (f.hi + 1 - f.lo) * 2 ^ f.lo) 0

/-- Reset of FLT_SRC_CFG (17 R383, R384, R391, FLT_SRC_CFG). -/
def srcCfgReset (src : Nat) : Nat :=
  match srcDefault src with
  | none => 0
  | some l =>
    let thresh := if l = 0 then 16 else if l = 1 then 8 else 0
    src * 2 ^ 24 + thresh * 2 ^ 16 + 2 * 2 ^ 12 + l * 2 ^ 8 + l * 2 ^ 4 + 1

/-- Reset of FLT_SRC_LEAK (17 R383). -/
def srcLeakReset (src : Nat) : Nat :=
  match srcDefault src with
  | some 0 => 3600000
  | some 1 => 600000
  | _ => 0

/-- Reset of FLT_REACT_l (17 R388). -/
def reactReset (l : Nat) : Nat :=
  match l with
  | 0 => 0x00
  | 1 => 0x01
  | 2 => 0x07
  | 3 => 0x1F
  | _ => 0x3F

/-- The word a register instance holds at reset, from its register table. -/
def resetWord (r : Reg) (inst : Nat) : Word :=
  match r with
  | .FLT_SRC_CFG => BitVec.ofNat 32 (srcCfgReset (ixSel inst))
  | .FLT_SRC_LEAK => BitVec.ofNat 32 (srcLeakReset (ixSel inst))
  | .FLT_SRC_ESC => if (srcDefault (ixSel inst)).isSome then 0xEA602710 else 0
  | .FLT_REACT => BitVec.ofNat 32 (reactReset (ixIdx inst))
  | .CMD_IRQ_MAP => BitVec.ofNat 32 (ixIdx inst)
  | .CMD_FW_VERSION => Config.factoryVersion 0
  | .NOC_DOMAIN => if ixIdx inst = 5 || ixIdx inst = 6 then 0 else 0x80000000
  | r => BitVec.ofNat 32 (fieldsReset (regSpec r).fields)

/-- The word a key of the register file reads as when unlisted. -/
def regDefault (k : Nat) : Word :=
  match allRegs[(k / 2 ^ 25) % 256]? with
  | some r => resetWord r (k % 2 ^ 25)
  | none => 0

/-- Read a register. -/
def rget (s : Block) (n : Nat) (r : Reg) (inst : Nat := 0) : Word := mget regDefault s.regs (rkey n r inst)

/-- Set a register. -/
def rput (s : Block) (n : Nat) (r : Reg) (inst : Nat) (w : Word) : Block :=
  { s with regs := mput regDefault s.regs (rkey n r inst) w }

/-- Bits `[hi:lo]` of a word. -/
def wbits (w : Word) (hi lo : Nat) : Nat := (w.extractLsb' lo (hi + 1 - lo)).toNat

/-- A word with bits `[hi:lo]` set to `v`. -/
def wset (w : Word) (hi lo v : Nat) : Word :=
  let mask : Word := BitVec.ofNat 32 ((2 ^ (hi + 1 - lo) - 1) * 2 ^ lo)
  (w &&& ~~~mask) ||| (BitVec.ofNat 32 (v * 2 ^ lo) &&& mask)

/-- A word with some bits written over it: `e` gives the bits and their values. -/
def overlay (w : Word) (e : Word × Word) : Word := (w &&& ~~~e.1) ||| (e.2 &&& e.1)

/-- One partial write over another. -/
def overTwo (u v : Word × Word) : Word × Word := (u.1 ||| v.1, overlay u.2 v)

/-- The partial write of a register's RWL fields that a word makes, a field with a reserved value left out; `true`: there is one
(13 R300, 00 R7). -/
def rwlTake (r : Reg) (w : Word) : (Word × Word) × Bool :=
  (regSpec r).fields.foldl (fun a f =>
    if f.ty != .rwl then a
    else if legalOk f.legal (wbits w f.hi f.lo) then
      let m := wset 0 f.hi f.lo (2 ^ (f.hi + 1 - f.lo) - 1)
      ((a.1.1 ||| m, a.1.2 ||| (w &&& m)), a.2)
    else (a.1, true)) ((0, 0), false)

/-- Read a field. -/
def fget (s : Block) (n : Nat) (f : Fld) (inst : Nat := 0) : Nat := wbits (rget s n f.reg inst) f.hi f.lo

/-- Read a one-bit field. -/
def fbit (s : Block) (n : Nat) (f : Fld) (inst : Nat := 0) : Bool := fget s n f inst == 1

/-- Set a field. -/
def fput (s : Block) (n : Nat) (f : Fld) (inst : Nat) (v : Nat) : Block :=
  rput s n f.reg inst (wset (rget s n f.reg inst) f.hi f.lo v)

/-- Set a field of a register without index or select. -/
def fset (s : Block) (n : Nat) (f : Fld) (v : Nat) : Block := fput s n f 0 v

/-- Read a `_LO`/`_HI` pair: `i` numbers the pair, `sel` its select. -/
def get64 (s : Block) (n : Nat) (r : Reg) (i : Nat := 0) (sel : Nat := 0) : Nat :=
  (rget s n r (ix (2 * i) sel)).toNat + 2 ^ 32 * (rget s n r (ix (2 * i + 1) sel)).toNat

/-- Set a `_LO`/`_HI` pair. -/
def put64 (s : Block) (n : Nat) (r : Reg) (i sel v : Nat) : Block :=
  rput (rput s n r (ix (2 * i) sel) (BitVec.ofNat 32 v)) n r (ix (2 * i + 1) sel) (BitVec.ofNat 32 (v / 2 ^ 32))

/-- Add 1 to a counting field, stopping at its largest value. -/
def fsat (s : Block) (n : Nat) (f : Fld) (inst : Nat) : Block :=
  fput s n f inst (satInc (fget s n f inst) (2 ^ (f.hi + 1 - f.lo) - 1))

/-- Add 1 to a counting field, modulo its width. -/
def fwrap (s : Block) (n : Nat) (f : Fld) (inst : Nat) : Block :=
  fput s n f inst ((fget s n f inst + 1) % 2 ^ (f.hi + 1 - f.lo))

/-! ### Access contexts (14 R336, 08 R191, 12 R285, 20 R450) -/

/-- Number of an access context. -/
def ctxNum : Ctx → Nat
  | .queue q => q.val
  | .acu n a => 16 + n.val * 16 + a.val
  | .region n r => 1040 + n.val * 8 + r.val

/-- Select `i` of a context: 0 NODESEL, 1 GANGSEL, 2 TILESEL, 3 CHSEL, 4 DRVSEL, 5 PORTSEL, 6 LINKSEL, 7 DLMSEL, 8 FLTSEL,
9 ACUSEL, 10 TASKSEL (14 CMD_SELECT). -/
def selGet (s : Block) (c i : Nat) : Nat := (mget (fun _ => 0) s.sels (c * 16 + i)).toNat

/-- Set select `i` of a context. -/
def selPut (s : Block) (c i v : Nat) : Block :=
  { s with sels := mput (fun _ => 0) s.sels (c * 16 + i) (BitVec.ofNat 14 v) }

/-- The module a context's accesses address: an ACU or a fabric region reaches its own module's registers without NODESEL. -/
def ctxNode (s : Block) : Ctx → Nat
  | .queue q => selGet s q.val 0
  | .acu n _ => n.val
  | .region n _ => n.val

/-- The module that holds a context's own copies of registers: the primary's for a host queue, its own for an ACU or a region
(02 R450). -/
def ctxHome (c : Nat) : Nat := if c < 16 then 0 else if c < 1040 then (c - 16) / 16 else (c - 1040) / 8

/-- The register index that holds a context's own copy of an inspection register (02 R450). -/
def ctxInst (c : Nat) : Nat := ix 1 c

/-! ### Free values and fault events -/

/-- Draw a free value. -/
def drawFree (s : Block) : DWord × Block := (Config.freeValue s.freeCtr, { s with freeCtr := s.freeCtr + 1 })

/-- A detector raises an event of a source; the collector takes it with FAULT_EVENT (17 R378). -/
def raise (s : Block) (n src inst detail : Nat) : Block :=
  { s with events := s.events ++ [⟨n, src, inst, detail, 4⟩] }

/-- An event of a request routed over a pair of Bunel links (17 R390). -/
def raiseVia (s : Block) (n src inst detail via : Nat) : Block :=
  { s with events := s.events ++ [⟨n, src, inst, detail, via⟩] }

/-- An event with an absolute time happens at that time, or now if it has passed (log 1). -/
def atTime (s : Block) (due : Nat) : Block := { s with now := max s.now due }

/-! ### Bunel links (15) -/

def linkKey (n l : Nat) : Nat := n * 8 + l
def link (s : Block) (n l : Nat) : LinkSt := mget (fun _ => {}) s.links (linkKey n l)
def putLink (s : Block) (n l : Nat) (x : LinkSt) : Block := { s with links := mput (fun _ => {}) s.links (linkKey n l) x }

/-- The pair of a module's links that faces a side (15 R345). -/
def pairOfSide : Side → Nat
  | .north => 0
  | .east => 1
  | .south => 2
  | .west => 3

/-- A link of the pair on a side of a module is UP and reaches module `o` (15 R345-R347). -/
def pairUp (s : Block) (n : Nat) (d : Side) (o : Nat) : Bool :=
  [2 * pairOfSide d, 2 * pairOfSide d + 1].any fun l =>
    fget s n F.SPAN_LINK_STATUS_LSTATE l == 2 && (match (link s n l).partner with
      | some (p, _) => p == o
      | none => false)

/-! ### Power (18) -/

/-- The Governor of a module besides its registers. -/
def pow (s : Block) (n : Nat) : PowSt := mget (fun _ => {}) s.pows n
def putPow (s : Block) (n : Nat) (x : PowSt) : Block := { s with pows := mput (fun _ => {}) s.pows n x }

/-- The compute die of a tile (log 44). -/
def dieOf (t : Nat) : Nat := t / 32 / 16 * 2 + t % 32 / 16

/-- The throttle level of a die: the higher of the two rules' levels (18 R401). -/
def sagLevel (s : Block) (n d : Nat) : Nat := mget (fun _ => 0) (pow s n).dieLvl d
def dieLevel (s : Block) (n d : Nat) : Nat := max (sagLevel s n d) (pow s n).capLvl

/-- Millrace withholds delivery to a tile in the first `level` of every 8 windows of 128 ns (18 R400; which windows: log 46). -/
def withheld (s : Block) (n t : Nat) : Bool := decide (s.now / 2 ^ 16 / 128 % 8 < dieLevel s n (dieOf t))

/-- The state of the power ladder (18 R404): 0 RUN, 1 IDLE, 2 FURL, 3 BRAKE, 4 REST. -/
def pState (s : Block) (n : Nat) : Nat := fget s n F.GOV_STATE_STATE

/-- The module is in Run: its islands and engines are clocked. -/
def clocked (s : Block) (n : Nat) : Bool := pState s n == 0 && !(pow s n).off

/-- It does its work in Run: while VIN is below 42 V it only mutes and enters Rest (20 R438). -/
def inRun (s : Block) (n : Nat) : Bool := clocked s n && !(pow s n).vinLow

/-- What a clocked unit of a module does: nothing while the module is not in Run (18 R404). -/
def whenRun (n : Node) (f : Block → Block) (s : Block) : Block := if inRun s n then f s else s

/-- What a drive output does: it mutes while VIN is below 42 V too (20 R438). -/
def whenClocked (n : Node) (f : Block → Block) (s : Block) : Block := if clocked s n then f s else s

/-- The registers of a module answer: in Brake, Rest and Off they do not, nor while VIN is below 42 V (18 R404, 20 R438, log 50). -/
def served (s : Block) (n : Nat) : Bool := decide (pState s n < 3) && !(pow s n).off && !(pow s n).vinLow

/-- A register write that a command makes by itself: it is lost where the module's registers do not answer. -/
def whenServed (n : Node) (f : Block → Block) (s : Block) : Block := if served s n then f s else s

/-! ### The timebase (18 R411, R415) -/

def tim (s : Block) (n : Nat) : TimSt := mget (fun _ => {}) s.tims n
def putTim (s : Block) (n : Nat) (x : TimSt) : Block := { s with tims := mput (fun _ => {}) s.tims n x }

/-- A module's own device time in 2^-16 ns, and in ns (18 R411): the primary's, but for what an exchange with its parent has yet to
correct (15 R360). -/
def devTime (s : Block) (n : Nat) : Nat := ((s.now : Int) + (tim s n).skew).toNat
def devNs (s : Block) (n : Nat) : Nat := devTime s n / 2 ^ 16

/-- An event at a module's own device time `t` (2^-16 ns) happens then, or now if that has passed (log 1). -/
def atDev (s : Block) (n t : Nat) : Block := atTime s ((t : Int) - (tim s n).skew).toNat

/-- The timebase enters holdover, and leaves it (18 R415). -/
def enterHoldover (s : Block) (n : Nat) : Block :=
  let s := fset (fset s n F.TIM_STATUS_HOLDOVER 1) n F.TIM_STATUS_REF_LOCK 0
  if (tim s n).hold.isSome then s else putTim s n { tim s n with hold := some (devTime s n) }

def leaveHoldover (s : Block) (n : Nat) : Block :=
  putTim (fset s n F.TIM_STATUS_HOLDOVER 0) n { tim s n with hold := none, warned := false }

/-! ### Tiles, planes and PE registers (02) -/

/-- A tile's number in the system: node × 1,024 + tile. -/
def tkey (n t : Nat) : Nat := n * 1024 + t

def tile (s : Block) (tk : Nat) : Tile := mget (fun _ => {}) s.tiles tk
def putTile (s : Block) (tk : Nat) (t : Tile) : Block := { s with tiles := mput (fun _ => {}) s.tiles tk t }

/-- Key of a plane row. -/
def planeKey (tk row addr : Nat) : Nat := (tk * 64 + row) * 2048 + addr

/-- The generation of a slot of a tile: a plane address; 2048 for A, C and N; 2050 for M; 2051 for F. It is 0 while the slot holds
defined contents. -/
def genOf (gens : SMap Nat) (tk slot : Nat) : Nat := mget (fun _ => 0) gens (tk * 4096 + slot)

/-- The slot of a plane address: itself. -/
def addrSlot (addr : Nat) : Nat := addr

/-- What an unlisted plane row reads as: 0 with valid check bits, as boot leaves it (02 R31), and a free value with valid check
bits where its contents have become undefined (log 2). -/
def planeDefault (gens : SMap Nat) (k : Nat) : BitVec 72 :=
  match genOf gens (k / 2048 / 64) (addrSlot (k % 2048)) with
  | 0 => 0
  | g => BitVec.ofNat 72 (freshWord code64 (Config.freeRow g k).toNat)

/-- A plane row as stored: 64 data bits, check bits above them. -/
def rowGet (s : Block) (tk row addr : Nat) : Nat :=
  (mget (planeDefault s.undefGen) s.planes (planeKey tk row addr)).toNat

/-- Store a plane row with the check bits given. -/
def rowPutRaw (s : Block) (tk row addr w : Nat) : Block :=
  { s with planes := mput (planeDefault s.undefGen) s.planes (planeKey tk row addr) (BitVec.ofNat 72 w) }

/-- Store 64 data bits with fresh check bits (02 R33, R35). -/
def rowPut (s : Block) (tk row addr d : Nat) : Block := rowPutRaw s tk row addr (freshWord code64 d)

/-- The data of a plane row after correction (02 R34). -/
def rowData (s : Block) (tk row addr : Nat) : Nat := (decodeStored code64 (rowGet s tk row addr)).data

/-- PE registers (02 R26): 0 A, 1 C, 2 M, 3 F, 4 N, the numbers of an inspection of KIND 2 use the same order. -/
def peKey (tk row reg : Nat) : Nat := (tk * 64 + row) * 8 + reg

/-- The slot of a PE register. -/
def peSlot (reg : Nat) : Nat := if reg = 2 || reg = 3 then 2048 + reg else 2048

/-- Boot leaves M at 1 in every PE and the others at 0 (02 R31); undefined contents are free values (log 2). -/
def peDefault (gens : SMap Nat) (k : Nat) : DWord :=
  match genOf gens (k / 8 / 64) (peSlot (k % 8)) with
  | 0 => if k % 8 = 2 then BitVec.allOnes 64 else 0
  | g => Config.freePe g k

def peGet (s : Block) (tk row reg : Nat) : DWord := mget (peDefault s.undefGen) s.pes (peKey tk row reg)
def pePut (s : Block) (tk row reg : Nat) (v : DWord) : Block :=
  { s with pes := mput (peDefault s.undefGen) s.pes (peKey tk row reg) v }

/-- The contents of the slots `lo` to `hi - 1` of a tile become undefined: a new generation of free values (log 2). -/
def undefineFrom (s : Block) (tk lo hi : Nat) : Block :=
  { s with
    freeCtr := s.freeCtr + 1
    undefGen := (List.range (hi - lo)).foldl (fun gens i => mput (fun _ => 0) gens (tk * 4096 + lo + i) (s.freeCtr + 1)) s.undefGen
    planes := s.planes.filter fun p => !(p.1 / 2048 / 64 == tk && lo ≤ addrSlot (p.1 % 2048) && addrSlot (p.1 % 2048) < hi)
    pes := s.pes.filter fun p => !(p.1 / 8 / 64 == tk && lo ≤ peSlot (p.1 % 8) && peSlot (p.1 % 8) < hi) }

/-- The contents of a slot of a tile become undefined. -/
def undefine (s : Block) (tk slot : Nat) : Block := undefineFrom s tk slot (slot + 1)

/-- The tile's scratch rows and its A, C and N become undefined (02 R30, 03 R72). -/
def clobber (s : Block) (tk : Nat) : Block := undefineFrom s tk 1920 2049

/-- Boot and every wake from Brake, Rest or Off clear a module's planes and PE registers (02 R31). -/
def clearPlanes (s : Block) (n : Nat) : Block :=
  { s with
    undefGen := mdrop s.undefGen (n * 1024 * 4096) ((n + 1) * 1024 * 4096)
    planes := mdrop s.planes (planeKey (n * 1024) 0 0) (planeKey ((n + 1) * 1024) 0 0)
    pes := mdrop s.pes (peKey (n * 1024) 0 0) (peKey ((n + 1) * 1024) 0 0) }

/-- Numbers of the PE registers. -/
def peA : Nat := 0
def peC : Nat := 1
def peM : Nat := 2
def peF : Nat := 3
def peN : Nat := 4

/-! ### Gangs (06) -/

/-- A gang's number in the system: node × 16 + gang. -/
def gkey (n g : Nat) : Nat := n * 16 + g

def gang (s : Block) (n g : Nat) : GangSt := mget (fun _ => {}) s.gangs (gkey n g)
def putGang (s : Block) (n g : Nat) (x : GangSt) : Block :=
  { s with gangs := mput (fun _ => {}) s.gangs (gkey n g) x }

/-! ### The device-wide enable rule (01 R19) -/

/-- A write of an EN field: 1 in OFF turns the unit ON, 0 in ON starts draining; 1 while DRAINING is ignored. STATE is 0 OFF,
1 DRAINING, 2 ON. -/
def enWrite (s : Block) (n : Nat) (en st : Fld) (inst : Nat) (v : Bool) : Block :=
  let now := fget s n st inst
  if v then (if now = 0 then fput (fput s n en inst 1) n st inst 2 else s)
  else if now = 2 then fput (fput s n en inst 0) n st inst 1
  else s

/-- A draining unit is done: STATE reads OFF. -/
def drainDone (s : Block) (n : Nat) (st : Fld) (inst : Nat) : Block :=
  if fget s n st inst = 1 then fput s n st inst 0 else s

end Sys2Proof.Machine
end

