-- ==== Sys2Proof/Machine/Operands.lean ====
section
/-! DEFINITION. Sys2Proof/Machine/Operands.lean: every operand form of the array's macro-ops: the 128-bit word's fields
(04 R91), formats (R96), extents (R93), and the checks Millrace makes as it accepts a macro-op (R120, R121); and the node
table's geometry, which gang and tile operands go through (06 R147). -/

namespace Sys2Proof.Machine

/-! ### The macro-op word (04 R91) -/

/-- The fields of a macro-op word. -/
structure MopF where
  opc : Nat
  msel : Nat
  rnd : Nat
  fupd : Nat
  fmt : Nat
  base0 : Nat
  wid0 : Nat
  base1 : Nat
  wid1 : Nat
  base2 : Nat
  wid2 : Nat
  maddr : Nat
  rsvd : Nat
  prm : Nat
  cnt : Nat
  deriving DecidableEq, Repr

/-- The fields of a word (04 R91). -/
def mopFields (word : BitVec 128) : MopF :=
  let w := word.toNat
  { opc := bitsOf w 7 0, msel := bitsOf w 10 8, rnd := bitsOf w 13 11, fupd := bitsOf w 15 14, fmt := bitsOf w 31 16,
    base0 := bitsOf w 42 32, wid0 := bitsOf w 48 43, base1 := bitsOf w 59 49, wid1 := bitsOf w 65 60,
    base2 := bitsOf w 76 66, wid2 := bitsOf w 82 77, maddr := bitsOf w 93 83, rsvd := bitsOf w 95 94,
    prm := bitsOf w 111 96, cnt := bitsOf w 127 112 }

/-- The word with the fields given; each field is cut to its width (04 R91). -/
def mopWord (f : MopF) : BitVec 128 :=
  BitVec.ofNat 128
    (f.opc % 2 ^ 8 + f.msel % 2 ^ 3 * 2 ^ 8 + f.rnd % 2 ^ 3 * 2 ^ 11 + f.fupd % 2 ^ 2 * 2 ^ 14 + f.fmt % 2 ^ 16 * 2 ^ 16
      + f.base0 % 2 ^ 11 * 2 ^ 32 + f.wid0 % 2 ^ 6 * 2 ^ 43 + f.base1 % 2 ^ 11 * 2 ^ 49 + f.wid1 % 2 ^ 6 * 2 ^ 60
      + f.base2 % 2 ^ 11 * 2 ^ 66 + f.wid2 % 2 ^ 6 * 2 ^ 77 + f.maddr % 2 ^ 11 * 2 ^ 83 + f.rsvd % 2 ^ 2 * 2 ^ 94
      + f.prm % 2 ^ 16 * 2 ^ 96 + f.cnt % 2 ^ 16 * 2 ^ 112)

/-- FMT.KIND, FRAC and EXP of a format descriptor (04 R96). -/
def fmtKind (fmt : Nat) : Nat := bitsOf fmt 1 0
def fmtFrac (fmt : Nat) : Nat := bitsOf fmt 7 2
def fmtExp (fmt : Nat) : Nat := bitsOf fmt 11 8
/-- The FLOAT format a descriptor names. -/
def fmtFloat (fmt : Nat) : Fmt := ⟨fmtExp fmt, fmtFrac fmt⟩
/-- Does the descriptor read its operands as two's complement? -/
def fmtSigned (fmt : Nat) : Bool := fmtKind fmt == 1

/-- FL: 1 when FMT.KIND is FLOAT (04 R92). -/
def mopFl (f : MopF) : Nat := if fmtKind f.fmt = 2 then 1 else 0
/-- The routine number (04 R92). -/
def mopRoutine (f : MopF) : Nat := 2 * f.opc + mopFl f

/-- Class of each routine of the Worlith image; `none` where its dispatch entry has VALID = 0 (04 R105, 03 R69). -/
def worlithClass (routine : Nat) : Option Nat :=
  let opc := routine / 2
  if routine % 2 = 0 then
    if opc ≤ 0x07 || (0x10 ≤ opc && opc ≤ 0x13) || (0x19 ≤ opc && opc ≤ 0x1B) || (0x20 ≤ opc && opc ≤ 0x24)
        || (0x2A ≤ opc && opc ≤ 0x2E) || (0x30 ≤ opc && opc ≤ 0x32) || (0x40 ≤ opc && opc ≤ 0x42) then some 0
    else if (0x14 ≤ opc && opc ≤ 0x17) || opc = 0x1C || (0x25 ≤ opc && opc ≤ 0x29) || opc = 0x43 then some 1
    else if opc = 0x33 || (0x50 ≤ opc && opc ≤ 0x54) then some 2
    else none
  else if opc = 0x12 || opc = 0x13 || (0x19 ≤ opc && opc ≤ 0x1B) || opc = 0x41 || opc = 0x42 then some 0
  else if opc = 0x10 || opc = 0x11 || (0x14 ≤ opc && opc ≤ 0x16) || opc = 0x18 || opc = 0x1C then some 1
  else if opc = 0x52 then some 2
  else none

/-- VALID and CLASS of Millrace's copy of a node's dispatch table (03 R70). -/
def dispEntry (s : Block) (n routine : Nat) : Option Nat :=
  match mget (fun _ => none) s.dispCopy (n * 512 + routine) with
  | some (true, c) => if c = 3 then none else some c
  | some (false, _) => none
  | none => worlithClass routine

/-- Which operands an op uses: d, a, b (04 R105 operand column; R109 for A.SETM, R112 for A.CROAK and A.COUNT). -/
def mopUses (f : MopF) : Bool × Bool × Bool :=
  let o := f.opc
  if o ≤ 0x03 then (false, false, false)
  else if o = 0x04 || o = 0x07 || o = 0x31 || o = 0x53 then (true, false, false)
  else if o = 0x05 || o = 0x54 || o = 0x41 || o = 0x42 then (false, true, false)
  else if o = 0x06 then (false, decide (f.prm % 8 ≤ 3) && !f.prm.testBit 3, false)
  else if o = 0x40 || o = 0x43 then (false, !f.prm.testBit 0, false)
  else if o = 0x12 || o = 0x13 || o = 0x18 || o = 0x1C || o = 0x23 || (0x2A ≤ o && o ≤ 0x2E) || o = 0x30 || o = 0x33
      || o = 0x50 || o = 0x51 then (true, true, false)
  else (true, true, true)

/-- Does the op use MADDR? (04 R98, R115) -/
def mopUsesMaddr (f : MopF) : Bool := f.msel == 1 || f.msel == 2 || f.opc == 0x52

/-- The PRM bits an op reads; the others are reserved (04 R95 and the parameter text of each op). -/
def mopPrmMask (o : Nat) : Nat :=
  if o = 0x06 || o = 0x1B then 0x000F
  else if o = 0x1C || (0x2A ≤ o && o ≤ 0x2E) || o = 0x31 then 0xFFFF
  else if o = 0x24 || o = 0x53 || o = 0x54 then 0x00FF
  else if o = 0x33 then 0x3FFF
  else if o = 0x40 || o = 0x43 then 0x0001
  else if o = 0x51 then 0x0007
  else if o = 0x52 then 0x003F
  else 0

/-- Does the op have a CNT? Every vector op has (04 R91, R113), A.SCAN too, whose effect does not depend on its value (log 62). -/
def mopUsesCnt (o : Nat) : Bool := o == 0x31 || (decide (0x50 ≤ o) && decide (o ≤ 0x54))

/-- Ops that read no number format and require FMT = 0 (04 R95). -/
def mopNoFmt (o : Nat) : Bool :=
  decide (o ≤ 0x07) || (decide (0x20 ≤ o) && decide (o ≤ 0x2E)) || o == 0x32 || o == 0x33 || o == 0x40 || o == 0x43
    || o == 0x50 || o == 0x53 || o == 0x54

/-- Does the op round, so that RND may be other than 0? (04 R101, R105) -/
def mopRounds (f : MopF) : Bool :=
  f.opc == 0x14 || f.opc == 0x15 || f.opc == 0x16 || f.opc == 0x18 || f.opc == 0x1C || f.opc == 0x52
    || ((f.opc == 0x10 || f.opc == 0x11) && mopFl f == 1)

/-- Has the op a condition, so that FUPD may be other than 0? (04 R100, R105) -/
def mopHasCond (f : MopF) : Bool :=
  let o := f.opc
  if mopFl f = 1 then (decide (0x10 ≤ o) && decide (o ≤ 0x16)) || (decide (0x18 ≤ o) && decide (o ≤ 0x1C))
  else (decide (0x10 ≤ o) && decide (o ≤ 0x17)) || o == 0x1B || o == 0x1C || o == 0x30

/-- Extent of operand `k` as base and number of plane addresses (04 R93). -/
def mopExtent (f : MopF) (k : Nat) : Nat × Nat :=
  let base := if k = 0 then f.base0 else if k = 1 then f.base1 else f.base2
  let wid := (if k = 0 then f.wid0 else if k = 1 then f.wid1 else f.wid2) + 1
  if f.opc = 0x50 || f.opc = 0x53 || f.opc = 0x54 then (base, f.cnt * wid)
  else if f.opc = 0x52 then (base, if k = 2 then 2 * (f.wid0 + 1) else 2 * f.cnt * (f.wid0 + 1))
  else (base, wid)

/-- Do two extents overlap? -/
def extOverlap (x y : Nat × Nat) : Bool := decide (x.1 < y.1 + y.2) && decide (y.1 < x.1 + x.2)

/-- First scratch address (02 R30). -/
def scratchBase : Nat := 1920

/-- A format breaks R97 for the operand widths given. -/
def fmtBad (fmt : Nat) (widths : List Nat) : Bool :=
  if fmtKind fmt = 2 then
    !(decide (3 ≤ fmtExp fmt) && decide (fmtExp fmt ≤ 11) && decide (2 ≤ fmtFrac fmt) && decide (fmtFrac fmt ≤ 52))
      || widths.any fun w => decide (w ≠ 1 + fmtExp fmt + fmtFrac fmt)
  else fmtExp fmt != 0 || widths.any fun w => decide (w < fmtFrac fmt)

/-- Is the opcode one of the user opcodes? (04 R121, R122) -/
def mopUser (f : MopF) : Bool := decide (0xC0 ≤ f.opc)

/-- Reason 2, RESERVED_FIELD (04 R120). A.WOUT uses operand 1 alone (04 R105), so its WID0 must be 0 and WID1 gives the width of its
elements, although R92 and R113's cost speak of WID0 (DESIGN CHOICE, log 62). Of A.SETM with a reserved function, PRM[3] = 1 is left to
BAD_PARAM (DESIGN CHOICE, log 62). A user opcode has no condition and is not marked as rounding, so it takes
FUPD = 0 and RND = 0 (R100, R101, R105). -/
def mopReserved (f : MopF) (cls : Nat) : Bool :=
  let u := mopUses f
  f.rsvd != 0 || decide (5 < f.msel) || decide (5 < f.rnd) || f.fupd == 3 || fmtKind f.fmt == 3 || f.fmt / 2 ^ 12 != 0
    || (f.msel != 0 && (cls != 0 || f.opc == 0x06 || f.opc == 0x07))
    || (mopUser f && (f.rnd != 0 || f.fupd != 0))
    || (!mopUser f &&
      ((mopNoFmt f.opc && f.fmt != 0)
        || (!u.1 && (f.base0 != 0 || f.wid0 != 0))
        || (!u.2.1 && (f.base1 != 0 || f.wid1 != 0))
        || (!u.2.2 && (f.base2 != 0 || f.wid2 != 0))
        || (!mopUsesMaddr f && f.maddr != 0)
        || Nat.land f.prm (0xFFFF - mopPrmMask f.opc) != 0
        || (!mopUsesCnt f.opc && f.cnt != 0)
        || (f.rnd != 0 && !mopRounds f)
        || (f.fupd != 0 && !mopHasCond f)
        || (f.opc == 0x06 && (f.prm % 8 == 4 || f.prm % 8 == 5) && f.prm.testBit 3)
        || (f.opc == 0x1C && (fmtKind f.prm == 3 || f.prm / 2 ^ 12 != 0))))

/-- Reason 3, BAD_FORMAT (04 R97, R108, R114, R121).  Of a user opcode the format is held against all three widths, whether its
routine uses them or not (DESIGN CHOICE, log 62). -/
def mopBadFormat (f : MopF) : Bool :=
  if mopUser f then f.fmt != 0 && fmtBad f.fmt [f.wid0 + 1, f.wid1 + 1, f.wid2 + 1]
  else if mopNoFmt f.opc then false
  else if f.opc = 0x51 then f.fmt != 0 && f.fmt != 1
  else if (f.opc = 0x30 || f.opc = 0x31) && fmtFrac f.fmt ≠ 0 then true
  else
    let u := mopUses f
    let own0 := f.opc == 0x1B || f.opc == 0x1C
    let ws := (if u.1 && !own0 then [f.wid0 + 1] else []) ++ (if u.2.1 then [f.wid1 + 1] else [])
      ++ (if u.2.2 then [f.wid2 + 1] else [])
    fmtBad f.fmt ws || (f.opc == 0x1C && fmtBad f.prm [f.wid0 + 1])

/-- Reason 4, BAD_RANGE (04 R93, R121). -/
def mopBadRange (f : MopF) : Bool :=
  let u := if mopUser f then (true, true, true) else mopUses f
  let out := fun (k : Nat) => decide (scratchBase < (mopExtent f k).1 + (mopExtent f k).2)
  (u.1 && out 0) || (u.2.1 && out 1) || (u.2.2 && out 2) || (mopUsesMaddr f && decide (scratchBase ≤ f.maddr))

/-- Reason 5, BAD_OVERLAP (04 R94). -/
def mopBadOverlap (f : MopF) : Bool :=
  let u := mopUses f
  let d := mopExtent f 0
  let a := mopExtent f 1
  let b := mopExtent f 2
  if !u.1 || f.opc == 0x50 then false
  else if f.opc = 0x51 then extOverlap d a
  else if f.opc = 0x52 then extOverlap d b || (d.1 != a.1 && extOverlap d a)
  else (u.2.1 && extOverlap d a && d.1 != a.1) || (u.2.2 && extOverlap d b && d.1 != b.1)

/-- Reason 6, BAD_PARAM (04 R120): `gw` and `gh` are the gang's PE columns and rows. -/
def mopBadParam (f : MopF) (gw gh : Nat) : Bool :=
  let o := f.opc
  let u := mopUses f
  ((o == 0x04 || o == 0x07) && f.wid0 != 0)
    || ((o == 0x05 || o == 0x06 || o == 0x40 || o == 0x43) && u.2.1 && f.wid1 != 0)
    || (o == 0x06 && decide (5 < f.prm % 8))
    || (o == 0x1B && (f.wid0 != 0 || decide (7 < f.prm % 16) || (decide (5 < f.prm % 16) && mopFl f == 0)))
    || ((o == 0x33 || o == 0x50 || o == 0x51) && f.wid1 != f.wid0)
    || (o == 0x33 && f.prm % 2 ^ 12 == 0)
    || (decide (0x50 ≤ o) && decide (o ≤ 0x54) && f.cnt == 0)
    || (o == 0x52 &&
      (decide (13 < f.prm % 16) || decide (31 < f.wid0) || f.wid1 != f.wid0 || f.wid2 != f.wid0
        || (if f.prm.testBit 4 then gh else gw) % 2 ^ (f.prm % 16 + 1) != 0))

/-! ### The system grid (06 "Forming a gang", 15 R349) -/

/-- The module at a grid position, by the committed node table. -/
def nodeAt (s : Block) (mx my : Nat) : Option Nat :=
  (s.nodeTab.find? fun e => e.mx == mx && e.my == my).map (·.node)

/-- A module's entry in the committed node table. -/
def nodeEnt (s : Block) (n : Nat) : Option NodeEnt := s.nodeTab.find? fun e => e.node == n

/-- Is the node number in the committed node table? (01 R16) -/
def nodePresent (s : Block) (n : Nat) : Bool := (nodeEnt s n).isSome

/-- MX and MY of a table (15 R349). -/
def ChTab.mxDim (t : ChTab) : Nat := t.mods.foldl (fun k m => max k (m.mx + 1)) 1
def ChTab.myDim (t : ChTab) : Nat := t.mods.foldl (fun k m => max k (m.my + 1)) 1

/-- The tile at system tile coordinates (06 R147). -/
def sysTile (s : Block) (TX TY : Nat) : Option Nat :=
  (nodeAt s (TX / 32) (TY / 32)).map fun n => tkey n (32 * (TY % 32) + TX % 32)

/-- System tile coordinates of a tile. -/
def sysPos (s : Block) (tk : Nat) : Option (Nat × Nat) :=
  (nodeEnt s (tk / 1024)).map fun e => (32 * e.mx + tk % 1024 % 32, 32 * e.my + tk % 1024 / 32)

/-- A gang's committed rectangle TX0, TY0, TX1, TY1 (06 MILL_GANG_SHAPE). -/
structure Rect where
  tx0 : Nat
  ty0 : Nat
  tx1 : Nat
  ty1 : Nat
  deriving DecidableEq, Repr

def shapeRect (w : Word) : Rect := ⟨wbits w 7 0, wbits w 15 8, wbits w 23 16, wbits w 31 24⟩

def gangRect (s : Block) (n g : Nat) : Rect := shapeRect (rget s n .MILL_GANG_SHAPE g)

/-- Is the gang formed? -/
def gangFormed (s : Block) (n g : Nat) : Bool := fbit s n F.MILL_GANG_FORM_FORMED g

/-- The numbers from `a` to `b` inclusive. -/
def fromTo (a b : Nat) : List Nat := (List.range (b + 1 - a)).map (a + ·)

/-- The tiles of a rectangle in ascending system tile order, by TY and then by TX (06 R154); `none` where no module is. -/
def rectTiles (s : Block) (r : Rect) : List (Option Nat) :=
  (fromTo r.ty0 r.ty1).flatMap fun y => (fromTo r.tx0 r.tx1).map fun x => sysTile s x y

/-- The tiles of a formed gang (06 R147). -/
def gangTiles (s : Block) (n g : Nat) : List Nat :=
  if gangFormed s n g then (rectTiles s (gangRect s n g)).filterMap id else []

/-- PE columns and rows of a gang. -/
def gangWidth (s : Block) (n g : Nat) : Nat := 64 * ((gangRect s n g).tx1 + 1 - (gangRect s n g).tx0)
def gangHeight (s : Block) (n g : Nat) : Nat := 64 * ((gangRect s n g).ty1 + 1 - (gangRect s n g).ty0)

/-- Is the position inside the rectangle? -/
def inRect (r : Rect) (x y : Nat) : Bool :=
  decide (r.tx0 ≤ x) && decide (x ≤ r.tx1) && decide (r.ty0 ≤ y) && decide (y ≤ r.ty1)

/-- Every gang of the system: node and number, in ascending order (06 R148). -/
def allGangs : List (Nat × Nat) :=
  (List.range 64).flatMap fun n => (List.range 16).map fun g => (n, g)

/-- The gangs of the modules in the node table. -/
def presentGangs (s : Block) : List (Nat × Nat) :=
  s.nodeTab.flatMap fun e => (List.range 16).map fun g => (e.node, g)

/-- The gang a tile belongs to, by the committed shapes (06 MILL_TILE_OWNER). -/
def tileOwner (s : Block) (tk : Nat) : Option (Nat × Nat) :=
  match sysPos s tk with
  | none => none
  | some (x, y) => (presentGangs s).find? fun p => gangFormed s p.1 p.2 && inRect (gangRect s p.1 p.2) x y

/-- A CONT side must lie on an edge of its module's array (02 R46); `side` 0 north, 1 south, 2 east, 3 west. -/
def contAllowed (r : Rect) : Side → Bool
  | .north => r.ty0 % 32 == 0
  | .south => r.ty1 % 32 == 31
  | .east => r.tx1 % 32 == 31
  | .west => r.tx0 % 32 == 0

/-- The edge mode of a side. -/
def edgeMode (e : Edges) : Side → Nat
  | .north => e.north
  | .south => e.south
  | .east => e.east
  | .west => e.west

/-- The committed edge modes of MILL_EDGE (02 R44). -/
def edgesOf (w : Word) : Edges :=
  { north := wbits w 1 0, east := wbits w 3 2, south := wbits w 5 4, west := wbits w 7 6 }

/-- Reason 7, BAD_EDGE: a CONT side not on a module edge at an A.MOVN (02 R46, 04 R120). -/
def mopBadEdge (f : MopF) (e : Edges) (r : Rect) : Bool :=
  f.opc == 0x33 && [Side.north, .south, .east, .west].any fun sd => edgeMode e sd == 2 && !contAllowed r sd

/-- The lowest applicable reason for which Millrace rejects a macro-op, 0 if none (04 R120, R121). -/
def mopReason (f : MopF) (cls : Option Nat) (e : Edges) (r : Rect) : Nat :=
  let gw := 64 * (r.tx1 + 1 - r.tx0)
  let gh := 64 * (r.ty1 + 1 - r.ty0)
  match cls with
  | none => 1
  | some c =>
    if mopReserved f c then 2
    else if mopBadFormat f then 3
    else if mopBadRange f then 4
    else if mopUser f then 0
    else if mopBadOverlap f then 5
    else if mopBadParam f gw gh then 6
    else if mopBadEdge f e r then 7
    else 0

/-- Is the op a float op for flags, traps and barriers: FL = 1, or an A.CVT with a FLOAT destination? (05 R126, R142) -/
def mopFloat (f : MopF) : Bool :=
  (mopFl f == 1 && !(f.opc == 0x41 || f.opc == 0x42)) || (f.opc == 0x1C && fmtKind f.prm == 2)

/-- Is the op one that delivers a Croak value? (06 R157) -/
def mopCroaks (f : MopF) : Bool := decide (0x40 ≤ f.opc) && decide (f.opc ≤ 0x43)

/-- A snapshot holds a tile before macro-op `num` of its gang: the tile's node has its image still to write (13 R313). -/
def snapHolds (s : Block) (tk n g num : Nat) : Bool :=
  s.snaps.any fun x => x.imgs.any fun i =>
    i.dn == n && i.g == g && i.node == tk / 1024 && (match i.k with | some k => decide (k < num) | none => false)

end Sys2Proof.Machine
end

