-- ==== Sys2Proof/Machine/AcuIsa.lean ====
section
/-! DEFINITION. Sys2Proof/Machine/AcuIsa.lean: the ACU instruction words and what they encode (09 R204-R208, R214-R218, R220,
R224). -/

namespace Sys2Proof.Machine

/-- The instructions of an ACU. -/
inductive AOp where
  | add | addc | sub | subc | neg | and | or | xor | andn | shl | shr | sar | rol | ror | mul | mulu | div | divu | dadd | dsub | dadj
  | addi | andi | ori | xori | lui | cmpi | shli | shri | sari | roli | rori
  | ldb | ldbu | ldh | ldhu | ld | ldd | lwg | stb | sth | st | std | swg
  | bcond | call | jrl
  | fadd | fsub | fmul | fmadd | fdiv | fsqrt | fmin | fmax | fneg | fabs | fcvtF | fcvtI | fcvtU | fcvtFi | fcvtFu | fcmp
  | millIss | millRes | millWait | millYield | millResume
  | wadv | wrev | reti | trap | wait | sync | isync | fbar | mfsr | mtsr
  deriving DecidableEq, Repr

/-! ### Fields (09 R204, R205) -/

def aOp (w : Word) : Nat := wbits w 31 26
def aRd (w : Word) : Nat := wbits w 25 21
def aRa (w : Word) : Nat := wbits w 20 16
def aRb (w : Word) : Nat := wbits w 15 11
def aSf (w : Word) : Bool := w.getLsbD 10
def aCi (w : Word) : Bool := w.getLsbD 6
def aFunc (w : Word) : Nat := wbits w 5 0
def aImm (w : Word) : Nat := wbits w 15 0
def aFop (w : Word) : Nat := wbits w 6 0
def aD (w : Word) : Bool := w.getLsbD 7
def aRm (w : Word) : Nat := wbits w 10 8
def aCond (w : Word) : Nat := wbits w 25 22

/-- IMM sign-extended to 32 bits. -/
def aImmS (w : Word) : Nat := wrapTo 32 (signedOf 16 (aImm w))
/-- 4 × DISP of the B format, and of the J format, modulo 2^32. -/
def aDispB (w : Word) : Nat := wrapTo 32 (4 * signedOf 22 (wbits w 21 0))
def aDispJ (w : Word) : Nat := wrapTo 32 (4 * signedOf 26 (wbits w 25 0))

/-- A register code of R205's table. -/
def codeOk (c : Nat) : Bool := decide (c < 8) || decide (16 ≤ c)
/-- The even code of a pair. -/
def pairOk (c : Nat) : Bool := codeOk c && c % 2 == 0
/-- A code of a value of the format that `d` selects. -/
def fpOk (d : Bool) (c : Nat) : Bool := if d then pairOk c else codeOk c

/-- Give the instruction if its fields are as they must be. -/
def okIf (b : Bool) (o : AOp) : Option AOp := if b then some o else none

/-! ### The groups -/

/-- OP 0x01 (09 R208): bits [9:7] are 0; SF and CI only where they are accepted. -/
def decInt (w : Word) : Option AOp :=
  let rd := codeOk (aRd w)
  let ra := codeOk (aRa w)
  let rb := codeOk (aRb w)
  let z := wbits w 9 7 == 0
  let sf := rd && ra && rb && z && !aCi w
  let md := (aRd w == 0) && ra && rb && z && !aCi w && !aSf w
  let dec := rd && ra && rb && z && !aSf w
  match aFunc w with
  | 0x00 => okIf sf .add
  | 0x01 => okIf sf .addc
  | 0x02 => okIf sf .sub
  | 0x03 => okIf sf .subc
  | 0x04 => okIf (sf && !aSf w && aRb w == 0) .neg
  | 0x05 => okIf sf .and
  | 0x06 => okIf sf .or
  | 0x07 => okIf sf .xor
  | 0x08 => okIf sf .andn
  | 0x09 => okIf sf .shl
  | 0x0A => okIf sf .shr
  | 0x0B => okIf sf .sar
  | 0x0C => okIf sf .rol
  | 0x0D => okIf sf .ror
  | 0x10 => okIf md .mul
  | 0x11 => okIf md .mulu
  | 0x12 => okIf md .div
  | 0x13 => okIf md .divu
  | 0x14 => okIf dec .dadd
  | 0x15 => okIf dec .dsub
  | 0x16 => okIf dec .dadj
  | _ => none

/-- OP 0x28 (09 R220): RM rounds, or is 0; with D = 1 binary64 values lie in even pairs. -/
def decFp (w : Word) : Option AOp :=
  let d := aD w
  let rd := fpOk d (aRd w)
  let ra := fpOk d (aRa w)
  let rb := fpOk d (aRb w)
  let rnd := decide (aRm w ≤ 5)
  let fix := aRm w == 0
  let one := aRb w == 0
  match aFop w with
  | 0x00 => okIf (rd && ra && rb && rnd) .fadd
  | 0x01 => okIf (rd && ra && rb && rnd) .fsub
  | 0x02 => okIf (rd && ra && rb && rnd) .fmul
  | 0x03 => okIf (rd && ra && rb && rnd) .fmadd
  | 0x04 => okIf (rd && ra && rb && rnd) .fdiv
  | 0x05 => okIf (rd && ra && one && rnd) .fsqrt
  | 0x06 => okIf (rd && ra && rb && fix) .fmin
  | 0x07 => okIf (rd && ra && rb && fix) .fmax
  | 0x08 => okIf (rd && ra && one && fix) .fneg
  | 0x09 => okIf (rd && ra && one && fix) .fabs
  | 0x0A => okIf (fpOk (!d) (aRd w) && ra && one && rnd) .fcvtF
  | 0x0B => okIf (codeOk (aRd w) && ra && one && rnd) .fcvtI
  | 0x0C => okIf (codeOk (aRd w) && ra && one && rnd) .fcvtU
  | 0x0D => okIf (rd && codeOk (aRa w) && one && rnd) .fcvtFi
  | 0x0E => okIf (rd && codeOk (aRa w) && one && rnd) .fcvtFu
  | f => if 0x10 ≤ f && f ≤ 0x17 then okIf (codeOk (aRd w) && ra && rb && fix) .fcmp else none

/-- OP 0x30 (09 R224). -/
def decMill (w : Word) : Option AOp :=
  let z := wbits w 10 6 == 0
  match aFunc w with
  | 0x00 => okIf (codeOk (aRd w) && wbits w 20 18 == 0 && aRb w == 0 && z) .millIss
  | 0x01 => okIf (pairOk (aRd w) && aRa w == 0 && aRb w == 0 && z) .millRes
  | 0x02 => okIf (codeOk (aRd w) && codeOk (aRa w) && aRb w == 0 && z) .millWait
  | 0x03 => okIf (wbits w 25 6 == 0) .millYield
  | 0x04 => okIf (wbits w 25 6 == 0) .millResume
  | _ => none

/-- OP 0x31 (09 R217, R218). -/
def decSys (w : Word) : Option AOp :=
  let z := wbits w 25 6 == 0
  match aFunc w with
  | 0x00 => okIf z .wadv
  | 0x01 => okIf z .wrev
  | 0x02 => okIf z .reti
  | 0x03 => okIf z .trap
  | 0x04 => okIf z .wait
  | 0x05 => okIf z .sync
  | 0x06 => okIf z .isync
  | 0x07 => okIf z .fbar
  | 0x08 => okIf (codeOk (aRd w) && decide (aRa w ≤ 5) && wbits w 15 6 == 0) .mfsr
  | 0x09 => okIf (decide (1 ≤ aRd w) && decide (aRd w ≤ 4) && codeOk (aRa w) && wbits w 15 6 == 0) .mtsr
  | _ => none

/-- What an instruction word encodes; `none` where R207 makes it ILLEGAL whatever the task's state is. -/
def acuDecode (w : Word) : Option AOp :=
  let i := codeOk (aRd w) && codeOk (aRa w)
  let i2 := pairOk (aRd w) && codeOk (aRa w)
  let g := (aRd w == 0) && codeOk (aRa w)
  match aOp w with
  | 0x01 => decInt w
  | 0x02 => okIf i .addi
  | 0x03 => okIf i .andi
  | 0x04 => okIf i .ori
  | 0x05 => okIf i .xori
  | 0x06 => okIf (codeOk (aRd w) && aRa w == 0) .lui
  | 0x07 => okIf g .cmpi
  | 0x08 => okIf i .shli
  | 0x09 => okIf i .shri
  | 0x0A => okIf i .sari
  | 0x0B => okIf i .roli
  | 0x0C => okIf i .rori
  | 0x10 => okIf i .ldb
  | 0x11 => okIf i .ldbu
  | 0x12 => okIf i .ldh
  | 0x13 => okIf i .ldhu
  | 0x14 => okIf i .ld
  | 0x15 => okIf i2 .ldd
  | 0x16 => okIf g .lwg
  | 0x18 => okIf i .stb
  | 0x19 => okIf i .sth
  | 0x1A => okIf i .st
  | 0x1B => okIf i2 .std
  | 0x1C => okIf g .swg
  | 0x20 => okIf (decide (aCond w < 15)) .bcond
  | 0x21 => some .call
  | 0x22 => okIf i .jrl
  | 0x28 => decFp w
  | 0x30 => decMill w
  | 0x31 => decSys w
  | _ => none

/-- Instructions that are legal only in the trap window (09 R207). -/
def needsTw (o : AOp) : Bool := o == .lwg || o == .swg || o == .reti

/-! ### From fields back to the word (09 R204, R206, R208, R214-R218, R220, R224) -/

/-- The fields that instructions carry; an instruction uses those of its format. -/
structure AFields where
  rd : Nat
  ra : Nat
  rb : Nat
  sf : Nat
  ci : Nat
  imm : Nat
  rm : Nat
  d : Nat
  rel : Nat
  cond : Nat
  disp22 : Nat
  disp26 : Nat
  deriving DecidableEq, Repr

/-- The fields of a word. -/
def acuFields (w : Word) : AFields where
  rd := aRd w
  ra := aRa w
  rb := aRb w
  sf := b2n (aSf w)
  ci := b2n (aCi w)
  imm := aImm w
  rm := aRm w
  d := b2n (aD w)
  rel := aFop w % 8
  cond := aCond w
  disp22 := wbits w 21 0
  disp26 := wbits w 25 0

/-- A word of the R format: OP, RD, RA, RB, bits [10:0]. -/
def rWord (op rd ra rb low : Nat) : Word := BitVec.ofNat 32 (op * 2 ^ 26 + rd * 2 ^ 21 + ra * 2 ^ 16 + rb * 2 ^ 11 + low)
/-- A word of the I format: OP, RD, RA, IMM. -/
def iWord (op rd ra imm : Nat) : Word := BitVec.ofNat 32 (op * 2 ^ 26 + rd * 2 ^ 21 + ra * 2 ^ 16 + imm)

/-- OP 0x01: an instruction with SF, one of MUL to DIVU, one with CI. -/
def sfWord (f : AFields) (func : Nat) : Word := rWord 0x01 f.rd f.ra f.rb (f.sf * 2 ^ 10 + func)
def mdWord (f : AFields) (func : Nat) : Word := rWord 0x01 0 f.ra f.rb func
def ciWord (f : AFields) (func : Nat) : Word := rWord 0x01 f.rd f.ra f.rb (f.ci * 2 ^ 6 + func)
/-- OP 0x28: with two sources, with one, and without a rounding mode. -/
def fpWord2 (f : AFields) (fop : Nat) : Word := rWord 0x28 f.rd f.ra f.rb (f.rm * 2 ^ 8 + f.d * 2 ^ 7 + fop)
def fpWord1 (f : AFields) (fop : Nat) : Word := rWord 0x28 f.rd f.ra 0 (f.rm * 2 ^ 8 + f.d * 2 ^ 7 + fop)
def fpWordN (f : AFields) (rb fop : Nat) : Word := rWord 0x28 f.rd f.ra rb (f.d * 2 ^ 7 + fop)

/-- The word of an instruction with its fields. -/
def acuWordOf (o : AOp) (f : AFields) : Word :=
  match o with
  | .add => sfWord f 0x00
  | .addc => sfWord f 0x01
  | .sub => sfWord f 0x02
  | .subc => sfWord f 0x03
  | .neg => rWord 0x01 f.rd f.ra 0 0x04
  | .and => sfWord f 0x05
  | .or => sfWord f 0x06
  | .xor => sfWord f 0x07
  | .andn => sfWord f 0x08
  | .shl => sfWord f 0x09
  | .shr => sfWord f 0x0A
  | .sar => sfWord f 0x0B
  | .rol => sfWord f 0x0C
  | .ror => sfWord f 0x0D
  | .mul => mdWord f 0x10
  | .mulu => mdWord f 0x11
  | .div => mdWord f 0x12
  | .divu => mdWord f 0x13
  | .dadd => ciWord f 0x14
  | .dsub => ciWord f 0x15
  | .dadj => ciWord f 0x16
  | .addi => iWord 0x02 f.rd f.ra f.imm
  | .andi => iWord 0x03 f.rd f.ra f.imm
  | .ori => iWord 0x04 f.rd f.ra f.imm
  | .xori => iWord 0x05 f.rd f.ra f.imm
  | .lui => iWord 0x06 f.rd 0 f.imm
  | .cmpi => iWord 0x07 0 f.ra f.imm
  | .shli => iWord 0x08 f.rd f.ra f.imm
  | .shri => iWord 0x09 f.rd f.ra f.imm
  | .sari => iWord 0x0A f.rd f.ra f.imm
  | .roli => iWord 0x0B f.rd f.ra f.imm
  | .rori => iWord 0x0C f.rd f.ra f.imm
  | .ldb => iWord 0x10 f.rd f.ra f.imm
  | .ldbu => iWord 0x11 f.rd f.ra f.imm
  | .ldh => iWord 0x12 f.rd f.ra f.imm
  | .ldhu => iWord 0x13 f.rd f.ra f.imm
  | .ld => iWord 0x14 f.rd f.ra f.imm
  | .ldd => iWord 0x15 f.rd f.ra f.imm
  | .lwg => iWord 0x16 0 f.ra f.imm
  | .stb => iWord 0x18 f.rd f.ra f.imm
  | .sth => iWord 0x19 f.rd f.ra f.imm
  | .st => iWord 0x1A f.rd f.ra f.imm
  | .std => iWord 0x1B f.rd f.ra f.imm
  | .swg => iWord 0x1C 0 f.ra f.imm
  | .bcond => BitVec.ofNat 32 (0x20 * 2 ^ 26 + f.cond * 2 ^ 22 + f.disp22)
  | .call => BitVec.ofNat 32 (0x21 * 2 ^ 26 + f.disp26)
  | .jrl => iWord 0x22 f.rd f.ra f.imm
  | .fadd => fpWord2 f 0x00
  | .fsub => fpWord2 f 0x01
  | .fmul => fpWord2 f 0x02
  | .fmadd => fpWord2 f 0x03
  | .fdiv => fpWord2 f 0x04
  | .fsqrt => fpWord1 f 0x05
  | .fmin => fpWordN f f.rb 0x06
  | .fmax => fpWordN f f.rb 0x07
  | .fneg => fpWordN f 0 0x08
  | .fabs => fpWordN f 0 0x09
  | .fcvtF => fpWord1 f 0x0A
  | .fcvtI => fpWord1 f 0x0B
  | .fcvtU => fpWord1 f 0x0C
  | .fcvtFi => fpWord1 f 0x0D
  | .fcvtFu => fpWord1 f 0x0E
  | .fcmp => fpWordN f f.rb (0x10 + f.rel)
  | .millIss => rWord 0x30 f.rd (f.ra % 4) 0 0x00
  | .millRes => rWord 0x30 f.rd 0 0 0x01
  | .millWait => rWord 0x30 f.rd f.ra 0 0x02
  | .millYield => rWord 0x30 0 0 0 0x03
  | .millResume => rWord 0x30 0 0 0 0x04
  | .wadv => rWord 0x31 0 0 0 0x00
  | .wrev => rWord 0x31 0 0 0 0x01
  | .reti => rWord 0x31 0 0 0 0x02
  | .trap => rWord 0x31 0 0 0 0x03
  | .wait => rWord 0x31 0 0 0 0x04
  | .sync => rWord 0x31 0 0 0 0x05
  | .isync => rWord 0x31 0 0 0 0x06
  | .fbar => rWord 0x31 0 0 0 0x07
  | .mfsr => rWord 0x31 f.rd f.ra 0 0x08
  | .mtsr => rWord 0x31 f.rd f.ra 0 0x09

end Sys2Proof.Machine
end

