-- ==== Sys2Proof/Machine/Irq.lean ====
section
/-! DEFINITION. Sys2Proof/Machine/Irq.lean: making a cause pending at an ACU task (08 R179, R180), and firing a host interrupt
source (14 R343). -/

namespace Sys2Proof.Machine

/-- A task's number in the system. -/
def taskKey (n a k : Nat) : Nat := (n * 16 + a) * 64 + k

/-- The `inst` of a register behind ACUSEL and TASKSEL. -/
def at2 (a k : Nat) : Nat := a * 64 + k

/-- Cause 0x10 + `i` becomes pending at ACU `a`, at the task its route names, if the route is enabled; causes 0x10 and 0x11 go
to ACU_MILL.TASK (08 R180, R181, ACU_IRQ_ROUTE). -/
def irqAcu (s : Block) (n a i : Nat) : Block :=
  if fbit s n F.ACU_IRQ_ROUTE_EN (ix i a) then
    let k := if i ≤ 1 then fget s n F.ACU_MILL_TASK a else fget s n F.ACU_IRQ_ROUTE_TASK (ix i a)
    rput s n .ACU_TASK_PEND (at2 a k) (rget s n .ACU_TASK_PEND (at2 a k) ||| BitVec.ofNat 32 (2 ^ i))
  else s

/-- Cause FABRIC, 0x1A, stands at a task while an enabled bit of GKO_IRQ_PEND is set and its ACU routes it there (12 R286): its bit of
the task's pending causes. -/
def fabricLevel (s : Block) (n a k : Nat) : Nat :=
  if rget s n .GKO_IRQ_PEND &&& rget s n .GKO_IRQ_EN ≠ 0 && fbit s n F.ACU_IRQ_ROUTE_EN (ix 10 a)
      && fget s n F.ACU_IRQ_ROUTE_TASK (ix 10 a) = k then 2 ^ 10 else 0

/-- A cause that concerns the whole module becomes pending at every ACU whose route for it is enabled (08 R180). -/
def irqAll (s : Block) (n i : Nat) : Block := (List.range 16).foldl (fun s a => irqAcu s n a i) s

/-- Numbers of the routed causes, less 0x10. -/
def cArrayFp : Nat := 0
def cGangStopped : Nat := 1
def cDeadline : Nat := 2
def cFault : Nat := 3
def cCmd : Nat := 4
def cWheel : Nat := 5
def cLog : Nat := 6
def cStream : Nat := 7
def cDrive : Nat := 8
def cEpoch : Nat := 9
def cFabric : Nat := 10
def cIpi0 : Nat := 16

/-- Cause 0x06 (`b` = 0, FP_TRAP) or 0x07 (`b` = 1, STORE_ERR) becomes pending at a task (08 R181). -/
def pendSyncSet (s : Block) (tk b : Nat) : Block :=
  { s with
    pendSync := mput (fun _ => 0) s.pendSync tk (mget (fun _ => 0) s.pendSync tk ||| BitVec.ofNat 2 (2 ^ b)) }

/-- Send one message on a vector, or hold it in the PBA while the vector is masked or the endpoint is in D3hot (14 R343). -/
def msixSend (s : Block) (v : Nat) : Block :=
  if mget (fun _ => false) s.unmasked v && !s.d3hot then { s with msgs := s.msgs ++ [v] }
  else { s with pba := mput (fun _ => false) s.pba v true }

/-- Bit 0 of a vector's control word is written: a mask holds its messages, an unmask sends the one that the PBA holds (14 R343). -/
def vectorMask (s : Block) (v : Nat) (on : Bool) : Block :=
  let s := { s with unmasked := mput (fun _ => false) s.unmasked v (!on) }
  if !on && !s.d3hot && mget (fun _ => false) s.pba v then
    { s with pba := mput (fun _ => false) s.pba v false, msgs := s.msgs ++ [v] }
  else s

/-- The MSI-X table and PBA at 0x0010_8000 and 0x0010_9000 (14 R318): word `w` of the table, bit 0 of every fourth word its mask. -/
def msixAt (off : Nat) : Option Nat :=
  if 0x00108000 ≤ off && off < 0x00109020 && off % 4 = 0 then some ((off - 0x00108000) / 4) else none

/-- A read of one of those words. -/
def msixRead (s : Block) (w : Nat) : Word :=
  if 1024 ≤ w then
    BitVec.ofNat 32 ((List.range 32).foldl (fun m i =>
      if mget (fun _ => false) s.pba (32 * (w - 1024) + i) then m + 2 ^ i else m) 0)
  else if w % 4 = 3 then (if mget (fun _ => false) s.unmasked (w / 4) then 0 else 1)
  else mget (fun _ => 0) s.msixTab w

/-- A write of one of those words; the PBA is read only. -/
def msixWrite (s : Block) (w : Nat) (v : Word) : Block :=
  if 1024 ≤ w then s
  else if w % 4 = 3 then vectorMask s (w / 4) (v.getLsbD 0)
  else { s with msixTab := mput (fun _ => 0) s.msixTab w v }

/-- Host interrupt source `src` fires on node `n` (14 R343); the CMD block is the primary's. -/
def hostIrq (s : Block) (n src : Nat) : Block :=
  let i := ix (2 * src + n / 32)
  let s := rput s 0 .CMD_IRQ_NODES i (rget s 0 .CMD_IRQ_NODES i ||| BitVec.ofNat 32 (2 ^ (n % 32)))
  if fbit s 0 F.CMD_IRQ_MAP_EN (ix src) then msixSend s (fget s 0 F.CMD_IRQ_MAP_VECTOR (ix src)) else s

/-- Numbers of the host interrupt sources (14 R343). -/
def hEpoch : Nat := 16
def hStream : Nat := 17
def hLog : Nat := 18
def hFabric : Nat := 19
def hFault : Nat := 20
def hDeadline : Nat := 21
def hDrive : Nat := 22
def hWheel : Nat := 23
def hTopology : Nat := 24

end Sys2Proof.Machine
end

