-- ==== Sys2Proof/Machine/AcuBase.lean ====
section
/-! DEFINITION. Sys2Proof/Machine/AcuBase.lean: an ACU task's registers, windows, PC, PSW and run state: the operations that
every ACU instruction and Millrace's acceptance share (08 R169-R185, R202). -/

namespace Sys2Proof.Machine

def task (s : Block) (tk : Nat) : Task := mget (fun _ => {}) s.tasks tk
def putTask (s : Block) (tk : Nat) (t : Task) : Block := { s with tasks := mput (fun _ => {}) s.tasks tk t }

def akey (n a : Nat) : Nat := n * 16 + a
def acu (s : Block) (n a : Nat) : Acu := mget (fun _ => {}) s.acus (akey n a)
def putAcu (s : Block) (n a : Nat) (x : Acu) : Block := { s with acus := mput (fun _ => {}) s.acus (akey n a) x }

/-! ### The address map (08 R191) -/

/-- The regions an ACU sees. -/
inductive AcuSpace where
  | ram | staging | setAlias | clearAlias | otherRam | regs | record | none
  deriving DecidableEq, Repr

/-- The region of an address. -/
def spaceOf (addr : Nat) : AcuSpace :=
  if addr < 0x00100000 then .ram
  else if addr < 0x10000000 then .none
  else if addr < 0x18000000 then .staging
  else if addr < 0x20000000 then .setAlias
  else if addr < 0x28000000 then .clearAlias
  else if addr < 0x30000000 then .none
  else if addr < 0x31000000 then .otherRam
  else if addr < 0x40000000 then .none
  else if addr < 0x42000000 then .regs
  else if addr < 0x80000000 then .none
  else if addr < 0xC0000000 then .record
  else .none

/-! ### Run state -/

def runOff : Nat := 0
def runReady : Nat := 1
def runWait : Nat := 2
def runHalted : Nat := 3

/-- Reasons of ACU_TASK_STATUS.WAIT. -/
def wMem : Nat := 1
def wStore : Nat := 2
def wDiv : Nat := 3
def wMill : Nat := 4
def wCroak : Nat := 5
def wRetire : Nat := 6
def wFbar : Nat := 7
def wWait : Nat := 8
def wSync : Nat := 9
def wFpu : Nat := 10

/-- Task states of ACU_TASK_CTRL.STATE. -/
def taskState (s : Block) (n a k : Nat) : Nat := fget s n F.ACU_TASK_CTRL_STATE (at2 a k)
def taskRun (s : Block) (n a k : Nat) : Nat := fget s n F.ACU_TASK_STATUS_RUN (at2 a k)

/-- RUN and WAIT of a task. -/
def setRun (s : Block) (n a k run why : Nat) : Block :=
  fput (fput s n F.ACU_TASK_STATUS_RUN (at2 a k) run) n F.ACU_TASK_STATUS_WAIT (at2 a k) why

/-- The task's next instruction has to wait (08 R170). -/
def taskWait (s : Block) (n a k why : Nat) : Block := setRun s n a k runWait why

/-- Is the task ready? (08 R169) -/
def taskReady (s : Block) (n a k : Nat) : Bool := taskState s n a k == 2 && taskRun s n a k == runReady

/-- The task that TS selects next: the highest PRIO among the ready, then the first after the last selected (08 R169). -/
def selectTask (s : Block) (n a : Nat) : Option Nat :=
  let prio := fun k => fget s n F.ACU_TASK_CTRL_PRIO (at2 a k)
  let ready := (List.range 64).filter fun k => taskReady s n a k
  let top := ready.foldl (fun m k => max m (prio k)) 0
  let cands := ready.filter fun k => prio k == top
  let last := mget (fun _ => 63) (acu s n a).lastSel top
  match cands.find? (fun k => decide (last < k)) with
  | some k => some k
  | none => cands.head?

/-- Record that a task has been selected (08 R169). -/
def noteSelected (s : Block) (n a k : Nat) : Block :=
  let x := acu s n a
  putAcu s n a { x with lastSel := mput (fun _ => 63) x.lastSel (fget s n F.ACU_TASK_CTRL_PRIO (at2 a k)) k }

/-! ### PC and PSW -/

def taskPc (s : Block) (n a k : Nat) : Nat := (rget s n .ACU_TASK_PC (at2 a k)).toNat
def setPc (s : Block) (n a k pc : Nat) : Block :=
  rput s n .ACU_TASK_PC (at2 a k) (BitVec.ofNat 32 (pc / 4 * 4))
def psw (s : Block) (n a k : Nat) : Word := rget s n .ACU_TASK_PSW (at2 a k)
def setPsw (s : Block) (n a k : Nat) (w : Word) : Block := rput s n .ACU_TASK_PSW (at2 a k) w
def pswF (s : Block) (n a k : Nat) (f : Fld) : Nat := fget s n f (at2 a k)
def pswPut (s : Block) (n a k : Nat) (f : Fld) (v : Nat) : Block := fput s n f (at2 a k) v

/-! ### Registers (08 R175-R178, 09 R205) -/

/-- Where register code `c` lives with the current window `curw`: 0–7 G, 16–23 W0–W7, 24–31 W8–W15. -/
def regSlot (curw c : Nat) : Nat :=
  if c < 8 then c else if c < 24 then 8 + 8 * (curw % 4) + (c - 16) else 8 + 8 * ((curw + 1) % 4) + (c - 24)


/-- The stored value of a register slot: G0 reads zero. -/
def slotGet (t : Task) (i : Nat) : Word := if i = 0 then 0 else mget (fun _ => 0) t.regs i

/-- Read a register as the task's next instruction reads it (08 R171). -/
def gprGet (s : Block) (n a k c : Nat) : Word :=
  let t := task s (taskKey n a k)
  let i := regSlot (pswF s n a k F.ACU_TASK_PSW_CURW) c
  match t.shade.find? (fun p => p.1 == i) with
  | some p => p.2
  | none => slotGet t i

/-- Write a register slot and its DIRTY bit; a write of G0 is discarded (08 R178, 09 R205). -/
def slotPut (s : Block) (n a k i : Nat) (v : Word) : Block :=
  if i = 0 then s
  else
    let tk := taskKey n a k
    let t := task s tk
    let s := putTask s tk { t with regs := mput (fun _ => 0) t.regs i v }
    if i < 8 then pswPut s n a k F.ACU_TASK_PSW_DIRTY_G 1
    else setPsw s n a k (psw s n a k ||| BitVec.ofNat 32 (2 ^ (9 + (i - 8) / 8)))

/-- Write a register. -/
def gprPut (s : Block) (n a k c : Nat) (v : Word) : Block :=
  slotPut s n a k (regSlot (pswF s n a k F.ACU_TASK_PSW_CURW) c) v

/-- Read an even pair: the even register holds bits [31:0]. -/
def pairGet (s : Block) (n a k c : Nat) : Nat :=
  (gprGet s n a k c).toNat + 2 ^ 32 * (gprGet s n a k (c + 1)).toNat

/-- Write an even pair. -/
def pairPut (s : Block) (n a k c v : Nat) : Block :=
  gprPut (gprPut s n a k c (BitVec.ofNat 32 v)) n a k (c + 1) (BitVec.ofNat 32 (v / 2 ^ 32))

/-! ### Commit -/

/-- The products whose three following instructions have committed are written (08 R172). -/
def ageProducts (t : Task) : Task :=
  let due := t.products.filter fun p => p.1 ≤ 1
  let rest := (t.products.filter fun p => decide (1 < p.1)).map fun p => (p.1 - 1, p.2)
  match due.getLast? with
  | some p => { t with mdh := p.2.1, mdl := p.2.2, products := rest }
  | none => { t with products := rest }

/-- The exposures move on by one instruction: the shaded registers were read by this one, and each product is nearer. -/
def ageTask (s : Block) (n a k : Nat) : Block :=
  let tk := taskKey n a k
  putTask s tk { ageProducts (task s tk) with shade := [], served := false }

/-- What the task's waiting instruction had been served is given up with it. -/
def unserve (s : Block) (n a k : Nat) : Block :=
  let tk := taskKey n a k
  putTask s tk { task s tk with served := false }

/-- An instruction commits and the task goes on at `pc` (08 R167). -/
def commitAt (s : Block) (n a k pc : Nat) : Block := setRun (setPc (ageTask s n a k) n a k pc) n a k runReady 0

/-- An instruction commits and the task goes on at the next one. -/
def commit (s : Block) (n a k : Nat) : Block := commitAt s n a k ((taskPc s n a k + 4) % 2 ^ 32)

end Sys2Proof.Machine
end

