-- ==== Sys2Proof/Machine/Mem.lean ====
section
/-! DEFINITION. Sys2Proof/Machine/Mem.lean: the staging memory, the record store and the ACU local RAMs as ECC memories, and what a
request finds once it has reached one of them (10 R225-R234, 08 R197). -/

namespace Sys2Proof.Machine

/-- An endpoint is isolated (16 R371). -/
def isolatedEp (s : Block) (n ep : Nat) : Bool := (rget s n .NOC_ISOLATE (ix (ep / 32))).getLsbD (ep % 32)

/-! ### ECC memories -/

/-- A memory of 64-bit words with check bits: the staging memory, the record store, or the local RAM of ACU `a`, for which
`inst` is the instance its fault records name. -/
inductive Mem where
  | stg
  | record
  | lram (a inst : Nat)
  deriving DecidableEq, Repr

/-- A word as stored, check bits above the data. -/
def memGet (s : Block) (m : Mem) (n w : Nat) : Nat :=
  match m with
  | .stg => (mget (fun _ => 0) s.stg (n * 2 ^ 24 + w)).toNat
  | .record => (mget (fun _ => 0) s.record (n * 2 ^ 34 + w)).toNat
  | .lram a _ => (mget (fun _ => 0) s.lram ((n * 16 + a) * 2 ^ 17 + w)).toNat

/-- Store a word with the check bits given. -/
def memPut (s : Block) (m : Mem) (n w v : Nat) : Block :=
  match m with
  | .stg => { s with stg := mput (fun _ => 0) s.stg (n * 2 ^ 24 + w) (BitVec.ofNat 72 v) }
  | .record => { s with record := mput (fun _ => 0) s.record (n * 2 ^ 34 + w) (BitVec.ofNat 72 v) }
  | .lram a _ => { s with lram := mput (fun _ => 0) s.lram ((n * 16 + a) * 2 ^ 17 + w) (BitVec.ofNat 72 v) }

/-- Instance of a word's fault records: the bank of a staging word. -/
def memInst (m : Mem) (w : Nat) : Nat :=
  match m with
  | .stg => w / 2 ^ 21
  | .record => 0
  | .lram _ i => i

/-- A corrected word is counted and reported (10 R231, R233, 08 R197). -/
def memCe (s : Block) (m : Mem) (n w : Nat) : Block :=
  match m with
  | .stg => raise (fsat s n F.STG_ECC_CE_COUNT 0) n SRC.STG_CE (memInst m w) 0
  | .record => raise (fsat s n F.REC_ECC_CE_COUNT 0) n SRC.REC_CE 0 0
  | .lram a i => raise (fsat s n F.ACU_RAM_ECC_CE_COUNT a) n SRC.ACU_RAM_CE i 0

/-- An uncorrectable word is counted and reported. -/
def memUe (s : Block) (m : Mem) (n w : Nat) : Block :=
  match m with
  | .stg => raise (fsat s n F.STG_ECC_UE_COUNT 0) n SRC.STG_UE (memInst m w) 0
  | .record => raise (fsat s n F.REC_ECC_UE_COUNT 0) n SRC.REC_UE 0 0
  | .lram a i => raise (fsat s n F.ACU_RAM_ECC_UE_COUNT a) n SRC.ACU_RAM_UE i 0

/-- Read a word in the access path: a correctable one is corrected and written back; `none` for an uncorrectable one. -/
def memRead (s : Block) (m : Mem) (n w : Nat) : Option Nat × Block :=
  let d := decodeStored code64 (memGet s m n w)
  match d.found with
  | .clean => (some d.data, s)
  | .fixed _ => (some d.data, memCe (memPut s m n w (freshWord code64 d.data)) m n w)
  | .bad => (none, memUe s m n w)

/-- Write a word through a combining function of its old data; a write that covers the whole word needs no read. -/
def memRmw (s : Block) (m : Mem) (n w : Nat) (f : Nat → Nat) : Bool × Block :=
  match memRead s m n w with
  | (some d, s) => (true, memPut s m n w (freshWord code64 (f d)))
  | (none, s) => (false, s)

/-- All ones in 64 bits. -/
def ones64 : Nat := 2 ^ 64 - 1

/-- The bytes of a request that fall into word `w`: their data in place, and the mask of the enabled ones. -/
def wordPart (addr : Nat) (bytes : List (Option (BitVec 8))) (w : Nat) : Nat × Nat :=
  (List.range 8).foldl (fun p i =>
    if 8 * w + i < addr then p
    else
      match bytes[8 * w + i - addr]? with
      | some (some b) => (p.1 + b.toNat * 256 ^ i, p.2 + 255 * 256 ^ i)
      | _ => p) (0, 0)

/-- The words a request of `len` bytes touches. -/
def wordsOf (addr len : Nat) : List Nat :=
  if len = 0 then [] else (List.range ((addr + len - 1) / 8 + 1 - addr / 8)).map (· + addr / 8)

/-- How written data combine with the old word: 0 plain, 1 through the bit-set alias, 2 through the bit-clear alias (10 R229). -/
def combine (al old data mask : Nat) : Nat :=
  match al with
  | 0 => Nat.lor (Nat.land old (Nat.xor ones64 mask)) data
  | 1 => Nat.lor old data
  | _ => Nat.land old (Nat.xor ones64 data)

/-- Write one word's part. -/
def memWritePart (m : Mem) (n al addr : Nat) (bytes : List (Option (BitVec 8))) (r : Bool × Block) (w : Nat) : Bool × Block :=
  let p := wordPart addr bytes w
  if p.2 = 0 then r
  else if al = 0 && p.2 = ones64 then (r.1, memPut r.2 m n w (freshWord code64 p.1))
  else
    let q := memRmw r.2 m n w fun old => combine al old p.1 p.2
    (r.1 && q.1, q.2)

/-- Write bytes: false if some word was uncorrectable and not covered whole, so that its part was not performed (10 R231). -/
def memWrite (s : Block) (m : Mem) (n al addr : Nat) (bytes : List (Option (BitVec 8))) : Bool × Block :=
  (wordsOf addr bytes.length).foldl (memWritePart m n al addr bytes) (true, s)

/-- The words of a read, each as read. -/
def memReadWords (s : Block) (m : Mem) (n : Nat) : List Nat → List (Option Nat) × Block
  | [] => ([], s)
  | w :: ws =>
    let r := memRead s m n w
    let rest := memReadWords r.2 m n ws
    (r.1 :: rest.1, rest.2)

/-- Bytes `addr` to `addr + len - 1` out of words that begin at word `addr / 8`. -/
def bytesFrom (addr len : Nat) (ws : List Nat) : List (BitVec 8) :=
  (List.range len).map fun i =>
    BitVec.ofNat 8 (ws.getD ((addr + i) / 8 - addr / 8) 0 / 256 ^ ((addr + i) % 8))

/-- Read bytes: `none` if some word is uncorrectable. -/
def memLoad (s : Block) (m : Mem) (n addr len : Nat) : Option (List (BitVec 8)) × Block :=
  let r := memReadWords s m n (wordsOf addr len)
  if r.1.all Option.isSome then (some (bytesFrom addr len (r.1.map fun o => o.getD 0)), r.2) else (none, r.2)

/-- A number as bytes, all enabled. -/
def enBytes (k v : Nat) : List (Option (BitVec 8)) := (bytesLE k v).map fun b => some (BitVec.ofNat 8 b)

/-- A number from bytes. -/
def ofBytes (bs : List (BitVec 8)) : Nat := ofBytesLE (bs.map BitVec.toNat)

/-! ### Responses (16 R363) -/

def rspOk : Nat := 0
def rspTimeout : Nat := 1
def rspNoRoute : Nat := 2
def rspPwrOff : Nat := 3
def rspIsolated : Nat := 4
def rspDecErr : Nat := 5

/-- What a memory or register access answers. -/
structure MemAns where
  code : Nat
  data : List (BitVec 8)
  st : Block

/-- All-ones data of a read that is refused; a write carries none. -/
def onesData (req : MemReq) : List (BitVec 8) := if req.wr then [] else List.replicate req.bytes.length 0xFF#8

/-- Record an answer for its requester. -/
def answer (who : Nat) (a : MemAns) : Block := { a.st with rsps := a.st.rsps ++ [⟨who, a.code, a.data⟩] }

/-! ### Data caches (08 R195, 10 R226, R230) -/

/-- A line's word as stored, check bits above the data. -/
def lineWord (l : DLine) (i : Nat) : Nat := (l.words.extractLsb' (72 * i) 72).toNat

/-- Set a word of a line. -/
def lineSet (l : DLine) (i v : Nat) : DLine :=
  let mask : BitVec 576 := BitVec.ofNat 576 ((2 ^ 72 - 1) * 2 ^ (72 * i))
  { l with words := (l.words &&& ~~~mask) ||| (BitVec.ofNat 576 (v % 2 ^ 72 * 2 ^ (72 * i))) }

/-- ACU cache errors: counts and reports (08 R197). -/
def cacheCe (s : Block) (n a inst : Nat) : Block := raise (fsat s n F.ACU_RAM_ECC_CE_COUNT a) n SRC.ACU_CACHE_CE inst 0
def cacheUe (s : Block) (n a inst : Nat) : Block := raise (fsat s n F.ACU_RAM_ECC_UE_COUNT a) n SRC.ACU_CACHE_UE inst 0

/-- ACU `a` lets go of a line, written back first if it is dirty; an uncorrectable word is reported and goes back as it is
(log 33). -/
def flushLineOf (n line : Nat) (s : Block) (a : Nat) : Block :=
  let x := acu s n a
  match mget (fun _ => none) x.dcache line with
  | none => s
  | some l =>
    let s := putAcu s n a { x with dcache := mput (fun _ => none) x.dcache line none }
    if l.dirty then
      (List.range 8).foldl (fun s i =>
        let d := decodeStored code64 (lineWord l i)
        match d.found with
        | .clean => memPut s .stg n (line * 8 + i) (lineWord l i)
        | .fixed _ => memPut (cacheCe s n a (a * 64)) .stg n (line * 8 + i) (freshWord code64 d.data)
        | .bad => memPut (cacheUe s n a (a * 64)) .stg n (line * 8 + i) (lineWord l i)) s
    else s

/-- Every ACU of the module writes back and invalidates a line. -/
def flushLine (s : Block) (n line : Nat) : Block := (List.range 16).foldl (flushLineOf n line) s

/-- Every ACU writes back and invalidates its lines of a bank (10 R226, step 3). -/
def flushBank (s : Block) (n b : Nat) : Block :=
  (List.range 16).foldl (fun s a =>
    ((acu s n a).dcache.filter fun p => p.1 / 2 ^ 18 == b).foldl (fun s p => flushLineOf n p.1 s a) s) s

/-! ### The staging memory (10 R225-R231) -/

def bankOf (addr : Nat) : Nat := addr / 2 ^ 24
def bankCurrent (s : Block) (n b : Nat) : Nat := fget s n F.STG_BANK_OWNER_CURRENT (ix b)
def bankOwner (s : Block) (n b : Nat) : Nat := fget s n F.STG_BANK_OWNER_OWNER (ix b)
def bankPending (s : Block) (n b : Nat) : Bool := fbit s n F.STG_BANK_OWNER_PENDING (ix b)

/-- Owner codes (10 R225). -/
def ownWheel (e : Nat) : Nat := 0x10 + e
def ownHost : Nat := 0x14
def ownCmd : Nat := 0x15
def ownChannel : Nat := 0x16
def ownDrive : Nat := 0x17
def ownLog : Nat := 0x18
def ownGecko : Nat := 0x19
def ownNone : Nat := 0x1F

/-- How an access of master `m` to a bank is treated (10 R225, R226). -/
inductive Treat where
  | serve | stall | nonOwner
  deriving DecidableEq, Repr

def bankTreat (s : Block) (n b m : Nat) : Treat :=
  if bankPending s n b then (if m = bankOwner s n b then .stall else .nonOwner)
  else if m = bankCurrent s n b && m ≠ ownNone then .serve
  else .nonOwner

/-- An alias access must be of 1, 2, 4 or 8 bytes, aligned to its size (10 R229). -/
def aliasSizeOk (req : MemReq) : Bool :=
  let l := req.bytes.length
  (l == 1 || l == 2 || l == 4 || l == 8) && req.addr % l == 0

/-- Serve a staging request: the lines it touches leave the data caches first (10 R230, 08 R195). -/
def stgServe (s : Block) (n al : Nat) (req : MemReq) : MemAns :=
  let len := req.bytes.length
  let lines := if len = 0 then [] else (List.range ((req.addr + len - 1) / 64 + 1 - req.addr / 64)).map (· + req.addr / 64)
  let s := lines.foldl (fun s l => flushLine s n l) s
  if req.wr then
    let r := memWrite s .stg n al req.addr req.bytes
    ⟨if r.1 then rspOk else rspDecErr, [], r.2⟩
  else
    match memLoad s .stg n req.addr len with
    | (some bs, s) => ⟨rspOk, bs, s⟩
    | (none, s) => ⟨rspDecErr, onesData req, s⟩

/-- The non-owner treatment (10 R225). -/
def stgNonOwner (s : Block) (n b : Nat) (req : MemReq) : MemAns :=
  ⟨rspDecErr, onesData req, raise s n SRC.STG_NOT_OWNER b 0⟩

/-- A request past the bridges of the staging memory, treated as the bank does: `none` while it stalls for a handover (10 R226). -/
def stgPast (s : Block) (n al : Nat) (req : MemReq) : Treat → Option MemAns
  | .serve => some (stgServe s n al req)
  | .nonOwner => some (stgNonOwner s n (bankOf req.addr) req)
  | .stall => none

/-! ### The record store (10 R233, R234) -/

/-- Bytes of the record store, and of one of its four stacks. -/
def recBytes : Nat := 96 * 2 ^ 30
def recStack : Nat := 24 * 2 ^ 30

/-- Addresses are interleaved over the stacks in units of 256 bytes (10 "Record store"): the stack of a byte, and its address there; the
lowest unit lies in stack 0 (log 49). -/
def recStackOf (a : Nat) : Nat := a / 256 % 4
def recLocal (a : Nat) : Nat := a / 1024 * 256 + a % 256

/-- The byte at an address of a stack. -/
def recFlat (stack a : Nat) : Nat := a / 256 * 1024 + stack * 256 + a % 256

/-- A request past the bridges of the record store. -/
def recPast (s : Block) (n : Nat) (req : MemReq) : MemAns :=
  if req.wr then
    let r := memWrite s .record n 0 req.addr req.bytes
    ⟨if r.1 then rspOk else rspDecErr, [], r.2⟩
  else
    match memLoad s .record n req.addr req.bytes.length with
    | (some bs, s) => ⟨rspOk, bs, s⟩
    | (none, s) => ⟨rspDecErr, onesData req, s⟩

end Sys2Proof.Machine
end

