-- ==== Sys2Proof/Machine/Net.lean ====
section
/-! DEFINITION. Sys2Proof/Machine/Net.lean: what every initiator shares on the networks on chip: the fields of a flit, the endpoints and the
routers' tables, time limits, the bridges of the domains, and the requests that wait at them (16 R363-R377, 18 R410). -/

namespace Sys2Proof.Machine

/-! ### Flits (16 R363, R364) -/

/-- Bits `lo + w - 1` to `lo` of a flit. -/
def flBits (f : BitVec 128) (lo w : Nat) : Nat := (f.extractLsb' lo w).toNat
def flType (f : BitVec 128) : Nat := flBits f 0 8
def flSrc (f : BitVec 128) : Nat := flBits f 8 8
def flDst (f : BitVec 128) : Nat := flBits f 16 8
def flDnode (f : BitVec 128) : Nat := flBits f 24 6
def flSnode (f : BitVec 128) : Nat := flBits f 30 6
def flTag (f : BitVec 128) : Nat := flBits f 36 12
def flAge (f : BitVec 128) : Nat := flBits f 48 6
def flLen (f : BitVec 128) : Nat := flBits f 54 6
def flCode (f : BitVec 128) : Nat := flBits f 60 3
def flAddr (f : BitVec 128) : Nat := flBits f 64 64

def tyRead : Nat := 0x01
def tyWrite : Nat := 0x02
def tyMsg : Nat := 0x03
def tyAck : Nat := 0x10
def tyHeld : Nat := 0x11
def tySnoopInv : Nat := 0x20
def tySnoopWbinv : Nat := 0x21
def tySnoopAck : Nat := 0x22
def tyWeir : Nat := 0x23
def tyWdata : Nat := 0x30
def tyRdata : Nat := 0x31

/-- TYPEs that R363 defines. -/
def tyDefined (t : Nat) : Bool :=
  t == tyRead || t == tyWrite || t == tyMsg || t == tyAck || t == tyHeld || t == tySnoopInv || t == tySnoopWbinv
    || t == tySnoopAck || t == tyWeir || t == tyWdata || t == tyRdata

/-- TYPEs of the REQ network. -/
def tyReq (t : Nat) : Bool := t == tyRead || t == tyWrite || t == tyMsg

/-- The flit that goes back to the sender of `f`. -/
def backFlit (f : BitVec 128) (ty len code : Nat) : BitVec 128 :=
  BitVec.ofNat 128 (ty + flDst f * 2 ^ 8 + flSrc f * 2 ^ 16 + flSnode f * 2 ^ 24 + flDnode f * 2 ^ 30 + flTag f * 2 ^ 36
    + len * 2 ^ 54 + code * 2 ^ 60)

/-- Send an answer: RDATA for a READ, ACK for the rest. -/
def respond (f : BitVec 128) (a : MemAns) : Block :=
  let x := if flType f = tyRead then RspFlit.mk (backFlit f tyRdata (flLen f) a.code) a.data
    else RspFlit.mk (backFlit f tyAck 0 a.code) []
  { a.st with rspFlits := a.st.rspFlits ++ [x] }

/-- An error answer of a router: an ACK without data. -/
def respondAck (s : Block) (f : BitVec 128) (code : Nat) : Block :=
  { s with rspFlits := s.rspFlits ++ [⟨backFlit f tyAck 0 code, []⟩] }

/-- The memory request of a READ, or of a WRITE with its data. -/
def flitReq (f : BitVec 128) (data : List (BitVec 8)) : MemReq :=
  if flType f = tyWrite then ⟨true, flAddr f, (List.range (flLen f + 1)).map fun i => some (data.getD i 0)⟩
  else ⟨false, flAddr f, List.replicate (flLen f + 1) none⟩

/-! ### Endpoints and router tables (16 R365, R373, R374) -/

/-- Endpoints that R365 defines. -/
def epDefined (ep : Nat) : Bool :=
  decide (ep ≤ 0x1C) || (decide (0x20 ≤ ep) && decide (ep ≤ 0x2B)) || (decide (0x30 ≤ ep) && decide (ep ≤ 0x49))
    || (decide (0x50 ≤ ep) && decide (ep ≤ 0x57)) || (decide (0x60 ≤ ep) && decide (ep ≤ 0x63)) || ep == 0x80

def router (s : Block) (n r : Nat) : RouterSt := mget (fun _ => {}) s.routers (n * 64 + r)
def putRouter (s : Block) (n r : Nat) (x : RouterSt) : Block :=
  { s with routers := mput (fun _ => {}) s.routers (n * 64 + r) x }

/-- Port of an entry in the default table: a defined endpoint is routed, a reserved one is not. -/
def defaultPort (r ep : Nat) : Nat := if epDefined ep then (Config.defaultRoute r ep).toNat else 0xF

/-- The bank now ACTIVE. -/
def activeBank (s : Block) (n r : Nat) : Nat := fget s n F.NOC_RTR_CTRL_BANK (ix r)

/-- An entry of a physical bank. -/
def bankEntry (s : Block) (n r bank ep : Nat) : Nat :=
  mget (defaultPort r) (if bank = 0 then (router s n r).bank0 else (router s n r).bank1) ep

/-- The ACTIVE entry of an endpoint. -/
def activePort (s : Block) (n r ep : Nat) : Nat := bankEntry s n r (activeBank s n r) ep

/-- PHASE of a router: 0 RUN, 1 HOLD, 2 SWAP. -/
def rtrPhase (s : Block) (n r : Nat) : Nat := fget s n F.NOC_RTR_CTRL_PHASE (ix r)

/-- The entries of a router's ACTIVE bank that differ from the default table. -/
def activeBankOf (s : Block) (n r : Nat) (x : RouterSt) : SMap Nat := if activeBank s n r = 0 then x.bank0 else x.bank1

/-- No router's ACTIVE bank has another entry for an endpoint than the default table, which routes every defined endpoint. -/
def routeDefault (s : Block) (n ep : Nat) : Bool :=
  s.routers.all fun p => p.1 / 64 != n || !(activeBankOf s n (p.1 % 64) p.2).any fun e => e.1 == ep

/-- How far a packet gets on a module's routers: to its endpoint, to a router that lacks the route, or round for ever. -/
inductive NetPath where
  | there
  | lacks (r : Nat)
  | loops
  deriving DecidableEq, Repr

/-- Each router decides its own hop by its ACTIVE bank (16 R374). -/
def pathFrom (s : Block) (n ep : Nat) : Nat → Nat → NetPath
  | 0, _ => .loops
  | k + 1, r =>
    let p := activePort s n r ep
    if 8 ≤ p then .lacks r
    else
      match Config.routerNext r p with
      | some q => pathFrom s n ep k q
      | none => .there

/-- The path of a packet from endpoint `e` of a module to endpoint `ep` of it (log 49). -/
def netPath (s : Block) (n e ep : Nat) : NetPath :=
  if routeDefault s n ep then (if epDefined ep then .there else .lacks (Config.routerOf e))
  else pathFrom s n ep 48 (Config.routerOf e)

/-- NOC_NOROUTE of a router, at most once in 1 ms. -/
def noRouteRaise (s : Block) (n r : Nat) : Block :=
  let x := router s n r
  let quiet := match x.noRoute with
    | some t => decide (s.now < t + 1000000 * 2 ^ 16)
    | none => false
  if quiet then s else raise (putRouter s n r { x with noRoute := some s.now }) n SRC.NOC_NOROUTE r 0

/-! ### Time limits (16 R370) -/

/-- Microseconds in units of 2^-16 ns. -/
def usTime (us : Nat) : Nat := us * 1000 * 2 ^ 16

/-- The limit of a request. -/
def reqLimit (s : Block) (n dnode : Nat) : Nat :=
  if dnode = n then fget s n F.NOC_TIMEOUT_LOCAL_US else fget s n F.NOC_TIMEOUT_REMOTE_US

/-- The record of a request in error: initiator, target, node and address; one is not overwritten (NOC_ERR). -/
def nocRecord (s : Block) (n code src dst dnode addr : Nat) : Block :=
  if fbit s n F.NOC_ERR_VALID then s
  else
    let w := 2 ^ 31 + code * 2 ^ 24 + src * 2 ^ 16 + dst * 2 ^ 8 + dnode
    let s := rput s n .NOC_ERR 0 (BitVec.ofNat 32 w)
    let s := rput s n .NOC_ERR_ADDR (ix 0) (BitVec.ofNat 32 addr)
    rput s n .NOC_ERR_ADDR (ix 1) (BitVec.ofNat 32 (addr / 2 ^ 32))

/-- An initiator's limit has expired without a response: NOC_TIMEOUT, with the pair of links a request to another module takes, and the
record. -/
def expired (s : Block) (n e dst dnode addr via : Nat) : Block :=
  nocRecord (raiseVia s n SRC.NOC_TIMEOUT e 0 via) n rspTimeout e dst dnode addr

/-- The limit of a request sent now. -/
def limitOf (s : Block) (n dnode : Nat) : Nat := s.now + usTime (reqLimit s n dnode)

/-- The limit of a request expires. -/
def timedOut (s : Block) (n e dst dnode addr via : Nat) : Block := expired (atTime s (limitOf s n dnode)) n e dst dnode addr via

/-- How an atomic request of endpoint `e` to endpoint `ep` of its own module ends before it gets there. -/
def netEnd (s : Block) (n e ep addr : Nat) : Option (Nat × Block) :=
  match netPath s n e ep with
  | .there => none
  | .lacks r => some (rspNoRoute, noRouteRaise s n r)
  | .loops => some (rspTimeout, timedOut s n e ep n addr 4)

/-- A router discards a request as uncorrectable before it reaches its target (16 R364). -/
def lostThere (s : Block) (n : Nat) : BusWay → Option Block
  | .lost r false => some (raise s n SRC.NOC_FLIT_UE r 0)
  | _ => none

/-- The answer does not come in time: it is discarded as uncorrectable, or it comes late and is counted. -/
def lostBack (s : Block) (n : Nat) : BusWay → Option Block
  | .late => some (fsat s n F.NOC_LATE_COUNT 0)
  | .lost r true => some (raise s n SRC.NOC_FLIT_UE r 0)
  | _ => none

/-- An atomic request `act` on its way; `out`: its initiator's limit expires, with `ones` in place of data. -/
def overNet (s : Block) (n : Nat) (way : BusWay) (ones : List (BitVec 8)) (out : Block → Block) (act : Block → Option MemAns) :
    Option MemAns :=
  match lostThere s n way with
  | some s => some ⟨rspTimeout, ones, out s⟩
  | none =>
    (act s).map fun a =>
      match lostBack a.st n way with
      | some s => ⟨rspTimeout, ones, out s⟩
      | none => a

/-- The same for a request that does not stall. -/
def overNet1 (s : Block) (n : Nat) (way : BusWay) (ones : List (BitVec 8)) (out : Block → Block) (act : Block → MemAns) : MemAns :=
  (overNet s n way ones out fun s => some (act s)).getD ⟨rspTimeout, ones, s⟩

/-! ### Bridges (16 R368, R375, R376) -/

/-- States of a bridge. -/
def brOpen : Nat := 0
def brClosing : Nat := 1
def brClosed : Nat := 2
def bridgeOf (s : Block) (n d : Nat) : Nat := fget s n F.NOC_DOMAIN_BRIDGE (ix d)
def setBridge (s : Block) (n d v : Nat) : Block := fput s n F.NOC_DOMAIN_BRIDGE (ix d) v

/-- Routers that feed a domain's bridges, and are in reconfiguration: the bridges are in HOLD (16 R368, R373). -/
def bridgeHold (s : Block) (n d : Nat) : Bool :=
  bridgeOf s n d == brOpen && (List.range 48).any fun r => rtrPhase s n r != 0 && Config.bridgeFeeds d r

/-- The exit time of a domain's rung in ns (18 R410, R404). -/
def domExitNs (d : Nat) : Nat := if d = 5 || d = 6 then 100000 else 10000

/-- Bit d of GOV_DOMAIN.DOWN. -/
def domDown (s : Block) (n d : Nat) : Bool := (rget s n .GOV_DOMAIN).getLsbD d

/-- The domain behind whose bridges an endpoint lies: staging memory 7, record store 4, compute dies 0 to 3. -/
def epDomain (dst : Nat) : Option Nat :=
  if 0x20 ≤ dst && dst ≤ 0x27 then some 7
  else if 0x28 ≤ dst && dst ≤ 0x2B then some 4
  else if 0x60 ≤ dst && dst ≤ 0x63 then some (dst - 0x60)
  else none

/-- The owner code of a requester at a staging bank; a master of another module, apart from the host and the command processor, owns
no bank here (10 R225, log 49). -/
def ownerOf (f : BitVec 128) : Nat :=
  let e := flSrc f
  if flSnode f ≠ flDnode f && e ≠ ownHost && e ≠ ownCmd then 0x1E
  else if e = 0x1A then ownGecko
  else e

/-- What lies behind a bridge as a target: a staging bank, a stack of the record store; a compute die holds none (log 49).  `none` while
the request stalls for a handover.  `own`: it was issued as the bank's owner (10 R226). -/
def epMem (s : Block) (f : BitVec 128) (own : Bool) (req : MemReq) : Option MemAns :=
  let m := flDnode f
  let dst := flDst f
  let bad : MemAns := ⟨rspDecErr, onesData req, s⟩
  if dst < 0x28 then
    let al := req.addr / 2 ^ 27
    let req := { req with addr := (dst - 0x20) * 2 ^ 24 + req.addr % 2 ^ 27 }
    if 2 < al || 2 ^ 24 ≤ (req.addr - (dst - 0x20) * 2 ^ 24) + (req.bytes.length - 1) then some bad
    else if al ≠ 0 && !aliasSizeOk req then some bad
    else stgPast s m al req (if own then .serve else bankTreat s m (dst - 0x20) (ownerOf f))
  else if dst ≤ 0x2B then
    if recStack < req.addr + req.bytes.length then some bad
    else some (recPast s m { req with addr := recFlat (dst - 0x28) req.addr })
  else some bad

/-- Hold a request: at the bridge of domain `d`, or for the handover of bank `d - 16`.  A bridge that has room says so with HELD; a
request beyond its 8 waits upstream. -/
def holdReq (s : Block) (f : BitVec 128) (d : Nat) (req : MemReq) : Block :=
  let m := flDnode f
  let b := flDst f - 0x20
  let owns := d == 7 && bankTreat s m b (ownerOf f) == .serve
  let room := d < 16 && bridgeOf s m d != brOpen && decide ((s.heldReqs.filter fun h => h.node == m && h.dom == d).length < 8)
  { s with
    heldReqs := s.heldReqs ++ [⟨m, d, f, req.bytes, if owns then some b else none⟩]
    rspFlits := if room then s.rspFlits ++ [⟨backFlit f tyHeld 0 rspOk, []⟩] else s.rspFlits }

/-- A memory request past the bridges: answered, or stalled for a handover. -/
def memForward (s : Block) (f : BitVec 128) (own : Bool) (req : MemReq) : Block :=
  match epMem s f own req with
  | some a => respond f a
  | none => holdReq s f (16 + (flDst f - 0x20)) req

/-- Forward the requests held under `d`, oldest first. -/
def releaseReqs (s : Block) (m d : Nat) : Block :=
  let mine := s.heldReqs.filter fun h => h.node == m && h.dom == d
  let s := { s with heldReqs := s.heldReqs.filter fun h => !(h.node == m && h.dom == d) }
  mine.foldl (fun s h => memForward s h.flit h.bank.isSome ⟨flType h.flit == tyWrite, flAddr h.flit, h.data⟩) s

/-- A domain that a request woke, or that was powered up again, is up: its bridges open and the requests held there go on; a power-down
asked for in the meantime starts again (16 R376, R377, 18 R410). -/
def wakeDomain (s : Block) (n d : Nat) : Block :=
  let s := setBridge s n d brOpen
  let s := if bridgeHold s n d then s else releaseReqs s n d
  let x := pow s n
  if x.downAgain.getLsbD d && domDown s n d then
    setBridge (putPow s n { x with downAgain := x.downAgain &&& ~~~BitVec.ofNat 8 (2 ^ d) }) n d brClosing
  else s

/-- A request packet reaches the bridges of its domain; in HOLD it waits on their near side. -/
def memDeliver (s : Block) (f : BitVec 128) (d : Nat) (req : MemReq) : Block :=
  let m := flDnode f
  let b := bridgeOf s m d
  if b = brOpen then (if bridgeHold s m d then holdReq s f d req else memForward s f false req)
  else if !fbit s m F.NOC_DOMAIN_WAKE_ON_ACCESS (ix d) then respond f ⟨rspPwrOff, onesData req, s⟩
  else if b = brClosing then memForward (setBridge s m d brOpen) f false req
  else holdReq s f d req

/-- An atomic access reaches a domain's bridges (16 R376): `none` if they close and do not wake on access; else the power-down is abandoned,
or the domain wakes and the access goes on when it is up, behind the requests held there (log 49). -/
def domAccess (s : Block) (n d : Nat) : Option Block :=
  let b := bridgeOf s n d
  if b = brOpen then some s
  else if !fbit s n F.NOC_DOMAIN_WAKE_ON_ACCESS (ix d) then none
  else if b = brClosing then some (setBridge s n d brOpen)
  else some (wakeDomain (atTime s (s.now + domExitNs d * 2 ^ 16)) n d)

/-- The answer at a closed bridge (16 R376). -/
def pwrOffAns (s : Block) (req : MemReq) : MemAns := ⟨rspPwrOff, onesData req, s⟩

/-- A domain owes a response (16 R375): a request that stalls behind its bridges for a handover. -/
def domOwes (s : Block) (n d : Nat) : Bool :=
  d == 7 && ((s.heldReqs.any fun h => h.node == n && decide (16 ≤ h.dom)) || s.stgHeld.any fun h => h.node == n)

end Sys2Proof.Machine
end

