-- ==== Sys2Proof/Machine/Store.lean ====
section
/-! DEFINITION. Sys2Proof/Machine/Store.lean: the staging memory and its owners, the record store and its rings, as their masters reach them
(10 R225-R237). -/

namespace Sys2Proof.Machine

/-! ### The staging memory (10 R225-R232) -/

/-- What a bank's endpoint is told of an address: the bank's bytes, above them the alias. -/
def bankAddr (al addr : Nat) : Nat := al * 2 ^ 27 + addr % 2 ^ 24

/-- A request of endpoint `e`, as the bank's owner, past the ownership check (16 R371, R374, R376). -/
def stgOwned (s : Block) (n e : Nat) (req : MemReq) : MemAns :=
  match netEnd s n e (0x20 + bankOf req.addr) (bankAddr 0 req.addr) with
  | some (k, s) => ⟨k, onesData req, s⟩
  | none =>
    if isolatedEp s n (0x20 + bankOf req.addr) then ⟨rspIsolated, onesData req, s⟩
    else
      match domAccess s n 7 with
      | none => pwrOffAns s req
      | some s => stgServe s n 0 req

/-- A staging request of master `m`: `none` while it stalls for a handover (10 R226). -/
def stgReq (s : Block) (n m al : Nat) (req : MemReq) : Option MemAns :=
  let b := bankOf req.addr
  if 2 ^ 27 < req.addr + req.bytes.length || 2 ^ 27 ≤ req.addr then some ⟨rspDecErr, onesData req, s⟩
  else
    match netEnd s n m (0x20 + b) (bankAddr al req.addr) with
    | some (k, s) => some ⟨k, onesData req, s⟩
    | none =>
      if isolatedEp s n (0x20 + b) then some ⟨rspIsolated, onesData req, s⟩
      else if al ≠ 0 && !aliasSizeOk req then some ⟨rspDecErr, onesData req, s⟩
      else
        match domAccess s n 7 with
        | none => some (pwrOffAns s req)
        | some s => stgPast s n al req (bankTreat s n b m)

/-- The state in which a staging request that stalls is left: the bridges have been passed. -/
def stgWaits (s : Block) (n : Nat) : Block := (domAccess s n 7).getD s

/-- STAGING_ACCESS (10 R225, R226, R229-R231). -/
def stagingAccess (n : Node) (m : Fin 32) (al : Fin 3) (req : NetReq) (s : Block) : Block :=
  let ep := 0x20 + bankOf req.addr
  let out := fun (s : Block) => timedOut s n m ep n (bankAddr al req.addr) 4
  match overNet s n req.way (onesData req.toMemReq) out (fun s => stgReq s n m al req.toMemReq) with
  | some a => answer m a
  | none =>
    let s := stgWaits s n
    { s with stgHeld := s.stgHeld ++ [⟨n, m, al, req.toMemReq, limitOf s n n, false⟩] }

/-- STG_STATUS.CFG_REJECT. -/
def stgReject (s : Block) (n : Nat) : Block := fset s n F.STG_STATUS_CFG_REJECT 1

/-- OWNER_WRITE (10 R226): the write of a bank's OWNER; one that comes while PENDING = 1 is discarded, whatever its code. -/
def ownerWrite (n : Node) (b : Fin 8) (o : Fin 32) (s : Block) : Block :=
  if bankPending s n b then fput s n F.STG_BANK_OWNER_REFUSED (ix b) 1
  else if 0x1A ≤ o.val && o.val ≤ 0x1E then stgReject s n
  else if o.val = bankCurrent s n b then s
  else fput (fput s n F.STG_BANK_OWNER_OWNER (ix b) o) n F.STG_BANK_OWNER_PENDING (ix b) 1

/-- The old owner's accesses to bank `b` are complete: no store to it is left in an ACU's store buffer, and no request that it issued
as owner waits for the bank's domain (10 R226, step 2). -/
def bankDrained (s : Block) (n b : Nat) : Bool :=
  let old := bankCurrent s n b
  !(s.heldReqs.any fun h => h.node == n && h.bank == some b) &&
  if old < 16 then
    (acu s n old).sb.all fun e =>
      !(decide (0x10000000 ≤ e.addr) && decide (e.addr < 0x28000000) && (e.addr - 0x10000000) % 0x8000000 / 0x1000000 == b)
  else true

/-- Requests that waited for a handover of bank `b` are answered; an answer that comes after its limit is counted (16 R370). -/
def releaseHeld (s : Block) (n b : Nat) : Block :=
  let mine := s.stgHeld.filter fun h => h.node == n && bankOf h.req.addr == b
  let s := { s with stgHeld := s.stgHeld.filter fun h => !(h.node == n && bankOf h.req.addr == b) }
  mine.foldl (fun s h =>
    match stgPast s n h.al h.req (bankTreat s n b h.master) with
    | some a => if h.late then fsat a.st (if h.master = ownHost then 0 else n) F.NOC_LATE_COUNT 0 else answer h.master a
    | none => s) s

/-- HANDOVER_COMMIT (10 R226, steps 2 to 4). -/
def handoverCommit (n : Node) (b : Fin 8) (s : Block) : Block :=
  if bankPending s n b && bankDrained s n b then
    let s := flushBank s n b
    let s := fput (fput s n F.STG_BANK_OWNER_CURRENT (ix b) (bankOwner s n b)) n F.STG_BANK_OWNER_PENDING (ix b) 0
    releaseHeld s n b
  else s

/-- The check bits of the 64 words of a tested window are checked; the words stay as they were (10 R231, log 34). -/
def checkWindow (m : Mem) (n base : Nat) (s : Block) : Block :=
  (List.range 64).foldl (fun s i =>
    match (decodeStored code64 (memGet s m n (base + i))).found with
    | .clean => s
    | .fixed _ => memCe s m n (base + i)
    | .bad => memUe s m n (base + i)) s

/-- STG_TEST_WINDOW (10 R231): a window of every bank is tested; `fails` names the banks with a failing cell, and an access
that came in between made the test yield. -/
def stgTestWindow (n : Node) (fails : BitVec 8) (yielded : Bool) (s : Block) : Block :=
  if fget s n F.STG_TEST_STATE = 2 && !yielded then
    let w := fget s n F.STG_TEST_CURSOR
    let s := (List.range 8).foldl (fun s b =>
      let s := checkWindow .stg n (b * 2 ^ 21 + 64 * w) s
      if fails.getLsbD b then raise s n SRC.STG_TEST_FAIL b 0 else s) s
    fset s n F.STG_TEST_CURSOR ((w + 1) % 32768)
  else s

/-- A wake clears the banks and their owners (10 R232). -/
def clearStaging (s : Block) (n : Nat) : Block :=
  let s := { s with
    stg := mdrop s.stg (n * 2 ^ 24) ((n + 1) * 2 ^ 24)
    stgHeld := s.stgHeld.filter fun h => h.node != n }
  (List.range 8).foldl (fun s b => rput s n .STG_BANK_OWNER (ix b) 0x1F1F) s

/-! ### The record store (10 R233, R234) -/

/-- A record store request of endpoint `e`, within one unit of 256 bytes; an address beyond the memory gets RSP_DECERR. -/
def recReq (s : Block) (n e : Nat) (req : MemReq) : MemAns :=
  if recBytes < req.addr + req.bytes.length then ⟨rspDecErr, onesData req, s⟩
  else
    match netEnd s n e (0x28 + recStackOf req.addr) (recLocal req.addr) with
    | some (k, s) => ⟨k, onesData req, s⟩
    | none =>
      if isolatedEp s n (0x28 + recStackOf req.addr) then ⟨rspIsolated, onesData req, s⟩
      else
        match domAccess s n 4 with
        | none => pwrOffAns s req
        | some s => recPast s n req

/-- Write bytes as requests of whole or partial 64-byte blocks, one after another (01 R20). -/
def recWrites (n e : Nat) : Nat → Nat → List (BitVec 8) → Block → Block
  | 0, _, _, s => s
  | fuel + 1, addr, bs, s =>
    if bs.isEmpty then s
    else
      let part := bs.take (64 - addr % 64)
      recWrites n e fuel (addr + part.length) (bs.drop part.length) (recReq s n e ⟨true, addr, part.map some⟩).st

/-- Read bytes as requests of 64-byte blocks; one in error reads as all ones (10 R233, 16 R371). -/
def recReads (n e : Nat) : Nat → Nat → Nat → Block → List (BitVec 8) × Block
  | 0, _, _, s => ([], s)
  | fuel + 1, addr, len, s =>
    if len = 0 then ([], s)
    else
      let k := min len (64 - addr % 64)
      let a := recReq s n e ⟨false, addr, List.replicate k none⟩
      let r := recReads n e fuel (addr + k) (len - k) a.st
      (a.data ++ r.1, r.2)

/-- RECORD_STORE_ACCESS (10 R233). -/
def recordStoreAccess (n : Node) (m : Fin 32) (req : NetReq) (s : Block) : Block :=
  let out := fun (s : Block) => timedOut s n m (0x28 + recStackOf req.addr) n (recLocal req.addr) 4
  answer m (overNet1 s n req.way (onesData req.toMemReq) out fun s => recReq s n m req.toMemReq)

/-- REC_SCRUB_STEP (10 R233): the next 64-byte block of the pass is read, checked and corrected.  The size of a step is the
model's (log 34). -/
def recScrubStep (n : Node) (s : Block) : Block :=
  if fget s n F.REC_SCRUB_STATE = 2 && inRun s n && fget s n F.NOC_DOMAIN_BRIDGE (ix 4) = 0 then
    let b := mget (fun _ => 0) s.recCursor n
    let s := (memReadWords s .record n ((List.range 8).map (· + 8 * b))).2
    let s := if b + 1 = recBytes / 64 then fwrap s n F.REC_SCRUB_PASSES 0 else s
    { s with recCursor := mput (fun _ => 0) s.recCursor n ((b + 1) % (recBytes / 64)) }
  else s

/-- A wake from a state that powered the stacks off: the store reads as zero, and the background clear begins (10 R234). -/
def clearRecord (s : Block) (n : Nat) : Block :=
  fset { s with record := mdrop s.record (n * 2 ^ 34) ((n + 1) * 2 ^ 34) } n F.REC_STATUS_CLEARING 1

/-- REC_CLEAR_DONE (10 R234). -/
def recClearDone (n : Node) (s : Block) : Block := fset s n F.REC_STATUS_CLEARING 0

/-! ### Rings (10 R235-R237) -/

def ringKey (n r : Nat) : Nat := n * 32 + r
def ringF (s : Block) (n r : Nat) (f : Fld) : Nat := fget s n f (ix r)
def ringCount (s : Block) (n r : Nat) : Nat :=
  (rget s n .REC_RING_COUNT (ix (2 * r))).toNat + 2 ^ 32 * (rget s n .REC_RING_COUNT (ix (2 * r + 1))).toNat
def setRingCount (s : Block) (n r v : Nat) : Block :=
  rput (rput s n .REC_RING_COUNT (ix (2 * r)) (BitVec.ofNat 32 v)) n .REC_RING_COUNT (ix (2 * r + 1))
    (BitVec.ofNat 32 (v / 2 ^ 32))

/-- How many more bytes a ring takes after its trigger, `none` without a trigger (10 R236). -/
def ringRoom (s : Block) (n r : Nat) : Option Nat :=
  if ringF s n r F.REC_RING_CTRL_TRIGGERED = 1 then
    some (1024 * ringF s n r F.REC_RING_CTRL_POST - mget (fun _ => 0) s.trigGone (ringKey n r))
  else none

/-- The ring takes data from a writer (10 R235-R237). -/
def ringOpen (s : Block) (n r w : Nat) : Bool :=
  ringF s n r F.REC_RING_CTRL_STATE = 2 && ringF s n r F.REC_RING_CTRL_WRITER = w && ringF s n r F.REC_RING_CTRL_FROZEN = 0
    && decide (ringF s n r F.REC_RING_AREA_SIZE ≠ 0) && ringRoom s n r != some 0

/-- Endpoint `e` appends bytes, as many at a time as lie below the end of the ring's area. -/
def ringPut (n r e : Nat) : Nat → List (BitVec 8) → Block → Block
  | 0, _, s => s
  | fuel + 1, bs, s =>
    if bs.isEmpty then s
    else
      let size := 2 ^ 21 * ringF s n r F.REC_RING_AREA_SIZE
      let k := ringCount s n r
      let part := bs.take (size - k % size)
      let s := recWrites n e part.length (2 ^ 21 * ringF s n r F.REC_RING_AREA_BASE + k % size) part s
      ringPut n r e fuel (bs.drop part.length) (setRingCount s n r (k + part.length))

/-- A triggered ring has taken `k` more bytes. -/
def ringTook (s : Block) (n r k : Nat) : Block :=
  if ringF s n r F.REC_RING_CTRL_TRIGGERED = 1 then
    { s with trigGone := mput (fun _ => 0) s.trigGone (ringKey n r) (mget (fun _ => 0) s.trigGone (ringKey n r) + k) } else s

/-- The endpoint of a ring's writer: 1 the channel engine, 2 the Log engine, 3 Weir (10 R235, 16 R365). -/
def ringEp (w : Nat) : Nat := if w = 3 then 0x1B else if w = 1 then ownChannel else ownLog

/-- Append bytes of writer `w`; what comes after the freeze point is refused (10 R236).  Gives the number of bytes taken. -/
def ringAppend (s : Block) (n r w : Nat) (bs : List (BitVec 8)) : Nat × Block :=
  if ringOpen s n r w then
    let take := match ringRoom s n r with
      | some room => min room bs.length
      | none => bs.length
    let size := 2 ^ 21 * ringF s n r F.REC_RING_AREA_SIZE
    (take, ringTook (ringPut n r (ringEp w) (take / size + 2) (bs.take take) s) n r take)
  else (0, s)

/-- A trigger reaches a ring from source `bit` of TRIGSRC: 0 register, 1 fault, 2 Gecko line (10 R236). -/
def ringFire (s : Block) (n r bit : Nat) : Block :=
  if ringF s n r F.REC_RING_CTRL_TRIGGERED = 0 && (ringF s n r F.REC_RING_CTRL_TRIGSRC).testBit bit then
    { fput s n F.REC_RING_CTRL_TRIGGERED (ix r) 1 with trigGone := mput (fun _ => 0) s.trigGone (ringKey n r) 0 }
  else s

/-- RING_TRIGGER (10 R236): a write of TRIGGER = 1. -/
def ringTrigger (n : Node) (r : Fin 32) (s : Block) : Block := ringFire s n r 0

/-- RING_FREEZE (10 R236): POST KiB after the trigger have been appended. -/
def ringFreeze (n : Node) (r : Fin 32) (s : Block) : Block :=
  if ringRoom s n r = some 0 then fput s n F.REC_RING_CTRL_FROZEN (ix r) 1 else s

/-- Writing FROZEN = 1 (10 R236). -/
def ringThaw (n : Node) (r : Fin 32) (s : Block) : Block :=
  let s := fput (fput s n F.REC_RING_CTRL_FROZEN (ix r) 0) n F.REC_RING_CTRL_TRIGGERED (ix r) 0
  { s with trigGone := mput (fun _ => 0) s.trigGone (ringKey n r) 0 }

/-- REC_STATUS.CFG_REJECT. -/
def recReject (s : Block) (n : Nat) : Block := fset s n F.REC_STATUS_CFG_REJECT 1

/-- A write of a ring's EN (10 R237): COUNT restarts when the ring goes from OFF to ON (10 R235). -/
def ringEn (n : Node) (r : Fin 32) (en : Bool) (s : Block) : Block :=
  match ringF s n r F.REC_RING_CTRL_STATE, en with
  | 0, true => setRingCount (fput (fput s n F.REC_RING_CTRL_EN (ix r) 1) n F.REC_RING_CTRL_STATE (ix r) 2) n r 0
  | 2, false => fput (fput s n F.REC_RING_CTRL_EN (ix r) 0) n F.REC_RING_CTRL_STATE (ix r) 1
  | _, _ => s

/-- RING_DRAIN_DONE (10 R237). -/
def ringDrainDone (n : Node) (r : Fin 32) (s : Block) : Block :=
  if ringF s n r F.REC_RING_CTRL_STATE = 1 then fput s n F.REC_RING_CTRL_STATE (ix r) 0 else s

/-- A write of REC_RING_AREA (10 R235). -/
def ringAreaWrite (s : Block) (n r : Nat) (w : Word) : Block :=
  let size := wbits w 31 16
  let base := wbits w 15 0
  if ringF s n r F.REC_RING_CTRL_STATE ≠ 0 || size = 0 || 49152 < base + size then recReject s n
  else rput s n .REC_RING_AREA (ix r) w

end Sys2Proof.Machine
end

