-- ==== Sys2Proof/Machine/AcuCtl.lean ====
section
/-! DEFINITION. Sys2Proof/Machine/AcuCtl.lean: starting and stopping a task, the doorbells of an ACU and the patrol test of its local
RAM (08 R174, R179, R180, R198, R202, R203). -/

namespace Sys2Proof.Machine

/-- ACU_STATUS.CFG_REJECT. -/
def acuReject (s : Block) (n a : Nat) : Block := fput s n F.ACU_STATUS_CFG_REJECT a 1

/-- A task's instruction that waits is given up uncommitted: its divide, its macro-op not yet accepted, and what it was served
(08 R174, R182, R202). -/
def abandonInstr (s : Block) (n a k : Nat) : Block :=
  let s := unserve s n a k
  let x := acu s n a
  let s := match x.divider with
    | some d => if d.task = k then putAcu s n a { x with divider := none } else s
    | none => s
  let g := gang s n a
  match g.presented with
  | some p => if p.2.1 = k then putGang s n a { g with presented := none } else s
  | none => s

/-- EN written 1 in OFF: the task starts at its PC with its PSW (08 R202). -/
def startTask (s : Block) (n a k : Nat) : Block :=
  let s := fput s n F.ACU_TASK_STATUS_HALT_CAUSE (at2 a k) 0
  setRun (fput (fput s n F.ACU_TASK_CTRL_EN (at2 a k) 1) n F.ACU_TASK_CTRL_STATE (at2 a k) 2) n a k runReady 0

/-- EN written 0 in ON: the task is selected no more and drains (08 R202). -/
def stopTask (s : Block) (n a k : Nat) : Block :=
  abandonInstr (fput (fput s n F.ACU_TASK_CTRL_EN (at2 a k) 0) n F.ACU_TASK_CTRL_STATE (at2 a k) 1) n a k

/-- The device-wide enable rule of a task. -/
def taskEn (s : Block) (n a k : Nat) (en : Bool) : Block :=
  let st := taskState s n a k
  if en then (if st = 0 then startTask s n a k else s) else if st = 2 then stopTask s n a k else s

/-- TASK_EN_WRITE (08 R202). -/
def taskEnWrite (n : Node) (a : AcuIx) (k : TaskIx) (en : Bool) (s : Block) : Block := taskEn s n a k en

/-- A draining task has nothing outstanding. -/
def taskDrained (s : Block) (n a k : Nat) : Bool :=
  !((acu s n a).sb.any fun e => e.task == k) && (task s (taskKey n a k)).fps.isEmpty

/-- TASK_DRAIN_DONE (08 R202): a load exposed to the next instruction and products still to be written stay so for the instructions that
follow a restart (08 R171, R172). -/
def taskDrainDone (n : Node) (a : AcuIx) (k : TaskIx) (s : Block) : Block :=
  if taskState s n a k = 1 && taskDrained s n a k then
    setRun (fput s n F.ACU_TASK_CTRL_STATE (at2 a k) 0) n a k runOff 0
  else s

/-- ACU_IPI_WRITE (08 R179): each bit written 1 raises its IPI cause. -/
def acuIpi (n : Node) (a : AcuIx) (w : Half) (s : Block) : Block :=
  (List.range 16).foldl (fun s i => if w.getLsbD i then irqAcu s n a (cIpi0 + i) else s) s

/-- ACU_BELL_WRITE (08 R180). -/
def acuBell (n : Node) (a : AcuIx) (w : Word) (s : Block) : Block := irqAcu (rput s n .ACU_BELL a w) n a cCmd

/-- RAM_TEST_WINDOW (08 R198): a window of 64 words is tested and restored; an access to it made the test yield (`yielded`), or a
cell failed the march (`fails`); the check bits are not checked. -/
def ramTestWindow (n : Node) (a : AcuIx) (fails yielded : Bool) (s : Block) : Block :=
  if fget s n F.ACU_RAM_TEST_STATE a = 2 && !yielded then
    let w := fget s n F.ACU_RAM_TEST_CURSOR a
    let s := if fails then raise s n SRC.ACU_RAM_TEST_FAIL (a.val * 64) w else s
    fput s n F.ACU_RAM_TEST_CURSOR a ((w + 1) % 2048)
  else s

/-- EN of a patrol whose windows the model makes in one step: written 0, STATE reads OFF at once (08 R198, 10 R231, R233; log 34). -/
def patrolEn (s : Block) (n : Nat) (en st : Fld) (inst : Nat) (v : Bool) : Block :=
  drainDone (enWrite s n en st inst v) n st inst

end Sys2Proof.Machine
end

