-- ==== Sys2Proof/Machine/Gang.lean ====
section
/-! DEFINITION. Sys2Proof/Machine/Gang.lean: Millrace and the gang states: acceptance, delivery, dispatch, retirement, stops,
yields, drains, resumes and fault stops (06 R147-R164, 04 R119, R120, 05 R140-R143, 03 R76, R77). -/

namespace Sys2Proof.Machine

/-! ### States and causes -/

def gOff : Nat := 0
def gDraining : Nat := 1
def gIdle : Nat := 2
def gRun : Nat := 3
def gYielding : Nat := 4
def gStopped : Nat := 5

def gState (s : Block) (n g : Nat) : Nat := fget s n F.MILL_GANG_STATUS_STATE g
def setGState (s : Block) (n g v : Nat) : Block := fput s n F.MILL_GANG_STATUS_STATE g v

/-- The CAUSE code of a stop (MILL_GANG_STATUS). -/
def causeCode : StopCause → Nat
  | .host => 1
  | .acu => 2
  | .abort => 3
  | .illegal => 4
  | .fpTrap => 5
  | .fault => 6

/-- Order of the causes that act on one stop (06 R163). -/
def causeRank : StopCause → Nat
  | .fault => 0
  | .abort => 1
  | .illegal => 2
  | .fpTrap => 3
  | .host => 4
  | .acu => 5

/-- The cause CAUSE records of two that act on one stop. -/
def joinCause : Option StopCause → StopCause → StopCause
  | none, c => c
  | some b, c => if causeRank b ≤ causeRank c then b else c

/-- MILL_STATUS.CFG_REJECT of a module. -/
def millReject (s : Block) (n : Nat) : Block := fset s n F.MILL_STATUS_CFG_REJECT 1

/-! ### The stream -/

/-- The macro-op with an acceptance number among those in flight. -/
def findOp (x : GangSt) (num : Nat) : Option Mop := x.flight.find? fun m => m.num == num

/-- Replace a macro-op in flight. -/
def setOp (x : GangSt) (m : Mop) : GangSt := { x with flight := x.flight.map fun o => if o.num = m.num then m else o }

/-- The newest macro-op that any tile has dispatched and that has not retired: the frontier (06 R159). -/
def newestStarted (x : GangSt) : Option Nat := ((x.flight.filter (·.started)).getLast?).map (·.num)

/-- Every tile of `tiles` has reported the macro-op done. -/
def opDone (tiles : List Nat) (m : Mop) : Bool := tiles.all fun t => m.doneBy.contains t

/-- Numbers that ended without retiring, kept while among the 1,024 most recent (08 R189). -/
def addLost (x : GangSt) (ns : List Nat) : GangSt :=
  { x with lost := (x.lost ++ ns).filter fun k => decide (x.accepted < k + 1024) }

/-- Clear MILL_RESUME. -/
def clearResume (s : Block) (n g : Nat) : Block :=
  fput (fput (fput s n F.MILL_RESUME_CTRL_VALID g 0) n F.MILL_RESUME_CTRL_KIND g 0) n F.MILL_RESUME_CTRL_CUR g 0

/-- Write the four words of a macro-op into a register family. -/
def putOpRegs (s : Block) (n g : Nat) (r : Reg) (w : BitVec 128) : Block :=
  (List.range 4).foldl (fun s k => rput s n r (ix k g) (BitVec.ofNat 32 (w.toNat / 2 ^ (32 * k)))) s

/-- Record a held macro-op in MILL_RESUME (04 R119). -/
def holdResume (s : Block) (n g : Nat) (m : Mop) (kind cur : Nat) : Block :=
  let s := putOpRegs s n g .MILL_RESUME_OP m.word
  fput (fput (fput s n F.MILL_RESUME_CTRL_VALID g 1) n F.MILL_RESUME_CTRL_KIND g kind) n F.MILL_RESUME_CTRL_CUR g cur

/-- A macro-op as it waits to be issued, with the resume cursor given. -/
def freshOp (m : Mop) (cur : Nat) : Mop :=
  { m with cur := cur, delivered := [], started := false, doneBy := [], parkedAt := [], passed := false, flags := {},
           croak := none, crkIn := [], crkDone := 0 }

/-- Release the Wheel slots latched for a macro-op (10 R238). -/
def releaseSlots (s : Block) (gk num : Nat) : Block :=
  { s with latches := s.latches.filter fun p => match p.2 with
      | some l => !(l.gang == gk && l.num == num)
      | none => true }

/-- The latches of a macro-op. -/
def opLatches (s : Block) (gk num : Nat) : List (Nat × Latch) :=
  s.latches.filterMap fun p => p.2.bind fun l => if l.gang == gk && l.num == num then some (p.1, l) else none

/-- The tiles let go of a macro-op: it leaves their FIFOs, and a tile that was running it is left in phase `ph`. -/
def tileDrop (tk num : Nat) (ph : TPhase) (s : Block) : Block :=
  let t := tile s tk
  let fifo := t.fifo.filter (· != num)
  let t := { t with fifo := fifo, released := t.released && !fifo.isEmpty }
  if t.mop = some num then putTile s tk { t with mop := none, phase := ph, wait := .none, rep := false, stack := [] }
  else putTile s tk t

def dropFromTiles (s : Block) (tiles : List Nat) (num : Nat) (ph : TPhase) : Block :=
  tiles.foldl (fun s tk => tileDrop tk num ph s) s

/-! ### Entering STOPPED and OFF -/

/-- How the GANG_RUN program of a gang ends, if one runs and has not ended yet: status, and the fault source or the acceptance
number of A.END (14 R339). -/
def endProgram (x : GangSt) (status value : Nat) : GangSt :=
  if x.program.isSome && x.verdict.isNone then { x with verdict := some (status, value) } else x

/-- The yield is over: nothing of it is left in the gang. -/
def clearYield (x : GangSt) : GangSt :=
  { x with stop := none, frontier := none, finalEnable := true, cmax := none, complete := false, abandon := false,
           closing := none }

/-- The gang enters STOPPED with a cause; GANG_STOPPED becomes pending at the issuing task (06 R158, 08 R179).  `src` is the
fault source, for a program that a fault or an illegal macro-op ends. -/
def enterStopped (s : Block) (n g : Nat) (c : StopCause) (src : Nat) : Block :=
  let x := clearYield (gang s n g)
  let x := if c = .fault || c = .illegal then endProgram x 0x40 src else x
  let s := putGang s n g x
  let s := fput (setGState s n g gStopped) n F.MILL_GANG_STATUS_CAUSE g (causeCode c)
  irqAcu s n g cGangStopped

/-! ### Acceptance (06 R152, 04 R120) -/

/-- Millrace can take a macro-op of the gang (06 R152). -/
def canAccept (s : Block) (n g : Nat) : Bool :=
  let x := gang s n g
  (gState s n g == gIdle || gState s n g == gRun) && decide (x.flight.length < 256) && x.stop.isNone && x.closing.isNone

/-- Take the macro-op `w` (06 R152, R158): number it, check it (04 R120), and queue it with the edge modes (02 R45) and the
MILL_FPCTRL (05 R141) in force now; a macro-op that fails a check is recorded and ends acceptance. -/
def acceptOp (s : Block) (n g : Nat) (w : BitVec 128) : Block :=
  let x := gang s n g
  let num := x.accepted + 1
  let f := mopFields w
  let cls := dispEntry s n (mopRoutine f)
  let e := edgesOf (rget s n .MILL_EDGE g)
  let reason := mopReason f cls e (gangRect s n g)
  let s := setGState s n g gRun
  if reason = 0 then
    let m : Mop := { num := num, word := w, edges := e, fpctrl := rget s n .MILL_FPCTRL g, cls := cls.getD 0 }
    putGang s n g { x with accepted := num, flight := x.flight ++ [m] }
  else
    let s := putGang s n g (addLost { x with accepted := num, closing := some .illegal } [num])
    let s := fput (fput s n F.MILL_ILLEGAL_VALID g 1) n F.MILL_ILLEGAL_REASON g reason
    let s := putOpRegs s n g .MILL_ILLEGAL_OP w
    let s := raise s n SRC.ILLEGAL_ARRAY_OP g (2 ^ 31 + reason)
    if x.flight.isEmpty then enterStopped s n g .illegal SRC.ILLEGAL_ARRAY_OP else s

/-- A write of MILL_FPCTRL that task `k` committed before its MILL issue is still in the store buffer (05 R141). -/
def fpctrlComing (s : Block) (n g k : Nat) : Bool :=
  (acu s n g).sb.any fun e => e.task == k && e.addr == 0x403000C0 && e.be.extractLsb' 0 4 != 0

/-- MILLRACE_ACCEPT (06 R152): the macro-op that the issuing task presents is accepted, and its MILL.ISS commits with the
acceptance number (08 R186).  While Millrace cannot accept, the task goes on waiting; the task's own writes of MILL_FPCTRL come first
(05 R141). -/
def millraceAccept (n : Node) (g : GangIx) (s : Block) : Block :=
  match (gang s n g).presented with
  | none => s
  | some (w, k, rd) =>
    if canAccept s n g && !fpctrlComing s n g k then
      let s := acceptOp (putGang s n g { gang s n g with presented := none }) n g w
      commit (gprPut s n g k rd (BitVec.ofNat 32 (gang s n g).accepted)) n g k
    else s

/-! ### Retirement (06 R152) -/

/-- The flags a retiring macro-op gives enter MILL_FFLAGS; a Croak op gives none (05 R140). -/
def gatherFlags (s : Block) (n g : Nat) (f : Flags) : Block :=
  rput s n .MILL_FFLAGS g (rget s n .MILL_FFLAGS g ||| BitVec.ofNat 32 f.toNat)

/-- The trap of a retiring float op (05 R142, R143). -/
def fpTrap (s : Block) (n g : Nat) (m : Mop) : Block :=
  let f := (m.gave.join m.flags).toNat % 32
  let te := wbits m.fpctrl 20 16
  if !mopFloat (mopFields m.word) || Nat.land f te == 0 then s
  else if fbit s n F.MILL_FTRAP_PENDING g then
    fput (fput s n F.MILL_FTRAP_MORE g 1) n F.MILL_FTRAP_FLAGS g (Nat.lor (fget s n F.MILL_FTRAP_FLAGS g) f)
  else
    let s := fput (fput s n F.MILL_FTRAP_PENDING g 1) n F.MILL_FTRAP_FLAGS g f
    let s := fput s n F.MILL_FTRAP_OPC g (mopFields m.word).opc
    let s := irqAcu s n g cArrayFp
    if m.fpctrl.getLsbD 21 then
      putGang s n g { gang s n g with closing := some (joinCause (gang s n g).closing .fpTrap) }
    else s

/-- The value of a retiring Croak op goes to the result queue and to CRK_RESULT (06 R157). -/
def croakReturn (s : Block) (n g : Nat) (m : Mop) : Block :=
  match m.croak with
  | some v =>
    if mopCroaks (mopFields m.word) then
      let s := put64 s n .CRK_RESULT 0 g v
      putGang s n g { gang s n g with crkQueue := (gang s n g).crkQueue ++ [v] }
    else s
  | none => s

/-- Everything a retirement does but the gang's own state (06 R152, R157; 05 R140, R142; 04 R110). -/
def retireEffects (s : Block) (n g : Nat) (m : Mop) : Block :=
  let f := mopFields m.word
  let s := if mopCroaks f then s else gatherFlags s n g m.flags
  let s := fpTrap s n g m
  let s := croakReturn s n g m
  let s := releaseSlots s (gkey n g) m.num
  let x := gang s n g
  let s := putGang s n g { x with flight := x.flight.filter fun o => o.num != m.num }
  let s := fwrap s n ⟨.MILL_RETIRED, 31, 0⟩ g
  if f.opc = 0x01 then putGang s n g (endProgram (gang s n g) 0x00 m.num) else s

/-- After a retirement in RUN: the gang goes to IDLE when nothing is in flight, or to STOPPED if acceptance has ended
(06 R158). -/
def afterRetire (s : Block) (n g : Nat) : Block :=
  let x := gang s n g
  if gState s n g = gRun && x.flight.isEmpty then
    match x.closing with
    | some c => enterStopped s n g c (if c = .illegal then SRC.ILLEGAL_ARRAY_OP else 0)
    | none => setGState s n g gIdle
  else s

/-- MACRO_OP_RETIRE (06 R152): the oldest macro-op in flight retires once every tile has reported it done. -/
def macroOpRetire (n : Node) (g : GangIx) (s : Block) : Block :=
  match (gang s n g).flight with
  | [] => s
  | m :: _ =>
    if m.started && opDone (gangTiles s n g) m then afterRetire (retireEffects s n g m) n g else s

/-! ### Undefined results (03 R79, R88; 02 R38; 06 R161) -/

/-- Plane addresses of the destination of a macro-op: operand 0 (04 "The macro-op word"); of A.SCAN the workspace too, which the op
writes and R114 leaves undefined. -/
def destAddrs (f : MopF) : List Nat :=
  let ext := fun (k : Nat) => (List.range (mopExtent f k).2).map fun i => (mopExtent f k).1 + i
  if mopUser f then ext 0
  else if (mopUses f).1 then (if f.opc = 0x51 then ext 0 ++ ext 1 else ext 0) else []

/-- Does the macro-op write M, or F? A user routine may write either. -/
def writesM (f : MopF) : Bool := mopUser f || f.opc == 0x06
def writesF (f : MopF) : Bool := mopUser f || f.opc == 0x03 || f.opc == 0x05 || f.fupd != 0

/-- The destination, scratch, and M and F if it writes them and `mf` says so, become undefined on every tile. -/
def undefResult (s : Block) (tiles : List Nat) (m : Mop) (mf : Bool) : Block :=
  let f := mopFields m.word
  let slots := (destAddrs f).map addrSlot ++ (if mf && writesM f then [2050] else [])
    ++ (if mf && writesF f then [2051] else [])
  tiles.foldl (fun s tk => clobber (slots.foldl (fun s sl => undefine s tk sl) s) tk) s

/-! ### The fault stop (06 R161) -/

/-- Retire the macro-ops that every tile had reported done, oldest first (06 R161). -/
def retirePrefix (s : Block) (n g : Nat) (tiles : List Nat) : Block :=
  ((gang s n g).flight.takeWhile fun m => m.started && opDone tiles m).foldl (fun s m => retireEffects s n g m) s

/-- What a fault stop leaves of one macro-op that does not retire. Of the failed one, the rules of its fault name the destination and
scratch (02 R38, 03 R79, R88), and those of a stall or an edge mismatch name nothing (02 R43, R47, 03 R67): they get the same, and in
every case M and F stay as they stand (DESIGN CHOICE, log 62). -/
def faultLose (s : Block) (n g : Nat) (tiles : List Nat) (failed : Option Nat) (m : Mop) : Block :=
  let s := dropFromTiles s tiles m.num .stopped
  let s := releaseSlots s (gkey n g) m.num
  if !m.started then s
  else if failed = some m.num then undefResult s tiles m false
  else if opDone tiles m then s
  else undefResult s tiles m true

/-- A fault stop of a gang, with the macro-op that failed, if any, and the fault source (06 R158, R161). A gang in DRAINING stays
there with nothing left to finish; one in OFF is unchanged. -/
def faultStop (s : Block) (n g : Nat) (failed : Option Nat) (src : Nat) : Block :=
  let st := gState s n g
  if st = gOff then s
  else
    let tiles := gangTiles s n g
    let s := retirePrefix s n g tiles
    let rest := (gang s n g).flight
    let s := rest.foldl (fun s m => faultLose s n g tiles failed m) s
    let s := putGang s n g (addLost { gang s n g with flight := [] } (rest.map (·.num)))
    let s := clearResume s n g
    if st = gDraining then s else enterStopped s n g .fault src

/-- The fault stop of the gang a tile belongs to: the macro-op it was running has failed. -/
def faultStopTile (s : Block) (tk : Nat) (src : Nat) : Block :=
  match tileOwner s tk with
  | some (n, g) => faultStop s n g (tile s tk).mop src
  | none => s

/-! ### Stop requests (06 R159) -/

/-- The tiles give back the macro-ops newer than the frontier (06 R159, step 3); a tile left with none is in no wave. -/
def withdraw (s : Block) (n g frontier : Nat) : Block :=
  let tiles := gangTiles s n g
  let s := tiles.foldl (fun s tk =>
    let t := tile s tk
    let fifo := t.fifo.filter (· ≤ frontier)
    let due := !fifo.isEmpty || (gang s n g).flight.any fun m => decide (m.num ≤ frontier) && !m.delivered.contains tk
    putTile s tk { t with fifo := fifo, released := t.released && due }) s
  let x := gang s n g
  putGang s n g { x with flight := x.flight.map fun m => if frontier < m.num then freshOp m m.cur else m }

/-- The fault source that a stop's cause gives the program it ends (14 R339). -/
def stopSrc (c : StopCause) : Nat := if c = .illegal then SRC.ILLEGAL_ARRAY_OP else 0

/-- A stop request (06 R158, R159). -/
def stopRequest (s : Block) (n g : Nat) (c : StopCause) : Block :=
  let st := gState s n g
  let x := gang s n g
  let c' := joinCause x.closing c
  if st = gIdle then enterStopped s n g c' 0
  else if st = gRun then
    match newestStarted x with
    | none => enterStopped (withdraw s n g 0) n g c' (stopSrc c')
    | some fr =>
      let s := putGang s n g { x with stop := some c', frontier := some fr, finalEnable := false }
      setGState (withdraw s n g fr) n g gYielding
  else s

/-- Discard what a stopped gang holds and has queued: an abort (06 R163). -/
def discardAll (s : Block) (n g : Nat) : Block :=
  let x := gang s n g
  let s := x.flight.foldl (fun s m => releaseSlots s (gkey n g) m.num) s
  clearResume (putGang s n g (addLost { x with flight := [] } (x.flight.map (·.num)))) n g

/-- An abort's stop (06 R163): as a stop request, with the cause ABORT; what is held and queued goes. -/
def abortStop (s : Block) (n g : Nat) : Block :=
  let st := gState s n g
  let x := gang s n g
  if st = gYielding then putGang s n g { x with stop := some (joinCause x.stop .abort) }
  else if st = gStopped then
    let s := discardAll s n g
    if fget s n F.MILL_GANG_STATUS_CAUSE g = 6 then s else fput s n F.MILL_GANG_STATUS_CAUSE g 3
  else
    let s := stopRequest s n g .abort
    if gState s n g = gStopped then discardAll s n g else s

/-! ### Delivery, waves and dispatch (06 R149-R154, 03 R71) -/

/-- May tiles still receive and dispatch this macro-op? In RUN any; while a stop or drain is decided, those up to the frontier,
but not a frontier op that is to be abandoned or cancelled. -/
def opLive (s : Block) (n g num : Nat) : Bool :=
  let x := gang s n g
  let st := gState s n g
  if st = gRun then true
  else if st = gYielding || st = gDraining then
    match x.frontier with
    | some fr => decide (num < fr) || (num == fr && !x.abandon)
    | none => false
  else false

/-- A store write is in progress on the tile, its own or one that goes to every tile of its module: issue to it is held (03 R81,
R83). -/
def storeHeld (s : Block) (tk : Nat) : Bool :=
  s.tiles.any fun p => match p.2.storeOp with
    | some op => op.cmd == 2 && !op.refused && (p.1 == tk || (op.bcast && p.1 / 1024 == tk / 1024))
    | none => false

/-- A tile of the gang holds an uncorrectable store word (03 R89). -/
def storeBad (s : Block) (tk : Nat) : Bool := fbit s (tk / 1024) F.NEWT_STORE_ECC_STORE_BAD (tk % 1024)

/-- MACRO_OP_DELIVERY (06 R153): the next macro-op that the tile has not received enters its 64-entry FIFO; issue to a tile whose
stores are being written is held (03 R81), throttling withholds delivery (18 R400), and a tile with STORE_BAD stops the gang before any tile executes (03 R89). -/
def macroOpDelivery (n : Node) (g : GangIx) (tn : Node) (t : TileIx) (s : Block) : Block :=
  let tk := tkey tn t
  let tiles := gangTiles s n g
  let x := gang s n g
  match x.flight.find? fun m => !m.delivered.contains tk with
  | none => s
  | some m =>
    let ti := tile s tk
    if tiles.contains tk && opLive s n g m.num && decide (ti.fifo.length < 64) && !storeHeld s tk
        && decide (ti.phase ≠ .loading) && !withheld s tn t then
      match tiles.find? (storeBad s) with
      | some bad =>
        let s := raise s (bad / 1024) SRC.NEWT_STORE_UE (bad % 1024) 0
        faultStop s n g none SRC.NEWT_STORE_UE
      | none =>
        let s := putTile s tk { ti with fifo := ti.fifo ++ [m.num] }
        putGang s n g (setOp x { m with delivered := m.delivered ++ [tk] })
    else s

/-- A tile is cold when it has executed no nano-word for 1 µs or more (06 R154). -/
def tileCold (s : Block) (tk : Nat) : Bool :=
  match (tile s tk).lastRun with
  | none => true
  | some t => decide (t + 1000 * 65536 ≤ s.now)

/-- A macro-op is in the tile's FIFO or is to be delivered to it. -/
def opComing (s : Block) (n g tk : Nat) : Bool :=
  !(tile s tk).fifo.isEmpty || (gang s n g).flight.any fun m => !m.delivered.contains tk && opLive s n g m.num

/-- COLD_WAVE_RELEASE (06 R154): the next 2^WAVE_LOG2 cold tiles to which a macro-op is, or is to be, delivered, in ascending system
tile order, INTERVAL ns after the wave before it. -/
def coldWaveRelease (n : Node) (g : GangIx) (s : Block) : Block :=
  let cold := (gangTiles s n g).filter fun tk =>
    tileCold s tk && opComing s n g tk && !(tile s tk).released && decide ((tile s tk).mop = none)
  if cold.isEmpty then s
  else
    let s := match (gang s n g).waveAt with
      | some t => atTime s (t + fget s n F.MILL_PACE_INTERVAL g * 2 ^ 16)
      | none => s
    let s := putGang s n g { gang s n g with waveAt := some s.now }
    (cold.take (2 ^ fget s n F.MILL_PACE_WAVE_LOG2 g)).foldl (fun s tk => putTile s tk { tile s tk with released := true }) s

/-- How many macro-ops in flight come before this one. -/
def opIndex (x : GangSt) (num : Nat) : Nat := x.flight.findIdx fun m => m.num == num

/-- K0, K1 and K2 at dispatch (04 R92, first row that names the op). -/
def kValues (f : MopF) : Nat × Nat × Nat :=
  let o := f.opc
  if 0x40 ≤ o && o ≤ 0x43 then (f.wid1, 0, 0)
  else if o = 0x33 then (f.wid0, f.prm % 2 ^ 12 - 1, 0)
  else if o = 0x50 || o = 0x53 || o = 0x54 then (f.cnt - 1, f.wid0, 0)
  else if o = 0x52 then (f.cnt - 1, f.wid0, 2 ^ (f.prm % 16) - 1)
  else if o ≤ 0x02 then (0, 0, 0)
  else if mopFl f = 1 then (fmtFrac f.fmt, fmtExp f.fmt - 1, fmtExp f.fmt + fmtFrac f.fmt)
  else (f.wid0, f.wid1, f.wid2)

/-- ⌈log2 x⌉. -/
def clog2 (x : Nat) : Nat := if x ≤ 1 then 0 else Nat.log2 (x - 1) + 1

/-- K values with A.SCAN's stage count, which depends on the gang's extent (04 R92, R114). -/
def kFor (f : MopF) (gw gh : Nat) : Nat × Nat × Nat :=
  if f.opc = 0x51 then (f.wid0, clog2 (if f.prm.testBit 0 then gh else gw) - 1, 0) else kValues f

/-- The tile's sequencer state as R56 sets it at dispatch; `entry` is the tile's own dispatch entry, with ENTRY and CLASS (03 R69). -/
def dispatchState (t : Tile) (m : Mop) (entry : Nat) (gw gh : Nat) : Tile :=
  let f := mopFields m.word
  let k := kFor f gw gh
  let pa : Gens := ⟨BitVec.ofNat 11 f.base0, BitVec.ofNat 11 f.base1, BitVec.ofNat 11 f.base2, 1920⟩
  { t with
    phase := .run, wait := .none, routine := mopRoutine f, cls := bitsOf entry 14 13, upc := BitVec.ofNat 13 entry,
    stack := [],
    lc0 := BitVec.ofNat 16 k.1, lc1 := BitVec.ofNat 16 k.2.1,
    k0 := BitVec.ofNat 16 k.1, k1 := BitVec.ofNat 16 k.2.1, k2 := BitVec.ofNat 16 k.2.2, rc := 0, rep := false,
    pa := pa, b := pa, s := ⟨BitVec.ofNat 11 f.wid0, BitVec.ofNat 11 f.wid1, BitVec.ofNat 11 f.wid2, 0⟩,
    cur := BitVec.ofNat 16 m.cur, prm := BitVec.ofNat 16 f.prm, qr := false, qpend := [], crf := false, fin := false,
    mop := some m.num, cycles := 0, overrun := false, owed := 0, sent := false, moved := 0, crkSent := 0, crkGot := 0,
    whlReady := false, whlBuf := [], released := false, fifo := t.fifo.filter (· != m.num) }

/-- MACRO_OP_DONE: the tile reports a macro-op done (03 R71). -/
def reportDone (s : Block) (n g num tk : Nat) : Block :=
  let x := gang s n g
  match findOp x num with
  | some m => putGang s n g (setOp x { m with doneBy := m.doneBy ++ [tk] })
  | none => s

/-! ### Yield decisions and the end of a stop (03 R76, R77; 06 R159, R162) -/

/-- Set the phase of the tiles that are parked below a cursor (all of them when none is given) back to RUN. -/
def unpark (s : Block) (tiles : List Nat) (num : Nat) (below : Option Nat) : Block :=
  tiles.foldl (fun s tk =>
    let t := tile s tk
    let go := match below with
      | some c => decide (t.cur.toNat < c)
      | none => true
    if t.mop = some num && t.phase = .parked && go then putTile s tk { t with phase := .run } else s) s

/-- YIELD_DECISION (03 R76, R77): for the frontier op, completion on every tile if any has finished or passed its gate; else a
restartable op is abandoned and a resumable one goes on to the highest cursor reported. -/
def yieldDecision (n : Node) (g : GangIx) (s : Block) : Block :=
  let x := gang s n g
  let st := gState s n g
  let tiles := gangTiles s n g
  if !(st == gYielding || st == gDraining) || x.complete || x.abandon || x.cmax.isSome then s
  else
    match x.frontier.bind (findOp x) with
    | none => s
    | some m =>
      if m.cls = 0 then putGang s n g { x with complete := true, finalEnable := true }
      else if m.cls = 1 then
        if m.passed || !m.doneBy.isEmpty then putGang s n g { x with complete := true, finalEnable := true }
        else putGang s n g { x with abandon := true }
      else if tiles.all fun tk => m.doneBy.contains tk || (m.parkedAt.any fun p => p.1 == tk) then
        if m.doneBy.isEmpty then
          let c := m.parkedAt.foldl (fun c p => max c p.2) 0
          unpark (putGang s n g { x with cmax := some c }) tiles m.num (some c)
        else unpark (putGang s n g { x with complete := true }) tiles m.num none
      else s

/-- The frontier op has come to rest without completing: abandoned on every tile (kind 1), or parked at Cmax on every tile
(kind 2).  One that every tile has reported done retires, although its abandonment was decided: it had no FINAL to be held at
(03 R77). -/
def restKind (s : Block) (x : GangSt) (tiles : List Nat) (m : Mop) : Option (Nat × Nat) :=
  if opDone tiles m then none
  else if x.abandon then if tiles.all fun tk => decide ((tile s tk).mop ≠ some m.num) then some (1, 0) else none
  else
    match x.cmax with
    | some c =>
      if tiles.all fun tk => decide ((tile s tk).mop = some m.num) && decide ((tile s tk).phase = .parked)
          && decide ((tile s tk).cur.toNat = c) then some (2, c)
      else none
    | none => none

/-- The tiles let go of the frontier op; each is idle.  Where it is abandoned (kind 1), scratch is undefined on every tile, on those
too that had not dispatched it (03 R77). -/
def letGo (s : Block) (tiles : List Nat) (num kind : Nat) : Block :=
  let s := dropFromTiles s tiles num .idle
  if kind = 1 then tiles.foldl clobber s else s

/-- STOP_COMPLETE (06 R159 step 6, R163): every older macro-op has retired, and the frontier op has completed, or rests and is
held; an abort then discards what is held and queued. CAUSE is the first of the causes that acted, a trap with TSTOP = 1 or an
illegal macro-op met on the way among them. -/
def stopComplete (n : Node) (g : GangIx) (s : Block) : Block :=
  let x := gang s n g
  let tiles := gangTiles s n g
  match x.stop, x.frontier with
  | some c, some fr =>
    if gState s n g ≠ gYielding then s
    else
      let c := joinCause x.closing c
      let fin := fun (s : Block) =>
        let s := enterStopped s n g c (stopSrc c)
        if c = .abort then discardAll s n g else s
      match x.flight with
      | [] => fin s
      | m :: rest =>
        if fr < m.num then fin s
        else if m.num = fr then
          match restKind s x tiles m with
          | none => s
          | some (kind, cur) =>
            let s := letGo s tiles fr kind
            let s := if mopCroaks (mopFields m.word) then s else gatherFlags s n g (if kind = 2 then m.flags else {})
            let old := s
            let s := releaseSlots s (gkey n g) fr
            let held := { freshOp m cur with
              gave := if kind = 2 then m.gave.join m.flags else m.gave, kept := opLatches old (gkey n g) fr }
            let s := putGang s n g { x with flight := held :: rest }
            fin (holdResume s n g held kind cur)
        else s
  | _, _ => s

/-- EN written 0 (06 R162): DRAINING; what no tile has dispatched is discarded.  The Croak queue is emptied in every state
(08 R188). -/
def startDrain (s : Block) (n g : Nat) : Block :=
  let st := gState s n g
  if st = gOff || st = gDraining then putGang s n g { gang s n g with crkQueue := [] }
  else
    let x := gang s n g
    let tiles := gangTiles s n g
    let gone := (x.flight.filter fun m => !m.started).map (·.num)
    let s := gone.foldl (fun s k => releaseSlots (dropFromTiles s tiles k .idle) (gkey n g) k) s
    let fr := newestStarted x
    let x := { x with
      flight := x.flight.filter (·.started), stop := none, closing := none, crkQueue := [], frontier := fr,
      finalEnable := if st = gYielding then x.finalEnable else fr.isNone }
    let s := putGang s n g (endProgram (addLost x gone) 0x03 0)
    let s := clearResume s n g
    let s := if st = gStopped then fput s n F.MILL_GANG_STATUS_CAUSE g 0 else s
    fput (setGState s n g gDraining) n F.MILL_GANG_CTRL_EN g 0

/-- GANG_DRAIN_DONE (06 R162): nothing is left in flight, or the frontier op rests, abandoned or cancelled; STATE reads OFF. -/
def gangDrainDone (n : Node) (g : GangIx) (s : Block) : Block :=
  let x := gang s n g
  let tiles := gangTiles s n g
  let off := fun (s : Block) =>
    irqAcu (setGState (putGang s n g (clearYield (gang s n g))) n g gOff) n g cGangStopped
  if gState s n g ≠ gDraining then s
  else
    match x.flight with
    | [] => off s
    | [m] =>
      match restKind s x tiles m with
      | none => s
      | some (kind, _) =>
        let s := letGo s tiles m.num kind
        let s := if kind = 2 then gatherFlags s n g m.flags else s
        let s := releaseSlots s (gkey n g) m.num
        off (putGang s n g (addLost { x with flight := [] } [m.num]))
    | _ => s

/-! ### Resume (06 R160, 04 R119) -/

/-- RESUME (06 R160): the held macro-op and the queue go on, and Millrace accepts again. -/
def resumeGang (s : Block) (n g : Nat) : Block :=
  if gState s n g = gStopped then
    let s := clearResume s n g
    let s := fput s n F.MILL_GANG_STATUS_CAUSE g 0
    setGState s n g (if (gang s n g).flight.isEmpty then gIdle else gRun)
  else millReject s n

/-- RESUME_DISCARD (04 R119): the held macro-op is dropped without retiring. -/
def discardHeld (s : Block) (n g : Nat) : Block :=
  if gState s n g = gStopped then
    if fbit s n F.MILL_RESUME_CTRL_VALID g then
      match (gang s n g).flight with
      | m :: rest => clearResume (putGang s n g (addLost { gang s n g with flight := rest } [m.num])) n g
      | [] => clearResume s n g
    else s
  else millReject s n

/-- How many unretired macro-ops the fastest tile has dispatched, but for one that a stop holds (MILL_INFLIGHT.SPREAD counts it
too). -/
def spreadOf (x : GangSt) : Nat := (x.flight.filter (·.started)).length

/-- The outcome MILL.WAIT reads for an acceptance number, `none` while the task has to wait (08 R189). -/
def waitOutcome (s : Block) (n g w : Nat) : Option Nat :=
  let x := gang s n g
  let st := gState s n g
  -- the most recent acceptance number congruent to `w` modulo 2^32
  let num := x.accepted - (x.accepted + 2 ^ 32 - w % 2 ^ 32) % 2 ^ 32
  if x.accepted < (x.accepted + 2 ^ 32 - w % 2 ^ 32) % 2 ^ 32 || num = 0 then some 3
  else if num + 1024 ≤ x.accepted then some 2
  else if x.lost.contains num then some 1
  else if (findOp x num).isNone then some 0
  else if st = gStopped || st = gDraining || st = gOff then some 1
  else none

end Sys2Proof.Machine
end

