-- ==== Sys2Proof/Machine/AcuTrap.lean ====
section
/-! DEFINITION. Sys2Proof/Machine/AcuTrap.lean: taking a cause: the one operation that precise traps, imprecise traps and interrupts
share, and the choice among pending causes (08 R177, R179-R184, R190). -/

namespace Sys2Proof.Machine

/-- Causes (08 R179). -/
def cauIllegal : Nat := 0x00
def cauWindowOvf : Nat := 0x01
def cauWindowUnf : Nat := 0x02
def cauAccess : Nat := 0x03
def cauMillDenied : Nat := 0x04
def cauSwtrap : Nat := 0x05
def cauFpTrap : Nat := 0x06
def cauStoreErr : Nat := 0x07

/-- The handler of a cause. -/
def vectorOf (s : Block) (n a cause : Nat) : Nat :=
  ((rget s n .ACU_VECBASE a).toNat / 1024 * 1024 + 16 * cause) % 2 ^ 32

/-- Write W8 + `i` of the trap window that follows window `curw` (08 R177). -/
def trapReg (s : Block) (n a k curw i : Nat) (v : Word) : Block := slotPut s n a k (8 + 8 * ((curw + 2) % 4) + i) v

/-- Take a cause (08 R182): W8 to W10, and W11 where a value is given, are written; the window moves; IE is cleared; the PC goes to the
vector. -/
def enterTrap (s : Block) (n a k cause pc : Nat) (w11 : Option Word) : Block :=
  let s := unserve s n a k
  let w := psw s n a k
  let c := pswF s n a k F.ACU_TASK_PSW_CURW
  let s := trapReg s n a k c 0 (BitVec.ofNat 32 pc)
  let s := trapReg s n a k c 1 w
  let s := trapReg s n a k c 2 (BitVec.ofNat 32 cause)
  let s := match w11 with
    | some v => trapReg s n a k c 3 v
    | none => s
  let s := pswPut s n a k F.ACU_TASK_PSW_CURW ((c + 1) % 4)
  let s := pswPut s n a k F.ACU_TASK_PSW_TW 1
  let s := pswPut s n a k F.ACU_TASK_PSW_IE 0
  setRun (setPc s n a k (vectorOf s n a cause)) n a k runReady 0

/-- A precise trap at the task's PC (08 R181); in the trap window it is not taken and the task halts (08 R177). -/
def preciseTrap (s : Block) (n a k cause : Nat) (w11 : Option Word) : Block :=
  if pswF s n a k F.ACU_TASK_PSW_TW = 1 then
    let s := raise s n SRC.WINDOW_DOUBLE (a * 64 + k) cause
    fput (setRun s n a k runHalted 0) n F.ACU_TASK_STATUS_HALT_CAUSE (at2 a k) cause
  else enterTrap s n a k cause (taskPc s n a k) w11

/-! ### Pending causes (08 R181) -/

/-- The routed causes pending at a task, as a mask. -/
def routedPend (s : Block) (n a k : Nat) : Nat := Nat.lor (rget s n .ACU_TASK_PEND (at2 a k)).toNat (fabricLevel s n a k)

/-- The causes 0x06 (bit 0) and 0x07 (bit 1) pending at a task. -/
def syncPend (s : Block) (n a k : Nat) : Nat := (mget (fun _ => 0) s.pendSync (taskKey n a k)).toNat

/-- The pending routed cause of highest PRIO, then of lowest number. -/
def pickRouted (s : Block) (n a pend : Nat) : Nat → Option Nat
  | 0 => none
  | i + 1 =>
    let rest := pickRouted s n a pend i
    if pend.testBit i then
      match rest with
      | none => some i
      | some j => if fget s n F.ACU_IRQ_ROUTE_PRIO (ix j a) < fget s n F.ACU_IRQ_ROUTE_PRIO (ix i a) then some i else some j
    else rest

/-- The cause that would be taken next. -/
def pickCause (s : Block) (n a k : Nat) : Option Nat :=
  let y := syncPend s n a k
  if y.testBit 0 then some cauFpTrap
  else if y.testBit 1 then some cauStoreErr
  else if routedPend s n a k = 0 then none
  else (pickRouted s n a (routedPend s n a k) 32).map (0x10 + ·)

/-- A cause can be taken now: IE = 1 and TW = 0. -/
def takeable (s : Block) (n a k : Nat) : Option Nat :=
  if pswF s n a k F.ACU_TASK_PSW_IE = 1 && pswF s n a k F.ACU_TASK_PSW_TW = 0 then pickCause s n a k else none

/-- What a cause puts into W11 (08 R177). -/
def causeW11 (s : Block) (n a k cause : Nat) : Option Word :=
  if cause = cauFpTrap then some (task s (taskKey n a k)).fpAddr
  else if cause = cauStoreErr then some (task s (taskKey n a k)).errAddr
  else none

/-- A cause taken is no longer pending; with YIELD_IRQ = 1 the issuing task's taking of a routed cause asks the gang to stop
(08 R190). -/
def causeTaken (s : Block) (n a k cause : Nat) : Block :=
  let tk := taskKey n a k
  if cause < 0x10 then
    { s with
      pendSync := mput (fun _ => 0) s.pendSync tk
        (mget (fun _ => 0) s.pendSync tk &&& ~~~(BitVec.ofNat 2 (2 ^ (cause - 6)))) }
  else
    let s := rput s n .ACU_TASK_PEND (at2 a k)
      (rget s n .ACU_TASK_PEND (at2 a k) &&& ~~~(BitVec.ofNat 32 (2 ^ (cause - 0x10))))
    if fbit s n F.ACU_MILL_YIELD_IRQ a && fget s n F.ACU_MILL_TASK a == k then stopRequest s n a .acu else s

/-- An FBAR that waited and whose ops have all reported commits before a trap is taken (08 R201). -/
def fbarFirst (s : Block) (n a k : Nat) : Block :=
  if taskRun s n a k = runWait && fget s n F.ACU_TASK_STATUS_WAIT (at2 a k) == wFbar && (task s (taskKey n a k)).fps.isEmpty then
    commit s n a k
  else s

/-- TRAP_ENTRY (08 R181, R182): the task takes its next pending cause at an instruction boundary; an instruction that waits is given up
uncommitted and runs again after the return. -/
def trapEntry (n : Node) (a : AcuIx) (k : TaskIx) (s : Block) : Block :=
  let run := taskRun s n a k
  if inRun s n && taskState s n a k = 2 && (run = runReady || run = runWait) then
    match takeable s n a k with
    | none => s
    | some c =>
      let s := abandonInstr (fbarFirst s n a k) n a k
      causeTaken (enterTrap s n a k c (taskPc s n a k) (causeW11 s n a k c)) n a k c
  else s

end Sys2Proof.Machine
end

