-- ==== Sys2Proof/Machine/Newt.lean ====
section
/-! DEFINITION. Sys2Proof/Machine/Newt.lean: what every Newt does: plane reads and writes with their error correction (02 R33-R39),
the three stores (03 R80-R90), one tile cycle (02 R26-R29, 03 R56-R68, R74-R79), and neighbour exchange (02 R41-R47). -/

namespace Sys2Proof.Machine

/-- Four values, one per side: read and replace one. -/
def PerSide.get {α : Type} (p : PerSide α) : Side → α
  | .north => p.north
  | .south => p.south
  | .east => p.east
  | .west => p.west

def PerSide.put {α : Type} (p : PerSide α) (d : Side) (v : α) : PerSide α :=
  match d with
  | .north => { p with north := v }
  | .south => { p with south := v }
  | .east => { p with east := v }
  | .west => { p with west := v }

/-- The side facing a side. -/
def oppSide : Side → Side
  | .north => .south
  | .south => .north
  | .east => .west
  | .west => .east

/-! ### Plane rows: errors and writes -/

/-- NEWT_PLANE_ERRADDR value of an error (02 NEWT_PLANE_ERRADDR). -/
def errAddrWord (ue : Bool) (col row addr : Nat) : Nat :=
  2 ^ 31 + b2n ue * 2 ^ 30 + col % 128 * 2 ^ 23 + row % 64 * 2 ^ 16 + addr % 2048

/-- Record an error in NEWT_PLANE_ERRADDR (02 R39). -/
def recordErrAddr (s : Block) (tk : Nat) (ue : Bool) (col row addr : Nat) : Block :=
  let n := tk / 1024
  let t := tk % 1024
  if fbit s n F.NEWT_PLANE_ERRADDR_VALID t && fbit s n F.NEWT_PLANE_ERRADDR_UE t && !ue then s
  else rput s n .NEWT_PLANE_ERRADDR t (BitVec.ofNat 32 (errAddrWord ue col row addr))

/-- Raise, count and record a correctable plane error (02 R37, R51). -/
def planeCe (s : Block) (tk row addr col : Nat) : Block :=
  let s := raise s (tk / 1024) SRC.NEWT_PLANE_CE (tk % 1024) (errAddrWord false col row addr)
  let s := fsat s (tk / 1024) F.NEWT_PLANE_ECC_CE_COUNT (tk % 1024)
  recordErrAddr s tk false col row addr

/-- Raise, count and record an uncorrectable plane row. -/
def planeUe (s : Block) (tk row addr : Nat) : Block :=
  let s := raise s (tk / 1024) SRC.NEWT_PLANE_UE (tk % 1024) (errAddrWord true 127 row addr)
  let s := fsat s (tk / 1024) F.NEWT_PLANE_ECC_UE_COUNT (tk % 1024)
  recordErrAddr s tk true 127 row addr

/-- A correctable error met by a macro-op: nothing if the repair queue holds the row; else raised, and queued if there is room
(02 R37). -/
def metCe (s : Block) (tk row addr col : Nat) : Block :=
  let q := (tile s tk).repair
  if q.contains (row, addr) then s
  else
    let s := planeCe s tk row addr col
    if q.length < 8 then putTile s tk { tile s tk with repair := q ++ [(row, addr)] } else s

/-- Read a plane row for a macro-op: the corrected data, whether it was uncorrectable, and the state with the error met. -/
def readRow (s : Block) (tk row addr : Nat) : Nat × Bool × Block :=
  let d := decodeStored code64 (rowGet s tk row addr)
  match d.found with
  | .clean => (d.data, false, s)
  | .fixed col => (d.data, false, metCe s tk row addr col)
  | .bad => (d.data, true, planeUe s tk row addr)

/-- A row has been written: it is no longer among the uncorrectable rows reported (02 R51), and a scrub write-back of it is
cancelled (02 R50). -/
def rowWritten (s : Block) (tk row addr : Nat) : Block :=
  let t := tile s tk
  if t.ueSeen.isEmpty && t.scrubWb.isEmpty then s
  else
    putTile s tk { t with
      ueSeen := t.ueSeen.filter (· != (row, addr))
      scrubWb := t.scrubWb.filter fun p => !(p.1 == row && p.2.1 == addr) }

/-- Write a row with fresh check bits. -/
def writeRow (s : Block) (tk row addr d : Nat) : Block := rowWritten (rowPut s tk row addr d) tk row addr

/-- A write of the bits `mask` of a row (02 R35, R36): with every PE active, the bits as they are; otherwise the old row is read
and corrected first, and an uncorrectable old row is not written. The flag says that an uncorrectable row was met. -/
def maskedWrite (s : Block) (tk row addr : Nat) (mask d : DWord) : Bool × Block :=
  if mask = BitVec.allOnes 64 then (false, writeRow s tk row addr d.toNat)
  else
    let r := readRow s tk row addr
    if r.2.1 then (true, r.2.2)
    else
      let old : DWord := BitVec.ofNat 64 r.1
      (false, writeRow r.2.2 tk row addr ((d &&& mask) ||| (old &&& ~~~mask)).toNat)

/-! ### Stores (03 R69, R86-R90) -/

/-- The first key of a store in a tile's 16,384: micro-store, nano-store, dispatch table. -/
def storeBase (store : Nat) : Nat := if store = 0 then 0 else if store = 1 then 8192 else 10240

/-- Words of a store. -/
def storeSize (store : Nat) : Nat := if store = 0 then 8192 else if store = 1 then 2048 else 512

/-- The code of a store (03 R86). -/
def storeCode (store : Nat) : Code := if store = 0 then code24 else if store = 1 then code128 else code16

/-- Data of a word of the Worlith image (log 3). -/
def worlithWord (store addr : Nat) : Nat :=
  if store = 0 then (Config.worlithMicro addr).toNat
  else if store = 1 then (Config.worlithNano addr).toNat
  else
    match worlithClass addr with
    | some c => (Config.worlithEntry addr).toNat + c * 2 ^ 13 + 2 ^ 15
    | none => 0

/-- What a tile's store word reads as when the tile has none of its own. -/
def storeDefault (b : SMap (Option (BitVec 137))) (k : Nat) : Option (BitVec 137) :=
  mget (fun _ => none) b (k / 16384 / 1024 * 16384 + k % 16384)

/-- A stored word with its check bits above the data. -/
def storeGet (s : Block) (tk store addr : Nat) : Nat :=
  match mget (storeDefault s.bstores) s.stores (tk * 16384 + storeBase store + addr) with
  | some w => w.toNat
  | none => freshWord (storeCode store) (worlithWord store addr)

/-- A word of a tile's stores has been written: a corrected copy still to be written back is dropped (03 R87). -/
def dropWb (s : Block) (tk store addr : Nat) : Block :=
  let t := tile s tk
  if t.storeWb.isEmpty then s
  else putTile s tk { t with storeWb := t.storeWb.filter fun p => !(p.1 == store && p.2.1 == addr) }

/-- Store a word of one tile. -/
def storePut (s : Block) (tk store addr w : Nat) : Block :=
  let s := dropWb s tk store addr
  { s with stores := mput (storeDefault s.bstores) s.stores (tk * 16384 + storeBase store + addr) (some (BitVec.ofNat 137 w)) }

/-- The tiles of a module that hold state of their own. -/
def busyTiles (s : Block) (n : Nat) : List Nat := (s.tiles.map (·.1)).filter fun tk => tk / 1024 == n

/-- Store a word of every tile of a module. -/
def storePutAll (s : Block) (n store addr w : Nat) : Block :=
  let k := storeBase store + addr
  let s := (busyTiles s n).foldl (fun s tk => dropWb s tk store addr) s
  { s with
    bstores := mput (fun _ => none) s.bstores (n * 16384 + k) (some (BitVec.ofNat 137 w))
    stores := s.stores.filter fun p => !(p.1 / 16384 / 1024 == n && p.1 % 16384 == k) }

/-- Record a store error in NEWT_STORE_ERR; a correctable error does not overwrite a record with UE = 1. -/
def recordStoreErr (s : Block) (tk : Nat) (ue : Bool) (store addr : Nat) : Block :=
  let n := tk / 1024
  let t := tk % 1024
  if fbit s n F.NEWT_STORE_ERR_VALID t && fbit s n F.NEWT_STORE_ERR_UE t && !ue then s
  else rput s n .NEWT_STORE_ERR t (BitVec.ofNat 32 (2 ^ 31 + b2n ue * 2 ^ 30 + store * 2 ^ 28 + addr))

/-- A corrected store word: raised, counted, recorded, and queued for its write-back (03 R87). -/
def storeCe (s : Block) (tk store addr w : Nat) : Block :=
  let n := tk / 1024
  let t := tk % 1024
  let s := recordStoreErr s tk false store addr
  let s := raise s n SRC.NEWT_STORE_CE t (2 ^ 31 + store * 2 ^ 28 + addr)
  let s := fsat s n F.NEWT_STORE_ECC_CE_COUNT t
  putTile s tk { tile s tk with storeWb := (tile s tk).storeWb ++ [(store, addr, w)] }

/-- An uncorrectable store word: raised, counted, recorded, and STORE_BAD set (03 R88). -/
def storeUe (s : Block) (tk store addr : Nat) : Block :=
  let n := tk / 1024
  let t := tk % 1024
  let s := recordStoreErr s tk true store addr
  let s := raise s n SRC.NEWT_STORE_UE t (2 ^ 31 + 2 ^ 30 + store * 2 ^ 28 + addr)
  let s := fsat s n F.NEWT_STORE_ECC_UE_COUNT t
  fput s n F.NEWT_STORE_ECC_STORE_BAD t 1

/-- Fetch a store word for use: its data, corrected, or `none` if it is uncorrectable (03 R87, R88). A word fetched again before its
write-back is corrected again but raised and counted once (DESIGN CHOICE, log 62). -/
def fetchStore (s : Block) (tk store addr : Nat) : Option Nat × Block :=
  let d := decodeStored (storeCode store) (storeGet s tk store addr)
  match d.found with
  | .clean => (some d.data, s)
  | .fixed _ =>
    if (tile s tk).storeWb.any fun p => p.1 == store && p.2.1 == addr then (some d.data, s)
    else (some d.data, storeCe s tk store addr (freshWord (storeCode store) d.data))
  | .bad => (none, storeUe s tk store addr)

/-! ### Microwords and nano-words (03 R57, R58, R62, R78) -/

structure MicroF where
  seq : Nat
  sp : Bool
  arg : Nat
  nano : Nat
  deriving DecidableEq, Repr

def microFields (w : Nat) : MicroF := ⟨bitsOf w 23 20, w.testBit 19, bitsOf w 18 11, bitsOf w 10 0⟩

structure NanoF where
  ta : Nat
  tc : Nat
  xsel : Nat
  ysel : Nat
  zsel : Nat
  aop : Bool
  cop : Bool
  fop : Nat
  mop : Nat
  nop : Nat
  dir : Side
  wsrc : Nat
  wasel : Nat
  pen : Bool
  psel : Nat
  qen : Bool
  qsel : Nat
  paop : Gens
  ort : Nat
  orsel : Nat
  wait : Nat
  lcop : Nat
  curop : Nat
  imm : Nat
  immld : Nat
  immpa : Nat
  rsvd : Nat
  deriving DecidableEq, Repr

/-- The direction an exchange takes its data from, by DIR code (03 R62). -/
def dirOf (v : Nat) : Side := if v = 0 then .north else if v = 1 then .south else if v = 2 then .east else .west

def nanoFields (w : Nat) : NanoF :=
  { ta := bitsOf w 7 0, tc := bitsOf w 15 8, xsel := bitsOf w 17 16, ysel := bitsOf w 19 18, zsel := bitsOf w 21 20,
    aop := w.testBit 22, cop := w.testBit 23, fop := bitsOf w 25 24, mop := bitsOf w 27 26, nop := bitsOf w 29 28,
    dir := dirOf (bitsOf w 31 30), wsrc := bitsOf w 34 32, wasel := bitsOf w 36 35, pen := w.testBit 37,
    psel := bitsOf w 39 38, qen := w.testBit 40, qsel := bitsOf w 42 41,
    paop := ⟨BitVec.ofNat 11 (bitsOf w 45 43), BitVec.ofNat 11 (bitsOf w 48 46), BitVec.ofNat 11 (bitsOf w 51 49),
      BitVec.ofNat 11 (bitsOf w 54 52)⟩,
    ort := bitsOf w 56 55, orsel := bitsOf w 58 57, wait := bitsOf w 61 59, lcop := bitsOf w 64 62,
    curop := bitsOf w 66 65, imm := bitsOf w 77 67, immld := bitsOf w 79 78, immpa := bitsOf w 81 80,
    rsvd := bitsOf w 127 82 }

/-- An illegal microword for a routine of class `cls`, as it is about to run (03 R78). `rep`: it is a repeated microword. -/
def microBad (m : MicroF) (cls : Nat) (rep : Bool) (depth : Nat) : Bool :=
  m.seq == 0xF
    || (m.arg != 0 && (m.seq == 0x0 || m.seq == 0x9 || m.seq == 0xA || m.seq == 0xB || m.seq == 0xC || m.seq == 0xD))
    || (m.seq == 0xE && bitsOf m.arg 3 2 != 0)
    || (m.seq == 0xA && cls != 1)
    || (rep && m.seq != 0x0)
    || (m.seq == 0x8 && decide (8 ≤ depth))
    || (m.seq == 0x9 && depth == 0)

/-- An illegal nano-word (03 R78). -/
def nanoBad (w : NanoF) : Bool :=
  decide (5 ≤ w.wsrc) || w.ort == 3 || w.orsel == 3 || decide (5 ≤ w.wait) || w.curop == 3 || w.rsvd != 0

/-- A generator's value. -/
def Gens.get (g : Gens) (k : Nat) : BitVec 11 := if k = 0 then g.g0 else if k = 1 then g.g1 else if k = 2 then g.g2 else g.g3

/-! ### The PEs of a tile row in one cycle (02 R26-R29) -/

/-- A truth table on 64 PEs at once: output bit 4X + 2Y + Z of the table (02 R26). -/
def truth (tab : Nat) (x y z : DWord) : DWord :=
  (List.range 8).foldl (fun acc i =>
    if tab.testBit i then
      acc ||| ((if i.testBit 2 then x else ~~~x) &&& (if i.testBit 1 then y else ~~~y) &&& (if i.testBit 0 then z else ~~~z))
    else acc) 0

/-- The registers of one tile row. -/
structure RowRegs where
  a : DWord
  c : DWord
  m : DWord
  f : DWord
  n : DWord
  deriving DecidableEq, Repr

/-- The updates of one row in a cycle: the registers after it, and the bits a plane write would store. -/
def rowStep (w : NanoF) (r : RowRegs) (p q recv : DWord) : RowRegs × DWord :=
  let x := if w.xsel = 0 then p else if w.xsel = 1 then r.a else if w.xsel = 2 then r.n else 0
  let y := if w.ysel = 0 then q else if w.ysel = 1 then r.c else if w.ysel = 2 then r.n else BitVec.allOnes 64
  let z := if w.zsel = 0 then r.c else if w.zsel = 1 then r.f else if w.zsel = 2 then r.m else 0
  let na := truth w.ta x y z
  let nc := truth w.tc x y z
  let gate := fun (new old : DWord) => (new &&& r.m) ||| (old &&& ~~~r.m)
  let f' := if w.fop = 0 then r.f else if w.fop = 1 then gate 0 r.f else if w.fop = 2 then gate (r.f ||| na) r.f
    else gate na r.f
  let m' := if w.mop = 0 then r.m else if w.mop = 1 then na else if w.mop = 2 then p else r.m &&& na
  let n' := if w.nop = 0 then r.n else if w.nop = 1 then r.a else if w.nop = 2 then p else recv
  let wd := if w.wsrc = 1 then na else if w.wsrc = 2 then nc else if w.wsrc = 3 then n' else r.f
  (⟨if w.aop then gate na r.a else r.a, if w.cop then gate nc r.c else r.c, m', f', n'⟩, wd)

/-- New A, new C or the F at the end of the cycle, for the OR tree, over the active PEs (02 R48, 03 R68). -/
def rowTerm (w : NanoF) (r : RowRegs) (p q : DWord) (after : RowRegs) : DWord :=
  let x := if w.xsel = 0 then p else if w.xsel = 1 then r.a else if w.xsel = 2 then r.n else 0
  let y := if w.ysel = 0 then q else if w.ysel = 1 then r.c else if w.ysel = 2 then r.n else BitVec.allOnes 64
  let z := if w.zsel = 0 then r.c else if w.zsel = 1 then r.f else if w.zsel = 2 then r.m else 0
  (if w.orsel = 0 then truth w.ta x y z else if w.orsel = 1 then truth w.tc x y z else after.f) &&& r.m

def rowRegs (s : Block) (tk row : Nat) : RowRegs :=
  ⟨peGet s tk row peA, peGet s tk row peC, peGet s tk row peM, peGet s tk row peF, peGet s tk row peN⟩

def putRowRegs (s : Block) (tk row : Nat) (r : RowRegs) : Block :=
  pePut (pePut (pePut (pePut (pePut s tk row peA r.a) tk row peC r.c) tk row peM r.m) tk row peF r.f) tk row peN r.n

/-! ### Neighbour exchange (02 R41-R47) -/

/-- The tile that faces a tile on a side: the next one in system coordinates, and across the end of a dimension that wraps the one
at its other end (15 R349). -/
def neighbour (s : Block) (tk : Nat) (d : Side) : Option Nat :=
  match sysPos s tk with
  | none => none
  | some (x, y) =>
    let t := s.chrTab
    let prev := fun (v dim : Nat) (wrap : Bool) => if v = 0 then (if wrap then some (32 * dim - 1) else none) else some (v - 1)
    let next := fun (v dim : Nat) (wrap : Bool) => if v + 1 = 32 * dim && wrap then 0 else v + 1
    match d with
    | .north => (prev y t.myDim t.wrapY).bind fun y => sysTile s x y
    | .south => sysTile s x (next y t.myDim t.wrapY)
    | .east => sysTile s (next x t.mxDim t.wrapX) y
    | .west => (prev x t.mxDim t.wrapX).bind fun x => sysTile s x y

/-- Does the tile's side lie on an edge of its module's array? -/
def onModuleEdge (tk : Nat) : Side → Bool
  | .north => tk % 1024 / 32 == 0
  | .south => tk % 1024 / 32 == 31
  | .east => tk % 32 == 31
  | .west => tk % 32 == 0

/-- Steps pass between a tile and the one that faces it on a side: at a module edge a link of the pair must be UP (15 R345-R347). -/
def edgeLive (s : Block) (tk : Nat) (d : Side) (o : Nat) : Bool := !onModuleEdge tk d || pairUp s (tk / 1024) d (o / 1024)

/-- Does the tile lie on its gang's edge of side `d`? -/
def onEdge (s : Block) (r : Rect) (tk : Nat) (d : Side) : Bool :=
  match sysPos s tk with
  | none => true
  | some (x, y) =>
    match d with
    | .north => y == r.ty0
    | .south => y == r.ty1
    | .east => x == r.tx1
    | .west => x == r.tx0

/-- The tile at the opposite end of the gang's row or column of tiles (02 R44, WRAP). -/
def wrapTile (s : Block) (r : Rect) (tk : Nat) (d : Side) : Option Nat :=
  match sysPos s tk with
  | none => none
  | some (x, y) =>
    match d with
    | .north => sysTile s x r.ty1
    | .south => sysTile s x r.ty0
    | .east => sysTile s r.tx0 y
    | .west => sysTile s r.tx1 y

/-- How a tile's side takes part in its macro-op's exchanges: 0 inner tile edge, 1 zeros or discarded, 2 WRAP, 3 CONT. Only
A.MOVN uses the edge modes (04 R116, R117). -/
def sideKind (s : Block) (r : Rect) (m : Mop) (tk : Nat) (d : Side) : Nat :=
  if !onEdge s r tk d then 0
  else if (mopFields m.word).opc ≠ 0x33 then 1
  else match edgeMode m.edges d with
    | 1 => 2
    | 2 => 3
    | _ => 1

/-- The step count of a tile in the axis of a side. -/
def axisCount (t : Tile) : Side → Nat
  | .north | .south => t.exY
  | .east | .west => t.exX

/-- The 64 bits that leave a tile in an exchange FROM_`d`: the N latches of the row or column opposite to `d`. -/
def outBits (s : Block) (tk : Nat) (d : Side) : DWord :=
  let col := fun (c : Nat) => (List.range 64).foldl (fun (acc : DWord) r =>
    if (peGet s tk r peN).getLsbD c then acc ||| BitVec.ofNat 64 (2 ^ r) else acc) 0
  match d with
  | .north => peGet s tk 63 peN
  | .south => peGet s tk 0 peN
  | .east => col 0
  | .west => col 63

/-- What row `row` receives in an exchange FROM_`d`, with the tile's N latches and the 64 bits entering (02 R25). -/
def recvRow (s : Block) (tk row : Nat) (d : Side) (bits : DWord) : DWord :=
  match d with
  | .north => if row = 0 then bits else peGet s tk (row - 1) peN
  | .south => if row = 63 then bits else peGet s tk (row + 1) peN
  | .east => ((peGet s tk row peN) >>> 1) ||| (if bits.getLsbD row then BitVec.ofNat 64 (2 ^ 63) else 0)
  | .west => ((peGet s tk row peN) <<< 1) ||| (if bits.getLsbD row then 1 else 0)

/-- Depth of the buffer toward side `d` (02 R42): 64 steps over a Bunel link, else 4. The wrap path of a gang that spans modules has
no row in R42; it is given the 4 steps of the wrap on one module, and no link is asked of it (DESIGN CHOICE, log 62). -/
def stepDepth (s : Block) (tk : Nat) (d : Side) (kind : Nat) : Nat :=
  if kind = 3 then 64
  else match neighbour s tk d with
    | some o => if o / 1024 = tk / 1024 then 4 else 64
    | none => 4

/-- The steps a tile has sent toward side `d` and its neighbour has not taken: in the outgoing buffer, or present beyond it. -/
def stepsAhead (s : Block) (tk : Nat) (d : Side) : Nat :=
  ((tile s tk).outbox.get d).length
    + (match neighbour s tk d with
      | some o => ((tile s o).inbox.get (oppSide d)).length
      | none => 0)

def wrapAhead (s : Block) (r : Rect) (tk : Nat) (d : Side) : Nat :=
  ((tile s tk).wrapOut.get d).length
    + (match wrapTile s r tk d with
      | some o => ((tile s o).wrapIn.get (oppSide d)).length
      | none => 0)

/-- Has the tile room to send the step of an exchange FROM_`d`? (02 R41, R47) -/
def sendRoom (s : Block) (r : Rect) (m : Mop) (tk : Nat) (d : Side) : Bool :=
  let o := oppSide d
  let k := sideKind s r m tk o
  let enter := if onEdge s r tk o then (match edgeMode m.edges d with
    | 1 => (mopFields m.word).opc == 0x33
    | _ => false) else false
  (k == 1 || k == 2 || decide (stepsAhead s tk o < stepDepth s tk o k)) && (!enter || decide (wrapAhead s r tk o < 4))

/-- Send the step of an exchange FROM_`d` (EXCHANGE_STEP_SEND, 02 R41, R44): to the tile beyond the leaving side, across a CONT
side, and into the wrap path when the entering side's mode is WRAP. -/
def sendStep (s : Block) (r : Rect) (m : Mop) (tk : Nat) (d : Side) : Block :=
  let o := oppSide d
  let t := tile s tk
  let bits := outBits s tk d
  let k := sideKind s r m tk o
  let t := if k = 0 then { t with outbox := t.outbox.put o (t.outbox.get o ++ [⟨axisCount t d, d, bits⟩]) }
    else if k = 3 then
      { t with outbox := t.outbox.put o (t.outbox.get o ++ [⟨t.contCount.get o, d, bits⟩]) }
    else t
  let wraps := onEdge s r tk o && (mopFields m.word).opc == 0x33 && edgeMode m.edges d == 1
  let t := if wraps then { t with wrapOut := t.wrapOut.put o (t.wrapOut.get o ++ [⟨axisCount t d, d, bits⟩]) } else t
  putTile s tk { t with sent := true }

/-- The step entering in an exchange FROM_`d`, if it is present: zeros at a closed edge, else the oldest step with the tile's
count (02 R41, R44). -/
def stepIn (s : Block) (r : Rect) (m : Mop) (tk : Nat) (d : Side) : Option DWord :=
  let t := tile s tk
  let k := sideKind s r m tk d
  if k = 1 then some 0
  else
    let box := if k = 2 then t.wrapIn.get d else t.inbox.get d
    let cnt := if k = 3 then t.contCount.get d else axisCount t d
    match box with
    | st :: _ => if st.count = cnt then some st.bits else none
    | [] => none

/-- An A.MOVN has made an exchange FROM_`d`: the count of each CONT side in its axis rises (04 R116, R117). -/
def countCont (s : Block) (r : Rect) (m : Mop) (tk : Nat) (d : Side) (t : Tile) : Tile :=
  [d, oppSide d].foldl (fun t sd =>
    if sideKind s r m tk sd = 3 then { t with contCount := t.contCount.put sd (t.contCount.get sd + 1) } else t) t

/-- Take the step of an exchange FROM_`d` and count the exchange. -/
def takeStep (s : Block) (r : Rect) (m : Mop) (tk : Nat) (d : Side) : Block :=
  let t := tile s tk
  let k := sideKind s r m tk d
  let t := if k = 1 then t
    else if k = 2 then { t with wrapIn := t.wrapIn.put d ((t.wrapIn.get d).drop 1) }
    else { t with inbox := t.inbox.put d ((t.inbox.get d).drop 1) }
  let t := countCont s r m tk d t
  let t := match d with
    | .north | .south => { t with exY := t.exY + 1 }
    | .east | .west => { t with exX := t.exX + 1 }
  putTile s tk { t with sent := false }

/-- A step present at a CONT side belongs to an exchange that this tile has made, or is about to make FROM_`d`, in another direction
(02 R47): steps of one count are of one exchange, and a tile that has gone past a count without taking the step had the side as
its leaving side. -/
def stepAgainst (t : Tile) (sd d : Side) : Bool :=
  match t.inbox.get sd with
  | st :: _ => decide (st.count < t.contCount.get sd) || (st.count == t.contCount.get sd && decide (st.dir ≠ d))
  | [] => false

/-- A step across a CONT side of the exchange's axis goes against the exchange FROM_`d` (02 R47). -/
def edgeMismatch (s : Block) (r : Rect) (m : Mop) (tk : Nat) (d : Side) : Bool :=
  [d, oppSide d].any fun sd => sideKind s r m tk sd == 3 && stepAgainst (tile s tk) sd d

/-! ### Moves that are run whole, line by line (04 R116-R118) -/

/-- The direction an A.MOVN takes its data from (04 R116). -/
def movnDir (f : MopF) : Side := dirOf (f.prm / 2 ^ 12 % 4)

/-- Is the axis of a direction the y axis? -/
def axisIsY : Side → Bool
  | .north | .south => true
  | _ => false

/-- The lines of a gang along the axis of a direction: the tiles that exchange with one another (02 R41). -/
def gangLines (s : Block) (n g : Nat) (axisY : Bool) : List (List Nat) :=
  let r := gangRect s n g
  if !gangFormed s n g then []
  else if axisY then (fromTo r.tx0 r.tx1).map fun x => (fromTo r.ty0 r.ty1).filterMap fun y => sysTile s x y
  else (fromTo r.ty0 r.ty1).map fun y => (fromTo r.tx0 r.tx1).filterMap fun x => sysTile s x y

/-- Every edge inside the gang along a line carries steps. -/
def lineLive (s : Block) (r : Rect) (d : Side) (line : List Nat) : Bool :=
  line.all fun tk => onEdge s r tk d || (match neighbour s tk d with
    | some o => edgeLive s tk d o
    | none => false)

/-- Does a line reach a CONT side at either end? -/
def lineCont (s : Block) (r : Rect) (m : Mop) (d : Side) (line : List Nat) : Bool :=
  line.any fun tk => sideKind s r m tk d == 3 || sideKind s r m tk (oppSide d) == 3

/-- Every edge inside the gang along an axis carries steps. -/
def axisLive (s : Block) (n g : Nat) (axisY : Bool) : Bool :=
  (gangLines s n g axisY).all (lineLive s (gangRect s n g) (if axisY then .south else .east))

/-- The links that the exchanges of a macro-op cross inside its gang are UP: those of A.MOVN, A.SCAN and a butterfly in their axis,
those of A.COUNT in both (04 R112, R114-R117). -/
def netLive (s : Block) (n g : Nat) (m : Mop) : Bool :=
  let f := mopFields m.word
  if f.opc = 0x51 then axisLive s n g (f.prm.testBit 0)
  else if f.opc = 0x52 then axisLive s n g (f.prm.testBit 4)
  else if f.opc = 0x43 then axisLive s n g false && axisLive s n g true
  else true

/-- Room to send the step of the next exchange across a line's leaving side, unless it is sent already or the side is not CONT. -/
def lineRoom (s : Block) (r : Rect) (m : Mop) (d : Side) (line : List Nat) : Bool :=
  line.all fun tk => sideKind s r m tk (oppSide d) != 3 || (tile s tk).sent || decide (stepsAhead s tk (oppSide d) < 64)

/-- The step of the next exchange is present at a line's entering side, unless the side is not CONT. -/
def lineFed (s : Block) (r : Rect) (m : Mop) (d : Side) (line : List Nat) : Bool :=
  line.all fun tk => sideKind s r m tk d != 3 || (stepIn s r m tk d).isSome

/-- The wait of a tile whose macro-op is run whole is over: its line's links are up, and its next exchange can send and receive. -/
def moveOver (s : Block) (n g : Nat) (m : Mop) (tk : Nat) : Bool :=
  if (mopFields m.word).opc = 0x33 then
    let d := movnDir (mopFields m.word)
    let r := gangRect s n g
    (gangLines s n g (axisIsY d)).all fun line =>
      !line.contains tk || (lineLive s r d line && lineRoom s r m d line && lineFed s r m d line)
  else netLive s n g m

/-! ### One tile cycle (03 R59) -/

/-- The macro-op a tile is running: its gang and entry. -/
def tileOp (s : Block) (tk : Nat) : Option (Nat × Nat × Mop) :=
  match tileOwner s tk, (tile s tk).mop with
  | some (n, g), some num => (findOp (gang s n g) num).map fun m => (n, g, m)
  | _, _ => none

/-- The gang stops at this op and has not decided that it completes: the tile's polls and gate concern it. -/
def yielding (s : Block) (n g num : Nat) : Bool :=
  let x := gang s n g
  let st := gState s n g
  (st == gYielding || st == gDraining) && x.frontier == some num && !x.complete

/-- The tile starts to wait (03 R66). -/
def waitFor (s : Block) (tk : Nat) (w : TWait) : Block :=
  putTile s tk { tile s tk with phase := .wait, wait := w, since := s.now }

/-- The final-phase gate holds the tile at a FINAL microword (03 R77). The gate comes before the microword's nano-word, which is not
used while it holds (03 R88) and waits after it; the tile meets the gate again after such a wait, and has passed it only when the
cycle itself runs (DESIGN CHOICE, log 62). -/
def gateHeld (s : Block) (n g : Nat) (m : Mop) (tk : Nat) (u : MicroF) : Bool :=
  u.seq == 0xA && !(tile s tk).fin && !(gang s n g).finalEnable && (gang s n g).frontier == some m.num

/-- What the tile must wait for before this microword's cycle, if anything; an exchange first sends its step. -/
def cycleWait (s : Block) (n g : Nat) (m : Mop) (tk : Nat) (w : NanoF) : Option TWait × Block :=
  let t := tile s tk
  if w.ort = 2 && decide (4 ≤ t.crkSent - t.crkGot) then (some .croak, s)
  else if w.wait = 2 && decide (t.crkGot < t.crkSent) then (some .croak, s)
  else if w.wait = 3 && !t.whlReady then (some .wheel, s)
  else if w.wait = 4 && !t.qpend.isEmpty then (some .qsettle, s)
  else if w.nop = 3 then
    let r := gangRect s n g
    if !t.sent && !sendRoom s r m tk w.dir then (some .nbr, s)
    else
      let s := if t.sent then s else sendStep s r m tk w.dir
      if (stepIn s r m tk w.dir).isSome then (none, s) else (some .nbr, s)
  else (none, s)

/-- One row of the PEs of a tile in a cycle; the flag gathers uncorrectable rows, the word the OR term. -/
def peRow (w : NanoF) (tk pa qa wa : Nat) (d : Side) (bits : DWord) (old : Block) (acc : Bool × DWord × Block) (row : Nat) :
    Bool × DWord × Block :=
  let s := acc.2.2
  let rp := if w.pen then readRow s tk row pa else (0, false, s)
  let rq := if w.qen then readRow rp.2.2 tk row qa else (0, false, rp.2.2)
  let r := rowRegs old tk row
  let p : DWord := BitVec.ofNat 64 rp.1
  let q : DWord := BitVec.ofNat 64 rq.1
  let st := rowStep w r p q (recvRow old tk row d bits)
  let term := rowTerm w r p q st.1
  let wr := if w.wsrc = 0 then (false, rq.2.2) else maskedWrite rq.2.2 tk row wa r.m st.2
  (acc.1 || rp.2.1 || rq.2.1 || wr.1, acc.2.1 ||| term, putRowRegs wr.2 tk row st.1)

/-- One generator after a cycle (03 R64, R65). -/
def genStep (op : Nat) (pa b sk cur : BitVec 11) : BitVec 11 × BitVec 11 :=
  match op with
  | 1 => (pa + 1, b)
  | 2 => (pa - 1, b)
  | 3 => (b, b)
  | 4 => (b + 1, b + 1)
  | 5 => (b - 1, b - 1)
  | 6 => (pa + sk, b)
  | 7 => (b + cur * (sk + 1), b)
  | _ => (pa, b)

/-- Generator `k` after a cycle, with the load from IMM (03 R65). -/
def genNext (w : NanoF) (t : Tile) (k : Nat) : BitVec 11 × BitVec 11 :=
  let g := genStep (w.paop.get k).toNat (t.pa.get k) (t.b.get k) (t.s.get k) (t.cur.setWidth 11)
  if w.immpa = k then
    (if w.immld = 1 || w.immld = 3 then BitVec.ofNat 11 w.imm else g.1,
     if w.immld = 2 || w.immld = 3 then BitVec.ofNat 11 w.imm else g.2)
  else g

/-- The counters after LCOP, from their values at the start of the cycle (03 R62). -/
def lcNext (w : NanoF) (t : Tile) : Option (BitVec 16) × Option (BitVec 16) :=
  let dec := fun (v : BitVec 16) => if v = 0 then (0 : BitVec 16) else v - 1
  match w.lcop with
  | 1 => (some t.k0, none)
  | 2 => (some t.k1, none)
  | 3 => (some t.k2, none)
  | 4 => (none, some t.k1)
  | 5 => (none, some t.k2)
  | 6 => (some (dec t.lc0), none)
  | 7 => (none, some (dec t.lc1))
  | _ => (none, none)

/-- ARG as a signed displacement. -/
def disp (arg : Nat) : BitVec 13 := (BitVec.ofNat 8 arg).signExtend 13

/-- Sequencing (03 R58-R60): the tile with its next uPC, stack, counters and repetition. After DONE, which has
no next microword, uPC is one more (DESIGN CHOICE, log 62). -/
def seqNext (u : MicroF) (w : NanoF) (t : Tile) : Tile :=
  let lc := lcNext w t
  let up := t.upc
  let jump := up + disp u.arg
  let loop0 := u.seq = 2 && t.lc0 ≠ 0
  let loop1 := u.seq = 3 && t.lc1 ≠ 0
  let lc0 := lc.1.getD (if loop0 then t.lc0 - 1 else t.lc0)
  let lc1 := lc.2.getD (if loop1 then t.lc1 - 1 else t.lc1)
  let t' := { t with lc0 := lc0, lc1 := lc1 }
  if t.rep then
    if t.rc ≤ 1 then { t' with rc := 0, rep := false, upc := up + 1 } else { t' with rc := t.rc - 1 }
  else
    match u.seq with
    | 1 => { t' with upc := jump }
    | 2 => { t' with upc := if loop0 then jump else up + 1 }
    | 3 => { t' with upc := if loop1 then jump else up + 1 }
    | 4 => { t' with upc := if t.qr then jump else up + 1 }
    | 5 => { t' with upc := if t.qr then up + 1 else jump }
    | 6 => { t' with upc := if t.crf then jump else up + 1 }
    | 7 => { t' with upc := if t.crf then up + 1 else jump }
    | 8 => { t' with stack := (up + 1) :: t.stack, upc := BitVec.ofNat 13 (u.arg * 32), owed := 1 }
    | 9 => { t' with stack := t.stack.drop 1, upc := (t.stack.head?).getD 0, owed := 1 }
    | 10 => { t' with upc := up + 1, fin := true }
    | 12 => if lc0 = 0 then { t' with upc := up + 2, rc := 0 } else { t' with upc := up + 1, rc := lc0, rep := true }
    | 13 => if lc1 = 0 then { t' with upc := up + 2, rc := 0 } else { t' with upc := up + 1, rc := lc1, rep := true }
    | 14 => { t' with upc := up + 1 + BitVec.ofNat 13 (t.prm.toNat / 2 ^ (u.arg / 16) % 2 ^ (u.arg % 4 + 1)) }
    | _ => { t' with upc := up + 1 }

/-- The quiet results come nearer by one tile cycle; each is visible from the second cycle after its own (02 R48). -/
def ageQuiet (t : Tile) : Tile :=
  let q := t.qpend.map fun p => (p.1, p.2 - 1)
  { t with qr := ((q.filter fun p => p.2 == 0).getLast?.map (·.1)).getD t.qr, qpend := q.filter fun p => p.2 != 0 }

/-- The tile ends its macro-op: idle, with nothing running and an empty stack (03 R61). -/
def tileEnd (s : Block) (tk : Nat) : Block :=
  putTile s tk { tile s tk with phase := .idle, wait := .none, mop := none, rep := false, stack := [] }

/-- The tile has executed nano-words until now (06 R154). -/
def tileRan (s : Block) (tk : Nat) : Block := putTile s tk { tile s tk with lastRun := some s.now }

/-- The tile abandons its macro-op: scratch, A, C and N are undefined, all else is as it was at dispatch (03 R72, R77). -/
def tileAbandon (s : Block) (tk : Nat) : Block := clobber (tileEnd s tk) tk

/-- The tile parks at a safe point and reports its cursor (03 R76). -/
def tilePark (s : Block) (n g : Nat) (m : Mop) (tk : Nat) : Block :=
  let c := (tile s tk).cur.toNat
  let s := putTile s tk { tile s tk with phase := .parked, wait := .none }
  match findOp (gang s n g) m.num with
  | some m => putGang s n g (setOp (gang s n g) { m with parkedAt := (m.parkedAt.filter fun p => p.1 != tk) ++ [(tk, c)] })
  | none => s

/-- The poll after a microword with SP = 1 (03 R74-R77): a resumable routine parks, or goes on to Cmax; a restartable one that is
abandoned stops. -/
def safePoint (s : Block) (n g : Nat) (m : Mop) (tk : Nat) : Block :=
  if !yielding s n g m.num then s
  else if (tile s tk).cls = 2 then
    match (gang s n g).cmax with
    | none => tilePark s n g m tk
    | some c => if (tile s tk).cur.toNat = c then tilePark s n g m tk else s
  else if (tile s tk).cls = 1 && (gang s n g).abandon then tileAbandon s tk
  else s

/-- The microword's own cycle, once nothing holds it (03 R59, R63): the PEs, the OR tree, the generators, the counters, then
sequencing, the poll and DONE. -/
def runCycle (s : Block) (n g : Nat) (m : Mop) (tk : Nat) (u : MicroF) (w : NanoF) : Block :=
  let r := gangRect s n g
  let t0 := tile s tk
  let bits := (stepIn s r m tk w.dir).getD 0
  let rows := (List.range 64).foldl
    (peRow w tk (t0.pa.get w.psel).toNat (t0.pa.get w.qsel).toNat (t0.pa.get w.wasel).toNat w.dir bits s) (false, 0, s)
  let s := rows.2.2
  if rows.1 then faultStopTile s tk SRC.NEWT_PLANE_UE
  else
    let s := if w.nop = 3 then takeStep s r m tk w.dir else s
    let t := tile s tk
    let quiet := decide (rows.2.1 = 0)
    let g0 := genNext w t 0
    let g1 := genNext w t 1
    let g2 := genNext w t 2
    let g3 := genNext w t 3
    let cur := if w.curop = 1 then t.cur + 1 else if w.curop = 2 then 0 else t.cur
    let t := { seqNext u w t with
      pa := ⟨g0.1, g1.1, g2.1, g3.1⟩, b := ⟨g0.2, g1.2, g2.2, g3.2⟩, cur := cur,
      qpend := if w.ort = 1 then t.qpend ++ [(quiet, 2)] else t.qpend,
      crkSent := if w.ort = 2 then t.crkSent + 1 else t.crkSent,
      cycles := t.cycles + 1, lastRun := some s.now }
    let s := putTile s tk t
    let s := match findOp (gang s n g) m.num with
      | some m' =>
        let m' := if u.seq = 0xA then { m' with passed := true } else m'
        let m' := if w.ort = 2 then { m' with crkIn := m'.crkIn ++ [(t.crkSent, tk, !quiet)] } else m'
        putGang s n g (setOp (gang s n g) m')
      | none => s
    let s := if t.cls = 0 && decide (256 < t.cycles) && !t.overrun then
        raise (putTile s tk { t with overrun := true }) (tk / 1024) SRC.NEWT_ATOMIC_OVERRUN (tk % 1024) 0
      else s
    if u.seq = 0xB && !t0.rep then reportDone (tileEnd s tk) n g m.num tk
    else if u.sp then safePoint s n g m tk
    else s

/-- The gang of a tile stops because a step goes against its exchange (02 R47). -/
def edgeAgainst (s : Block) (tk : Nat) : Block :=
  faultStopTile (raise s (tk / 1024) SRC.NEWT_EDGE_MISMATCH (tk % 1024) 0) tk SRC.NEWT_EDGE_MISMATCH

/-- The tile was about to execute an illegal microword or nano-word (03 R79). -/
def illegalWord (s : Block) (tk : Nat) : Block :=
  faultStopTile (raise s (tk / 1024) SRC.NEWT_MICRO_ILLEGAL (tk % 1024) 0) tk SRC.NEWT_MICRO_ILLEGAL

/-- TILE_CYCLE (03 R59): one microword and its nano-word, after its wait, if any, has ended. An illegal word is not executed and
stops the gang (03 R79), and so does an uncorrectable store word that is about to be used (03 R88): the nano-word's only once its
microword is legal and not held at the gate. -/
def tileCycle (tn : Node) (t : TileIx) (s : Block) : Block :=
  let tk := tkey tn t
  match tileOp s tk with
  | none => s
  | some (n, g, m) =>
    if (tile s tk).phase ≠ .run || !inRun s tn then s
    else
      let s := putTile s tk (ageQuiet (tile s tk))
      if (tile s tk).owed ≠ 0 then putTile s tk { tile s tk with owed := (tile s tk).owed - 1 }
      else
        match fetchStore s tk 0 (tile s tk).upc.toNat with
        | (none, s) => faultStopTile s tk SRC.NEWT_STORE_UE
        | (some uw, s) =>
          let u := microFields uw
          let ti := tile s tk
          if microBad u ti.cls ti.rep ti.stack.length then illegalWord s tk
          else if gateHeld s n g m tk u then waitFor s tk .gate
          else
          match fetchStore s tk 1 u.nano with
          | (none, s) => faultStopTile s tk SRC.NEWT_STORE_UE
          | (some nw, s) =>
            let w := nanoFields nw
            if nanoBad w then illegalWord s tk
            else if w.nop = 3 && edgeMismatch s (gangRect s n g) m tk w.dir then
              edgeAgainst s tk
            else
              match cycleWait s n g m tk w with
              | (some why, s) => waitFor s tk why
              | (none, s) => runCycle s n g m tk u w

/-- The nano-word a waiting tile is about to execute, if its words are readable. -/
def nextNano (s : Block) (tk : Nat) : Option NanoF :=
  match (fetchStore s tk 0 (tile s tk).upc.toNat).1 with
  | some uw => ((fetchStore s tk 1 (microFields uw).nano).1).map nanoFields
  | none => none

/-- Does the condition that a waiting tile waits for hold? (03 R66) -/
def waitOver (s : Block) (tk : Nat) : Bool :=
  let t := tile s tk
  match t.wait with
  | .none => true
  | .qsettle => true
  | .wheel => t.whlReady
  | .croak =>
    match nextNano s tk with
    | some w => if w.wait = 2 then t.crkGot == t.crkSent else decide (t.crkSent - t.crkGot < 4)
    | none => false
  | .gate => false
  | .cont =>
    match tileOp s tk with
    | some (n, g, m) => moveOver s n g m tk
    | none => false
  | .nbr =>
    match tileOp s tk, nextNano s tk with
    | some (n, g, m), some w =>
      let r := gangRect s n g
      (t.sent || sendRoom s r m tk w.dir) && (stepIn s r m tk w.dir).isSome
    | _, _ => false

/-- A tile that waits for its neighbour sends its step as soon as the buffer has room, and goes on waiting for the step that enters:
the two are one wait (02 R41, R43; 03 R66). -/
def nbrSend (s : Block) (tk : Nat) : Block :=
  let t := tile s tk
  if t.phase = .wait && t.wait = .nbr && !t.sent then
    match tileOp s tk, nextNano s tk with
    | some (n, g, m), some w => if sendRoom s (gangRect s n g) m tk w.dir then sendStep s (gangRect s n g) m tk w.dir else s
    | _, _ => s
  else s

/-- NEWT_WAIT_END (03 R66): the wait condition holds, and the tile's cycle can begin. -/
def newtWaitEnd (tn : Node) (t : TileIx) (s : Block) : Block :=
  let tk := tkey tn t
  let s := nbrSend s tk
  let ti := tile s tk
  if ti.phase = .wait && waitOver s tk then
    let ti := match ti.wait, ti.qpend.getLast? with
      | .qsettle, some (v, _) => { ti with qr := v, qpend := [] }
      | _, _ => ti
    putTile s tk { ti with phase := .run, wait := .none }
  else s

/-- FINAL_GATE (03 R77, R451): a tile at the gate passes once the final-enable line is asserted, or abandons the op. -/
def finalGate (tn : Node) (t : TileIx) (s : Block) : Block :=
  let tk := tkey tn t
  let ti := tile s tk
  match tileOp s tk with
  | none => s
  | some (n, g, m) =>
    if ti.phase = .wait && ti.wait = .gate then
      if (gang s n g).abandon && (gang s n g).frontier == some m.num then tileAbandon s tk
      else if (gang s n g).finalEnable then putTile s tk { ti with phase := .run, wait := .none }
      else s
    else s

/-- A tile's side is a CONT side of its gang, by the edge modes committed or by those of the A.MOVN it is running (02 R44, R45). -/
def usesCont (s : Block) (tk : Nat) (d : Side) : Bool :=
  match tileOwner s tk with
  | none => false
  | some (n, g) =>
    let run := match tileOp s tk with
      | some (_, _, m) => (mopFields m.word).opc == 0x33 && edgeMode m.edges d == 2
      | none => false
    onEdge s (gangRect s n g) tk d && (run || edgeMode (edgesOf (rget s n .MILL_EDGE g)) d == 2)

/-- The exchange across a CONT side that a tile waits in: the direction its data comes from. Those of an A.MOVN alone cross one
(04 R116). -/
def nextDir (s : Block) (tk : Nat) : Option Side :=
  match (tile s tk).wait, tileOp s tk with
  | .cont, some (_, _, m) => if (mopFields m.word).opc = 0x33 then some (movnDir (mopFields m.word)) else none
  | .nbr, some (_, _, m) => if (mopFields m.word).opc = 0x33 then (nextNano s tk).map (·.dir) else none
  | _, _ => none

/-- The A.MOVN a tile is running was accepted with another edge mode than CONT for the side: a commit since does not affect it
(02 R45). -/
def shutsCont (s : Block) (tk : Nat) (d : Side) : Bool :=
  match tileOp s tk with
  | some (_, _, m) => (mopFields m.word).opc == 0x33 && edgeMode m.edges d != 2
  | none => false

/-- A step has become present at a CONT side: it goes against an exchange the tile has made, or the one it waits in. -/
def arrivalAgainst (s : Block) (tk : Nat) (d : Side) : Bool :=
  let t := tile s tk
  match t.inbox.get d with
  | st :: _ => usesCont s tk d && !shutsCont s tk d && (decide (st.count < t.contCount.get d) ||
      (match nextDir s tk with
        | some dir => decide (axisIsY dir = axisIsY d) && stepAgainst t d dir
        | none => false))
  | [] => false

/-- EXCHANGE_STEP_ARRIVAL (02 R42): the oldest step on its way to the tile across a side, or over the wrap path, becomes present. At
a module edge it takes a link that is UP; across a CONT side it stays in its buffer while the side has no partner, and a step
against the tile's exchange stops the gang (02 R47). -/
def exchangeStepArrival (tn : Node) (t : TileIx) (d : Side) (wrap : Bool) (s : Block) : Block :=
  let tk := tkey tn t
  if wrap then
    match (tileOwner s tk).bind fun p => wrapTile s (gangRect s p.1 p.2) tk d with
    | none => s
    | some o =>
      match (tile s o).wrapOut.get (oppSide d) with
      | [] => s
      | st :: rest =>
        let s := putTile s o { tile s o with wrapOut := (tile s o).wrapOut.put (oppSide d) rest }
        putTile s tk { tile s tk with wrapIn := (tile s tk).wrapIn.put d ((tile s tk).wrapIn.get d ++ [st]) }
  else
    match neighbour s tk d with
    | none => s
    | some o =>
      match (tile s o).outbox.get (oppSide d) with
      | [] => s
      | st :: rest =>
        let inner := (tileOwner s tk).isSome && tileOwner s tk == tileOwner s o && !usesCont s tk d
        if !edgeLive s tk d o || !(inner || usesCont s tk d) then s
        else
          let s := putTile s o { tile s o with outbox := (tile s o).outbox.put (oppSide d) rest }
          let s := putTile s tk { tile s tk with inbox := (tile s tk).inbox.put d ((tile s tk).inbox.get d ++ [st]) }
          if !inner && arrivalAgainst s tk d then edgeAgainst s tk else s

/-- A wait of a tile has lasted longer than WAIT_LIMIT, its condition not holding: device time has passed the limit, the fault is
raised and the gang is stopped (02 R43, 03 R67). -/
def waitStall (tk src : Nat) (ws : List TWait) (s : Block) : Block :=
  let s := nbrSend s tk
  let ti := tile s tk
  match tileOwner s tk with
  | none => s
  | some (n, g) =>
    let lim := wbits (rget s n .MILL_EDGE g) 31 16
    if lim ≠ 0 && ti.phase = .wait && ws.contains ti.wait && !waitOver s tk then
      let s := atTime s (ti.since + lim * 1000 * 65536 + 1)
      faultStopTile (raise s (tk / 1024) src (tk % 1024) 0) tk src
    else s

/-- NEWT_EDGE_STALL (02 R43). -/
def newtEdgeStall (tn : Node) (t : TileIx) (s : Block) : Block := waitStall (tkey tn t) SRC.NEWT_EDGE_STALL [.nbr, .cont] s

/-- NEWT_WAIT_STALL (03 R67). -/
def newtWaitStall (tn : Node) (t : TileIx) (s : Block) : Block :=
  waitStall (tkey tn t) SRC.NEWT_WAIT_STALL [.croak, .wheel] s

/-- CROAK_RESULT_LATCH (06 R156, 03 R68): the oldest Croak step of a macro-op that every tile of the gang has contributed to is
latched into CRF on every tile; `ns` is how long the round took (CRK_ROUND). -/
def croakResultLatch (n : Node) (g : GangIx) (ns : Half) (s : Block) : Block :=
  let tiles := gangTiles s n g
  let x := gang s n g
  let full := fun (m : Mop) => m.started && !tiles.isEmpty && tiles.all fun tk =>
    m.crkIn.any fun c => c.1 == m.crkDone + 1 && c.2.1 == tk
  match x.flight.find? full with
  | none => s
  | some m =>
    let k := m.crkDone + 1
    let bit := m.crkIn.any fun c => c.1 == k && c.2.2
    let s := putGang s n g (setOp x { m with crkDone := k, crkIn := m.crkIn.filter fun c => c.1 != k })
    let s := tiles.foldl (fun s tk =>
      if (tile s tk).mop = some m.num then putTile s tk { tile s tk with crf := bit, crkGot := k } else s) s
    let s := fwrap s n F.CRK_COUNT_ROUNDS g
    fput s n F.CRK_ROUND_MAX_NS g (max (fget s n F.CRK_ROUND_MAX_NS g) ns.toNat)

/-! ### Dispatch (03 R71) -/

/-- The error a slot has at latching (10 R242, code 1): VALID = 0, a DIR that does not match the op, or an engine not ON. -/
def latchCode (s : Block) (n e slot opc : Nat) : Nat :=
  let i := ix (e * 64 + slot)
  if fbit s n F.WHL_SLOT_CFG_VALID i && fget s n F.WHL_SLOT_CFG_DIR i == (if opc = 0x53 then 0 else 1)
      && fget s n F.WHL_ENG_STATE (ix e) == 2 then 0 else 1

/-- Key of a slot's latch. -/
def latchKey (n e slot : Nat) : Nat := (n * 4 + e) * 64 + slot

/-- WHEEL_SLOT_LATCH (10 R238): the first tile on a module that dispatches an op naming a slot latches the slot, unless another
op holds it; a resumed op latches it afresh, and remembers what it has raised and written before (10 R239, R242). -/
def latchSlot (s : Block) (tn gk : Nat) (m : Mop) : Block :=
  let f := mopFields m.word
  if f.opc = 0x53 || f.opc = 0x54 then
    let k := latchKey tn (f.prm % 4) (f.prm / 4 % 64)
    match mget (fun _ => none) s.latches k with
    | some _ => s
    | none =>
      let was := (m.kept.find? fun p => p.1 == k).map (·.2)
      { s with
        latches := mput (fun _ => none) s.latches k
          (some { gang := gk, num := m.num, code := latchCode s tn (f.prm % 4) (f.prm / 4 % 64) f.opc,
                  raised := (was.map (·.raised)).getD false, wrote := (was.map (·.wrote)).getD [],
                  late := fget s tn F.WHL_ENG_STATE (ix (f.prm % 4)) != 2 }) }
  else s

/-- DISPATCH (03 R71, 06 R150-R152, 10 R238): the tile takes the oldest macro-op of its FIFO once its previous routine is done,
LEAD allows, a cold tile's wave has been released, and no store write is in progress. What scratch held before is not preserved
(02 R30); A.COUNT writes only its own scratch planes (04 R112), so it leaves the others. -/
def dispatchNext (tn : Node) (t : TileIx) (s : Block) : Block :=
  let tk := tkey tn t
  let ti := tile s tk
  match tileOwner s tk, ti.fifo with
  | some (n, g), num :: _ =>
    match findOp (gang s n g) num with
    | none => s
    | some m =>
      if ti.mop.isNone && inRun s tn && opLive s n g num
          && decide (opIndex (gang s n g) num < fget s n F.MILL_PACE_LEAD g)
          && !snapHolds s tk n g num && (!tileCold s tk || ti.released) && !storeHeld s tk && decide (ti.phase ≠ .loading) then
        match fetchStore s tk 2 (mopRoutine (mopFields m.word)) with
        | (none, s) =>
          let s := putTile s tk { tile s tk with mop := some num, fifo := (tile s tk).fifo.drop 1 }
          let s := putGang s n g (setOp (gang s n g) { m with started := true })
          faultStopTile s tk SRC.NEWT_STORE_UE
        | (some e, s) =>
          let s := if ti.lastRun.isSome && m.cur = 0 && decide ((mopFields m.word).opc ≠ 0x43) then clobber s tk else s
          let s := putTile s tk (dispatchState (tile s tk) m e (gangWidth s n g) (gangHeight s n g))
          let s := putGang s n g (setOp (gang s n g) { m with started := true })
          latchSlot s tn (gkey n g) m
      else s
  | _, _ => s

end Sys2Proof.Machine
end

