-- ==== Sys2Proof/Machine/Array.lean ====
section
/-! DEFINITION. Sys2Proof/Machine/Array.lean: the macro-ops as whole operations (04 R98-R118, 05 R123-R140): what each leaves in
the planes, M, F and flags of every tile of its gang, in the lockstep that R150 says the tiles' own pace never changes. -/

namespace Sys2Proof.Machine

/-! ### Running a macro-op -/

/-- The oldest macro-op in flight that some tile has still to report. -/
def headOp (s : Block) (n g : Nat) : Option Mop :=
  (gang s n g).flight.find? fun m => !opDone (gangTiles s n g) m

/-- The tile has dispatched the macro-op, has begun none of its routine's words, and is running, or waiting within a move or a
transfer. -/
def tileReady (s : Block) (num tk : Nat) : Bool :=
  let t := tile s tk
  decide (t.mop = some num) && (decide (t.phase = .run) || (decide (t.phase = .wait) && (decide (t.wait = .cont) || decide (t.wait = .wheel))))
    && t.cycles == 0 && inRun s (tk / 1024)

/-- Every tile of the gang is ready to run the macro-op. -/
def allReady (s : Block) (tiles : List Nat) (num : Nat) : Bool := !tiles.isEmpty && tiles.all (tileReady s num)

/-- The next macro-op of the gang is `opc` with `fl`, and every tile is ready to run it. -/
def readyOp (s : Block) (n g opc fl : Nat) : Option Mop :=
  match headOp s n g with
  | none => none
  | some m =>
    let f := mopFields m.word
    if f.opc = opc && mopFl f = fl && m.started && allReady s (gangTiles s n g) m.num then some m else none

/-- The gate holds this op (03 R77). -/
def gated (s : Block) (n g : Nat) (m : Mop) : Bool :=
  m.cls == 1 && !(gang s n g).finalEnable && (gang s n g).frontier == some m.num

/-- The frontier op, if it is `opc` with `fl` and every tile is to abandon it (03 R77). -/
def abandonedOp (s : Block) (n g opc fl : Nat) : Option Mop :=
  let x := gang s n g
  match x.frontier.bind (findOp x) with
  | none => none
  | some m =>
    if x.abandon && (mopFields m.word).opc == opc && mopFl (mopFields m.word) == fl && gated s n g m then some m else none

/-- The tiles that have dispatched an abandoned macro-op and begun none of its words leave it; those that have not dispatched it
never will (06 R159). -/
def abandonOp (s : Block) (n g : Nat) (m : Mop) : Block :=
  ((gangTiles s n g).filter (tileReady s m.num)).foldl tileAbandon s

/-- The exchanges of the macro-op find a link inside its gang that is not UP: its tiles wait (02 R41, R43). -/
def holdTiles (s : Block) (tiles : List Nat) : Block :=
  tiles.foldl (fun s tk =>
    let t := tile s tk
    if t.phase = .wait then s else putTile s tk { t with phase := .wait, wait := .cont, since := s.now }) s

/-- The tile waits for its Wheel (03 R66, R67). -/
def holdWheel (s : Block) (tk : Nat) : Block :=
  let t := tile s tk
  if t.phase = .wait || t.whlReady then s else putTile s tk { t with phase := .wait, wait := .wheel, since := s.now }

/-- Scratch, A, C and N of a tile after a macro-op are left undefined (02 R30, 03 R72); A.COUNT writes only the planes of its two
partial sums (04 R112). -/
def afterOp (s : Block) (n g : Nat) (m : Mop) (tk : Nat) : Block :=
  if (mopFields m.word).opc = 0x43 then
    undefine (undefineFrom s tk 1920 (1920 + 2 * clog2 (gangWidth s n g * gangHeight s n g + 1))) tk 2048
  else clobber s tk

/-- What a macro-op leaves undefined besides: the workspace of A.SCAN (04 R114; log 2). -/
def afterScan (s : Block) (m : Mop) (tk : Nat) : Block :=
  let f := mopFields m.word
  if f.opc = 0x51 then undefineFrom s tk f.base1 (f.base1 + f.wid1 + 1) else s

/-- Tiles `line` of the gang report the macro-op done. -/
def finishTiles (s : Block) (n g : Nat) (m : Mop) (line : List Nat) (flags : Flags) (croak : Option Nat) : Block :=
  let s := line.foldl (fun s tk => afterScan (afterOp (tileEnd (tileRan s tk) tk) n g m tk) m tk) s
  putGang s n g (setOp (gang s n g) { m with
    doneBy := m.doneBy ++ line, passed := m.cls == 1, flags := m.flags.join flags, croak := croak })

/-- Every tile reports the macro-op done. -/
def finishOp (s : Block) (n g : Nat) (m : Mop) (flags : Flags) (croak : Option Nat) : Block :=
  finishTiles s n g { m with doneBy := [] } (gangTiles s n g) flags croak

/-- What a pass over the gang gathers: whether an uncorrectable row was met, the flags, and the state. -/
structure Acc where
  bad : Bool
  flags : Flags
  st : Block

/-- A macro-op without safe points: run it on every tile of its gang, or leave it at the gate; one that is abandoned ends with
nothing changed on every tile that has it (03 R77); an uncorrectable row stops the gang (02 R38). -/
def runOp (opc fl : Nat) (body : Block → List Nat → Mop → Acc × Option Nat) (n g : Nat) (s : Block) : Block :=
  match abandonedOp s n g opc fl with
  | some m => abandonOp s n g m
  | none =>
    match readyOp s n g opc fl with
    | none => s
    | some m =>
      if gated s n g m then s
      else if !netLive s n g m then holdTiles s (gangTiles s n g)
      else
        let r := body s (gangTiles s n g) m
        if r.1.bad then faultStop r.1.st n g (some m.num) SRC.NEWT_PLANE_UE
        else finishOp r.1.st n g m r.1.flags r.2

/-! ### Plane cycles of a gang

The tiles of a gang run in lockstep (06 R150): a cycle reads one plane address in all 64 rows of every tile. The macro-op ends with the
first cycle that meets an uncorrectable row, as R38 lets a tile stop at once; of the order of a routine's cycles the spec gives none,
and the model takes all source rows, operand by operand from bit 0 upward, then the rows that masked writes read (log 62). -/

/-- A cycle over all tile rows; none follows one that met an uncorrectable row. -/
def everyRow (tiles : List Nat) (acc : Acc) (step : Acc → Nat → Nat → Acc) : Acc :=
  if acc.bad then acc else tiles.foldl (fun acc tk => (List.range 64).foldl (fun acc row => step acc tk row) acc) acc

/-- Read the rows at plane addresses on every tile, for their errors, one address a cycle. -/
def readAll (acc : Acc) (tiles : List Nat) (addrs : List Nat) : Acc :=
  addrs.foldl (fun acc a => everyRow tiles acc fun acc tk row =>
    let r := readRow acc.st tk row a
    ⟨acc.bad || r.2.1, acc.flags, r.2.2⟩) acc

/-- The reads of old rows that masked writes at plane addresses make, one address a cycle (02 R35). -/
def readOld (acc : Acc) (tiles : List Nat) (addrs : List Nat) (mask : Nat → Nat → DWord) : Acc :=
  addrs.foldl (fun acc a => everyRow tiles acc fun acc tk row =>
    if mask tk row = BitVec.allOnes 64 then acc
    else
      let r := readRow acc.st tk row a
      ⟨acc.bad || r.2.1, acc.flags, r.2.2⟩) acc

/-- Write the bits `mask` of a row whose old contents have been read and corrected (02 R35). -/
def mergeRow (s : Block) (tk row addr : Nat) (mask d : DWord) : Block :=
  if mask = BitVec.allOnes 64 then writeRow s tk row addr d.toNat
  else writeRow s tk row addr ((d &&& mask) ||| (BitVec.ofNat 64 (rowData s tk row addr) &&& ~~~mask)).toNat

/-- Write one plane address on every tile, with the mask and bits that a tile row is given. -/
def writeAll (acc : Acc) (tiles : List Nat) (addr : Nat) (mask bits : Nat → Nat → DWord) : Acc :=
  everyRow tiles (readOld acc tiles [addr] mask) fun acc tk row =>
    { acc with st := mergeRow acc.st tk row addr (mask tk row) (bits tk row) }

/-- Plane addresses `base` to `base + w - 1`. -/
def spanFrom (base w : Nat) : List Nat := (List.range w).map (base + ·)

/-- The data of the rows of an operand, lowest address first. -/
def rowWords (s : Block) (tk row base w : Nat) : List DWord := (spanFrom base w).map fun a => BitVec.ofNat 64 (rowData s tk row a)

/-- Column `c` of a list of rows as a number, lowest row first. -/
def colVal (ws : List DWord) (c : Nat) : Nat :=
  ws.foldr (fun w v => 2 * v + b2n (w.getLsbD c)) 0

/-- Bit `i` of each column's value as a row. -/
def packWord (vals : List Nat) (i : Nat) : DWord :=
  BitVec.ofNat 64 (vals.foldr (fun v acc => 2 * acc + b2n (v.testBit i)) 0)

/-- A truth value of each column as a row. -/
def packBits (bs : List Bool) : DWord := BitVec.ofNat 64 (bs.foldr (fun b acc => 2 * acc + b2n b) 0)

/-- Write rows from `base` upward under a mask, their old contents read. -/
def writeWords (s : Block) (tk row base : Nat) (mask : DWord) (ws : List DWord) : Block :=
  (ws.zipIdx).foldl (fun s wi => mergeRow s tk row (base + wi.2) mask wi.1) s

/-- Meff of a row (04 R98). -/
def meffRow (s : Block) (f : MopF) (tk row : Nat) : DWord :=
  let m := peGet s tk row peM
  let fl := peGet s tk row peF
  match f.msel with
  | 1 => m &&& BitVec.ofNat 64 (rowData s tk row f.maddr)
  | 2 => m &&& ~~~(BitVec.ofNat 64 (rowData s tk row f.maddr))
  | 3 => m &&& fl
  | 4 => m &&& ~~~fl
  | 5 => BitVec.allOnes 64
  | _ => m

/-- The plane addresses an op reads for its mask. -/
def maskReads (f : MopF) : List Nat := if f.msel = 1 || f.msel = 2 then [f.maddr] else []

/-- The plane addresses an op without safe points reads: its mask bit, its sources, and d where it reads it. -/
def opReads (f : MopF) (useD : Bool) : List Nat :=
  let u := mopUses f
  maskReads f ++ (if u.2.1 then spanFrom f.base1 (f.wid1 + 1) else []) ++ (if u.2.2 then spanFrom f.base2 (f.wid2 + 1) else [])
    ++ (if useD then spanFrom f.base0 (f.wid0 + 1) else [])

/-! ### Elementwise macro-ops -/

/-- What an elementwise op gives in one PE: the bits for d, its condition, its flags. -/
structure PeOut where
  bits : Nat
  cond : Bool
  flags : Flags
  deriving DecidableEq, Repr

/-- The meaning of an elementwise op in one PE: the op's fields, its MILL_FPCTRL, the old d, a, b and F. -/
abbrev PeFun := MopF → Word → Nat → Nat → Nat → Bool → PeOut

/-- The new F of a row: FUPD in the active PEs (04 R100). -/
def fUpdate (fupd : Nat) (old cond meff : DWord) : DWord :=
  let new := if fupd = 1 then old ||| cond else if fupd = 2 then cond else old
  (new &&& meff) ||| (old &&& ~~~meff)

/-- One row of an elementwise op, all that it reads being readable; `useD` says that d is read. -/
def elemRow (pe : PeFun) (useD : Bool) (m : Mop) (acc : Acc) (tk row : Nat) : Acc :=
  let f := mopFields m.word
  let u := mopUses f
  let s := acc.st
  let me := meffRow s f tk row
  let ra := if u.2.1 then rowWords s tk row f.base1 (f.wid1 + 1) else []
  let rb := if u.2.2 then rowWords s tk row f.base2 (f.wid2 + 1) else []
  let rd := if useD then rowWords s tk row f.base0 (f.wid0 + 1) else []
  let fw := peGet s tk row peF
  let outs := if me = 0 then [] else (List.range 64).map fun c =>
    if me.getLsbD c then pe f m.fpctrl (colVal rd c) (colVal ra c) (colVal rb c) (fw.getLsbD c) else ⟨0, false, {}⟩
  let vals := outs.map (·.bits)
  let s := if u.1 then writeWords s tk row f.base0 me ((List.range (f.wid0 + 1)).map fun i => packWord vals i) else s
  ⟨acc.bad, outs.foldl (fun x o => x.join o.flags) acc.flags,
    pePut s tk row peF (fUpdate f.fupd fw (packBits (outs.map (·.cond))) me)⟩

/-- An op without safe points: its reads, its masked writes' reads of d, then each row. -/
def rowsBody (useD : Bool) (step : Mop → Acc → Nat → Nat → Acc) (s : Block) (tiles : List Nat) (m : Mop) : Acc × Option Nat :=
  let f := mopFields m.word
  let acc := readAll ⟨false, {}, s⟩ tiles (opReads f useD)
  let acc := if (mopUses f).1 && f.opc != 0x07 then readOld acc tiles (spanFrom f.base0 (f.wid0 + 1)) (meffRow acc.st f) else acc
  (everyRow tiles acc (step m), none)

/-- An elementwise op on every tile row of the gang. -/
def elemBody (pe : PeFun) (useD : Bool) (s : Block) (tiles : List Nat) (m : Mop) : Acc × Option Nat :=
  rowsBody useD (elemRow pe useD) s tiles m

/-- Rounding mode of an op: RND, or the gang's default it was accepted with (04 R101, 05 R136). -/
def opMode (f : MopF) (fp : Word) : RMode := rmodeOf (if f.rnd = 0 then wbits fp 2 0 else f.rnd)

def opFtz (fp : Word) : Bool := fp.getLsbD 3

/-- The exception condition: any flag that CMASK selects (05 R139). -/
def exCond (fp : Word) (fl : Flags) : Bool := Nat.land (fl.toNat % 32) (wbits fp 12 8) != 0

/-- An integer op's sources as stored integers. -/
def srcA (f : MopF) (a : Nat) : Int := stored (fmtSigned f.fmt) (f.wid1 + 1) a
def srcB (f : MopF) (b : Nat) : Int := stored (fmtSigned f.fmt) (f.wid2 + 1) b
def srcD (f : MopF) (d : Nat) : Int := stored (fmtSigned f.fmt) (f.wid0 + 1) d

/-- An integer result with V as its condition. -/
def peInt (f : MopF) (v : Int) : PeOut :=
  let r := intResult (fmtSigned f.fmt) (f.wid0 + 1) v
  ⟨r.bits, r.flags.v, r.flags⟩

/-- A float result with the exception condition. -/
def peFlt (fp : Word) (r : FRes) : PeOut := ⟨r.bits, exCond fp r.flags, r.flags⟩

def peAdd : PeFun := fun f _ _ a b _ => peInt f (srcA f a + srcB f b)
def peSub : PeFun := fun f _ _ a b _ => peInt f (srcA f a - srcB f b)
def peNeg : PeFun := fun f _ _ a _ _ => peInt f (-(srcA f a))
def peAbs : PeFun := fun f _ _ a _ _ => peInt f (if srcA f a < 0 then -(srcA f a) else srcA f a)
def peMul : PeFun := fun f fp _ a b _ => peInt f (scaledProduct (opMode f fp) (srcA f a) (srcB f b) (fmtFrac f.fmt))
def peMac : PeFun := fun f fp d a b _ => peInt f (scaledMac (opMode f fp) (srcD f d) (srcA f a) (srcB f b) (fmtFrac f.fmt))

/-- A.DIV: with RND = 0 toward zero (05 R125); its condition is V or DZ (R139). -/
def peDiv : PeFun := fun f _ _ a b _ =>
  let r := intDiv (rmodeOf (if f.rnd = 0 then 2 else f.rnd)) (fmtSigned f.fmt) (f.wid0 + 1) (srcA f a) (srcB f b)
  ⟨r.bits, r.flags.v || r.flags.dz, r.flags⟩

def peRem : PeFun := fun f _ _ a b _ =>
  let r := intRem (f.wid0 + 1) (srcA f a) (srcB f b)
  ⟨r.bits, r.flags.dz, r.flags⟩

def peMin : PeFun := fun f _ _ a b _ => ⟨wrapTo (f.wid0 + 1) (min (srcA f a) (srcB f b)), false, {}⟩
def peMax : PeFun := fun f _ _ a b _ => ⟨wrapTo (f.wid0 + 1) (max (srcA f a) (srcB f b)), false, {}⟩

def peCmp : PeFun := fun f _ _ a b _ =>
  let r := relHolds (f.prm % 16) (decide (srcA f a < srcB f b)) (decide (srcA f a = srcB f b)) false
  ⟨b2n r, r, {}⟩

def peFAdd : PeFun := fun f fp _ a b _ => peFlt fp (fAdd (fmtFloat f.fmt) (opMode f fp) (opFtz fp) a b)
def peFSub : PeFun := fun f fp _ a b _ => peFlt fp (fSub (fmtFloat f.fmt) (opMode f fp) (opFtz fp) a b)
def peFMul : PeFun := fun f fp _ a b _ => peFlt fp (fMul (fmtFloat f.fmt) (opMode f fp) (opFtz fp) a b)
def peFMac : PeFun := fun f fp d a b _ => peFlt fp (fMac (fmtFloat f.fmt) (opMode f fp) (opFtz fp) d a b)
def peFDiv : PeFun := fun f fp _ a b _ => peFlt fp (fDiv (fmtFloat f.fmt) (opMode f fp) (opFtz fp) a b)
def peFSqrt : PeFun := fun f fp _ a _ _ => peFlt fp (fSqrt (fmtFloat f.fmt) (opMode f fp) (opFtz fp) a)
def peFNeg : PeFun := fun f fp _ a _ _ => peFlt fp (fNeg (fmtFloat f.fmt) a)
def peFAbs : PeFun := fun f fp _ a _ _ => peFlt fp (fAbs (fmtFloat f.fmt) a)
def peFMin : PeFun := fun f fp _ a b _ => peFlt fp (fMinMax (fmtFloat f.fmt) (opFtz fp) false a b)
def peFMax : PeFun := fun f fp _ a b _ => peFlt fp (fMinMax (fmtFloat f.fmt) (opFtz fp) true a b)

def peFCmp : PeFun := fun f fp _ a b _ =>
  let r := fCmp (fmtFloat f.fmt) (opFtz fp) (f.prm % 16) a b
  ⟨b2n r.1, r.1, r.2⟩

/-- A.CVT: the destination's format is in PRM (04 R108, 05 R126). -/
def peCvt : PeFun := fun f fp _ a _ _ =>
  if fmtKind f.prm = 2 then
    let r := intToFloat (fmtFloat f.prm) (opMode f fp) (opFtz fp) (srcA f a) (fmtFrac f.fmt)
    ⟨r.bits, r.flags.ofl, { r.flags with v := r.flags.ofl }⟩
  else
    let r := intConvert (opMode f fp) (fmtSigned f.prm) (f.wid0 + 1) (fmtFrac f.fmt) (fmtFrac f.prm) (srcA f a)
    ⟨r.bits, r.flags.v, r.flags⟩

/-- A.FCVT (05 R129, R134). -/
def peFCvt : PeFun := fun f fp _ a _ _ =>
  if fmtKind f.prm = 2 then peFlt fp (fToFloat (fmtFloat f.fmt) (fmtFloat f.prm) (opMode f fp) (opFtz fp) a)
  else peFlt fp (fToInt (fmtFloat f.fmt) (opMode f fp) (opFtz fp) (fmtSigned f.prm) (f.wid0 + 1) (fmtFrac f.prm) a)

/-- A logic source brought to wd bits (04 R107). -/
def toWd (f : MopF) (v : Nat) : Nat := v % 2 ^ (f.wid0 + 1)

def peAnd : PeFun := fun f _ _ a b _ => ⟨Nat.land (toWd f a) (toWd f b), false, {}⟩
def peOr : PeFun := fun f _ _ a b _ => ⟨Nat.lor (toWd f a) (toWd f b), false, {}⟩
def peXor : PeFun := fun f _ _ a b _ => ⟨Nat.xor (toWd f a) (toWd f b), false, {}⟩
def peNot : PeFun := fun f _ _ a _ _ => ⟨2 ^ (f.wid0 + 1) - 1 - toWd f a, false, {}⟩

/-- A.LOGIC: bit 4a + 2b + c of PRM[7:0], c the old bit of d (04 R107). -/
def peLogic : PeFun := fun f _ d a b _ =>
  ⟨(List.range (f.wid0 + 1)).foldl (fun acc i =>
    acc + b2n (f.prm.testBit (4 * b2n ((toWd f a).testBit i) + 2 * b2n ((toWd f b).testBit i) + b2n (d.testBit i))) * 2 ^ i) 0,
   false, {}⟩

/-- Operand 1 of an arithmetic shift, extended with its own top bit (04 R107). -/
def sarSrc (f : MopF) (a : Nat) : Int := signedOf (f.wid0 + 1) (wrapTo (f.wid0 + 1) (signedOf (f.wid1 + 1) a))

def shlBits (f : MopF) (a amt : Nat) : Nat := if f.wid0 < amt then 0 else toWd f (toWd f a * 2 ^ amt)
def shrBits (f : MopF) (a amt : Nat) : Nat := if f.wid0 < amt then 0 else toWd f a / 2 ^ amt
def sarBits (f : MopF) (a amt : Nat) : Nat := wrapTo (f.wid0 + 1) (sarSrc f a / ((2 ^ min amt (f.wid0 + 1) : Nat) : Int))
def rolBits (f : MopF) (a amt : Nat) : Nat :=
  let k := amt % (f.wid0 + 1)
  toWd f (toWd f a * 2 ^ k) + toWd f a / 2 ^ (f.wid0 + 1 - k)
def rorBits (f : MopF) (a amt : Nat) : Nat := rolBits f a (f.wid0 + 1 - amt % (f.wid0 + 1))

def peShl : PeFun := fun f _ _ a b _ => ⟨shlBits f a b, false, {}⟩
def peShr : PeFun := fun f _ _ a b _ => ⟨shrBits f a b, false, {}⟩
def peSar : PeFun := fun f _ _ a b _ => ⟨sarBits f a b, false, {}⟩
def peRol : PeFun := fun f _ _ a b _ => ⟨rolBits f a b, false, {}⟩
def peRor : PeFun := fun f _ _ a b _ => ⟨rorBits f a b, false, {}⟩
def peShli : PeFun := fun f _ _ a _ _ => ⟨shlBits f a f.prm, false, {}⟩
def peShri : PeFun := fun f _ _ a _ _ => ⟨shrBits f a f.prm, false, {}⟩
def peSari : PeFun := fun f _ _ a _ _ => ⟨sarBits f a f.prm, false, {}⟩
def peRoli : PeFun := fun f _ _ a _ _ => ⟨rolBits f a f.prm, false, {}⟩
def peRori : PeFun := fun f _ _ a _ _ => ⟨rorBits f a f.prm, false, {}⟩

/-- A.MOV (04 R108, 05 R124): extended or truncated; V when truncation changes the value. -/
def peMov : PeFun := fun f _ _ a _ _ => peInt f (srcA f a)

/-- A.FILL: CNT:PRM as a 32-bit number of the op's KIND (04 R108). -/
def peFill : PeFun := fun f _ _ _ _ _ =>
  ⟨wrapTo (f.wid0 + 1) (stored (fmtSigned f.fmt) 32 (f.cnt * 65536 + f.prm)), false, {}⟩

/-- A.SEL (04 R105, R108). -/
def peSel : PeFun := fun f _ _ a b fb => ⟨toWd f (if fb then a else b), false, {}⟩

def peGetf : PeFun := fun _ _ _ _ _ fb => ⟨b2n fb, false, {}⟩

/-! ### Mask and flag ops (04 R105, R109) -/

/-- An op that does nothing to the planes. -/
def idleBody (s : Block) (_ : List Nat) (_ : Mop) : Acc × Option Nat := (⟨false, {}, s⟩, none)

/-- A.CLRF: F ← 0 in the active PEs. -/
def clrfRow (m : Mop) (acc : Acc) (tk row : Nat) : Acc :=
  { acc with st := pePut acc.st tk row peF (peGet acc.st tk row peF &&& ~~~(meffRow acc.st (mopFields m.word) tk row)) }

def clrfBody (s : Block) (tiles : List Nat) (m : Mop) : Acc × Option Nat := rowsBody false clrfRow s tiles m

/-- A.PUTF: F ← a in the active PEs. -/
def putfRow (m : Mop) (acc : Acc) (tk row : Nat) : Acc :=
  let f := mopFields m.word
  let me := meffRow acc.st f tk row
  let a : DWord := BitVec.ofNat 64 (rowData acc.st tk row f.base1)
  { acc with st := pePut acc.st tk row peF ((a &&& me) ||| (peGet acc.st tk row peF &&& ~~~me)) }

def putfBody (s : Block) (tiles : List Nat) (m : Mop) : Acc × Option Nat := rowsBody false putfRow s tiles m

/-- The new M of a row by PRM[2:0] (04 R109). -/
def setmWord (fn : Nat) (m src : DWord) : DWord :=
  match fn with
  | 0 => src
  | 1 => m &&& src
  | 2 => m ||| src
  | 3 => m &&& ~~~src
  | 4 => BitVec.allOnes 64
  | 5 => ~~~m
  | _ => m

/-- A.SETM: M in every PE, active or not (04 R109). -/
def setmRow (m : Mop) (acc : Acc) (tk row : Nat) : Acc :=
  let f := mopFields m.word
  let src := if f.prm.testBit 3 then peGet acc.st tk row peF else BitVec.ofNat 64 (rowData acc.st tk row f.base1)
  { acc with st := pePut acc.st tk row peM (setmWord (f.prm % 8) (peGet acc.st tk row peM) src) }

def setmBody (s : Block) (tiles : List Nat) (m : Mop) : Acc × Option Nat := rowsBody false setmRow s tiles m

/-- A.GETM: d ← M in every PE, so that no old row is read (04 R109, 02 R35). -/
def getmRow (m : Mop) (acc : Acc) (tk row : Nat) : Acc :=
  { acc with st := writeRow acc.st tk row (mopFields m.word).base0 (peGet acc.st tk row peM).toNat }

def getmBody (s : Block) (tiles : List Nat) (m : Mop) : Acc × Option Nat := rowsBody false getmRow s tiles m

/-! ### Croak ops (04 R112) -/

/-- The source values of the active PEs of the gang, in tile, row and column order. -/
def activeVals (s : Block) (tiles : List Nat) (f : MopF) (fromF : Bool) : List Nat × Acc :=
  let acc := readAll ⟨false, {}, s⟩ tiles (opReads f false)
  if acc.bad then ([], acc)
  else
    (tiles.flatMap fun tk => (List.range 64).flatMap fun row =>
      let me := meffRow acc.st f tk row
      let ws := if fromF then [peGet acc.st tk row peF] else rowWords acc.st tk row f.base1 (f.wid1 + 1)
      if me = 0 then [] else (List.range 64).filterMap fun c => if me.getLsbD c then some (colVal ws c) else none, acc)

/-- Croak rounds completed: ROUNDS rises, and MAX_NS may rise by how long they took, which is a free value (log 2). -/
def countRounds (s : Block) (n g k : Nat) : Block :=
  let s := rput s n .CRK_COUNT g (rget s n .CRK_COUNT g + BitVec.ofNat 32 k)
  if k = 0 then s
  else
    let d := drawFree s
    fput d.2 n F.CRK_ROUND_MAX_NS g (max (fget d.2 n F.CRK_ROUND_MAX_NS g) (d.1.toNat % 65536))

/-- A.CROAK: the OR of bit 0 of a, or of F, over the active PEs. -/
def croakBody (n g : Nat) (s : Block) (tiles : List Nat) (m : Mop) : Acc × Option Nat :=
  let f := mopFields m.word
  let r := activeVals s tiles f (f.prm.testBit 0)
  ({ r.2 with st := countRounds r.2.st n g 1 }, some (b2n (r.1.any fun v => v.testBit 0)))

/-- The extreme of a list by an order; 0 for none. -/
def extremeBy (before : Nat → Nat → Bool) : List Nat → Nat
  | [] => 0
  | v :: vs => vs.foldl (fun b x => if before x b then x else b) v

/-- A.CMAX and A.CMIN. -/
def cmaxBody (wantMax : Bool) (n g : Nat) (s : Block) (tiles : List Nat) (m : Mop) : Acc × Option Nat :=
  let f := mopFields m.word
  let r := activeVals s tiles f false
  let before := fun (x y : Nat) => if wantMax then decide (srcA f y < srcA f x) else decide (srcA f x < srcA f y)
  ({ r.2 with st := countRounds r.2.st n g (f.wid1 + 1) }, some (extremeBy before r.1))

/-- A.FCMAX and A.FCMIN: NaNs are ignored unless every active PE holds one (04 R112). -/
def fcmaxBody (wantMax : Bool) (n g : Nat) (s : Block) (tiles : List Nat) (m : Mop) : Acc × Option Nat :=
  let f := mopFields m.word
  let t := fmtFloat f.fmt
  let r := activeVals s tiles f false
  let nums := r.1.filter fun v => !(fval t false v).isNan
  let before := fun (x y : Nat) =>
    if wantMax then fBelow (fval t false y) (fval t false x) else fBelow (fval t false x) (fval t false y)
  let v := if nums.isEmpty && !r.1.isEmpty then t.qnan else extremeBy before nums
  ({ r.2 with st := countRounds r.2.st n g (f.wid1 + 1) }, some v)

/-- A.COUNT: the active PEs whose bit is 1; b rounds for a gang of X × Y PEs, b = ⌈log2(X × Y + 1)⌉ (04 R112). -/
def countBody (n g : Nat) (s : Block) (tiles : List Nat) (m : Mop) : Acc × Option Nat :=
  let f := mopFields m.word
  let r := activeVals s tiles f (f.prm.testBit 0)
  let b := clog2 (gangWidth s n g * gangHeight s n g + 1)
  ({ r.2 with st := countRounds r.2.st n g b }, some ((r.1.filter fun v => v.testBit 0).length % 2 ^ 32))

/-! ### Resumable macro-ops (04 R113-R118) -/

/-- The cursor a resumable op goes to from `cur`: its end; while its gang yields a safe point, `upto` or the next one, or Cmax once
that has been decided (03 R76). -/
def stopCursor (s : Block) (n g : Nat) (m : Mop) (upto cur top : Nat) : Nat :=
  if yielding s n g m.num then
    match (gang s n g).cmax with
    | some c => c
    | none => min top (max upto (cur + 1))
  else top

/-- Tiles stand at cursor `c`. -/
def setCursor (s : Block) (tiles : List Nat) (c : Nat) : Block :=
  tiles.foldl (fun s tk => putTile s tk { tile s tk with
    cur := BitVec.ofNat 16 c, moved := 0, phase := .run, wait := .none, lastRun := some s.now }) s

/-- A resumable op, cursor by cursor: to its end, or, while its gang yields, to the safe point at cursor `upto` or the end of what
its tiles still have to catch up. -/
def runResumable (opc fl : Nat) (total : Block → Nat → Nat → Mop → Nat) (step : Nat → Nat → Mop → Nat → Acc → Acc)
    (ready : Block → Nat → Nat → Mop → Bool) (upto : Nat) (n g : Nat) (s : Block) : Block :=
  match readyOp s n g opc fl with
  | none => s
  | some m =>
    if !ready s n g m then (gangTiles s n g).foldl holdWheel s
    else if !netLive s n g m then holdTiles s (gangTiles s n g)
    else
      let tiles := gangTiles s n g
      let cur := tiles.foldl (fun c tk => max c (tile s tk).cur.toNat) 0
      let top := total s n g m
      let stop := stopCursor s n g m upto cur top
      let r := (List.range (stop - cur)).foldl (fun acc i => if acc.bad then acc else step n g m (cur + i) acc) ⟨false, {}, s⟩
      if r.bad then faultStop r.st n g (some m.num) SRC.NEWT_PLANE_UE
      else if stop = top then finishOp r.st n g m r.flags none
      else
        let s := setCursor r.st tiles stop
        let s := putGang s n g (setOp (gang s n g) { m with flags := m.flags.join r.flags })
        tiles.foldl (fun s tk => tilePark s n g m tk) s

/-- Gang PE coordinates of a tile's top left PE. -/
def tileOrigin (s : Block) (r : Rect) (tk : Nat) : Nat × Nat :=
  match sysPos s tk with
  | some (x, y) => (64 * (x - r.tx0), 64 * (y - r.ty0))
  | none => (0, 0)

/-- The bit at a plane address of the PE at gang coordinates (X, Y); 0 where no PE is. -/
def gridBit (s : Block) (r : Rect) (addr : Nat) (X Y : Int) : Bool :=
  if X < 0 || Y < 0 then false
  else
    let x := X.toNat
    let y := Y.toNat
    if r.tx0 + x / 64 ≤ r.tx1 && r.ty0 + y / 64 ≤ r.ty1 then
      match sysTile s (r.tx0 + x / 64) (r.ty0 + y / 64) with
      | some tk => (rowData s tk (y % 64) addr).testBit (x % 64)
      | none => false
    else false

/-- A row made of one bit per column. -/
def rowOf (bit : Nat → Bool) : DWord :=
  BitVec.ofNat 64 ((List.range 64).foldl (fun acc c => acc + b2n (bit c) * 2 ^ c) 0)

/-- M of a tile row. -/
def maskOf (s : Block) (tk row : Nat) : DWord := peGet s tk row peM

/-- Steps along the axis of `d` toward where its data comes from. -/
def upstream (d : Side) (k : Nat) (X Y : Int) : Int × Int :=
  match d with
  | .north => (X, Y - k)
  | .south => (X, Y + k)
  | .east => (X + k, Y)
  | .west => (X - k, Y)

/-- A.COPY, one element (04 R113): from the last downward when the extents overlap and BASE0 > BASE1. -/
def copyStep (n g : Nat) (m : Mop) (c : Nat) (acc : Acc) : Acc :=
  let f := mopFields m.word
  let tiles := gangTiles acc.st n g
  let w := f.wid0 + 1
  let down := extOverlap (mopExtent f 0) (mopExtent f 1) && decide (f.base1 < f.base0)
  let e := if down then f.cnt - 1 - c else c
  let acc := readAll acc tiles ((List.range w).map fun i => f.base1 + e * w + i)
  let old := acc.st
  (List.range w).foldl (fun acc i => writeAll acc tiles (f.base0 + e * w + i) (maskOf old) fun tk row =>
    BitVec.ofNat 64 (rowData old tk row (f.base1 + e * w + i))) acc

def cntTotal (_ : Block) (_ _ : Nat) (m : Mop) : Nat := (mopFields m.word).cnt

def always (_ : Block) (_ _ : Nat) (_ : Mop) : Bool := true

/-- Every tile's transfer buffer is ready (10 R243). -/
def buffersReady (s : Block) (n g : Nat) (_ : Mop) : Bool := (gangTiles s n g).all fun tk => (tile s tk).whlReady

/-- A.WIN, one element: the values the Wheel left in each tile's transfer buffer (04 R113, 10 R239-R243). -/
def winStep (n g : Nat) (m : Mop) (c : Nat) (acc : Acc) : Acc :=
  let f := mopFields m.word
  let tiles := gangTiles acc.st n g
  let w := f.wid0 + 1
  let old := acc.st
  (List.range w).foldl (fun acc i => writeAll acc tiles (f.base0 + c * w + i) (maskOf old) fun tk row =>
    rowOf fun col => (((tile old tk).whlBuf[c * 4096 + row * 64 + col]?).getD 0).testBit i) acc

/-! A.SCAN (04 R114) -/

/-- Extent of the gang along an axis: 0 x, 1 y. -/
def axisExtent (s : Block) (n g : Nat) (axisY : Bool) : Nat := if axisY then gangHeight s n g else gangWidth s n g

def scanTotal (s : Block) (n g : Nat) (m : Mop) : Nat :=
  let f := mopFields m.word
  clog2 (axisExtent s n g (f.prm.testBit 0)) * (f.wid0 + 2)

/-- The scan's operation on two values of width w (04 R114). -/
def scanOp (f : MopF) (x y : Nat) : Nat :=
  match f.prm / 2 % 4 with
  | 0 => (x + y) % 2 ^ (f.wid0 + 1)
  | 1 => if srcD f x < srcD f y then y else x
  | 2 => if srcD f y < srcD f x then y else x
  | _ => Nat.lor x y

/-- One cursor step of A.SCAN: one bit moved into the workspace, or the combining step of a stage. -/
def scanStep (n g : Nat) (m : Mop) (c : Nat) (acc : Acc) : Acc :=
  let f := mopFields m.word
  let tiles := gangTiles acc.st n g
  let r := gangRect acc.st n g
  let w := f.wid0 + 1
  let k := c / (w + 1)
  let j := c % (w + 1)
  let d : Side := if f.prm.testBit 0 then .north else .west
  if j < w then
    let acc := readAll acc tiles [f.base0 + j]
    let old := acc.st
    writeAll acc tiles (f.base1 + j) (maskOf old) fun tk row => rowOf fun col =>
      let o := tileOrigin old r tk
      let p := upstream d (2 ^ k) (o.1 + col : Nat) (o.2 + row : Nat)
      gridBit old r (f.base0 + j) p.1 p.2
  else
    let acc := readAll acc tiles ((List.range w).flatMap fun i => [f.base0 + i, f.base1 + i])
    let old := acc.st
    everyRow tiles (readOld acc tiles (spanFrom f.base0 w) (maskOf old)) fun acc tk row =>
      let o := tileOrigin old r tk
      let word := fun (base i : Nat) => (BitVec.ofNat 64 (rowData old tk row (base + i)) : DWord)
      let ds := (List.range w).map (word f.base0)
      let ws := (List.range w).map (word f.base1)
      let vals := (List.range 64).map fun col =>
        let p := upstream d (2 ^ k) (o.1 + col : Nat) (o.2 + row : Nat)
        if p.1 < 0 || p.2 < 0 then colVal ds col else scanOp f (colVal ds col) (colVal ws col)
      { acc with st := writeWords acc.st tk row f.base0 (maskOf old tk row) ((List.range w).map fun i => packWord vals i) }

/-! A.BFLY and A.FBFLY (04 R115) -/

def bflyTotal (_ : Block) (_ _ : Nat) (m : Mop) : Nat :=
  let f := mopFields m.word
  f.cnt * (4 * (f.wid0 + 1) + 1)

/-- One product step and its flags. -/
structure ProdRes where
  bits : Nat
  flags : Flags
  deriving DecidableEq, Repr

/-- The number routines of the op's format, on width WID0 + 1: product, d + x·y, d − x·y, sum, difference. -/
def bMul (f : MopF) (fp : Word) (x y : Nat) : ProdRes :=
  if mopFl f = 1 then let r := fMul (fmtFloat f.fmt) (opMode f fp) (opFtz fp) x y; ⟨r.bits, r.flags⟩
  else
    let r := intResult (fmtSigned f.fmt) (f.wid0 + 1) (scaledProduct (opMode f fp) (srcD f x) (srcD f y) (fmtFrac f.fmt))
    ⟨r.bits, r.flags⟩

def bMac (f : MopF) (fp : Word) (neg : Bool) (d x y : Nat) : ProdRes :=
  if mopFl f = 1 then
    let r := fMac (fmtFloat f.fmt) (opMode f fp) (opFtz fp) d (if neg then flipSign (fmtFloat f.fmt) x else x) y
    ⟨r.bits, r.flags⟩
  else
    let nx := if neg then -(srcD f x) else srcD f x
    let r := intResult (fmtSigned f.fmt) (f.wid0 + 1) (scaledMac (opMode f fp) (srcD f d) nx (srcD f y) (fmtFrac f.fmt))
    ⟨r.bits, r.flags⟩

def bSum (f : MopF) (fp : Word) (neg : Bool) (x y : Nat) : ProdRes :=
  if mopFl f = 1 then
    let r := if neg then fSub (fmtFloat f.fmt) (opMode f fp) (opFtz fp) x y
      else fAdd (fmtFloat f.fmt) (opMode f fp) (opFtz fp) x y
    ⟨r.bits, r.flags⟩
  else
    let r := intResult (fmtSigned f.fmt) (f.wid0 + 1) (if neg then srcD f x - srcD f y else srcD f x + srcD f y)
    ⟨r.bits, r.flags⟩

/-- x1·y1 ± x2·y2, formed with one product and one multiply-accumulate; the spec does not say which product comes first, and where
that matters the value is a free one (log 2). `neg`: the second product is subtracted. -/
def bDot (f : MopF) (fp : Word) (neg : Bool) (x1 y1 x2 y2 free : Nat) : ProdRes :=
  let p1 := bMul f fp x1 y1
  let q1 := bMac f fp neg p1.bits x2 y2
  let one : ProdRes := ⟨q1.bits, p1.flags.join q1.flags⟩
  let p2 := bMul f fp (if neg && mopFl f = 1 then flipSign (fmtFloat f.fmt) x2 else x2) y2
  let q2 := if neg && mopFl f = 0 then
      (let v := scaledMac (opMode f fp) (-(srcD f p2.bits)) (srcD f x1) (srcD f y1) (fmtFrac f.fmt)
       let r := intResult (fmtSigned f.fmt) (f.wid0 + 1) v
       (⟨r.bits, r.flags⟩ : ProdRes))
    else bMac f fp false p2.bits x1 y1
  let two : ProdRes := ⟨q2.bits, p2.flags.join q2.flags⟩
  if one = two then one
  else
    ⟨if one.bits = two.bits then one.bits else free % 2 ^ (f.wid0 + 1),
     Flags.ofNat (Nat.lor (Nat.land one.flags.toNat two.flags.toNat)
       (Nat.land (Nat.lor one.flags.toNat two.flags.toNat) (free / 2 ^ 32)))⟩

/-- The butterfly in one PE: role, own and received complex values, twiddle; the two result parts and the flags (04 R115). -/
def bflyPe (f : MopF) (fp : Word) (role : Bool) (own recv tw : Nat) (free1 free2 : Nat) : Nat × Flags :=
  let w := f.wid0 + 1
  let re := fun (v : Nat) => v % 2 ^ w
  let im := fun (v : Nat) => v / 2 ^ w % 2 ^ w
  let a := if role then recv else own
  let b := if role then own else recv
  let conj := f.prm.testBit 5
  -- t·b: real tr·br − ti·bi, imaginary tr·bi + ti·br; the conjugate changes the sign of ti
  let x := bDot f fp (!conj) (re tw) (re b) (im tw) (im b) free1
  let y := bDot f fp conj (re tw) (im b) (im tw) (re b) free2
  let zr := bSum f fp role (re a) x.bits
  let zi := bSum f fp role (im a) y.bits
  (zr.bits % 2 ^ w + zi.bits % 2 ^ w * 2 ^ w, ((x.flags.join y.flags).join zr.flags).join zi.flags)

/-- The role bits of a butterfly pass are read at the start of the op and kept (04 R94, R115). -/
def readRoles (tiles : List Nat) (f : MopF) (acc : Acc) : Acc :=
  let acc := readAll acc tiles [f.maddr]
  if acc.bad then acc
  else
    { acc with st := tiles.foldl (fun s tk => putTile s tk { tile s tk with
        roles := (List.range 64).map fun row => BitVec.ofNat 64 (rowData s tk row f.maddr) }) acc.st }

/-- The role bits of a tile row. -/
def roleOf (s : Block) (tk row : Nat) : DWord := ((tile s tk).roles[row]?).getD 0

/-- One cursor step of a butterfly pass (04 R115, R118): one bit of the partner's value received by the PEs of one role, or the
arithmetic of a batch. -/
def bflyStep (n g : Nat) (m : Mop) (c : Nat) (acc : Acc) : Acc :=
  let f := mopFields m.word
  let tiles := gangTiles acc.st n g
  let r := gangRect acc.st n g
  let w := f.wid0 + 1
  let b := c / (4 * w + 1)
  let j := c % (4 * w + 1)
  let src := f.base1 + 2 * w * b
  let dst := if f.base0 = f.base1 then scratchBase else f.base0 + 2 * w * b
  let dist := 2 ^ (f.prm % 16)
  let axisY := f.prm.testBit 4
  let acc := if c = 0 then readRoles tiles f acc else acc
  if j < 4 * w then
    let first := decide (j < 2 * w)
    let i := if first then j else j - 2 * w
    let acc := readAll acc tiles [src + i]
    let old := acc.st
    let d : Side := if first then (if axisY then .south else .east) else (if axisY then .north else .west)
    writeAll acc tiles (dst + i)
      (fun tk row => maskOf old tk row &&& (if first then ~~~(roleOf old tk row) else roleOf old tk row))
      fun tk row => rowOf fun col =>
        let o := tileOrigin old r tk
        let p := upstream d dist (o.1 + col : Nat) (o.2 + row : Nat)
        gridBit old r (src + i) p.1 p.2
  else
    let acc := readAll acc tiles (spanFrom src (2 * w) ++ spanFrom dst (2 * w) ++ spanFrom f.base2 (2 * w))
    let out := f.base0 + 2 * w * b
    let old := acc.st
    everyRow tiles (readOld acc tiles (spanFrom out (2 * w)) (maskOf old)) fun acc tk row =>
      let own := rowWords old tk row src (2 * w)
      let rcv := rowWords old tk row dst (2 * w)
      let tw := rowWords old tk row f.base2 (2 * w)
      let me := maskOf old tk row
      let outs := (List.range 64).map fun col =>
        if me.getLsbD col then
          bflyPe f m.fpctrl ((roleOf old tk row).getLsbD col) (colVal own col) (colVal rcv col) (colVal tw col)
            (Config.freeValue (acc.st.freeCtr + 2 * col)).toNat (Config.freeValue (acc.st.freeCtr + 2 * col + 1)).toNat
        else (0, {})
      let st := { acc.st with freeCtr := acc.st.freeCtr + 128 }
      ⟨acc.bad, outs.foldl (fun x o => x.join o.2) acc.flags,
        writeWords st tk row out me ((List.range (2 * w)).map fun i => packWord (outs.map (·.1)) i)⟩

/-! A.MOVN (04 R116; 02 R44-R47) -/

def movnTotal (_ : Block) (_ _ : Nat) (m : Mop) : Nat := (mopFields m.word).wid0 + 1

/-- The bit that reaches PE (row, col) of a tile from distance `k` in direction `d`: traced back tile by tile through the edge
modes of its gang (02 R44). No side on the way is a CONT side. -/
def traceBit (s : Block) (i : Nat) (d : Side) : Nat → Nat → Nat → Nat → Nat → Bool
  | 0, _, _, _, _ => false
  | fuel + 1, tk, row, col, k =>
    match tileOp s tk with
    | none => false
    | some (n, g, m) =>
      let room := match d with
        | .north => row
        | .south => 63 - row
        | .east => 63 - col
        | .west => col
      if k ≤ room then
        let p := match d with
          | .north => (row - k, col)
          | .south => (row + k, col)
          | .east => (row, col + k)
          | .west => (row, col - k)
        (rowData s tk p.1 ((mopFields m.word).base1 + i)).testBit p.2
      else
        let r := gangRect s n g
        let nxt := match sideKind s r m tk d with
          | 1 => none
          | 2 => wrapTile s r tk d
          | _ => neighbour s tk d
        match nxt with
        | none => false
        | some o =>
          let p := match d with
            | .north => (63, col)
            | .south => (0, col)
            | .east => (row, 0)
            | .west => (row, 63)
          traceBit s i d fuel o p.1 p.2 (k - room - 1)

/-- One bit of A.MOVN on a line that reaches no CONT side, from the planes as they stood before the bit. -/
def movnBit (m : Mop) (line : List Nat) (i : Nat) (acc : Acc) : Acc :=
  let f := mopFields m.word
  let acc := readAll acc line [f.base1 + i]
  let old := acc.st
  writeAll acc line (f.base0 + i) (maskOf old) fun tk row => rowOf fun col =>
    traceBit old i (movnDir f) (f.prm % 2 ^ 12 + 1) tk row col (f.prm % 2 ^ 12)

/-- A line loads the bit at cursor `c` into N (04 R116). -/
def movnLoad (m : Mop) (line : List Nat) (c : Nat) (acc : Acc) : Acc :=
  let acc := readAll acc line [(mopFields m.word).base1 + c]
  if acc.bad then acc
  else
    let old := acc.st
    let acc := everyRow line acc fun acc tk row =>
      { acc with st := pePut acc.st tk row peN (BitVec.ofNat 64 (rowData old tk row ((mopFields m.word).base1 + c))) }
    { acc with st := line.foldl (fun s tk => putTile s tk { tile s tk with moved := 1 }) acc.st }

/-- The tiles of a line at its leaving CONT side send the step of the next exchange, if they have not (02 R41, R47). -/
def movnSend (r : Rect) (m : Mop) (line : List Nat) (s : Block) : Block :=
  let d := movnDir (mopFields m.word)
  let o := oppSide d
  line.foldl (fun s tk =>
    let t := tile s tk
    if sideKind s r m tk o = 3 && !t.sent then
      putTile s tk { t with
        sent := true, outbox := t.outbox.put o (t.outbox.get o ++ [⟨t.contCount.get o, d, outBits s tk d⟩]) }
    else s) s

/-- The bits that enter a tile of a line in an exchange (02 R44). -/
def movnEnter (s : Block) (r : Rect) (m : Mop) (tk : Nat) (d : Side) : DWord :=
  match sideKind s r m tk d with
  | 0 => ((neighbour s tk d).map fun o => outBits s o d).getD 0
  | 2 => ((wrapTile s r tk d).map fun o => outBits s o d).getD 0
  | 3 => (stepIn s r m tk d).getD 0
  | _ => 0

/-- A line makes an exchange whose steps are all present: every N moves one PE, and steps and exchanges are counted. -/
def movnShift (r : Rect) (m : Mop) (line : List Nat) (s : Block) : Block :=
  let d := movnDir (mopFields m.word)
  line.foldl (fun acc tk =>
    let bits := movnEnter s r m tk d
    let acc := (List.range 64).foldl (fun acc row => pePut acc tk row peN (recvRow s tk row d bits)) acc
    let t := tile acc tk
    let t := if sideKind s r m tk d = 3 then { t with inbox := t.inbox.put d ((t.inbox.get d).drop 1) } else t
    putTile acc tk { countCont s r m tk d t with moved := t.moved + 1, sent := false }) s

/-- A line that reaches a CONT side goes on, cycle by cycle, to cursor `stop` or until an exchange has to wait: for room to send, or
for the step that enters (02 R41, R47). The flag says that a step goes against the exchange. -/
def movnCycles (r : Rect) (m : Mop) (line : List Nat) (stop : Nat) : Nat → Acc → Bool × Acc
  | 0, acc => (false, acc)
  | fuel + 1, acc =>
    let f := mopFields m.word
    let d := movnDir f
    let s := acc.st
    let t := tile s (line.headD 0)
    let c := t.cur.toNat
    if acc.bad || stop ≤ c then (false, acc)
    else if t.moved = 0 then movnCycles r m line stop fuel (movnLoad m line c acc)
    else if t.moved ≤ f.prm % 2 ^ 12 then
      if line.any fun tk => edgeMismatch s r m tk d then (true, acc)
      else if !lineLive s r d line || !lineRoom s r m d line then (false, acc)
      else
        let s := movnSend r m line s
        if lineFed s r m d line then movnCycles r m line stop fuel { acc with st := movnShift r m line s }
        else (false, { acc with st := s })
    else
      let old := s
      let acc := writeAll acc line (f.base0 + c) (maskOf old) fun tk row => peGet old tk row peN
      if acc.bad then (false, acc)
      else movnCycles r m line stop fuel { acc with st := setCursor acc.st line (c + 1) }

/-- A line of tiles of an A.MOVN comes to rest: its tiles report the op done at its end, park at a safe point of a yield, or wait
for their next exchange (02 R43, 04 R118). -/
def movnRest (n g : Nat) (m : Mop) (line : List Nat) (stop top : Nat) (before : Nat × Nat) (s : Block) : Block :=
  let t := tile s (line.headD 0)
  if t.cur.toNat < stop then
    line.foldl (fun s tk =>
      let t := tile s tk
      let since := if t.wait = .cont && (t.cur.toNat, t.moved) == before then t.since else s.now
      putTile s tk { t with phase := .wait, wait := .cont, since := since }) s
  else if stop = top then
    match findOp (gang s n g) m.num with
    | some m => finishTiles s n g m line {} none
    | none => s
  else line.foldl (fun s tk => tilePark s n g m tk) s

/-- A.MOVN on one line: bit by bit where it reaches no CONT side and its links are up, else exchange by exchange. -/
def movnLine (n g : Nat) (m : Mop) (upto : Nat) (line : List Nat) (s : Block) : Block :=
  let f := mopFields m.word
  let d := movnDir f
  let r := gangRect s n g
  let t := tile s (line.headD 0)
  let c := t.cur.toNat
  let top := f.wid0 + 1
  let stop := stopCursor s n g m upto c top
  let res := if !lineCont s r m d line && lineLive s r d line && t.moved == 0 then
      let acc := (List.range (stop - c)).foldl (fun acc i => movnBit m line (c + i) acc) ⟨false, {}, s⟩
      (false, { acc with st := setCursor acc.st line stop })
    else movnCycles r m line stop ((stop - c) * (f.prm % 2 ^ 12 + 2) + 1) ⟨false, {}, s⟩
  if res.2.bad then faultStop res.2.st n g (some m.num) SRC.NEWT_PLANE_UE
  else if res.1 then
    match line.find? fun tk => edgeMismatch res.2.st r m tk d with
    | some tk => edgeAgainst res.2.st tk
    | none => res.2.st
  else movnRest n g m line stop top (c, t.moved) res.2.st

/-- A.MOVN (04 R116, R118): every line of the gang along the axis of the move whose tiles are ready goes on. -/
def runMovn (upto : Nat) (n g : Nat) (s : Block) : Block :=
  match headOp s n g with
  | none => s
  | some m =>
    let f := mopFields m.word
    if f.opc = 0x33 && mopFl f = 0 && m.started then
      (gangLines s n g (axisIsY (movnDir f))).foldl (fun s line =>
        if allReady s line m.num then movnLine n g m upto line s else s) s
    else s

/-! A.WOUT (04 R113, R118, 10 R241): the Wheel takes a tile's elements to memory one by one, and its cursor with them. -/

/-- A.WOUT at one tile that the Wheel does not hold up: it reports the op done after its last element, and parks at a safe point of a
yield, which lies between any two elements. -/
def woutRest (n g : Nat) (m : Mop) (s : Block) (tk : Nat) : Block :=
  let c := (tile s tk).cur.toNat
  match findOp (gang s n g) m.num with
  | none => s
  | some m =>
    if !tileReady s m.num tk then s
    else if c = (mopFields m.word).cnt then finishTiles s n g m [tk] {} none
    else if yielding s n g m.num && ((gang s n g).cmax.getD c == c) then tilePark s n g m tk
    else holdWheel s tk

/-- A.WOUT: every tile of the gang that has moved its elements goes on, or, with `only`, that one alone: tiles keep no step with each
other. -/
def runWout (only : Option TileAt) (n g : Nat) (s : Block) : Block :=
  match headOp s n g with
  | none => s
  | some m =>
    if (mopFields m.word).opc = 0x54 && mopFl (mopFields m.word) = 0 && m.started then ((gangTiles s n g).filter fun tk => only.all fun x => tk == tkey x.node x.tile).foldl (woutRest n g m) s
    else s

/-! User routines (04 R122) -/

/-- USER_OP (04 R122): up to `k` tile cycles of the user routine that a tile runs; it goes no further than the routine's end or
a wait. -/
def userOp (k : Nat) (tn : Node) (t : TileIx) (s : Block) : Block :=
  match k with
  | 0 => s
  | k + 1 =>
    match tileOp s (tkey tn t) with
    | some (_, _, m) =>
      if mopUser (mopFields m.word) && decide ((tile s (tkey tn t)).phase = .run) then userOp k tn t (tileCycle tn t s) else s
    | none => s

end Sys2Proof.Machine
end

