-- ==== Sys2Proof/Machine/Log.lean ====
section
/-! DEFINITION. Sys2Proof/Machine/Log.lean: the Log engine: records, compression, the spool and the host ring (11 R270-R276). -/

namespace Sys2Proof.Machine

/-! ### Time and host memory -/

/-- The primary's device time in whole nanoseconds (01 R11), in which the model's timers count (log 45). -/
def nowNs (s : Block) : Nat := s.now / 2 ^ 16

/-- The module writes bytes to host memory. -/
def hostWrite (s : Block) (addr : Nat) (bs : List (BitVec 8)) : Block :=
  { s with hostMem := (bs.zipIdx).foldl (fun m p => mput (fun _ => 0) m ((addr + p.2) % 2 ^ 64) p.1) s.hostMem }

/-- A number as bytes, least significant first. -/
def leBytes (k v : Nat) : List (BitVec 8) := (bytesLE k v).map (BitVec.ofNat 8)

/-- CRC-32 of bytes (03 R82). -/
def crcBytes (bs : List (BitVec 8)) : Nat := crc32 (bs.map BitVec.toNat)

/-- Zeros that pad `len` bytes to a multiple of `k`. -/
def padBytes (len k : Nat) : List (BitVec 8) := List.replicate ((k - len % k) % k) 0

/-! ### Compression (11 R273, R274) -/

/-- The value a residual maps to. -/
def zigzag (e : Int) : Nat := if 0 ≤ e then (2 * e).toNat else (-2 * e - 1).toNat

/-- Mapped residuals of a slot's samples with predictor order `ord`; `h` holds the samples already passed, latest first. -/
def residuals (ord : Nat) : List Int → List Int → List Nat
  | _, [] => []
  | h, x :: xs =>
    let p : Int := match min ord h.length, h with
      | 1, a :: _ => a
      | 2, a :: b :: _ => 2 * a - b
      | _, _ => 0
    zigzag (x - p) :: residuals ord (x :: h) xs

/-- Bits of a partition under code K. -/
def riceCost (k : Nat) (us : List Nat) : Nat := us.foldl (fun c u => c + u / 2 ^ k + 1 + k) 0

/-- The K of a partition (11 R274): the cheapest from 0 to 25, the lowest on a tie; 31 only when strictly cheaper. -/
def riceK (us : List Nat) : Nat :=
  let best := (List.range 26).foldl (fun b k => if riceCost k us < riceCost b us then k else b) 0
  if 26 * us.length < riceCost best us then 31 else best

/-- A number's low `k` bits, most significant first. -/
def bitsMsb (k v : Nat) : List Bool := (List.range k).map fun i => v.testBit (k - 1 - i)

/-- The code of one value. -/
def riceCode (k u : Nat) : List Bool :=
  if k = 31 then bitsMsb 26 u else List.replicate (u / 2 ^ k) true ++ false :: bitsMsb k u

/-- A partition: the 5-bit K, then its values. -/
def ricePart (us : List Nat) : List Bool := bitsMsb 5 (riceK us) ++ us.flatMap (riceCode (riceK us))

/-- Cut a list into pieces of `k`, with fuel. -/
def pieces {α : Type} (k : Nat) : Nat → List α → List (List α)
  | 0, _ => []
  | _, [] => []
  | f + 1, l => l.take k :: pieces k f (l.drop k)

/-- Bits packed into bytes from bit 7 downward. -/
def packMsb (bs : List Bool) : List (BitVec 8) :=
  (pieces 8 (bs.length / 8 + 1) bs).map fun p =>
    BitVec.ofNat 8 ((p.zipIdx).foldl (fun a q => a + b2n q.1 * 2 ^ (7 - q.2)) 0)

/-- A SAMPLES slot: its length in bits, and its stream padded to a multiple of 32 bits. -/
def slotCoded (ord : Nat) (xs : List Int) : List (BitVec 8) :=
  let bits := (pieces 16 (xs.length / 16 + 1) (residuals ord [] xs)).flatMap ricePart
  leBytes 4 bits.length ++ packMsb (bits ++ List.replicate ((32 - bits.length % 32) % 32) false)

/-- Head of a SAMPLES or RAW payload (11 R271). -/
def blockHead (blk hop nch ord : Nat) : List (BitVec 8) :=
  leBytes 8 blk ++ leBytes 4 hop ++ leBytes 2 nch ++ leBytes 1 ord ++ [0]

/-- Type and payload of a stream block (11 R274). -/
def blockPayload (blk hop nch ord : Nat) (slots : List (List Int)) : Nat × List (BitVec 8) :=
  let coded := blockHead blk hop nch ord ++ slots.flatMap (slotCoded ord)
  let raw := blockHead blk hop nch ord ++ slots.flatMap fun xs => xs.flatMap fun x => leBytes 3 (x % 2 ^ 24).toNat
  if coded.length < raw.length then (0x01, coded) else (0x02, raw)

/-! ### Records (11 R271) -/

def logSt (s : Block) (n : Nat) : LogSt := mget (fun _ => {}) s.logs n
def putLog (s : Block) (n : Nat) (x : LogSt) : Block := { s with logs := mput (fun _ => {}) s.logs n x }

def tSamples : Nat := 0x01
def tRaw : Nat := 0x02
def tPortData : Nat := 0x03
def tEvent : Nat := 0x04
def tFault : Nat := 0x05
def tGap : Nat := 0x06
def tEpoch : Nat := 0x07

/-- A whole record. -/
def logRecord (seq time epoch typ flags source : Nat) (pay : List (BitVec 8)) : List (BitVec 8) :=
  let head := leBytes 8 seq ++ leBytes 8 time ++ leBytes 4 epoch ++ leBytes 1 typ ++ leBytes 1 flags ++ leBytes 2 source ++
    leBytes 4 pay.length
  let body := pay ++ padBytes pay.length 32
  head ++ leBytes 4 (crcBytes (head ++ body)) ++ body

def logOn (s : Block) (n : Nat) : Bool := fget s n F.LOG_CTRL_STATE = 2
def logRing (s : Block) (n : Nat) : Nat := fget s n F.LOG_CTRL_RING

/-- The REC_RING_AREA of the spool ring. -/
def logArea (s : Block) (n : Nat) : Word := rget s n .REC_RING_AREA (ix (logRing s n))

/-- How far place `w` of a ring of `size` bytes lies before the `k` bytes at place `o`; 0 inside them. -/
def placeTo (size w o k : Nat) : Nat := if (w + size - o % size) % size < k then 0 else (o % size + size - w) % size

/-- The bytes of the record store that a record in the spool occupies: address and length, in up to two pieces. -/
def recSpan (p : Nat × Nat × Word) : List (Nat × Nat) :=
  let size := 2 ^ 21 * wbits p.2.2 31 16
  let base := 2 ^ 21 * wbits p.2.2 15 0
  let first := min p.2.1 (size - p.1 % size)
  [(base + p.1 % size, first), (base, p.2.1 - first)]

/-- Bytes from the spool ring's next place up to the first that is still to be copied, in whatever area it was written; COUNT may have
restarted since (11 R272, 10 R235). -/
def spoolRoom (s : Block) (n : Nat) : Nat :=
  let base := 2 ^ 21 * ringF s n (logRing s n) F.REC_RING_AREA_BASE
  let size := 2 ^ 21 * ringF s n (logRing s n) F.REC_RING_AREA_SIZE
  let w := ringCount s n (logRing s n) % size
  ((logSt s n).queue.flatMap recSpan).foldl (fun room p =>
    let lo := max base p.1
    let hi := min (base + size) (p.1 + p.2)
    if lo < hi then min room (placeTo size w (lo - base) (hi - lo)) else room) size

/-- Append one record to the spool, if the ring has room for it (11 R272). -/
def spoolOne (s : Block) (n time typ flags source : Nat) (pay : List (BitVec 8)) : Bool × Block :=
  let seq := get64 s n .LOG_SEQ
  let rec_ := logRecord seq time (get64 s n .WEIR_EPOCH % 2 ^ 32) typ flags source pay
  let r := logRing s n
  if spoolRoom s n < rec_.length then (false, s)
  else
    let pos := ringCount s n r
    let a := ringAppend s n r 2 rec_
    if a.1 = rec_.length then
      let s := put64 a.2 n .LOG_SEQ 0 0 (seq + 1)
      let x := logSt s n
      (true, putLog s n { x with queue := x.queue ++ [(pos, rec_.length, logArea s n)] })
    else (false, a.2)

/-- The pieces of a payload: at most 1 MiB each (11 R271). -/
def payPieces (pay : List (BitVec 8)) : List (List (BitVec 8)) :=
  if pay.isEmpty then [[]] else pieces (2 ^ 20) (pay.length / 2 ^ 20 + 1) pay

/-- Append the pieces of a record in turn: each but the last carries CONT. -/
def spoolPieces (n time typ source : Nat) : List (List (BitVec 8)) → Block → Bool × Block
  | [], s => (true, s)
  | p :: ps, s =>
    let r := spoolOne s n time typ (if ps.isEmpty then 0 else 1) source p
    if r.1 then spoolPieces n time typ source ps r.2 else r

/-- Block in a GAP record what a source has lost (11 R272). -/
def spoolGap (s : Block) (n key : Nat) : Bool × Block :=
  match mget (fun _ => (0, 0)) (logSt s n).lost key with
  | (0, _) => (true, s)
  | (k, blk) =>
    let pay := leBytes 2 (key % 65536) ++ [0, 0] ++ leBytes 4 k ++ leBytes 8 blk
    let r := spoolOne s n (devNs s n) tGap 0 (key % 65536) pay
    if r.1 then
      let x := logSt r.2 n
      (true, putLog r.2 n { x with lost := mput (fun _ => (0, 0)) x.lost key (0, 0) })
    else r

/-- A record of a source is dropped (11 R272). -/
def logDrop (s : Block) (n key blk : Nat) : Block :=
  let x := logSt s n
  let old := mget (fun _ => (0, 0)) x.lost key
  let new := if old.1 = 0 then (1, blk) else (old.1 + 1, old.2)
  let s := putLog s n { x with lost := mput (fun _ => (0, 0)) x.lost key new }
  let s := raise (fset s n F.LOG_STATUS_OVERFLOW 1) n SRC.LOG_OVERFLOW 0 0
  irqAll s n cLog

/-- The engine takes a record, or drops it: false if it was dropped. -/
def logPost (s : Block) (n time typ source blk : Nat) (pay : List (BitVec 8)) : Bool × Block :=
  let key := typ * 65536 + source
  let g := spoolGap s n key
  if g.1 then
    let r := spoolPieces n time typ source (payPieces pay) g.2
    if r.1 then r else (false, logDrop r.2 n key blk)
  else (false, logDrop g.2 n key blk)

/-- Port data (11 R270, R272): `none` while the spool cannot take them. -/
def logPort (s : Block) (n port : Nat) (pay : List (BitVec 8)) : Option Block :=
  if logOn s n then
    let r := spoolPieces n (devNs s n) tPortData port (payPieces pay) s
    if r.1 then some r.2 else none
  else none

/-- A stream block (11 R261): false if it was dropped, as one is that the engine cannot take because it is not ON.  Blocks coded or raw
share one source of losses. -/
def logBlock (s : Block) (n stream stampNs blk hop nch ord : Nat) (slots : List (List Int)) : Bool × Block :=
  let key := tSamples * 65536 + stream
  if logOn s n then
    let p := blockPayload blk hop nch ord slots
    let g := spoolGap s n key
    if g.1 then
      let r := spoolPieces n stampNs p.1 stream (payPieces p.2) g.2
      if r.1 then r else (false, logDrop r.2 n key blk)
    else (false, logDrop g.2 n key blk)
  else (false, logDrop s n key blk)

/-- A fault record, while FAULTS = 1 (11 R270, 17 R382). -/
def logFault (s : Block) (n src : Nat) (pay : List (BitVec 8)) : Block :=
  if logOn s n && fbit s n F.LOG_CTRL_FAULTS then (logPost s n (devNs s n) tFault src 0 pay).2 else s

/-- An epoch marker (11 R270); its payload is empty (log 35). -/
def logEpoch (s : Block) (n : Nat) : Block := if logOn s n then (logPost s n (devNs s n) tEpoch 0 0 []).2 else s

/-- The writer an EVENT record names (11 R271); a Gecko region reads as 0 (log 35). -/
def eventWriter : Ctx → Nat
  | .queue q => q.val
  | .acu _ a => 16 + a.val
  | .region _ _ => 0

/-- LOG_EVENT_WRITE (11 R270): an aligned 64-bit write of LOG_EVENT. -/
def logEventWrite (c : Ctx) (n : Node) (d : DWord) (s : Block) : Block :=
  if logOn s n then (logPost s n (devNs s n) tEvent (eventWriter c) 0 (leBytes 8 d.toNat)).2 else s

/-! ### The host ring (11 R275, R276) -/

/-- The LOG interrupt: host source 18 and cause 0x16 (08 R180). -/
def logIrq (s : Block) (n : Nat) : Block :=
  let x := logSt s n
  let s := putLog s n { x with sigAt := get64 s n .LOG_HOST_WPTR, unsigDue := none }
  hostIrq (irqAll s n cLog) n hLog

/-- Room has returned: every source with losses states them, in order of type and source (11 R272). -/
def spoolGaps (s : Block) (n : Nat) : Block :=
  ((logSt s n).lost.map (·.1)).foldl (fun s k => (spoolGap s n k).2) s

/-- The spool ring may take data again: what was lost is stated. -/
def ringBack (n : Node) (r : Fin 32) (s : Block) : Block := if logOn s n && logRing s n == r.val then spoolGaps s n else s

/-- RING_EN_WRITE (10 R235, R237, 11 R272). -/
def ringEnWrite (n : Node) (r : Fin 32) (en : Bool) (s : Block) : Block := ringBack n r (ringEn n r en s)

/-- RING_RESUME (10 R236, 11 R272). -/
def ringResume (n : Node) (r : Fin 32) (s : Block) : Block := ringBack n r (ringThaw n r s)

/-- Write bytes into the host ring from byte count `b` on. -/
def hostRing (s : Block) (n b : Nat) (bs : List (BitVec 8)) : Block :=
  let size := 2 ^ fget s n F.LOG_HOST_SIZE_SIZE_LOG2
  let base := get64 s n .LOG_HOST_BASE / 4096 * 4096
  (bs.zipIdx).foldl (fun s p => hostWrite s (base + (b + p.2) % size) [p.1]) s

/-- Read `len` bytes of a ring of area `area` from position `pos`; what is in error reads as all ones (10 R233). -/
def ringRead (s : Block) (n : Nat) (area : Word) (pos len : Nat) : List (BitVec 8) × Block :=
  let size := 2 ^ 21 * wbits area 31 16
  let base := 2 ^ 21 * wbits area 15 0
  let first := min len (size - pos % size)
  let a := recReads n ownLog first (base + pos % size) first s
  let b := recReads n ownLog (len - first) base (len - first) a.2
  (a.1 ++ b.1, b.2)

/-- LOG_HOST_COPY (11 R275): the oldest record of the spool goes into the host ring, if the whole of it fits. -/
def logHostCopy (n : Node) (s : Block) : Block :=
  let x := logSt s n
  match x.queue with
  | [] => s
  | (pos, len, area) :: rest =>
    let w := get64 s n .LOG_HOST_WPTR
    if fget s n F.LOG_CTRL_STATE = 0 then s
    else if get64 s n .LOG_HOST_RPTR + 2 ^ fget s n F.LOG_HOST_SIZE_SIZE_LOG2 < w + len then s
    else
      let d := ringRead s n area pos len
      let s := hostRing d.2 n w d.1
      let s := put64 s n .LOG_HOST_WPTR 0 0 (w + len)
      let due := x.unsigDue.getD (s.now + fget s n F.LOG_IRQ_TIMER_US * 1000 * 2 ^ 16)
      let s := putLog s n { logSt s n with queue := rest, unsigDue := some due }
      let s := if fget s n F.LOG_CTRL_STATE = 2 then spoolGaps s n else s
      if x.sigAt + 1024 * fget s n F.LOG_IRQ_THRESH_KIB ≤ w + len then logIrq s n else s

/-- LOG_IRQ_TIMER (11 R275). -/
def logIrqTimer (n : Node) (s : Block) : Block :=
  match (logSt s n).unsigDue with
  | some due => logIrq (atTime s due) n
  | none => s

/-- LOG_STATUS.CFG_REJECT. -/
def logReject (s : Block) (n : Nat) : Block := fset s n F.LOG_STATUS_CFG_REJECT 1

/-- A 64-bit value with one half, or both, written: 0 both, 1 the low half, 2 the high half. -/
def halfWrite (old : Nat) (half : Nat) (v : Nat) : Nat :=
  match half with
  | 0 => v % 2 ^ 64
  | 1 => old / 2 ^ 32 * 2 ^ 32 + v % 2 ^ 32
  | _ => old % 2 ^ 32 + 2 ^ 32 * (v % 2 ^ 32)

/-- LOG_RPTR_WRITE (11 R275). -/
def logRptrWrite (n : Node) (half : Fin 3) (v : DWord) (s : Block) : Block :=
  let old := get64 s n .LOG_HOST_RPTR
  let new := halfWrite old half v.toNat
  if get64 s n .LOG_HOST_WPTR < new || new < old then logReject s n else put64 s n .LOG_HOST_RPTR 0 0 new

/-- LOG_EN_WRITE (11 R276): enabling sets WPTR and RPTR to 0. -/
def logEnWrite (n : Node) (en : Bool) (s : Block) : Block :=
  match fget s n F.LOG_CTRL_STATE, en with
  | 0, true =>
    let s := fset (fset s n F.LOG_CTRL_EN 1) n F.LOG_CTRL_STATE 2
    let s := put64 (put64 s n .LOG_HOST_WPTR 0 0 0) n .LOG_HOST_RPTR 0 0 0
    putLog s n { logSt s n with sigAt := 0, unsigDue := none }
  | 2, false => fset (fset s n F.LOG_CTRL_EN 0) n F.LOG_CTRL_STATE 1
  | _, _ => s

/-- LOG_DRAIN_DONE (11 R276): nothing remains to copy. -/
def logDrainDone (n : Node) (s : Block) : Block :=
  if fget s n F.LOG_CTRL_STATE = 1 && (logSt s n).queue.isEmpty then fset s n F.LOG_CTRL_STATE 0 else s

end Sys2Proof.Machine
end

