-- ==== Sys2Proof/Machine/CmdBase.lean ====
section
/-! DEFINITION. Sys2Proof/Machine/CmdBase.lean: commands in flight, their results and replies (14 R325-R335). -/

namespace Sys2Proof.Machine

/-- Status codes (14 R332). -/
def stOk : Nat := 0x00
def stAborted : Nat := 0x01
def stTooLate : Nat := 0x02
def stCancelled : Nat := 0x03
def stBadOpcode : Nat := 0x10
def stBadParam : Nat := 0x11
def stBadNode : Nat := 0x12
def stBusy : Nat := 0x13
def stNoRoute : Nat := 0x20
def stPwrOff : Nat := 0x21
def stTimeout : Nat := 0x22
def stStoreFail : Nat := 0x30
def stImageRejected : Nat := 0x31
def stFaulted : Nat := 0x40

/-- A command in flight under a queue and CID; one refused for a CID in use is not (14 R330). -/
def CmdFl.named (q cid : Nat) (c : CmdFl) : Bool := c.q == q && c.cid == cid && !c.dup

/-- The command in flight with a queue and CID. -/
def cmdOf (s : Block) (q cid : Nat) : Option CmdFl := s.flight.find? (CmdFl.named q cid)

/-- A command refused for the CID of another in flight, its reply not yet written. -/
def dupOf (s : Block) (q cid : Nat) : Option CmdFl := s.flight.find? fun c => c.q == q && c.cid == cid && c.dup

/-- Change a command in flight. -/
def cmdSet (s : Block) (q cid : Nat) (f : CmdFl → CmdFl) : Block :=
  { s with flight := s.flight.map fun c => if c.named q cid then f c else c }

/-- A command's outcome becomes known; the first one stands. -/
def cmdEnd (s : Block) (q cid : Nat) (r : Reply) : Block :=
  cmdSet s q cid fun c => if c.result.isSome then c else { c with result := some r }

/-- A command reaches its commit point. -/
def cmdPast (s : Block) (q cid : Nat) : Block := cmdSet s q cid fun c => { c with past := true }

/-- Its work goes on. -/
def cmdStep (s : Block) (q cid k : Nat) : Block := cmdSet s q cid fun c => { c with step := k }

/-- The reply of a GANG_RUN whose program has ended: status, and the fault source or the acceptance number of A.END (14 R339). -/
def progReply (v : Nat × Nat) : Reply :=
  { status := v.1, detail := if v.1 = stFaulted then v.2 % 256 else 0, r0 := if v.1 = stOk then v.2 else 0 }

/-- Parameter `Pk`. -/
def CmdFl.p (c : CmdFl) (k : Nat) : Nat := c.ps.getD k 0

end Sys2Proof.Machine
end

