-- ==== Sys2Proof/Machine/Dlm.lean ====
section
/-! DEFINITION. Sys2Proof/Machine/Dlm.lean: deadline monitors (17 R392-R395). -/

namespace Sys2Proof.Machine

def dlmPhase (s : Block) (n m : Nat) : Nat := fget s n F.DLM_STATUS_PHASE m
def setDlmPhase (s : Block) (n m v : Nat) : Block := fput s n F.DLM_STATUS_PHASE m v
def dlmOn (s : Block) (n m : Nat) : Bool := fget s n F.DLM_CTRL_STATE m = 2
def dlmDeadline (s : Block) (n m : Nat) : Nat := get64 s n .DLM_DEADLINE 0 m

/-- Phases (DLM_STATUS). -/
def dlmIdle : Nat := 0
def dlmArmed : Nat := 1
def dlmMissed : Nat := 2

/-- An arming event with armed time `a`, in ns (17 R392, R394). -/
def dlmArm (s : Block) (n m a : Nat) : Block :=
  if !dlmOn s n m then s
  else if dlmPhase s n m = dlmArmed then raise (fput s n F.DLM_STATUS_REARM m 1) n SRC.DLM_REARM m 0
  else
    setDlmPhase (put64 s n .DLM_DEADLINE 0 m ((a + get64 s n .DLM_OFFSET 0 m) % 2 ^ 64)) n m dlmArmed

/-- The deadline passes while ARMED (17 R393, R395). -/
def dlmMiss (s : Block) (n m : Nat) : Block :=
  let d := dlmDeadline s n m
  let s := setDlmPhase (fwrap s n F.DLM_MISSES_MISSES m) n m dlmMissed
  let s := hostIrq (raise s n (SRC.DLM_MISS + m) m d) n hDeadline
  if fbit s n F.DLM_CTRL_ACU_EN m then irqAcu s n (fget s n F.DLM_CTRL_ACU m) cDeadline else s

/-- A completion in MISSED (17 R393). -/
def dlmLate (s : Block) (n m : Nat) : Block :=
  let late := nowNs s - dlmDeadline s n m
  setDlmPhase (fput s n F.DLM_LATE_NS_LATE_NS m (min late (2 ^ 32 - 1))) n m dlmIdle

/-- A completion event (17 R393): at or before the deadline it meets the monitor. -/
def dlmDone (s : Block) (n m : Nat) : Block :=
  if !dlmOn s n m then s
  else if dlmPhase s n m = dlmArmed then
    if s.now ≤ dlmDeadline s n m * 2 ^ 16 then setDlmPhase (fwrap s n F.DLM_MET_MET m) n m dlmIdle
    else dlmLate (dlmMiss s n m) n m
  else if dlmPhase s n m = dlmMissed then dlmLate s n m
  else fput s n F.DLM_STATUS_STRAY m 1

/-- DLM_ARM_WRITE (17 R392): a write of ARM = 1. -/
def dlmArmWrite (n : Node) (m : Fin 64) (s : Block) : Block :=
  if fget s n F.DLM_CTRL_ARM_SRC m = 0 then
    dlmArm s n m (if fbit s n F.DLM_CTRL_ABS m then get64 s n .DLM_ABS 0 m else nowNs s)
  else s

/-- DLM_DONE_WRITE (17 R393): a write of DONE = 1. -/
def dlmDoneWrite (n : Node) (m : Fin 64) (s : Block) : Block :=
  if fget s n F.DLM_CTRL_DONE_SRC m = 0 then dlmDone s n m else s

/-- DEADLINE_EXPIRY (17 R393): the deadline of an armed monitor passes. -/
def deadlineExpiry (n : Node) (m : Fin 64) (s : Block) : Block :=
  if dlmOn s n m && dlmPhase s n m = dlmArmed then dlmMiss (atTime s (dlmDeadline s n m * 2 ^ 16 + 1)) n m else s

/-- DLM_EN_WRITE (17 R394): writing 0 disarms without a miss. -/
def dlmEnWrite (n : Node) (m : Fin 64) (en : Bool) (s : Block) : Block :=
  match fget s n F.DLM_CTRL_STATE m, en with
  | 0, true => fput (fput s n F.DLM_CTRL_EN m 1) n F.DLM_CTRL_STATE m 2
  | 2, false => setDlmPhase (fput (fput s n F.DLM_CTRL_EN m 0) n F.DLM_CTRL_STATE m 0) n m dlmIdle
  | _, _ => s

/-- The monitors of a module that wait for an event: those whose source field and index field hold the values given. -/
def dlmsBy (s : Block) (n : Nat) (src : Fld) (v : Nat) (idx : Option (Fld × Nat)) : List Nat :=
  (List.range 64).filter fun m => fget s n src m == v && (match idx with
    | some (f, k) => fget s n f m == k
    | none => true)

/-- A READY write to a drive output completes the monitors that name it (17 R393). -/
def dlmReady (s : Block) (n o : Nat) : Block :=
  (dlmsBy s n F.DLM_CTRL_DONE_SRC 1 (some (F.DLM_CTRL_DONE_INDEX, o))).foldl (fun s m => dlmDone s n m) s

/-- A rising edge of a Gecko trigger line: completions first, then armings (17 R392, R393; log 37). -/
def dlmTrigger (s : Block) (n line : Nat) : Block :=
  let s := (dlmsBy s n F.DLM_CTRL_DONE_SRC 2 (some (F.DLM_CTRL_DONE_INDEX, line))).foldl (fun s m => dlmDone s n m) s
  (dlmsBy s n F.DLM_CTRL_ARM_SRC 2 (some (F.DLM_CTRL_ARM_INDEX, line))).foldl (fun s m => dlmArm s n m (nowNs s)) s

/-- The apply instant of a commit, in ns, arms the monitors with ARM_SRC 3 (17 R392). -/
def dlmApply (s : Block) (n ta : Nat) : Block :=
  (dlmsBy s n F.DLM_CTRL_ARM_SRC 3 none).foldl (fun s m => dlmArm s n m ta) s

end Sys2Proof.Machine
end

