-- ==== Sys2Proof/Machine/Lane.lean ====
section
/-! DEFINITION. Sys2Proof/Machine/Lane.lean: sensor lanes and quads, the state of JESD204C links, WSL packets sent
(11 R245-R251). -/

namespace Sys2Proof.Machine

/-! ### Lanes (11 R245) -/

def laneKey (n p : Nat) : Nat := n * 32 + p
def lane (s : Block) (n p : Nat) : LaneSt := mget (fun _ => {}) s.lanes (laneKey n p)
def putLane (s : Block) (n p : Nat) (x : LaneSt) : Block := { s with lanes := mput (fun _ => {}) s.lanes (laneKey n p) x }

def laneState (s : Block) (n p : Nat) : Nat := fget s n F.SP_LANE_STATUS_STATE p
def setLaneState (s : Block) (n p v : Nat) : Block := fput s n F.SP_LANE_STATUS_STATE p v
def rxMode (s : Block) (n p : Nat) : Nat := fget s n F.SP_LANE_CFG_RXMODE p
def txMode (s : Block) (n p : Nat) : Nat := fget s n F.SP_LANE_CFG_TXMODE p
def laneRate (s : Block) (n p : Nat) : Nat := fget s n F.SP_LANE_CFG_RATE_MBPS p

/-- Lane states (SP_LANE_STATUS) and half modes (SP_LANE_CFG). -/
def lnOff : Nat := 0
def lnNoSignal : Nat := 1
def lnLocking : Nat := 2
def lnUp : Nat := 3
def mJesd : Nat := 1
def mWsl : Nat := 2
def mRaw : Nat := 3

/-- The SP block's sticky CFG_REJECT; every PORTSEL shows the one bit. -/
def spReject (s : Block) (n : Nat) : Block := fput s n F.SP_LANE_STATUS_CFG_REJECT 0 1

def laneActive (s : Block) (n p : Nat) : Bool := rxMode s n p != 0 || txMode s n p != 0

/-- Rate of a lane's quad: that of its lowest-numbered active lane. -/
def quadRate (s : Block) (n p : Nat) : Nat :=
  match ((List.range 4).map (· + p / 4 * 4)).find? (fun k => laneActive s n k) with
  | some k => laneRate s n k
  | none => 0

/-! ### JESD204C links -/

def jlinkKey (n k : Nat) : Nat := n * 16 + k
def jlink (s : Block) (n k : Nat) : JLinkSt := mget (fun _ => {}) s.jlinks (jlinkKey n k)
def putJlink (s : Block) (n k : Nat) (x : JLinkSt) : Block := { s with jlinks := mput (fun _ => {}) s.jlinks (jlinkKey n k) x }
def jlinkOn (s : Block) (n k : Nat) : Bool := fget s n F.SP_JLINK_CFG0_STATE (ix k) = 2
def jlinkIsUp (s : Block) (n k : Nat) : Bool := fbit s n F.SP_JLINK_STATUS_UP (ix k)
def setJlinkUp (s : Block) (n k : Nat) (b : Bool) : Block := fput s n F.SP_JLINK_STATUS_UP (ix k) (b2n b)

/-! ### The Worlith Sensor Link (11 R250) -/

/-- A lane carries WSL and is up. -/
def wslUp (s : Block) (n p : Nat) : Bool := rxMode s n p == mWsl && laneState s n p == lnUp

/-- A packet: its 16-byte header, payload and CRC-32.  The module sends FLAGS as 0 (log 39). -/
def wslPacket (typ seq time : Nat) (pay : List (BitVec 8)) : List (BitVec 8) :=
  let head := leBytes 1 typ ++ [0] ++ leBytes 2 pay.length ++ leBytes 4 seq ++ leBytes 8 time
  head ++ pay ++ leBytes 4 (crcBytes (head ++ pay))

/-- Send a packet to a front-end. -/
def wslSend (s : Block) (n p typ time : Nat) (pay : List (BitVec 8)) : Block :=
  let x := lane s n p
  putLane { s with wslOut := s.wslOut ++ [⟨n, p, wslPacket typ x.txSeq time pay⟩] } n p { x with txSeq := (x.txSeq + 1) % 2 ^ 32 }

end Sys2Proof.Machine
end

