-- ==== Sys2Proof/Machine/Stream.lean ====
section
/-! DEFINITION. Sys2Proof/Machine/Stream.lean: channels and streams: routes, scaling, lateness, losses, blocks (11 R254-R262). -/

namespace Sys2Proof.Machine

/-! ### Channels -/

def chKey (n c : Nat) : Nat := n * 16384 + c
def chan (s : Block) (n c : Nat) : ChanSt := mget (fun _ => {}) s.chans (chKey n c)
def putChan (s : Block) (n c : Nat) (x : ChanSt) : Block := { s with chans := mput (fun _ => {}) s.chans (chKey n c) x }

def rtValid (w : Word) : Bool := w.getLsbD 31
def rtStream (w : Word) : Nat := wbits w 19 14
def rtSlot (w : Word) : Nat := wbits w 13 0

/-- Selects of a module at which a register has been written. -/
def regSels (s : Block) (n : Nat) (r : Reg) : List Nat :=
  (s.regs.filter fun p => decide (rkey n r 0 ≤ p.1) && decide (p.1 < rkey n r 0 + 2 ^ 14)).map fun p => p.1 - rkey n r 0

/-- Channels of a module that have settings written or in effect, in ascending order. -/
def chanIds (s : Block) (n : Nat) : List Nat :=
  let ks := regSels s n .CH_SRC ++ regSels s n .CH_ROUTE ++ regSels s n .CH_GAIN ++ regSels s n .CH_OFFSET ++
    ((s.chans.filter fun p => p.1 / 16384 == n).map fun p => p.1 % 16384)
  (ks.foldl (fun (m : SMap Bool) c => mput (fun _ => false) m c true) []).map (·.1)

/-- The settings written for a channel are not those in effect (11 "Channel registers"). -/
def chanPending (s : Block) (n c : Nat) : Bool :=
  let x := chan s n c
  rget s n .CH_SRC c != x.src || rget s n .CH_ROUTE c != x.route || rget s n .CH_GAIN c != x.gain ||
    rget s n .CH_OFFSET c != x.offset

/-! ### Streams -/

def stKey (n t : Nat) : Nat := n * 64 + t
def strm (s : Block) (n t : Nat) : StrmSt := mget (fun _ => {}) s.strms (stKey n t)
def putStrm (s : Block) (n t : Nat) (x : StrmSt) : Block := { s with strms := mput (fun _ => {}) s.strms (stKey n t) x }
def strmF (s : Block) (n t : Nat) (f : Fld) : Nat := fget s n f (ix t)
def strmState (s : Block) (n t : Nat) : Nat := strmF s n t F.CH_STRM_CTRL_STATE
def strmHop (s : Block) (n t : Nat) : Nat := strmF s n t F.CH_STRM_SHAPE_HOPM1 + 1
def strmNch (s : Block) (n t : Nat) : Nat := strmF s n t F.CH_STRM_SHAPE_NCHM1 + 1
def strmBlock (s : Block) (n t : Nat) : Nat := get64 s n .CH_STRM_BLOCK t
def strmReject (s : Block) (n t : Nat) : Block := fput s n F.CH_STRM_STATUS_CFG_REJECT (ix t) 1

/-- Channels with a valid route in effect on a stream. -/
def strmChans (s : Block) (n t : Nat) : List Nat :=
  (chanIds s n).filter fun c => rtValid (chan s n c).route && rtStream (chan s n c).route == t

/-- Does a pending write of channel `c` take effect at a boundary of stream `t`?  A channel that runs on a stream waits for that
stream's boundary; any other for the boundary of the stream its new route names (11 R255; log 38). -/
def atBoundary (s : Block) (n t c : Nat) : Bool :=
  let x := chan s n c
  let new := rget s n .CH_ROUTE c
  chanPending s n c &&
    (if rtValid x.route && decide (strmState s n (rtStream x.route) ≠ 0) then rtStream x.route == t
      else (rtValid new && rtStream new == t) || (rtValid x.route && rtStream x.route == t))

/-- The route each channel would have: the new one if its write is accepted, else the one in effect. -/
def finalRoute (s : Block) (n : Nat) (acc : List Nat) (c : Nat) : Word :=
  if acc.contains c then rget s n .CH_ROUTE c else (chan s n c).route

/-- Do two routes put two channels into one slot? -/
def routesMeet (a b : Word) : Bool :=
  rtValid a && rtValid b && rtStream a == rtStream b && rtSlot a == rtSlot b

/-- A write among `acc` that cannot take effect: one whose slot is outside its stream or held by a channel that keeps its
route; failing that, the higher-numbered of two that collide (11 R255). -/
def badRoute (s : Block) (n : Nat) (ids acc : List Nat) : Option Nat :=
  let hard := fun c =>
    let r := finalRoute s n acc c
    rtValid r && (decide (strmNch s n (rtStream r) ≤ rtSlot r) ||
      ids.any fun d => d != c && !acc.contains d && routesMeet r (chan s n d).route)
  let soft := fun c => acc.any fun d => decide (d < c) && routesMeet (finalRoute s n acc c) (finalRoute s n acc d)
  match acc.find? hard with
  | some c => some c
  | none => acc.reverse.find? soft

/-- The writes that take effect, with fuel. -/
def acceptRoutes (s : Block) (n : Nat) (ids : List Nat) : Nat → List Nat → List Nat
  | 0, acc => acc
  | k + 1, acc =>
    match badRoute s n ids acc with
    | some c => acceptRoutes s n ids k (acc.filter (· != c))
    | none => acc

/-- A channel's written settings come into effect, with its route if `ok`; a route refused is put back, and the CFG_REJECT of
the stream that the write named is set (11 R255).  A channel that joins a stream does so with block `blk` of it. -/
def adopt (n t blk : Nat) (ok : Bool) (s : Block) (c : Nat) : Block :=
  let x := chan s n c
  let new := rget s n .CH_ROUTE c
  let s := if ok then s else strmReject (rput s n .CH_ROUTE c x.route) n (rtStream new)
  let route := if ok then new else x.route
  let moved := route != x.route && (!rtValid x.route || rtStream route != rtStream x.route)
  let t' := rtStream route
  let start := if t' = t then blk else strmBlock s n t' + 1
  let x := { x with src := rget s n .CH_SRC c, route := route, gain := rget s n .CH_GAIN c, offset := rget s n .CH_OFFSET c }
  putChan s n c (if moved then { x with start := start, pos := start * strmHop s n t', last := none, since := 0, prev := 0 } else x)

/-- A block boundary of stream `t`, before block `blk`. -/
def boundary (s : Block) (n t blk : Nat) : Block :=
  let ids := chanIds s n
  let cand := ids.filter fun c => atBoundary s n t c
  let acc := acceptRoutes s n ids cand.length cand
  cand.foldl (fun s c => adopt n t blk (acc.contains c) s c) s

/-! ### Samples -/

/-- y of R256, and whether it was clamped. -/
def scaleSample (x : Int) (gain offset : Word) : BitVec 24 × Bool :=
  let y := (x * gain.toInt + 2 ^ 23) / 2 ^ 24 + (BitVec.truncate 24 offset).toInt
  if y < -(2 ^ 23) then (BitVec.ofInt 24 (-(2 ^ 23)), true)
  else if 2 ^ 23 - 1 < y then (BitVec.ofInt 24 (2 ^ 23 - 1), true)
  else (BitVec.ofInt 24 y, false)

/-- `k` sample periods, in 2^-16 ns. -/
def Per.times (p : Per) (k : Nat) : Nat := k * p.num / max 1 p.den

/-- The nearest whole number of periods in `t`. -/
def Per.fit (p : Per) (t : Nat) : Nat := (2 * t * p.den + p.num) / max 1 (2 * p.num)

/-- Stamp of sample `num` of a stream with blocks of `hop` samples, and the sample period: from the grid of its block, or of the
nearest block that has one (11 R258). -/
def gridAt (y : StrmSt) (hop num : Nat) : Option (Nat × Per) :=
  match (y.grid.filter fun g => decide (g.1 ≤ num / hop)).getLast?, y.grid.head? with
  | some (b, some (t, p)), _ => some (t + p.times (num - b * hop), p)
  | _, some (b, some (t, p)) => some (t - p.times (b * hop - num), p)
  | _, _ => none

/-- Queue a sample of a channel for its container; it is stamped on the grid of its block (11 R258). -/
def queueSample (s : Block) (n c : Nat) (v : BitVec 24) (lost sat : Bool) : Block :=
  let x := chan s n c
  let t := rtStream x.route
  let y := strm s n t
  let stamp := ((gridAt y (strmHop s n t) x.pos).map (·.1)).getD s.now
  let s := putStrm s n t { y with writes := y.writes ++ [⟨c, rtSlot x.route, x.pos, v, stamp, lost, sat⟩] }
  putChan s n c { x with pos := x.pos + 1, since := x.since + b2n lost, prev := v }

/-- Lost samples of a channel (11 R260). -/
def queueLost (n c : Nat) : Nat → Block → Block
  | 0, s => s
  | k + 1, s => queueLost n c k (queueSample s n c (chan s n c).prev true false)

/-- How many samples lie between the next one a channel expects and one stamped `stamp`: `none` if that one comes too late to be
placed, because its number has been written. -/
def skipped (s : Block) (n c stamp : Nat) (per : Per) : Option Nat :=
  let x := chan s n c
  let t := rtStream x.route
  match x.last, gridAt (strm s n t) (strmHop s n t) x.pos with
  | some l, _ =>
    let d := per.fit (stamp - l)
    if d ≤ x.since then none else some (d - 1 - x.since)
  | none, some (due, _) => if stamp + per.times 1 / 2 < due then none else some (per.fit (stamp - due))
  | none, none => some 0

/-- Sample `num` of a stream has come with a stamp: the first of its block gives the block its grid (11 R258). -/
def noteGrid (s : Block) (n t num stamp : Nat) (per : Per) : Block :=
  let hop := strmHop s n t
  let y := strm s n t
  if (mget (fun _ => none) y.grid (num / hop)).isSome then s
  else putStrm s n t { y with grid := mput (fun _ => none) y.grid (num / hop) (some (stamp - per.times (num % hop), per)) }

/-- A sample `v` stamped `stamp` (2^-16 ns) arrives for a channel. -/
def takeSample (n : Nat) (v : Int) (stamp : Nat) (per : Per) (s : Block) (c : Nat) : Block :=
  match skipped s n c stamp per with
  | none => s
  | some k =>
    let x := chan s n c
    let s := queueLost n c k (noteGrid s n (rtStream x.route) (x.pos + k) stamp per)
    let q := scaleSample v x.gain x.offset
    let s := queueSample s n c q.1 false q.2
    putChan s n c { chan s n c with last := some stamp, per := per, since := 0 }

/-- A channel takes its samples from a source (11 R254, CH_SRC): 1 JESD link, 2 WSL lane, 3 fabric port, 4 drive loop-back. -/
def srcIs (w : Word) (kind source index : Nat) : Bool :=
  wbits w 31 29 == kind && (kind == 4 || wbits w 28 24 == source) && wbits w 23 12 == index

/-- The channels that a source feeds, each on a running stream. -/
def fedChans (s : Block) (n kind source index : Nat) : List Nat :=
  (chanIds s n).filter fun c =>
    let x := chan s n c
    rtValid x.route && srcIs x.src kind source index && strmState s n (rtStream x.route) == 2

/-- A source delivers a sample: sign-extended, stamped, with its sample period. -/
def deliver (s : Block) (n kind source index : Nat) (v : Int) (stamp : Nat) (per : Per) : Block :=
  (fedChans s n kind source index).foldl (takeSample n v stamp per) s

/-! ### Container writes (11 R257, R259) -/

/-- A request of the channel engine: DEST 0 staging memory, 1 record store. -/
def strmReq (s : Block) (n t : Nat) (req : MemReq) : Option MemAns :=
  if strmF s n t F.CH_STRM_CTRL_DEST = 0 then stgReq s n ownChannel 0 req else some (recReq s n ownChannel req)

/-- Byte address of sample `num` of a slot. -/
def sampleAddr (s : Block) (n t slot num : Nat) : Nat :=
  let hop := strmHop s n t
  let nbuf := strmF s n t F.CH_STRM_CTRL_NBUF + 1
  64 * strmF s n t F.CH_STRM_BASE_BASE + (num / hop % nbuf) * strmF s n t F.CH_STRM_BUFSTRIDE_BUFSTRIDE + 4 * hop * slot +
    4 * (num % hop)

/-- The 4-byte container of a value. -/
def container (v : BitVec 24) : List (BitVec 8) := leBytes 4 (v.signExtend 32).toNat

def lateLimit (s : Block) (n t : Nat) : Nat := strmF s n t F.CH_STRM_LATE_LATE_LIMIT * 1000 * 2 ^ 16

/-- Count a sample in its block, with the faults of the first late and the first lost one (11 R259, R260).  Lateness is measured
from the stream's grid, so the samples of a channel slower than its stream are late (11 R254). -/
def countSample (s : Block) (n t : Nat) (w : ChWrite) (refused : Bool) : Block :=
  let blk := w.num / strmHop s n t
  let late := decide (w.stamp + lateLimit s n t < s.now)
  let y := strm s n t
  let b := mget (fun _ => {}) y.blks blk
  let b' := { b with
    late := b.late + b2n late, lost := b.lost + b2n w.lost, sat := b.sat + b2n w.sat, gap := b.gap || refused }
  let s := putStrm s n t { y with
    blks := mput (fun _ => {}) y.blks blk b', data := mput (fun _ => 0) y.data (w.num * 16384 + w.slot) w.value }
  let s := if late then
      let s := fput s n F.CH_STATUS_LATE w.chan 1
      if b.late = 0 then raise s n SRC.CH_SAMPLE_LATE t ((s.now - w.stamp) / 2 ^ 16) else s
    else s
  let s := if w.lost then
      let s := fput s n F.CH_STATUS_LOST w.chan 1
      if b.lost = 0 then raise s n SRC.CH_SAMPLE_LOST t 0 else s
    else s
  if w.sat then fput s n F.CH_STATUS_SAT w.chan 1 else s

/-- SAMPLE_WRITE_DONE (11 R259): the stream's oldest container write completes; one refused is a gap (11 R257). -/
def sampleWriteDone (n : Node) (t : Fin 64) (s : Block) : Block :=
  match (strm s n t).writes with
  | [] => s
  | w :: rest =>
    match strmReq s n t ⟨true, sampleAddr s n t w.slot w.num, (container w.value).map some⟩ with
    | none => s
    | some a =>
      let s := putStrm a.st n t { strm a.st n t with writes := rest }
      countSample s n t w (a.code ≠ rspOk)

/-- When the next sample of a channel is due: a period after its latest, or at its place in the stream's grid. -/
def nextDue (s : Block) (n c : Nat) : Option Nat :=
  let x := chan s n c
  let t := rtStream x.route
  match x.last with
  | some l => some (l + x.per.times (x.since + 1))
  | none => (gridAt (strm s n t) (strmHop s n t) x.pos).map (·.1)

/-- SAMPLE_LOST_DUE (11 R260): at its due time plus LATE_LIMIT a channel's next sample has not come. -/
def sampleLostDue (n : Node) (c : Fin 16384) (s : Block) : Block :=
  let x := chan s n c
  let t := rtStream x.route
  if rtValid x.route && strmState s n t = 2 then
    match nextDue s n c with
    | none => s
    | some due => queueLost n c 1 (atTime s (due + lateLimit s n t))
  else s

/-! ### Blocks (11 R257, R261, R262) -/

/-- Every slot of the block in progress holds its samples, and they are written. -/
def blockReady (s : Block) (n t : Nat) : Bool :=
  let b := strmBlock s n t
  let lim := (b + 1) * strmHop s n t
  let cs := (strmChans s n t).filter fun c => decide ((chan s n c).start ≤ b)
  !cs.isEmpty && cs.all (fun c => decide (lim ≤ (chan s n c).pos)) && (strm s n t).writes.all fun w => decide (lim ≤ w.num)

/-- Samples of one slot of a block. -/
def slotSamples (s : Block) (n t blk slot : Nat) : List (BitVec 24) :=
  let hop := strmHop s n t
  (List.range hop).map fun k => mget (fun _ => 0) (strm s n t).data ((blk * hop + k) * 16384 + slot)

/-- The 32 bytes of a block's descriptor (11 R257); a block without any sample has a free stamp (log 2). -/
def descriptor (s : Block) (n t blk : Nat) : List (BitVec 8) × Block :=
  let b := mget (fun _ => {}) (strm s n t).blks blk
  let st : Nat × Block := match gridAt (strm s n t) (strmHop s n t) (blk * strmHop s n t) with
    | some (t0, _) => (t0, s)
    | none => let d := drawFree s; (d.1.toNat, d.2)
  let flags := b2n (decide (b.late ≠ 0)) + 2 * b2n b.gap + 4 * b2n (decide (b.sat ≠ 0))
  (leBytes 8 blk ++ leBytes 8 (st.1 / 2 ^ 16) ++ leBytes 2 (st.1 % 2 ^ 16) ++ leBytes 2 flags ++ leBytes 4 b.late ++
    leBytes 4 b.lost ++ leBytes 4 b.sat, st.2)

/-- Copies of a block for the history ring and the Log engine (11 R261). -/
def blockCopies (s : Block) (n t blk : Nat) : Block :=
  let slots := (List.range (strmNch s n t)).map fun sl => slotSamples s n t blk sl
  let s := if strmF s n t F.CH_STRM_CTRL_HISTEN = 1 then
      let bytes := slots.flatMap fun xs => xs.flatMap container
      let a := ringAppend s n (strmF s n t F.CH_STRM_CTRL_HIST) 1 bytes
      if a.1 = bytes.length then a.2 else fput a.2 n F.CH_STRM_STATUS_HIST_DROP (ix t) 1
    else s
  if strmF s n t F.CH_STRM_CTRL_LOGEN = 1 then
    let ns := match gridAt (strm s n t) (strmHop s n t) (blk * strmHop s n t) with
      | some (t0, _) => t0 / 2 ^ 16
      | none => nowNs s
    let r := logBlock s n t ns blk (strmHop s n t) (strmNch s n t) (strmF s n t F.CH_STRM_CTRL_ORDER)
      (slots.map fun xs => xs.map BitVec.toInt)
    if r.1 then r.2 else fput r.2 n F.CH_STRM_STATUS_LOG_DROP (ix t) 1
  else s

/-- The block in progress is complete: descriptor, copies, interrupts, deadline monitor, next block (11 R261, R262); `none` while
the descriptor's write stalls. -/
def completeBlock (s : Block) (n t : Nat) : Option Block :=
  let blk := strmBlock s n t
  let hop := strmHop s n t
  let nbuf := strmF s n t F.CH_STRM_CTRL_NBUF + 1
  let d := descriptor s n t blk
  match strmReq d.2 n t ⟨true, 64 * strmF s n t F.CH_STRM_DESC_DESC + 32 * (blk % nbuf), d.1.map some⟩ with
  | none => none
  | some a =>
    let s := blockCopies a.st n t blk
    let s := hostIrq (irqAll s n cStream) n hStream
    let s := if strmF s n t F.CH_STRM_CTRL_DLMEN = 1 && fget s n F.DLM_CTRL_ARM_SRC (strmF s n t F.CH_STRM_CTRL_DLM) = 1 then
        match gridAt (strm s n t) hop ((blk + 1) * hop - 1) with
        | some (t1, _) => dlmArm s n (strmF s n t F.CH_STRM_CTRL_DLM) (t1 / 2 ^ 16)
        | none => s
      else s
    let y := strm s n t
    let s := putStrm s n t { y with
      data := y.data.filter fun p => decide ((blk + 1) * hop * 16384 ≤ p.1), blks := mput (fun _ => {}) y.blks blk {}
      grid := (mput (fun _ => none) y.grid blk (gridAt y hop (blk * hop))).filter fun g => decide (blk ≤ g.1) }
    let s := put64 s n .CH_STRM_BLOCK t 0 (blk + 1)
    some (boundary s n t (blk + 1))

/-- BLOCK_COMPLETE (11 R262). -/
def blockComplete (n : Node) (t : Fin 64) (s : Block) : Block :=
  if strmState s n t = 2 && blockReady s n t then (completeBlock s n t).getD s else s

/-- The valid channels of a stream lie below its NCH, each in a slot of its own (11 R254, R255). -/
def routesOk (s : Block) (n t : Nat) : Bool :=
  let cs := strmChans s n t
  cs.all fun c =>
    let r := (chan s n c).route
    decide (rtSlot r < strmNch s n t) && cs.all fun d => d == c || !routesMeet r (chan s n d).route

/-- STREAM_EN_WRITE (11 R262, R254, R255): written settings come into effect, and the stream starts unless its channels break a
rule. -/
def streamEnWrite (n : Node) (t : Fin 64) (en : Bool) (s : Block) : Block :=
  match strmState s n t, en with
  | 0, true =>
    let cand := (chanIds s n).filter fun c => atBoundary s n t c
    let s1 := cand.foldl (fun s c => adopt n t 0 true s c) s
    if routesOk s1 n t then
      let s1 := (strmChans s1 n t).foldl (fun s c =>
        putChan s n c { chan s n c with start := 0, pos := 0, last := none, since := 0, prev := 0 }) s1
      let s1 := put64 (putStrm s1 n t {}) n .CH_STRM_BLOCK t 0 0
      fput (fput s1 n F.CH_STRM_CTRL_EN (ix t) 1) n F.CH_STRM_CTRL_STATE (ix t) 2
    else strmReject s n t
  | 2, false => fput (fput s n F.CH_STRM_CTRL_EN (ix t) 0) n F.CH_STRM_CTRL_STATE (ix t) 1
  | _, _ => s

/-- Carry out queued container writes, with fuel. -/
def finishWrites (n : Node) (t : Fin 64) : Nat → Block → Block
  | 0, s => s
  | k + 1, s => finishWrites n t k (sampleWriteDone n t s)

/-- A draining stream once every channel's samples of its block in progress are taken as lost and the writes queued are made
(11 R262). -/
def drainWrites (s : Block) (n : Node) (t : Fin 64) : Block :=
  let lim := (strmBlock s n t + 1) * strmHop s n t
  let s := (strmChans s n t).foldl (fun s c => queueLost n c (lim - (chan s n c).pos) s) s
  finishWrites n t (strm s n t).writes.length s

/-- STREAM_DRAIN_DONE (11 R262): the block in progress is completed with lost samples, its descriptor is written, and STATE
reads OFF. -/
def streamDrainDone (n : Node) (t : Fin 64) (s : Block) : Block :=
  if strmState s n t = 1 then
    let s1 := drainWrites s n t
    if (strm s1 n t).writes.isEmpty then
      match completeBlock s1 n t with
      | some s2 => fput (putStrm s2 n t {}) n F.CH_STRM_CTRL_STATE (ix t) 0
      | none => s
    else s
  else s

end Sys2Proof.Machine
end

