-- ==== Sys2Proof/Machine/Drive.lean ====
section
/-! DEFINITION. Sys2Proof/Machine/Drive.lean: drive outputs: due times, ramps, mutes, underruns (11 R263-R269, 17 R397). -/

namespace Sys2Proof.Machine

def drvKey (n o : Nat) : Nat := n * 256 + o
def drv (s : Block) (n o : Nat) : DrvSt := mget (fun _ => {}) s.drvs (drvKey n o)
def putDrv (s : Block) (n o : Nat) (x : DrvSt) : Block := { s with drvs := mput (fun _ => {}) s.drvs (drvKey n o) x }

def drvState (s : Block) (n o : Nat) : Nat := fget s n F.DRV_CFG_STATE o
def drvPlay (s : Block) (n o : Nat) : Nat := fget s n F.DRV_STATUS_PLAY o
def drvCause (s : Block) (n o : Nat) : Nat := fget s n F.DRV_STATUS_CAUSE o
def drvReady (s : Block) (n o : Nat) : Nat := get64 s n .DRV_READY 0 o
def drvPos (s : Block) (n o : Nat) : Nat := get64 s n .DRV_POS 0 o
def drvSafe (s : Block) (n o : Nat) : BitVec 24 := BitVec.ofNat 24 (fget s n F.DRV_SAFE_SAFE o)
def drvReject (s : Block) (n : Nat) : Block := fset s n F.DRV_GLOBAL_CFG_REJECT 1
def inhibited (s : Block) (n : Nat) : Bool := fbit s n F.DRV_GLOBAL_INHIBIT

/-- Play states (DRV_STATUS.PLAY). -/
def pMuted : Nat := 0
def pRampUp : Nat := 1
def pPlaying : Nat := 2
def pRampDown : Nat := 3

/-- Mute causes: bits of DRV_STATUS.CAUSE (11 R266). -/
def mcCommand : Nat := 0
def mcFault : Nat := 1
def mcInhibit : Nat := 2
def mcUnderrun : Nat := 3
def mcGroup : Nat := 4
def mcEn : Nat := 5
def mcPower : Nat := 6

/-! ### The ramp (11 R265) -/

/-- Nr: RAMP_MS in samples, an exact half rounded up, never less than 4. -/
def rampLen (ms period : Nat) : Nat := max 4 ((2 * (ms * 256000000) + period) / (2 * period))

/-- π × 2^128. -/
def piFix : Int := 1069028584064966747859680373161870783300

/-- Terms of the cosine series, scaled by 2^128: the sum of `t` and what follows it. -/
def cosSeries (x2 : Int) : Nat → Nat → Int → Int
  | 0, _, t => t
  | k + 1, i, t => t + cosSeries x2 k (i + 1) (-(t * x2 / (((2 * i + 1) * (2 * i + 2) : Nat) : Int) / 2 ^ 128))

/-- cos(π × j ÷ nr) × 2^128 for 2j ≤ nr, far more exactly than a product of 25 bits can show. -/
def cosFix (j nr : Nat) : Int :=
  let x := piFix * (j : Int) / (nr : Int)
  cosSeries (x * x / 2 ^ 128) 40 0 (2 ^ 128)

/-- 2 cos(π × j ÷ nr) where it is a whole number: the only angles at which the cosine is rational. -/
def cosExact (j nr : Nat) : Option Int :=
  if j = 0 then some 2
  else if j = nr then some (-2)
  else if 2 * j = nr then some 0
  else if 3 * j = nr then some 1
  else if 3 * j = 2 * nr then some (-1)
  else none

/-- g × d for step `j`, rounded to nearest, ties to even; `up` for a ramp up. -/
def rampProduct (up : Bool) (j nr : Nat) (d : Int) : Int :=
  let sg : Int := if up then -1 else 1
  let r := match cosExact j nr with
    | some c2 => roundScaled (rmodeOf 1) (d * (2 + sg * c2)) 2
    | none =>
      let c := if 2 * j ≤ nr then cosFix j nr else -(cosFix (nr - j) nr)
      roundScaled (rmodeOf 1) (d * (2 ^ 128 + sg * c)) 129
  signMag r.2 r.1.mag

/-- What step `j` of a ramp sends. -/
def rampValue (up : Bool) (j nr : Nat) (safe x : BitVec 24) : BitVec 24 :=
  BitVec.ofInt 24 (safe.toInt + rampProduct up j nr (x.toInt - safe.toInt))

/-! ### Changes of PLAY and CAUSE (11 R267) -/

/-- Host source 22 and cause DRIVE. -/
def drvFire (s : Block) (n : Nat) : Block := hostIrq (irqAll s n cDrive) n hDrive

/-- Set PLAY and CAUSE; a change of either fires the interrupts. -/
def drvSet (s : Block) (n o play cause : Nat) : Block :=
  let same := drvPlay s n o == play && drvCause s n o == cause
  let s := fput (fput s n F.DRV_STATUS_PLAY o play) n F.DRV_STATUS_CAUSE o cause
  if same then s else drvFire s n

/-- A mute of an output with a cause (11 R266, R267). -/
def muteOut (s : Block) (n o bit : Nat) : Block :=
  if drvState s n o = 0 then s
  else
    let x := drv s n o
    let cause := Nat.lor (drvCause s n o) (2 ^ bit)
    let ramp := { x with step := 0, nr := rampLen (fget s n F.DRV_RAMP_RAMP_MS o) x.period, block := fget s n F.DRV_RAMP_BLOCK o }
    match drvPlay s n o with
    | 1 => drvSet (putDrv s n o { x with step := x.nr - x.step }) n o pRampDown cause
    | 2 => drvSet (putDrv s n o ramp) n o pRampDown cause
    | p => drvSet s n o p cause

/-- A mute of every output of a module. -/
def muteAll (s : Block) (n bit : Nat) : Block := (List.range 256).foldl (fun s o => muteOut s n o bit) s

/-- A mute of every output of a group. -/
def muteGroup (s : Block) (n g bit : Nat) : Block :=
  (List.range 256).foldl (fun s o => if fget s n F.DRV_CFG_GROUP o = g then muteOut s n o bit else s) s

/-- UNMUTE (11 R267). -/
def unmuteOut (s : Block) (n o : Nat) : Block :=
  let x := drv s n o
  let refuse := fput s n F.DRV_STATUS_UNMUTE_REFUSED o 1
  if drvState s n o ≠ 2 then refuse
  else
    match drvPlay s n o with
    | 0 =>
      let nr := rampLen (fget s n F.DRV_RAMP_RAMP_MS o) x.period
      if !inhibited s n && decide (x.period ≠ 0) && decide (drvPos s n o + nr < drvReady s n o) then
        let s := putDrv s n o { x with step := 0, nr := nr, under := none, block := fget s n F.DRV_RAMP_BLOCK o }
        drvSet (fput s n F.DRV_STATUS_LOOPING o 0) n o pRampUp 0
      else refuse
    | 3 => refuse
    | _ => s

/-! ### Playing (11 R263, R264) -/

/-- The container of sample `k` in an output's ring, as SINT 24; an uncorrectable one reads as all ones (10 R233). -/
def ringSample (s : Block) (n o k : Nat) : BitVec 24 × Block :=
  let addr := 64 * fget s n F.DRV_RING_RING o + 4 * (k % max 1 (fget s n F.DRV_RINGLEN_RINGLEN o))
  let a := recReq s n ownDrive ⟨false, addr, List.replicate 4 none⟩
  (BitVec.ofNat 24 (ofBytes a.data), a.st)

/-- Fetch up to `c` ready samples into the FIFO of 2,048. -/
def fetchSamples (n o : Nat) : Nat → Block → Block
  | 0, s => s
  | c + 1, s =>
    let x := drv s n o
    let k := max x.fetch (drvPos s n o)
    if k < drvReady s n o && decide (x.fifo.length < 2048) then
      let r := ringSample s n o k
      fetchSamples n o c (putDrv r.2 n o { drv r.2 n o with fifo := x.fifo ++ [(k, r.1)], fetch := k + 1 })
    else s

/-- DRIVE_FETCH (11 R263): `count` is how many samples the output fetches at this moment, at most. -/
def driveFetch (n : Node) (o : Fin 256) (count : BitVec 12) (s : Block) : Block :=
  if drvState s n o = 0 then s else fetchSamples n o count.toNat s

/-- Due time of sample `k`, in 2^-16 ns. -/
def drvDue (x : DrvSt) (k : Nat) : Nat := x.start * 2 ^ 16 + k * x.period * 2 ^ 8

/-- Index of the first sample due at or after `t`. -/
def firstDue (x : DrvSt) (t : Nat) : Nat :=
  let p := x.period * 2 ^ 8
  if p = 0 || t ≤ x.start * 2 ^ 16 then 0 else (t - x.start * 2 ^ 16 + p - 1) / p

/-- A region of the fabric whose outputs act: RELEASING, RUN or FROZEN (12 R291, R289). -/
def regionLive (s : Block) (n r : Nat) : Bool :=
  let p := fget s n F.GKO_REGION_CTRL_PHASE (ix r)
  p == 3 || p == 4 || p == 5

/-- STREAM_DROP of a region. -/
def streamDrop (s : Block) (n r : Nat) : Block := fput s n F.GKO_REGION_STATUS_STREAM_DROP (ix r) 1

/-- An outbound beat to a stream port (12 R283); a region that has stopped discards it (12 R289). -/
def gkoBeat (s : Block) (n port index : Nat) (v : BitVec 24) (due : Nat) : Block :=
  if !regionLive s n (port / 4) then s
  else
    let k := n * 32 + port
    let q := mget (fun _ => []) s.gkoOut k
    let beat := BitVec.ofNat 128 (v.toNat + index * 2 ^ 24 + due % 2 ^ 16 * 2 ^ 48 + due / 2 ^ 16 * 2 ^ 64)
    if q.length < 16 then { s with gkoOut := mput (fun _ => []) s.gkoOut k (q ++ [beat]) }
    else streamDrop s n (port / 4)

/-- What an output plays into can take a sample: a transmit link that is up, a WSL lane whose front-end is in service, a port of a
region that acts (11 R263, R269, 15 R359). -/
def sinkUp (s : Block) (n kind sink : Nat) : Bool :=
  match kind with
  | 1 => jlinkOn s n sink && jlinkIsUp s n sink
  | 2 => wslUp s n sink && !(lane s n sink).down && fbit s n F.CHR_FE_PRESENT sink
  | 3 => regionLive s n (sink / 4)
  | _ => false

/-- How long before its due time a beat reaches a stream port, in 2^-16 ns: 100 ns to 1 µs by 12 R283, here 100 ns (log 39). -/
def beatLead : Nat := 100 * 2 ^ 16

/-- Send a value to an output's sink if that is up: to a converter the high bits of its resolution, DELAY_NS before the due time
(11 R248); to a front-end a DRIVE packet of one sample (11 R251); to a region a beat (12 R283). -/
def sinkSend (s : Block) (n o due : Nat) (v : BitVec 24) : Block :=
  let kind := fget s n F.DRV_CFG_SINKKIND o
  let sink := fget s n F.DRV_CFG_SINK o
  let index := fget s n F.DRV_CFG_INDEX o
  if !sinkUp s n kind sink then s
  else
    let put := fun (s : Block) (leave : Nat) (w : BitVec 24) => { s with sent := s.sent ++ [⟨n, o, due, leave, w, kind, sink, index⟩] }
    match kind with
    | 1 => put s (due - fget s n F.SP_JLINK_CFG1_DELAY_NS (ix sink) * 2 ^ 16) (v >>> (23 - fget s n F.SP_JLINK_CFG0_NM1 (ix sink)))
    | 2 => wslSend (put s due v) n sink 2 (due / 2 ^ 16) (leBytes 2 index ++ leBytes 2 1 ++ container v)
    | _ => gkoBeat (put s due v) n sink index v due

/-- Send a value to an output's sink, and to the loop-back channels that take it (11 R256). -/
def drvSend (s : Block) (n o due : Nat) (v : BitVec 24) (per : Per) : Block :=
  deliver (sinkSend s n o due v) n 4 0 o v.toInt due per

/-- The check of R397 (17): READY must be above the first sample due a margin later. -/
def lateCheck (s : Block) (n o due : Nat) : Block :=
  let margin := fget s n F.DLM_OUT_MARGIN_MARGIN_US * 1000 * 2 ^ 16
  let x := drv s n o
  if margin = 0 then s
  else
    let k := firstDue x (due + margin)
    if k < drvReady s n o then putDrv s n o { x with lateRun := false }
    else if x.lateRun then s
    else raise (putDrv s n o { x with lateRun := true }) n SRC.DLM_OUTPUT_LATE o k

/-- The output underruns (11 R264): the mute of every output of its group, this one with a cause of its own. -/
def underrun (s : Block) (n o : Nat) : Block :=
  let s := raise (putDrv s n o { drv s n o with under := some 0 }) n SRC.DRV_UNDERRUN o 0
  let g := fget s n F.DRV_CFG_GROUP o
  (List.range 256).foldl (fun s p =>
    if p = o then muteOut s n o mcUnderrun
    else if fget s n F.DRV_CFG_GROUP p = g then muteOut s n p mcGroup else s) s

/-- The sample an underrun output shapes with its ramp: the loop, or the held sample (11 R264). -/
def underSample (s : Block) (n o i : Nat) : BitVec 24 × Block :=
  let x := drv s n o
  let blk := x.block
  let rdy := drvReady s n o
  if blk ≠ 0 && blk ≤ rdy then
    let r := ringSample s n o (rdy - blk + i % blk)
    (r.1, fput (putDrv r.2 n o { x with under := some (i + 1) }) n F.DRV_STATUS_LOOPING o 1)
  else
    (x.held.getD (drvSafe s n o), fput (putDrv s n o { x with under := some (i + 1) }) n F.DRV_STATUS_LOOPING o 0)

/-- The sample x that the output would play at index `k`; a READY write up to the due time counts for it (11 R263). -/
def playSample (s : Block) (n o k : Nat) : BitVec 24 × Block :=
  match (drv s n o).under with
  | some i => underSample s n o i
  | none =>
    let s := if (drv s n o).fifo.any (fun p => p.1 == k) then s else fetchSamples n o 1 s
    match (drv s n o).fifo.find? (fun p => p.1 == k) with
    | some p => (p.2, putDrv s n o { drv s n o with held := some p.2 })
    | none => underSample (underrun s n o) n o 0

/-- A ramp down has reached MUTED; a draining output is then OFF (11 R267, R269). -/
def reachMuted (s : Block) (n o : Nat) : Block :=
  let s := putDrv (fput s n F.DRV_STATUS_LOOPING o 0) n o { drv s n o with under := none }
  let s := drvSet s n o pMuted (drvCause s n o)
  if drvState s n o = 1 then fput s n F.DRV_CFG_STATE o 0 else s

/-- What is sent for the sample x in the play state as it stands, and the state after it. -/
def shape (s : Block) (n o : Nat) (x : BitVec 24) : BitVec 24 × Block :=
  let d := drv s n o
  let safe := drvSafe s n o
  match drvPlay s n o with
  | 1 =>
    (rampValue true d.step d.nr safe x,
      if d.step = d.nr then drvSet s n o pPlaying (drvCause s n o) else putDrv s n o { d with step := d.step + 1 })
  | 2 => (x, s)
  | 3 =>
    (rampValue false d.step d.nr safe x,
      if d.step = d.nr then reachMuted s n o else putDrv s n o { d with step := d.step + 1 })
  | _ => (safe, s)

/-- DRIVE_SAMPLE_DUE (11 R263-R267, R269): the next due time of an output comes, or, where it plays into a stream port,
the time at which the beat is presented (12 R283).  An OFF output sends SAFE while its sink is up. -/
def driveSampleDue (n : Node) (o : Fin 256) (s : Block) : Block :=
  let x := drv s n o
  if drvState s n o = 0 then
    sinkSend s n o (s.now + (if fget s n F.DRV_CFG_SINKKIND o = 3 then beatLead else 0)) (drvSafe s n o)
  else if x.period = 0 then s
  else
    let k := drvPos s n o
    let due := drvDue x k
    let s := atTime s (if fget s n F.DRV_CFG_SINKKIND o = 3 then due - beatLead else due)
    let s := if drvPlay s n o = 1 || drvPlay s n o = 2 then lateCheck s n o due else s
    let q := if drvPlay s n o = pMuted then (drvSafe s n o, s) else playSample s n o k
    let v := shape q.2 n o q.1
    let s := drvSend v.2 n o due v.1 ⟨x.period * 2 ^ 8, 1⟩
    let s := putDrv s n o { drv s n o with fifo := (drv s n o).fifo.filter fun p => decide (k < p.1) }
    put64 s n .DRV_POS 0 o (k + 1)

/-! ### Register writes (11 R263, R266-R269, R453) -/

/-- DRV_READY_WRITE (11 R263): `half` 0 both halves, 1 the low, 2 the high. -/
def drvReadyWrite (n : Node) (o : Fin 256) (half : Fin 3) (v : DWord) (s : Block) : Block :=
  let old := drvReady s n o
  let new := halfWrite old half v.toNat
  if drvState s n o ≠ 0 && new < old then drvReject s n
  else dlmReady (put64 s n .DRV_READY 0 o new) n o

/-- DRIVE_MUTE_WRITE (11 R266). -/
def driveMuteWrite (n : Node) (o : Fin 256) (s : Block) : Block := muteOut s n o mcCommand

/-- DRIVE_UNMUTE_WRITE (11 R267). -/
def driveUnmuteWrite (n : Node) (o : Fin 256) (s : Block) : Block := unmuteOut s n o

/-- MUTE_ALL_WRITE (11 R266). -/
def muteAllWrite (n : Node) (s : Block) : Block := muteAll s n mcCommand

/-- DRIVE_EN_WRITE (11 R267, R269, R453). -/
def driveEnWrite (n : Node) (o : Fin 256) (en : Bool) (s : Block) : Block :=
  match drvState s n o, en with
  | 0, true =>
    if fget s n F.DRV_RINGLEN_RINGLEN o = 0 then drvReject s n
    else
      let g := fget s n F.DRV_CFG_GROUP o
      let x : DrvSt := { start := get64 s n .DRV_GRP_START g, period := (rget s n .DRV_GRP_PERIOD (ix g)).toNat }
      let s := putDrv s n o x
      let s := put64 s n .DRV_POS 0 o (firstDue x s.now)
      let s := fput (fput s n F.DRV_CFG_EN o 1) n F.DRV_CFG_STATE o 2
      drvSet (fput s n F.DRV_STATUS_LOOPING o 0) n o pMuted (drvCause s n o)
  | 2, false =>
    let s := muteOut (fput (fput s n F.DRV_CFG_EN o 0) n F.DRV_CFG_STATE o 1) n o mcEn
    if drvPlay s n o = pMuted then fput s n F.DRV_CFG_STATE o 0 else s
  | _, _ => s

/-- INHIBIT_ASSERT (11 R268): a filtered falling edge of DRV_INHIBIT_N. -/
def inhibitAssert (n : Node) (s : Block) : Block :=
  if inhibited s n then s
  else raise (muteAll (fset s n F.DRV_GLOBAL_INHIBIT 1) n mcInhibit) n SRC.DRV_INHIBIT 0 0

/-- INHIBIT_RELEASE (11 R268). -/
def inhibitRelease (n : Node) (s : Block) : Block := fset s n F.DRV_GLOBAL_INHIBIT 0

/-- Every output of a module is MUTED or OFF (11 R269). -/
def allMuted (s : Block) (n : Nat) : Bool :=
  (List.range 256).all fun o => drvState s n o == 0 || drvPlay s n o == pMuted

/-- A drive output whose sink is `kind` and `sink` may still be playing (12 R292, R293). -/
def sinkBusy (s : Block) (n o kind : Nat) (isSink : Nat → Bool) : Bool :=
  fget s n F.DRV_CFG_SINKKIND o == kind && isSink (fget s n F.DRV_CFG_SINK o) && drvState s n o != 0 && drvPlay s n o != pMuted

/-- A mute of the outputs that sink to something. -/
def muteSinks (s : Block) (n kind bit : Nat) (isSink : Nat → Bool) : Block :=
  (List.range 256).foldl (fun s o =>
    if fget s n F.DRV_CFG_SINKKIND o = kind && isSink (fget s n F.DRV_CFG_SINK o) then muteOut s n o bit else s) s

end Sys2Proof.Machine
end

