-- ==== Sys2Proof/Machine/Sensor.lean ====
section
/-! DEFINITION. Sys2Proof/Machine/Sensor.lean: sensor lanes, JESD204C links, SYSREF, the Worlith Sensor Link, raw lanes
(11 R245-R253). -/

namespace Sys2Proof.Machine

/-! ### Lanes (11 R245) -/

/-- A number from octets, first octet highest. -/
def ofOctets (os : List (BitVec 8)) : Nat := os.foldl (fun a o => a * 256 + o.toNat) 0

/-- Lanes of a link. -/
def jlanes (s : Block) (n k : Nat) : List Nat :=
  (List.range (fget s n F.SP_JLINK_CFG0_L (ix k))).map (· + fget s n F.SP_JLINK_CFG0_FIRST_LANE (ix k))

/-- The links that have a lane go down until they have realigned at a later SYSREF; the outputs that play into them start their
mute (11 R249, R269). -/
def linksDown (s : Block) (n p : Nat) : Block :=
  let mine := (List.range 16).filter fun k => jlinkOn s n k && (jlanes s n k).contains p
  let s := mine.foldl (fun s k => putJlink (setJlinkUp s n k false) n k { lostAt := some s.now }) s
  muteSinks s n 1 mcFault fun k => mine.contains k

/-- A front-end leaves (15 R359): its channels are lost, the outputs that sink to its lane start their mute (11 R269), and an admission
that is sealed is not installed (15 R361). -/
def feLeave (s : Block) (n p : Nat) : Block :=
  let w : WeirNode := mget (fun _ => {}) s.weirs n
  let s := { s with weirs := mput (fun _ => {}) s.weirs n { w with fes := w.fes &&& ~~~BitVec.ofNat 24 (2 ^ p) } }
  let s := putLane s n p { lane s n p with down := true, unans := 0 }
  muteSinks (fput s n F.CHR_FE_ADMITTED p 0) n 2 mcFault fun k => k == p

/-- A lane that was UP is so no more: its front-end leaves, or its links go down. -/
def laneDrop (s : Block) (n p st : Nat) : Block :=
  let s' := setLaneState s n p st
  if laneState s n p != lnUp then s' else if rxMode s n p = mWsl then feLeave s' n p else linksDown s' n p

/-- The active lanes of a quad that name another rate than the quad's fall back to LOCKING, with CFG_REJECT (11 R245). -/
def quadCheck (s : Block) (n p : Nat) : Block :=
  ((List.range 4).map (· + p / 4 * 4)).foldl (fun s q =>
    if laneState s n q = lnUp && laneRate s n q ≠ quadRate s n q then spReject (laneDrop s n q lnLocking) n else s) s

/-- A write of SP_LANE_CFG with legal values.  A write that sets one half alone to WSL is a reserved value: both modes stay, and
RATE_MBPS and the polarities take effect (11 R245, 00 R7; log 39).  A lane whose settings change starts again. -/
def laneCfgWrite (s : Block) (n p : Nat) (w : Word) : Block :=
  let half := (wbits w 7 4 == mWsl) != (wbits w 3 0 == mWsl)
  let old := rget s n .SP_LANE_CFG p
  let w := if half then wset w 7 0 (wbits old 7 0) else w
  let s := if half then spReject s n else s
  if w = old then s
  else
    let s := rput (laneDrop s n p lnOff) n .SP_LANE_CFG p w
    quadCheck (setLaneState s n p (if laneActive s n p then lnNoSignal else lnOff)) n p

/-- The rates at which a lane can run: those of WSL where it carries that (11 R245, R250). -/
def rateOk (s : Block) (n p : Nat) : Bool :=
  let r := laneRate s n p
  if rxMode s n p = mWsl then [2500, 5000, 10312, 25781].contains r else decide (1250 ≤ r) && decide (r ≤ 32000)

/-- SENSOR_LANE_LOCK (11 R245): an active lane gains signal; it locks if it names its quad's rate, and one at which it can run. -/
def sensorLaneLock (n : Node) (p : Fin 24) (s : Block) : Block :=
  let st := laneState s n p
  if laneActive s n p && fget s n F.NOC_DOMAIN_BRIDGE (ix 5) ≠ 2 && (st == lnNoSignal || st == lnLocking) then
    if laneRate s n p ≠ quadRate s n p then spReject (setLaneState s n p lnLocking) n
    else if rateOk s n p then putLane (setLaneState s n p lnUp) n p { lane s n p with syncAt := s.now }
    else setLaneState s n p lnLocking
  else s

/-! ### JESD204C (11 R246-R249) -/

/-- A link's parameters. -/
structure JCfg where
  first : Nat
  l : Nat
  m : Nat
  sPer : Nat
  res : Nat
  np : Nat
  cs : Nat
  e : Nat

def jcfg (s : Block) (n k : Nat) : JCfg where
  first := fget s n F.SP_JLINK_CFG0_FIRST_LANE (ix k)
  l := fget s n F.SP_JLINK_CFG0_L (ix k)
  m := fget s n F.SP_JLINK_CFG0_MM1 (ix k) + 1
  sPer := fget s n F.SP_JLINK_CFG0_SM1 (ix k) + 1
  res := fget s n F.SP_JLINK_CFG0_NM1 (ix k) + 1
  np := if fget s n F.SP_JLINK_CFG0_NP32 (ix k) = 1 then 32 else 16
  cs := fget s n F.SP_JLINK_CFG0_CS (ix k)
  e := fget s n F.SP_JLINK_CFG1_EM1 (ix k) + 1

/-- Octets per frame and lane. -/
def JCfg.f (c : JCfg) : Nat := c.m * c.sPer * c.np / (8 * c.l)

/-- The parameters lie in the table of R246 and the lanes as R247 says. -/
def JCfg.ok (c : JCfg) : Bool :=
  (c.l == 1 || c.l == 2 || c.l == 4 || c.l == 8) && c.first % c.l == 0 && decide (c.first + c.l ≤ 24)
    && decide (8 ≤ c.res) && decide (c.res ≤ 24) && decide (c.res + c.cs ≤ c.np) && decide (c.cs ≤ 2)
    && c.m * c.sPer * c.np % (8 * c.l) == 0 && decide (1 ≤ c.f) && decide (c.f ≤ 256)

/-- Receive links are 0 to 7, transmit links 8 to 15. -/
def jpeers (k : Nat) : List Nat := if k < 8 then List.range 8 else (List.range 8).map (· + 8)

/-- A link may start (11 R246, R247): its parameters hold, its lanes run JESD204C, and no other enabled link has one of them. -/
def jlinkMayStart (s : Block) (n k : Nat) : Bool :=
  (jcfg s n k).ok && (jlanes s n k).all (fun p =>
    (if k < 8 then rxMode s n p else txMode s n p) == mJesd) &&
    (jpeers k).all fun j => j == k || fget s n F.SP_JLINK_CFG0_STATE (ix j) == 0 ||
      (jlanes s n j).all fun p => !(jlanes s n k).contains p

/-- JLINK_EN_WRITE (11 R247): a link drains within one extended multiblock, here at once; the outputs that play into it start their mute
(11 R269; log 39). -/
def jlinkEnWrite (n : Node) (k : Fin 16) (en : Bool) (s : Block) : Block :=
  match fget s n F.SP_JLINK_CFG0_STATE (ix k), en with
  | 0, true =>
    if jlinkMayStart s n k then fput (fput s n F.SP_JLINK_CFG0_EN (ix k) 1) n F.SP_JLINK_CFG0_STATE (ix k) 2 else spReject s n
  | 2, false =>
    let s := fput (fput s n F.SP_JLINK_CFG0_EN (ix k) 0) n F.SP_JLINK_CFG0_STATE (ix k) 0
    muteSinks (putJlink (setJlinkUp s n k false) n k {}) n 1 mcFault fun j => j == k.val
  | _, _ => s

/-- One octet time of a lane of `r` Mb/s is 8,250 ÷ r ns; in 2^-16 ns, over `r`. -/
def octetNum : Nat := 8250 * 65536

/-- JLINK_UP (11 R249): the link's lanes are locked and a SYSREF has come, after any loss of its alignment; it is aligned to that
one, and its data start at the next edge of its extended-multiblock clock (11 R248). -/
def jlinkUp (n : Node) (k : Fin 16) (s : Block) : Block :=
  match mget (fun _ => none) s.sysref n with
  | none => s
  | some t =>
    let c := jcfg s n k
    let fresh := match (jlink s n k).lostAt with
      | some l => decide (l < t)
      | none => true
    if jlinkOn s n k && !jlinkIsUp s n k && fresh && (jlanes s n k).all (fun p => laneState s n p == lnUp) then
      let num := 256 * c.e * octetNum
      putJlink (setJlinkUp s n k true) n k { t0 := t, emb := ((s.now - t) * quadRate s n c.first + num - 1) / num }
    else s

/-- SYSREF_PULSE (11 R247, R249): a pulse leaves at the next multiple of PERIOD_NS and is held against each link's clock. -/
def sysrefPulse (n : Node) (s : Block) : Block :=
  let p := fget s n F.SP_SYSREF_PERIOD_NS * 2 ^ 16
  if p = 0 then s
  else
    let due := match mget (fun _ => none) s.sysref n with
      | some t => max (t + p) ((s.now + p - 1) / p * p) / p * p
      | none => (s.now + p - 1) / p * p
    let s := atTime s due
    let s := { s with sysref := mput (fun _ => none) s.sysref n (some due) }
    (List.range 16).foldl (fun s k =>
      if jlinkOn s n k && jlinkIsUp s n k then
        let c := jcfg s n k
        let r := quadRate s n c.first
        if (due - (jlink s n k).t0) * r % (256 * c.e * octetNum) = 0 then s else raise s n SRC.SP_LINK_ALIGN k 0
      else s) s

/-- Deliver the samples of one frame: converters in order, the samples of each in order (log 39).  A sample one of whose octets came in a
failed block is lost (11 R249). -/
def jframe (s : Block) (n k : Nat) (c : JCfg) (frame : List (Option (BitVec 8))) (emb f : Nat) : Block :=
  let r := max 1 (quadRate s n c.first)
  let delay := fget s n F.SP_JLINK_CFG1_DELAY_NS (ix k) * 2 ^ 16
  (List.range (c.m * c.sPer)).foldl (fun s i =>
    let os := (frame.drop (i * (c.np / 8))).take (c.np / 8)
    if os.all Option.isSome then
      let x := signedOf c.res (ofOctets (os.filterMap id) / 2 ^ (c.np - c.res))
      let j := i % c.sPer
      let t := (jlink s n k).t0 + ((emb * 256 * c.e + f * c.f) * c.sPer + j * c.f) * octetNum / (r * c.sPer)
      deliver s n 1 k (i / c.sPer) x (t - delay) ⟨c.f * octetNum, r * c.sPer⟩
    else s) s

/-- Take the frames whose octets have all come, with fuel. -/
def jframes (n k : Nat) (c : JCfg) : Nat → Block → Block
  | 0, s => s
  | fuel + 1, s =>
    let x := jlink s n k
    let have_ := x.octets.foldl (fun m o => min m o.length) (256 * c.e)
    if (x.frames + 1) * c.f ≤ have_ then
      let os := x.octets.flatMap fun o => (o.drop (x.frames * c.f)).take c.f
      jframes n k c fuel (jframe (putJlink s n k { x with frames := x.frames + 1 }) n k c os x.emb x.frames)
    else s

/-- JESD_BLOCK_RECEIVE (11 R248, R249): one 64b/66b block of each lane of a link, 8 octets a lane in order of lane.  Bit i of `bad`:
the block of the link's lane i fails its CRC-12 and is discarded. -/
def jesdBlockReceive (n : Node) (k : Fin 8) (bad : BitVec 8) (octs : List (BitVec 64)) (s : Block) : Block :=
  if jlinkOn s n k && jlinkIsUp s n k then
    let c := jcfg s n k
    let s := (List.range c.l).foldl (fun s i =>
      if bad.getLsbD i then fsat (fsat s n F.SP_JLINK_STATUS_CRC12_COUNT (ix k)) n F.SP_LANE_STATUS_CRC_COUNT (c.first + i) else s) s
    let x := jlink s n k
    let old := if x.octets.isEmpty then List.replicate c.l [] else x.octets
    let new := (old.zipIdx).map fun p => p.1 ++ (List.range 8).map fun i =>
      if bad.getLsbD p.2 then none else (octs[p.2]?).map fun w => w.extractLsb' (8 * i) 8
    let s := putJlink s n k { x with octets := new }
    let s := jframes n k c (256 * c.e) s
    let x := jlink s n k
    if x.octets.all fun o => decide (256 * c.e ≤ o.length) then
      putJlink s n k { x with octets := [], frames := 0, emb := x.emb + 1 }
    else s
  else s

/-- LANE_ALIGN_LOSS (11 R249). -/
def laneAlignLoss (n : Node) (p : Fin 24) (s : Block) : Block :=
  if laneState s n p = lnUp && rxMode s n p = mJesd then
    raise (linksDown (setLaneState s n p lnLocking) n p) n SRC.SP_LINK_DOWN p 0
  else s

/-- LANE_SIGNAL_LOSS (11 R252): a WSL lane's front-end leaves (15 R359). -/
def laneSignalLoss (n : Node) (p : Fin 24) (s : Block) : Block :=
  if laneState s n p = lnUp || laneState s n p = lnLocking then
    let s := setLaneState s n p lnNoSignal
    let s := if rxMode s n p = mWsl then feLeave s n p else linksDown s n p
    raise s n SRC.SP_LINK_DOWN p 0
  else s

/-! ### The Worlith Sensor Link (11 R250-R252) -/

/-- A WSL packet that has passed its checks. -/
structure WslPkt where
  typ : Nat
  flags : Nat
  seq : Nat
  time : Nat
  payload : List (BitVec 8)
  deriving DecidableEq, Repr

/-- Little-endian number at byte `i`, `k` bytes long. -/
def leAt (bs : List (BitVec 8)) (i k : Nat) : Nat := ofBytes ((bs.drop i).take k)

/-- Check a packet's length and CRC, and take it apart (11 R250); a reserved TYPE is discarded too (11 R251). -/
def wslParse (bs : List (BitVec 8)) : Option WslPkt :=
  let len := leAt bs 2 2
  let typ := leAt bs 0 1
  if bs.length = 20 + len && len ≤ 2048 && leAt bs (16 + len) 4 == crcBytes (bs.take (16 + len)) && 1 ≤ typ && typ ≤ 6 then
    some ⟨typ, leAt bs 1 1, leAt bs 4 4, leAt bs 8 8, (bs.drop 16).take len⟩
  else none

/-- A received packet is discarded and counted (11 R252). -/
def wslBad (s : Block) (n p : Nat) : Block := fsat s n F.SP_LANE_STATUS_CRC_COUNT p

/-- A packet is taken: the next sequence number follows from it. -/
def wslSeen (s : Block) (n p : Nat) (k : WslPkt) : Block := putLane s n p { lane s n p with rxSeq := some ((k.seq + 1) % 2 ^ 32) }

/-- The samples of a SAMPLES payload: `count` channels from `base`, the samples of one instant together (log 39). -/
def wslSamples (s : Block) (n p : Nat) (k : WslPkt) (period : Nat) : Block :=
  let base := leAt k.payload 0 2
  let count := leAt k.payload 2 2
  let m := (k.payload.length - 4) / 4
  (List.range m).foldl (fun s i =>
    let v := leAt k.payload (4 + 4 * i) 4
    deliver s n 2 p (base + i % count) (signedOf 24 (v % 2 ^ 24)) (k.time * 2 ^ 16 + i / count * period) ⟨period, 1⟩) s

/-- The payload of a SAMPLES packet holds whole instants. -/
def samplesLenOk (k : WslPkt) : Bool :=
  let count := leAt k.payload 2 2
  decide (4 ≤ k.payload.length) && count != 0 && (k.payload.length - 4) % (4 * count) == 0

/-- SAMPLES (11 R251, R252): a packet from a front-end; `period` is its channels' sample period, in 2^-16 ns, which the spec
leaves with the front-end (log 39). -/
def samples (n : Node) (p : Fin 24) (bytes : List (BitVec 8)) (period : Nat) (s : Block) : Block :=
  if !wslUp s n p then s
  else
    match wslParse bytes with
    | some k =>
      if k.typ = 1 && samplesLenOk k then
        let s := wslSeen s n p k
        if (lane s n p).down || !fbit s n F.CHR_FE_PRESENT p then s else wslSamples s n p k period
      else wslBad s n p
    | none => wslBad s n p

/-- TIME_SYNC (11 R250, R251): with `start` the module begins the exchange that is due every 1 ms; else a front-end's half of one comes
and is answered.  A packet of the exchange carries no sample, so TIME is 0; device time goes in its payload, which the spec leaves open
(log 39). -/
def timeSync (n : Node) (p : Fin 24) (start : Bool) (bytes : List (BitVec 8)) (s : Block) : Block :=
  if !wslUp s n p then s
  else if start then
    let s := atTime s ((lane s n p).syncAt + 1000000 * 2 ^ 16)
    wslSend (putLane s n p { lane s n p with syncAt := s.now }) n p 3 0 (leBytes 8 (devNs s n))
  else
    match wslParse bytes with
    | some k => if k.typ = 3 then wslSend (wslSeen s n p k) n p 3 0 (leBytes 8 (devNs s n)) else wslBad s n p
    | none => wslBad s n p

/-- CONTROL (11 R251): a packet from a front-end goes to firmware; one to a front-end is sent. -/
def control (n : Node) (p : Fin 24) (toFrontEnd : Bool) (bytes : List (BitVec 8)) (s : Block) : Block :=
  if !wslUp s n p then s
  else if toFrontEnd then (if bytes.length ≤ 2048 then wslSend s n p 4 0 bytes else s)
  else
    match wslParse bytes with
    | some k =>
      if k.typ = 4 then { wslSeen s n p k with ctlIn := s.ctlIn ++ [(n.val, p.val, k.payload)] } else wslBad s n p
    | none => wslBad s n p

/-- RAW_LANE_WORD (11 R253, 12 R284): a lane's word goes to its region, or, with `out`, the region's word to the lane; a stopped
region discards the one and sends none of the other (12 R289). -/
def rawLaneWord (n : Node) (p : Fin 24) (out : Bool) (w : DWord) (s : Block) : Block :=
  let k := n.val * 32 + p.val
  if !regionLive s n (p / 3) then s
  else if out then
    (if txMode s n p = mRaw then { s with rawOut := mput (fun _ => []) s.rawOut k (mget (fun _ => []) s.rawOut k ++ [w]) } else s)
  else if rxMode s n p = mRaw then { s with rawIn := mput (fun _ => []) s.rawIn k (mget (fun _ => []) s.rawIn k ++ [w]) }
  else s

end Sys2Proof.Machine
end

