-- ==== Sys2Proof/Machine/Gecko.lean ====
section
/-! DEFINITION. Sys2Proof/Machine/Gecko.lean: the fabric: regions, cells, RAM blocks, long tracks, stream ports, pins, loading,
capture (12 R277-R297).  The designs themselves are outside the block: what one does arrives as a command. -/

namespace Sys2Proof.Machine

/-! ### Regions -/

def rgKey (n r : Nat) : Nat := n * 8 + r
def region (s : Block) (n r : Nat) : RegionSt := mget (fun _ => {}) s.regions (rgKey n r)
def putRegion (s : Block) (n r : Nat) (x : RegionSt) : Block := { s with regions := mput (fun _ => {}) s.regions (rgKey n r) x }

/-- PHASE values (GKO_REGION_CTRL). -/
def phEmpty : Nat := 0
def phHold : Nat := 1
def phLoading : Nat := 2
def phReleasing : Nat := 3
def phRun : Nat := 4
def phFrozen : Nat := 5
def phRejected : Nat := 6
def phFaulted : Nat := 7

def rgState (s : Block) (n r : Nat) : Nat := fget s n F.GKO_REGION_CTRL_STATE (ix r)
def setRgState (s : Block) (n r v : Nat) : Block := fput s n F.GKO_REGION_CTRL_STATE (ix r) v
def setPhase (s : Block) (n r v : Nat) : Block := fput s n F.GKO_REGION_CTRL_PHASE (ix r) v

/-- The region clock of an image, in MHz (12 R282; log 40). -/
def imageFreq (img : List (BitVec 8)) (r : Nat) : Nat := 10 + Config.fabricFreq img r % 491

/-- The rate of a region's clock in kHz: its island clock, stretched under sag (18 R399), or a pin's clock, up to 250 MHz and not
stretched (12 R282). -/
def regionKhz (s : Block) (n r : Nat) : Nat :=
  let img := (mget (fun _ => {}) s.regions (n * 8 + r)).image
  let p := (Config.fabricClock img r).toNat % 3
  if p ≠ 0 then 1 + Config.pinClock n (12 * r + p - 1) % 250000
  else
    let f := fget s n F.GKO_REGION_STATUS_FREQ_MHZ (ix r) * 1000
    max (f / 2) (f * 8 / (8 + (mget (fun _ => {}) s.islands (n * 2048 + 1088 + r)).k))

/-- Region cycles, in 2^-16 ns. -/
def regionCycles (s : Block) (n r k : Nat) : Nat := k * 1000000 * 2 ^ 16 / max 1 (regionKhz s n r)

/-- 64 region cycles, a stage of the staged release, in 2^-16 ns × kHz (12 R291). -/
def stageWork : Nat := 64 * 1000000 * 2 ^ 16

/-- How much of a region's release has been done: it goes on, at the present rate of its clock, in RELEASING. -/
def relWork (s : Block) (n r : Nat) : Nat :=
  let x := region s n r
  x.relDone + (if fget s n F.GKO_REGION_CTRL_PHASE (ix r) = phReleasing then (s.now - x.relAt) * regionKhz s n r else 0)

/-- What has been done is set down: the rate of the clock is about to change, or the clock to stop. -/
def foldRelease (s : Block) (n r : Nat) : Block :=
  if fget s n F.GKO_REGION_CTRL_PHASE (ix r) = phReleasing then
    putRegion s n r { region s n r with relAt := s.now, relDone := relWork s n r }
  else s

/-- What a region's time port presents, in 2^-16 ns: it lags device time by at most 2 region cycles and 4 ns (12 R283). -/
def timePort (s : Block) (n r : Nat) : Nat := s.now - Config.fabricTimeLag n r s.now % (regionCycles s n r 2 + 4 * 2 ^ 16 + 1)

/-- The stage of the staged release that a region is in: 1 outputs, 2 write enables, 3 resets released (12 R291). -/
def releaseStage (s : Block) (n r : Nat) : Nat := min 3 (1 + relWork s n r / stageWork)

/-- PHASE as it reads: a release that has reached stage 3 is in RUN (12 R291). -/
def rgPhase (s : Block) (n r : Nat) : Nat :=
  let p := fget s n F.GKO_REGION_CTRL_PHASE (ix r)
  if p = phReleasing && releaseStage s n r = 3 then phRun else p

/-- The write enables of a region are on: in RUN, and in RELEASING or FROZEN from stage 2 of its release on (12 R286, R291). -/
def rgServes (s : Block) (n r : Nat) : Bool :=
  let p := rgPhase s n r
  p == phRun || ((p == phReleasing || p == phFrozen) && decide (2 ≤ releaseStage s n r))

/-- The clocks of a region stop (12 R296, 18 R404), and run again: a release that they stopped goes on where it was. -/
def freezeRegion (s : Block) (n r : Nat) : Block := setPhase (foldRelease s n r) n r phFrozen
def thawRegion (s : Block) (n r : Nat) : Block :=
  if releaseStage s n r = 3 then setPhase s n r phRun
  else setPhase (putRegion s n r { region s n r with relAt := s.now }) n r phReleasing

/-- Its clocks run besides: no beat, request or RAM read is made in FROZEN (12 R289, R296). -/
def rgRuns (s : Block) (n r : Nat) : Bool := rgServes s n r && rgPhase s n r != phFrozen

/-- GKO_STATUS.CFG_REJECT. -/
def gkoReject (s : Block) (n : Nat) : Block := fset s n F.GKO_STATUS_CFG_REJECT 1

/-! ### Cells (12 R278) -/

/-- A cell's LUT output. -/
def lutOut (table : DWord) (i : BitVec 6) : Bool := table.getLsbD i.toNat

/-- The ladder of a cluster: `lut` the LUT outputs of its cells, `ba` their bypass inputs BA. -/
def rungPm (lut ba : BitVec 8) (k : Fin 4) : Bool := if ba.getLsbD (2 * k + 1) then lut.getLsbD (2 * k + 1) else lut.getLsbD (2 * k)
def rungQm (lut ba : BitVec 8) (j : Fin 2) : Bool :=
  if ba.getLsbD (4 * j + 2) then rungPm lut ba (2 * j.castLE (by decide) + 1) else rungPm lut ba (2 * j.castLE (by decide))
def rungOm (lut ba : BitVec 8) : Bool := if ba.getLsbD 4 then rungQm lut ba 1 else rungQm lut ba 0

/-- The rung that cell `c` may give its flip-flop 1; cell 0 has none. -/
def cellRung (lut ba : BitVec 8) (c : Fin 8) : Option Bool :=
  match c.val with
  | 0 => none
  | 2 => some (rungQm lut ba 0)
  | 4 => some (rungOm lut ba)
  | 6 => some (rungQm lut ba 1)
  | k => some (rungPm lut ba ⟨k / 2 % 4, Nat.mod_lt _ (by decide)⟩)

/-- Initial value of flip-flop `k` of cell `c`. -/
def ffInit (img : List (BitVec 8)) (r c k : Nat) : Bool := (Config.fabricCell img r c).getLsbD (67 + k)

/-- A cluster's 8 cells as an octet of bits. -/
def octet (f : Nat → Bool) : BitVec 8 := BitVec.ofNat 8 ((List.range 8).foldl (fun v i => v + b2n (f i) * 2 ^ i) 0)

/-- The carry-chain sums of a cluster, from the carry into its cell 0; the carry logic of a cell is left open (log 40). -/
def carrySums (lut ba : BitVec 8) (cin : Bool) : BitVec 8 :=
  BitVec.ofNat 8 ((List.range 8).foldl (fun (a : Nat × Bool) i =>
    let c := Config.fabricCarry (lut.getLsbD i) (ba.getLsbD i) a.2
    (a.1 + b2n c.1 * 2 ^ i, c.2)) (0, cin)).1

/-- The flip-flops of cluster `k` at a clock edge (12 R278): flip-flop 0 takes the LUT output, the carry sum or BA, flip-flop 1 takes BB
or its cell's rung; a reset gives the initial value, a clock enable of 0 keeps the value `q` (log 40). -/
def clusterNext (img : List (BitVec 8)) (r k : Nat) (ins : Nat → CellIn) (q : BitVec 16) : BitVec 16 :=
  let cfg := fun i => Config.fabricCell img r (8 * k + i)
  let lut := octet fun i => lutOut ((cfg i).setWidth 64) (ins i).lut
  let ba := octet fun i => (ins i).ba
  let sum := carrySums lut ba (ins 0).cin
  let next := fun (i f : Nat) =>
    if (ins i).rst.getLsbD f then ffInit img r (8 * k + i) f
    else if !(ins i).ce.getLsbD f then q.getLsbD (2 * i + f)
    else if f = 1 then
      (if (cfg i).getLsbD 66 then (cellRung lut ba (Fin.ofNat 8 i)).getD (ins i).bb else (ins i).bb)
    else match ((cfg i).extractLsb' 64 2).toNat % 3 with
      | 0 => lut.getLsbD i
      | 1 => sum.getLsbD i
      | _ => ba.getLsbD i
  BitVec.ofNat 16 ((List.range 16).foldl (fun v j => v + b2n (next (j / 2) (j % 2)) * 2 ^ j) 0)

/-! ### RAM blocks (12 R279) -/

/-- A 72-bit piece of a region's RAM: block × 512 + piece; the image's where nothing has been written. -/
def ramGet (s : Block) (n r i : Nat) : BitVec 72 :=
  let x := region s n r
  mget (Config.fabricRam x.image r) x.ram i
def ramPut (s : Block) (n r i : Nat) (v : BitVec 72) : Block :=
  let x := region s n r
  putRegion s n r { x with ram := mput (Config.fabricRam x.image r) x.ram i v }

/-- Bit `k` of block `m`. -/
def ramBit (s : Block) (n r m k : Nat) : Bool := (ramGet s n r (m * 512 + k / 72)).getLsbD (k % 72)
def ramBitPut (n r m k : Nat) (b : Bool) (s : Block) : Block :=
  let i := m * 512 + k / 72
  let mask : BitVec 72 := BitVec.ofNat 72 (2 ^ (k % 72))
  ramPut s n r i (if b then ramGet s n r i ||| mask else ramGet s n r i &&& ~~~mask)

/-- Width of a port's shape: 0 to 4; 5 is the ECC shape. -/
def shapeWidth (shape : Nat) : Nat := if shape ≤ 4 then 4 * 2 ^ shape else 64

/-- A port's depth. -/
def shapeDepth (shape : Nat) : Nat := if shape ≤ 4 then 9216 / 2 ^ shape else 512

/-- Read word `w` through a shape other than ECC. -/
def ramWord (s : Block) (n r m shape w : Nat) : Nat :=
  let b := shapeWidth shape
  if shapeDepth shape ≤ w then 0 else (List.range b).foldl (fun v k => v + b2n (ramBit s n r m (b * w + k)) * 2 ^ k) 0

/-- Write word `w` through a shape; a write at or above the depth is discarded. -/
def ramWordPut (s : Block) (n r m shape w v : Nat) : Block :=
  if shapeDepth shape ≤ w then s
  else if shape = 5 then ramPut s n r (m * 512 + w) (BitVec.ofNat 72 (freshWord code64 v))
  else
    let b := shapeWidth shape
    (List.range b).foldl (fun s k => ramBitPut n r m (b * w + k) (v.testBit k) s) s

/-- Do words `w1` and `w2` of two shapes share a bit of the block? -/
def ramMeet (sh1 w1 sh2 w2 : Nat) : Bool :=
  let unit := fun sh => if sh = 5 then 72 else shapeWidth sh
  decide (unit sh1 * w1 < unit sh2 * (w2 + 1)) && decide (unit sh2 * w2 < unit sh1 * (w1 + 1))

/-- The word a port's read delivers, with the block's error output. -/
def ramRead (s : Block) (n r m shape w : Nat) : Nat × Bool × Block :=
  if shape ≠ 5 then (ramWord s n r m shape w, false, s)
  else if 512 ≤ w then (0, false, s)
  else
    let d := decodeStored code64 (ramGet s n r (m * 512 + w)).toNat
    match d.found with
    | .clean => (d.data, false, s)
    | .fixed _ => (d.data, false, raise (fsat s n F.GKO_REGION_RAM_CE_COUNT (ix r)) n SRC.GKO_RAM_CE r 0)
    | .bad => ((ramGet s n r (m * 512 + w)).toNat % 2 ^ 64, true,
        raise (fsat s n F.GKO_REGION_RAM_UE_COUNT (ix r)) n SRC.GKO_RAM_UE r 0)

/-- The shape of a port, as the image chooses: 0 to 4, or 5, ECC, for both ports of a block, A reading and B writing (12 R279; log 40). -/
def portShape (s : Block) (n r m : Nat) (b : Bool) : Nat :=
  let img := (region s n r).image
  let a := (Config.fabricShape img r (2 * m)).toNat % 6
  if b && a != 5 then (Config.fabricShape img r (2 * m + 1)).toNat % 5 else a

/-- REGION_RAM_READ (12 R279): a design reads word `w` of block `m` through port A or (`b`) B, and may write through the other in the
same cycle; with different clocks a read that meets the write is undefined (log 2).  The answer's code is the error output. -/
def regionRamRead (n : Node) (r : Fin 8) (m : Fin 64) (b : Bool) (w : BitVec 14) (wr : Option (BitVec 14 × DWord)) (oneClock : Bool)
    (s : Block) : Block :=
  let shape := portShape s n r m b
  let other := portShape s n r m (!b)
  if rgRuns s n r && !(b && shape == 5) then
    let a := ramRead s n r m shape w.toNat
    let s := a.2.2
    let hit := match wr with
      | some (w2, _) => ramMeet shape w.toNat other w2.toNat && decide (w2.toNat < shapeDepth other)
      | none => false
    let v : Nat × Block := if hit && !oneClock then ((drawFree s).1.toNat % 2 ^ shapeWidth shape, (drawFree s).2) else (a.1, s)
    let chk := if shape = 5 && decide (w.toNat < 512) then (ramGet s n r (m * 512 + w.toNat)).toNat / 2 ^ 64 else 0
    let x := region v.2 n r
    let s := putRegion v.2 n r { x with out := mput (fun _ => none) x.out (2 * m + b2n b) (some (BitVec.ofNat 72 (v.1 + chk * 2 ^ 64))) }
    let s := match wr with
      | some (w2, d) => ramWordPut s n r m other w2.toNat d.toNat
      | none => s
    answer (1024 + rgKey n r) ⟨b2n a.2.1, leBytes 8 v.1, s⟩
  else s

/-! ### Long tracks (12 R280, R281, R290) -/

/-- Mode of driver `d` (0 to 15) of a track in an image: 0 OFF, 1 ON, 2 USER. -/
def driverMode (img : List (BitVec 8)) (track d : Nat) : Nat := (Config.fabricDriver img (d / 2) track (d % 2)).toNat % 3

/-- Driver `d` of a track drives; `user` gives the enables that come from user logic. -/
def driving (s : Block) (n track : Nat) (user : BitVec 16) (d : Nat) : Bool :=
  let mode := driverMode (region s n (d / 2)).image track d
  regionLive s n (d / 2) && (mode == 1 || (mode == 2 && user.getLsbD d))

/-- The value a track carries: that of the lowest-numbered driver that drives, else 0. -/
def trackValue (s : Block) (n track : Nat) (user value : BitVec 16) : Bool :=
  match (List.range 16).find? (driving s n track user) with
  | some d => value.getLsbD d
  | none => false

/-- FABRIC_CONTENTION (12 R281): the enables `user` have stood for 5 ns. -/
def fabricContention (n : Node) (track : Fin 1024) (user : BitVec 16) (s : Block) : Block :=
  match (List.range 16).filter (driving s n track user) with
  | w :: l :: _ =>
    let k := n.val * 1024 + track.val
    let quiet := match mget (fun _ => none) s.contAt k with
      | some t => decide (t + 1000000 * 2 ^ 16 ≤ s.now)
      | none => true
    if quiet then
      let s := { s with contAt := mput (fun _ => none) s.contAt k (some s.now) }
      let s := if fbit s n F.GKO_CONTENTION_VALID then s
        else rput s n .GKO_CONTENTION 0 (BitVec.ofNat 32 (2 ^ 31 + track.val * 2 ^ 16 + w * 2 ^ 8 + l))
      raise s n SRC.FABRIC_CONTENTION 0 0
    else s
  | _ => s

/-! ### Stream ports (12 R283) -/

/-- The channel engine takes beats of an inbound port, oldest first. -/
def takeBeats (n port : Nat) : Nat → Block → Block
  | 0, s => s
  | k + 1, s =>
    match mget (fun _ => []) s.gkoIn (n * 32 + port) with
    | [] => s
    | (b, p) :: rest =>
      let s := { s with gkoIn := mput (fun _ => []) s.gkoIn (n * 32 + port) rest }
      let stamp := (b.extractLsb' 64 64).toNat * 2 ^ 16 + (b.extractLsb' 48 16).toNat
      takeBeats n port k (deliver s n 3 port (b.extractLsb' 24 12).toNat (b.extractLsb' 0 24).toInt stamp ⟨p, 1⟩)

/-- INBOUND_BEAT (12 R283): the design sends a beat, of a front-end with sample period `period` (2^-16 ns); the channel engine
then takes `taken` beats. -/
def inboundBeat (n : Node) (port : Fin 32) (beat : BitVec 128) (period : Word) (taken : BitVec 7) (s : Block) : Block :=
  let k := n.val * 32 + port.val
  let q := mget (fun _ => []) s.gkoIn k
  let s := if !rgRuns s n (port / 4) then s
    else if q.length < 64 then { s with gkoIn := mput (fun _ => []) s.gkoIn k (q ++ [(beat, period.toNat)]) }
    else streamDrop s n (port / 4)
  takeBeats n port taken.toNat s

/-- OUTBOUND_BEAT_EXPIRE (12 R283): the oldest outbound beat of a port is taken by the design, or its due time comes. -/
def outboundBeatExpire (n : Node) (port : Fin 32) (taken : Bool) (s : Block) : Block :=
  let k := n.val * 32 + port.val
  match mget (fun _ => []) s.gkoOut k with
  | [] => s
  | b :: rest =>
    let due := (b.extractLsb' 64 64).toNat * 2 ^ 16 + (b.extractLsb' 48 16).toNat
    let s := { s with gkoOut := mput (fun _ => []) s.gkoOut k rest }
    if taken && decide (s.now ≤ due) then s else streamDrop (atTime s due) n (port / 4)

/-! ### Trigger and interrupt lines, the target window (12 R286) -/

/-- GECKO_TRIGGER: a rising edge of trigger line `l`. -/
def geckoTrigger (n : Node) (l : Fin 32) (s : Block) : Block :=
  if regionLive s n (l / 4) then dlmTrigger (ringFire s n l 2) n l else s

/-- While a pending bit is enabled, cause FABRIC and the host interrupt are raised. -/
def fabricIrq (s : Block) (n : Nat) : Block :=
  if rget s n .GKO_IRQ_PEND &&& rget s n .GKO_IRQ_EN = 0 then s else hostIrq (irqAll s n cFabric) n hFabric

/-- GECKO_IRQ_LINE: a rising edge of interrupt line `l`. -/
def geckoIrqLine (n : Node) (l : Fin 16) (s : Block) : Block :=
  if regionLive s n (l / 2) then
    fabricIrq (rput s n .GKO_IRQ_PEND 0 (rget s n .GKO_IRQ_PEND ||| BitVec.ofNat 32 (2 ^ l.val))) n
  else s

/-- A request to a region's target window; `data` is what the design answers to a read. -/
def windowReq (s : Block) (n r : Nat) (req : MemReq) (data : List (BitVec 8)) : MemAns :=
  if rgServes s n r then ⟨rspOk, if req.wr then [] else data, { s with gkoWin := s.gkoWin ++ [(n, r, req)] }⟩
  else ⟨rspIsolated, onesData req, s⟩

/-- GECKO_WINDOW_ACCESS (12 R286, 16 R370-R374): a request of endpoint `who` to a region's target window. -/
def geckoWindowAccess (n : Node) (r : Fin 8) (who : BitVec 8) (req : NetReq) (data : List (BitVec 8)) (s : Block) : Block :=
  let q := req.toMemReq
  let out := fun (s : Block) => timedOut s n who.toNat (0x50 + r) n req.addr 4
  answer who.toNat (overNet1 s n req.way (onesData q) out fun s =>
    match netEnd s n who.toNat (0x50 + r) req.addr with
    | some (k, s) => ⟨k, onesData q, s⟩
    | none => if isolatedEp s n (0x50 + r) then ⟨rspIsolated, onesData q, s⟩ else windowReq s n r q data)

/-! ### Stop and release (12 R287, R289, R291) -/

def putPin (s : Block) (n p v : Nat) : Block := { s with pins := mput (fun _ => 0) s.pins (n * 128 + p) v }

/-- A pin whose region stops (12 R287, R289): its hold state, level 0, level 1, or the level and output enable it has, which the user
logic leaves free (log 2). -/
def pinStop (whole : Bool) (n : Nat) (s : Block) (p : Nat) : Block :=
  if whole then putPin s n p 0
  else
    match fget s n F.GKO_PIN_PRMODE (ix p) with
    | 0 =>
      if mget (fun _ => 0) s.pins (n * 128 + p) = 1 then
        let r := drawFree s
        putPin r.2 n p (4 + r.1.toNat % 4)
      else s
    | 1 => putPin s n p 2
    | 2 => putPin s n p 3
    | _ => putPin s n p 0

/-- A region stops; its outbound beats are discarded.  Its flip-flops keep their values, which the user logic leaves free if it ran; a
whole load holds them in reset (12 R289). -/
def stopRegion (s : Block) (n r : Nat) (whole : Bool) (phase : Nat) : Block :=
  let x := region s n r
  let s := putRegion s n r { x with ffs := if whole then some [] else if rgPhase s n r = phRun then none else x.ffs }
  let s := ((List.range 12).map (12 * r + ·)).foldl (pinStop whole n) s
  let s := { s with gkoOut := mdrop s.gkoOut (n * 32 + 4 * r) (n * 32 + 4 * r + 4) }
  setPhase (setRgState s n r 0) n r phase

/-- Responses that a region's master channel is owed: its requests outstanding at port r div 4 (12 R285, R289). -/
def regionOwed (s : Block) (n r : Nat) : Bool :=
  s.outReqs.any fun o => o.node == n && o.ep == ownGecko + r / 4 && o.tag / 1024 == r % 4

/-- The staged release begins. -/
def releaseRegion (s : Block) (n r : Nat) : Block :=
  let s := (List.range 12).foldl (fun s i => putPin s n (12 * r + i) 1) s
  let s := putRegion s n r { region s n r with relAt := s.now, relDone := 0, ffs := some [] }
  setPhase (setRgState s n r 2) n r phReleasing

/-- Drive outputs that play into a region may still be playing (12 R292, R293). -/
def rgPlaying (s : Block) (n r : Nat) : Bool := (List.range 256).any fun o => sinkBusy s n o 3 fun p => p / 4 == r

/-! ### Loading (12 R288-R292) -/

def load (s : Block) (n : Nat) : Option LoadSt := mget (fun _ => none) s.loads n
def putLoad (s : Block) (n : Nat) (x : Option LoadSt) : Block := { s with loads := mput (fun _ => none) s.loads n x }

/-- A region belongs to the load in progress. -/
def inLoad (s : Block) (n r : Nat) : Bool :=
  match load s n with
  | some x => x.regions.contains r
  | none => false

/-- Start the drain of a region (12 R293): the outputs still playing into it are muted. -/
def drainRegion (s : Block) (n r : Nat) : Block :=
  (List.range 256).foldl (fun s o => if sinkBusy s n o 3 fun p => p / 4 == r then muteOut s n o mcCommand else s) (setRgState s n r 1)

/-- REGION_EN_WRITE (12 R293); during a load of the region the write takes effect at the load's step 5 (log 40). -/
def regionEnWrite (n : Node) (r : Fin 8) (en : Bool) (s : Block) : Block :=
  if inLoad s n r then fput s n F.GKO_REGION_CTRL_EN (ix r) (b2n en)
  else if rgState s n r = 1 then (if en then s else fput s n F.GKO_REGION_CTRL_EN (ix r) 0)
  else if en then
    (if rgState s n r = 0 && rgPhase s n r = phHold then releaseRegion (fput s n F.GKO_REGION_CTRL_EN (ix r) 1) n r
      else gkoReject s n)
  else
    let s := fput s n F.GKO_REGION_CTRL_EN (ix r) 0
    if rgState s n r = 2 then drainRegion s n r else s

/-- REGION_DRAIN_DONE (12 R293). -/
def regionDrainDone (n : Node) (r : Fin 8) (s : Block) : Block :=
  if rgState s n r = 1 && !rgPlaying s n r && !regionOwed s n r then stopRegion s n r false phHold else s

/-- A load ends before its commit point: a write of EN that it held takes effect (log 40). -/
def loadDrop (s : Block) (n : Nat) : Block :=
  match load s n with
  | none => s
  | some x =>
    x.regions.foldl (fun s r =>
      if rgState s n r = 2 && !fbit s n F.GKO_REGION_CTRL_EN (ix r) then drainRegion s n r else s) (putLoad s n none)

/-- Step 2: the regions of a load stop and enter HOLD. -/
def loadStop (s : Block) (n : Nat) (x : LoadSt) : Block :=
  let s := x.regions.foldl (fun s r => stopRegion s n r x.whole phHold) s
  putLoad s n (some { x with stage := 3 })

/-- A region of the load is being captured (12 R295). -/
def loadCaptured (s : Block) (n : Nat) (x : LoadSt) : Bool :=
  match mget (fun _ => none) s.caps n with
  | some c => x.regions.any fun r => c.todo.contains r || c.recs.any fun p => p.1 == r
  | none => false

/-- A region of the load is owed a response (12 R289). -/
def loadOwed (s : Block) (n : Nat) (x : LoadSt) : Bool := x.regions.any fun r => regionOwed s n r

/-- Step 3 begins: PHASE reads LOADING. -/
def loadBegin (s : Block) (n : Nat) : Block :=
  match load s n with
  | some x =>
    if x.stage = 3 then
      putLoad (x.regions.foldl (fun s r => setPhase s n r phLoading) s) n (some { x with stage := 4 })
    else s
  | none => s

/-- The modes of a track's drivers that the check of R290 takes: the load's image for its regions, and the live regions. -/
def checkModes (s : Block) (n : Nat) (x : LoadSt) (track : Nat) : List (Nat × Nat) :=
  (List.range 16).filterMap fun d =>
    let r := d / 2
    if x.regions.contains r then some (d, driverMode x.image track d)
    else if regionLive s n r then some (d, driverMode (region s n r).image track d)
    else none

/-- A track fails the check: two ON drivers, or one ON together with any USER. -/
def trackFails (ms : List (Nat × Nat)) : Bool :=
  let on := (ms.filter fun m => m.2 == 1).length
  decide (2 ≤ on) || (on == 1 && ms.any fun m => m.2 == 2)

/-- The regions a load's check rejects (12 R290). -/
def loadRejects (s : Block) (n : Nat) (x : LoadSt) : List Nat :=
  let bad := (List.range 1024).filter fun t => trackFails (checkModes s n x t)
  x.regions.filter fun r => bad.any fun t =>
    !x.whole || (driverMode x.image t (2 * r) != 0) || (driverMode x.image t (2 * r + 1) != 0)

/-- Steps 3 to 5: the image is in place; regions that pass go through the staged release if EN = 1. -/
def loadRegion (x : LoadSt) (bad : List Nat) (n : Nat) (s : Block) (r : Nat) : Block :=
  let s := putRegion s n r { image := x.image }
  let s := fput s n F.GKO_REGION_STATUS_FREQ_MHZ (ix r) (imageFreq x.image r)
  let s := rput s n .GKO_REGION_IMAGE (ix r) (BitVec.ofNat 32 x.crc)
  if bad.contains r then
    raise (setPhase (fput s n F.GKO_REGION_STATUS_CONT_REJECT (ix r) 1) n r phRejected) n SRC.CFG_CONTENTION r 0
  else if fbit s n F.GKO_REGION_CTRL_EN (ix r) then releaseRegion s n r
  else setPhase s n r phHold

/-- Steps 4 to 6: did every region pass, and the state after the load. -/
def loadFinish (s : Block) (n : Nat) (x : LoadSt) : Bool × Block :=
  let bad := loadRejects s n x
  (bad.isEmpty, putLoad (x.regions.foldl (loadRegion x bad n) s) n none)

/-- The command of a load is in flight no more: its reset has let it go, and the load goes on by itself (14 R324). -/
def loadOrphan (s : Block) (n : Nat) (x : LoadSt) : Bool :=
  match cmdOf s x.q x.cid with
  | some f => f.op != 0x0900 || f.node != n
  | none => true

/-- Step 2 is made; a load without its command runs to its end. -/
def loadGo (s : Block) (n : Nat) (x : LoadSt) : Block :=
  let s := loadStop s n x
  if loadOrphan s n x then (loadFinish s n { x with stage := 4 }).2 else s

/-- The load's commit: step 2, unless a capture of its regions is being written or a response is owed (12 R288, R289, R295). -/
def loadCommit (s : Block) (n e : Nat) : Block :=
  match load s n with
  | some x =>
    if x.stage = 1 then
      let s := cmdPast s x.q x.cid
      let x := { x with epoch := e }
      if loadCaptured s n x || loadOwed s n x then putLoad s n (some { x with stage := 2 }) else loadGo s n x
    else s
  | none => s

/-- Step 2 is made once nothing holds it up. -/
def loadResume (s : Block) (n : Nat) : Block :=
  match load s n with
  | some x => if x.stage = 2 && !loadCaptured s n x && !loadOwed s n x then loadGo s n x else s
  | none => s

/-! ### Configuration upsets (12 R294, R295) -/

/-- The region stops for an uncorrectable configuration word. -/
def faultRegion (s : Block) (n r : Nat) : Block :=
  fput (stopRegion s n r false phFaulted) n F.GKO_REGION_STATUS_CFG_UE (ix r) 1

/-- A configuration word as it stands, with its check bits (02 R33). -/
def cfgWord (s : Block) (n r w : Nat) : BitVec 72 :=
  let x := region s n r
  BitVec.ofNat 72 (freshWord code64 (Config.fabricWord x.image r w).toNat) ^^^ mget (fun _ => 0) x.upset w

def putUpset (s : Block) (n r w : Nat) (v : BitVec 72) : Block :=
  let x := region s n r
  putRegion s n r { x with upset := mput (fun _ => 0) x.upset w v }

/-- CONFIG_WORD_CHECK (12 R294): word `w` of a running region's configuration, of which `flips` have been upset since its last check,
is decoded; a correctable word is corrected. -/
def configWordCheck (n : Node) (r : Fin 8) (w : BitVec 19) (flips : BitVec 72) (s : Block) : Block :=
  if rgPhase s n r = phRun && decide (8 * w.toNat < (region s n r).image.length) then
    let s := putUpset s n r w.toNat (mget (fun _ => 0) (region s n r).upset w.toNat ^^^ flips)
    match (decodeStored code64 (cfgWord s n r w.toNat).toNat).found with
    | .clean => s
    | .fixed _ => raise (fsat (putUpset s n r w.toNat 0) n F.GKO_REGION_STATUS_CFG_CE_COUNT (ix r)) n SRC.GKO_CFG_CE r 0
    | .bad =>
      let s := raise s n SRC.GKO_CFG_UE r 0
      match mget (fun _ => none) s.caps n with
      | some c =>
        if c.todo.contains r.val || c.recs.any (fun p => p.1 == r.val) then
          { s with caps := mput (fun _ => none) s.caps n (some { c with upset := c.upset ++ [r.val] }) }
        else faultRegion s n r
      | none => faultRegion s n r
  else s

/-! ### Capture (12 R296, R297) -/

/-- CAPTURE: a write of GKO_CAPTURE_CTRL with CMD = capture. -/
def capture (n : Node) (freeze : Bool) (regions : BitVec 8) (s : Block) : Block :=
  if fbit s n F.GKO_CAPTURE_CTRL_BUSY then s
  else
    let s := fset (fset s n F.GKO_CAPTURE_CTRL_FREEZE (b2n freeze)) n F.GKO_CAPTURE_CTRL_REGIONS regions.toNat
    let refused := fset s n F.GKO_CAPTURE_CTRL_REFUSED 1
    if (rget s n .GKO_CAPTURE_DEST).toNat % 128 ≠ 0 then refused
    else
      let named := (List.range 8).filter fun r => regions.getLsbD r
      let ok := named.filter fun r => rgPhase s n r == phRun || rgPhase s n r == phFrozen
      let s := if ok.length = named.length then s else refused
      if ok.isEmpty then s
      else fset { s with caps := mput (fun _ => none) s.caps n (some ⟨get64 s n .GKO_CAPTURE_TIME, freeze, (rget s n .GKO_CAPTURE_DEST).toNat, ok, [], []⟩) } n F.GKO_CAPTURE_CTRL_BUSY 1

/-- The record of a region (12 R297); `body` is its bytes 64 to 6,207. -/
def captureRecord (s : Block) (n r : Nat) (frozen : Bool) (body : List (BitVec 8)) : List (BitVec 8) :=
  leBytes 8 (devNs s n) ++ leBytes 4 (get64 s n .WEIR_EPOCH % 2 ^ 32) ++ [BitVec.ofNat 8 r, BitVec.ofNat 8 (b2n frozen), 0, 0] ++
    leBytes 4 (rget s n .GKO_REGION_IMAGE (ix r)).toNat ++ leBytes 4 (crcBytes body) ++ List.replicate 40 0 ++ body

/-- The flip-flops of a region at a captured edge: in RUN what the edge gives them, the values before it coming with `cells`; in FROZEN
the values kept. -/
def edgeFfs (s : Block) (n r : Nat) (cells : List CellIn) : List (BitVec 16) :=
  let img := (region s n r).image
  let q := fun k => BitVec.ofNat 16 ((List.range 8).foldl (fun v i => v + (cells.getD (8 * k + i) {}).q.toNat * 4 ^ i) 0)
  let init := fun k => BitVec.ofNat 16 ((List.range 16).foldl (fun v j => v + b2n (ffInit img r (8 * k + j / 2) (j % 2)) * 2 ^ j) 0)
  (List.range 2048).map fun k =>
    if rgPhase s n r = phFrozen then
      (match (region s n r).ffs with
        | some l => l.getD k (init k)
        | none => q k)
    else clusterNext img r k (fun i => cells.getD (8 * k + i) {}) (q k)

/-- Bytes 4,160 to 6,207 of a record: the RAM ports' outputs; a port that has read nothing since its load has a free one (log 2). -/
def ramPortBytes (s : Block) (n r : Nat) : List (BitVec 8) × Block :=
  (List.range 128).foldl (fun (a : List (BitVec 8) × Block) p =>
    let o : Nat × Block := match mget (fun _ => none) (region a.2 n r).out p with
      | some v => (v.toNat, a.2)
      | none => let d := drawFree a.2; (d.1.toNat % 2 ^ shapeWidth (portShape a.2 n r (p / 2) (p % 2 == 1)), d.2)
    (a.1 ++ leBytes 9 o.1 ++ List.replicate 7 0, o.2)) ([], s)

/-- CAPTURE_EDGE (12 R296, R297): the first edge of the region's clock at or after T; `cells` gives what reaches the cells at it. -/
def captureEdge (n : Node) (r : Fin 8) (cells : List CellIn) (s : Block) : Block :=
  match mget (fun _ => none) s.caps n with
  | none => s
  | some c =>
    if c.todo.contains r.val then
      let s := atTime s (c.time * 2 ^ 16)
      let ffs := edgeFfs s n r cells
      let p := ramPortBytes s n r
      let frozen := c.freeze || rgPhase s n r == phFrozen
      let rec_ := captureRecord p.2 n r frozen (ffs.flatMap (fun v => leBytes 2 v.toNat) ++ p.1)
      let s := if c.freeze && rgPhase s n r = phRun then
          freezeRegion (putRegion p.2 n r { region p.2 n r with ffs := some ffs }) n r
        else p.2
      let c := { c with todo := c.todo.filter (· != r.val), recs := c.recs ++ [(r.val, rec_)] }
      { s with caps := mput (fun _ => none) s.caps n (some c) }
    else s

/-- CAPTURE_WRITTEN (12 R295, R296): every named region's record is in the record store. -/
def captureWritten (n : Node) (s : Block) : Block :=
  match mget (fun _ => none) s.caps n with
  | none => s
  | some c =>
    if c.todo.isEmpty then
      let base := 64 * c.dest
      let s := c.recs.foldl (fun s p => recWrites n ownGecko p.2.length (base + 8192 * p.1) p.2 s) s
      let s := fset (fset s n F.GKO_CAPTURE_CTRL_DONE 1) n F.GKO_CAPTURE_CTRL_BUSY 0
      let s := { s with caps := mput (fun _ => none) s.caps n none }
      loadResume (c.upset.foldl (fun s r => faultRegion s n r) s) n
    else s

/-- CAPTURE_RESUME (12 R296): the clocks of every FROZEN region restart. -/
def captureResume (n : Node) (s : Block) : Block :=
  if fbit s n F.GKO_CAPTURE_CTRL_BUSY then s
  else (List.range 8).foldl (fun s r => if rgPhase s n r = phFrozen then thawRegion s n r else s) s

end Sys2Proof.Machine
end

