-- ==== Sys2Proof/Machine/Weir.lean ====
section
/-! DEFINITION. Sys2Proof/Machine/Weir.lean: epochs: boundaries, the two-phase commit, RWL fields, publications, snapshots
(13 R298-R317). -/

namespace Sys2Proof.Machine

def weir (s : Block) (n : Nat) : WeirNode := mget (fun _ => {}) s.weirs n
def putWeir (s : Block) (n : Nat) (x : WeirNode) : Block := { s with weirs := mput (fun _ => {}) s.weirs n x }

/-- PHASE (WEIR_STATUS). -/
def wpOpen : Nat := 0
def wpSealed : Nat := 1
def wpVoted : Nat := 2
def wpIsolated : Nat := 3
def wPhase (s : Block) (n : Nat) : Nat := fget s n F.WEIR_STATUS_PHASE
def setWPhase (s : Block) (n v : Nat) : Block := fset s n F.WEIR_STATUS_PHASE v

/-- WEIR_STATUS.CFG_REJECT. -/
def weirReject (s : Block) (n : Nat) : Block := fset s n F.WEIR_STATUS_CFG_REJECT 1

/-- The committed epoch of a node (13 R298). -/
def epochOf (s : Block) (n : Nat) : Nat := get64 s n .WEIR_EPOCH

/-! ### Sealing (13 R301, R305, R315) -/

/-- Nodes named in a commit's table. -/
def CommitSt.nodes (c : CommitSt) : List Nat := c.tab.mods.map (·.node)

/-- H of a node table (15 R351). -/
def ChTab.hops (t : ChTab) : Nat :=
  (if t.wrapX then t.mxDim / 2 else t.mxDim - 1) + (if t.wrapY then t.myDim / 2 else t.myDim - 1)

/-- Register key to node. -/
def keyNode (k : Nat) : Nat := k / 2 ^ 25 / 256

/-- A later set over an earlier one: the later of two writes to a field stands (13 R301). -/
def mergeRwl (under upper : SMap (Word × Word)) : SMap (Word × Word) :=
  upper.foldl (fun m p => mput (fun _ => (0, 0)) m p.1 (overTwo (mget (fun _ => (0, 0)) m p.1) p.2)) under

/-- PREPARE of the open commit is on its way to a node: a host write that the primary takes now follows it on the same path
(13 R301). -/
def behindPrepare (s : Block) (n : Nat) : Bool :=
  match s.commit with
  | some c => n != 0 && c.nodes.contains n && !c.prepared.contains n && !c.gone.contains n
  | none => false

/-- Publication fields. -/
def pubF (s : Block) (n p : Nat) (f : Fld) : Nat := fget s n f (ix p)
def setPub (s : Block) (n p : Nat) (f : Fld) (v : Nat) : Block := fput s n f (ix p) v
def pubCopies (s : Block) (n p : Nat) : Nat := 3 + pubF s n p F.WEIR_PUB_CTRL_FOUR

/-- A publication at a seal (13 R305, R307). -/
def sealPub (n : Nat) (s : Block) (p : Nat) : Block :=
  let k := n * 32 + p
  let s := if mget (fun _ => false) s.pubReady k then
      let w := pubF s n p F.WEIR_PUB_STATE_WRITE
      let s := setPub (setPub s n p F.WEIR_PUB_STATE_PENDING w) n p F.WEIR_PUB_STATE_PEND_VALID 1
      let s := setPub s n p F.WEIR_PUB_STATE_WRITE ((w + 1) % pubCopies s n p)
      fwrap { s with pubReady := mput (fun _ => false) s.pubReady k false } n F.WEIR_PUB_STATE_SEALS (ix p)
    else s
  if pubF s n p F.WEIR_PUB_CTRL_STATE = 1 then setPub s n p F.WEIR_PUB_CTRL_STATE 0 else s

/-- Lanes with a front-end admitted. -/
def admittedFes (s : Block) (n : Nat) : BitVec 24 :=
  BitVec.ofNat 24 ((List.range 24).foldl (fun m p => m + b2n (fbit s n F.CHR_FE_ADMITTED p) * 2 ^ p) 0)

/-- Opcode of TOPOLOGY_RESCAN. -/
def opRescan : Nat := 0x0A01

/-- When a commit is late (13 R309); the limit grows with H of the installed table beyond 8 (15 R351). -/
def lateNs (s : Block) (c : CommitSt) : Nat := if c.nodes.length ≤ 1 then 2000 else 8000 + 180 * (s.chrTab.hops - 8)

/-- A node seals its shadow, its command sets and its publications; what came behind PREPARE is accepted after the seal. -/
def sealNode (s : Block) (c : CommitSt) (n : Nat) : Block :=
  let mine := fun (p : Nat × Word × Word) => keyNode p.1 == n
  let now_ := fun (x : CmdWrite) => x.node == n && !x.behind
  let s := { s with
    sealedRwl := mergeRwl s.sealedRwl (s.shadow.filter mine)
    shadow := mergeRwl (s.shadow.filter fun p => !mine p) (s.shadowLate.filter mine)
    shadowLate := s.shadowLate.filter fun p => !mine p
    cmdSealed := s.cmdSealed ++ s.cmdSets.filter now_
    cmdSets := (s.cmdSets.filter fun x => !now_ x).map fun x => if x.node = n then { x with behind := false } else x
    snaps := s.snaps.map fun x => if x.node = n then { x with isSealed := true } else x
    flight := s.flight.map fun f => if n = 0 && f.op = opRescan && f.step = 1 then { f with step := 2 } else f }
  let s := (List.range 32).foldl (sealPub n) s
  let w := weir s n
  let s := putWeir s n { w with
    sealedAt := some (nowNs s), part := some (c.t0, c.epoch, lateNs s c), voted := false, ta := none
    late := w.late && w.part.isNone, fes := admittedFes s n }
  setWPhase s n wpSealed

/-! ### Boundaries (13 R299) -/

/-- The entries of a table. -/
def ChTab.ents (t : ChTab) : List NodeEnt := t.mods.map fun m => ⟨m.node, m.mx, m.my⟩

/-- A commit starts: the primary seals its own set and sends PREPARE to every node of the table (13 R308, step 1). While a node
of the table is below Run, none starts and the boundary counts as skipped (18 R409); a command's ends with PWR_OFF (log 46). -/
def startCommit (s : Block) (cmd : Option (Nat × Nat)) : Block :=
  if s.nodeTab.any fun e => pState s e.node != 0 then
    let s := fwrap s 0 F.WEIR_STATUS_SKIPPED 0
    match cmd with
    | some (q, cid) => cmdEnd s q cid { status := stPwrOff }
    | none => s
  else
    let c : CommitSt := { t0 := nowNs s, epoch := epochOf s 0 + 1, tab := s.tabNext.getD s.chrTab, cmd := cmd }
    sealNode { s with commit := some c } c 0

/-- An explicit boundary. -/
def explicitBound (s : Block) (cmd : Option (Nat × Nat)) : Block :=
  if s.commit.isSome then { s with heldBounds := s.heldBounds ++ [cmd] } else startCommit s cmd

/-- The first of the held boundaries that is not skipped starts the next commit (13 R299). -/
def nextCommit : List (Option (Nat × Nat)) → Block → Block
  | [], s => { s with heldBounds := [] }
  | b :: rest, s =>
    let s := startCommit { s with heldBounds := rest } b
    if s.commit.isSome then s else nextCommit rest s

/-- The commit has ended. -/
def endCommit (s : Block) : Block :=
  nextCommit s.heldBounds { s with
    commit := none, shadow := mergeRwl s.shadow s.shadowLate, shadowLate := []
    cmdSets := s.cmdSets.map fun x => { x with behind := false } }

/-- Node 0 is the primary: only its Weir starts commits (13 R299). -/
def isPrimary (s : Block) : Bool := fbit s 0 F.WEIR_STATUS_PRIMARY

/-- EPOCH_BOUNDARY (13 R299): the next periodic boundary. -/
def epochBoundary (s : Block) : Block :=
  if isPrimary s && decide (fget s 0 F.WEIR_CTRL_MODE = 0) then
    let p := fget s 0 F.WEIR_PERIOD_PERIOD_US * 1000
    let from_ := match s.lastBound with
      | some b => max (nowNs s + b2n (decide (s.now % 2 ^ 16 ≠ 0))) (b + 1)
      | none => nowNs s + b2n (decide (s.now % 2 ^ 16 ≠ 0))
    let due := (from_ + p - 1) / p * p
    let s := { atTime s (due * 2 ^ 16) with lastBound := some due }
    if s.commit.isSome then fwrap s 0 F.WEIR_STATUS_SKIPPED 0 else startCommit s none
  else s

/-- WEIR_COMMIT_WRITE (13 R299). -/
def weirCommitWrite (n : Node) (s : Block) : Block :=
  if n.val = 0 && isPrimary s then explicitBound s none else weirReject s n

/-- WEIR_DISCARD (13 R304, R317): every node drops what it has accepted and not sealed.  The discard follows PREPARE to a node that has
not taken it: there it drops only what came behind PREPARE. -/
def weirDiscard (n : Node) (s : Block) : Block :=
  if n.val = 0 && isPrimary s then
    { s with shadow := s.shadow.filter (fun p => behindPrepare s (keyNode p.1)), shadowLate := [] }
  else weirReject s n

/-! ### The vote (13 R308, R310) -/

/-- A copy of a vote: generation, vote, CRC. -/
def voteCopy (gen : Nat) (yes : Bool) : BitVec 104 :=
  let body := leBytes 8 gen ++ [BitVec.ofNat 8 (b2n yes)]
  BitVec.ofNat 104 (ofBytes body + crcBytes body * 2 ^ 72)

def copyGen (c : BitVec 104) : Nat := (c.extractLsb' 0 64).toNat
def copyYes (c : BitVec 104) : Bool := c.extractLsb' 64 8 == 1
def copyOk (c : BitVec 104) : Bool := crcBytes (leBytes 9 (c.extractLsb' 0 72).toNat) == (c.extractLsb' 72 32).toNat

/-- The copy that is used of three (13 R310), and whether they disagree: two that agree; else the valid copy with the highest
generation, the first of several. -/
def pickCopy {α : Type} [DecidableEq α] (gen : α → Nat) (ok : α → Bool) (a b c : α) : Option α × Bool :=
  let differ := !(decide (a = b) && decide (b = c))
  let best := [a, b, c].foldl (fun (m : Option α) x =>
    if ok x then (match m with
      | some y => if gen y < gen x then some x else m
      | none => some x) else m) none
  let pick := if a = b && ok a then some a else if a = c && ok a then some a else if b = c && ok b then some b else best
  (pick, differ)

/-- PREPARE (13 R301, R308, R310): a node seals if it has not, records its vote in three copies, reads them back and sends it; it does so
as well where the vote has failed by then, for ABANDON follows on the same path (13 R311).  `e0`, `e1`, `e2` are the bits in which each
copy reads back wrong. -/
def prepareCommit (n : Node) (e0 e1 e2 : BitVec 104) (s : Block) : Block :=
  match s.commit with
  | none => s
  | some c =>
    if c.ta.isNone && c.nodes.contains n.val && !c.gone.contains n.val && !c.prepared.contains n.val
        && decide (wPhase s n ≠ wpIsolated) then
      let s := if n.val = 0 then s else sealNode s c n
      let v := voteCopy c.epoch true
      let cs := [v ^^^ e0, v ^^^ e1, v ^^^ e2]
      let r := pickCopy copyGen copyOk (v ^^^ e0) (v ^^^ e1) (v ^^^ e2)
      let s := if r.2 then raise s n SRC.SETTINGS_DIVERGENT 0 0 else s
      let yes := match r.1 with
        | some k => copyYes k
        | none => false
      let s := setWPhase (putWeir s n { weir s n with copies := cs, voted := yes }) n wpVoted
      { s with commit := some { c with prepared := c.prepared ++ [n.val], sent := c.sent ++ [(n.val, yes)] } }
    else s

/-! ### A failed vote (13 R311, R312) -/

/-- A node has nothing left to do with a failed commit. -/
def abandoned (s : Block) (c : CommitSt) (n : Nat) : Bool :=
  c.gone.contains n || (c.prepared.contains n && (weir s n).sealedAt.isNone) || wPhase s n == wpIsolated

/-- End the commit once every node has abandoned, or acknowledged with no apply instant left to come (13 R299, R308). -/
def checkEnd (s : Block) : Block :=
  match s.commit with
  | none => s
  | some c =>
    if c.failed then (if c.nodes.all (abandoned s c) then endCommit s else s)
    else if c.ta.isSome && c.nodes.all (fun n => (c.acks.contains n || c.gone.contains n) && (weir s n).ta.isNone) then endCommit s
    else s

/-- The vote fails: the primary sends ABANDON (13 R311).  `lost` is a node of the table that has left. -/
def failCommit (s : Block) (lost : Option Nat) : Block :=
  match s.commit with
  | none => s
  | some c =>
    if c.failed || c.ta.isSome then s
    else
      let s := fwrap s 0 F.WEIR_STATUS_FAILED 0
      let src := if lost.isSome then SRC.PARTNER_LOST else SRC.WEIR_VOTE_FAIL
      let s := raise s 0 src (lost.getD 0) 0
      let s := match c.cmd with
        | some (q, cid) => cmdEnd s q cid { status := stFaulted, detail := src }
        | none => s
      checkEnd { s with commit := some { c with failed := true, gone := c.gone ++ lost.toList } }

/-- ABANDON (13 R311, R316): a node's sealed set goes back under the writes accepted since; a command set whose abort waits is
discarded. -/
def abandonNode (s : Block) (n : Nat) : Block :=
  let mine := fun (p : Nat × Word × Word) => keyNode p.1 == n
  let aborted := fun (c : CmdWrite) => match cmdOf s c.q c.cid with
    | some f => f.aborting
    | none => true
  let back := s.cmdSealed.filter fun c => c.node == n && !aborted c
  let named := fun (f : CmdFl) => (s.cmdSealed.any fun c => c.node == n && c.q == f.q && c.cid == f.cid) ||
    (n == 0 && f.op == opRescan && f.step == 2) ||
    s.snaps.any fun x => x.node == n && x.taken.isNone && x.q == f.q && x.cid == f.cid
  let s1 := { s with
    shadow := mergeRwl (s.sealedRwl.filter mine) s.shadow
    sealedRwl := s.sealedRwl.filter fun p => !mine p
    cmdSealed := s.cmdSealed.filter fun c => c.node != n
    cmdSets := back ++ s.cmdSets
    snaps := (s.snaps.filter fun x => !(x.node == n && x.taken.isNone &&
      (match cmdOf s x.q x.cid with | some f => f.aborting | none => true))).map fun x =>
        if x.node = n && x.taken.isNone then { x with isSealed := false } else x
    flight := s.flight.map fun f =>
      if f.aborting && named f then
        { f with result := some { status := if f.cancel then stCancelled else stAborted } }
      else if n = 0 && f.op = opRescan && f.step = 2 then { f with step := 1 }
      else f }
  setWPhase (putWeir s1 n { weir s1 n with sealedAt := none, part := none, voted := false, late := false }) n wpOpen

def abandon (n : Node) (s : Block) : Block :=
  match s.commit with
  | none => s
  | some c =>
    if c.failed && c.prepared.contains n.val && (weir s n).sealedAt.isSome && decide (wPhase s n ≠ wpIsolated) then checkEnd (abandonNode s n) else s

/-- VOTE (13 R308, steps 3 and 4): a vote reaches the primary; with every vote YES it sends COMMIT with Ta. -/
def vote (n : Node) (s : Block) : Block :=
  match s.commit with
  | none => s
  | some c =>
    match c.sent.find? (fun p => p.1 == n.val) with
    | none => s
    | some (_, yes) =>
      let c := { c with sent := c.sent.filter fun p => p.1 != n.val }
      let s := { s with commit := some c }
      if c.failed then s
      else if !yes then failCommit s none
      else
        let c := { c with votes := c.votes ++ [n.val] }
        let all := c.nodes.all fun m => c.votes.contains m
        let ta := nowNs s + b2n (decide (s.now % 2 ^ 16 ≠ 0)) + (if c.nodes.length ≤ 1 then 600 else 2500)
        { s with commit := some (if all then { c with ta := some ta } else c) }

/-- VOTE_TIMEOUT (13 R311): VOTE_US after the boundary a vote is missing. -/
def voteTimeout (s : Block) : Block :=
  match s.commit with
  | none => s
  | some c =>
    if c.failed || c.ta.isSome then s
    else failCommit (atTime s ((c.t0 + fget s 0 F.WEIR_VOTE_VOTE_US * 1000) * 2 ^ 16)) none

/-! ### The apply instant (13 R302, R304, R308) -/

/-- The partial writes of a node's sealed set: direct writes first, then command sets in ascending queue number (13 R315). -/
def sealedWrites (s : Block) (n : Nat) : List (Nat × Word × Word) :=
  let cmds := (List.range 16).flatMap fun q => s.cmdSealed.filterMap fun c =>
    if c.node = n && c.q = q then some (c.key, c.word) else none
  (s.sealedRwl.filter fun p => keyNode p.1 == n) ++ cmds

/-- A register's word with its sealed writes over it. -/
def sealedWord (ws : List (Nat × Word × Word)) (k : Nat) (old : Word) : Word :=
  (ws.filter fun p => p.1 == k).foldl (fun w p => overlay w p.2) old

/-- The register a key names. -/
def keyReg (k : Nat) : Option Reg := allRegs[(k / 2 ^ 25) % 256]?

/-- Keys judged by a commit-time check. -/
def checkedKey (k : Nat) : Bool :=
  match keyReg k with
  | some .MILL_GANG_SHAPE => true
  | some .MILL_GANG_FORM => true
  | some .MILL_EDGE => true
  | _ => false

/-- Forget the exchange steps of a tile: its gang has been formed anew (02 R41). Until then the counts of exchanges and the steps in
the buffers stay as they are, even where an abandoned or fault-stopped macro-op has left the gang's tiles at different counts
(DESIGN CHOICE, log 62). -/
def resetExchange (s : Block) (tk : Nat) : Block :=
  let t := tile s tk
  putTile s tk { t with
    exX := 0, exY := 0, outbox := ⟨[], [], [], []⟩, inbox := ⟨[], [], [], []⟩, wrapOut := ⟨[], [], [], []⟩,
    wrapIn := ⟨[], [], [], []⟩, contCount := ⟨0, 0, 0, 0⟩, sent := false }

/-- Do two rectangles share a tile? -/
def rectMeet (a b : Rect) : Bool :=
  decide (a.tx0 ≤ b.tx1) && decide (b.tx0 ≤ a.tx1) && decide (a.ty0 ≤ b.ty1) && decide (b.ty0 ≤ a.ty1)

/-- May gang `g` of node `n` take a shape (06 R148)? -/
def shapeOk (s : Block) (n g : Nat) (shape : Word) : Bool :=
  let r := shapeRect shape
  gState s n g == gOff && decide (r.tx0 ≤ r.tx1) && decide (r.ty0 ≤ r.ty1) && (rectTiles s r).all Option.isSome &&
    (presentGangs s).all fun p =>
      (p.1 == n && p.2 == g) || !gangFormed s p.1 p.2 || !rectMeet r (gangRect s p.1 p.2)

/-- The shape change of one gang at a commit (06 R148). -/
def applyShape (ws : List (Nat × Word × Word)) (n : Nat) (s : Block) (g : Nat) : Block :=
  let oldS := rget s n .MILL_GANG_SHAPE g
  let oldF := rget s n .MILL_GANG_FORM g
  let newS := sealedWord ws (rkey n .MILL_GANG_SHAPE g) oldS
  let newF := sealedWord ws (rkey n .MILL_GANG_FORM g) oldF
  if newS = oldS && newF = oldF then s
  else if shapeOk s n g newS then
    let s := rput (rput s n .MILL_GANG_SHAPE g newS) n .MILL_GANG_FORM g newF
    (gangTiles s n g).foldl resetExchange s
  else millReject s n

/-- The edge modes of one gang at a commit (02 R46): a CONT on a side that is not on a module edge is refused, side by side. -/
def applyEdge (ws : List (Nat × Word × Word)) (n : Nat) (s : Block) (g : Nat) : Block :=
  if !ws.any fun p => p.1 == rkey n .MILL_EDGE g then s
  else
    let old := rget s n .MILL_EDGE g
    let w := sealedWord ws (rkey n .MILL_EDGE g) old
    let r := gangRect s n g
    let sides : List (Nat × Side) := [(0, .north), (2, .east), (4, .south), (6, .west)]
    let bad := sides.filter fun p => wbits w (p.1 + 1) p.1 == 2 && !contAllowed r p.2
    let w := bad.foldl (fun w p => wset w (p.1 + 1) p.1 (wbits old (p.1 + 1) p.1)) w
    let s := rput s n .MILL_EDGE g w
    if bad.isEmpty then s else millReject s n

/-- A publication at the apply instant (13 R305). -/
def applyPub (n : Nat) (s : Block) (p : Nat) : Block :=
  if pubF s n p F.WEIR_PUB_STATE_PEND_VALID = 1 then
    let s := setPub s n p F.WEIR_PUB_STATE_FRONT (pubF s n p F.WEIR_PUB_STATE_PENDING)
    let s := setPub s n p F.WEIR_PUB_STATE_PUBS (pubF s n p F.WEIR_PUB_STATE_SEALS)
    setPub (setPub s n p F.WEIR_PUB_STATE_VALID 1) n p F.WEIR_PUB_STATE_PEND_VALID 0
  else s

/-- A module enters the system: it takes the system's epoch, discards its shadow and command sets, and has every gang OFF
(15 R356). -/
def enterNode (s : Block) (n : Nat) : Block :=
  let s := { s with
    shadow := s.shadow.filter fun p => keyNode p.1 != n
    shadowLate := s.shadowLate.filter fun p => keyNode p.1 != n
    sealedRwl := s.sealedRwl.filter fun p => keyNode p.1 != n
    cmdSets := s.cmdSets.filter fun c => c.node != n
    cmdSealed := s.cmdSealed.filter fun c => c.node != n }
  let s := (List.range 16).foldl (fun s g =>
    setGState (fput (putGang s n g {}) n F.MILL_GANG_FORM_FORMED g 0) n g gOff) s
  fset s n F.GLB_STATUS_NODE_ID n

/-- The gangs that a lost node held tiles of or drove, among those that node `n` drives or holds tiles of (06 R164). -/
def splitGangs (s : Block) (n lost : Nat) : List (Nat × Nat) :=
  (presentGangs s).filter fun p =>
    let ts := gangTiles s p.1 p.2
    let has := fun (m : Nat) => p.1 == m || ts.any fun tk => tk / 1024 == m
    gangFormed s p.1 p.2 && has n && has lost

/-- Node `n` reports that a gang is split, and the gang is fault-stopped (06 R164). -/
def splitGang (n : Nat) (s : Block) (p : Nat × Nat) : Block :=
  let s := raise s n SRC.MILL_GANG_SPLIT p.2 0
  if gState s p.1 p.2 = gOff then s else faultStop s p.1 p.2 none SRC.MILL_GANG_SPLIT

/-- Node `n` reports and stops the gangs it shared with a node that has left: once for each loss (06 R164). -/
def splitFrom (lost : Nat) (s : Block) (n : Nat) : Block :=
  if s.splits.contains (n, lost) then s
  else (splitGangs s n lost).foldl (splitGang n) { s with splits := s.splits ++ [(n, lost)] }

/-- A node has left: every surviving module concerned reports the gangs it shared with it. -/
def splitAll (s : Block) (lost : Nat) : Block :=
  ((s.nodeTab.map (·.node)).filter (· != lost)).foldl (splitFrom lost) s

/-- A new node table comes into effect (15 R356, 06 R164): the survivors of each module that has left split the gangs they shared with
it, if its loss has not done so; gangs that reached it are no longer formed, and neither are those that it drove. -/
def installTable (s : Block) (tab : ChTab) (e : Nat) : Block :=
  if { s.chrTab with epoch := tab.epoch } = tab then s
  else
    let here := fun (n : Nat) => tab.mods.any fun m => m.node == n
    let left := (s.nodeTab.map (·.node)).filter fun n => !here n
    let s := left.foldl (fun s m => ((s.nodeTab.map (·.node)).filter here).foldl (splitFrom m) s) s
    let cut := (presentGangs s).filter fun p => gangFormed s p.1 p.2 &&
      (!here p.1 || ((rectTiles s (gangRect s p.1 p.2)).filterMap id).any fun tk => !here (tk / 1024))
    let s := cut.foldl (fun s p => fput s p.1 F.MILL_GANG_FORM_FORMED p.2 0) s
    let new := (tab.mods.map (·.node)).filter fun n => !(s.chrTab.mods.any fun m => m.node == n)
    let s := new.foldl enterNode s
    let later := if s.tabNext = some tab then none else s.tabNext
    hostIrq { s with
      nodeTab := tab.ents, chrTab := { tab with epoch := e }, tabNext := later, splits := s.splits.filter fun p => !left.contains p.2 }
      0 hTopology

/-- Front-ends admitted before the seal, and still on their lanes, enter service; those that have left lose PRESENT (15 R359, R361). -/
def applyFes (s : Block) (n : Nat) : Block :=
  (List.range 24).foldl (fun s p =>
    if fbit s n F.CHR_FE_ADMITTED p && (weir s n).fes.getLsbD p then
      putLane (fput s n F.CHR_FE_PRESENT p 1) n p { lane s n p with down := false }
    else if fbit s n F.CHR_FE_PRESENT p then fput s n F.CHR_FE_PRESENT p 0
    else s) s

/-- What a node signals at its apply instant (13 R308, 17 R392). -/
def signalApply (s : Block) (n e ta : Nat) (t0 : Nat) : Block :=
  let s := applyFes (put64 (put64 s n .WEIR_EPOCH 0 0 e) n .WEIR_APPLY 0 0 ta) n
  let took := min 65535 (ta - t0)
  let s := if fget s n F.WEIR_COMMIT_NS_MAX_NS < took then fset s n F.WEIR_COMMIT_NS_MAX_NS took else s
  let s := setWPhase (putWeir s n { weir s n with sealedAt := none, part := none, voted := false, late := false, ta := none }) n wpOpen
  let s := dlmApply (logEpoch (hostIrq (irqAll s n cEpoch) n hEpoch) n) n ta
  loadCommit s n e

/-- Planes FIRST to LAST of a tile, then M and F, each as 64 rows of 8 bytes. -/
def snapTile (first last : Nat) (acc : List (BitVec 8) × Block) (tk : Nat) : List (BitVec 8) × Block :=
  let planes := (List.range (last + 1 - first)).map (· + first)
  let acc := planes.foldl (fun a p => (List.range 64).foldl (fun (a : List (BitVec 8) × Block) row =>
    let r := readRow a.2 tk row p
    (a.1 ++ leBytes 8 r.1, r.2.2)) a) acc
  let pe := fun (reg : Nat) => (List.range 64).flatMap fun row => leBytes 8 (peGet acc.2 tk row reg).toNat
  (acc.1 ++ pe peM ++ pe peF, acc.2)

/-- The header of an image (13 R314). -/
def snapHeader (s : Block) (i : SnapImg) (e ta first last tiles : Nat) (pay : List (BitVec 8)) : List (BitVec 8) :=
  let head := leBytes 8 e ++ leBytes 8 ta ++ leBytes 2 i.node ++ leBytes 1 i.g ++ leBytes 1 (b2n i.stopped) ++
    leBytes 2 first ++ leBytes 2 last ++ leBytes 4 i.num ++ leBytes 4 (rget s i.dn .MILL_RESUME_CTRL i.g).toNat ++
    leBytes 4 tiles ++ leBytes 8 pay.length
  head ++ leBytes 4 (crcBytes (pay ++ head)) ++ List.replicate 16 0

/-- An image as it stands now: its header and payload. -/
def snapMake (s : Block) (x : SnapSt) (i : SnapImg) (e ta : Nat) : (List (BitVec 8) × List (BitVec 8)) × Block :=
  let tiles := (gangTiles s i.dn i.g).filter fun tk => tk / 1024 == i.node
  let d := tiles.foldl (snapTile x.first x.last) ([], s)
  ((snapHeader d.2 i e ta x.first x.last tiles.length d.1, d.1), d.2)

/-- The images a snapshot takes of a gang (13 R313): of one in RUN once its tiles have completed the newest macro-op that any has
dispatched, of any other as it stands. -/
def snapImages (s : Block) (n g : Nat) : List SnapImg :=
  let nodes := ((gangTiles s n g).map (· / 1024)).eraseDups
  let x := gang s n g
  let stopped := gState s n g == gStopped
  let running := gState s n g == gRun || gState s n g == gYielding || gState s n g == gDraining
  let k := (newestStarted x).getD (match x.flight with
    | m :: _ => m.num - 1
    | [] => x.accepted)
  nodes.map fun m => ⟨n, g, m, if running then some k else none, if stopped then 0 else k, stopped, none⟩

/-- The images of a snapshot at the apply instant; those of gangs that do not run are made at once. -/
def takeImages (x : SnapSt) (e ta : Nat) : List SnapImg → Block → List SnapImg × Block
  | [], s => ([], s)
  | i :: is, s =>
    if i.k.isSome then
      let r := takeImages x e ta is s
      (i :: r.1, r.2)
    else
      let d := snapMake s x i e ta
      let r := takeImages x e ta is d.2
      ({ i with made := some d.1 } :: r.1, r.2)

/-- Sealed snapshots of nodes `ns` are taken. -/
def takeSnaps (s : Block) (ns : List Nat) (e ta : Nat) : Block :=
  s.snaps.foldl (fun s x =>
    if ns.contains x.node && x.isSealed && x.taken.isNone then
      let is := ((List.range 16).filter fun g => x.mask.testBit g).flatMap fun g => snapImages s x.node g
      let r := takeImages x e ta is s
      let put := fun (z : SnapSt) => if z.q = x.q && z.cid = x.cid then { z with taken := some (e, ta), imgs := r.1 } else z
      cmdPast { r.2 with snaps := r.2.snaps.map put } x.q x.cid
    else s) s

/-- Commands whose sets this commit has applied on nodes `ns` end OK (13 R315). -/
def endSets (s : Block) (cs : List CmdWrite) (e : Nat) : Block :=
  cs.foldl (fun s c => cmdEnd (cmdPast s c.q c.cid) c.q c.cid { status := stOk, epoch := e }) s

/-- Rescans whose table this commit has installed end OK (14 R338). -/
def endRescans (s : Block) (e : Nat) : Block :=
  { s with
    flight := s.flight.map fun f =>
      if f.op = opRescan && f.step = 2 then
        { f with past := true, result := some { status := stOk, epoch := e, r0 := s.chrTab.mods.length } }
      else f }

/-- Nodes `ns` apply at `ta` (ns); the checks take them in ascending order (06 R148). -/
def applyNodes (s : Block) (c : CommitSt) (ns : List Nat) (ta : Nat) : Block :=
  let ns := (List.range 64).filter fun n => ns.contains n
  let s := installTable s c.tab c.epoch
  let wss := ns.map fun n => (n, sealedWrites s n)
  let s := wss.foldl (fun s p => p.2.foldl (fun s w =>
    if checkedKey w.1 then s
    else { s with regs := mput regDefault s.regs w.1 (overlay (mget regDefault s.regs w.1) w.2) }) s) s
  let s := wss.foldl (fun s p => (List.range 16).foldl (applyShape p.2 p.1) s) s
  let s := wss.foldl (fun s p => (List.range 16).foldl (applyEdge p.2 p.1) s) s
  let mine := s.cmdSealed.filter fun x => ns.contains x.node
  let s := { s with
    sealedRwl := s.sealedRwl.filter fun p => !ns.contains (keyNode p.1)
    cmdSealed := s.cmdSealed.filter fun x => !ns.contains x.node }
  let s := ns.foldl (fun s n => (List.range 32).foldl (applyPub n) s) s
  let s := takeSnaps s ns c.epoch ta
  let s := ns.foldl (fun s n => signalApply s n c.epoch ta c.t0) s
  let s := endSets s mine c.epoch
  let s := if ns.contains 0 then endRescans s c.epoch else s
  match c.cmd with
  | some (q, cid) =>
    if ns.contains 0 then cmdEnd s q cid { status := stOk, epoch := 0, r0 := c.epoch } else s
  | none => s

/-- A commit comes late on a node (13 R309). -/
def epochLate (s : Block) (n : Nat) : Block :=
  if (weir s n).late then s
  else
    let s := putWeir s n { weir s n with late := true }
    raise (fset s n F.WEIR_STATUS_LATE 1) n SRC.DLM_EPOCH_LATE 0 0

/-- COMMIT (13 R308, R309): a node takes COMMIT; after Ta it applies at once. -/
def commitMsg (n : Node) (s : Block) : Block :=
  match s.commit with
  | none => s
  | some c =>
    match c.ta with
    | none => s
    | some ta =>
      if (weir s n).sealedAt.isSome && (weir s n).ta.isNone && decide (wPhase s n ≠ wpIsolated) && !c.acks.contains n.val then
        if s.now ≤ ta * 2 ^ 16 then putWeir s n { weir s n with ta := some ta }
        else applyNodes (epochLate s n) c [n.val] (nowNs s)
      else s

/-- APPLY (13 R302, R308): Ta comes on every node that has taken COMMIT. -/
def applyEpoch (s : Block) : Block :=
  match s.commit with
  | none => s
  | some c =>
    let ns := c.nodes.filter fun n => (weir s n).ta.isSome
    match c.ta, ns with
    | some ta, _ :: _ => applyNodes (atTime s (ta * 2 ^ 16)) c ns ta
    | _, _ => s

/-- COMMIT_ACK (13 R308, step 6): the acknowledgement of a node that has taken COMMIT reaches the primary. -/
def commitAck (n : Node) (s : Block) : Block :=
  match s.commit with
  | none => s
  | some c =>
    let took := (weir s n).ta.isSome || (epochOf s n == c.epoch)
    if c.ta.isSome && c.nodes.contains n.val && took && !c.acks.contains n.val then
      checkEnd { s with commit := some { c with acks := c.acks ++ [n.val] } }
    else s

/-- The commit ends once its nodes have applied: acknowledgements may all come before Ta (13 R308). -/
def applyMsg (s : Block) : Block := checkEnd (applyEpoch s)

/-- COMMIT_LATE (13 R309): a node has neither applied nor abandoned by the commit's limit, whether or not the commit has ended
elsewhere. -/
def commitLate (n : Node) (s : Block) : Block :=
  let due := fun (t0 limit : Nat) => if (weir s n).late then s else epochLate (atTime s ((t0 + limit) * 2 ^ 16)) n
  match (weir s n).part, s.commit with
  | some (t0, _, limit), _ => due t0 limit
  | none, some c =>
    if c.nodes.contains n.val && !c.prepared.contains n.val && !c.gone.contains n.val then due c.t0 (lateNs s c) else s
  | none, none => s

/-- The lowest and the highest place of modules in a dimension. -/
def lowest (f : ChMod → Int) (ms : List ChMod) : Int := ms.foldl (fun k m => min k (f m)) (ms.foldl (fun _ m => f m) 0)
def highest (f : ChMod → Int) (ms : List ChMod) : Int := ms.foldl (fun k m => max k (f m)) (ms.foldl (fun _ m => f m) 0)

/-- The pair in direction `d` of module `a` comes back to module `b`: `a` is last and `b` first in that direction (15 R349). -/
def wrapsTo (ms : List ChMod) (a b : ChMod) (d : Nat) : Bool :=
  match d with
  | 1 => a.y == b.y && a.x == highest (·.x) ms && b.x == lowest (·.x) ms
  | 3 => a.y == b.y && a.x == lowest (·.x) ms && b.x == highest (·.x) ms
  | 2 => a.x == b.x && a.y == highest (·.y) ms && b.y == lowest (·.y) ms
  | _ => a.x == b.x && a.y == lowest (·.y) ms && b.y == highest (·.y) ms

def modOf (t : ChTab) (n : Nat) : Option ChMod := t.mods.find? fun m => m.node == n

/-- The cabling found, direction `w.2.2` of node `w.1` to node `w.2.1`, still closes a dimension of the table. -/
def wrapHolds (t : ChTab) (w : Nat × Nat × Nat) : Bool :=
  match modOf t w.1, modOf t w.2.1 with
  | some a, some b => wrapsTo t.mods a b w.2.2
  | _, _ => false

/-- Grid positions of a table's modules (15 R355), and the dimensions that wrap over the cabling found (15 R349): in a dimension that
wraps the primary's coordinate is 0, in another the lowest is. -/
def layoutTab (t : ChTab) : ChTab :=
  let ws := t.wraps.filter (wrapHolds t)
  let t := { t with wraps := ws, wrapX := ws.any fun w => w.2.2 % 2 == 1, wrapY := ws.any fun w => w.2.2 % 2 == 0 }
  let place := fun (wrap : Bool) (f : ChMod → Int) (m : ChMod) =>
    if wrap then (f m % (highest f t.mods - lowest f t.mods + 1)).toNat else (f m - lowest f t.mods).toNat
  { t with mods := t.mods.map fun m => { m with mx := place t.wrapX (·.x) m, my := place t.wrapY (·.y) m } }

/-- Stage a table for the next commit. The size of a dimension that wraps is remembered: a place keeps its number whichever way round it
is reached (15 R355). -/
def stageTab (s : Block) (t : ChTab) : Block :=
  let t := layoutTab t
  let size := fun (wrap : Bool) (f : ChMod → Int) (old : Nat) =>
    if wrap then (highest f t.mods - lowest f t.mods + 1).toNat else old
  { s with
    tabNext := if { s.chrTab with epoch := t.epoch } = t then none else some t
    wrapDim := (size t.wrapX (·.x) s.wrapDim.1, size t.wrapY (·.y) s.wrapDim.2) }

/-- A module has become ISOLATED: it is refused until a TOPOLOGY_RESCAN is taken (15 R354). -/
def noteIsolated (s : Block) (serial : Nat) : Block :=
  { s with lostSerials := s.lostSerials ++ [serial], rescanned := s.rescanned.filter (· != serial) }

/-- A node leaves at the next commit (13 R312, 15 R357). -/
def leaveTable (s : Block) (n : Nat) : Block :=
  let t := s.tabNext.getD s.chrTab
  let gone := ((t.mods ++ s.chrWaiting).filter fun m => m.node == n).map (·.serial)
  let s := gone.foldl noteIsolated { s with chrWaiting := s.chrWaiting.filter fun m => m.node != n }
  stageTab s { t with mods := t.mods.filter fun m => m.node != n }

/-- Roles (CHR_STATUS.ROLE). -/
def roUnattached : Nat := 0
def roCandidate : Nat := 1
def roPrimary : Nat := 2
def roSecondary : Nat := 3
def roIsolated : Nat := 4
def role (s : Block) (n : Nat) : Nat := fget s n F.CHR_STATUS_ROLE
def setRole (s : Block) (n v : Nat) : Block := fset s n F.CHR_STATUS_ROLE v

/-- How long a node waits for an outcome, in ns (13 R312). -/
def outcomeWait (s : Block) (n : Nat) : Nat := fget s n F.WEIR_VOTE_VOTE_US * 1000 + 100000

/-- A node that has voted YES and has no outcome is ISOLATED (13 R312): its gangs are split, and the node table excludes it from the next
commit (13 R317, 06 R164; log 42). -/
def isolateNode (s : Block) (n : Nat) : Block :=
  let w := weir s n
  match w.sealedAt with
  | some t =>
    if w.voted && wPhase s n = wpVoted && w.ta.isNone then
      let s := setWPhase (raise (atTime s ((t + outcomeWait s n) * 2 ^ 16)) n SRC.PARTNER_LOST 0 0) n wpIsolated
      if n = 0 then s else splitAll (leaveTable (setRole s n roIsolated) n) n
    else s
  | none => s

/-- OUTCOME_TIMEOUT (13 R312): VOTE_US + 100 µs after its seal a node that has voted YES has no outcome, and is ISOLATED; the
primary that has committed reports a node whose acknowledgement is missing, and the gangs it shared are split (06 R164). -/
def outcomeTimeout (n : Node) (s : Block) : Block :=
  let wait := outcomeWait s n
  let s1 := isolateNode s n
  match s1.commit with
  | none => s1
  | some c =>
    if c.ta.isSome && !c.acks.contains n.val && !c.gone.contains n.val && c.nodes.contains n.val then
      let s1 := atTime s1 ((c.t0 + wait) * 2 ^ 16)
      let s1 := splitAll (leaveTable (raise s1 0 SRC.PARTNER_LOST n 0) n) n
      checkEnd { s1 with commit := some { c with gone := c.gone ++ [n.val] } }
    else checkEnd s1

/-! ### Publications (13 R305, R307) -/

/-- PUB_READY: a write of READY = 1 with READY_COPY. -/
def pubReadyWrite (n : Node) (p : Fin 32) (copy : Fin 4) (s : Block) : Block :=
  if pubF s n p F.WEIR_PUB_CTRL_STATE = 0 then s
  else if pubF s n p F.WEIR_PUB_STATE_WRITE = copy.val then
    { s with pubReady := mput (fun _ => false) s.pubReady (n.val * 32 + p.val) true }
  else setPub s n p F.WEIR_PUB_STATE_READY_REFUSED 1

/-- PUB_EN_WRITE. -/
def pubEnWrite (n : Node) (p : Fin 32) (en : Bool) (s : Block) : Block :=
  match pubF s n p F.WEIR_PUB_CTRL_STATE, en with
  | 0, true =>
    let s := setPub (setPub s n p F.WEIR_PUB_CTRL_EN 1) n p F.WEIR_PUB_CTRL_STATE 2
    let s := setPub (setPub s n p F.WEIR_PUB_STATE_WRITE 1) n p F.WEIR_PUB_STATE_FRONT 0
    let s := setPub (setPub s n p F.WEIR_PUB_STATE_SEALS 0) n p F.WEIR_PUB_STATE_PUBS 0
    let s := setPub (setPub s n p F.WEIR_PUB_STATE_VALID 0) n p F.WEIR_PUB_STATE_PEND_VALID 0
    { s with pubReady := mput (fun _ => false) s.pubReady (n.val * 32 + p.val) false }
  | 2, false => setPub (setPub s n p F.WEIR_PUB_CTRL_EN 0) n p F.WEIR_PUB_CTRL_STATE 1
  | _, _ => s

/-! ### Snapshots (13 R313, R314) -/

/-- Tiles that have completed the frontier op, or have none to complete (13 R313). -/
def snapReady (s : Block) (i : SnapImg) (tiles : List Nat) : Bool :=
  match i.k with
  | none => true
  | some k =>
    match findOp (gang s i.dn i.g) k with
    | none => true
    | some m => tiles.all fun tk => m.doneBy.contains tk

/-- Write a record into a ring, its header last (13 R314); false if the ring refuses data.  The place of the header counts as appended
with the rest (10 R236). -/
def snapRecord (s : Block) (n r : Nat) (head pay : List (BitVec 8)) : Bool × Block :=
  if !ringOpen s n r 3 then (false, s)
  else
    let at_ := ringCount s n r
    let k := match ringRoom s n r with
      | some room => min room head.length
      | none => head.length
    let a := ringAppend (ringTook (setRingCount s n r (at_ + k)) n r k) n r 3 pay
    if k < head.length || a.1 < pay.length then (false, a.2)
    else
      let put := fun (s : Block) (p : Nat × List (BitVec 8)) => recWrites n (ringEp 3) p.2.length p.1 p.2 s
      let size := 2 ^ 21 * ringF s n r F.REC_RING_AREA_SIZE
      let base := 2 ^ 21 * ringF s n r F.REC_RING_AREA_BASE
      let first := size - at_ % size
      (true, [(base + at_ % size, head.take first), (base, head.drop first)].foldl put a.2)

/-- SNAPSHOT_IMAGE_DONE (13 R313, R314): the image of gang `g` of node `dn` on node `n` ends. -/
def snapshotImageDone (n : Node) (dn : Node) (g : GangIx) (s : Block) : Block :=
  match s.snaps.find? (fun x => x.imgs.any fun i => i.dn == dn.val && i.g == g.val && i.node == n.val) with
  | none => s
  | some x =>
    match x.imgs.find? (fun i => i.dn == dn.val && i.g == g.val && i.node == n.val), x.taken with
    | some i, some (e, ta) =>
      let tiles := (gangTiles s dn g).filter fun tk => tk / 1024 == n.val
      if snapReady s i tiles then
        let d := match i.made with
          | some m => (m, s)
          | none => snapMake s x i e ta
        let r := snapRecord d.2 n x.ring d.1.1 d.1.2
        let s := if r.1 then r.2 else raise r.2 n SRC.WEIR_SNAP_DROP 0 0
        let y := { x with imgs := x.imgs.filter (· != i), dropped := x.dropped || !r.1 }
        if y.imgs.isEmpty then
          let rep : Reply := if y.dropped then { status := stFaulted, detail := SRC.WEIR_SNAP_DROP, epoch := e, r0 := e }
            else { status := stOk, epoch := e, r0 := e }
          cmdEnd { s with snaps := s.snaps.filter fun z => !(z.q == x.q && z.cid == x.cid) } x.q x.cid rep
        else { s with snaps := s.snaps.map fun z => if z.q = x.q && z.cid = x.cid then y else z }
      else s
    | _, _ => s

end Sys2Proof.Machine
end

