-- ==== Sys2Proof/Machine/Chorus.lean ====
section
/-! DEFINITION. Sys2Proof/Machine/Chorus.lean: Bunel links, Chorus discovery, fences, front-ends, time transfer
(15 R345-R362). -/

namespace Sys2Proof.Machine

/-! ### Links (15 R345-R347) -/

/-- LSTATE values (SPAN_LINK_STATUS). -/
def lsOff : Nat := 0
def lsTraining : Nat := 1
def lsUp : Nat := 2
def lsDown : Nat := 3
def lsFenced : Nat := 4
def lsRefused : Nat := 5
def lstate (s : Block) (n l : Nat) : Nat := fget s n F.SPAN_LINK_STATUS_LSTATE l
def setLstate (s : Block) (n l v : Nat) : Block := fput s n F.SPAN_LINK_STATUS_LSTATE l v
def linkOn (s : Block) (n l : Nat) : Bool := fget s n F.SPAN_LINK_CTRL_STATE l == 2

/-- A link that carries at least Chorus calls: UP, FENCED or REFUSED. -/
def linkLive (s : Block) (n l : Nat) : Bool :=
  lstate s n l == lsUp || lstate s n l == lsFenced || lstate s n l == lsRefused

/-- Pairs: 0 north, 1 east, 2 south, 3 west; the pair a pair must reach (15 R345). -/
def pairOf (l : Nat) : Nat := l / 2
def farPair (p : Nat) : Nat := (p + 2) % 4

/-- The other link of a pair. -/
def mateOf (l : Nat) : Nat := if l % 2 = 0 then l + 1 else l - 1

/-- The lanes of a link have power: the module is not in Rest or Off, and the domain of its SerDes is not closed (18 R404, R410). -/
def linkPowered (s : Block) (n : Nat) : Bool :=
  !(pow s n).off && fget s n F.GOV_STATE_STATE != 4 && fget s n F.NOC_DOMAIN_BRIDGE (ix 6) != 2

/-- SPAN_LINK_UP (15 R346): both ends are enabled and receive signal; link `l` of `n` finishes training with all 4 lanes; its far end is link `pl` of `pn`, with an
asymmetry of `asym` ps.  A link of or to a fenced module carries only calls (15 R358, R361). -/
def spanLinkUp (n : Node) (l : Fin 8) (pn : Node) (pl : Fin 8) (asym : Word) (s : Block) : Block :=
  if linkOn s n l && linkOn s pn pl && linkPowered s n && linkPowered s pn && (lstate s n l = lsTraining || lstate s n l = lsDown) then
    let only := s.fenced.contains n.val || s.fenced.contains pn.val || role s n == roIsolated
    let s := putLink s n l { link s n l with
      partner := some (pn.val, pl.val), lastFlit := s.now, rxNext := 0, asked := false, asym := asym.toInt }
    let s := fput s n F.SPAN_LINK_STATUS_PARTNER_LINK l pl
    let s := fput s n F.SPAN_LINK_STATUS_PARTNER_NODE l (if nodePresent s pn then pn else 0)
    setLstate s n l (if only then lsFenced else lsUp)
  else s

/-- SPAN_TRAIN_RETRY (15 R346): 10 ms after the last attempt a link with a failed lane trains again. -/
def spanTrainRetry (n : Node) (l : Fin 8) (s : Block) : Block :=
  if linkOn s n l && (lstate s n l = lsTraining || lstate s n l = lsDown) then
    let x := link s n l
    let s := atTime s (x.lastTry + 10000000 * 2 ^ 16)
    putLink (setLstate s n l lsTraining) n l { x with lastTry := s.now }
  else s

/-- Flits that wait at pair `d` of a node. -/
def pairWait (s : Block) (n d : Nat) : List BunelFlit := mget (fun _ => []) s.pairQ (n * 4 + d)
def putPair (s : Block) (n d : Nat) (q : List BunelFlit) : Block := { s with pairQ := mput (fun _ => []) s.pairQ (n * 4 + d) q }

/-- The flit of those waiting that is sent next, and the others: the oldest of the highest class (15 R348).  `only`: the link carries
calls alone (15 R354, R358). -/
def nextFlit (only : Bool) (q : List BunelFlit) : Option (BunelFlit × List BunelFlit) :=
  (List.range 5).findSome? fun c => takeFirst (fun f => f.cls.val == c && (!only || f.call)) q

/-- What link `l` of `n` sends: the flit not acknowledged again, else the next of its pair; none is an idle flit (15 R347). -/
def sendFlit (s : Block) (n l : Nat) : Option BunelFlit × Block :=
  let x := link s n l
  match x.unacked with
  | some f => (some f, s)
  | none =>
    match nextFlit (lstate s n l != lsUp) (pairWait s n (pairOf l)) with
    | some (f, q) => (some f, putLink (putPair s n (pairOf l) q) n l { x with unacked := some f })
    | none => (none, s)

/-- The flit sent is received and acknowledged. -/
def ackFlit (s : Block) (n l : Nat) : Block := putLink s n l { link s n l with unacked := none }

/-- A flit not acknowledged goes to the front of its pair: the other link sends it (15 R347). -/
def requeueFlit (s : Block) (n l : Nat) : Block :=
  match (link s n l).unacked with
  | some f => ackFlit (putPair s n (pairOf l) (f :: pairWait s n (pairOf l))) n l
  | none => s

/-- FLIT_RECEIVE (15 R347, R348): flit number `seq` comes in clean, corrected by FEC, or not correctable; the first is asked for again
until it comes, and flits are delivered in order.  `put`: flits that have come to the sender's pair in the meantime. -/
def flitReceive (n : Node) (l : Fin 8) (seq : BitVec 32) (found : WordCheck) (put : List BunelFlit) (s : Block) : Block :=
  match linkLive s n l, (link s n l).partner with
  | true, some (pn, pl) =>
    let s := putPair s pn (pairOf pl) (pairWait s pn (pairOf pl) ++ put)
    let x := link s n l
    match found with
    | .uncorrectable => fsat (putLink (sendFlit s pn pl).2 n l { x with asked := true }) pn F.SPAN_LINK_ERR_REPLAYS pl
    | f =>
      let s := match f with
        | .correctable => fsat s n F.SPAN_LINK_ERR_FEC_CORR l
        | _ => s
      if seq.toNat = x.rxNext % 2 ^ 32 then
        let r := sendFlit s pn pl
        putLink (ackFlit r.2 pn pl) n l
          { x with lastFlit := s.now, rxNext := x.rxNext + 1, asked := false, inbox := x.inbox ++ r.1.toList }
      else putLink s n l { x with lastFlit := s.now }
  | _, _ => s

/-- SPAN_LINK_EN_WRITE (SPAN_LINK_CTRL, 01 R19): an enabled link trains; a disabled one has moved its traffic to the other link of
its pair and is OFF. -/
def spanLinkEnWrite (n : Node) (l : Fin 8) (en : Bool) (s : Block) : Block :=
  match fget s n F.SPAN_LINK_CTRL_STATE l, en with
  | 0, true =>
    let s := fput (fput s n F.SPAN_LINK_CTRL_EN l 1) n F.SPAN_LINK_CTRL_STATE l 2
    putLink (setLstate s n l lsTraining) n l { link s n l with lastTry := s.now }
  | 2, false =>
    requeueFlit (setLstate (fput (fput s n F.SPAN_LINK_CTRL_EN l 0) n F.SPAN_LINK_CTRL_STATE l 0) n l lsOff) n l
  | _, _ => s

/-! ### Topology (15 R349-R351) -/

/-- The neighbour of a place in a direction (0 north, 1 east, 2 south, 3 west). -/
def stepX (d : Nat) : Int := if d = 1 then 1 else if d = 3 then -1 else 0
def stepY (d : Nat) : Int := if d = 2 then 1 else if d = 0 then -1 else 0

/-- Nodes that `n`'s UP links reach. -/
def linkPeers (s : Block) (n : Nat) : List Nat :=
  (List.range 8).filterMap fun l => if lstate s n l = lsUp then (link s n l).partner.map (·.1) else none

/-- Nodes joined to those of a list by UP links, with fuel. -/
def spread (s : Block) : Nat → List Nat → List Nat
  | 0, ns => ns
  | k + 1, ns => spread s k (ns ++ ((ns.flatMap (linkPeers s)).filter fun m => !ns.contains m)).eraseDups

/-- Can node `n` reach node `m` over UP links? -/
def reaches (s : Block) (n m : Nat) : Bool := (spread s 64 [n]).contains m

/-- Difference of two coordinates along a minimal route (15 R350). -/
def axisHops (wrap : Bool) (dim a b : Nat) : Nat :=
  let d := if a ≤ b then b - a else a - b
  if wrap then min d (dim - d) else d

/-- Hops between two modules of a table along the routes of R350. -/
def tabHops (t : ChTab) (a b : ChMod) : Nat := axisHops t.wrapX t.mxDim a.mx b.mx + axisHops t.wrapY t.myDim a.my b.my

/-- Hops of a node to the primary in the committed table. -/
def hopsTo0 (s : Block) (n : Nat) : Nat :=
  match modOf s.chrTab n, modOf s.chrTab 0 with
  | some a, some b => tabHops s.chrTab a b
  | _, _ => 0

/-- The module of the table beside entry `a` in direction `d` (0 north, 1 east, 2 south, 3 west), over a wrap too (15 R349). -/
def gridBeside (s : Block) (a : NodeEnt) (d : Nat) : Option Nat :=
  let k := (if d % 2 = 1 then (s.nodeTab.map (·.mx)).foldl max 0 else (s.nodeTab.map (·.my)).foldl max 0) + 1
  let wrap := if d % 2 = 1 then s.chrTab.wrapX else s.chrTab.wrapY
  let up := d == 1 || d == 2
  let go := fun (v : Nat) =>
    if up then (if v + 1 < k then some (v + 1) else if wrap then some 0 else none)
    else if v ≠ 0 then some (v - 1) else if wrap then some (k - 1) else none
  let at_ := fun (x y : Nat) => (s.nodeTab.find? fun e => e.mx == x && e.my == y).map (·.node)
  if d % 2 = 1 then (go a.mx).bind fun x => at_ x a.my else (go a.my).bind fun y => at_ a.mx y

/-- The modules beside a node that routes do not avoid: those that are not fenced (15 R350). -/
def openBeside (s : Block) (n d : Nat) : Option Nat :=
  ((nodeEnt s n).bind fun a => gridBeside s a d).bind fun m => if s.fenced.contains m then none else some m

/-- Modules within `k` hops of a list. -/
def within (s : Block) : Nat → List Nat → List Nat
  | 0, ns => ns
  | k + 1, ns => within s k (ns ++ ns.flatMap fun n => [1, 3, 2, 0].filterMap (openBeside s n)).eraseDups

/-- Hops of a minimal route from `n` to `m` past the modules that routes avoid. -/
def routeHops (s : Block) (n m : Nat) : Option Nat := (List.range 64).find? fun k => (within s k [m]).contains n

/-- The pair over which traffic from a module to another leaves (0 north, 1 east, 2 south, 3 west): a minimal route, east or west first,
then north or south; a tie over a wrap goes east or south (15 R350).  4: there is none. -/
def firstPair (s : Block) (n m : Nat) : Nat :=
  match routeHops s n m with
  | some (k + 1) => ([1, 3, 2, 0].find? fun d => ((openBeside s n d).map fun p => routeHops s p m == some k) == some true).getD 4
  | _ => 4

/-- Does a packet get from `n` to `m` by the route of R350, each hop over a pair with a link that is UP?  With fuel. -/
def bunelRoute (s : Block) (m : Nat) : Nat → Nat → Bool
  | 0, n => n == m
  | k + 1, n =>
    n == m || (let d := firstPair s n m
      decide (d < 4) && (match openBeside s n d with
        | some p => ([2 * d, 2 * d + 1].any fun l => lstate s n l == lsUp && (link s n l).partner.map (·.1) == some p) && bunelRoute s m k p
        | none => false))

/-- The link a node takes its time from (15 R360): the lowest-numbered one on a minimal route toward the primary (15 R350). -/
def parentLink (s : Block) (n : Nat) : Option Nat :=
  match routeHops s n 0 with
  | some (k + 1) => (List.range 8).find? fun l => lstate s n l == lsUp &&
    (match (link s n l).partner with
      | some (p, _) => openBeside s n (pairOf l) == some p && routeHops s p 0 == some k
      | none => false)
  | _ => none

/-- LINK_DOWN_DETECT (15 R347, R360): no valid flit for 1 µs; the flits not acknowledged go out again on the other link of the pair; a
module whose whole parent pair has failed holds over. -/
def linkDownDetect (n : Node) (l : Fin 8) (s : Block) : Block :=
  if linkLive s n l then
    let x := link s n l
    let alone := parentLink s n == some l.val && lstate s n (mateOf l) != lsUp
    let s := setLstate (atTime s (x.lastFlit + 1000 * 2 ^ 16)) n l lsDown
    let s := if alone then enterHoldover s n else s
    raise (requeueFlit (putLink s n l { x with asked := false, lastTry := s.now }) n l) n SRC.SPAN_LINK_DOWN l 0
  else s

/-! ### Calls (15 R352) -/

/-- The fields of a node's call or answer on link `l`; a fenced module answers as ISOLATED (15 R358). -/
def callBytes (s : Block) (n l : Nat) : List (BitVec 8) :=
  let inTab := nodePresent s n && (role s n == roPrimary || role s n == roSecondary)
  let word := fun (r : Reg) => leBytes 4 (rget s n r).toNat
  leBytes 8 (Config.serialNumber n).toNat ++
    word .GLB_ID ++ word .GLB_PARAM0 ++ word .GLB_PARAM1 ++ word .GLB_PARAM2 ++ word .GLB_PARAM3 ++
    leBytes 1 (fget s n F.CMD_FW_VERSION_MAJOR) ++ leBytes 1 (if s.fenced.contains n then roIsolated else role s n) ++ leBytes 1 l ++
    leBytes 1 (if inTab then n else 0xFF) ++ leBytes 8 (if inTab then (Config.serialNumber 0).toNat else 0) ++
    leBytes 8 (epochOf s n) ++ List.replicate 16 0

def sendCall (s : Block) (n port : Nat) : Block :=
  { s with callsOut := s.callsOut ++ [(n, port, callBytes s n (port - 24))] }

/-- A call on every link that carries calls, and on every WSL lane that is UP. -/
def callAll (s : Block) (n : Nat) : Block :=
  let s := (List.range 8).foldl (fun s l => if linkLive s n l then sendCall s n (24 + l) else s) s
  (List.range 24).foldl (fun s p =>
    if wslUp s n p then
      let s := wslSend s n p 5 0 (callBytes s n p)
      let x := lane s n p
      putLane s n p { x with unans := x.unans + 1 }
    else s) s

/-- CALL_PERIOD (15 R352): CALL_MS after its last calls a module calls again. -/
def callPeriod (n : Node) (s : Block) : Block :=
  let s := match mget (fun _ => none) s.calledAt n with
    | some t => atTime s (t + fget s n F.CHR_CTRL_CALL_MS * 1000000 * 2 ^ 16)
    | none => s
  callAll { s with calledAt := mput (fun _ => none) s.calledAt n (some s.now) } n

/-! ### Admission (15 R354-R356) -/

/-- What a call says (15 R352). -/
structure Call where
  serial : Nat
  ident : List (BitVec 8)
  fwMajor : Nat
  role : Nat
  link : Nat
  node : Nat
  primary : Nat
  epoch : Nat

def parseCall (bs : List (BitVec 8)) : Call where
  serial := leAt bs 0 8
  ident := (bs.drop 8).take 20
  fwMajor := leAt bs 28 1
  role := leAt bs 29 1
  link := leAt bs 30 1
  node := leAt bs 31 1
  primary := leAt bs 32 8
  epoch := leAt bs 40 8

/-- Every module admitted: the table that the next commit installs, and those that wait. -/
def admitted (s : Block) : List ChMod := (s.tabNext.getD s.chrTab).mods ++ s.chrWaiting

/-- The serial number of an admitted module. -/
def modSerial (m : ChMod) : Nat := if m.node = 0 then (Config.serialNumber 0).toNat else m.serial

/-- The reason a call heard by module `a` of the table on link `l` is refused; 0 for none (15 R354). -/
def refusal (s : Block) (a : ChMod) (l : Nat) (c : Call) : Nat :=
  let ms := admitted s
  let d := pairOf l
  let at_ := (a.x + stepX d, a.y + stepY d)
  let known := ms.find? fun m => modSerial m == c.serial
  let placed := ms.find? fun m => (m.x, m.y) == at_
  let mate := (link s a.node (mateOf l)).heard
  let twoMods := linkLive s a.node (mateOf l) && !mate.isEmpty && decide (leAt mate 0 8 ≠ c.serial)
  let conflict := match known with
    | some m => !decide ((m.x, m.y) = at_) && !wrapsTo ms a m d
    | none => placed.isSome
  let span := fun (f : ChMod → Int) (v : Int) => max (highest f ms) v - min (lowest f ms) v + 1
  if decide (c.ident ≠ ((callBytes s 0 0).drop 8).take 20) then 1
  else if c.fwMajor ≠ fget s 0 F.CMD_FW_VERSION_MAJOR then 2
  else if c.role = roPrimary && decide (c.serial ≠ (Config.serialNumber 0).toNat) then 3
  else if decide (farPair d ≠ pairOf c.link) || twoMods || conflict then 4
  else if known.isNone && (decide (8 < span (·.x) at_.1) || decide (8 < span (·.y) at_.2)) then 5
  else if c.role = roIsolated && !s.rescanned.contains c.serial then 6
  else 0

/-- The number a module gets at a place (15 R355): in a dimension that wraps, places a whole turn apart are one. -/
def nodeFor (s : Block) (x y : Int) : Nat :=
  let same := fun (size : Nat) (a b : Int) => a == b || (decide (size ≠ 0) && (a - b) % (size : Int) == 0)
  match s.posHeld.find? (fun p => same s.wrapDim.1 p.1 x && same s.wrapDim.2 p.2.1 y) with
  | some p => p.2.2
  | none =>
    let used := s.posHeld.map (·.2.2) ++ (admitted s).map (·.node)
    ((List.range 64).find? fun k => k != 0 && !used.contains k).getD 63

/-- The cabling found with a call from `b` heard in direction `d` of `a`. -/
def noteWrap (t : ChTab) (ms : List ChMod) (a b : ChMod) (d : Nat) : ChTab :=
  let w := (a.node, b.node, d)
  if wrapsTo ms a b d && ((a.x + stepX d, a.y + stepY d) ≠ (b.x, b.y) || a.node == b.node) && !t.wraps.contains w then
    { t with wraps := t.wraps ++ [w] }
  else t

/-- A module is admitted: it becomes SECONDARY, takes no part in an earlier commit any more (13 R312), its endpoint goes to Detect.Quiet
(14 R323), and it is staged, or waits for a TOPOLOGY_RESCAN (15 R356). -/
def admitModule (s : Block) (m : ChMod) : Block :=
  let s := { s with
    posHeld := if s.posHeld.any (fun p => p.2.2 == m.node) then s.posHeld else s.posHeld ++ [(m.x, m.y, m.node)]
    pcieUp := mput (fun _ => false) s.pcieUp m.node false
    fenced := s.fenced.filter (· != m.node) }
  let s := setWPhase (putWeir s m.node {}) m.node wpOpen
  let s := putPow (setRole s m.node roSecondary) m.node { pow s m.node with quietEp := true }
  if fbit s 0 F.CHR_CTRL_AUTOJOIN then
    let t := s.tabNext.getD s.chrTab
    stageTab s { t with mods := t.mods ++ [m] }
  else { s with chrWaiting := s.chrWaiting ++ [m] }

/-- A link refused carries only calls, and reports each reason once (15 R354). -/
def refuse (s : Block) (n l r : Nat) : Block :=
  let s := fput (setLstate s n l lsRefused) n F.SPAN_LINK_STATUS_REASON l r
  let x := link s n l
  if x.refused.contains r then s
  else raise (putLink s n l { x with refused := x.refused ++ [r] }) n SRC.CHR_ADMIT_REFUSED l 0

/-- The primary judges a call heard by node `n` of its table on link `l`. -/
def judge (s : Block) (n l : Nat) (c : Call) : Block :=
  match modOf (s.tabNext.getD s.chrTab) n with
  | none => s
  | some a =>
    let r := refusal s a l c
    if r ≠ 0 then refuse (if r = 6 && !s.lostSerials.contains c.serial then noteIsolated s c.serial else s) n l r
    else
      let s := fput s n F.SPAN_LINK_STATUS_REASON l 0
      let s := if lstate s n l = lsRefused || lstate s n l = lsFenced then setLstate s n l lsUp else s
      match (admitted s).find? (fun m => modSerial m == c.serial) with
      | some b =>
        let t := s.tabNext.getD s.chrTab
        let t' := noteWrap t (admitted s) a b (pairOf l)
        if t' = t then s else stageTab s t'
      | none =>
        let x := a.x + stepX (pairOf l)
        let y := a.y + stepY (pairOf l)
        let m := nodeFor s x y
        admitModule s { node := m, x := x, y := y, serial := c.serial, fw := (rget s m .CMD_FW_VERSION).toNat, e0 := epochOf s 0 }

/-- CHORUS_CALL (15 R352, R354): on port 0 to 23 a WSL packet of type 5 from a front-end, answered with one of type 6 (11 R251); on
port 24 + l a call on link `l`, which is answered, and judged for admission.  What a WSL call or answer of the module carries is
left open: here the fields of a Bunel call (log 42). -/
def chorusCall (n : Node) (port : Fin 32) (bytes : List (BitVec 8)) (s : Block) : Block :=
  let p := port.val
  let l := p - 24
  if p < 24 then
    (if !wslUp s n p then s
      else
        match wslParse bytes with
        | some k => if k.typ = 5 then wslSend (wslSeen s n p k) n p 6 0 (callBytes s n p) else wslBad s n p
        | none => wslBad s n p)
  else if linkLive s n l && bytes.length = 64 then
    let s := putLink s n l { link s n l with heard := bytes, lastFlit := s.now }
    let s := sendCall s n p
    if role s 0 = roPrimary && nodePresent s n && !s.fenced.contains n.val then judge s n l (parseCall bytes) else s
  else s

/-! ### Answers and front-ends (15 R359) -/

/-- A front-end is admitted on its lane at once. -/
def feAdmit (s : Block) (n p : Nat) (pay : List (BitVec 8)) : Block :=
  let s := fput (fput s n F.CHR_FE_ADMITTED p 1) n F.CHR_FE_TYPE p (leAt pay 8 1)
  let s := fput (fput s n F.CHR_FE_CHANNELS p (leAt pay 9 2)) n F.CHR_FE_DRIVES p (leAt pay 11 1)
  put64 s n .CHR_FE_SERIAL 0 p (leAt pay 0 8)

/-- An answer of a front-end: 8 bytes of serial number, TYPE, 2 bytes of acquisition channels, drive channels, 4 bytes of firmware
version (log 42). -/
def feAnswer (s : Block) (n p : Nat) (pay : List (BitVec 8)) : Block :=
  let s := putLane s n p { lane s n p with unans := 0 }
  let serial := leAt pay 0 8
  let known := get64 s n .CHR_FE_SERIAL 0 p
  if fbit s n F.CHR_FE_ADMITTED p then
    (if serial = known then s else feAdmit (feLeave s n p) n p pay)
  else
    feAdmit s n p pay

/-- CHORUS_ANSWER (15 R352, R359): on port 0 to 23 a WSL packet of type 6 from a front-end; on port 24 + l an answer on link `l`. -/
def chorusAnswer (n : Node) (port : Fin 32) (bytes : List (BitVec 8)) (s : Block) : Block :=
  let p := port.val
  if p < 24 then
    (if !wslUp s n p then s
      else
        match wslParse bytes with
        | some k =>
          if k.typ = 6 && k.payload.length = 16 && leAt k.payload 9 2 ≤ 4096 then feAnswer (wslSeen s n p k) n p k.payload
          else wslBad s n p
        | none => wslBad s n p)
  else if linkLive s n (p - 24) && bytes.length = 64 then
    putLink s n (p - 24) { link s n (p - 24) with heard := bytes, lastFlit := s.now }
  else s

/-- FRONT_END_LEAVE (15 R359): three calls in a row have not been answered. -/
def frontEndLeave (n : Node) (p : Fin 24) (s : Block) : Block :=
  if fbit s n F.CHR_FE_ADMITTED p && decide (3 ≤ (lane s n p).unans) then feLeave s n p else s

/-! ### The primary (15 R353) -/

/-- PRIMARY_ELECTION (15 R353): after 50 ms of calls, node 0 is the candidate with the lowest serial number among those it reaches
(log 43). -/
def primaryElection (s : Block) : Block :=
  let rival := fun (n : Nat) => n != 0 && role s n == roCandidate && reaches s 0 n &&
    decide ((Config.serialNumber n).toNat < (Config.serialNumber 0).toNat)
  let heardPrimary := (List.range 8).any fun l =>
    let h := (link s 0 l).heard
    linkLive s 0 l && !h.isEmpty && leAt h 29 1 == roPrimary
  if role s 0 = roCandidate && !(List.range 64).any rival && !heardPrimary then
    let s := atTime s ((pow s 0).readyAt + 50000000 * 2 ^ 16)
    let s := fset (setRole s 0 roPrimary) 0 F.WEIR_STATUS_PRIMARY 1
    { s with posHeld := [(0, 0, 0)] }
  else s

/-! ### Leaving (15 R357, R358) -/

/-- The far node of a pair of `n`, and whether the pair is down: neither link carries flits, and one has just gone DOWN while the other
may be training again. -/
def pairPeer (s : Block) (n d : Nat) : Option Nat :=
  match (link s n (2 * d)).partner, (link s n (2 * d + 1)).partner with
  | some (p, _), _ => some p
  | none, some (p, _) => some p
  | none, none => none
def pairDown (s : Block) (n d : Nat) : Bool :=
  !linkLive s n (2 * d) && !linkLive s n (2 * d + 1) && (lstate s n (2 * d) == lsDown || lstate s n (2 * d + 1) == lsDown)

/-- A node is lost: fenced everywhere, PARTNER_LOST at the primary, an open vote fails, and it leaves at the next commit. One that is
staged and not yet installed is not installed (15 R361). -/
def loseNode (s : Block) (m : Nat) : Block :=
  let was := nodePresent s m
  let s := leaveTable s m
  let s := if was then { s with fenced := s.fenced ++ [m] } else s
  let inVote := match s.commit with
    | some c => c.nodes.contains m && c.ta.isNone && !c.failed
    | none => false
  if inVote then failCommit s (some m)
  else
    let s := if was then raise s 0 SRC.PARTNER_LOST m 0 else s
    match s.commit with
    | some c => if c.gone.contains m then s else checkEnd { s with commit := some { c with gone := c.gone ++ [m] } }
    | none => s

/-- A node has been admitted and is not yet in the table. -/
def staged (s : Block) (n : Nat) : Bool := !nodePresent s n && (admitted s).any fun m => m.node == n

/-- LOSS_REPORT (15 R357, R361): both links of pair `d` of node `n` are DOWN; of the two nodes the one with more hops to the primary is
lost, on a tie the higher number; of a node of the table and one that is staged, the latter. -/
def lossReport (n : Node) (d : Fin 4) (s : Block) : Block :=
  match pairPeer s n d with
  | none => s
  | some p =>
    if pairDown s n d && p ≠ n.val && nodePresent s n && nodePresent s p then
      let hn := hopsTo0 s n
      let hp := hopsTo0 s p
      let lost := if hn < hp || (hn = hp && n.val < p) then p else n.val
      if s.fenced.contains lost || lost = 0 then s else loseNode s lost
    else if pairDown s n d && nodePresent s n && staged s p then loseNode s p
    else s

/-- Flits inside a module are lost (15 R358). -/
def dropFlits (s : Block) (n : Nat) : Block :=
  let s := { s with pairQ := mdrop s.pairQ (n * 4) ((n + 1) * 4) }
  (List.range 8).foldl (fun s l => ackFlit s n l) s

/-- FENCE (15 R357, R358, 06 R164): node `n` fences its links to a lost node, and stops the gangs they shared; the lost node
itself fences every link and mutes its outputs. -/
def fence (n : Node) (lost : Node) (s : Block) : Block :=
  if !s.fenced.contains lost.val then s
  else
    let mine := (List.range 8).filter fun l => linkLive s n l &&
      (n == lost || (match (link s n l).partner with | some (p, _) => p == lost.val | none => false))
    let s := mine.foldl (fun s l => setLstate s n l lsFenced) s
    if n = lost then muteAll (dropFlits s n) n mcFault
    else
      splitFrom lost s n

/-- PRIMARY_UNREACHABLE (15 R357, R358): a node that has not reached the primary for 20 µs leaves the system; a staged one is not
installed (15 R361; log 42). -/
def primaryUnreachable (n : Node) (s : Block) : Block :=
  let lively := (List.range 8).filter fun l => linkLive s n l
  if (role s n = roSecondary || (role s n = roIsolated && lively.any fun l => lstate s n l != lsFenced))
      && (s.fenced.contains n.val || !reaches s n 0) then
    let s := lively.foldl (fun s l => setLstate s n l lsFenced) (setRole s n roIsolated)
    let s := muteAll (raise s n SRC.PARTNER_LOST 0 0) n mcFault
    if n.val = 0 || s.fenced.contains n.val || !(admitted s).any (fun m => m.node == n.val) then s
    else splitAll (loseNode s n) n
  else s

/-! ### Time transfer (15 R360) -/

/-- TIME_TRANSFER: stamps of a message sent by the child at `t1`, taken by the parent at `t2`, answered at `t3` and taken back at
`t4`, in ps; the child's time is corrected by what it measures, and follows its parent again (log 45). -/
def timeTransfer (n : Node) (l : Fin 8) (t1 t2 t3 t4 : DWord) (s : Block) : Block :=
  if parentLink s n = some l.val then
    let off := ((t2 - t1).toInt - (t4 - t3).toInt) / 2 - (link s n l).asym
    let s := rput s n .SPAN_LINK_TIME l (BitVec.ofInt 32 off)
    let x := tim s n
    let s := putTim s n { x with skew := x.skew + off * 65536 / 1000 }
    let s := if x.hold.isSome then leaveHoldover s n else s
    let bound : Int := 1000 + 125 * (hopsTo0 s n - 8 : Nat)
    if -bound ≤ off && off ≤ bound then { s with unlockAt := mput (fun _ => none) s.unlockAt n none }
    else
      match mget (fun _ => none) s.unlockAt n with
      | none => { s with unlockAt := mput (fun _ => none) s.unlockAt n (some s.now) }
      | some t => if t + 1000000 * 2 ^ 16 ≤ s.now then raise s n SRC.SPAN_TIME_UNLOCK 0 0 else s
  else s

/-! ### TOPOLOGY_READ and TOPOLOGY_RESCAN (15 R356, R362) -/

/-- The 2,112 bytes of TOPOLOGY_READ. -/
def topologyBytes (s : Block) : List (BitVec 8) :=
  let t := s.chrTab
  let head := leBytes 8 t.epoch ++ leBytes 1 t.mods.length ++ leBytes 1 t.mxDim ++ leBytes 1 t.myDim ++
    leBytes 1 (b2n t.wrapX + 2 * b2n t.wrapY) ++ leBytes 8 (Config.serialNumber 0).toNat ++ List.replicate 44 0
  let entry := fun (n : Nat) =>
    match modOf t n with
    | none => List.replicate 32 0
    | some m =>
      let up := (List.range 8).foldl (fun k l => k + b2n (lstate s n l == lsUp) * 2 ^ l) 0
      let brake := fget s n F.GOV_STATE_STATE == 3
      leBytes 1 (1 + 2 * b2n (s.fenced.contains n) + 4 * b2n brake) ++ leBytes 1 m.mx ++ leBytes 1 m.my ++
        leBytes 1 (hopsTo0 s n) ++ leBytes 1 ((parentLink s n).getD 0xFF) ++ leBytes 1 up ++ [0, 0] ++
        leBytes 8 (modSerial m) ++ leBytes 8 m.e0 ++ leBytes 4 (if n = 0 then (rget s 0 .CMD_FW_VERSION).toNat else m.fw) ++
        List.replicate 4 0
  head ++ (List.range 64).flatMap entry

/-- A rescan calls at once on every link, and stages every module admitted by then. -/
def rescan (s : Block) : Block :=
  let t := s.tabNext.getD s.chrTab
  let s1 := stageTab { s with chrWaiting := [], lostSerials := [], rescanned := s.rescanned ++ s.lostSerials } { t with mods := t.mods ++ s.chrWaiting }
  (t.mods.map (·.node)).foldl callAll s1

end Sys2Proof.Machine
end

