-- ==== Sys2Proof/Machine/NewtCmd.lean ====
section
/-! DEFINITION. Sys2Proof/Machine/NewtCmd.lean: patrol scrub, inspections, and the register path to the Newt stores
(02 R49-R55, R450; 03 R80-R83, R87, R90). -/

namespace Sys2Proof.Machine

/-! ### Patrol scrub (02 R49-R51) -/

/-- The rows of the repair queue are rewritten, and leave the queue (02 R37, R51).  One that has become uncorrectable since leaves it
without a report, which is left to the patrol's own pass (DESIGN CHOICE, log 62). -/
def repairRows (s : Block) (tk : Nat) : Block :=
  let s := (tile s tk).repair.foldl (fun s p =>
    let d := decodeStored code64 (rowGet s tk p.1 p.2)
    match d.found with
    | .fixed _ => writeRow s tk p.1 p.2 d.data
    | _ => s) s
  putTile s tk { tile s tk with repair := [] }

/-- One row of a scrub slot. The uncorrectable addresses a tile "has reported" are those its patrol has reported, so a row that a
macro-op met first is reported once more by the patrol (DESIGN CHOICE, log 62). -/
def scrubRow (queue : List (Nat × Nat)) (tk addr : Nat) (s : Block) (row : Nat) : Block :=
  let d := decodeStored code64 (rowGet s tk row addr)
  match d.found with
  | .clean => s
  | .fixed col =>
    let s := if queue.contains (row, addr) then s else planeCe s tk row addr col
    putTile s tk { tile s tk with scrubWb := (tile s tk).scrubWb ++ [(row, addr, freshWord code64 d.data)] }
  | .bad =>
    if (tile s tk).ueSeen.contains (row, addr) then s
    else
      let s := planeUe s tk row addr
      let t := tile s tk
      if t.ueSeen.length < 8 then putTile s tk { t with ueSeen := t.ueSeen ++ [(row, addr)] } else s

/-- One scrub slot of a tile: the repair queue, then the 64 rows at CURSOR, which advances (02 R49, R51). -/
def scrubSlotOf (s : Block) (tk : Nat) : Block :=
  let n := tk / 1024
  let t := tk % 1024
  if fget s n F.NEWT_SCRUB_CTRL_STATE 0 ≠ 2 then s
  else
    let queue := (tile s tk).repair
    let s := repairRows s tk
    let addr := fget s n F.NEWT_SCRUB_STATUS_CURSOR t
    let s := (List.range 64).foldl (scrubRow queue tk addr) s
    let s := if addr = 2047 then fwrap s n F.NEWT_SCRUB_STATUS_PASSES t else s
    fput s n F.NEWT_SCRUB_STATUS_CURSOR t ((addr + 1) % 2048)

/-- SCRUB_SLOT (02 R49): a due slot in Run. -/
def scrubSlot (tn : Node) (t : TileIx) (s : Block) : Block := if inRun s tn then scrubSlotOf s (tkey tn t) else s

/-- SCRUB_FORCED_SLOT (02 R49): a slot in a cycle that the Newt inserts. -/
def scrubForcedSlot (tn : Node) (t : TileIx) (s : Block) : Block := if inRun s tn then scrubSlotOf s (tkey tn t) else s

/-- One word of the store patrol (03 R90): corrected words are written back, and an uncorrectable one sets STORE_BAD without
stopping a gang. -/
def patrolWord (s : Block) (tk : Nat) : Block :=
  let t := tile s tk
  let store := if t.patrol < 8192 then 0 else if t.patrol < 10240 then 1 else 2
  let addr := t.patrol - storeBase store
  let s := putTile s tk { t with patrol := if t.patrol = 10751 then 0 else t.patrol + 1 }
  if fget s (tk / 1024) F.NEWT_SCRUB_CTRL_STATE 0 = 2 then (fetchStore s tk store addr).2 else s

/-- SCRUB_IDLE_WAKE (02 R49, 03 R90): one plane slot and one store word, in Idle and Furl. -/
def scrubIdleWake (tn : Node) (t : TileIx) (s : Block) : Block :=
  let st := fget s tn F.GOV_STATE_STATE
  if st = 1 || st = 2 then patrolWord (scrubSlotOf s (tkey tn t)) (tkey tn t) else s

/-- SCRUB_WRITEBACK (02 R50): the corrected rows of the slot are written with fresh check bits. -/
def scrubWriteback (tn : Node) (t : TileIx) (s : Block) : Block :=
  let tk := tkey tn t
  let wb := (tile s tk).scrubWb
  let s := putTile s tk { tile s tk with scrubWb := [] }
  wb.foldl (fun s p => rowPutRaw s tk p.1 p.2.1 p.2.2) s

/-- SCRUB_EN_WRITE (02 R51). -/
def scrubEnWrite (n : Node) (en : Bool) (s : Block) : Block :=
  enWrite s n F.NEWT_SCRUB_CTRL_EN F.NEWT_SCRUB_CTRL_STATE 0 en

/-- SCRUB_DRAIN_DONE (02 R51): no tile has a slot in progress, and STATE reads OFF. -/
def scrubDrainDone (n : Node) (s : Block) : Block :=
  if s.tiles.all fun p => p.1 / 1024 != n.val || p.2.scrubWb.isEmpty then drainDone s n F.NEWT_SCRUB_CTRL_STATE 0 else s

/-- STORE_PATROL_CHECK (03 R90). -/
def storePatrolCheck (tn : Node) (t : TileIx) (s : Block) : Block :=
  if inRun s tn then patrolWord s (tkey tn t) else s

/-- STORE_CE_WRITEBACK (03 R87): the oldest corrected word is written back, unless the word has been written since. -/
def storeCeWriteback (tn : Node) (t : TileIx) (s : Block) : Block :=
  let tk := tkey tn t
  match (tile s tk).storeWb with
  | [] => s
  | (store, addr, w) :: rest => storePut (putTile s tk { tile s tk with storeWb := rest }) tk store addr w

/-! ### CFG_REJECT of the NEWT block (02 R52) -/

/-- A rejected write behind TILESEL sets the selected tile's bit, or with BCAST = 1 the module's. -/
def newtReject (s : Block) (n t : Nat) (bcast : Bool) : Block :=
  if bcast then fset s n F.NEWT_STATUS_CFG_REJECT 1 else fput s n F.NEWT_INSP_STATUS_CFG_REJECT t 1

/-! ### Inspections (02 R53-R55, R450) -/

/-- The tile belongs to no gang, or its gang is stopped: STATE OFF or STOPPED (06 R158). -/
def tileStopped (s : Block) (tk : Nat) : Bool :=
  match tileOwner s tk with
  | none => true
  | some (n, g) => gState s n g == gOff || gState s n g == gStopped

/-- A context's inspection flags. -/
def inspFlag (s : Block) (c : Nat) (f : Fld) (v : Bool) : Block := fput s (ctxHome c) f (ctxInst c) (b2n v)

/-- Start an inspection, or answer one that starts nothing (02 R53, R55). `cmd` 1 reads, 2 writes. -/
def inspStart (s : Block) (c n t cmd kind row addr : Nat) : Block :=
  let h := ctxHome c
  let i := ctxInst c
  if fbit s h F.NEWT_INSP_STATUS_BUSY i then s
  else
    let s := fput (fput s h F.NEWT_INSP_CTRL_ADDR i addr) h F.NEWT_INSP_CTRL_ROW i row
    let s := if kind = 3 then s else fput s h F.NEWT_INSP_CTRL_KIND i kind
    let s := [F.NEWT_INSP_STATUS_DONE, F.NEWT_INSP_STATUS_REFUSED, F.NEWT_INSP_STATUS_CE, F.NEWT_INSP_STATUS_UE].foldl
      (fun s f => inspFlag s c f false) s
    if kind = 3 || (kind = 2 && decide (4 < addr)) then
      newtReject (inspFlag s c F.NEWT_INSP_STATUS_DONE true) n t false
    else
      let w := BitVec.ofNat 32 (cmd * 2 ^ 30 + kind * 2 ^ 28 + addr % 2048 * 2 ^ 16 + row % 64)
      { inspFlag s c F.NEWT_INSP_STATUS_BUSY true with insps := s.insps ++ [(c, n, t, w)] }

/-- INSPECTION_READ (02 R53). -/
def inspectionRead (c : Ctx) (n : Node) (t : TileIx) (kind : BitVec 2) (row : BitVec 6) (addr : BitVec 11) (s : Block) : Block :=
  inspStart s (ctxNum c) n t 1 kind.toNat row.toNat addr.toNat

/-- INSPECTION_WRITE (02 R54). -/
def inspectionWrite (c : Ctx) (n : Node) (t : TileIx) (kind : BitVec 2) (row : BitVec 6) (addr : BitVec 11) (s : Block) : Block :=
  inspStart s (ctxNum c) n t 2 kind.toNat row.toNat addr.toNat

/-- The data registers of a context. -/
def inspData (s : Block) (c : Nat) : Nat :=
  (rget s (ctxHome c) .NEWT_INSP_DATA_LO (ctxInst c)).toNat + 2 ^ 32 * (rget s (ctxHome c) .NEWT_INSP_DATA_HI (ctxInst c)).toNat

def putInspData (s : Block) (c v : Nat) : Block :=
  let s := rput s (ctxHome c) .NEWT_INSP_DATA_LO (ctxInst c) (BitVec.ofNat 32 v)
  rput s (ctxHome c) .NEWT_INSP_DATA_HI (ctxInst c) (BitVec.ofNat 32 (v / 2 ^ 32))

/-- What a read loads (02 R53): no fault, no count, no record. -/
def inspRead (s : Block) (c tk kind row addr : Nat) : Block :=
  if kind = 0 then
    let d := decodeStored code64 (rowGet s tk row addr)
    let s := putInspData s c d.data
    match d.found with
    | .clean => s
    | .fixed _ => inspFlag s c F.NEWT_INSP_STATUS_CE true
    | .bad => inspFlag s c F.NEWT_INSP_STATUS_UE true
  else if kind = 1 then
    let w := rowGet s tk row addr
    fput (putInspData s c (w % 2 ^ 64)) (ctxHome c) F.NEWT_INSP_CHECK_CHECK (ctxInst c) (w / 2 ^ 64)
  else putInspData s c (peGet s tk row addr).toNat

/-- What a write stores (02 R54).  NEWT_INSP_DATA and NEWT_INSP_CHECK are taken as they stand when the inspection completes, not as
they stood at the CMD write (DESIGN CHOICE, log 62). -/
def inspWrite (s : Block) (c tk kind row addr : Nat) : Block :=
  let d := inspData s c
  if kind = 0 then writeRow s tk row addr d
  else if kind = 1 then
    rowWritten (rowPutRaw s tk row addr (d + 2 ^ 64 * fget s (ctxHome c) F.NEWT_INSP_CHECK_CHECK (ctxInst c))) tk row addr
  else pePut s tk row addr (BitVec.ofNat 64 d)

/-- The plane memory of a module is unpowered: Brake, Rest or Off (02 R55). -/
def planesOff (s : Block) (n : Nat) : Bool := decide (3 ≤ pState s n) || (pow s n).off

/-- INSPECTION_DONE (02 R53, R54, R55, R450): the context's inspection completes, once those of its tile before it have. -/
def inspectionDone (c : Ctx) (s : Block) : Block :=
  let k := ctxNum c
  match s.insps.find? fun p => p.1 == k with
  | none => s
  | some (_, n, t, w) =>
    let before := s.insps.takeWhile fun p => p.1 != k
    if before.any fun p => p.2.1 == n && p.2.2.1 == t then s
    else
      let tk := tkey n t
      let s := { s with insps := s.insps.filter fun p => p.1 != k }
      let s := inspFlag (inspFlag s k F.NEWT_INSP_STATUS_BUSY false) k F.NEWT_INSP_STATUS_DONE true
      let cmd := wbits w 31 30
      let kind := wbits w 29 28
      let row := wbits w 5 0
      let addr := wbits w 26 16
      if planesOff s n then
        let s := inspFlag s k F.NEWT_INSP_STATUS_REFUSED true
        if cmd = 1 then putInspData s k (2 ^ 64 - 1) else s
      else if cmd = 1 then inspRead s k tk kind row addr
      else if tileStopped s tk then inspWrite s k tk kind row addr
      else inspFlag s k F.NEWT_INSP_STATUS_REFUSED true

/-! ### The register path to the stores (03 R80-R83) -/

/-- R80: the tile is running. -/
def tileRunning (s : Block) (tk : Nat) : Bool :=
  let t := tile s tk
  !tileStopped s tk || (t.mop.isSome && decide (t.phase ≠ .stopped)) || !t.fifo.isEmpty

/-- The tiles of a module. -/
def nodeTiles (n : Nat) : List Nat := (List.range 1024).map fun t => tkey n t

/-- Start a store operation (03 R80, R81, R83): CMD 1 read, 2 write, 3 verify.  DONE and REFUSED of the one before stay set until
software clears them (DESIGN CHOICE, log 62); a reserved STORE or an ADDR outside the store is rejected where R52 says, by the BCAST
of the same write. -/
def storeStart (s : Block) (n t cmd store : Nat) (bcast raw : Bool) (addr : Nat) : Block :=
  let tk := tkey n t
  if (tile s tk).storeOp.isSome then s
  else
    let bc := bcast && cmd ≠ 1
    let s := fput (fput (fput s n F.NEWT_STORE_CTRL_BCAST t (b2n bcast)) n F.NEWT_STORE_CTRL_RAW t (b2n raw)) n
      F.NEWT_STORE_CTRL_ADDR t addr
    let keep := fget s n F.NEWT_STORE_CTRL_STORE t
    let s := if store = 3 then newtReject s n t bcast else fput s n F.NEWT_STORE_CTRL_STORE t store
    let store := if store = 3 then keep else store
    if cmd ≠ 3 && decide (storeSize store ≤ addr) then
      newtReject (fput s n F.NEWT_STORE_STATUS_DONE t 1) n t bcast
    else
      let refused := cmd = 2 && (if bc then (nodeTiles n).any (tileRunning s) else tileRunning s tk)
      let s := fput s n F.NEWT_STORE_STATUS_BUSY t 1
      putTile s tk { tile s tk with storeOp := some ⟨cmd, store, bc, raw, addr, refused⟩ }

/-- STORE_WORD_READ (03 R80). -/
def storeWordRead (n : Node) (t : TileIx) (store : BitVec 2) (bcast raw : Bool) (addr : BitVec 13) (s : Block) : Block :=
  storeStart s n t 1 store.toNat bcast raw addr.toNat

/-- STORE_WORD_WRITE (03 R80, R81, R83). -/
def storeWordWrite (n : Node) (t : TileIx) (store : BitVec 2) (bcast raw : Bool) (addr : BitVec 13) (s : Block) : Block :=
  storeStart s n t 2 store.toNat bcast raw addr.toNat

/-- STORE_VERIFY (03 R82, R83). -/
def storeVerify (n : Node) (t : TileIx) (bcast : Bool) (s : Block) : Block :=
  storeStart s n t 3 (fget s n F.NEWT_STORE_CTRL_STORE t) bcast (fbit s n F.NEWT_STORE_CTRL_RAW t)
    (fget s n F.NEWT_STORE_CTRL_ADDR t)

/-- The four data registers of the store path. -/
def storeData (s : Block) (n t : Nat) : Nat :=
  (List.range 4).foldl (fun v k => v + (rget s n .NEWT_STORE_DATA (ix k t)).toNat * 2 ^ (32 * k)) 0

def putStoreData (s : Block) (n t v : Nat) : Block :=
  (List.range 4).foldl (fun s k => rput s n .NEWT_STORE_DATA (ix k t) (BitVec.ofNat 32 (v / 2 ^ (32 * k)))) s

/-- The bytes of a tile's stores in the order of R82. -/
def storeBytes (s : Block) (tk : Nat) : List Nat :=
  ((List.range 8192).flatMap fun a => bytesLE 3 (storeGet s tk 0 a % 2 ^ 24))
    ++ ((List.range 2048).flatMap fun a => bytesLE 16 (storeGet s tk 1 a % 2 ^ 128))
    ++ ((List.range 512).flatMap fun a => bytesLE 2 (storeGet s tk 2 a % 2 ^ 16))

/-- A tile verifies its stores (03 R82). -/
def verifyTile (s : Block) (tk : Nat) : Block :=
  rput s (tk / 1024) .NEWT_STORE_CRC (tk % 1024) (BitVec.ofNat 32 (crc32 (storeBytes s tk)))

/-- A register-path write to the word that NEWT_STORE_ERR names clears STORE_BAD (03 R89). -/
def clearBad (s : Block) (tk store addr : Nat) : Block :=
  let n := tk / 1024
  let t := tk % 1024
  if fget s n F.NEWT_STORE_ERR_STORE t = store && fget s n F.NEWT_STORE_ERR_ADDR t = addr
      && fbit s n F.NEWT_STORE_ERR_VALID t then fput s n F.NEWT_STORE_ECC_STORE_BAD t 0
  else s

/-- The word a write stores: the data registers, with the check bits given or fresh ones. -/
def storeWriteWord (s : Block) (n t : Nat) (op : StoreOp) : Nat :=
  let c := storeCode op.store
  let d := storeData s n t % 2 ^ c.k
  if op.raw then d + 2 ^ c.k * (fget s n F.NEWT_STORE_CHECK_CHECK t % 2 ^ (c.h + 1)) else freshWord c d

/-- STORE_OP_DONE (03 R81): the operation is carried out and DONE is set. NEWT_STORE_DATA and NEWT_STORE_CHECK are taken as they
stand now, not as they stood at the CMD write (DESIGN CHOICE, log 62). -/
def storeOpDone (n : Node) (t : TileIx) (s : Block) : Block :=
  let tk := tkey n t
  match (tile s tk).storeOp with
  | none => s
  | some op =>
    let s := putTile s tk { tile s tk with storeOp := none }
    let s := fput (fput s n F.NEWT_STORE_STATUS_BUSY t 0) n F.NEWT_STORE_STATUS_DONE t 1
    if op.refused then
      (if op.bcast then (List.range 1024) else [t.val]).foldl (fun s t => fput s n F.NEWT_STORE_STATUS_REFUSED t 1) s
    else if op.cmd = 1 then
      let w := storeGet s tk op.store op.addr
      let c := storeCode op.store
      if op.raw then fput (putStoreData s n t (w % 2 ^ c.k)) n F.NEWT_STORE_CHECK_CHECK t (w / 2 ^ c.k)
      else
        let d := decodeStored c w
        let s := putStoreData s n t d.data
        let s := fput s n F.NEWT_STORE_STATUS_CE t (match d.found with
          | .fixed _ => 1
          | _ => 0)
        fput s n F.NEWT_STORE_STATUS_UE t (match d.found with
          | .bad => 1
          | _ => 0)
    else if op.cmd = 2 then
      let w := storeWriteWord s n t op
      if op.bcast then
        let s := storePutAll s n op.store op.addr w
        let s := (nodeTiles n).foldl (fun s tk => clearBad s tk op.store op.addr) s
        if op.store = 2 then
          { s with
            dispCopy := mput (fun _ => none) s.dispCopy (n * 512 + op.addr)
              (some (w.testBit 15, bitsOf w 14 13)) }
        else s
      else clearBad (storePut s tk op.store op.addr w) tk op.store op.addr
    else if op.bcast then (nodeTiles n).foldl verifyTile s
    else verifyTile s tk

end Sys2Proof.Machine
end

