-- ==== Sys2Proof/Machine/Power.lean ====
section
/-! DEFINITION. Sys2Proof/Machine/Power.lean: island clocks and sag, throttling, temperature and rails, the power ladder, and the
BMC target (18 R398-R410, R416-R418; 20 R435-R441). -/

namespace Sys2Proof.Machine

/-! ### Island clocks (18 R398, R399) -/

/-- Islands of a module: 0-1,023 tiles, 1,024-1,039 ACUs, 1,040-1,087 routers, 1,088-1,095 Gecko regions (01 R10). -/
def islandKey (n i : Nat) : Nat := n * 2048 + i
def island (s : Block) (n i : Nat) : IslandSt := mget (fun _ => {}) s.islands (islandKey n i)
def putIsland (s : Block) (n i : Nat) (x : IslandSt) : Block :=
  { s with islands := mput (fun _ => {}) s.islands (islandKey n i) x }

/-- The programmed rate of an island, in kHz (18 R398). -/
def islandRate (s : Block) (n i : Nat) : Nat :=
  if i < 1024 then fget s n F.GOV_CLK_TILE_MHZ * 1000
  else if i < 1040 then fget s n F.GOV_CLK_ACU_MHZ * 1000
  else if i < 1088 then 2000000
  else fget s n F.GKO_REGION_STATUS_FREQ_MHZ (ix (i - 1088)) * 1000

/-- The lowest rate a stretch leaves it (18 R399). -/
def islandFloor (s : Block) (n i : Nat) : Nat :=
  if i < 1024 then 750000
  else if i < 1040 then 600000
  else if i < 1088 then 1000000
  else islandRate s n i / 2

/-- The rate it runs at: the programmed period times 1 + k ÷ 8, not below the floor (18 R399). -/
def islandNow (s : Block) (n i : Nat) : Nat := max (islandFloor s n i) (islandRate s n i * 8 / (8 + (island s n i).k))

/-- GOV_STATE.CFG_REJECT. -/
def govReject (s : Block) (n : Nat) : Block := fset s n F.GOV_STATE_CFG_REJECT 1

/-- One field of a write that has a legal range (01 R7). -/
def rangeWrite (s : Block) (n : Nat) (f : Fld) (v lo hi : Nat) : Block :=
  if lo ≤ v && v ≤ hi then fset s n f v else govReject s n

/-- GOV_CLK_WRITE (18 R398). -/
def govClkWrite (n : Node) (w : Word) (s : Block) : Block :=
  rangeWrite (rangeWrite s n F.GOV_CLK_TILE_MHZ (wbits w 31 16) 750 1500) n F.GOV_CLK_ACU_MHZ (wbits w 15 0) 600 1200

/-- The rate of an island's clock is about to change: what a region's release has done is set down (12 R291). -/
def foldIsland (s : Block) (n i : Nat) : Block := if i < 1088 then s else foldRelease s n (i - 1088)

/-- The step k of a drop of `d` mV with threshold `t` (18 R399). -/
def sagStep (d t : Nat) : Nat := if d < t then 0 else min 8 (1 + 8 * (d - t) / t)

/-- SAG_STRETCH (18 R399): the drop of an island's supply reaches `d` mV; below the threshold, the stretch begins to fall 20 ns
later. -/
def sagStretch (n : Node) (i : Fin 1096) (d : BitVec 10) (s : Block) : Block :=
  let k := sagStep d.toNat (fget s n F.GOV_SAG_SAG_MV)
  let x := island s n i
  if pState s n ≠ 0 then s
  else if k = 0 then
    (if x.k = 0 || x.due.isSome then s else putIsland s n i { x with due := some (s.now + 20 * 2 ^ 16) })
  else putIsland (foldIsland s n i) n i { k := max x.k k, since := if x.k = 0 then s.now else x.since, due := none }

/-- Eight cycles of an island, in units of 2^-16 ns. -/
def eightCycles (s : Block) (n i : Nat) : Nat := 8 * 1000000 * 2 ^ 16 / islandNow s n i

/-- Some island of a compute die has been stretched without a break for SUSTAIN_US (18 R400). -/
def sustained (s : Block) (n d : Nat) : Bool :=
  s.islands.any fun p =>
    p.1 / 2048 == n && decide (p.1 % 2048 < 1024) && dieOf (p.1 % 2048) == d && decide (0 < p.2.k)
      && decide (p.2.since + fget s n F.GOV_SAG_SUSTAIN_US * 1000 * 2 ^ 16 ≤ s.now)

/-- Set a die's level for sag. -/
def putSagLevel (s : Block) (n d v : Nat) : Block :=
  let x := pow s n
  putPow s n { x with dieLvl := mput (fun _ => 0) x.dieLvl d v, dieStep := mput (fun _ => 0) x.dieStep d s.now }

/-- SAG_RECOVER (18 R399): 20 ns below the threshold, then every 8 cycles, one step back. -/
def sagRecover (n : Node) (i : Fin 1096) (s : Block) : Block :=
  let x := island s n i
  match x.due with
  | none => s
  | some due =>
    let s := atTime s due
    let was := decide (i.val < 1024) && sustained s n (dieOf i)
    let s := putIsland (foldIsland s n i) n i (if x.k ≤ 1 then {} else { x with k := x.k - 1, due := some (s.now + eightCycles s n i) })
    if was && !sustained s n (dieOf i) then putSagLevel s n (dieOf i) (sagLevel s n (dieOf i)) else s

/-- SAG_SUSTAINED (18 R400): an island of die `d` has been stretched for SUSTAIN_US; the first rise from level 0. -/
def sagSustained (n : Node) (d : Fin 4) (s : Block) : Block :=
  if inRun s n && sustained s n d && sagLevel s n d = 0 then raise (putSagLevel s n d 1) n SRC.GOV_SAG 0 0 else s

/-- THROTTLE_STEP (18 R400): the level of a die rises 10 µs after its last step while a sustained sag persists, and falls 100 µs
after it otherwise. -/
def throttleStep (n : Node) (d : Fin 4) (s : Block) : Block :=
  let l := sagLevel s n d
  let last := mget (fun _ => 0) (pow s n).dieStep d
  if l = 0 then s
  else if sustained s n d then putSagLevel (atTime s (last + 10000 * 2 ^ 16)) n d (min 7 (l + 1))
  else putSagLevel (atTime s (last + 100000 * 2 ^ 16)) n d (l - 1)

/-- POWER_SAMPLE (18 R401): the measured power, in units of 0.1 W. -/
def powerSample (n : Node) (dw : Half) (s : Block) : Block :=
  let s := fset s n F.GOV_MONITOR_POWER_DW dw.toNat
  let cap := fget s n F.GOV_CAP_CAP_W
  let x := pow s n
  if 98 * cap < 10 * dw.toNat then
    let s := putPow s n { x with capLvl := min 7 (x.capLvl + 1), capStep := s.now }
    if x.capLvl = 0 then raise s n SRC.GOV_POWER_CAP 0 0 else s
  else if 10 * dw.toNat ≤ 93 * cap && decide (0 < x.capLvl) && decide (x.capStep + 100000 * 2 ^ 16 ≤ s.now) then
    putPow s n { x with capLvl := x.capLvl - 1, capStep := s.now }
  else s

/-! ### Leaving Run (18 R405, R406) -/

/-- MOVING. -/
def setMoving (s : Block) (n : Nat) (b : Bool) : Block := fset s n F.GOV_STATE_MOVING (b2n b)

/-- A request for state `t` is taken on one node: every output is muted, and the entry begins (18 R405, R406). -/
def startEntry (s : Block) (n t : Nat) : Block :=
  let x := pow s n
  if x.off then s
  else if x.exit.isSome then putPow s n { x with after := some t }
  else match x.entry with
    | some e => putPow s n { x with entry := some (max e t) }
    | none =>
      if t ≤ pState s n then s
      else setMoving (putPow (muteAll s n mcPower) n { x with entry := some t }) n true

/-- The nodes that a request names (18 R409). -/
def namedNodes (s : Block) (all : Bool) (n : Nat) : List Nat := if all then s.nodeTab.map (·.node) else [n]

/-- A gang that the node drives is not OFF. -/
def gangsOn (s : Block) (n : Nat) : Bool := (List.range 16).any fun g => fget s n F.MILL_GANG_STATUS_STATE g != 0

/-- A command is for a node: the one its packet names; that of its accesses, as its NODESEL stood at its taking; or every node of the
system (14 R336, R341). -/
def CmdFl.isFor (n : Nat) (c : CmdFl) : Bool :=
  if c.op = 0x0103 || c.op = 0x0104 || c.op = 0x0601 then n == c.sels.headD 0
  else (c.op == 0x0501 && c.p 0 % 4 == 3) || (c.op == 0x0800 && (c.p 0).testBit 8) || n == c.node

/-- The conditions that make a request for state `t` end with BUSY (14 R341, R321); `self` is the command that makes it. -/
def powerBusy (s : Block) (ns : List Nat) (t : Nat) (self : Option (Nat × Nat)) : Bool :=
  (decide (1 < t) && ns.any (gangsOn s))
    || (decide (1 < t) && s.flight.any fun c => ns.any (c.isFor ·) && self != some (c.q, c.cid))
    || ((t == 2 || t == 3) && ns.contains 0 && !(pow s 0).aspm)

/-- A request for a secondary: for Rest, the next commit removes it from the node table first (15 R357). -/
def secondaryGo (t : Nat) (s : Block) (n : Nat) : Block :=
  if t = 4 && nodePresent s n && pState s n ≠ 4 then
    startEntry (leaveTable (putPow s n { pow s n with leaving := true }) n) n t
  else startEntry s n t

/-- The primary's turn comes once every other node of the table is as far down as the request has it (18 R409). -/
def primaryLast (s : Block) : Block :=
  match (pow s 0).waitAll with
  | some t =>
    if (s.nodeTab.all fun e => e.node == 0 || decide (t ≤ pState s e.node) && (pow s e.node).entry.isNone)
        && !(List.range 64).any fun m => (pow s m).leaving then
      startEntry (putPow s 0 { pow s 0 with waitAll := none }) 0 t
    else s
  | none => s

/-- A request that is not refused: the secondaries go down first, the primary last (18 R409). -/
def powerGo (s : Block) (ns : List Nat) (t : Nat) : Block :=
  let others := ns.filter (· != 0)
  let s := others.foldl (secondaryGo t) s
  if ns.contains 0 then
    if others.isEmpty then startEntry s 0 t else primaryLast (putPow s 0 { pow s 0 with waitAll := some t })
  else s

/-! ### Waking (18 R407) -/

/-- Wake sources, the bit numbers of WAKE_SRC: 0 TLP, 1 fault, 2 keep-alive, 3 WAKE_N, 4 BMC, 5 timer. -/
def wkTlp : Nat := 0
def wkFault : Nat := 1
def wkKeep : Nat := 2
def wkPin : Nat := 3
def wkBmc : Nat := 4
def wkTimer : Nat := 5

/-- The table of R407. -/
def wakes (st src : Nat) : Bool :=
  if st = 1 || st = 2 then true else if st = 3 then src != wkFault else st == 4 && decide (3 ≤ src)

/-- A wake source arrives (18 R402, R407, R418; 20 R438). -/
def startExit (s : Block) (n src : Nat) : Block :=
  let x := pow s n
  if x.off || !(fget s n F.GOV_WAKE_CTRL_SRC_MASK).testBit src || x.exit.isSome || x.hot then s
  else match x.entry with
    | some e => if wakes e src then putPow s n { x with wakeAfter := some src } else s
    | none =>
      if !wakes (pState s n) src then s
      else if x.vinLow then putPow s n { x with held := some src }
      else setMoving (putPow s n { x with exit := some src, held := none }) n true

/-! ### What a state keeps (18 R404, R408) -/

/-- Registers that Brake retains: the GOV and TIM registers, and the links with Chorus's role; and those whose reset values are the
firmware's and the boot's, which the firmware that was running keeps (18 R408). -/
def keptInBrake : Reg → Bool
  | .GOV_STATE | .GOV_REQ | .GOV_CLK | .GOV_SAG | .GOV_CAP | .GOV_TEMP | .GOV_DOMAIN | .GOV_MONITOR | .GOV_WAKE
  | .GOV_WAKE_CTRL | .TIM_CTRL | .TIM_STATUS | .TIM_NOW_LO | .TIM_NOW_HI | .TIM_NOW_FRAC | .TIM_SET | .TIM_PPS_OFFSET
  | .TIM_HOLD | .SPAN_LINK_CTRL | .SPAN_LINK_STATUS | .SPAN_LINK_ERR | .SPAN_LINK_TIME | .SPAN_STATUS | .CHR_CTRL
  | .CHR_STATUS | .CHR_STAGED | .CMD_STATUS | .CMD_FW_VERSION | .NVS_STATUS => true
  | _ => false

/-- Registers that Rest retains: those of the wake logic and of the timebase's holdover. -/
def keptInRest : Reg → Bool
  | .GOV_STATE | .GOV_WAKE | .GOV_WAKE_CTRL | .TIM_HOLD | .CMD_STATUS | .CMD_FW_VERSION | .NVS_STATUS => true
  | _ => false

/-- Every register of a node but those kept takes its reset value. -/
def wipeRegs (s : Block) (n : Nat) (keep : Reg → Bool) : Block :=
  { s with regs := s.regs.filter fun p =>
      p.1 / 2 ^ 25 / 256 != n || (match keyReg p.1 with
        | some r => keep r
        | none => false) }

/-- The array, Millrace and the ACUs of a node lose their state, and the inspections of its own contexts; one that another module's
context has in progress on its tiles is answered by INSPECTION_DONE (02 R55, R450). -/
def wipeArray (s : Block) (n : Nat) : Block :=
  let s := clearPlanes s n
  { s with
    stores := mdrop s.stores (n * 2 ^ 24) ((n + 1) * 2 ^ 24)
    bstores := mdrop s.bstores (n * 16384) ((n + 1) * 16384)
    dispCopy := mdrop s.dispCopy (n * 512) ((n + 1) * 512)
    tiles := mdrop s.tiles (n * 1024) ((n + 1) * 1024)
    gangs := mdrop s.gangs (n * 16) ((n + 1) * 16)
    insps := s.insps.filter fun p => ctxHome p.1 != n
    latches := mdrop s.latches (n * 256) ((n + 1) * 256)
    ports := mdrop s.ports (n * 2 ^ 48) ((n + 1) * 2 ^ 48)
    pendSync := mdrop s.pendSync (n * 1024) ((n + 1) * 1024)
    tasks := mdrop s.tasks (n * 1024) ((n + 1) * 1024)
    acus := mdrop s.acus (n * 16) ((n + 1) * 16)
    lram := mdrop s.lram (n * 2 ^ 21) ((n + 1) * 2 ^ 21)
    islands := mdrop s.islands (n * 2048) ((n + 1) * 2048) }

/-- The memories and streaming units of a node lose their state. -/
def wipeStreams (s : Block) (n : Nat) : Block :=
  { s with
    stg := mdrop s.stg (n * 2 ^ 24) ((n + 1) * 2 ^ 24)
    record := mdrop s.record (n * 2 ^ 34) ((n + 1) * 2 ^ 34)
    stgHeld := s.stgHeld.filter fun h => h.node != n
    trigGone := mdrop s.trigGone (n * 32) ((n + 1) * 32)
    recCursor := mdrop s.recCursor n (n + 1)
    logs := mdrop s.logs n (n + 1)
    drvs := mdrop s.drvs (n * 256) ((n + 1) * 256)
    lanes := mdrop s.lanes (n * 32) ((n + 1) * 32)
    jlinks := mdrop s.jlinks (n * 16) ((n + 1) * 16)
    sysref := mdrop s.sysref n (n + 1)
    chans := mdrop s.chans (n * 16384) ((n + 1) * 16384)
    strms := mdrop s.strms (n * 64) ((n + 1) * 64)
    gkoOut := mdrop s.gkoOut (n * 32) ((n + 1) * 32)
    gkoIn := mdrop s.gkoIn (n * 32) ((n + 1) * 32)
    ctlIn := s.ctlIn.filter fun p => p.1 != n
    rawIn := mdrop s.rawIn (n * 32) ((n + 1) * 32)
    rawOut := mdrop s.rawOut (n * 32) ((n + 1) * 32)
    regions := mdrop s.regions (n * 8) ((n + 1) * 8)
    caps := mdrop s.caps n (n + 1)
    loads := mdrop s.loads n (n + 1)
    contAt := mdrop s.contAt (n * 1024) ((n + 1) * 1024) }

/-- The collector, Weir, the networks and the command interface of a node lose their state. -/
def wipeControl (s : Block) (n : Nat) : Block :=
  let mine := fun (p : Nat × Word × Word) => keyNode p.1 == n
  let s := { s with
    events := s.events.filter fun e => e.node != n
    fsrcs := mdrop s.fsrcs (n * 256) ((n + 1) * 256)
    fltRing := mdrop s.fltRing n (n + 1)
    quiets := mdrop s.quiets n (n + 1)
    shadow := s.shadow.filter fun p => !mine p
    sealedRwl := s.sealedRwl.filter fun p => !mine p
    shadowLate := s.shadowLate.filter fun p => !mine p
    weirs := mdrop s.weirs n (n + 1)
    pubReady := mdrop s.pubReady (n * 32) ((n + 1) * 32)
    cmdSets := s.cmdSets.filter fun c => c.node != n
    cmdSealed := s.cmdSealed.filter fun c => c.node != n
    snaps := s.snaps.filter fun x => x.node != n
    outReqs := s.outReqs.filter fun r => r.node != n
    heldReqs := s.heldReqs.filter fun r => r.node != n
    routers := mdrop s.routers (n * 64) ((n + 1) * 64)
    sels := mdrop (mdrop s.sels ((16 + n * 16) * 16) ((16 + n * 16 + 16) * 16)) ((1040 + n * 8) * 16) ((1040 + n * 8 + 8) * 16) }
  if n = 0 then
    { s with
      flight := []
      doneCids := []
      phases := []
      lastQueue := 15
      sels := mdrop s.sels 0 256
      unmasked := []
      pba := []
      msixTab := []
      commit := none
      heldBounds := [] }
  else s

/-- Everything but the MRAM, the Governor, time and the links. -/
def wipeNode (s : Block) (n : Nat) (keep : Reg → Bool) : Block :=
  wipeRegs (wipeControl (wipeStreams (wipeArray s n) n) n) n keep

/-- Chorus's part goes too: the node has left its table, and its links are down. -/
def wipeChorus (s : Block) (n : Nat) : Block :=
  let s := { s with
    links := mdrop s.links (n * 8) ((n + 1) * 8)
    pairQ := mdrop s.pairQ (n * 4) ((n + 1) * 4)
    pcieUp := mdrop s.pcieUp n (n + 1)
    calledAt := mdrop s.calledAt n (n + 1)
    unlockAt := mdrop s.unlockAt n (n + 1) }
  if n = 0 then
    { s with
      chrTab := { mods := [{ node := 0 }] }
      nodeTab := [⟨0, 0, 0⟩]
      tabNext := none
      chrWaiting := []
      posHeld := []
      fenced := []
      lostSerials := []
      rescanned := []
      splits := []
      wrapDim := (0, 0)
      tlpQ := []
      d3hot := false }
  else s

/-! ### Entering a state (18 R404, R406) -/

/-- The regions that act. -/
def actingRegions (s : Block) (n : Nat) : List Nat := (List.range 8).filter (regionLive s n)

/-- They are kept for the wake. -/
def putFrozen (s : Block) (n : Nat) (rs : List Nat) : Block :=
  putPow s n { pow s n with frozen := BitVec.ofNat 8 (rs.foldl (fun v r => v + 2 ^ r) 0) }

/-- Every region that acts stops, with its pins at PRMODE (12 R289); one that is REJECTED or FAULTED stays so (12 R290, R294), and a
load goes on at the wake. -/
def stopRegions (s : Block) (n : Nat) : Block :=
  let rs := actingRegions s n
  putFrozen (rs.foldl (fun s r => stopRegion s n r false phHold) s) n rs

/-- Sensor lanes are off, and their links down (18 R404). -/
def lanesOff (s : Block) (n : Nat) : Block :=
  (List.range 24).foldl (fun s p =>
    if laneState s n p = lnOff then s else linksDown (setLaneState s n p lnNoSignal) n p) s

/-- The regions whose clocks run freeze in Idle, in the stage of their release that they have reached. -/
def freezeRegions (s : Block) (n : Nat) : Block :=
  let rs := (actingRegions s n).filter fun r => rgPhase s n r != phFrozen
  let s := rs.foldl (fun s r =>
    let x := region s n r
    freezeRegion (putRegion s n r { x with ffs := if rgPhase s n r = phRun then none else x.ffs }) n r) s
  putFrozen s n rs

/-- The latest record of the black-box history. -/
def nvsOf (s : Block) (n : Nat) : NvsSt := mget (fun _ => {}) s.nvs n
def putNvs (s : Block) (n : Nat) (x : NvsSt) : Block := { s with nvs := mput (fun _ => {}) s.nvs n x }

def latestBb (s : Block) (n : Nat) : List (BitVec 8) :=
  match (nvsOf s n).bb.reverse.find? (·.ok) with
  | some e => e.bytes.take 32
  | none => []

/-- The domains that go down for state `t`: all, but for the Span links', which keep up in Furl and Brake (18 R404). -/
def domsDown (t : Nat) : List Nat := if t < 2 then [] else if t = 4 then [0, 1, 2, 3, 4, 5, 7, 6] else [0, 1, 2, 3, 4, 5, 7]

/-- Their bridges close, and are closed once each has no response left to send (16 R375, 18 R406, step 3). -/
def closingDomains (s : Block) (n t : Nat) : Block :=
  (domsDown t).foldl (fun s d => if bridgeOf s n d = brOpen then setBridge s n d brClosing else s) s
def closeDomains (s : Block) (n t : Nat) : Block := (domsDown t).foldl (fun s d => setBridge s n d brClosed) s

/-- They open again, with the requests held there, but for domains that are down in Run too (18 R408, R410). -/
def openDomains (s : Block) (n : Nat) : Block :=
  (domsDown 2).foldl (fun s d => if domDown s n d then s else wakeDomain s n d) s

/-- The endpoint of a module and its configuration space are reset; its link goes down (20 R441). -/
def endpointReset (s : Block) (n : Nat) : Block :=
  let s := { s with pcieUp := mput (fun _ => false) s.pcieUp n false }
  let s := if n = 0 then { s with unmasked := [], pba := [], msixTab := [], d3hot := false } else s
  let d : PowSt := {}
  putPow s n
    { pow s n with
      aspm := false, inL1 := false, perst := false, bar0 := d.bar0, bar2 := d.bar2, mps := d.mps, mrrs := d.mrrs, tag10 := d.tag10,
      aerUnc := d.aerUnc, aerCor := d.aerCor, aerUncMask := d.aerUncMask, aerUncSev := d.aerUncSev, aerCorMask := d.aerCorMask,
      aborts := d.aborts, rate := 0, width := 0 }

/-- Of the timebase Rest keeps the time and the holdover, which begins (18 R404, R415). -/
def restTime (s : Block) (n : Nat) : Block :=
  enterHoldover (putTim s n { tim s n with ppsAt := none, setDue := none, outAt := none }) n

/-- Clocks stop and power is removed (18 R406, step 4). -/
def enterState (s : Block) (n t : Nat) : Block :=
  let s := match t with
    | 1 => freezeRegions s n
    | 2 => closeDomains (lanesOff (stopRegions s n) n) n t
    | 3 => wipeNode (closeDomains (stopRegions s n) n t) n keptInBrake
    | _ => restTime (endpointReset (wipeChorus (wipeNode (closeDomains (stopRegions s n) n t) n keptInRest) n) n) n
  let s := if 3 ≤ t then
      fset (fset (fset s n F.CMD_STATUS_READY 0) n F.CMD_STATUS_CFG_REJECT 0) n F.NVS_STATUS_CFG_REJECT 0 else s
  let x := pow s n
  let x := { x with entry := none, leaving := false, bmcRec := if 3 ≤ t then latestBb s n else x.bmcRec }
  let x := if 3 ≤ t then { x with dieLvl := [], dieStep := [], capLvl := 0, frozen := 0 } else x
  let x := if n = 0 && (t = 2 || t = 3) then { x with inL1 := true } else if t = 4 then { x with inL1 := false, aspm := false } else x
  setMoving (fset (putPow s n x) n F.GOV_STATE_STATE t) n false

/-- An ACU has nothing outstanding (18 R406, step 2). -/
def acuQuiet (s : Block) (n a : Nat) : Bool :=
  let x := acu s n a
  x.sb.isEmpty && x.divider.isNone && (List.range 64).all fun k => (task s (taskKey n a k)).fps.isEmpty

/-- Every task of a node that is ON starts draining (08 R202). -/
def drainTasks (s : Block) (n : Nat) : Block :=
  (List.range 1024).foldl (fun s i =>
    if fget s n F.ACU_TASK_CTRL_STATE i = 2 then stopTask s n (i / 64) (i % 64) else s) s

/-- A POWER_STATE that names the primary has its reply to write before the primary's entry goes on (14 R341). -/
def replyFirst (s : Block) (n : Nat) : Bool :=
  n == 0 && !s.d3hot && s.flight.any fun f =>
    f.op == 0x0800 && f.step == 1 && f.result.isNone && (f.node == 0 || (f.p 0).testBit 8) && f.p 0 % 8 != 0

/-- POWER_ENTRY_DONE (18 R406): steps 2 to 4, once every output is MUTED or OFF, the ACUs have drained, and the reactions of a
trip have been made; a secondary that goes to Rest has left the node table (15 R357). -/
def powerEntryDone (n : Node) (s : Block) : Block :=
  match (pow s n).entry with
  | none => primaryLast s
  | some t =>
    let trips := s.events.any fun e => e.node == n.val && (e.src == SRC.GOV_TEMP_TRIP || e.src == SRC.GOV_RAIL_FAULT)
    if !allMuted s n || trips || replyFirst s n || ((pow s n).leaving && nodePresent s n) then s
    else
      let s := if 3 ≤ t then drainTasks s n else s
      if !(List.range 16).all (acuQuiet s n) then s
      else
        let s := closingDomains s n t
        if (domsDown t).any (domOwes s n) then s
        else
          let wake := (pow s n).wakeAfter
          let s := enterState (putPow s n { pow s n with wakeAfter := none }) n t
          primaryLast (match wake with
            | some src => startExit s n src
            | none => s)

/-! ### Reaching Run (18 R408, R409) -/

/-- The regions that Idle froze go on; those that Furl stopped go through the staged release if EN = 1 (18 R404, 12 R291). -/
def thawRegions (s : Block) (n st : Nat) : Block :=
  let fr := (pow s n).frozen
  let s := ((List.range 8).filter (fr.getLsbD ·)).foldl (fun s r =>
    if st = 1 then (if rgPhase s n r = phFrozen then thawRegion s n r else s)
    else if rgPhase s n r = phHold && fbit s n F.GKO_REGION_CTRL_EN (ix r) then releaseRegion s n r
    else s) s
  putFrozen s n []

/-- Every link that is enabled and not on starts to train (15 R346). -/
def startLinks (s : Block) (n : Nat) : Block :=
  (List.range 8).foldl (fun s l =>
    if fbit s n F.SPAN_LINK_CTRL_EN l then spanLinkEnWrite (Fin.ofNat 64 n) (Fin.ofNat 8 l) true s else s) s

/-- The primary sends a keep-alive wake to every node below Run (18 R409). -/
def sendKeepAlive (s : Block) : Block :=
  s.nodeTab.foldl (fun s e => if e.node = 0 then s else putPow s e.node { pow s e.node with keepAlive := true }) s

/-- POWER_EXIT_DONE (18 R408).  From Rest a secondary calls as UNATTACHED, its endpoint still in Detect.Quiet (14 R323, 15 R353). -/
def powerExitDone (n : Node) (s : Block) : Block :=
  match (pow s n).exit with
  | none => s
  | some src =>
    if (pow s n).vinLow then s
    else
    let st := pState s n
    let after := (pow s n).after
    let s := setMoving (fset (fset s n F.GOV_STATE_STATE 0) n F.GOV_STATE_WAKE_SRC (2 ^ src)) n false
    let s := putPow s n { pow s n with exit := none, after := none, inL1 := false, reload := (pow s n).reload || decide (3 ≤ st) }
    let s := if st = 2 then openDomains s n else s
    let s := if st = 1 || st = 2 then thawRegions s n st else clearRecord (clearStaging s n) n
    let s := if st = 4 then startLinks s n else s
    let s := if st = 4 then
        (if n.val = 0 then fset (setRole s 0 roPrimary) 0 F.WEIR_STATUS_PRIMARY 1 else callAll (setRole s n roUnattached) n)
      else if st = 3 && n.val = 0 then fset s 0 F.WEIR_STATUS_PRIMARY 1
      else s
    let s := if n.val = 0 && (st = 2 || st = 3) then sendKeepAlive s else s
    let s := if (pow s n).perst then endpointReset s n else s
    match after with
    | some t => startEntry s n t
    | none => s

/-- KEEP_ALIVE_WAKE (18 R409): a keep-alive wake that the primary has sent arrives. -/
def keepAliveWake (n : Node) (s : Block) : Block :=
  if (pow s n).keepAlive then startExit (putPow s n { pow s n with keepAlive := false }) n wkKeep else s

/-- WAKE_N_LOW (18 R407). -/
def wakeNLow (n : Node) (s : Block) : Block := startExit s n wkPin

/-- WAKE_TIMER (18 R407, R418): the module's device time reaches GOV_WAKE below Run or during an entry. -/
def wakeTimer (n : Node) (s : Block) : Block :=
  if fbit s n F.GOV_WAKE_CTRL_TIMER_EN && (decide (pState s n ≠ 0) || (pow s n).entry.isSome) && !(pow s n).off then
    startExit (atDev s n (get64 s n .GOV_WAKE * 2 ^ 16)) n wkTimer
  else s

/-- TLP_WAKE (14 R321): a host TLP reaches the primary. -/
def tlpWake (s : Block) : Block := startExit (putPow s 0 { pow s 0 with inL1 := false }) 0 wkTlp

/-- ASPM_L1_ENTRY (14 R321): the link has been idle for 10 µs; `en` is the ASPM L1 Enable bit of Link Control. -/
def aspmL1Entry (en : Bool) (s : Block) : Block :=
  let x := { pow s 0 with aspm := en }
  putPow s 0 (if en && decide (pState s 0 ≤ 1) && mget (fun _ => false) s.pcieUp 0 then { x with inL1 := true } else x)

/-! ### Requests (18 R405, 14 R322) -/

/-- A request by GOV_REQ or the BMC: false if it is refused. -/
def powerRequest (s : Block) (n t : Nat) (all : Bool) : Bool × Block :=
  let ns := namedNodes s all n
  if powerBusy s ns t none then (false, s) else (true, powerGo s ns t)

/-- GOV_REQ_WRITE (18 R405). -/
def govReqWrite (n : Node) (target : BitVec 3) (all : Bool) (s : Block) : Block :=
  if 5 ≤ target.toNat then govReject s n
  else if target = 0 then s
  else
    let r := powerRequest s n target.toNat all
    if r.1 then r.2 else govReject r.2 n

/-- D3HOT_WRITE (14 R322). -/
def d3hotWrite (s : Block) : Block :=
  let s := { s with d3hot := true }
  if powerBusy s [0] 3 none then govReject (fset s 0 F.GOV_STATE_D3_HELD 1) 0 else powerGo s [0] 3

/-! ### Temperature and rails (18 R402, R403; 20 R435-R439) -/

/-- TEMP_SAMPLE (18 R402): the five dies are read; a compute die reads −128 in Brake and Rest (R417). -/
def tempSample (n : Node) (t0 t1 t2 t3 io : BitVec 8) (s : Block) : Block :=
  let x := pow s n
  if x.off then s
  else
    let cold := decide (3 ≤ pState s n)
    let ts := if cold then [0x80#8, 0x80#8, 0x80#8, 0x80#8, io] else [t0, t1, t2, t3, io]
    let warn : Int := fget s n F.GOV_TEMP_WARN_C
    let hot := ts.any fun t => decide (warn - 10 < t.toInt)
    let s := putPow s n { x with temps := ts, hot := hot }
    if cold then s
    else
      let s := (ts.filter fun t => decide (warn < t.toInt)).foldl (fun s _ => raise s n SRC.GOV_TEMP_HIGH 0 0) s
      let trips := ts.filter fun t => decide (110 < t.toInt)
      let s := trips.foldl (fun s _ => raise s n SRC.GOV_TEMP_TRIP 0 0) s
      if trips.isEmpty then s else startEntry s n 3

/-- The FIO bank that rail 10 + r feeds, as a mask (20 R435). -/
def lowBank (r : Fin 18) : BitVec 8 := if 10 ≤ r.val then BitVec.ofNat 8 (2 ^ (r.val - 10)) else 0

/-- The module's supply gives way while an exit is in progress: the wake source is held (20 R438). -/
def holdExit (s : Block) (n : Nat) : Block :=
  let x := pow s n
  match x.exit with
  | some src => setMoving (putPow s n { x with exit := none, held := some src }) n false
  | none => s

/-- VIN is below 42 V, or PWR_FAIL_N has fallen: one event for the two, whose detail shows both.  How it shows PWR_FAIL_N is not given, so
that part of it is a free value (20 R448; log 2).  `again`: the one came before the other, and its event shows both while it waits. -/
def supplyEvent (s : Block) (n : Nat) (again : Bool) : Block :=
  let x := pow s n
  let r := drawFree s
  let d := if !x.pfail then 8 else if x.vinLow then 8 + 256 * (r.1.toNat / 256) else r.1.toNat
  let s := putPow (if x.pfail then r.2 else s) n { x with supply := d }
  if again then
    { s with events := s.events.map fun e =>
        if e.node = n && e.src = SRC.GOV_RAIL_FAULT && e.detail = x.supply then { e with detail := d } else e }
  else raise s n SRC.GOV_RAIL_FAULT 0 d

/-- RAIL_OUT_OF_RANGE (18 R403, 20 R435, R438, R448): a rail leaves its range, upwards or downwards, or PWR_FAIL_N falls.  The record's
detail is the rail's number. -/
def railOutOfRange (n : Node) (rail : Option (Fin 18 × Bool)) (pwrFail : Bool) (s : Block) : Block :=
  let x := pow s n
  if x.off || (rail.isNone && !pwrFail) then s
  else
    let vin := rail.any fun r => r.1.val == 8 && !r.2
    let supply := vin || pwrFail
    let s := putPow s n
      { x with
        vinLow := x.vinLow || vin
        pfail := x.pfail || pwrFail
        lowIo := x.lowIo ||| (rail.map fun r => lowBank r.1).getD 0
        rail := some (x.rail.getD (nowNs s + 1000000000)) }
    let s := if vin then holdExit s n else s
    if 3 ≤ pState s n then s
    else
      let s := match rail with
        | some r => if vin then s else raise s n SRC.GOV_RAIL_FAULT 0 r.1
        | none => s
      if supply then supplyEvent s n (x.vinLow || x.pfail) else s

/-- RAIL_FAULT_TIMEOUT (18 R403): the mute has completed, or 1 s has passed.  `back` gives the banks whose VDDIO is in range again, and in
bit 8 that every rail but VIN is, with PWR_FAIL_N high; a bank that had no supply at power good gets it in the same way (20 R436). -/
def railFaultTimeout (n : Node) (back : BitVec 9) (s : Block) : Block :=
  let x := pow s n
  let all := back.getLsbD 8
  let s := putPow s n { x with lowIo := x.lowIo &&& ~~~back.setWidth 8, pfail := x.pfail && !all }
  match x.rail with
  | none => s
  | some due =>
    if !allMuted s n && decide (nowNs s < due) then s
    else
      let s := putPow s n { pow s n with rail := none }
      if (all && !x.vinLow) || x.vinLow && pState s n = 4 then s else startEntry s n 4

/-- VIN_RETURN (20 R438): VIN is in range again, and a wake source held goes on. -/
def vinReturn (n : Node) (s : Block) : Block :=
  let x := pow s n
  if !x.vinLow then s
  else
    let s := putPow s n { x with vinLow := false, held := none }
    match x.held with
    | some src => startExit s n src
    | none => s

/-! ### The BMC target (18 R416, R417) -/

/-- One byte written at an offset of the BMC space: the request at 0x05. -/
def bmcByteWrite (s : Block) (n off : Nat) (b : BitVec 8) : Block :=
  if off ≠ 5 then s
  else if 5 ≤ b.toNat then putPow s n { pow s n with bmcStatus := 0x11 }
  else if b = 0 then startExit (putPow s n { pow s n with bmcStatus := 0 }) n wkBmc
  else
    let r := powerRequest s n b.toNat false
    putPow r.2 n { pow r.2 n with bmcStatus := if r.1 then 0x00 else 0x13 }

/-- BMC_WRITE (18 R416): the first byte sets the pointer, and each further byte is written at it. -/
def bmcWrite (n : Node) (addr : BitVec 2) (ptr : BitVec 8) (bytes : List (BitVec 8)) (s : Block) : Block :=
  let x := pow s n
  if x.off || x.bmcAddr ≠ addr then s
  else
    bytes.foldl (fun s b =>
      let p := (pow s n).bmcPtr
      let s := bmcByteWrite s n p.toNat b
      putPow s n { pow s n with bmcPtr := p + 1 }) (putPow s n { x with bmcPtr := ptr })

/-- The hottest die (18 GOV_MONITOR). -/
def tempMax (s : Block) (n : Nat) : BitVec 8 :=
  (pow s n).temps.foldl (fun m t => if m.toInt < t.toInt then t else m) ((pow s n).temps.headD 0)

/-- GOV_MONITOR.THROTTLE. -/
def throttleMax (s : Block) (n : Nat) : Nat := (List.range 4).foldl (fun m d => max m (dieLevel s n d)) 0

end Sys2Proof.Machine
end

