-- ==== Sys2Proof/Machine/NocBase.lean ====
section
/-! DEFINITION. Sys2Proof/Machine/NocBase.lean: isolation, router tables and swaps, and the domains powered down in Run
(16 R371-R376, 18 R410). -/

namespace Sys2Proof.Machine

/-- NOC_STATUS.CFG_REJECT. -/
def nocReject (s : Block) (n : Nat) : Block := fset s n F.NOC_STATUS_CFG_REJECT 1

/-! ### Isolation (16 R371) -/

/-- NOC_ISOLATE_WRITE (16 R371): while MAINT = 0, a 1 leaves its bit unchanged and is refused; a 0 always ends an isolation. -/
def nocIsolateWrite (n : Node) (k : Fin 8) (w : Word) (s : Block) : Block :=
  let old := rget s n .NOC_ISOLATE (ix k)
  if fbit s n F.NOC_CTRL_MAINT then rput s n .NOC_ISOLATE (ix k) w
  else
    let s := rput s n .NOC_ISOLATE (ix k) (old &&& w)
    if w = 0 then s else nocReject s n

/-! ### Router tables (16 R373, R374) -/

/-- A write of NOC_RTR_TDATA: the STANDBY entry that TADDR names; 8 to 14 are reserved. -/
def tdataWrite (s : Block) (n r port : Nat) : Block :=
  if 8 ≤ port && port ≠ 15 then nocReject s n
  else
    let ep := fget s n F.NOC_RTR_TADDR_ENTRY (ix r)
    let x := router s n r
    putRouter s n r (if activeBank s n r = 0 then { x with bank1 := mput (defaultPort r) x.bank1 ep port }
      else { x with bank0 := mput (defaultPort r) x.bank0 ep port })

/-- ROUTER_SWAP (16 R373): SWAP = 1. -/
def routerSwap (n : Node) (r : Fin 48) (s : Block) : Block :=
  if rtrPhase s n r = 0 then
    fput (putRouter s n r { router s n r with swapAt := s.now, stalled := false }) n F.NOC_RTR_CTRL_PHASE (ix r) 1
  else nocReject s n

/-- SWAP_DRAIN_DONE (16 R373, steps 2 to 4): no flit is left inside; the banks are exchanged, the feeders reopen, and the requests that
waited at bridges in HOLD go on (R368, R377). -/
def swapDrainDone (n : Node) (r : Fin 48) (s : Block) : Block :=
  if rtrPhase s n r = 1 && (router s n r).inputs.isEmpty then
    let s := fput (fput s n F.NOC_RTR_CTRL_BANK (ix r) (1 - activeBank s n r)) n F.NOC_RTR_CTRL_PHASE (ix r) 0
    (List.range 8).foldl (fun s d => if bridgeOf s n d = brOpen && !bridgeHold s n d then releaseReqs s n d else s) s
  else s

/-- NOC_RECONF_STALL (16 R373): step 2 has not ended within 10 µs. -/
def nocReconfStall (n : Node) (r : Fin 48) (s : Block) : Block :=
  let x := router s n r
  if rtrPhase s n r = 1 && !x.stalled then
    let s := putRouter (atTime s (x.swapAt + 10000 * 2 ^ 16)) n r { x with stalled := true }
    raise (fput s n F.NOC_RTR_CTRL_STALL (ix r) 1) n SRC.NOC_RECONF_STALL 0 0
  else s

/-! ### Domains (16 R375, 18 R410) -/

/-- Set bit d of GOV_DOMAIN.DOWN. -/
def setDomDown (s : Block) (n d : Nat) (b : Bool) : Block :=
  let w := rget s n .GOV_DOMAIN
  let bit : Word := BitVec.ofNat 32 (2 ^ d)
  rput s n .GOV_DOMAIN 0 (if b then w ||| bit else w &&& ~~~bit)

/-- One bit of a write of DOWN; the Span links go down only while the node table holds one node. -/
def domWrite (w : BitVec 4) (n : Nat) (s : Block) (d : Nat) : Block :=
  if w.getLsbD (d - 4) then
    if d = 6 && decide (s.nodeTab.length ≠ 1) then govReject (setDomDown s n d false) n
    else
      let s := setDomDown s n d true
      if bridgeOf s n d = brOpen then setBridge s n d brClosing
      else if s.heldReqs.any fun h => h.node == n && h.dom == d then
        putPow s n { pow s n with downAgain := (pow s n).downAgain ||| BitVec.ofNat 8 (2 ^ d) }
      else s
  else
    let s := setDomDown s n d false
    if bridgeOf s n d = brClosing then setBridge s n d brOpen else s

/-- DOMAIN_DOWN_WRITE (18 R410): bits 7 to 4 of GOV_DOMAIN. -/
def domainDownWrite (n : Node) (w : BitVec 4) (s : Block) : Block := [4, 5, 6, 7].foldl (domWrite w n) s

/-- BRIDGE_CLOSED (16 R375): every response owed has left; the domain powers down. The lanes or links of a SerDes go off. -/
def bridgeClosed (n : Node) (d : Fin 8) (s : Block) : Block :=
  if bridgeOf s n d = brClosing && !domOwes s n d then
    let s := setBridge s n d brClosed
    if d.val = 5 then lanesOff s n
    else if d.val = 6 then (List.range 8).foldl (fun s l => if lstate s n l = lsOff then s else setLstate s n l lsDown) s
    else s
  else s

end Sys2Proof.Machine
end

