-- ==== Sys2Proof/Machine/Fault.lean ====
section
/-! DEFINITION. Sys2Proof/Machine/Fault.lean: the fault collector: levels, records, reactions, block resets and quiet windows,
timers and acknowledgement (17 R378-R391), and the black-box queue (19 R429). -/

namespace Sys2Proof.Machine

/-- A number as an index below `m`. -/
def finOf (k m : Nat) (h : 0 < m) : Fin m := ⟨k % m, Nat.mod_lt k h⟩

/-! ### Sources -/

def fsrc (s : Block) (n src : Nat) : FSrc := mget (fun _ => {}) s.fsrcs (n * 256 + src)
def putFsrc (s : Block) (n src : Nat) (x : FSrc) : Block := { s with fsrcs := mput (fun _ => {}) s.fsrcs (n * 256 + src) x }

/-- A field of FLT_SRC_CFG. -/
def cfgF (s : Block) (n src : Nat) (f : Fld) : Nat := fget s n f src
def srcCount (s : Block) (n src : Nat) : Nat := fget s n F.FLT_SRC_STATUS_COUNT src

/-- The highest level of a list of open faults; 0 for none. -/
def topLevel (os : List OpenF) : Nat := os.foldl (fun m o => max m o.level) 0

/-- The sources of a module that hold an open fault, with their faults. -/
def openSrcs (s : Block) (n : Nat) : List (Nat × List OpenF) :=
  s.fsrcs.filterMap fun p => if p.1 / 256 = n && !p.2.opens.isEmpty then some (p.1 % 256, p.2.opens) else none

/-- The highest open level of a module (17 FLT_STATUS.HIGHEST). -/
def highestOpen (s : Block) (n : Nat) : Nat := (openSrcs s n).foldl (fun m p => max m (topLevel p.2)) 0

/-- An L4 fault is open on the module (17 R388). -/
def l4Open (s : Block) (n : Nat) : Bool := decide (4 ≤ highestOpen s n)

/-- The fault collector runs: from step 5 of the boot on, which recovery does not reach (19 R427, R428). -/
def collects (s : Block) (n : Nat) : Bool := (pow s n).started && !fbit s n F.NVS_STATUS_RECOVERY

/-- FAULT_N is driven low (17 R389): from the start of reset until the collector runs, and while a fault at PIN_LEVEL or higher is open. -/
def faultNLow (s : Block) (n : Nat) : Bool :=
  let x := pow s n
  if x.off then x.inReset
  else
    x.resetting || !collects s n || (decide (fget s n F.FLT_CTRL_PIN_LEVEL ≤ highestOpen s n) && highestOpen s n != 0)

/-- Some source of the class holds an open fault (17 R384). -/
def classOpen (s : Block) (n cls : Nat) : Bool := (openSrcs s n).any fun p => cfgF s n p.1 F.FLT_SRC_CFG_CLASS == cls

/-! ### Quiet windows (17 R390) -/

def quiets (s : Block) (n : Nat) : List Quiet := mget (fun _ => []) s.quiets n
def putQuiets (s : Block) (n : Nat) (qs : List Quiet) : Block := { s with quiets := mput (fun _ => []) s.quiets n qs }

/-- The JESD204C links that a record names: the link itself for SP_LINK_ALIGN, the enabled links that have the lane for SP_LINK_DOWN. -/
def quietLinks (s : Block) (n src inst : Nat) : List Nat :=
  if src = SRC.SP_LINK_ALIGN then [inst]
  else if src = SRC.SP_LINK_DOWN && rxMode s n inst = mJesd then
    (List.range 16).filter fun k => jlinkOn s n k && (jlanes s n k).contains inst
  else []

/-- The lanes that a reset of a sensor source restarts. -/
def quietLanes (s : Block) (n src inst : Nat) : List Nat :=
  match quietLinks s n src inst with
  | [] => if src = SRC.SP_LINK_DOWN then [inst] else []
  | ks => ks.flatMap (jlanes s n)

/-- A sink (11 DRV_CFG) belongs to the links or to the lanes. -/
def quietSink (s : Block) (n src inst kind sink : Nat) : Bool :=
  (kind == 1 && (quietLinks s n src inst).contains sink) || (kind == 2 && (quietLanes s n src inst).contains sink)

/-- A stream holds channels of the link or the lanes. -/
def quietStream (s : Block) (n src inst t : Nat) : Bool :=
  (strmChans s n t).any fun c =>
    let w := (chan s n c).src
    quietSink s n src inst (wbits w 31 29) (wbits w 28 24)

/-- The detectors that a window tags (17 R390). -/
def windowCovers (s : Block) (n : Nat) (w : Quiet) (e : FaultEv) : Bool :=
  if w.src = SRC.SPAN_LINK_DOWN then
    (e.src == SRC.SPAN_LINK_DOWN && pairOf e.inst == pairOf w.inst) || e.src == SRC.SPAN_TIME_UNLOCK
      || (e.src == SRC.NOC_TIMEOUT && e.via == pairOf w.inst)
  else
    (e.src == SRC.SP_LINK_DOWN && (quietLanes s n w.src w.inst).contains e.inst)
      || (e.src == SRC.SP_LINK_ALIGN && (quietLinks s n w.src w.inst).contains e.inst)
      || ((e.src == SRC.CH_SAMPLE_LATE || e.src == SRC.CH_SAMPLE_LOST) && quietStream s n w.src w.inst e.inst)
      || ((e.src == SRC.DRV_UNDERRUN || e.src == SRC.DLM_OUTPUT_LATE)
        && quietSink s n w.src w.inst (fget s n F.DRV_CFG_SINKKIND e.inst) (fget s n F.DRV_CFG_SINK e.inst))
      || (decide (SRC.DLM_MISS ≤ e.src) && (List.range 64).any fun t =>
        strmF s n t F.CH_STRM_CTRL_DLMEN == 1 && strmF s n t F.CH_STRM_CTRL_DLM == e.src - SRC.DLM_MISS
          && fget s n F.DLM_CTRL_ARM_SRC (e.src - SRC.DLM_MISS) == 1 && quietStream s n w.src w.inst t)

/-- The event falls in a quiet window that lists its detector. -/
def tagged (s : Block) (e : FaultEv) : Bool :=
  (quiets s e.node).any fun w => decide (nowNs s ≤ w.due) && windowCovers s e.node w e

/-- The block restarts. -/
def restartBlock (s : Block) (n src inst : Nat) : Block :=
  let n64 : Node := finOf n 64 (by decide)
  if src = SRC.SPAN_LINK_DOWN then
    let l := finOf inst 8 (by decide)
    spanLinkEnWrite n64 l true (spanLinkEnWrite n64 l false s)
  else match quietLinks s n src inst with
    | [] => setLaneState s n inst lnLocking
    | ks => ks.foldl (fun s k =>
      let k := finOf k 16 (by decide)
      jlinkEnWrite n64 k true (jlinkEnWrite n64 k false s)) s

/-- An output that sinks to the block may still be playing. -/
def quietBusy (s : Block) (n src inst : Nat) : Bool :=
  (List.range 256).any fun o =>
    quietSink s n src inst (fget s n F.DRV_CFG_SINKKIND o) (fget s n F.DRV_CFG_SINK o)
      && drvState s n o != 0 && drvPlay s n o != pMuted

/-- A window of the source is open for the block: the instance itself, or another lane of its links. -/
def inWindow (s : Block) (n src inst : Nat) (w : Quiet) : Bool :=
  w.src == src && (w.inst == inst || (quietLinks s n src inst).any (quietLinks s n w.src w.inst).contains)

/-- The RESET reaction: the reset starts, and its window opens (17 R390). -/
def blockReset (s : Block) (n src inst : Nat) : Block :=
  let qs := quiets s n
  if qs.any (inWindow s n src inst) then s
  else
    let s := (List.range 256).foldl (fun s o =>
      if quietSink s n src inst (fget s n F.DRV_CFG_SINKKIND o) (fget s n F.DRV_CFG_SINK o) then muteOut s n o mcFault else s) s
    let wait := quietBusy s n src inst
    let s := if wait then s else restartBlock s n src inst
    putQuiets s n (qs ++ [⟨src, inst, nowNs s + 100001000, wait, false⟩])

/-- The block that a window waits for is back in service. -/
def blockBack (s : Block) (n : Nat) (w : Quiet) : Bool :=
  if w.src = SRC.SPAN_LINK_DOWN then lstate s n w.inst == lsUp
  else match quietLinks s n w.src w.inst with
    | [] => laneState s n w.inst == lnUp && fbit s n F.CHR_FE_ADMITTED w.inst
    | ks => ks.all (jlinkIsUp s n)

/-- QUIET_WINDOW_END (17 R390): the reset goes on once its outputs are MUTED; the block is back in service; or the window ends. -/
def quietWindowEnd (n : Node) (src : BitVec 8) (inst : Half) (s : Block) : Block :=
  let qs := quiets s n
  let mine := fun (w : Quiet) => w.src == src.toNat && w.inst == inst.toNat
  let others := qs.filter fun w => !mine w
  match qs.find? mine with
  | none => s
  | some w =>
    if w.waiting then
      if quietBusy s n w.src w.inst then atTime s ((w.due + 1) * 2 ^ 16)
      else putQuiets (restartBlock s n w.src w.inst) n (if nowNs s ≤ w.due then others ++ [{ w with waiting := false }] else others)
    else if blockBack s n w && !w.back then putQuiets s n (others ++ [{ w with back := true, due := min w.due (nowNs s + 1000) }])
    else putQuiets (atTime s ((w.due + 1) * 2 ^ 16)) n others

/-! ### Records (17 R379, R381, R382) -/

/-- The 32 bytes of a record. -/
def recBytes32 (r : FRec) : List (BitVec 8) :=
  leBytes 8 r.seq ++ leBytes 8 r.time ++
    [BitVec.ofNat 8 r.src, BitVec.ofNat 8 r.level, BitVec.ofNat 8 r.base, BitVec.ofNat 8 r.flags, BitVec.ofNat 8 r.node, 0] ++
    leBytes 2 r.inst ++ leBytes 8 r.detail

/-- Place a record in FLT_FIRST or FLT_NEXT. -/
def putRecRegs (s : Block) (n : Nat) (r : Reg) (bs : List (BitVec 8)) : Block :=
  (List.range 8).foldl (fun s k => rput s n r (ix k) (BitVec.ofNat 32 (ofBytes ((bs.drop (4 * k)).take 4)))) s

/-- The module's ring of its latest 256 records; displacing one not returned sets OVERRUN (17 R382). -/
def pushRec (s : Block) (n : Nat) (r : FRec) : Block :=
  let ring := mget (fun _ => []) s.fltRing n
  let put := fun (l : List FRec) => { s with fltRing := mput (fun _ => []) s.fltRing n l }
  if ring.length < 256 then put (ring ++ [r])
  else
    let s1 := put (ring.drop 1 ++ [r])
    match ring with
    | o :: _ =>
      if o.returned then s1
      else
        let was := fbit s1 n F.FLT_RING_OVERRUN
        let s1 := fset s1 n F.FLT_RING_OVERRUN 1
        if was then s1 else raise s1 n SRC.FLT_OVERRUN 0 0
    | [] => s1

/-- A record waits for the black-box history; beyond 64 it is dropped and counted (19 R429). -/
def bbQueue (s : Block) (n : Nat) (r : FRec) : Block :=
  let x := nvsOf s n
  if x.bbWait.length < 64 then putNvs s n { x with bbWait := x.bbWait ++ [recBytes32 r] }
  else fsat s n F.NVS_BB_DROPPED 0

/-- BLACKBOX_WRITE (19 R429): the oldest waiting record is written to the history. -/
def blackboxWrite (n : Node) (s : Block) : Block :=
  let x := nvsOf s n
  match x.bbWait with
  | [] => s
  | b :: rest =>
    let body := b ++ leBytes 4 x.boots
    let e : BbEnt := ⟨x.bbNum, body ++ leBytes 4 (crcBytes body), true⟩
    let bb := x.bb ++ [e]
    putNvs s n { x with bbWait := rest, bbNum := x.bbNum + 1, bb := if 1024 < bb.length then bb.drop 1 else bb }

/-- A loss of power tears the entry that is being written, if one is: whether is a free value (19 R429, R432; log 2). -/
def tearBlackbox (s : Block) (n : Nat) : Block :=
  let x := nvsOf s n
  match x.bbWait with
  | [] => s
  | b :: rest =>
    let d := drawFree s
    if d.1.getLsbD 0 then
      let bb := x.bb ++ [⟨x.bbNum, b ++ leBytes 8 x.boots, false⟩]
      putNvs d.2 n { x with bbWait := rest, bbNum := x.bbNum + 1, bb := if 1024 < bb.length then bb.drop 1 else bb }
    else d.2

/-! ### Timers (17 R383, R385) -/

/-- ms in ns. -/
def msNs : Nat := 1000000

/-- When a timer of `ms` started now is due; none for 0. -/
def dueAfter (s : Block) (ms : Nat) : Option Nat := if ms = 0 then none else some (nowNs s + ms * msNs)

/-- The escalation interval of a level, in ms. -/
def escMs (s : Block) (n src level : Nat) : Nat :=
  if level = 2 then fget s n F.FLT_SRC_ESC_ESC2_MS src else if level = 3 then fget s n F.FLT_SRC_ESC_ESC3_MS src else 0

/-- A fault becomes open; a new highest level starts its timer (17 R385). -/
def openFault (s : Block) (n src : Nat) (o : OpenF) : Block :=
  let x := fsrc s n src
  let x1 := { x with opens := x.opens ++ [o] }
  putFsrc s n src (if topLevel x.opens < o.level then { x1 with escDue := dueAfter s (escMs s n src o.level) } else x1)

/-- A write of LEAK_MS (17 R383). -/
def leakWrite (s : Block) (n src : Nat) (w : Word) : Block :=
  let s := rput s n .FLT_SRC_LEAK src w
  if srcCount s n src = 0 then s else putFsrc s n src { fsrc s n src with leakDue := dueAfter s w.toNat }

/-! ### Reactions (17 R388) -/

/-- A bit of FLT_REACT. -/
def reacts (s : Block) (n level bit : Nat) : Bool := (rget s n .FLT_REACT (ix level)).getLsbD bit

/-- NOTIFY, MUTE with SYSTEM, STOP_GANGS. -/
def levelReactions (s : Block) (n src level : Nat) : Block :=
  let s := if reacts s n level 1 then hostIrq (irqAll s n cFault) n hFault else s
  let s := if reacts s n level 3 then
      (if reacts s n level 4 then (n :: (s.nodeTab.map (·.node)).filter (· != n)) else [n]).foldl (fun s m => muteAll s m mcFault) s
    else s
  if reacts s n level 5 then (List.range 16).foldl (fun s g => faultStop s n g none src) s else s

/-- A record is made, and the reactions of its level follow (17 R379-R382, R388); what FAULT wakes and triggers (18 R407, 10 R236).
`conseq` is CONSEQUENTIAL. -/
def makeRecord (s : Block) (n src inst detail level base flags : Nat) (conseq : Bool) : Block :=
  if !reacts s n level 0 then s
  else
    let seq := get64 s n .FLT_SEQ
    let first := !fbit s n F.FLT_STATUS_FIRST_VALID
    let r : FRec := {
      seq := seq, time := devNs s n, src := src, level := level, base := base,
      flags := flags + 16 * b2n first, node := n, inst := inst % 2 ^ 16, detail := detail % 2 ^ 64 }
    let s := put64 s n .FLT_SEQ 0 0 (seq + 1)
    let s := if first then putRecRegs (fset s n F.FLT_STATUS_FIRST_VALID 1) n .FLT_FIRST (recBytes32 r)
      else putRecRegs (fset s n F.FLT_STATUS_NEXT_VALID 1) n .FLT_NEXT (recBytes32 r)
    let s := logFault (pushRec s n r) n src (recBytes32 r)
    let s := if reacts s n level 2 then bbQueue s n r else s
    let s := if decide (2 ≤ level) && !conseq then openFault s n src ⟨level, inst, detail, seq⟩ else s
    let s := levelReactions s n src level
    let s := if cfgF s n src F.FLT_SRC_CFG_RESET = 1 && srcMayReset src then blockReset s n src inst else s
    let s := if 3 ≤ level then (List.range 32).foldl (fun s q => ringFire s n q 1) s else s
    if 2 ≤ level then startExit s n wkFault else s

/-! ### Taking events (17 R378, R380, R383, R384) -/

/-- The new COUNT of an event that counts; what a count beyond the register's width reads is not given (log 2). -/
def countUp (s : Block) (n src : Nat) : Nat × Block :=
  let c := srcCount s n src
  if c < 65535 then (c + 1, s) else ((drawFree s).1.toNat % 2 ^ 16, (drawFree s).2)

/-- An event would be promoted: COUNT reaches THRESH. -/
def promotes (s : Block) (n src count : Nat) : Bool :=
  cfgF s n src F.FLT_SRC_CFG_THRESH != 0 && decide (cfgF s n src F.FLT_SRC_CFG_THRESH ≤ count)

/-- LEVEL after a promotion. -/
def promoted (s : Block) (n src : Nat) : Nat :=
  let l := cfgF s n src F.FLT_SRC_CFG_LEVEL
  if cfgF s n src F.FLT_SRC_CFG_PROMO_MAX ≤ l then l else l + 1

/-- The level an event would receive from this state (17 R380). -/
def wouldBe (s : Block) (e : FaultEv) : Nat :=
  let conseq := tagged s e
  let l := if !conseq && promotes s e.node e.src (srcCount s e.node e.src + 1) then promoted s e.node e.src
    else cfgF s e.node e.src F.FLT_SRC_CFG_LEVEL
  if !conseq && classOpen s e.node (cfgF s e.node e.src F.FLT_SRC_CFG_CLASS) then min 4 (l + 1) else l

/-- COUNT and LEVEL after an event: the state, and whether it was promoted. -/
def countEvent (s : Block) (n src : Nat) : Bool × Block :=
  let r := countUp s n src
  let s := r.2
  let x := fsrc s n src
  if promotes s n src r.1 then
    let s := fput s n F.FLT_SRC_CFG_LEVEL src (promoted s n src)
    (true, putFsrc (fput s n F.FLT_SRC_STATUS_COUNT src 0) n src { x with leakDue := none })
  else
    let fresh := srcCount s n src = 0
    let s := fput s n F.FLT_SRC_STATUS_COUNT src r.1
    (false, if fresh then putFsrc s n src { x with leakDue := dueAfter s (rget s n .FLT_SRC_LEAK src).toNat } else s)

/-- The collector takes one event of an enabled source; `same` when others are taken in the cycle. -/
def takeEvent (same : Bool) (s : Block) (e : FaultEv) : Block :=
  let n := e.node
  let conseq := tagged s e
  let p := if conseq then (false, s) else countEvent s n e.src
  let s := p.2
  let base := cfgF s n e.src F.FLT_SRC_CFG_LEVEL
  let cls := !conseq && classOpen s n (cfgF s n e.src F.FLT_SRC_CFG_CLASS)
  let level := if cls then min 4 (base + 1) else base
  makeRecord s n e.src e.inst e.detail level base (b2n conseq + 4 * b2n cls + 8 * b2n p.1 + 32 * b2n same) conseq

/-- Put an event in its place: level first, then lower source number (17 R380). -/
def placeEvent (s : Block) (e : FaultEv) : List FaultEv → List FaultEv
  | [] => [e]
  | f :: fs =>
    if wouldBe s f < wouldBe s e || (wouldBe s f == wouldBe s e && decide (e.src < f.src)) then e :: f :: fs
    else f :: placeEvent s e fs

/-- An event of a reserved source never rises, one of a disabled source is only counted (17 R378, R391). -/
def sortEvents (s : Block) (es : List FaultEv) : List FaultEv := es.foldl (fun l e => placeEvent s e l) []

/-- FAULT_EVENT (17 R378-R391): the collector, once it runs, takes the `k` + 1 oldest events of the module in one cycle. -/
def faultEvent (n : Node) (k : Fin 64) (s : Block) : Block :=
  if (pow s n).off || decide (3 ≤ pState s n) || !collects s n then s
  else
    let mine := (s.events.filter fun e => e.node == n.val).take (k.val + 1)
    let rest := mine.foldl (fun (l : List FaultEv) e => l.erase e) s.events
    let s := { s with events := rest }
    let known := mine.filter fun e => (srcDefault e.src).isSome
    let s := known.foldl (fun s e => fwrap s n F.FLT_SRC_TOTAL_EVENTS e.src) s
    let live := known.filter fun e => cfgF s n e.src F.FLT_SRC_CFG_EN == 1
    (sortEvents s live).foldl (takeEvent (decide (2 ≤ live.length))) s

/-- LEAK_TIMER (17 R383). -/
def leakTimer (n : Node) (src : BitVec 8) (s : Block) : Block :=
  let x := fsrc s n src.toNat
  match x.leakDue with
  | none => s
  | some due =>
    let s := atTime s (due * 2 ^ 16)
    let c := srcCount s n src.toNat - 1
    let s := fput s n F.FLT_SRC_STATUS_COUNT src.toNat c
    let ms := (rget s n .FLT_SRC_LEAK src.toNat).toNat
    putFsrc s n src.toNat { x with leakDue := if c = 0 || ms = 0 then none else some (due + ms * msNs) }

/-- ESCALATION_TIMER (17 R385): the highest open fault is recorded again one level higher. -/
def escalationTimer (n : Node) (src : BitVec 8) (s : Block) : Block :=
  let x := fsrc s n src.toNat
  match x.escDue with
  | none => s
  | some due =>
    let top := topLevel x.opens
    match x.opens.find? fun o => o.level == top with
    | none => s
    | some o =>
      let s := putFsrc (atTime s (due * 2 ^ 16)) n src.toNat { x with escDue := none }
      makeRecord s n src.toNat o.inst o.detail (top + 1) (cfgF s n src.toNat F.FLT_SRC_CFG_LEVEL) 2 false

/-- A source is acknowledged (17 R386). -/
def ackSource (s : Block) (n src : Nat) : Block := putFsrc s n src { fsrc s n src with opens := [], escDue := none }

/-- FAULT_ACK_WRITE (17 R386). -/
def faultAckWrite (n : Node) (src : BitVec 8) (s : Block) : Block := ackSource s n src.toNat

/-- CLEAR_FIRST (17 R381). -/
def clearFirst (n : Node) (s : Block) : Block := fset (fset s n F.FLT_STATUS_FIRST_VALID 0) n F.FLT_STATUS_NEXT_VALID 0

/-! ### What the BMC reads (18 R416, R417) -/

/-- A byte of the BMC space; the fault fields read 0 in Brake and Rest, and offsets not listed read 0. -/
def bmcByte (s : Block) (n off : Nat) : BitVec 8 :=
  let at_ := fun (bs : List (BitVec 8)) (base : Nat) => bs.getD (off - base) 0
  let awake := decide (pState s n < 3)
  if off < 4 then at_ (leBytes 4 (rget s n .GLB_ID).toNat) 0
  else if off = 4 then BitVec.ofNat 8 (pState s n)
  else if off = 6 then (pow s n).bmcStatus
  else if off = 7 then BitVec.ofNat 8 (fget s n F.GOV_STATE_WAKE_SRC)
  else if off = 8 || off = 9 then at_ (leBytes 2 (fget s n F.GOV_MONITOR_POWER_DW)) 8
  else if 0x0A ≤ off && off < 0x0F then at_ (pow s n).temps 0x0A
  else if off = 0x10 && awake then BitVec.ofNat 8 (highestOpen s n + 128 * b2n (faultNLow s n))
  else if 0x18 ≤ off && off < 0x20 && awake then at_ (leBytes 8 (get64 s n .FLT_SEQ)) 0x18
  else if 0x20 ≤ off && off < 0x40 && awake then
    at_ ((List.range 8).flatMap fun k => leBytes 4 (rget s n .FLT_FIRST (ix k)).toNat) 0x20
  else if 0x40 ≤ off && off < 0x60 then at_ (pow s n).bmcRec 0x40
  else 0

/-- A read transaction of `k` bytes at an address: the bytes from the pointer onward, all of one instant; the target of another address, and
one of a module that is Off, does not answer (18 R416). -/
def bmcRead (s : Block) (n : Nat) (addr : BitVec 2) (k : Nat) : Option (List (BitVec 8)) :=
  let x := pow s n
  if x.off || x.bmcAddr ≠ addr then none
  else some ((List.range k).map fun i => bmcByte s n ((x.bmcPtr.toNat + i) % 256))

end Sys2Proof.Machine
end

