-- ==== Sys2Proof/Machine/Time.lean ====
section
/-! DEFINITION. Sys2Proof/Machine/Time.lean: the timebase: reference, PPS, loading device time, holdover (18 R411-R415). -/

namespace Sys2Proof.Machine

/-- TIM_STATUS.CFG_REJECT. -/
def timReject (s : Block) (n : Nat) : Block := fset s n F.TIM_STATUS_CFG_REJECT 1

/-- A node that has not lost its supply and takes its own REFIN and PPS_IN: a secondary ignores them (18 R413). -/
def ownTime (s : Block) (n : Nat) : Bool := !(pow s n).off && role s n != roSecondary

/-- One second in ns. -/
def oneSec : Nat := 1000000000

/-! ### Reading (18 R411) -/

/-- The latch of a context for a module's time. -/
def latchAt (c n : Nat) : Nat := c * 64 + n

/-- The value of device time a context latched last, in units of 2^-16 ns; 0 if it has not read TIM_NOW_LO since boot. -/
def timLatched (s : Block) (c n : Nat) : Nat := mget (fun _ => 0) s.timLatch (latchAt c n)

/-! ### The reference (18 R412) -/

/-- REF_LOCK (18 R412): the timebase locks to the reference REFSEL names. -/
def refLock (n : Node) (s : Block) : Block :=
  if ownTime s n && decide (fget s n F.TIM_CTRL_REFSEL ≠ 0) then leaveHoldover (fset s n F.TIM_STATUS_REF_LOCK 1) n else s

/-- REFIN_LOSS (18 R412). -/
def refinLoss (n : Node) (s : Block) : Block :=
  if ownTime s n && decide (fget s n F.TIM_CTRL_REFSEL ≠ 0) && (tim s n).hold.isNone then
    raise (enterHoldover s n) n SRC.TIM_REF_LOSS 0 0
  else s

/-- A write of REFSEL: 0 is holdover, but for a secondary, which its parent link times (18 R413, R415). -/
def refselWrite (s : Block) (n v : Nat) : Block :=
  let s := fset s n F.TIM_CTRL_REFSEL v
  if v = 0 && ownTime s n then enterHoldover s n else s

/-! ### Loading device time (18 R414) -/

/-- Some gang, stream or drive output of the system is not OFF. -/
def systemBusy (s : Block) : Bool :=
  s.nodeTab.any fun e =>
    gangsOn s e.node
      || (List.range 64).any (fun t => strmState s e.node t != 0)
      || (List.range 256).any (fun o => drvState s e.node o != 0)

/-- Holdover is counted on past a load of device time (18 R415). -/
def shiftHold (s : Block) (by_ : Nat) : Block :=
  { s with tims := s.tims.map fun p => (p.1, { p.2 with hold := p.2.hold.map (· + by_) }) }

/-- The load is made, or refused if the value lies below device time or something is not OFF. -/
def timeLoadNow (s : Block) : Block :=
  let v := get64 s 0 .TIM_SET
  let s := putTim (fset s 0 F.TIM_STATUS_SET_PENDING 0) 0 { tim s 0 with setDue := none }
  if v * 2 ^ 16 < s.now || systemBusy s then timReject s 0
  else { shiftHold s (v * 2 ^ 16 - s.now) with now := v * 2 ^ 16 }

/-- TIM_SET_WRITE (18 R414): SET = 1 on the primary; on another module it is refused (log 47). -/
def timSetWrite (n : Node) (s : Block) : Block :=
  if n.val ≠ 0 || get64 s 0 .TIM_SET < nowNs s || systemBusy s then timReject s n
  else putTim (fset s 0 F.TIM_STATUS_SET_PENDING 1) 0 { tim s 0 with setDue := some (nowNs s + oneSec) }

/-- TIME_LOAD (18 R414): 1 s after the write, while there is no PPS lock. -/
def timeLoad (s : Block) : Block :=
  match (tim s 0).setDue with
  | some due => if fbit s 0 F.TIM_STATUS_PPS_LOCK then s else timeLoadNow (atTime s (due * 2 ^ 16))
  | none => s

/-! ### PPS (18 R413) -/

/-- TIM_PPS_OFFSET as SINT 32, in ns. -/
def ppsOffset (s : Block) (n : Nat) : Int := (rget s n .TIM_PPS_OFFSET 0).toInt

/-- Distance (ns) of a device time from the nearest multiple of 10^9 ns plus TIM_PPS_OFFSET. -/
def ppsError (s : Block) (n t : Nat) : Nat :=
  let r := (((t : Int) - ppsOffset s n) % (oneSec : Int)).toNat
  min r (oneSec - r)

/-- PPS_EDGE (18 R413, R414, R418): with a PPS lock a pending load comes first; otherwise the edge aligns the phase. -/
def ppsEdge (n : Node) (s : Block) : Block :=
  if !ownTime s n then s
  else if n.val = 0 && (tim s 0).setDue.isSome && fbit s 0 F.TIM_STATUS_PPS_LOCK then
    let s := timeLoadNow s
    putTim s 0 { tim s 0 with ppsAt := some (devNs s 0) }
  else
    let s := putTim s n { tim s n with ppsAt := some (devNs s n) }
    if fbit s n F.TIM_CTRL_PPS_ALIGN then fset s n F.TIM_STATUS_PPS_LOCK (b2n (decide (ppsError s n (devNs s n) ≤ 5))) else s

/-- TIM_PPS_LOSS (18 R413): no edge within 1.1 s of the expected one, a second after the latest. -/
def timPpsLoss (n : Node) (s : Block) : Block :=
  match (tim s n).ppsAt with
  | some t =>
    if ownTime s n && fbit s n F.TIM_CTRL_PPS_ALIGN then
      let s := atDev s n ((t + oneSec + 1100000000) * 2 ^ 16)
      raise (fset (putTim s n { tim s n with ppsAt := none }) n F.TIM_STATUS_PPS_LOCK 0) n SRC.TIM_PPS_LOSS 0 0
    else s
  | none => s

/-- PPS_OUT_PULSE (18 R413): PPS_OUT rises at the next whole second of the module's device time. -/
def ppsOutPulse (n : Node) (s : Block) : Block :=
  if fbit s n F.TIM_CTRL_PPS_OUT_EN && !(pow s n).off then
    let from_ := match (tim s n).outAt with
      | some t => max (t + 1) ((devTime s n + 2 ^ 16 - 1) / 2 ^ 16)
      | none => (devTime s n + 2 ^ 16 - 1) / 2 ^ 16
    let due := (from_ + oneSec - 1) / oneSec * oneSec
    let s := putTim (atDev s n (due * 2 ^ 16)) n { tim s n with outAt := some due }
    { s with pulses := s.pulses ++ [⟨n, due, fget s n F.TIM_CTRL_PPS_WIDTH_US⟩] }
  else s

/-! ### Holdover (18 R415) -/

/-- TIM_HOLD.ERR_NS: 1 ns for each second in holdover. -/
def holdErr (s : Block) (n : Nat) : Nat :=
  match (tim s n).hold with
  | some t => min 65535 ((devTime s n - t) / (oneSec * 2 ^ 16))
  | none => 0

/-- TIM_HOLDOVER_LIMIT (18 R415): ERR_NS exceeds LIMIT_NS. -/
def timHoldoverLimit (n : Node) (s : Block) : Block :=
  match (tim s n).hold with
  | some t =>
    let limit := fget s n F.TIM_HOLD_LIMIT_NS
    if (tim s n).warned || (pow s n).off || limit = 65535 then s
    else
      let s := atDev s n (t + (limit + 1) * oneSec * 2 ^ 16)
      raise (putTim s n { tim s n with warned := true }) n SRC.TIM_HOLDOVER_LIMIT 0 0
  | none => s

end Sys2Proof.Machine
end

