-- ==== Sys2Proof/Machine/Nvs.lean ====
section
/-! DEFINITION. Sys2Proof/Machine/Nvs.lean: the MRAM: settings pages in three copies, image slots and their checks, the microcode
load, the patrol; and the security and debug registers (19 R419-R431, 03 R84). -/

namespace Sys2Proof.Machine

/-! ### Settings pages (19 R421-R423) -/

/-- Number of the boot record among the pages the model keeps (19 "Settings pages"). -/
def pgBoot : Nat := 48

def nvCopy (s : Block) (n p c : Nat) : Option NvCopy := mget (fun _ => none) (nvsOf s n).copies (p * 4 + c)
def putNvCopy (s : Block) (n p c : Nat) (x : Option NvCopy) : Block :=
  let v := nvsOf s n
  putNvs s n { v with copies := mput (fun _ => none) v.copies (p * 4 + c) x }

/-- A copy is valid: its length, and its CRC and words (19 R422). -/
def copyValid : Option NvCopy → Bool
  | some c => c.ok && decide (1 ≤ c.data.length) && decide (c.data.length ≤ 65536)
  | none => false

def copyGenOf : Option NvCopy → Nat
  | some c => c.gen
  | none => 0

/-- Copies in agreement: 3 all, 2 a pair, 1 a single copy, 0 the page is absent (19 R422). -/
def agreement (a b c : Option NvCopy) : Nat :=
  if copyValid a && a = b && b = c then 3
  else if (copyValid a && (a = b || a = c)) || (copyValid b && b = c) then 2
  else if copyValid a || copyValid b || copyValid c then 1
  else 0

/-- A page as R422 reads it: the copy used, the copies in agreement, and the state with any disagreement reported. -/
def readPage (s : Block) (n p : Nat) : Option NvCopy × Nat × Block :=
  let a := nvCopy s n p 0
  let b := nvCopy s n p 1
  let c := nvCopy s n p 2
  let r := pickCopy copyGenOf copyValid a b c
  let s := if r.2 then raise s n SRC.SETTINGS_DIVERGENT 0 0 else s
  (r.1.join, agreement a b c, s)

/-- The generation a store forms (19 R423). -/
def nextGen (s : Block) (n p : Nat) : Nat :=
  [0, 1, 2].foldl (fun g c => if copyValid (nvCopy s n p c) then max g (copyGenOf (nvCopy s n p c)) else g) 0 + 1

/-- Copy 0, then 1, then 2 are written and verified; a copy in `bad` fails verification twice, which is reported (19 R423). -/
def storePage (s : Block) (n p : Nat) (data : List (BitVec 8)) (bad : BitVec 3) : Block :=
  let g := nextGen s n p
  [0, 1, 2].foldl (fun s c =>
    if bad.getLsbD c then raise (putNvCopy s n p c (some ⟨g, data, false⟩)) n SRC.NVS_STORE_FAIL 0 0
    else putNvCopy s n p c (some ⟨g, data, true⟩)) s

/-- A store is cut off (19 R423, R432): of writing and verifying copy 0, 1 and 2, a free number of steps is done; a copy whose write has
begun and not ended is torn, and not valid. -/
def tearPage (s : Block) (n p : Nat) (data : List (BitVec 8)) : Block :=
  let g := nextGen s n p
  let d := drawFree s
  let k := d.1.toNat % 7
  [0, 1, 2].foldl (fun s c =>
    if 2 * c + 1 < k then putNvCopy s n p c (some ⟨g, data, true⟩)
    else if 2 * c + 1 = k then putNvCopy s n p c (some ⟨g, data, false⟩)
    else s) d.2

/-- A byte of a page, with its default. -/
def pageByte (pg : Option NvCopy) (i d : Nat) : Nat :=
  match pg with
  | some c => (c.data[i]?.map BitVec.toNat).getD d
  | none => d

/-- The owner key in effect: page 2's, 97 bytes beginning 0x04, as it stood at the latest boot or wake (19 R421, R423). -/
def ownerKey (s : Block) (n : Nat) : Option (List (BitVec 8)) := (nvsOf s n).owner

/-- A boot or a wake takes the owner key; reading page 2 reports copies that disagree (19 R422). -/
def readOwner (s : Block) (n : Nat) : Block :=
  let r := readPage s n 2
  let key := match r.1 with
    | some c => if 97 ≤ c.data.length && c.data.head? = some 0x04#8 then some (c.data.take 97) else none
    | none => none
  putNvs r.2.2 n { nvsOf r.2.2 n with owner := key }

/-- A boot or a wake applies the calibration: copies that disagree are reported; its values are Worlith's, and no register shows them
(19 R422, R427; log 30). -/
def applyCalibration (s : Block) (n : Nat) : Block :=
  if (nvsOf s n).calBad = 0 then s else raise s n SRC.SETTINGS_DIVERGENT 0 0

/-! ### Image slots (19 R419, R424-R426) -/

/-- What a slot holds as shipped: firmware and microcode, and no fabric image (log 30). -/
def slotDefault (k : Nat) : SlotC := if k % 16 < 4 then .factory else .empty
def slotC (s : Block) (n k : Nat) : SlotC := mget slotDefault s.slots (n * 16 + k)
def putSlot (s : Block) (n k : Nat) (c : SlotC) : Block := { s with slots := mput slotDefault s.slots (n * 16 + k) c }

/-- Bytes of a slot (19 R419). -/
def slotSize (k : Nat) : Nat := if k = 2 || k = 3 then 2 ^ 20 else 2 ^ 22

/-- Bytes from slot `k` on: a fabric image goes on in the slots after it (19 R426). -/
def slotBytes (s : Block) (n : Nat) : Nat → Nat → List (BitVec 8)
  | 0, _ => []
  | fuel + 1, k =>
    match slotC s n k with
    | .bytes bs => if bs.length = slotSize k && decide (4 ≤ k) && decide (k < 13) then bs ++ slotBytes s n fuel (k + 1) else bs
    | _ => []

/-- A field of an image's header, little-endian. -/
def hdr (bs : List (BitVec 8)) (at_ len : Nat) : Nat := ofBytes ((bs.drop at_).take len)

/-- The payload. -/
def imagePayload (bs : List (BitVec 8)) : List (BitVec 8) := (bs.drop 256).take (hdr bs 12 4)

/-- Types of images: firmware, microcode, whole fabric, fabric region. -/
def tyFirmware : Nat := 1
def tyMicrocode : Nat := 2
def tyWhole : Nat := 3
def tyRegion : Nat := 4

/-- A word of a microcode image that R69 or R78 makes illegal (03 R84, step 1). -/
def microWordBad (w : Nat) : Bool :=
  let m := microFields w
  m.seq == 0xF
    || (m.arg != 0 && (m.seq == 0x0 || m.seq == 0x9 || m.seq == 0xA || m.seq == 0xB || m.seq == 0xC || m.seq == 0xD))
    || (m.seq == 0xE && bitsOf m.arg 3 2 != 0)

/-- The words of a microcode payload: store, address and data, in the order of R82 (log 45). -/
def microWords (pay : List (BitVec 8)) : List (Nat × Nat × Nat) :=
  let word := fun (at_ len : Nat) => hdr pay at_ len
  ((List.range 8192).map fun a => (0, a, word (3 * a) 3))
    ++ ((List.range 2048).map fun a => (1, a, word (24576 + 16 * a) 16))
    ++ ((List.range 512).map fun a => (2, a, word (57344 + 2 * a) 2))

/-- The microword after a REP0 or REP1 is the one it repeats, and its SEQ must be NEXT (03 R60, R78). -/
def repeatOk (pay : List (BitVec 8)) : Bool :=
  (List.range 8192).all fun a =>
    let seq := fun (a : Nat) => (microFields (hdr pay (3 * (a % 8192)) 3)).seq
    !(seq a == 0xC || seq a == 0xD) || seq (a + 1) == 0

/-- A microcode payload is whole, and every word legal. What of R78 depends on the run, a FINAL in a routine of another class and the
depth of the stack, is met under R79 when the word is about to run (log 62). -/
def microOk (pay : List (BitVec 8)) : Bool :=
  pay.length == 58368 && repeatOk pay && (microWords pay).all fun w =>
    if w.1 = 0 then !microWordBad w.2.2 else if w.1 = 1 then !nanoBad (nanoFields w.2.2) else bitsOf w.2.2 14 13 != 3

/-- The checks of R425 but for the signature.  Both CRCs are over the payload; that of microcode is the store CRC of 03 R82, and that of a
fabric image is the IMAGE_CRC of its region (log 48). -/
def imageFormOk (s : Block) (n : Nat) (types : List Nat) (bs : List (BitVec 8)) : Bool :=
  let ty := hdr bs 4 1
  let key := hdr bs 5 1
  let pay := imagePayload bs
  decide (256 ≤ bs.length) && hdr bs 0 4 == 0x49534E57 && types.contains ty && decide (1 ≤ ty) && decide (ty ≤ 4)
    && decide (key ≤ 1) && (if ty = tyRegion then decide (hdr bs 6 1 < 8) else hdr bs 6 1 == 0) && hdr bs 7 1 == 0x4E
    && ((bs.drop 25).take 103).all (· == 0) && ((bs.drop 224).take 32).all (· == 0)
    && pay.length == hdr bs 12 4 && hdr bs 16 4 == crcBytes pay
    && decide (hdr bs 24 1 ≤ (rget s n .GLB_ID).toNat % 256)
    && (if ty = tyFirmware then hdr bs 20 4 == 0 && key == 0 else hdr bs 20 4 == crcBytes pay)
    && (key == 0 || (ownerKey s n).isSome)

/-- The signature of an image verifies under the key KEY_ID names (19 R424). -/
def imageSigOk (s : Block) (n : Nat) (bs : List (BitVec 8)) : Bool :=
  Config.sigOk (hdr bs 5 1) ((ownerKey s n).getD []) ((bs.drop 128).take 96) (bs.take 128 ++ imagePayload bs)

/-- An image is checked under R425; a signature failure is reported. -/
def checkImage (s : Block) (n : Nat) (types : List Nat) (bs : List (BitVec 8)) : Bool × Block :=
  if imageFormOk s n types bs then
    (if imageSigOk s n bs then (true, s) else (false, raise s n SRC.SEC_IMAGE_REJECTED 0 0))
  else (false, s)

/-- A load of microcode checks every word besides (03 R84, step 1). -/
def loadableMicro : Option (List (BitVec 8)) → Bool
  | some bs => microOk (imagePayload bs)
  | none => true

/-- The types of image a slot takes (19 R425). -/
def slotTypes (k : Nat) : List Nat :=
  if k ≤ 1 then [tyFirmware] else if k ≤ 3 then [tyMicrocode] else [tyWhole, tyRegion]

/-- A header of 256 bytes plus a payload must fit: a whole fabric image in the slots from its first on, up to eight (19 R426). -/
def slotFits (k len : Nat) : Bool :=
  decide (256 ≤ len) &&
    (if k < 4 then decide (len ≤ slotSize k) else decide (k ≤ 13) && decide (len ≤ min 8 (14 - k) * 2 ^ 22))

/-- Write bytes into slots from `k` on. -/
def writeSlots (n : Nat) : Nat → Nat → List (BitVec 8) → Block → Block
  | 0, _, _, s => s
  | fuel + 1, k, bs, s =>
    if bs.isEmpty then s
    else writeSlots n fuel (k + 1) (bs.drop (slotSize k)) (putSlot s n k (.bytes (bs.take (slotSize k))))

/-- A write of an image is cut off: it has come a free way through the slots it takes; its own slot is empty, one that it has passed holds a
piece of it, and the one it was in holds no image (19 R426; log 2). -/
def tearSlots (s : Block) (n k : Nat) (bs : List (BitVec 8)) : Block :=
  let d := drawFree s
  let whole := writeSlots n 10 k bs d.2
  let j := d.1.toNat % 9
  (List.range 9).foldl (fun s i =>
    if i = 0 || i = j then (if i = 0 || k + i < 14 && i * slotSize k < bs.length then putSlot s n (k + i) .empty else s)
    else if i < j && i * slotSize k < bs.length then putSlot s n (k + i) (slotC whole n (k + i))
    else s) d.2

/-- A module loses power or is reset: its stores past their commit point are cut off (19 R423, R426), and so is a write of the black-box history
(R429).  Their commands end with PWR_OFF where the primary goes on (log 52). -/
def tearStores (s : Block) (n : Nat) : Block :=
  (s.flight.filter fun f => f.node == n && f.past && f.step == 1 && f.result.isNone).foldl (fun s f =>
    let s := if f.op = 0x0200 then tearPage s n (f.p 0 % 2 ^ 16) f.bytes
      else if f.op = 0x0302 then tearPage s n pgBoot f.bytes
      else if f.op = 0x0300 then tearSlots s n (f.p 0 % 2 ^ 16) f.bytes
      else s
    if f.op = 0x0200 || f.op = 0x0300 || f.op = 0x0301 || f.op = 0x0302 then cmdEnd s f.q f.cid { status := stPwrOff } else s) (tearBlackbox s n)

/-- The image a slot names, checked: `none` if it has none or it is rejected; `some none` for the one Worlith ships. -/
def slotImage (s : Block) (n k : Nat) (types : List Nat) : Option (Option (List (BitVec 8))) × Block :=
  match slotC s n k with
  | .factory => (some none, s)
  | .empty => (none, s)
  | .bytes _ =>
    let bs := slotBytes s n 10 k
    let r := checkImage s n types bs
    (if r.1 then some (some bs) else none, r.2)

/-! ### Microcode load (03 R84) -/

/-- Some tile of the module is running (03 R80). -/
def anyRunning (s : Block) (n : Nat) : Bool := (nodeTiles n).any (tileRunning s)

/-- Every store of every tile takes an image's words with fresh check bits, and Millrace's copy follows; `none` is Worlith's image. -/
def loadStores (s : Block) (n : Nat) (img : Option (List (BitVec 8))) : Block :=
  let s := { s with
    stores := mdrop s.stores (n * 2 ^ 24) ((n + 1) * 2 ^ 24)
    bstores := mdrop s.bstores (n * 16384) ((n + 1) * 16384)
    dispCopy := mdrop s.dispCopy (n * 512) ((n + 1) * 512) }
  match img with
  | none => s
  | some bs =>
    (microWords (imagePayload bs)).foldl (fun s w =>
      let v := freshWord (storeCode w.1) w.2.2
      let s := { s with
        bstores := mput (fun _ => none) s.bstores (n * 16384 + storeBase w.1 + w.2.1) (some (BitVec.ofNat 137 v)) }
      if w.1 = 2 then
        { s with
          dispCopy := mput (fun _ => none) s.dispCopy (n * 512 + w.2.1) (some (w.2.2.testBit 15, bitsOf w.2.2 14 13)) }
      else s) s

/-- STORE_BAD of every tile. -/
def setAllBad (s : Block) (n : Nat) (b : Bool) : Block :=
  (List.range 1024).foldl (fun s t => fput s n F.NEWT_STORE_ECC_STORE_BAD t (b2n b)) s

/-- Step 3: every tile enters LOADING and its stores are written; a corrected word still to be written back is dropped (03 R87). -/
def loadBeginMicro (s : Block) (n : Nat) (img : Option (List (BitVec 8))) : Block :=
  (nodeTiles n).foldl (fun s tk => putTile s tk { tile s tk with phase := .loading, storeWb := [] }) (loadStores s n img)

/-- The CRC over a tile's stores (03 R82). -/
def tileCrc (s : Block) (n t : Nat) : Nat := (rget s n .NEWT_STORE_CRC t).toNat

/-- Steps 4 to 6: every tile verifies; those that differ keep STORE_BAD; every tile leaves LOADING. -/
def loadEndMicro (s : Block) (n : Nat) (crc : Option Nat) : Bool × Block :=
  let s := (nodeTiles n).foldl verifyTile s
  let bad := (List.range 1024).filter fun t => match crc with
    | some c => tileCrc s n t != c
    | none => false
  let s := if bad.isEmpty then setAllBad s n false else bad.foldl (fun s t => fput s n F.NEWT_STORE_ECC_STORE_BAD t 1) s
  let s := (nodeTiles n).foldl (fun s tk =>
    let stopped := match tileOwner s tk with
      | some (d, g) => gState s d g == gStopped
      | none => false
    putTile s tk { tile s tk with phase := if stopped then .stopped else .idle }) s
  (bad.isEmpty, s)

/-- The boot's and the wake's load of a microcode slot (19 R427, step 6): false if it fails. -/
def loadMicroSlot (s : Block) (n k : Nat) : Bool × Block :=
  let r := slotImage s n k [tyMicrocode]
  match r.1 with
  | none => (false, r.2)
  | some img => if !loadableMicro img then (false, r.2) else loadEndMicro (loadBeginMicro r.2 n img) n (img.map fun bs => hdr bs 20 4)

/-! ### The patrol (19 R420) -/

/-- The copy of a page that holds an address, in its data or its descriptor (19 R419). -/
def addrCopy (a : Nat) : Option (Nat × Nat) :=
  if 0x80000 ≤ a && a < 0x80000 + 96 * 48 then some ((a - 0x80000) / 96, (a - 0x80000) % 96 / 32)
  else if 0x3300000 ≤ a && a < 0x3C00000 then some ((a - 0x3300000) / 0x30000, (a - 0x3300000) % 0x30000 / 0x10000)
  else none

/-- The image slot that holds an address, and where its bytes begin. -/
def addrSlot2 (a : Nat) : Option (Nat × Nat) :=
  if 0x100000 ≤ a && a < 0x500000 then some (0, 0x100000)
  else if 0x500000 ≤ a && a < 0x900000 then some (1, 0x500000)
  else if 0x900000 ≤ a && a < 0xB00000 then some (2 + (a - 0x900000) / 2 ^ 20, 0x900000 + (a - 0x900000) / 2 ^ 20 * 2 ^ 20)
  else if 0xB00000 ≤ a && a < 0x3300000 then
    some (4 + (a - 0xB00000) / 2 ^ 22, 0xB00000 + (a - 0xB00000) / 2 ^ 22 * 2 ^ 22)
  else none

/-- A word of the manufacturing header or of the calibration is uncorrectable.  The header's places are not given: whether it lay in a copy
of the boot record, and in which, is a free value (log 2); the calibration's copies are taken as its three equal parts (log 30). -/
def headInvalidate (s : Block) (n a : Nat) : Block :=
  if a < 0x80000 then
    let d := drawFree s
    let c := d.1.toNat % 4
    match if c < 3 then nvCopy d.2 n pgBoot c else none with
    | some x => putNvCopy d.2 n pgBoot c (some { x with ok := false })
    | none => d.2
  else if 0x3C00000 ≤ a && a < 0x3F00000 then
    putNvs s n { nvsOf s n with calBad := (nvsOf s n).calBad ||| BitVec.ofNat 3 (2 ^ ((a - 0x3C00000) / 0x100000)) }
  else s

/-- What an uncorrectable word makes invalid: the copy, image or black-box entry that holds it. -/
def nvInvalidate (s : Block) (n a : Nat) : Block :=
  match addrCopy a, addrSlot2 a with
  | some (p, c), _ =>
    match nvCopy s n p c with
    | some x =>
      let off := if a < 0x3300000 then 0 else (a - 0x3300000) % 0x10000
      if off < x.data.length then putNvCopy s n p c (some { x with ok := false }) else s
    | none => s
  | none, some (k, base) =>
    match slotC s n k with
    | .factory => putSlot s n k .empty
    | .empty => s
    | .bytes bs => if a - base < bs.length then putSlot s n k .empty else s
  | none, none =>
    if 0x3F00000 ≤ a then
      let v := nvsOf s n
      putNvs s n { v with bb := v.bb.map fun e =>
        if 0x3F00000 + e.num % 1024 * 40 < a + 8 && a < 0x3F00000 + e.num % 1024 * 40 + 40 then { e with ok := false } else e }
    else headInvalidate s n a

/-- MRAM_PATROL (19 R420): the word at an MRAM address is found clean, corrected and rewritten, or uncorrectable. -/
def mramPatrol (n : Node) (addr : BitVec 23) (found : WordCheck) (s : Block) : Block :=
  if !inRun s n then s
  else match found with
    | .clean => s
    | .correctable => raise (fsat s n F.NVS_ECC_CE_COUNT 0) n SRC.NVS_CE 0 0
    | .uncorrectable => nvInvalidate (raise (fsat s n F.NVS_ECC_UE_COUNT 0) n SRC.NVS_UE 0 0) n (8 * addr.toNat)

/-- Valid entries of the black-box history (19 NVS_BB.VALID), and what FAULT_READ writes of it. -/
def bbValid (s : Block) (n : Nat) : List BbEnt := (nvsOf s n).bb.filter (·.ok)

/-! ### Unlock (19 R430) -/

/-- Four free values as 32 bytes. -/
def drawBytes32 (s : Block) : List (BitVec 8) × Block :=
  let a := drawFree s
  let b := drawFree a.2
  let c := drawFree b.2
  let d := drawFree c.2
  (leBytes 8 a.1.toNat ++ leBytes 8 b.1.toNat ++ leBytes 8 c.1.toNat ++ leBytes 8 d.1.toNat, d.2)

/-- A read of SEC_CHALLENGE_0 draws a fresh challenge, whose bytes are free values (19 R430; log 2); none after 8 failures
in the boot. -/
def drawChallenge (s : Block) (n : Nat) : Block :=
  if 8 ≤ (nvsOf s n).fails then s
  else
    let r := drawBytes32 s
    let s := (List.range 8).foldl (fun s k =>
      rput s n .SEC_CHALLENGE (ix k) (BitVec.ofNat 32 (ofBytes ((r.1.drop (4 * k)).take 4)))) r.2
    putNvs s n { nvsOf s n with challenge := some r.1, chalDue := nowNs s + 60 * oneSec }

/-- A failed unlock (19 R430). -/
def unlockFail (s : Block) (n : Nat) : Block :=
  let f := min 8 ((nvsOf s n).fails + 1)
  let s := fset (putNvs s n { nvsOf s n with fails := f }) n F.SEC_STATUS_FAILS f
  let s := if f = 8 then fset s n F.SEC_STATUS_LOCKOUT 1 else s
  raise s n SRC.SEC_UNLOCK_FAIL 0 0

/-- The response: SEC_RESPONSE_0 to 23. -/
def secResponse (s : Block) (n : Nat) : List (BitVec 8) :=
  (List.range 24).flatMap fun k => leBytes 4 (rget s n .SEC_RESPONSE (ix k)).toNat

/-- SEC_UNLOCK (19 R430): GO = 1 with SCOPE. -/
def secUnlock (n : Node) (scope : BitVec 3) (s : Block) : Block :=
  let s := fset s n F.SEC_UNLOCK_SCOPE scope.toNat
  let v := nvsOf s n
  let s := putNvs s n { v with challenge := none }
  match v.challenge with
  | none => unlockFail s n
  | some ch =>
    let msg := ch ++ leBytes 8 (Config.serialNumber n).toNat ++ [BitVec.ofNat 8 scope.toNat]
    let byOwner := match ownerKey s n with
      | some k => Config.sigOk 1 k (secResponse s n) msg
      | none => false
    if decide (nowNs s ≤ v.chalDue) && (Config.sigOk 0 [] (secResponse s n) msg || byOwner) then
      fset s n F.SEC_UNLOCK_UNLOCKED (Nat.lor (fget s n F.SEC_UNLOCK_UNLOCKED) scope.toNat)
    else unlockFail s n

/-- CHALLENGE_EXPIRY (19 R430). -/
def challengeExpiry (n : Node) (s : Block) : Block :=
  let v := nvsOf s n
  match v.challenge with
  | some _ => putNvs (atTime s ((v.chalDue + 1) * 2 ^ 16)) n { v with challenge := none }
  | none => s

/-- IDCODE of the test access port, which is never locked (19 "Security and debug"). -/
def idcode : Word := 0x14E10A6B

/-! ### The ACU register path (19 R430, R431) -/

/-- Scope bit 0, the ACU register path, is locked. -/
def dbgLocked (s : Block) (n : Nat) : Bool := !(fget s n F.SEC_UNLOCK_UNLOCKED).testBit 0

/-- An access to a locked function (19 R430). -/
def secDenied (s : Block) (n : Nat) : Block := fset s n F.SEC_STATUS_DENIED 1

/-- The access is made: scope bit 0 is unlocked and the task is OFF.  A reserved REG leaves the field untouched and is reported, and the
rest of the write takes effect (00 R7). -/
def dbgOpen (s : Block) (n a k : Nat) (reg : Nat) : Bool × Block :=
  if dbgLocked s n then (false, secDenied s n)
  else
    let s := if 40 ≤ reg then acuReject s n a else fput s n F.DBG_ACU_REG_REG (at2 a k) reg
    if taskState s n a k ≠ 0 then (false, acuReject s n a) else (true, s)

/-- DBG_REG_READ (19 R431). -/
def dbgRegRead (n : Node) (a : Fin 16) (k : Fin 64) (reg : BitVec 6) (s : Block) : Block :=
  let r := dbgOpen s n a k reg.toNat
  if r.1 then
    rput r.2 n .DBG_ACU_DATA (at2 a k) (slotGet (task r.2 (taskKey n a k)) (fget r.2 n F.DBG_ACU_REG_REG (at2 a k)))
  else r.2

/-- DBG_REG_WRITE (19 R431): a write to G0 is discarded, and no write sets a bit of PSW.DIRTY (DESIGN CHOICE, log 63). -/
def dbgRegWrite (n : Node) (a : Fin 16) (k : Fin 64) (reg : BitVec 6) (s : Block) : Block :=
  let r := dbgOpen s n a k reg.toNat
  let g := fget r.2 n F.DBG_ACU_REG_REG (at2 a k)
  if r.1 && g != 0 then
    let t := task r.2 (taskKey n a k)
    putTask r.2 (taskKey n a k) { t with regs := mput (fun _ => 0) t.regs g (rget r.2 n .DBG_ACU_DATA (at2 a k)) }
  else r.2

end Sys2Proof.Machine
end

