-- ==== Sys2Proof/Machine/Boot.lean ====
section
/-! DEFINITION. Sys2Proof/Machine/Boot.lean: the boot sequence, the reload after a wake, and the resets (19 R427, R428; 18 R408;
20 R437, R440). -/

namespace Sys2Proof.Machine

/-- FIO hold states and PRMODE from page 1; pull-down and SAFE_Z where it has none (19 R421, R427 step 2). -/
def applyFio (s : Block) (n : Nat) : Block :=
  let r := readPage s n 1
  (List.range 96).foldl (fun s i =>
    let b := pageByte r.1 i 0x0E
    fput (fput s n F.GKO_PIN_HOLD (ix i) (b % 4)) n F.GKO_PIN_PRMODE (ix i) (b / 4 % 4)) r.2.2

/-- What a boot or a wake takes from the settings pages before its loads: the Subsystem IDs, the pins' defaults and the owner key
(19 R421, R423). -/
def applyPages (s : Block) (n : Nat) : Block :=
  let pg := readPage s n 0
  let ids := (List.range 4).foldl (fun v i => v + pageByte pg.1 (2 + i) ([0x4E, 0x1F, 0x01, 0x00].getD i 0) * 256 ^ i) 0
  let s := putPow pg.2.2 n { pow pg.2.2 n with subsys := BitVec.ofNat 32 ids }
  readOwner (applyFio s n) n

/-- A failure of the boot's loads is recorded as a fault, if its check has not raised one (19 R428; log 48). -/
def loadFault (before s : Block) (n : Nat) : Block :=
  if before.events.length < s.events.length then s else raise s n SRC.SEC_IMAGE_REJECTED 0 0

/-- Step 6: the microcode slot page 0 names, then the other; with none, every tile keeps STORE_BAD = 1 (19 R427, R428). -/
def bootMicro (s : Block) (n : Nat) : Block :=
  let pg := readPage s n 0
  let k := if pageByte pg.1 0 2 = 3 then 3 else 2
  let a := loadMicroSlot pg.2.2 n k
  if a.1 then a.2
  else
    let b := loadMicroSlot a.2 n (5 - k)
    if b.1 then b.2 else loadFault pg.2.2 (setAllBad b.2 n true) n

/-- The load that an image of the fabric makes (12 R288): its type, regions, payload and IMAGE_CRC. -/
def fabricLoad (q cid stage : Nat) (bs : List (BitVec 8)) : LoadSt :=
  let whole := hdr bs 4 1 == tyWhole
  { q := q, cid := cid, whole := whole, regions := if whole then List.range 8 else [hdr bs 6 1], image := imagePayload bs,
    crc := hdr bs 20 4, stage := stage }

/-- Every region is EMPTY, with its pins in their hold states (19 R428). -/
def emptyFabric (s : Block) (n : Nat) : Block :=
  (List.range 8).foldl (fun s r => putRegion (stopRegion s n r true phEmpty) n r {}) s

/-- Step 7: the fabric slot page 0 names, without waiting for a commit: the regions stop, and are loaded and released (12 R288, 19 R427).
A load that fails, by its image or by the check of 12 R290, leaves every region EMPTY and is recorded as a fault (19 R428; log 48). -/
def bootFabric (s : Block) (n : Nat) : Block :=
  let pg := readPage s n 0
  let k := pageByte pg.1 1 0xFF
  if k < 4 || 13 < k then emptyFabric pg.2.2 n
  else
    let r := slotImage pg.2.2 n k [tyWhole, tyRegion]
    match r.1 with
    | some (some bs) =>
      let x := fabricLoad 0 0 3 bs
      let l := loadFinish (loadStop r.2 n x) n x
      if l.1 then l.2 else emptyFabric l.2 n
    | _ => emptyFabric (loadFault pg.2.2 r.2 n) n

/-- The memories are cleared: the background clear of the record store begins (10 R234). -/
def bootMemories (s : Block) (n : Nat) : Block := clearRecord s n

/-- READY, and MAINT is cleared (16 R372). -/
def setReady (s : Block) (n : Nat) : Block := fset (fset s n F.CMD_STATUS_READY 1) n F.NOC_CTRL_MAINT 0

/-- Steps 5 to 8: the timebase runs, in holdover without a reference (18 R415); links that are enabled train (15 R346); Chorus runs with
the role R353 gives. -/
def bootRest (s : Block) (n : Nat) (link : Bool) : Block :=
  let s := bootFabric (bootMemories (bootMicro (applyCalibration s n) n) n) n
  let s := { s with pcieUp := mput (fun _ => false) s.pcieUp n link }
  let s := if fget s n F.TIM_CTRL_REFSEL = 0 then enterHoldover s n else s
  let s := startLinks s n
  let s := callAll (setRole s n (if link then roCandidate else roUnattached)) n
  setReady (putPow s n { pow s n with readyAt := s.now }) n

/-- The firmware of a slot is started. -/
def startFirmware (s : Block) (n k : Nat) (img : Option (List (BitVec 8))) : Block :=
  let v := match img with
    | some bs => BitVec.ofNat 32 (hdr bs 8 4)
    | none => Config.factoryVersion k
  rput (fset (fset s n F.NVS_STATUS_RECOVERY 0) n F.CMD_STATUS_BOOT_SLOT k) n .CMD_FW_VERSION 0 v

/-- The slot the boot record names: 0 A, 1 B; A by default. -/
def bootSlot (s : Block) (n : Nat) : Nat × Block :=
  let r := readPage s n pgBoot
  (if pageByte r.1 0 0 = 1 then 1 else 0, r.2.2)

/-- Step 4 on (19 R427, R428): the named firmware slot, then the other; else recovery. -/
def bootFrom4 (s : Block) (n : Nat) (link : Bool) : Block :=
  let b := bootSlot s n
  let r := slotImage b.2 n b.1 [tyFirmware]
  match r.1 with
  | some img => bootRest (startFirmware r.2 n b.1 img) n link
  | none =>
    let r2 := slotImage r.2 n (1 - b.1) [tyFirmware]
    match r2.1 with
    | some img => bootRest (fset (startFirmware r2.2 n (1 - b.1) img) n F.NVS_STATUS_SLOT_FALLBACK 1) n link
    | none => fset r2.2 n F.NVS_STATUS_RECOVERY 1

/-- What the contexts have latched of a module's time is gone (18 R411). -/
def dropLatches (s : Block) (n : Nat) : Block := { s with timLatch := s.timLatch.filter fun p => p.1 % 64 != n }

/-- Everything but the MRAM takes its reset value (20 R440); a module that held a node number keeps none. -/
def wipeAll (s : Block) (n : Nat) : Block :=
  let s := dropLatches (wipeChorus (wipeNode s n fun _ => false) n) n
  let x := nvsOf s n
  let s := putNvs s n { x with challenge := none, bbWait := [] }
  putTim { s with pins := mdrop s.pins (n * 128) ((n + 1) * 128) } n {}

/-- The device time of a module that boots is 0 (18 R411): `now` is the primary's, and the other modules that run keep theirs (log 45). -/
def bootTime (s : Block) (n : Nat) : Block :=
  if n = 0 then
    let s' := ((List.range 64).filter fun m => m != 0 && (pow s m).started).foldl (fun s m =>
      putTim s m { tim s m with skew := (tim s m).skew + s.now }) s
    { s' with now := 0, lastBound := none }
  else putTim s n { tim s n with skew := -(s.now : Int) }

/-- The boot of R427 from step 1: the straps `recovery` and `addr` are sampled; `lowIo`: FIO banks without their supply; `link`: the host
link has trained by READY. -/
def bootNode (s : Block) (n : Nat) (recovery : Bool) (addr : BitVec 2) (lowIo : BitVec 8) (link : Bool) : Block :=
  let s := bootTime (wipeAll s n) n
  let x := nvsOf s n
  let s := putNvs s n { x with boots := (x.boots + 1) % 2 ^ 32, fails := 0 }
  let s := fset s n F.NVS_STATUS_BOOT_COUNT ((x.boots + 1) % 2 ^ 16)
  let s := applyPages (putPow s n { started := true, bmcAddr := addr, lowIo := lowIo }) n
  if recovery then fset s n F.NVS_STATUS_RECOVERY 1 else bootFrom4 s n link

/-- POWER_GOOD (20 R437): all supplies are in range with RESET_N high, on a module that has not booted since it was Off or reset.  Bits 1 and
0 of `straps` are BMC_ADDR, bits 9 to 2 say which FIO banks have their supply (20 R436, R442). -/
def powerGood (n : Node) (recovery : Bool) (straps : BitVec 10) (link : Bool) (s : Block) : Block :=
  if (pow s n).started then s else bootNode s n recovery (straps.setWidth 2) (~~~straps.extractLsb' 2 8) link

/-- VIN_COLLAPSE (20 R438): every domain fed by VIN stops at once, without the ramp, and the module holds in Rest on VAUX; a wake source
taken is held.  A boot that has not ended, in recovery, stops, and starts again at the next power good (20 R448). -/
def vinCollapse (n : Node) (s : Block) : Block :=
  let x := pow s n
  if x.off then s
  else
    let x := { x with vinLow := true, rail := none, exit := none, wakeAfter := none, after := none, held := x.held <|> x.wakeAfter <|> x.exit }
    if pState s n = 4 then setMoving (putPow s n x) n false
    else enterState (putPow (tearStores s n) n { x with started := x.started && !fbit s n F.NVS_STATUS_RECOVERY }) n 4

/-- VAUX_LOSS (20 R439): Off at once; nothing but the MRAM is kept. -/
def vauxLoss (n : Node) (s : Block) : Block :=
  let s := dropLatches (wipeChorus (wipeNode (tearStores s n) n fun _ => false) n) n
  let s := { s with pins := mdrop s.pins (n * 128) ((n + 1) * 128) }
  putTim (putPow s n { off := true }) n {}

/-- RESET_N_ASSERT (20 R440): the outputs are muted; once each is MUTED or OFF every domain is reset; with RESET_N high again
(`high`) the boot starts.  While VIN is low only the mute goes on (20 R448). -/
def resetNAssert (n : Node) (high recovery : Bool) (addr : BitVec 2) (link : Bool) (s : Block) : Block :=
  let x := pow s n
  if x.off then s
  else
    let s := if x.resetting then s else putPow (muteAll s n mcPower) n { x with resetting := true }
    if !allMuted s n || x.vinLow then s
    else if high then bootNode (tearStores s n) n recovery addr x.lowIo link
    else putPow (wipeAll (tearStores s n) n) n { off := true, inReset := true, lowIo := x.lowIo }

/-- RELOAD_DONE (18 R408): after a wake from Brake or Rest the stores and images are reloaded, and READY is set. -/
def reloadDone (n : Node) (s : Block) : Block :=
  if (pow s n).reload && inRun s n then
    let s := bootFabric (bootMicro (applyCalibration (applyPages s n) n) n) n
    setReady (putPow s n { pow s n with reload := false }) n
  else s

end Sys2Proof.Machine
end

