-- ==== Sys2Proof/Machine/GangCmd.lean ====
section
/-! DEFINITION. Sys2Proof/Machine/GangCmd.lean: the writes of MILL_GANG_CTRL and MILL_RESUME_CTRL (06 R158-R162, 04 R119). -/

namespace Sys2Proof.Machine

/-- EN written 1 (06 R158): a formed gang in OFF goes to IDLE and counts its macro-ops afresh; ignored while an L4 fault is open
(17 R388).  Croak values that ops gave while the gang drained stay in its queue (08 R188). -/
def gangEnable (s : Block) (n g : Nat) : Block :=
  if l4Open s n then millReject s n
  else if gState s n g ≠ gOff then s
  else if !gangFormed s n g then millReject s n
  else
    let x := gang s n g
    let s := match x.program, x.verdict with
      | some c, some v => cmdEnd s c.1 c.2 (progReply v)
      | _, _ => s
    let s := putGang s n g { x with accepted := 0, lost := [], verdict := none, program := none }
    let s := rput s n .MILL_RETIRED g 0
    fput (setGState s n g gIdle) n F.MILL_GANG_CTRL_EN g 1

/-- GANG_EN_WRITE (06 R158, R162). -/
def gangEnWrite (n : Node) (g : GangIx) (en : Bool) (s : Block) : Block :=
  if en then gangEnable s n g else startDrain s n g

/-- GANG_STOP_WRITE (06 R159, R160): a stop request with cause HOST; ignored in YIELDING, STOPPED, DRAINING and OFF. -/
def gangStopWrite (n : Node) (g : GangIx) (s : Block) : Block :=
  if gState s n g = gIdle || gState s n g = gRun then stopRequest s n g .host else s

/-- GANG_RESUME_WRITE (06 R160). -/
def gangResumeWrite (n : Node) (g : GangIx) (s : Block) : Block := resumeGang s n g

/-- RESUME_DISCARD (04 R119). -/
def resumeDiscard (n : Node) (g : GangIx) (s : Block) : Block := discardHeld s n g

end Sys2Proof.Machine
end

