-- ==== Sys2Proof/Machine/CmdQueue.lean ====
section
/-! DEFINITION. Sys2Proof/Machine/CmdQueue.lean: the select registers, the command queues and their doorbells, replies, and commands
stopped before their commit point (14 R325-R337, 13 R316). -/

namespace Sys2Proof.Machine

/-! ### Selects (00 R8, 14 R336, R337) -/

/-- CMD_STATUS.CFG_REJECT. -/
def cmdReject (s : Block) : Block := fset s 0 F.CMD_STATUS_CFG_REJECT 1

/-- Instances that select `i` ranges over (00 R8). -/
def selRange (i : Nat) : Nat := [64, 16, 1024, 16384, 256, 24, 8, 64, 256, 16, 64].getD i 0

/-- A write of select `i` of context `c`. -/
def selWrite (s : Block) (c i : Nat) (w : Word) : Block :=
  let v := wbits w 13 0
  if v < selRange i then selPut s c i v else cmdReject s

/-! ### Queues (14 R325-R328) -/

/-- States of CMD_Q_CTRL. -/
def qState (s : Block) (q : Nat) : Nat := fget s 0 F.CMD_Q_CTRL_STATE (ix q)
def sqSize (s : Block) (q : Nat) : Nat := 2 ^ fget s 0 F.CMD_Q_CTRL_SQ_LOG2 (ix q)
def cqSize (s : Block) (q : Nat) : Nat := 2 ^ fget s 0 F.CMD_Q_CTRL_CQ_LOG2 (ix q)
def sqHead (s : Block) (q : Nat) : Nat := fget s 0 F.CMD_Q_STATUS_SQ_HEAD (ix q)
def sqTail (s : Block) (q : Nat) : Nat := fget s 0 F.CMD_Q_SQ_TAIL_SQ_TAIL (ix q)
def cqHead (s : Block) (q : Nat) : Nat := fget s 0 F.CMD_Q_CQ_HEAD_CQ_HEAD (ix q)
def cqTail (s : Block) (q : Nat) : Nat := fget s 0 F.CMD_Q_COUNT_CQ_TAIL (ix q)
def qPhase (s : Block) (q : Nat) : Bool := mget (fun _ => true) s.phases q

/-- CMD_Q_STATUS.CFG_REJECT. -/
def queueReject (s : Block) (q : Nat) : Block := fput s 0 F.CMD_Q_STATUS_CFG_REJECT (ix q) 1

/-- A doorbell that is discarded as out of range (14 R327). -/
def doorbellBad (s : Block) (q : Nat) : Block := raise (queueReject s q) 0 SRC.CMD_QUEUE_ERROR q 0

/-- SQ_TAIL_WRITE (14 R327). -/
def sqTailWrite (q : Fin 16) (v : Half) (s : Block) : Block :=
  if qState s q ≠ 2 then s
  else if sqSize s q ≤ v.toNat then doorbellBad s q
  else fput s 0 F.CMD_Q_SQ_TAIL_SQ_TAIL (ix q) v.toNat

/-- CQ_HEAD_WRITE (14 R327): the head may come up to the completion tail, not past it. -/
def cqHeadWrite (q : Fin 16) (v : Half) (s : Block) : Block :=
  let size := cqSize s q
  let ahead := fun (x : Nat) => (x + size - cqHead s q) % size
  if qState s q ≠ 2 then s
  else if decide (size ≤ v.toNat) || decide (ahead (cqTail s q) < ahead v.toNat) then doorbellBad s q
  else fput s 0 F.CMD_Q_CQ_HEAD_CQ_HEAD (ix q) v.toNat

/-! ### Classes (14 R334, R338) -/

/-- Class of an opcode: 0 I, 1 T, 2 E, 3 L. -/
def opClass (op : Nat) : Option Nat :=
  if [0x0100, 0x0101, 0x0103, 0x0104, 0x0201, 0x0404, 0x0502, 0x0700, 0x0701, 0x0A00].contains op then some 0
  else if [0x0102, 0x0401, 0x0402, 0x0403, 0x0405, 0x0500, 0x0501, 0x0600, 0x0800].contains op then some 1
  else if [0x0601, 0x0602, 0x0A01].contains op then some 2
  else if [0x0200, 0x0300, 0x0301, 0x0302, 0x0400, 0x0900].contains op then some 3
  else none

/-! ### Stopping a command before its commit point (14 R335, 13 R316) -/

/-- Modules that a TOPOLOGY_RESCAN staged wait again (log 51). -/
def unstage (s : Block) (nodes : List Nat) : Block :=
  match s.tabNext with
  | none => s
  | some t =>
    let back := t.mods.filter fun m => nodes.contains m.node && !(s.chrTab.mods.any fun o => o.node == m.node)
    stageTab { s with chrWaiting := s.chrWaiting ++ back }
      { t with mods := t.mods.filter fun m => !(back.any fun o => o.node == m.node) }

/-- The set of a command of class E has been sealed and its outcome is open (13 R316). -/
def setSealed (s : Block) (f : CmdFl) : Bool :=
  (s.cmdSealed.any fun c => c.q == f.q && c.cid == f.cid) || (f.op == opRescan && f.step == 2) ||
    s.snaps.any fun x => x.q == f.q && x.cid == f.cid && x.isSealed

/-- A gang that a GANG_RUN drives is let go, or stopped with cause ABORT (06 R163). -/
def stopProgram (s : Block) (f : CmdFl) (halt : Bool) : Block :=
  let g := f.p 0 % 16
  let x := gang s f.node g
  if x.program = some (f.q, f.cid) then
    let s := putGang s f.node g { x with program := none, verdict := none }
    if halt then abortStop s f.node g else s
  else s

/-- A command stops with a status, unless it has reached its commit point: a set already sealed waits for the vote's outcome. -/
def stopFlight (status : Nat) (halt : Bool) (s : Block) (f : CmdFl) : Block :=
  let prog := (gang s f.node (f.p 0 % 16)).verdict
  if f.past || f.result.isSome || (f.op == 0x0400 && f.step == 1 && prog.isSome) then s
  else if opClass f.op = some 2 && setSealed s f then
    cmdSet s f.q f.cid fun c => { c with aborting := true, cancel := status == stCancelled }
  else
    let s := { s with
      cmdSets := s.cmdSets.filter fun c => !(c.q == f.q && c.cid == f.cid)
      snaps := s.snaps.filter fun x => !(x.q == f.q && x.cid == f.cid) }
    let s := if f.op = opRescan && f.step = 1 then unstage s f.nums else s
    let s := match load s f.node with
      | some x => if f.op = 0x0900 && x.q = f.q && x.cid = f.cid then loadDrop s f.node else s
      | none => s
    let s := if f.op = 0x0400 && f.step = 1 then stopProgram s f halt else s
    cmdEnd s f.q f.cid { status := status }

/-- QUEUE_EN_WRITE (14 R328). -/
def queueEnWrite (q : Fin 16) (en : Bool) (s : Block) : Block :=
  match qState s q, en with
  | 0, true =>
    let s := fput (fput s 0 F.CMD_Q_CTRL_EN (ix q) 1) 0 F.CMD_Q_CTRL_STATE (ix q) 2
    let s := fput (fput s 0 F.CMD_Q_STATUS_SQ_HEAD (ix q) 0) 0 F.CMD_Q_COUNT_CQ_TAIL (ix q) 0
    let s := fput (fput s 0 F.CMD_Q_SQ_TAIL_SQ_TAIL (ix q) 0) 0 F.CMD_Q_CQ_HEAD_CQ_HEAD (ix q) 0
    { s with phases := mput (fun _ => true) s.phases q true }
  | 2, false =>
    let s := fput (fput s 0 F.CMD_Q_CTRL_EN (ix q) 0) 0 F.CMD_Q_CTRL_STATE (ix q) 1
    (s.flight.filter fun f => f.q == q.val).foldl (stopFlight stCancelled false) s
  | _, _ => s

/-- QUEUE_DRAIN_DONE (14 R328): every reply is written. -/
def queueDrainDone (q : Fin 16) (s : Block) : Block :=
  if qState s q = 1 && !(s.flight.any fun f => f.q == q.val) then fput s 0 F.CMD_Q_CTRL_STATE (ix q) 0 else s

/-! ### Replies (14 R331) -/

/-- The 32 bytes of a reply. -/
def replyBytes (f : CmdFl) (phase : Bool) (r : Reply) : List (BitVec 8) :=
  leBytes 2 f.cid ++ leBytes 1 r.status ++ leBytes 1 (b2n phase) ++ leBytes 2 f.head ++ leBytes 1 f.q ++ leBytes 1 r.detail ++
    leBytes 8 r.epoch ++ leBytes 8 r.r0 ++ leBytes 8 r.r1

/-- ABORTs that wait for a command learn how it ended (13 R316). -/
def tellAborts (s : Block) (q cid status : Nat) : Block :=
  { s with
    flight := s.flight.map fun f =>
      if f.op = 0x0102 && f.step = 1 && f.result.isNone && f.p 0 / 2 ^ 16 % 16 = q && f.p 0 % 2 ^ 16 = cid then
        { f with result := some { status := if status = stAborted then stOk else stTooLate } }
      else f }

/-- The reply of a command is written at the completion tail; the tail moves on, the phase turns at each wrap, and the queue's
interrupt fires if the packet asked for it (14 R325, R331, R343). -/
def writeReply (s : Block) (f : CmdFl) (r : Reply) : Block :=
  let q := f.q
  let tail := cqTail s q
  let phase := qPhase s q
  let s := hostWrite s (get64 s 0 .CMD_Q_CQBASE q + 32 * tail) (replyBytes f phase r)
  let next := (tail + 1) % cqSize s q
  let s := fput s 0 F.CMD_Q_COUNT_CQ_TAIL (ix q) next
  let done := (mget (fun _ => []) s.doneCids q ++ [f.cid])
  let s := { s with
    phases := if next = 0 then mput (fun _ => true) s.phases q (!phase) else s.phases
    flight := if f.dup then s.flight.eraseP (fun c => c.q == q && c.cid == f.cid && c.dup)
      else s.flight.filter fun c => !c.named q f.cid
    doneCids := mput (fun _ => []) s.doneCids q (done.drop (done.length - 256)) }
  let s := if f.dup then s else tellAborts s q f.cid r.status
  if f.irq then hostIrq s 0 q else s

end Sys2Proof.Machine
end

