-- ==== Sys2Proof/Machine/Wheel.lean ====
section
/-! DEFINITION. Sys2Proof/Machine/Wheel.lean: the Wheel engines: slots, maps, conversion and transfer errors (10 R238-R244). -/

namespace Sys2Proof.Machine

/-! ### Slots -/

/-- What a slot says, its registers read together (10 "Slot registers"). -/
structure Slot where
  kind : Nat
  conv : Nat
  cb : Nat
  mapEn : Bool
  rmode : Nat
  mw : Nat
  pln : Nat
  mem : Nat
  base : Nat
  pstride : Nat
  estride : Nat
  map : Nat

def slotOf (s : Block) (n i : Nat) : Slot where
  kind := fget s n F.WHL_SLOT_CFG_KIND i
  conv := fget s n F.WHL_SLOT_CFG_CONV i
  cb := 2 ^ fget s n F.WHL_SLOT_CFG_CB i
  mapEn := fbit s n F.WHL_SLOT_CFG_MAPEN i
  rmode := fget s n F.WHL_SLOT_CFG_RMODE i
  mw := fget s n F.WHL_SLOT_CFG_MW i + 1
  pln := fget s n F.WHL_SLOT_FMT_PLNFMT i
  mem := fget s n F.WHL_SLOT_FMT_MEMFMT i
  base := fget s n F.WHL_SLOT_BASE_BASE i
  pstride := fget s n F.WHL_SLOT_PSTRIDE_PSTRIDE i
  estride := fget s n F.WHL_SLOT_ESTRIDE_ESTRIDE i
  map := fget s n F.WHL_SLOT_MAP_MAP i

/-- A format that breaks R96 or R97 for a width. -/
def slotFmtBad (fmt w : Nat) : Bool := fmtKind fmt == 3 || decide (4096 ≤ fmt) || fmtBad fmt [w]

/-- Errors of the slot as a whole for a plane width (10 R240, R242 code 2).  A.WIN from the Log engine is one of them (log 36). -/
def slotBad (x : Slot) (wd : Nat) (win : Bool) : Bool :=
  decide (8 * x.cb < x.mw) || slotFmtBad x.pln wd || slotFmtBad x.mem x.mw
    || (decide (x.conv < 2) && decide (x.pln ≠ 0 ∨ x.mem ≠ 0))
    || (x.kind == 2 && (x.mapEn || decide (x.map ≠ 0) || decide (x.pstride ≠ 0) || decide (x.estride ≠ 0) || win))

/-! ### Conversion (10 R240) -/

/-- A value converted between two formats as A.CVT or A.FCVT converts it, with FTZ = 0. -/
def valueConv (src dst ws wd rmode a : Nat) : Nat × Flags :=
  let f : MopF := { mopFields 0 with fmt := src, prm := dst, wid0 := wd - 1, wid1 := ws - 1, rnd := rmode }
  let r := if fmtKind src = 2 then peFCvt f 0 0 a 0 false else peCvt f 0 0 a 0 false
  (r.bits, r.flags)

/-- Sign extension of the low `w` bits of `v` to `k` bits. -/
def sext (w k v : Nat) : Nat := wrapTo k (signedOf w v)

/-- Memory value to plane value. -/
def convIn (x : Slot) (wd v : Nat) : Nat × Flags :=
  match x.conv with
  | 0 => (v % 2 ^ min x.mw wd, {})
  | 1 => (sext (min x.mw wd) wd v, {})
  | _ => valueConv x.mem x.pln x.mw wd x.rmode v

/-- Plane value to container. -/
def convOut (x : Slot) (wd v : Nat) : Nat × Flags :=
  match x.conv with
  | 0 => (v % 2 ^ x.mw, {})
  | 1 => (sext x.mw (8 * x.cb) (v % 2 ^ x.mw), {})
  | _ =>
    let r := valueConv x.pln x.mem wd x.mw x.rmode v
    (if fmtSigned x.mem then sext x.mw (8 * x.cb) r.1 else r.1 % 2 ^ x.mw, r.2)

/-! ### Elements (10 R239) -/

/-- What a transfer gathers: lowest error code (0 none), flags, and the state; and what becomes of its next request. -/
structure XferAcc where
  code : Nat
  flags : Flags
  st : Block
  way : BusWay

def noteErr (a : XferAcc) (c : Nat) : XferAcc := { a with code := if a.code = 0 then c else min a.code c }

/-- A request of an engine for an element, in staging memory as the bank's owner or in the record store (16 R370). -/
def wheelReq (n eng kind : Nat) (req : MemReq) (a : XferAcc) : MemAns × XferAcc :=
  let t := if kind = 0 then (0x20 + bankOf req.addr, bankAddr 0 req.addr) else (0x28 + recStackOf req.addr, recLocal req.addr)
  let q := overNet1 a.st n a.way (onesData req) (fun s => timedOut s n (ownWheel eng) t.1 n t.2 4) fun s =>
    if kind = 0 then stgOwned s n (ownWheel eng) req else recReq s n (ownWheel eng) req
  (q, { a with way := .served, st := q.st })

/-- The record a PE's elements come from: `none` for a PE with no element; an error of the map word is its code. -/
inductive RecOf where
  | rcd (r : Nat)
  | noElem
  | err (c : Nat)

/-- r(i), read through the map if the slot has one. -/
def recOf (x : Slot) (n eng i : Nat) (s : Block) : RecOf × Block :=
  if x.mapEn then
    let addr := 64 * x.map + 4 * i
    if recBytes < addr + 4 then (.err 3, s)
    else
      let q := recReq s n (ownWheel eng) ⟨false, addr, List.replicate 4 none⟩
      if q.code ≠ rspOk then (.err 5, q.st)
      else if ofBytes q.data = 0xFFFFFFFF then (.noElem, q.st)
      else (.rcd (ofBytes q.data), q.st)
  else (.rcd i, s)

/-- Where a container lies. -/
def containerAddr (x : Slot) (r e : Nat) : Nat := 64 * x.base + r * x.pstride + e * x.estride

/-- Error of a container's address or bank (10 R242, codes 3 and 4). -/
def containerErr (s : Block) (n eng : Nat) (x : Slot) (addr : Nat) : Nat :=
  if addr % x.cb ≠ 0 || (if x.kind = 0 then 2 ^ 27 else recBytes) < addr + x.cb then 3
  else if x.kind = 0 && bankTreat s n (bankOf addr) (ownWheel eng) ≠ .serve then 4
  else 0

/-- STG_NOT_OWNER with an error of code 4. -/
def noteBank (a : XferAcc) (n addr c : Nat) : XferAcc :=
  let a := noteErr a c
  if c = 4 then { a with st := raise a.st n SRC.STG_NOT_OWNER (bankOf addr) 0 } else a

/-- Read one element for A.WIN: 0 in place of an element in error or a PE without one. -/
def winElem (n eng : Nat) (x : Slot) (wd i e : Nat) (a : XferAcc) : Nat × XferAcc :=
  match recOf x n eng i a.st with
  | (.noElem, s) => (0, { a with st := s })
  | (.err c, s) => (0, noteErr { a with st := s } c)
  | (.rcd r, s) =>
    let addr := containerAddr x r e
    let c := containerErr s n eng x addr
    if c ≠ 0 then (0, noteBank { a with st := s } n addr c)
    else
      let q := wheelReq n eng x.kind ⟨false, addr, List.replicate x.cb none⟩ { a with st := s }
      if q.1.code ≠ rspOk then (0, noteErr q.2 5)
      else
        let v := convIn x wd (ofBytes q.1.data % 2 ^ x.mw)
        (v.1, { q.2 with flags := a.flags.join v.2 })

/-- Elements of A.WIN in order. -/
def winElems (n eng : Nat) (x : Slot) (wd : Nat) (bad : Bool) : List (Option (Nat × Nat)) → XferAcc → List Nat × XferAcc
  | [], a => ([], a)
  | none :: l, a =>
    let r := winElems n eng x wd bad l a
    (0 :: r.1, r.2)
  | some (i, e) :: l, a =>
    let q := if bad then (0, a) else winElem n eng x wd i e a
    let r := winElems n eng x wd bad l q.2
    (q.1 :: r.1, r.2)

/-- Key of what A.WOUT `num` of gang `gk` gathers on a module for a Log port. -/
def portKey (n gk port num : Nat) : Nat := ((n * 1024 + gk) * 64 + port) * 2 ^ 32 + num % 2 ^ 32

/-- An element for the Log port. -/
def portElem (s : Block) (k i e v : Nat) : Block :=
  { s with ports := mput (fun _ => []) s.ports k (mput (fun _ => none) (mget (fun _ => []) s.ports k) (e * 2 ^ 28 + i) (some v)) }

/-- Write one element of A.WOUT, unless a PE of higher index has written the container; `l` is the slot's latch. -/
def woutElem (n gk eng : Nat) (x : Slot) (wd i e v : Nat) (p : Latch × XferAcc) : Latch × XferAcc :=
  let l := p.1
  let a := p.2
  let o := convOut x wd v
  if x.kind = 2 then
    (l, { a with st := portElem a.st (portKey n gk (x.base % 64) l.num) i e o.1, flags := a.flags.join o.2 })
  else
    match recOf x n eng i a.st with
    | (.noElem, s) => (l, { a with st := s })
    | (.err c, s) => (l, noteErr { a with st := s } c)
    | (.rcd r, s) =>
      let addr := containerAddr x r e
      let c := containerErr s n eng x addr
      if c ≠ 0 then (l, noteBank { a with st := s } n addr c)
      else if i + 1 < mget (fun _ => 0) l.wrote addr then (l, { a with st := s, flags := a.flags.join o.2 })
      else
        let q := wheelReq n eng x.kind ⟨true, addr, enBytes x.cb o.1⟩ { a with st := s }
        ({ l with wrote := mput (fun _ => 0) l.wrote addr (i + 1) },
          if q.1.code ≠ rspOk then noteErr q.2 5 else { q.2 with flags := a.flags.join o.2 })

/-! ### Transfers (10 R241-R243) -/

/-- The PEs of a tile row by row: row, column, index i in the gang, and whether the PE is active. -/
def tilePes (s : Block) (n g tk : Nat) : List (Nat × Nat × Nat × Bool) :=
  let o := tileOrigin s (gangRect s n g) tk
  let gw := gangWidth s n g
  (List.range 64).flatMap fun row =>
    let m := maskOf s tk row
    (List.range 64).map fun col => (row, col, (o.2 + row) * gw + o.1 + col, m.getLsbD col)

/-- Record the outcome of a transfer in the slot's status: ERROR, the lowest ERRCODE, FLAGS; the fault and the interrupts come
once per op (10 R240, R242, 08 R180). -/
def slotReport (s : Block) (n i gk : Nat) (l : Latch) (code : Nat) (f : Flags) : Latch × Block :=
  let fl := Nat.lor (fget s n F.WHL_SLOT_STATUS_FLAGS i) (({ f with dz := false } : Flags).toNat)
  let s := fput s n F.WHL_SLOT_STATUS_FLAGS i fl
  if code = 0 then (l, s)
  else
    let old := if fbit s n F.WHL_SLOT_STATUS_ERROR i then fget s n F.WHL_SLOT_STATUS_ERRCODE i else code
    let s := fput (fput s n F.WHL_SLOT_STATUS_ERROR i 1) n F.WHL_SLOT_STATUS_ERRCODE i (min old code)
    if l.raised then (l, s)
    else
      let s := raise s n SRC.WHL_SLOT_ERROR (ixIdx i) 0
      ({ l with raised := true }, hostIrq (irqAcu s (gk / 16) (gk % 16) cWheel) n hWheel)

/-- Does a container of the transfer lie in a bank whose handover to the engine is pending? (10 R226) -/
def xferStalls (s : Block) (n eng : Nat) (x : Slot) : Bool :=
  x.kind == 0 && (List.range 8).any fun b => bankPending s n b && bankOwner s n b == ownWheel eng

/-- The latch of a slot for a macro-op: taken now if the slot has been released since dispatch (10 R238). -/
def takeLatch (s : Block) (tn gk : Nat) (m : Mop) : Option Latch × Block :=
  let f := mopFields m.word
  let s := latchSlot s tn gk m
  match mget (fun _ => none) s.latches (latchKey tn (f.prm % 4) (f.prm / 4 % 64)) with
  | some l => (if l.gang = gk && l.num = m.num then some l else none, s)
  | none => (none, s)

/-- Tile `tk` of an A.WIN: its transfer buffer is filled. -/
def xferIn (s : Block) (n g tk eng i : Nat) (x : Slot) (m : Mop) (l : Latch) (way : BusWay) : Block :=
  let tn := tk / 1024
  let f := mopFields m.word
  let wd := f.wid0 + 1
  let pes := tilePes s n g tk
  let elems := (List.range f.cnt).flatMap fun e =>
    pes.map fun p => if p.2.2.2 && decide (m.cur ≤ e) then some (p.2.2.1, e) else none
  let bad := l.code ≠ 0 || slotBad x wd true
  let code := if l.code ≠ 0 then l.code else if slotBad x wd true then 2 else 0
  let r := winElems tn eng x wd bad elems ⟨code, {}, s, way⟩
  let q := slotReport r.2.st tn i (gkey n g) l r.2.code r.2.flags
  let s := { q.2 with latches := mput (fun _ => none) q.2.latches (tn * 256 + ixIdx i) (some q.1) }
  putTile s tk { tile s tk with whlReady := true, whlBuf := r.1 }

/-- The record a Log port gets: containers in order of element, then of PE index (10 R239, 11 R271). -/
def portBytes (x : Slot) (l : SMap (Option Nat)) : List (BitVec 8) :=
  l.flatMap fun p => match p.2 with
    | some v => leBytes x.cb v
    | none => []

/-- Element `e` of a tile of an A.WOUT: its rows are read, then written to memory or gathered for the Log port.  The flag says that a
row is uncorrectable, after which the tile reads none (02 R38). -/
def woutTile (n g tk eng : Nat) (x : Slot) (f : MopF) (bad : Bool) (p : Bool × Latch × XferAcc) (e : Nat) : Bool × Latch × XferAcc :=
  let wd := f.wid1 + 1
  let base := f.base1 + e * wd
  let old := p.2.2.st
  let rd := readAll ⟨p.1, {}, old⟩ [tk] (spanFrom base wd)
  let p := (p.1 || rd.bad, p.2.1, { p.2.2 with st := rd.st })
  if p.1 || bad then p
  else
    (false, (List.range 64).foldl (fun p row =>
      let ws := rowWords old tk row base wd
      ((tilePes old n g tk).filter fun q => q.1 == row && q.2.2.2).foldl (fun p q =>
        woutElem (tk / 1024) (gkey n g) eng x wd q.2.2.1 e (colVal ws q.2.1) p) p) p.2)

/-- An op that begins afresh gathers nothing for its port from before; a resumed one goes on with its record. -/
def portFresh (s : Block) (k : Nat) (x : Slot) (m : Mop) : Block :=
  if x.kind = 2 && m.cur == 0 then { s with ports := mput (fun _ => []) s.ports k [] } else s

/-- Tile `tk` of an A.WOUT: up to `k` more elements leave it, and its cursor follows; while its gang yields, one at most, or those up to
Cmax.  A Log port's record is posted with the last element of the module's tiles; the transfer waits while the Log engine cannot take
it (11 R272). -/
def xferOut (s : Block) (n g tk eng i k : Nat) (x : Slot) (m : Mop) (l : Latch) (way : BusWay) : Block :=
  let tn := tk / 1024
  let f := mopFields m.word
  let t := tile s tk
  let c := t.cur.toNat
  let stop := min (c + k) (stopCursor s n g m (c + 1) c f.cnt)
  let badSlot := slotBad x (f.wid1 + 1) false
  let code := if l.code ≠ 0 then l.code else if badSlot then 2 else 0
  let mine := (gangTiles s n g).filter fun t => t / 1024 == tn
  let key := portKey tn (gkey n g) (x.base % 64) m.num
  let first := mine.all fun t => !m.doneBy.contains t && (decide ((tile s t).mop ≠ some m.num) || (tile s t).cur.toNat == m.cur)
  let s' := if first then portFresh s key x m else s
  let r := (List.range (stop - c)).foldl (fun p e => woutTile n g tk eng x f (code != 0) p (c + e)) (false, l, ⟨code, {}, s', way⟩)
  if !tileReady s m.num tk then s
  else if r.1 then faultStop r.2.2.st n g (some m.num) SRC.NEWT_PLANE_UE
  else
    let q := slotReport r.2.2.st tn i (gkey n g) r.2.1 r.2.2.code r.2.2.flags
    let put := fun (s : Block) =>
      let s := { s with latches := mput (fun _ => none) s.latches (tn * 256 + ixIdx i) (some q.1) }
      putTile s tk { tile s tk with cur := BitVec.ofNat 16 stop, whlReady := decide (stop = f.cnt), since := s.now }
    let done := mine.all fun t => if t = tk then decide (stop = f.cnt) else (tile s t).cur.toNat == f.cnt || m.doneBy.contains t
    if x.kind = 2 && code == 0 && done then
      match logPort q.2 tn (x.base % 64) (portBytes x (mget (fun _ => []) q.2.ports key)) with
      | some s => put { s with ports := mput (fun _ => []) s.ports key [] }
      | none => s
    else put q.2

/-- WHEEL_TRANSFER (10 R238-R243): the Wheel serves a tile that has dispatched an A.WIN or A.WOUT; of the latter it takes up to `k`
elements. -/
def wheelTransfer (tn : Node) (t : TileIx) (k : Half) (way : BusWay) (s : Block) : Block :=
  let tk := tkey tn t
  match tileOwner s tk, (tile s tk).mop with
  | some (n, g), some num =>
    match findOp (gang s n g) num with
    | none => s
    | some m =>
      let f := mopFields m.word
      if (f.opc ≠ 0x53 && f.opc ≠ 0x54) || (tile s tk).whlReady then s
      else
        match takeLatch s tn (gkey n g) m with
        | (none, s) => s
        | (some l, s) =>
          let eng := f.prm % 4
          let i := ix (eng * 64 + f.prm / 4 % 64)
          let x := slotOf s tn i
          if xferStalls s tn eng x then s
          else if f.opc = 0x53 then xferIn s n g tk eng i x m l way
          else xferOut s n g tk eng i k.toNat x m l way
  | _, _ => s

/-! ### Engines (10 R244) -/

/-- Slots of an engine that are latched: LATCHED. -/
def latchedSlots (s : Block) (n e : Nat) : Nat :=
  (s.latches.filter fun p => p.1 / 64 == n * 4 + e && p.2.isSome).length

/-- WHEEL_EN_WRITE (10 R244). -/
def wheelEnWrite (n : Node) (e : Fin 4) (en : Bool) (s : Block) : Block :=
  enWrite s n F.WHL_ENG_EN F.WHL_ENG_STATE (ix e) en

/-- Slots of an engine that were latched while it was ON, and are latched still. -/
def slotsOwed (s : Block) (n e : Nat) : Nat :=
  (s.latches.filter fun p => p.1 / 64 == n * 4 + e && p.2.any fun l => !l.late).length

/-- WHEEL_DRAIN_DONE (10 R244): OFF once the last op latched before EN was written 0 has retired; cause WHEEL becomes pending
(08 R180). -/
def wheelDrainDone (n : Node) (e : Fin 4) (s : Block) : Block :=
  if fget s n F.WHL_ENG_STATE (ix e) = 1 && slotsOwed s n e == 0 then
    irqAll (fput s n F.WHL_ENG_STATE (ix e) 0) n cWheel
  else s

end Sys2Proof.Machine
end

