-- ==== Sys2Proof/Machine/RegRead.lean ====
section
/-! DEFINITION. Sys2Proof/Machine/RegRead.lean: where a BAR0 offset leads, and what a read of a register returns (00 R5-R8, 01 R12-R16,
13 R300, R302; the register tables). -/

namespace Sys2Proof.Machine

/-! ### Offsets (01 R12, R13) -/

/-- The index of an offset in a register set, the last stride running fastest. -/
def regMatch (sp : RegSpec) (off : Nat) : Option Nat :=
  if off < sp.base then none
  else
    let d := off - sp.base
    match sp.strides with
    | [] => if d = 0 then some 0 else none
    | (t, c) :: [] => if d % t = 0 && decide (d / t < c) then some (d / t) else none
    | (t, c) :: (t2, c2) :: _ =>
      if decide (d / t < c) && d % t % t2 = 0 && decide (d % t / t2 < c2) then some (d / t * c2 + d % t / t2) else none

/-- The register at an offset, with its index. -/
def regAt (off : Nat) : Option (Reg × Nat) := allRegs.findSome? fun r => (regMatch (regSpec r) off).map fun i => (r, i)

/-- A register of RWL fields (13 R300). -/
def isRwl (r : Reg) : Bool := (regSpec r).fields.any fun f => f.ty == .rwl

/-- The RWL register that an offset in an alias window aliases (13 R300). -/
def aliasAt (off : Nat) : Option (Reg × Nat) :=
  let rel := off % 2 ^ 20
  if 0xC0000 ≤ rel then
    match regAt (off - 0xC0000) with
    | some (r, i) => if isRwl r then some (r, i) else none
    | none => none
  else none

/-- The value of the select before a register, for context `c`; ACUSEL and TASKSEL together where both stand before it. -/
def selVal (s : Block) (c : Nat) : Sel → Nat
  | .none => 0
  | .gang => selGet s c 1
  | .tile => selGet s c 2
  | .ch => selGet s c 3
  | .drv => selGet s c 4
  | .port => selGet s c 5
  | .link => selGet s c 6
  | .dlm => selGet s c 7
  | .flt => selGet s c 8
  | .acu => selGet s c 9
  | .acuTask => at2 (selGet s c 9) (selGet s c 10)

/-! ### Fields that a read computes -/

/-- A word with a field set. -/
def wput (w : Word) (f : Fld) (v : Nat) : Word := wset w f.hi f.lo v

/-- A mask of the indices below `k` that satisfy a test. -/
def bitMask (k : Nat) (p : Nat → Bool) : Nat := (List.range k).foldl (fun m i => m + b2n (p i) * 2 ^ i) 0

/-- Number of a Newt's state (03 NEWT_SEQ_STATUS). -/
def phaseNum : TPhase → Nat
  | .idle => 0
  | .run => 1
  | .wait => 2
  | .parked => 3
  | .stopped => 4
  | .loading => 5

/-- Registers of the inspection that a context holds (02 R450). -/
def inspReg : Reg → Bool
  | .NEWT_INSP_CTRL => true
  | .NEWT_INSP_DATA_LO => true
  | .NEWT_INSP_DATA_HI => true
  | .NEWT_INSP_CHECK => true
  | .NEWT_INSP_STATUS => true
  | _ => false

/-- The NEWT and MILL registers. -/
def readNewt (s : Block) (c n : Nat) (r : Reg) (inst sel : Nat) : Word :=
  let w := rget s n r inst
  let t := tile s (tkey n sel)
  match r with
  | .NEWT_INSP_STATUS => wput (rget s (ctxHome c) r (ctxInst c)) F.NEWT_INSP_STATUS_CFG_REJECT (wbits w 8 8)
  | .NEWT_TILE_REPAIR => Config.tileRepair n sel &&& 0x007F7F03
  | .NEWT_SEQ_STATUS =>
    BitVec.ofNat 32 (phaseNum t.phase * 2 ^ 29 + t.cls % 4 * 2 ^ 27 + b2n t.fin * 2 ^ 26 + t.stack.length % 16 * 2 ^ 22
      + t.routine % 512 * 2 ^ 13 + t.upc.toNat)
  | .NEWT_SEQ_CURSOR => t.cur.zeroExtend 32
  | .MILL_TILE_OWNER =>
    match tileOwner s (tkey n sel) with
    | some (gn, g) => BitVec.ofNat 32 (2 ^ 31 + gn * 2 ^ 8 + g)
    | none => 0
  | .MILL_INFLIGHT =>
    let x := gang s n sel
    let held := b2n (fbit s n F.MILL_RESUME_CTRL_VALID sel)
    BitVec.ofNat 32 ((spreadOf x + held) % 256 * 2 ^ 16 + x.flight.length % 512)
  | .MILL_STATUS => wput w F.MILL_STATUS_GANGS_ON (bitMask 16 fun g => gState s n g != gOff)
  | r => if inspReg r then rget s (ctxHome c) r (ctxInst c) else w

/-- The ACU registers. -/
def readAcu (s : Block) (n : Nat) (r : Reg) (inst sel : Nat) : Word :=
  let w := rget s n r inst
  match r with
  | .ACU_STATUS =>
    let x := acu s n sel
    let w := wput w F.ACU_STATUS_DIV_BUSY (b2n x.divider.isSome)
    let w := wput w F.ACU_STATUS_DIV_TASK (match x.divider with
      | some d => d.task
      | none => 0)
    wput w F.ACU_STATUS_TASKS_ON ((List.range 64).filter fun k => taskState s n sel k != 0).length
  | .ACU_TASK_PEND => w ||| BitVec.ofNat 32 (fabricLevel s n (inst / 64) (inst % 64))
  | .ACU_TASK_STATUS =>
    if wbits w 2 0 = runHalted then w else wput w F.ACU_TASK_STATUS_HALT_CAUSE 0
  | _ => w

/-- The registers of the memories, the Wheel, and the fabric. -/
def readMem (s : Block) (n : Nat) (r : Reg) (idx inst : Nat) : Word :=
  let w := rget s n r inst
  match r with
  | .STG_STATUS => wput w F.STG_STATUS_REPAIRED (Config.bankRepair n).toNat
  | .WHL_ENG => wput w F.WHL_ENG_LATCHED (latchedSlots s n idx)
  | .WHL_SLOT_STATUS =>
    wput w F.WHL_SLOT_STATUS_LATCHED (b2n (mget (fun _ => none) s.latches (n * 256 + idx)).isSome)
  | .GKO_STATUS =>
    wput (wput w F.GKO_STATUS_LOAD_BUSY (b2n (load s n).isSome)) F.GKO_STATUS_RUN_MASK
      (bitMask 8 fun r => rgPhase s n r == phRun)
  | .GKO_REGION_CTRL => wput w F.GKO_REGION_CTRL_PHASE (rgPhase s n idx)
  | _ => w

/-- Modules admitted and not yet installed (15 CHR_STAGED). -/
def stagedCount (s : Block) : Nat :=
  let fresh : List ChMod := match s.tabNext with
    | some t => t.mods.filter fun m => !(s.chrTab.mods.any fun o => o.node == m.node)
    | none => []
  fresh.length + s.chrWaiting.length

/-- The registers of commands, links, Chorus and the networks. -/
def readNet (s : Block) (n : Nat) (r : Reg) (idx inst : Nat) : Word :=
  let w := rget s n r inst
  match r with
  | .CMD_Q_COUNT => wput w F.CMD_Q_COUNT_INFLIGHT (s.flight.filter fun f => f.q == idx).length
  | .SPAN_STATUS =>
    let w := wput w F.SPAN_STATUS_UP (bitMask 8 fun l => lstate s n l == lsUp)
    let w := wput w F.SPAN_STATUS_FENCED (bitMask 8 fun l => lstate s n l == lsFenced)
    match parentLink s n with
    | some l => wput (wput w F.SPAN_STATUS_PARENT_VALID 1) F.SPAN_STATUS_PARENT l
    | none => wput (wput w F.SPAN_STATUS_PARENT_VALID 0) F.SPAN_STATUS_PARENT 0
  | .CHR_STATUS =>
    let t := s.chrTab
    let w := wput (wput w F.CHR_STATUS_WRAP_Y (b2n t.wrapY)) F.CHR_STATUS_WRAP_X (b2n t.wrapX)
    let w := wput (wput w F.CHR_STATUS_MYM1 (t.myDim - 1)) F.CHR_STATUS_MXM1 (t.mxDim - 1)
    wput w F.CHR_STATUS_NODES (if [roPrimary, roSecondary, roIsolated].contains (role s n) then s.nodeTab.length else 0)
  | .CHR_STAGED => BitVec.ofNat 32 (if n = 0 then stagedCount s else 0)
  | .NOC_DOMAIN =>
    let w := wput w F.NOC_DOMAIN_HELD (min 8 (s.heldReqs.filter fun h => h.node == n && h.dom == idx).length)
    if bridgeHold s n idx then wput w F.NOC_DOMAIN_BRIDGE 3 else w
  | .NOC_RTR_TDATA =>
    BitVec.ofNat 32 (bankEntry s n idx (1 - activeBank s n idx) (fget s n F.NOC_RTR_TADDR_ENTRY (ix idx)))
  | .NOC_RTR_TACTIVE => BitVec.ofNat 32 (activePort s n idx (fget s n F.NOC_RTR_TADDR_ENTRY (ix idx)))
  | _ => w

/-- The registers of the guardians. -/
def readGuard (s : Block) (c n : Nat) (r : Reg) (inst sel : Nat) : Word :=
  let w := rget s n r inst
  match r with
  | .FLT_STATUS =>
    let w := wput (wput w F.FLT_STATUS_FAULT_N_ACTIVE (b2n (faultNLow s n))) F.FLT_STATUS_HIGHEST (highestOpen s n)
    wput w F.FLT_STATUS_OPEN (openSrcs s n).length
  | .FLT_RING => wput w F.FLT_RING_COUNT (mget (fun _ => []) s.fltRing n).length
  | .FLT_SRC_STATUS =>
    let os := (fsrc s n sel).opens
    wput (wput w F.FLT_SRC_STATUS_OPEN (b2n (!os.isEmpty))) F.FLT_SRC_STATUS_OPEN_LEVEL (topLevel os)
  | .GOV_MONITOR =>
    wput (wput w F.GOV_MONITOR_TEMP_MAX_C (tempMax s n).toNat) F.GOV_MONITOR_THROTTLE (throttleMax s n)
  | .SEC_STATUS =>
    let f := (nvsOf s n).fails
    wput (wput w F.SEC_STATUS_FAILS f) F.SEC_STATUS_LOCKOUT (b2n (f == 8))
  | .TIM_NOW_LO => BitVec.ofNat 32 (devNs s n)
  | .TIM_NOW_HI => BitVec.ofNat 32 (timLatched s c n / 2 ^ 16 / 2 ^ 32)
  | .TIM_NOW_FRAC => BitVec.ofNat 32 (timLatched s c n % 2 ^ 16)
  | .TIM_HOLD => wput w F.TIM_HOLD_ERR_NS (min 65535 (holdErr s n))
  | .NVS_BB => wput w F.NVS_BB_VALID (bbValid s n).length
  | _ => w

/-- Block of a register: bits [24:20] of its offset. -/
def regBlock (r : Reg) : Nat := (regSpec r).base / 2 ^ 20

/-- A register's word with its LIVE fields as they stand. -/
def liveWord (s : Block) (c n : Nat) (r : Reg) (idx sel : Nat) : Word :=
  let inst := ix idx sel
  let b := regBlock r
  if b = 3 || b = 5 then readNewt s c n r inst sel
  else if b = 6 then readAcu s n r inst sel
  else if b = 7 || b = 8 || b = 14 then readMem s n r idx inst
  else if b = 10 then
    if r = .SP_LANE_STATUS then
      wput (rget s n r inst) F.SP_LANE_STATUS_CFG_REJECT (fget s n F.SP_LANE_STATUS_CFG_REJECT 0)
    else rget s n r inst
  else if b = 1 || b = 15 || b = 16 || b = 17 then readNet s n r idx inst
  else if 18 ≤ b then readGuard s c n r inst sel
  else rget s n r inst

/-- Write-only fields read as zero (00 R5). -/
def readable (r : Reg) (w : Word) : Word :=
  (regSpec r).fields.foldl (fun w f => if f.ty == .wo then wset w f.hi f.lo 0 else w) w

/-! ### Pins of the fabric (12 R287) -/

/-- A pin's output enable and level: high impedance while its bank has no supply (20 R436); high impedance with its pull and the user logic's (free values, log 2), level 0, level 1, or what
it kept when its region stopped. -/
def pinBits (s : Block) (n p : Nat) : Nat × Block :=
  let v := mget (fun _ => 0) s.pins (n * 128 + p)
  if (pow s n).lowIo.getLsbD (p / 12) then
    let r := drawFree s
    (b2n (r.1.getLsbD 0) * 2 ^ 31, r.2)
  else if v = 2 then (2 ^ 30, s)
  else if v = 3 then (2 ^ 30 + 2 ^ 31, s)
  else if 4 ≤ v then (v % 2 * 2 ^ 31 + v / 2 % 2 * 2 ^ 30, s)
  else
    let r := drawFree s
    (b2n (r.1.getLsbD 0) * 2 ^ 31 + b2n (decide (v = 1) && r.1.getLsbD 1) * 2 ^ 30, r.2)

/-! ### One read (01 R14, R16) -/

/-- What a read of a register returns.  Reads of TIM_NOW_LO and SEC_CHALLENGE_0 are the two that change the module's state (01 R14); one of a locked
function returns 0 and is recorded (19 R430). -/
def readReg (s : Block) (c : Ctx) (n : Nat) (r : Reg) (idx : Nat) : Word × Block :=
  let k := ctxNum c
  match r with
  | .CMD_SELECT => (BitVec.ofNat 32 (selGet s (idx / 11) (idx % 11)), s)
  | .GKO_PIN =>
    let p := pinBits s n idx
    (rget s n r (ix idx) ||| BitVec.ofNat 32 p.1, p.2)
  | .TIM_NOW_LO =>
    (BitVec.ofNat 32 (devNs s n), { s with timLatch := mput (fun _ => 0) s.timLatch (latchAt k n) (devTime s n) })
  | .SEC_CHALLENGE =>
    if idx = 0 then
      let s := drawChallenge s n
      (rget s n r 0, s)
    else (rget s n r (ix idx), s)
  | .DBG_ACU_REG => if dbgLocked s n then (0, secDenied s n) else (rget s n r (selVal s k .acuTask), s)
  | .DBG_ACU_DATA => if dbgLocked s n then (0, secDenied s n) else (rget s n r (selVal s k .acuTask), s)
  | r => (readable r (liveWord s k n r idx (selVal s k (regSpec r).sel)), s)

/-- A read of an RWL register's alias: for each field the latest accepted write, sealed or not; else the committed value (13 R300). -/
def readAlias (s : Block) (k : Nat) : Word :=
  let at_ := fun (m : SMap (Word × Word)) => mget (fun _ => (0, 0)) m k
  overlay (overlay (overlay (mget regDefault s.regs k) (at_ s.sealedRwl)) (at_ s.shadow)) (at_ s.shadowLate)

/-- The key of a register for a context. -/
def regKeyOf (s : Block) (c n : Nat) (r : Reg) (idx : Nat) : Nat := rkey n r (ix idx (selVal s c (regSpec r).sel))

/-- The offset of a context's own selects, as the offset of its own copy (14 R336). -/
def ownSelect (off : Nat) : Option Nat :=
  if 0x00100100 ≤ off && off < 0x0010012C && off % 4 = 0 then some ((off - 0x00100100) / 4) else none

/-- The region whose target window holds an offset, with the offset inside it (12 R286). -/
def windowOf (off : Nat) : Option (Nat × Nat) :=
  if 0x00E10000 ≤ off && off < 0x00E90000 then some ((off - 0x00E10000) / 2 ^ 16, off % 2 ^ 16) else none

/-- The endpoint that a BAR0 offset reaches, and the address there: a Gecko window, or a register block (16 R365). -/
def regEp (off : Nat) : Nat × Nat :=
  match windowOf off with
  | some (r, o) => (0x50 + r, o)
  | none => (0x30 + off / 2 ^ 20, off % 2 ^ 20)

end Sys2Proof.Machine
end

