-- ==== Sys2Proof/Machine/Router.lean ====
section
/-! DEFINITION. Sys2Proof/Machine/Router.lean: what a write of a register does, accesses to BAR0 and BAR2 as they arrive, and the
commands that make them (00 R5-R8, 01 R12-R20, 13 R300, 14 R336, R337; the register tables). -/

namespace Sys2Proof.Machine

/-! ### Fields (00 R5-R7) -/

/-- One field of a write, by its type; `true`: a reserved value was written. -/
def writeField (w : Word) (a : Word × Bool) (f : FieldSpec) : Word × Bool :=
  let v := wbits w f.hi f.lo
  match f.ty with
  | .rw => if legalOk f.legal v then (wset a.1 f.hi f.lo v, a.2) else (a.1, true)
  | .rwl => if legalOk f.legal v then (wset a.1 f.hi f.lo v, a.2) else (a.1, true)
  | .w1c => (a.1 &&& ~~~BitVec.ofNat 32 (v * 2 ^ f.lo), a.2)
  | .w1s => (a.1 ||| BitVec.ofNat 32 (v * 2 ^ f.lo), a.2)
  | .wo => (a.1, a.2 || !legalOk f.legal v)
  | _ => a

/-- The fields of a register that a plain write reaches, less those whose high bit is in `skip`. -/
def fieldsBut (r : Reg) (skip : List Nat) : List FieldSpec := (regSpec r).fields.filter fun f => !skip.contains f.hi

/-- The sticky CFG_REJECT of a register's block is set (00 R7, 02 R52): `idx` its index, `sel` its select; for a channel's source it is
that of the stream in its CH_ROUTE, for the ACU register path that of the ACU (19 R431; log 50). -/
def setReject (s : Block) (n : Nat) (r : Reg) (idx sel : Nat) : Block :=
  match cfgHome r with
  | none => s
  | some .NEWT_STATUS => if (regSpec r).sel = .tile then newtReject s n sel false else fset s n F.NEWT_STATUS_CFG_REJECT 1
  | some .SP_LANE_STATUS => spReject s n
  | some .CH_STRM_STATUS => strmReject s n (if r = .CH_SRC then fget s n F.CH_ROUTE_STREAM sel else idx)
  | some .WHL_ENG => fput s n F.WHL_ENG_CFG_REJECT (ix (if r = .WHL_ENG then idx else idx / 64)) 1
  | some .CMD_Q_STATUS => queueReject s idx
  | some .ACU_STATUS => acuReject s n (if (regSpec r).sel = .acuTask then sel / 64 else sel)
  | some .GOV_STATE => govReject s n
  | some .TIM_STATUS => timReject s n
  | some .DRV_GLOBAL => drvReject s n
  | some .LOG_STATUS => logReject s n
  | some h => fput s n ⟨h, 0, 0⟩ 0 1

/-- A write by field type alone (00 R5-R7), but for the fields in `skip`. -/
def writeBut (skip : List Nat) (s : Block) (n : Nat) (r : Reg) (idx sel : Nat) (w : Word) : Block :=
  let inst := ix idx sel
  let a := (fieldsBut r skip).foldl (writeField w) (rget s n r inst, false)
  let s := rput s n r inst a.1
  if a.2 then setReject s n r idx sel else s

/-- Would a write change the fields other than those in `skip`? -/
def wouldChange (skip : List Nat) (s : Block) (n : Nat) (r : Reg) (idx sel : Nat) (w : Word) : Bool :=
  let old := rget s n r (ix idx sel)
  (fieldsBut r skip).any fun f => f.ty == .rw && wbits w f.hi f.lo != wbits old f.hi f.lo

/-- Fields in `locked` are written only while `isOff`; a write of others that would change one leaves them all and is rejected (11 R453 and
"Channel registers", 13 R307, 14 R328; log 50). -/
def writeLocked (isOff : Bool) (free : List Nat) (s : Block) (n : Nat) (r : Reg) (idx sel : Nat) (w : Word) : Block :=
  if isOff then writeBut [] s n r idx sel w
  else
    let s1 := if wouldChange free s n r idx sel w then setReject s n r idx sel else s
    writeBut (((regSpec r).fields.map (·.hi)).filter fun h => !free.contains h) s1 n r idx sel w

/-- A register that is written only while its unit is OFF; any other write is discarded and rejected. -/
def writeOff (isOff : Bool) (s : Block) (n : Nat) (r : Reg) (idx sel : Nat) (w : Word) : Block :=
  if isOff then writeBut [] s n r idx sel w else setReject s n r idx sel

/-- The counts that a register's CLEAR bit sets to 0: the bit, and the fields cleared. -/
def clearOf : Reg → Option (Nat × List Fld)
  | .NEWT_PLANE_ECC => some (31, [F.NEWT_PLANE_ECC_UE_COUNT, F.NEWT_PLANE_ECC_CE_COUNT])
  | .NEWT_STORE_ECC => some (31, [F.NEWT_STORE_ECC_UE_COUNT, F.NEWT_STORE_ECC_CE_COUNT])
  | .ACU_RAM_ECC => some (31, [F.ACU_RAM_ECC_UE_COUNT, F.ACU_RAM_ECC_CE_COUNT])
  | .STG_ECC => some (31, [F.STG_ECC_UE_COUNT, F.STG_ECC_CE_COUNT])
  | .REC_ECC => some (31, [F.REC_ECC_UE_COUNT, F.REC_ECC_CE_COUNT])
  | .CRK_ROUND => some (31, [F.CRK_ROUND_MAX_NS])
  | .SP_LANE_STATUS => some (15, [F.SP_LANE_STATUS_CRC_COUNT])
  | .GKO_REGION_STATUS => some (28, [F.GKO_REGION_STATUS_CFG_CE_COUNT])
  | .GKO_REGION_RAM => some (31, [F.GKO_REGION_RAM_UE_COUNT, F.GKO_REGION_RAM_CE_COUNT])
  | .WEIR_COMMIT_NS => some (31, [F.WEIR_COMMIT_NS_MAX_NS])
  | .SPAN_LINK_ERR => some (31, [F.SPAN_LINK_ERR_REPLAYS, F.SPAN_LINK_ERR_FEC_CORR])
  | .NOC_LATE => some (31, [F.NOC_LATE_COUNT])
  | .NVS_ECC => some (31, [F.NVS_ECC_UE_COUNT, F.NVS_ECC_CE_COUNT])
  | _ => none

/-- The CLEAR bit of a write. -/
def writeClear (s : Block) (n : Nat) (r : Reg) (idx sel : Nat) (w : Word) : Block :=
  match clearOf r with
  | some (b, fs) => if w.getLsbD b then fs.foldl (fun s f => fput s n f (ix idx sel) 0) s else s
  | none => s

/-- Registers whose bit 31, written 1, clears the record they hold, with the registers that hold the rest of it. -/
def recordOf : Reg → Option (List (Reg × Nat))
  | .NEWT_PLANE_ERRADDR => some []
  | .NEWT_STORE_ERR => some []
  | .MILL_ILLEGAL => some ((List.range 4).map fun i => (.MILL_ILLEGAL_OP, i))
  | .MILL_FTRAP => some []
  | .GKO_CONTENTION => some []
  | .NOC_ERR => some [(.NOC_ERR_ADDR, 0), (.NOC_ERR_ADDR, 1)]
  | _ => none

/-- The record's clearing by a write. -/
def writeRecord (s : Block) (n : Nat) (r : Reg) (idx sel : Nat) (w : Word) : Block :=
  match recordOf r with
  | some more =>
    if w.getLsbD 31 then more.foldl (fun s p => rput s n p.1 (ix p.2 sel) 0) (rput s n r (ix idx sel) 0) else s
  | none => s

/-- A plain write. -/
def plain (s : Block) (n : Nat) (r : Reg) (idx sel : Nat) (w : Word) : Block :=
  writeRecord (writeClear (writeBut [] s n r idx sel w) n r idx sel w) n r idx sel w

/-! ### RWL fields (13 R300) -/

/-- A partial write over what a map holds for a register. -/
def rwlPut (m : SMap (Word × Word)) (k : Nat) (e : Word × Word) : SMap (Word × Word) :=
  mput (fun _ => (0, 0)) m k (overTwo (mget (fun _ => (0, 0)) m k) e)

/-- A write of an RWL register, or of its alias, is accepted into the module's shadow; one of the host's that travels behind PREPARE
waits for the node's seal (13 R300, R301).  A field written with a reserved value is left untouched. -/
def rwlWrite (s : Block) (c : Ctx) (n : Nat) (r : Reg) (idx sel : Nat) (w : Word) : Block :=
  let k := rkey n r (ix idx sel)
  let a := rwlTake r w
  let host := match c with
    | .queue _ => true
    | _ => false
  let s := if host && behindPrepare s n then { s with shadowLate := rwlPut s.shadowLate k a.1 }
    else { s with shadow := rwlPut s.shadow k a.1 }
  if a.2 then setReject s n r idx sel else s

/-! ### The blocks -/

/-- The module and the instances that a write acts on. -/
def fin64 (k : Nat) : Fin 64 := Fin.ofNat 64 k

/-- A write of NEWT_INSP_CTRL that starts nothing. -/
def inspIdle (s : Block) (c : Ctx) (n t : Nat) (w : Word) : Block :=
  let h := ctxHome (ctxNum c)
  let i := ctxInst (ctxNum c)
  let a := (fieldsBut .NEWT_INSP_CTRL []).foldl (writeField w) (rget s h .NEWT_INSP_CTRL i, false)
  let s := rput s h .NEWT_INSP_CTRL i a.1
  if a.2 then newtReject s n t false else s

/-- The fields of a write of NEWT_STORE_CTRL that starts no word operation; a reserved STORE is reported where R52 says (02 R52, 03
"Registers": the module's bit with BCAST = 1). -/
def storeCtrlWrite (s : Block) (n t : Nat) (w : Word) : Block :=
  let a := (fieldsBut .NEWT_STORE_CTRL []).foldl (writeField w) (rget s n .NEWT_STORE_CTRL t, false)
  let s := rput s n .NEWT_STORE_CTRL t a.1
  if a.2 then newtReject s n t (w.getLsbD 27) else s

/-- Block NEWT (02, 03). -/
def writeNewt (s : Block) (c : Ctx) (n : Nat) (r : Reg) (idx sel : Nat) (w : Word) : Block :=
  let nn := fin64 n
  let t : TileIx := Fin.ofNat 1024 sel
  let h := ctxHome (ctxNum c)
  let i := ctxInst (ctxNum c)
  match r with
  | .NEWT_SCRUB_CTRL => scrubEnWrite nn (w.getLsbD 0) (writeBut [0] s n r idx sel w)
  | .NEWT_INSP_CTRL =>
    match wbits w 31 30 with
    | 1 => inspectionRead c nn t (w.extractLsb' 28 2) (w.extractLsb' 0 6) (w.extractLsb' 16 11) s
    | 2 => inspectionWrite c nn t (w.extractLsb' 28 2) (w.extractLsb' 0 6) (w.extractLsb' 16 11) s
    | _ => inspIdle s c n sel w
  | .NEWT_INSP_STATUS =>
    let s := rput s h r i (rget s h r i &&& ~~~(w &&& 0x6))
    if w.getLsbD 8 then fput s n F.NEWT_INSP_STATUS_CFG_REJECT sel 0 else s
  | .NEWT_INSP_DATA_LO => rput s h r i w
  | .NEWT_INSP_DATA_HI => rput s h r i w
  | .NEWT_INSP_CHECK => rput s h r i (w &&& 0xFF)
  | .NEWT_STORE_CTRL =>
    match wbits w 31 30 with
    | 1 => storeWordRead nn t (w.extractLsb' 28 2) (w.getLsbD 27) (w.getLsbD 26) (w.extractLsb' 0 13) s
    | 2 => storeWordWrite nn t (w.extractLsb' 28 2) (w.getLsbD 27) (w.getLsbD 26) (w.extractLsb' 0 13) s
    | 3 => if (tile s (tkey n sel)).storeOp.isSome then s else storeVerify nn t (w.getLsbD 27) (storeCtrlWrite s n sel w)
    | _ => storeCtrlWrite s n sel w
  | r => plain s n r idx sel w

/-- Blocks MILL and CRK (04 R119, 06). -/
def writeMill (s : Block) (n : Nat) (r : Reg) (idx sel : Nat) (w : Word) : Block :=
  let nn := fin64 n
  let g : GangIx := Fin.ofNat 16 sel
  match r with
  | .MILL_RESUME_CTRL => if w.getLsbD 30 then resumeDiscard nn g s else s
  | .MILL_GANG_CTRL =>
    let s := gangEnWrite nn g (w.getLsbD 0) s
    let s := if w.getLsbD 1 then gangStopWrite nn g s else s
    if w.getLsbD 2 then gangResumeWrite nn g s else s
  | r => plain s n r idx sel w

/-- Block ACU (08). -/
def writeAcu (s : Block) (n : Nat) (r : Reg) (idx sel : Nat) (w : Word) : Block :=
  let nn := fin64 n
  let a := sel / 64
  let k := sel % 64
  match r with
  | .ACU_TASK_PSW => if taskState s n a k = 0 then plain s n r idx sel w else acuReject s n a
  | .ACU_TASK_PC => if taskState s n a k = 0 then plain s n r idx sel w else acuReject s n a
  | .ACU_TASK_FSR => if taskState s n a k = 0 then plain s n r idx sel w else acuReject s n a
  | .ACU_TASK_CTRL => taskEn (writeBut [0] s n r idx sel w) n a k (w.getLsbD 0)
  | .ACU_CTRL =>
    if wouldChange [] s n r idx sel w && (List.range 64).any (fun k => taskState s n sel k != 0) then acuReject s n sel
    else plain s n r idx sel w
  | .ACU_IPI => acuIpi nn (Fin.ofNat 16 sel) (w.setWidth 16) s
  | .ACU_BELL => acuBell nn (Fin.ofNat 16 sel) w s
  | .ACU_RAM_TEST =>
    patrolEn (writeBut [0] s n r idx sel w) n F.ACU_RAM_TEST_EN F.ACU_RAM_TEST_STATE sel (w.getLsbD 0)
  | r => plain s n r idx sel w

/-- Blocks STG, REC and WHL (10). -/
def writeMem (s : Block) (n : Nat) (r : Reg) (idx sel : Nat) (w : Word) : Block :=
  let nn := fin64 n
  match r with
  | .STG_BANK_OWNER =>
    let s := if w.getLsbD 30 then fput s n F.STG_BANK_OWNER_REFUSED (ix idx) 0 else s
    ownerWrite nn (Fin.ofNat 8 idx) (Fin.ofNat 32 (wbits w 4 0)) s
  | .STG_TEST => patrolEn (writeBut [0] s n r idx sel w) n F.STG_TEST_EN F.STG_TEST_STATE 0 (w.getLsbD 0)
  | .REC_SCRUB => patrolEn (writeBut [0] s n r idx sel w) n F.REC_SCRUB_EN F.REC_SCRUB_STATE 0 (w.getLsbD 0)
  | .REC_RING_AREA => ringAreaWrite s n idx w
  | .REC_RING_CTRL =>
    let s := ringEnWrite nn (Fin.ofNat 32 idx) (w.getLsbD 0) (writeBut [0] s n r idx sel w)
    let s := if w.getLsbD 31 then ringResume nn (Fin.ofNat 32 idx) s else s
    if w.getLsbD 30 then ringTrigger nn (Fin.ofNat 32 idx) s else s
  | .WHL_ENG => wheelEnWrite nn (Fin.ofNat 4 idx) (w.getLsbD 0) (writeBut [0] s n r idx sel w)
  | r =>
    if regBlock r = 7 && (mget (fun _ => none) s.latches (n * 256 + idx)).isSome then
      fput s n F.WHL_ENG_WRITE_REFUSED (ix (idx / 64)) 1
    else
      let s := plain s n r idx sel w
      if r = .WHL_SLOT_STATUS && w.getLsbD 31 then fput s n F.WHL_SLOT_STATUS_ERRCODE (ix idx) 0 else s

/-- Blocks SP, CH and DRV (11). -/
def writeStream (s : Block) (n : Nat) (r : Reg) (idx sel : Nat) (w : Word) : Block :=
  let nn := fin64 n
  match r with
  | .SP_LANE_CFG =>
    let a := (fieldsBut r []).foldl (writeField w) (rget s n r sel, false)
    let s := laneCfgWrite s n sel a.1
    if a.2 then spReject s n else s
  | .SP_LANE_STATUS =>
    let s := writeClear s n r idx sel w
    if w.getLsbD 3 then fput s n F.SP_LANE_STATUS_CFG_REJECT 0 0 else s
  | .SP_JLINK_CFG0 => jlinkEnWrite nn (Fin.ofNat 16 idx) (w.getLsbD 31) (writeBut [31] s n r idx sel w)
  | .CH_STRM_CTRL =>
    streamEnWrite nn (fin64 idx) (w.getLsbD 31)
      (writeLocked (strmState s n idx = 0) [31] s n r idx sel (wset w 31 31 (fget s n F.CH_STRM_CTRL_EN (ix idx))))
  | .CH_STRM_SHAPE => writeOff (strmState s n idx = 0) s n r idx sel w
  | .CH_STRM_BASE => writeOff (strmState s n idx = 0) s n r idx sel w
  | .CH_STRM_BUFSTRIDE => writeOff (strmState s n idx = 0) s n r idx sel w
  | .CH_STRM_DESC => writeOff (strmState s n idx = 0) s n r idx sel w
  | .DRV_CFG =>
    driveEnWrite nn (Fin.ofNat 256 sel) (w.getLsbD 31)
      (writeLocked (drvState s n sel = 0) [31] s n r idx sel (wset w 31 31 (fget s n F.DRV_CFG_EN sel)))
  | .DRV_RING => writeOff (drvState s n sel = 0) s n r idx sel w
  | .DRV_SAFE => writeOff (drvState s n sel = 0) s n r idx sel w
  | .DRV_RINGLEN =>
    if drvState s n sel ≠ 0 || w.toNat % 16 ≠ 0 || decide (w.toNat < 2048) || decide (2 ^ 28 < w.toNat) then drvReject s n
    else plain s n r idx sel w
  | .DRV_READY => drvReadyWrite nn (Fin.ofNat 256 sel) (Fin.ofNat 3 (idx + 1)) (w.setWidth 64) s
  | .DRV_CTRL =>
    if w.getLsbD 0 && w.getLsbD 1 then fput (driveMuteWrite nn (Fin.ofNat 256 sel) s) n F.DRV_STATUS_UNMUTE_REFUSED sel 1
    else if w.getLsbD 1 then driveUnmuteWrite nn (Fin.ofNat 256 sel) s
    else if w.getLsbD 0 then driveMuteWrite nn (Fin.ofNat 256 sel) s
    else s
  | .DRV_GLOBAL =>
    let s := plain s n r idx sel w
    if w.getLsbD 0 then muteAllWrite nn s else s
  | r => plain s n r idx sel w

/-- Blocks LOG and GKO (11, 12). -/
def writeLog (s : Block) (n : Nat) (r : Reg) (idx sel : Nat) (w : Word) : Block :=
  let nn := fin64 n
  let logOff := fget s n F.LOG_CTRL_STATE == 0
  match r with
  | .LOG_CTRL =>
    logEnWrite nn (w.getLsbD 31)
      (writeLocked logOff [31, 28] s n r idx sel (wset w 31 31 (fget s n F.LOG_CTRL_EN)))
  | .LOG_HOST_BASE => writeOff logOff s n r idx sel (if idx = 0 then w &&& 0xFFFFF000 else w)
  | .LOG_HOST_SIZE => writeOff logOff s n r idx sel w
  | .LOG_HOST_RPTR => logRptrWrite nn (Fin.ofNat 3 (idx + 1)) (w.setWidth 64) s
  | .LOG_EVENT => s
  | .GKO_IRQ_EN => fabricIrq (plain s n r idx sel w) n
  | .GKO_CAPTURE_CTRL =>
    let c := wbits w 31 30
    let go := (c == 1 || c == 2) && fbit s n F.GKO_CAPTURE_CTRL_BUSY
    let s := if go then s else plain s n r idx sel w
    match c with
    | 1 => capture nn (w.getLsbD 29) (w.extractLsb' 16 8) s
    | 2 => captureResume nn s
    | _ => s
  | .GKO_REGION_CTRL => regionEnWrite nn (Fin.ofNat 8 idx) (w.getLsbD 31) s
  | r => plain s n r idx sel w

/-- Block WEIR (13): COMMIT, DISCARD and MODE act on the primary only. -/
def writeWeir (s : Block) (n : Nat) (r : Reg) (idx sel : Nat) (w : Word) : Block :=
  let nn := fin64 n
  let pubOff := pubF s n idx F.WEIR_PUB_CTRL_STATE == 0
  match r with
  | .WEIR_CTRL =>
    if n ≠ 0 || !isPrimary s then weirReject s n
    else
      let s := plain s n r idx sel w
      let s := if w.getLsbD 1 then weirDiscard nn s else s
      if w.getLsbD 0 then weirCommitWrite nn s else s
  | .WEIR_PUB_CTRL =>
    let s := writeLocked pubOff [31, 26, 25] s n r idx sel (wset w 31 31 (pubF s n idx F.WEIR_PUB_CTRL_EN))
    let s := pubEnWrite nn (Fin.ofNat 32 idx) (w.getLsbD 31) s
    if w.getLsbD 26 then pubReadyWrite nn (Fin.ofNat 32 idx) (Fin.ofNat 4 (wbits w 25 24)) s else s
  | .WEIR_PUB_BASE => writeOff pubOff s n r idx sel w
  | .WEIR_PUB_SIZE => writeOff pubOff s n r idx sel w
  | r => plain s n r idx sel w

/-- Block CMD (14). -/
def writeCmd (s : Block) (r : Reg) (idx sel : Nat) (w : Word) : Block :=
  let qOff := fun (q : Nat) => qState s q == 0
  match r with
  | .CMD_SELECT => selWrite s (idx / 11) (idx % 11) w
  | .CMD_Q_CTRL =>
    queueEnWrite (Fin.ofNat 16 idx) (w.getLsbD 31)
      (writeLocked (qOff idx) [31] s 0 r idx sel (wset w 31 31 (fget s 0 F.CMD_Q_CTRL_EN (ix idx))))
  | .CMD_Q_SQBASE =>
    if qOff (idx / 2) then plain s 0 r idx sel (if idx % 2 = 0 then w &&& 0xFFFFF000 else w) else queueReject s (idx / 2)
  | .CMD_Q_CQBASE =>
    if qOff (idx / 2) then plain s 0 r idx sel (if idx % 2 = 0 then w &&& 0xFFFFF000 else w) else queueReject s (idx / 2)
  | .CMD_Q_SQ_TAIL => sqTailWrite (Fin.ofNat 16 idx) (w.setWidth 16) s
  | .CMD_Q_CQ_HEAD => cqHeadWrite (Fin.ofNat 16 idx) (w.setWidth 16) s
  | r => plain s 0 r idx sel w

/-- Blocks SPAN, CHR and NOC (15, 16). -/
def writeNet (s : Block) (n : Nat) (r : Reg) (idx sel : Nat) (w : Word) : Block :=
  let nn := fin64 n
  match r with
  | .SPAN_LINK_CTRL => spanLinkEnWrite nn (Fin.ofNat 8 sel) (w.getLsbD 31) s
  | .NOC_ISOLATE => nocIsolateWrite nn (Fin.ofNat 8 idx) w s
  | .NOC_RTR_CTRL =>
    let s := plain s n r idx sel w
    if w.getLsbD 31 then routerSwap nn (Fin.ofNat 48 idx) s else s
  | .NOC_RTR_TDATA => tdataWrite s n idx (wbits w 3 0)
  | r => plain s n r idx sel w

/-- FLT_SRC_CFG (17 R383-R391): a level below DEFAULT is reserved, and EN reads 1, for a source whose DEFAULT is 3 or 4; RESET is for
the sources that R390 names. -/
def srcCfgWrite (s : Block) (n src : Nat) (w : Word) : Block :=
  let d := fget s n F.FLT_SRC_CFG_DEFAULT src
  let low := decide (3 ≤ d) && decide (wbits w 10 8 < d)
  let skip := (if low then [10] else []) ++ (if 3 ≤ d then [0] else []) ++ (if srcMayReset src then [] else [1])
  let s := writeBut skip s n .FLT_SRC_CFG 0 src w
  if low then fset s n F.FLT_STATUS_CFG_REJECT 1 else s

/-- DLM_CTRL (17 R392-R394). -/
def dlmCtrlWrite (s : Block) (n m : Nat) (w : Word) : Block :=
  let nn := fin64 n
  let mm := fin64 m
  let locked := fget s n F.DLM_CTRL_STATE m != 0
  let old := rget s n .DLM_CTRL m
  let moves := [(28, 27), (26, 25), (13, 8), (7, 0)].any fun p => wbits w p.1 p.2 != wbits old p.1 p.2
  let s := if locked then
      let s := writeBut [31, 28, 26, 13, 7] s n .DLM_CTRL 0 m w
      if moves then fset s n F.FLT_STATUS_CFG_REJECT 1 else s
    else writeBut [31] s n .DLM_CTRL 0 m w
  let s := dlmEnWrite nn mm (w.getLsbD 31) s
  let s := if w.getLsbD 23 then dlmArmWrite nn mm s else s
  if w.getLsbD 22 then dlmDoneWrite nn mm s else s

/-- Blocks FLT and DLM (17). -/
def writeFault (s : Block) (n : Nat) (r : Reg) (idx sel : Nat) (w : Word) : Block :=
  let nn := fin64 n
  let src : BitVec 8 := BitVec.ofNat 8 sel
  match r with
  | .FLT_CTRL =>
    let s := plain s n r idx sel w
    if w.getLsbD 31 then clearFirst nn s else s
  | .FLT_REACT => if idx = 4 then s else plain s n r idx sel w
  | .FLT_SRC_CFG => if (srcDefault sel).isSome then srcCfgWrite s n sel w else s
  | .FLT_SRC_LEAK => if (srcDefault sel).isSome then leakWrite s n sel w else s
  | .FLT_SRC_ESC => if (srcDefault sel).isSome then plain s n r idx sel w else s
  | .FLT_SRC_STATUS => if w.getLsbD 30 && (srcDefault sel).isSome then faultAckWrite nn src s else s
  | .DLM_CTRL => dlmCtrlWrite s n sel w
  | .DLM_OFFSET =>
    if fget s n F.DLM_CTRL_STATE sel = 0 || rget s n r (ix idx sel) = w then plain s n r idx sel w
    else fset s n F.FLT_STATUS_CFG_REJECT 1
  | r => plain s n r idx sel w

/-- Blocks GOV, TIM, NVS, DBG and SEC (18, 19). -/
def writeGuard (s : Block) (n : Nat) (r : Reg) (idx sel : Nat) (w : Word) : Block :=
  let nn := fin64 n
  match r with
  | .GOV_REQ => govReqWrite nn (w.extractLsb' 0 3) (w.getLsbD 8) s
  | .GOV_CLK => govClkWrite nn w s
  | .GOV_DOMAIN => domainDownWrite nn (w.extractLsb' 4 4) s
  | .TIM_CTRL =>
    let v := wbits w 1 0
    let s := writeBut [1] s n r idx sel w
    let s := if v = 3 then timReject s n else refselWrite s n v
    if w.getLsbD 31 then timSetWrite nn s else s
  | .SEC_UNLOCK =>
    if w.getLsbD 31 then secUnlock nn (w.extractLsb' 0 3) s else plain s n r idx sel w
  | .SEC_RESPONSE => rput s n r (ix idx) w
  | .DBG_ACU_REG =>
    let a : Fin 16 := Fin.ofNat 16 (sel / 64)
    let k : Fin 64 := Fin.ofNat 64 (sel % 64)
    if dbgLocked s n then secDenied s n
    else match wbits w 31 30 with
    | 1 => dbgRegRead nn a k (w.extractLsb' 0 6) s
    | 2 => dbgRegWrite nn a k (w.extractLsb' 0 6) s
    | _ => plain s n r idx sel w
  | .DBG_ACU_DATA => if dbgLocked s n then secDenied s n else plain s n r idx sel w
  | r => plain s n r idx sel w

/-- A write of a register: `idx` its index, `sel` the value of its select. -/
def writeReg (s : Block) (c : Ctx) (n : Nat) (r : Reg) (idx sel : Nat) (w : Word) : Block :=
  let b := regBlock r
  if isRwl r then rwlWrite s c n r idx sel w
  else if b = 1 then writeCmd s r idx sel w
  else if b = 2 then writeWeir s n r idx sel w
  else if b = 3 || b = 4 then writeMill s n r idx sel w
  else if b = 5 then writeNewt s c n r idx sel w
  else if b = 6 then writeAcu s n r idx sel w
  else if b = 7 || b = 8 || b = 9 then writeMem s n r idx sel w
  else if b = 10 || b = 11 || b = 12 then writeStream s n r idx sel w
  else if b = 13 || b = 14 then writeLog s n r idx sel w
  else if b = 15 || b = 16 || b = 17 then writeNet s n r idx sel w
  else if b = 18 || b = 19 then writeFault s n r idx sel w
  else if b = 20 || b = 21 || 22 ≤ b then writeGuard s n r idx sel w
  else plain s n r idx sel w

/-! ### BAR0 (01 R12-R16) -/

/-- The module that an access to an offset addresses: the CMD block is always the primary's (01 R15). -/
def accessNode (s : Block) (c : Ctx) (off : Nat) : Nat := if off / 2 ^ 20 = 1 then 0 else ctxNode s c

/-- How an access to a register block of a module is answered there: an absent node and an isolated block as an isolated target, a node
in Brake, Rest or Off as powered down (01 R16; 16 R365, R371; 14 R342).  Blocks 0x1A and up are reserved and no endpoint (01 R13). -/
def accessCode (s : Block) (n off : Nat) : Nat :=
  if !nodePresent s n then rspIsolated
  else if !served s n then rspPwrOff
  else if off / 2 ^ 20 < 0x1A && isolatedEp s n (regEp off).1 then rspIsolated
  else rspOk

/-- No request of module `h` reaches module `n` of the node table: one of them is fenced, or the route is broken (15 R350, R358, 16 R367). -/
def cutFrom (s : Block) (h n : Nat) : Bool :=
  h != n && nodePresent s n && (s.fenced.contains h || s.fenced.contains n || !bunelRoute s n 64 h)

/-- How far a packet gets: to its target, to router `r` of module `m` that lacks the route, or nowhere. -/
inductive BusPath where
  | there
  | lacks (m r : Nat)
  | gone
  deriving DecidableEq, Repr

def onModule (s : Block) (m e ep : Nat) : BusPath :=
  match netPath s m e ep with
  | .there => .there
  | .lacks r => .lacks m r
  | .loops => .gone

/-- The path of a packet from endpoint `e` of module `h` to endpoint `ep` of module `n`: for another module over the span gateways; the
gateway itself answers for a module that is absent (16 R367, R374). -/
def busPath (s : Block) (h e n ep : Nat) : BusPath :=
  if h = n then onModule s n e ep
  else
    match onModule s h e 0x80 with
    | .there => if !nodePresent s n then .there else if cutFrom s h n then .gone else onModule s n 0x80 ep
    | p => p

/-- The endpoint of a context (16 R365). -/
def ctxEp : Ctx → Nat
  | .queue _ => ownHost
  | .acu _ a => a.val
  | .region _ r => ownGecko + r.val / 4

/-- The path of endpoint `e` of module `h` to a BAR0 offset of module `n`; a reserved block is no endpoint (01 R13). -/
def regPath (s : Block) (h e n off : Nat) : BusPath :=
  if 0x1A ≤ off / 2 ^ 20 then (if cutFrom s h n then .gone else .there) else busPath s h e n (regEp off).1

/-- How an access of a context is answered. -/
def pathCode (s : Block) (c : Ctx) (n off : Nat) : Nat :=
  match regPath s (ctxHome (ctxNum c)) (ctxEp c) n off with
  | .there => accessCode s n off
  | .lacks _ _ => rspNoRoute
  | .gone => rspTimeout

/-- The pair of links that a request to another module takes (17 R390). -/
def viaPair (s : Block) (h n : Nat) : Nat := if h = n then 4 else firstPair s h n

/-- The limit of a request of endpoint `e` of module `h` to a BAR0 offset of module `n` expires. -/
def regTimedOut (h e n off : Nat) (s : Block) : Block := timedOut s h e (regEp off).1 n (regEp off).2 (viaPair s h n)

/-- A request that does not get to its target, with what it leaves. -/
def regEnd (s : Block) (h e n off : Nat) : Option (Nat × Block) :=
  match regPath s h e n off with
  | .there => none
  | .lacks m r => some (rspNoRoute, noRouteRaise s m r)
  | .gone => some (rspTimeout, regTimedOut h e n off s)

/-- What an access leaves that does not come through. -/
def deniedBy (s : Block) (c : Ctx) (n off : Nat) : Block :=
  ((regEnd s (ctxHome (ctxNum c)) (ctxEp c) n off).map (·.2)).getD s

/-- A read of the 32-bit word at an offset that is served: no register, zero (01 R13). -/
def readAt (s : Block) (c : Ctx) (n off : Nat) : Nat × Word × Block :=
  match ownSelect off with
  | some i => (rspOk, BitVec.ofNat 32 (selGet s (ctxNum c) i), s)
  | none =>
  match msixAt off with
  | some i => (rspOk, msixRead s i, s)
  | none =>
    match windowOf off with
    | some (r, o) =>
      let d := drawFree s
      let a := windowReq d.2 n r ⟨false, o, List.replicate 4 none⟩ (leBytes 4 d.1.toNat)
      (a.code, BitVec.ofNat 32 (ofBytes a.data), a.st)
    | none =>
      match aliasAt off with
      | some (r, i) => (rspOk, readAlias s (regKeyOf s (ctxNum c) n r i), s)
      | none =>
        match regAt off with
        | some (r, i) => let x := readReg s c n r i; (rspOk, x.1, x.2)
        | none => (rspOk, 0, s)

/-- A write of the 32-bit word at an offset that is served: no register, discarded (01 R13). -/
def writeAt (s : Block) (c : Ctx) (n off : Nat) (w : Word) : Nat × Block :=
  match ownSelect off with
  | some i => (rspOk, selWrite s (ctxNum c) i w)
  | none =>
  match msixAt off with
  | some i => (rspOk, msixWrite s i w)
  | none =>
    match windowOf off with
    | some (r, o) => let a := windowReq s n r ⟨true, o, enBytes 4 w.toNat⟩ []; (a.code, a.st)
    | none =>
      match aliasAt off with
      | some (r, i) => (rspOk, rwlWrite s c n r i (selVal s (ctxNum c) (regSpec r).sel) w)
      | none =>
        match regAt off with
        | some (r, i) => (rspOk, writeReg s c n r i (selVal s (ctxNum c) (regSpec r).sel) w)
        | none => (rspOk, s)

/-- Read one 32-bit word. -/
def barRead (s : Block) (c : Ctx) (off : Nat) : Nat × Word × Block :=
  let n := accessNode s c off
  let k := pathCode s c n off
  if k = rspOk then readAt s c n off else (k, BitVec.allOnes 32, deniedBy s c n off)

/-- Write one 32-bit word. -/
def barWord (s : Block) (c : Ctx) (off : Nat) (w : Word) : Nat × Block :=
  let n := accessNode s c off
  let k := pathCode s c n off
  if k = rspOk then writeAt s c n off w else (k, deniedBy s c n off)

/-- Register pairs that an aligned 64-bit write takes as one value (11 R263, R270, R275). -/
def pairWrite (s : Block) (c : Ctx) (n : Nat) (off : Nat) (d : DWord) : Option Block :=
  match regAt off with
  | some (.DRV_READY, 0) => some (drvReadyWrite (fin64 n) (Fin.ofNat 256 (selVal s (ctxNum c) .drv)) 0 d s)
  | some (.LOG_HOST_RPTR, 0) => some (logRptrWrite (fin64 n) 0 d s)
  | some (.LOG_EVENT, 0) => some (logEventWrite c (fin64 n) d s)
  | _ => none

/-- A BAR0 write as it arrives (01 R14): 32 or 64 bits, aligned; the lower register first; a register whose bytes are not all enabled
stays. -/
def barWrite (s : Block) (c : Ctx) (b : BarWrite) : Nat × Block :=
  let lo := b.be.extractLsb' 0 4 == 0xF
  let hi := b.be.extractLsb' 4 4 == 0xF
  let n := accessNode s c b.off
  if b.wide then
    if b.off % 8 ≠ 0 then (rspOk, s)
    else
      match (if lo && hi && pathCode s c n b.off = rspOk then pairWrite s c n b.off b.data else none) with
      | some s => (rspOk, s)
      | none =>
        let a := if lo then barWord s c b.off (b.data.setWidth 32) else (rspOk, s)
        if hi then barWord a.2 c (b.off + 4) (b.data.extractLsb' 32 32) else a
  else if b.off % 4 = 0 && lo then barWord s c b.off (b.data.setWidth 32) else (rspOk, s)

/-- A BAR0 write with what becomes of it on its way (16 R364, R370). -/
def netWrite (s : Block) (c : Ctx) (b : NetWrite) : Nat × Block :=
  let h := ctxHome (ctxNum c)
  let n := accessNode s c b.off
  let a := overNet1 s h b.way [] (regTimedOut h (ctxEp c) n b.off) fun s =>
    let r := barWrite s c b.toBarWrite
    ⟨r.1, [], r.2⟩
  (a.code, a.st)

/-- The register that a write names, directly or through its alias. -/
def namedReg (off : Nat) : Option Reg :=
  match aliasAt off with
  | some (r, _) => some r
  | none => (regAt off).map (·.1)

end Sys2Proof.Machine
end

