-- ==== Sys2Proof/Machine/Noc.lean ====
section
/-! DEFINITION. Sys2Proof/Machine/Noc.lean: packets of the networks on chip: requests and their answers, time limits, requests held
at bridges, routers, snoops, and the master channels of the Gecko regions (16 R363-R377, 12 R285). -/

namespace Sys2Proof.Machine

/-! ### Initiators (16 R370) -/

def isReq (n e tag : Nat) (r : OutReq) : Bool := r.node == n && r.ep == e && r.tag == tag

/-- The request outstanding under a tag. -/
def outReq (s : Block) (n e tag : Nat) : Option OutReq := s.outReqs.find? (isReq n e tag)

def dropReq (s : Block) (n e tag : Nat) : Block := { s with outReqs := s.outReqs.filter fun r => !isReq n e tag r }

/-- An initiator forms a request flit: its endpoint numbers an initiator, AGE starts at 0, CODE and the reserved bit, which no request uses,
are 0, and the bytes lie in one aligned 64-byte block (16 R363, R364, R369). -/
def formed (n ty : Nat) (f : BitVec 128) : Bool :=
  flType f == ty && flSnode f == n && decide (flSrc f ≤ 0x1C) && flAge f == 0 && flBits f 60 4 == 0
    && (ty == tyMsg || decide (flAddr f % 64 + flLen f < 64))

/-- An initiator of module `n` sends a request under a tag that is free; `none` if no initiator sends such a packet. -/
def sendReq (s : Block) (n ty : Nat) (f : BitVec 128) : Option Block :=
  if formed n ty f && (outReq s n (flSrc f) (flTag f)).isNone then
    some { s with
      outReqs := s.outReqs ++ [⟨n, flSrc f, flTag f, f, limitOf s n (flDnode f)⟩] }
  else none

/-! ### Targets (16 R365) -/

/-- The local RAM of ACU `a` as a target (08 R191, R197). -/
def epRam (s : Block) (m a : Nat) (req : MemReq) : MemAns :=
  if 2 ^ 20 < req.addr + req.bytes.length then ⟨rspDecErr, onesData req, s⟩
  else if isolatedEp s m a then ⟨rspIsolated, onesData req, s⟩
  else if req.wr then
    let r := memWrite s (.lram a (a * 64)) m 0 req.addr req.bytes
    ⟨if r.1 then rspOk else rspDecErr, [], r.2⟩
  else
    match memLoad s (.lram a (a * 64)) m req.addr req.bytes.length with
    | (some bs, s) => ⟨rspOk, bs, s⟩
    | (none, s) => ⟨rspDecErr, onesData req, s⟩

/-- Two words read in order, the lower first; the higher code of the two answers. -/
def regRead64 (s : Block) (c : Ctx) (m off : Nat) : MemAns :=
  let a := readAt s c m off
  let b := readAt a.2.2 c m (off + 4)
  ⟨max a.1 b.1, leBytes 4 a.2.1.toNat ++ leBytes 4 b.2.1.toNat, b.2.2⟩

def regWrite64 (s : Block) (c : Ctx) (m off : Nat) (d : DWord) : MemAns :=
  match pairWrite s c m off d with
  | some s => ⟨rspOk, [], s⟩
  | none =>
    let a := writeAt s c m off (d.setWidth 32)
    let b := writeAt a.2 c m (off + 4) (d.extractLsb' 32 32)
    ⟨max a.1 b.1, [], b.2⟩

/-- A write of one or two registers as a target takes it: a register whose bytes are not all enabled stays (01 R14). -/
def epRegWrite (s : Block) (c : Ctx) (m off : Nat) (bytes : List (Option (BitVec 8))) : MemAns :=
  let whole := fun (l : List (Option (BitVec 8))) => l.all Option.isSome
  let v := fun (l : List (Option (BitVec 8))) => ofBytes (l.map fun b => b.getD 0)
  let lo := bytes.take 4
  let hi := bytes.drop 4
  if bytes.length = 8 && whole bytes then regWrite64 s c m off (BitVec.ofNat 64 (v bytes))
  else
    let a := if whole lo then writeAt s c m off (BitVec.ofNat 32 (v lo)) else (rspOk, s)
    let b := if !hi.isEmpty && whole hi then writeAt a.2 c m (off + 4) (BitVec.ofNat 32 (v hi)) else (rspOk, a.2)
    ⟨max a.1 b.1, [], b.2⟩

/-- A register block as a target: aligned accesses of 4 or 8 bytes (01 R14). -/
def epReg (s : Block) (c : Ctx) (m off : Nat) (req : MemReq) : MemAns :=
  let k := accessCode s m off
  let len := req.bytes.length
  if (len ≠ 4 && len ≠ 8) || off % len ≠ 0 then ⟨rspDecErr, onesData req, s⟩
  else if k ≠ rspOk then ⟨k, onesData req, s⟩
  else if req.wr then epRegWrite s c m off req.bytes
  else if len = 8 then regRead64 s c m off
  else
    let a := readAt s c m off
    ⟨a.1, leBytes 4 a.2.1.toNat, a.2.2⟩

/-! ### Delivery (16 R364, R367, R371, R374-R376) -/

/-- A READ or WRITE at its target's module. -/
def targetDeliver (s : Block) (c : Ctx) (f : BitVec 128) (req : MemReq) (ans : Option (List (BitVec 8))) : Block :=
  let m := flDnode f
  let dst := flDst f
  let len := req.bytes.length
  let err := fun k => respond f ⟨k, onesData req, s⟩
  if isolatedEp s m dst then err rspIsolated
  else
    match epDomain dst with
    | some d => memDeliver s f d req
    | none =>
      if dst < 16 then respond f (epRam s m dst req)
      else if 0x30 ≤ dst && dst ≤ 0x49 then
        respond f (epReg s c (if dst = 0x31 then 0 else m) ((dst - 0x30) * 2 ^ 20 + req.addr % 2 ^ 20) req)
      else if 0x50 ≤ dst && dst ≤ 0x57 then
        if (len ≠ 4 && len ≠ 8) || req.addr % len ≠ 0 || 2 ^ 16 < req.addr + len then err rspDecErr
        else
          match ans with
          | some d => respond f (windowReq s m (dst - 0x50) req d)
          | none => if rgServes s m (dst - 0x50) then s else err rspIsolated
      else err rspDecErr

/-- A request comes by its path: to its target's module (`act`), or as far as a router that lacks the route; one that is lost is never
answered (16 R367, R374). -/
def byPath (s : Block) (f : BitVec 128) (act : Block → Block) : Block :=
  let m := flDnode f
  match busPath s (flSnode f) (flSrc f) m (flDst f) with
  | .gone => s
  | .lacks k r => respondAck (noRouteRaise s k r) f rspNoRoute
  | .there => act s

/-- A request on its way, of which router `r` may discard a flit as uncorrectable: the request's, or its answer's (16 R364). -/
def sentBy (s : Block) (f : BitVec 128) (way : BusWay) (act : Block → Block) : Block :=
  let n := flSnode f
  match lostThere s n way with
  | some s => s
  | none =>
    let t := byPath s f act
    match way with
    | .lost r true =>
      if t.rspFlits.length = s.rspFlits.length then t else raise { t with rspFlits := s.rspFlits } n SRC.NOC_FLIT_UE r 0
    | _ => t

/-- A READ or WRITE reaches its target (16 R363, R367); `ans` is what the design behind a Gecko window answers, `none` if it never does. -/
def packetDeliver (s : Block) (c : Ctx) (f : BitVec 128) (req : MemReq) (ans : Option (List (BitVec 8))) : Block :=
  let m := flDnode f
  let err := fun k => respond f ⟨k, onesData req, s⟩
  if !nodePresent s m && m ≠ flSnode f then err rspIsolated
  else if (pow s m).off || decide (3 ≤ pState s m) then err rspPwrOff
  else targetDeliver s c f req ans

/-- READ (16 R363, R370): a request leaves its initiator and reaches its target. -/
def nocRead (n : Node) (c : Ctx) (f : BitVec 128) (p : PacketIn) (s : Block) : Block :=
  match sendReq s n tyRead f with
  | some s => sentBy s f p.way fun s => packetDeliver s c f (flitReq f []) p.ans
  | none => s

/-- WRITE (16 R363, R366): a header and its WDATA reach their target as one request. -/
def nocWrite (n : Node) (c : Ctx) (f : BitVec 128) (data : List (BitVec 8)) (p : PacketIn) (s : Block) : Block :=
  match sendReq s n tyWrite f with
  | some s => sentBy s f p.way fun s => packetDeliver s c f (flitReq f data) (p.ans.map fun _ => [])
  | none => s

/-- An event reaches an ACU, where it is the cause 0x10 + `cause`, or the command processor. -/
def msgTake (s : Block) (f : BitVec 128) (cause : Fin 32) : Block :=
  let m := flDnode f
  let dst := flDst f
  if isolatedEp s m dst then respondAck s f rspIsolated
  else if dst < 16 then respondAck (if 11 ≤ cause.val && cause.val < 16 then s else irqAcu s m dst cause) f rspOk
  else if dst = ownCmd then respondAck s f rspOk
  else respondAck s f rspDecErr

/-- A MSG comes to its target's module. -/
def msgDeliver (s : Block) (f : BitVec 128) (cause : Fin 32) : Block :=
  let m := flDnode f
  if !nodePresent s m && m ≠ flSnode f then respondAck s f rspIsolated
  else if (pow s m).off || decide (3 ≤ pState s m) then respondAck s f rspPwrOff
  else msgTake s f cause

/-- MSG (16 R363): event delivery, answered by ACK. -/
def nocMsg (n : Node) (f : BitVec 128) (msg : MsgIn) (s : Block) : Block :=
  match sendReq s n tyMsg f with
  | none => s
  | some s => sentBy s f msg.way fun s => msgDeliver s f msg.cause

/-! ### Responses (16 R364, R370) -/

/-- A response or notice for tag `tag` of initiator `e`. -/
def rspFor (n e tag : Nat) (notice : Bool) (x : RspFlit) : Bool :=
  flDst x.flit == e && flDnode x.flit == n && flTag x.flit == tag && (flType x.flit == tyHeld) == notice

/-- Requesters in the list of answers: node and endpoint. -/
def whoIs (n e : Nat) : Nat := n * 256 + e

/-- All-ones data for a request that carries none back. -/
def reqOnes (f : BitVec 128) : List (BitVec 8) := if flType f = tyRead then List.replicate (flLen f + 1) 0xFF#8 else []

/-- ACK (16 R363, R370): a response reaches its initiator, or is discarded and counted if it is late. -/
def nocAck (n : Node) (e : BitVec 8) (tag : BitVec 12) (s : Block) : Block :=
  match takeFirst (rspFor n e.toNat tag.toNat false) s.rspFlits with
  | none => s
  | some (x, rest) =>
    let s := { s with rspFlits := rest }
    match outReq s n e.toNat tag.toNat with
    | none => fsat s n F.NOC_LATE_COUNT 0
    | some r =>
      let code := if 6 ≤ flCode x.flit then rspDecErr else flCode x.flit
      let s := loadResume (dropReq s n e.toNat tag.toNat) n
      { s with rsps := s.rsps ++ [⟨whoIs n e.toNat, code, if x.data.isEmpty then reqOnes r.flit else x.data⟩] }

/-- HELD (16 R370, R376): the limit of the request becomes the exit time of the domain's rung plus LOCAL_US, from the notice. -/
def nocHeld (n : Node) (e : BitVec 8) (tag : BitVec 12) (s : Block) : Block :=
  match takeFirst (rspFor n e.toNat tag.toNat true) s.rspFlits with
  | none => s
  | some (x, rest) =>
    let d := (epDomain (flSrc x.flit)).getD 7
    let due := s.now + domExitNs d * 2 ^ 16 + usTime (fget s n F.NOC_TIMEOUT_LOCAL_US)
    { s with
      rspFlits := rest
      outReqs := s.outReqs.map fun r => if isReq n e.toNat tag.toNat r then { r with due := due } else r }

/-- INITIATOR_TIMEOUT (16 R370): the limit expires without a response. -/
def initiatorTimeout (n : Node) (e : BitVec 8) (tag : BitVec 12) (s : Block) : Block :=
  match outReq s n e.toNat tag.toNat with
  | none => s
  | some r =>
    let s := loadResume (dropReq (atTime s r.due) n e.toNat tag.toNat) n
    let s := { s with rsps := s.rsps ++ [⟨whoIs n e.toNat, rspTimeout, reqOnes r.flit⟩] }
    expired s n (flSrc r.flit) (flDst r.flit) (flDnode r.flit) (flAddr r.flit) (viaPair s n (flDnode r.flit))

/-! ### Held requests go on (16 R376, 10 R226) -/

/-- DOMAIN_WAKE_DONE (16 R376, R377, 18 R410): a domain that a held request woke, or whose DOWN bit was cleared, is up. -/
def domainWakeDone (n : Node) (d : Fin 8) (s : Block) : Block :=
  let held := bridgeOf s n d != brOpen && s.heldReqs.any fun h => h.node == n.val && h.dom == d.val
  if held || (bridgeOf s n d = brClosed && !domDown s n d) then wakeDomain s n d else s

/-- HANDOVER_COMMIT (10 R226), with the packets that stalled for it. -/
def handoverAll (n : Node) (b : Fin 8) (s : Block) : Block :=
  let s' := handoverCommit n b s
  if bankPending s n b && !bankPending s' n b then releaseReqs s' n (16 + b.val) else s'

/-! ### Routers (16 R363, R364, R369, R374) -/

/-- The network of a TYPE (16 R363): 0 REQ, 1 RSP, 2 SNP, 3 DAT. -/
def netOf (t : Nat) : Nat :=
  if tyReq t then 0 else if t == tyAck || t == tyHeld then 1 else if t == tyWdata || t == tyRdata then 3 else 2

/-- Whose WRITE a WDATA belongs to. -/
def flWriter (f : BitVec 128) : Nat × Nat × Nat := (flSnode f, flSrc f, flTag f)

/-- A router discards a flit that has no route, and a WRITE's data with it. -/
def noRoute (s : Block) (n r : Nat) (f : BitVec 128) : Block :=
  let x := router s n r
  let s := if flType f = tyWrite then putRouter s n r { x with drops := x.drops ++ [flWriter f] } else s
  noRouteRaise (if tyReq (flType f) then respondAck s f rspNoRoute else s) n r

/-- The output port of a packet: its endpoint's entry, or the span gateway's for another module. -/
def flitPort (s : Block) (n r : Nat) (f : BitVec 128) : Nat := activePort s n r (if flDnode f = n then flDst f else 0x80)

/-- A flit that has waited `ns`: AGE rises by 1 for every 32 ns, up to 63 (16 R369). -/
def aged (f : BitVec 128) (ns : Nat) : BitVec 128 :=
  let age := min 63 (flAge f + ns / 32)
  (f &&& ~~~BitVec.ofNat 128 (63 * 2 ^ 48)) ||| BitVec.ofNat 128 (age * 2 ^ 48)

/-- The queue of an input of a router on a network. -/
def inputQ (s : Block) (n r net i : Nat) : List RtrFlit := mget (fun _ => []) (router s n r).inputs (net * 8 + i)
def putInput (s : Block) (n r net i : Nat) (q : List RtrFlit) : Block :=
  let x := router s n r
  putRouter s n r { x with inputs := mput (fun _ => []) x.inputs (net * 8 + i) q }

/-- A flit comes to an input: an uncorrectable one is discarded, one of a reserved TYPE answered, data of a discarded WRITE go with it,
and any other joins its queue.  A router in reconfiguration takes none: they wait upstream (16 R363, R364, R373, R374). -/
def flitArrive (n r : Nat) (s : Block) (a : RtrIn) : Block :=
  let x := router s n r
  let net := netOf (flType a.flit)
  if rtrPhase s n r ≠ 0 then s
  else if a.found = .uncorrectable then raise s n SRC.NOC_FLIT_UE r 0
  else if !tyDefined (flType a.flit) then respondAck s a.flit rspDecErr
  else if flType a.flit = tyWdata && x.drops.contains (flWriter a.flit) then
    putRouter s n r { x with drops := x.drops.erase (flWriter a.flit) }
  else putInput s n r net a.input (inputQ s n r net a.input ++ [⟨a.flit, s.now⟩])

/-- The head flits of a network's inputs, with their ages; those that have no route are discarded. -/
def headFlits (n r net : Nat) : List Nat → Block → List (Nat × BitVec 128) × Block
  | [], s => ([], s)
  | i :: l, s =>
    match inputQ s n r net i with
    | [] => headFlits n r net l s
    | h :: q =>
      if 8 ≤ flitPort s n r h.flit then headFlits n r net l (noRoute (putInput s n r net i q) n r h.flit)
      else
        let p := headFlits n r net l s
        ((i, aged h.flit ((s.now - h.since) / 2 ^ 16)) :: p.1, p.2)

/-- The flit sent next: the highest AGE, and among equals the next input after the one served last. -/
def nextHead (last : Nat) : List (Nat × BitVec 128) → Option (Nat × BitVec 128)
  | [] => none
  | h :: l =>
    match nextHead last l with
    | none => some h
    | some b =>
      if flAge h.2 < flAge b.2 then some b
      else if flAge b.2 < flAge h.2 then some h
      else if (b.1 + 7 - last) % 8 < (h.1 + 7 - last) % 8 then some b
      else some h

/-- One network of an output: one of the heads goes on, and the output's turn moves to the next input; input 0 comes first (log 49). -/
def sendHead (n r out : Nat) (s : Block) (net : Nat) : Block :=
  let p := headFlits n r net (List.range 8) s
  let s := p.2
  let x := router s n r
  match nextHead (mget (fun _ => 7) x.last (net * 8 + out)) (p.1.filter fun h => flitPort s n r h.2 == out) with
  | none => s
  | some h =>
    let s := putRouter s n r { x with last := mput (fun _ => 7) x.last (net * 8 + out) h.1 }
    let s := putInput s n r net h.1 ((inputQ s n r net h.1).drop 1)
    { s with fwds := s.fwds ++ [⟨n, r, out, h.2⟩] }

/-- ROUTER_FORWARD (16 R369): flits come to a router's inputs, and an output sends one flit on each network. -/
def routerForward (n : Node) (r : Fin 48) (out : Fin 8) (ins : List RtrIn) (s : Block) : Block :=
  [0, 1, 2, 3].foldl (sendHead n r out) (ins.foldl (flitArrive n r) s)

/-! ### Snoops (08 R195, 10 R226, R230) -/

/-- The acknowledgement of a snoop. -/
def snoopReply (s : Block) (f : BitVec 128) : Block := { s with snoopAcks := s.snoopAcks ++ [⟨backFlit f tySnoopAck 0 rspOk⟩] }

/-- SNOOP_INV (16 R363): the data cache of the ACU addressed lets go of a line. -/
def snoopInv (n : Node) (f : BitVec 128) (line : BitVec 21) (s : Block) : Block :=
  if flType f = tySnoopInv && flDnode f = n.val && decide (flDst f < 16) then
    let x := acu s n (flDst f)
    snoopReply (putAcu s n (flDst f) { x with dcache := mput (fun _ => none) x.dcache line.toNat none }) f
  else s

/-- SNOOP_WBINV (16 R363): it writes the line back first. -/
def snoopWbinv (n : Node) (f : BitVec 128) (line : BitVec 21) (s : Block) : Block :=
  if flType f = tySnoopWbinv && flDnode f = n.val && decide (flDst f < 16) then
    snoopReply (flushLineOf n line.toNat s (flDst f)) f
  else s

/-- SNOOP_ACK (16 R363): the oldest acknowledgement for an endpoint is taken. -/
def snoopAck (n : Node) (e : BitVec 8) (s : Block) : Block :=
  match takeFirst (fun x : SnoopMsg => flDst x.flit == e.toNat && flDnode x.flit == n.val) s.snoopAcks with
  | none => s
  | some (_, rest) => { s with snoopAcks := rest }

/-! ### Master channels of the regions (12 R285) -/

/-- The endpoint behind a fabric address, and the address there: staging memory and its aliases, the record store, a target window, a
register block (12 R285). -/
def fabricTarget (a : Nat) : Option (Nat × Nat) :=
  if a < 0x18000000 then some (0x20 + a / 2 ^ 24 % 8, a / 2 ^ 27 * 2 ^ 27 + a % 2 ^ 24)
  else if 0x100E10000 ≤ a && a < 0x100E90000 then some (0x50 + (a - 0x100E10000) / 2 ^ 16, a % 2 ^ 16)
  else if 0x100000000 ≤ a && a < 0x102000000 then some (0x30 + (a - 0x100000000) / 2 ^ 20, a % 2 ^ 20)
  else if 0x2000000000 ≤ a && a < 0x3800000000 then
    some (0x28 + recStackOf (a - 0x2000000000), recLocal (a - 0x2000000000))
  else none

/-- The master channel of a region is open: stage 2 of its release, or RUN, and no load waits to stop it (12 R289, R291). -/
def masterOpen (s : Block) (n r : Nat) : Bool :=
  rgRuns s n r && !(match load s n with
    | some x => x.stage == 2 && x.regions.contains r
    | none => false)

/-- The request flit of channel `r` of master port `r` div 4, with a tag of the channel's own (12 R277, R285). -/
def fabricFlit (n r : Nat) (tag : BitVec 10) (req : MemReq) (dst addr : Nat) : BitVec 128 :=
  BitVec.ofNat 128 ((if req.wr then tyWrite else tyRead) + (ownGecko + r / 4) * 2 ^ 8 + dst * 2 ^ 16 + n * 2 ^ 24 + n * 2 ^ 30
    + (r % 4 * 1024 + tag.toNat) * 2 ^ 36 + (req.bytes.length - 1) * 2 ^ 54 + addr * 2 ^ 64)

/-- A request of a channel of region `r` that its port has sent, to its target `t`: an address outside the map is answered RSP_DECERR, and a
reserved block of BAR0, which is no endpoint, as R13 gives (12 R285, 01 R13). -/
def fabricGo (n : Node) (r : Fin 8) (f : BitVec 128) (req : NetReq) (p : Option (List (BitVec 8))) (t : Option (Nat × Nat)) (s : Block) : Block :=
  match t with
  | some (dst, a) =>
    if 0x4A ≤ dst && dst < 0x50 then respond f (epReg s (.region n r) n (req.addr - 0x100000000) req.toMemReq)
    else sentBy s f req.way fun s => packetDeliver s (.region n r) f { req.toMemReq with addr := a } p
  | none => respond f ⟨rspDecErr, onesData req.toMemReq, s⟩

/-- FABRIC_MASTER_REQUEST (12 R285): 1 to 64 bytes within one aligned 64-byte block, through the region's master channel, as a request
packet of its port with an initiator's time limit.  Commands come in the order in which a port serves its channels (log 40); `p.ans` is what a target
window's design answers. -/
def fabricMasterRequest (n : Node) (r : Fin 8) (tag : BitVec 10) (req : NetReq) (p : Option (List (BitVec 8))) (s : Block) : Block :=
  let len := req.bytes.length
  if masterOpen s n r && len ≠ 0 && decide (req.addr % 64 + len ≤ 64) then
    let t := fabricTarget req.addr
    let f := fabricFlit n r tag req.toMemReq ((t.map (·.1)).getD 0) ((t.map (·.2)).getD req.addr)
    match sendReq s n (flType f) f with
    | some s => fabricGo n r f req p t s
    | none => s
  else s

end Sys2Proof.Machine
end

