-- ==== Sys2Proof/Machine/AcuMem.lean ====
section
/-! DEFINITION. Sys2Proof/Machine/AcuMem.lean: an ACU's address map, store buffer and caches, and its instruction fetch
(08 R191-R197). -/

namespace Sys2Proof.Machine

/-! ### The address map (08 R191) -/

/-- The byte of the staging memory that an address names, directly or through an alias. -/
def stagingByte (addr : Nat) : Nat := (addr - 0x10000000) % 0x8000000

def isAlias (sp : AcuSpace) : Bool := sp == .setAlias || sp == .clearAlias

/-- One name for each byte, whichever region shows it. -/
def physOf (a addr : Nat) : Nat :=
  match spaceOf addr with
  | .ram => 0x30000000 + a * 0x100000 + addr
  | .staging | .setAlias | .clearAlias => 0x10000000 + stagingByte addr
  | _ => addr

/-- The endpoint that an address reaches, and the address there (16 R365). -/
def endpointOf (s : Block) (n a addr : Nat) : Nat × Nat :=
  match spaceOf addr with
  | .ram => (a, addr)
  | .staging => (0x20 + stagingByte addr / 2 ^ 24, stagingByte addr % 2 ^ 24)
  | .setAlias => (0x20 + stagingByte addr / 2 ^ 24, 2 ^ 27 + stagingByte addr % 2 ^ 24)
  | .clearAlias => (0x20 + stagingByte addr / 2 ^ 24, 2 ^ 28 + stagingByte addr % 2 ^ 24)
  | .otherRam => ((addr - 0x30000000) / 2 ^ 20, addr % 2 ^ 20)
  | .regs => regEp (addr - 0x40000000)
  | .record =>
    let b := fget s n F.ACU_REC_WINDOW_WINDOW a * 2 ^ 30 + (addr - 0x80000000)
    (0x28 + recStackOf b, recLocal b)
  | .none => (0, addr)

/-- What the check in EC finds (08 R191, R194). -/
inductive AccCheck where
  | ok
  | stall
  | refused (st : Block)

/-- Check one access or half: `plain` is a LD, ST, LDD or STD, `aligned` says that the whole access is aligned to its size. -/
def accCheck (s : Block) (n a addr : Nat) (plain aligned : Bool) : AccCheck :=
  let bank := stagingByte addr / 2 ^ 24
  match spaceOf addr with
  | .none => .refused s
  | .regs => if plain && aligned then .ok else .refused s
  | .ram | .otherRam | .record => .ok
  | sp =>
    if isAlias sp && !aligned then .refused s
    else
      match bankTreat s n bank a with
      | .serve => .ok
      | .stall => .stall
      | .nonOwner => .refused (raise s n SRC.STG_NOT_OWNER bank 0)

/-- Check all the parts of an access. -/
def accChecks (s : Block) (n a : Nat) (plain aligned : Bool) : List Nat → AccCheck
  | [] => .ok
  | x :: l =>
    match accCheck s n a x plain aligned with
    | .ok => accChecks s n a plain aligned l
    | r => r

/-- The parts of an access: split where it crosses an 8-byte boundary (08 R194). -/
def accParts (addr len : Nat) : List (Nat × Nat) :=
  let room := 8 - addr % 8
  if len ≤ room then [(addr, len)] else [(addr, room), ((addr + room) % 2 ^ 32, len - room)]

/-! ### The data cache (08 R195, R197) -/

/-- Lines of a set beyond the four ways: the line that makes room is the hardware's choice. -/
def evictLine (s : Block) (n a line : Nat) : Block :=
  let set := (acu s n a).dcache.filter fun p => p.1 % 256 == line % 256
  if set.length < 4 then s
  else
    let d := drawFree s
    match set[d.1.toNat % set.length]? with
    | some p => flushLineOf n p.1 d.2 a
    | none => d.2

/-- Bring a line of the staging memory into ACU `a`'s data cache; a line with an uncorrectable word is not kept. -/
def fillLine (s : Block) (n a line : Nat) : List (Option Nat) × Block :=
  let s := flushLine s n line
  let r := memReadWords s .stg n ((List.range 8).map (· + 8 * line))
  if r.1.all Option.isSome then
    let words := (r.1.zipIdx).foldl (fun w p => w + 2 ^ (72 * p.2) * freshWord code64 (p.1.getD 0)) 0
    let s := evictLine r.2 n a line
    let x := acu s n a
    (r.1, putAcu s n a { x with dcache := mput (fun _ => none) x.dcache line (some ⟨BitVec.ofNat 576 words, false⟩) })
  else r

/-- The line ACU `a` holds. -/
def lineOf (s : Block) (n a line : Nat) : Option DLine := mget (fun _ => none) (acu s n a).dcache line

def putLine (s : Block) (n a line : Nat) (l : Option DLine) : Block :=
  let x := acu s n a
  putAcu s n a { x with dcache := mput (fun _ => none) x.dcache line l }

/-- How far a staging access of ACU `a`, the owner, gets before the bank: 0, or the code that ends it (16 R371, R374, R376). -/
def stagingGate (s : Block) (n a sa : Nat) : Nat × Block :=
  match netEnd s n a (0x20 + bankOf sa) (bankAddr 0 sa) with
  | some p => p
  | none =>
    if isolatedEp s n (0x20 + bankOf sa) then (rspIsolated, s)
    else
      match domAccess s n 7 with
      | none => (rspPwrOff, s)
      | some s => (rspOk, s)

/-- The same for the local RAM of another ACU. -/
def ramGate (s : Block) (n a : Nat) (e : Nat × Nat) : Nat × Block :=
  match netEnd s n a e.1 e.2 with
  | some p => p
  | none => if isolatedEp s n e.1 then (rspIsolated, s) else (rspOk, s)

/-- Read a word on a miss: a line is filled if it can be. -/
def missWord (s : Block) (n a w : Nat) : Option Nat × Block :=
  let r := fillLine s n a (w / 8)
  ((r.1.getD (w % 8) none), r.2)

/-- Read word `w` of the staging memory through the data cache: the response code, the word, the state.  An uncorrectable word of a
clean line is dropped with its line, which is filled again, and nothing is raised (08 R197 names dirty lines; DESIGN CHOICE, log 63). -/
def cachedWord (s : Block) (n a w : Nat) : Nat × Nat × Block :=
  let miss := fun (s : Block) =>
    let g := stagingGate s n a (8 * w)
    if g.1 ≠ rspOk then (g.1, 0, g.2)
    else
      match missWord g.2 n a w with
      | (some d, s) => (rspOk, d, s)
      | (none, s) => (rspDecErr, 0, s)
  match lineOf s n a (w / 8) with
  | none => miss s
  | some l =>
    let d := decodeStored code64 (lineWord l (w % 8))
    match d.found with
    | .clean => (rspOk, d.data, s)
    | .fixed _ =>
      (rspOk, d.data, cacheCe (putLine s n a (w / 8) (some (lineSet l (w % 8) (freshWord code64 d.data)))) n a (a * 64))
    | .bad => if l.dirty then (rspDecErr, 0, cacheUe s n a (a * 64)) else miss (putLine s n a (w / 8) none)

/-- Write enabled bytes of word `w` into line `l` that the data cache holds; `direct` writes past the cache. -/
def linePut (s : Block) (n a w : Nat) (be : BitVec 8) (data : DWord) (l : DLine) (direct : Block → Nat × Block) : Nat × Block :=
  let mask := (List.range 8).foldl (fun m i => m + b2n (be.getLsbD i) * (255 * 256 ^ i)) 0
  let merge := fun old => Nat.lor (Nat.land old (Nat.xor ones64 mask)) (Nat.land data.toNat mask)
  let into := fun (s : Block) (v : Nat) =>
    (rspOk, putLine s n a (w / 8) (some { lineSet l (w % 8) (freshWord code64 v) with dirty := true }))
  if be == 0xFF then into s data.toNat
  else
    let d := decodeStored code64 (lineWord l (w % 8))
    match d.found with
    | .clean => into s (merge d.data)
    | .fixed _ => into (cacheCe s n a (a * 64)) (merge d.data)
    | .bad => if l.dirty then (rspDecErr, cacheUe s n a (a * 64)) else direct (putLine s n a (w / 8) none)

/-- Write enabled bytes of word `w` of the staging memory through the data cache; a line it holds answers without the network. -/
def cachedWrite (s : Block) (n a w : Nat) (be : BitVec 8) (data : DWord) : Nat × Block :=
  let gated := fun (s : Block) (f : Block → Nat × Block) =>
    let g := stagingGate s n a (8 * w)
    if g.1 ≠ rspOk then g else f g.2
  let direct := fun (s : Block) =>
    let bytes := (List.range 8).map fun i => if be.getLsbD i then some (data.extractLsb' (8 * i) 8) else none
    let r := memWrite (flushLine s n (w / 8)) .stg n 0 (8 * w) bytes
    (if r.1 then rspOk else rspDecErr, r.2)
  match lineOf s n a (w / 8) with
  | some l => linePut s n a w be data l fun s => gated s direct
  | none =>
    gated s fun s =>
      let f := (fillLine s n a (w / 8)).2
      match lineOf f n a (w / 8) with
      | some l => linePut f n a w be data l direct
      | none => direct f

/-! ### Accesses past the check -/

/-- The limit of an access expires (16 R370). -/
def acuTimedOut (n a addr : Nat) (s : Block) : Block :=
  let e := endpointOf s n a addr
  timedOut s n a e.1 n e.2 4

/-- An access leaves the ACU: neither its local RAM nor a line of its data cache answers. -/
def leavesAcu (s : Block) (n a addr : Nat) : Bool :=
  match spaceOf addr with
  | .ram => false
  | .staging => (lineOf s n a (stagingByte addr / 64)).isNone
  | _ => true

/-- An access with what becomes of it on the networks, if it comes there (16 R364, R370). -/
def acuNet (s : Block) (n a addr : Nat) (way : BusWay) (ones : List (BitVec 8)) (act : Block → MemAns) : MemAns :=
  if leavesAcu s n a addr then overNet1 s n way ones (acuTimedOut n a addr) act else act s

/-- A memory that answers with bytes, or with nothing for an uncorrectable word. -/
def loadAns (len : Nat) (r : Option (List (BitVec 8)) × Block) : MemAns :=
  match r with
  | (some bs, s) => ⟨rspOk, bs, s⟩
  | (none, s) => ⟨rspDecErr, List.replicate len 0xFF#8, s⟩

def storeAns (r : Bool × Block) : MemAns := ⟨if r.1 then rspOk else rspDecErr, [], r.2⟩

/-- Registers through the ACU's own window (08 R191, 01 R14). -/
def acuRegRead (s : Block) (n a off len : Nat) : MemAns :=
  let c : Ctx := .acu (fin64 n) (Fin.ofNat 16 a)
  let x := barRead s c off
  if len = 8 then
    let y := barRead x.2.2 c (off + 4)
    ⟨max x.1 y.1, leBytes 4 x.2.1.toNat ++ leBytes 4 y.2.1.toNat, y.2.2⟩
  else ⟨x.1, leBytes 4 x.2.1.toNat, x.2.2⟩

/-- Read `len` bytes that lie in one doubleword. -/
def acuRead (s : Block) (n a addr len : Nat) : MemAns :=
  let e := endpointOf s n a addr
  match spaceOf addr with
  | .ram => loadAns len (memLoad s (.lram a (a * 64)) n addr len)
  | .otherRam =>
    let g := ramGate s n a e
    if g.1 ≠ rspOk then ⟨g.1, List.replicate len 0xFF#8, g.2⟩
    else loadAns len (memLoad g.2 (.lram e.1 (e.1 * 64)) n e.2 len)
  | .staging =>
    let r := cachedWord s n a (stagingByte addr / 8)
    ⟨r.1, (leBytes 8 r.2.1).drop (addr % 8) |>.take len, r.2.2⟩
  | .setAlias | .clearAlias => stgOwned s n a ⟨false, stagingByte addr, List.replicate len none⟩
  | .record => recReq s n a ⟨false, recFlat (e.1 - 0x28) e.2, List.replicate len none⟩
  | .regs => acuRegRead s n a (addr - 0x40000000) len
  | .none => ⟨rspDecErr, List.replicate len 0xFF#8, s⟩

/-! ### The store buffer (08 R192, R193) -/

/-- The youngest entry that holds a byte. -/
def sbByte (a : Nat) (sb : List SbEntry) (addr : Nat) : Option (SbEntry × BitVec 8) :=
  let p := physOf a addr
  (sb.reverse.find? fun e => physOf a e.addr == p / 8 * 8 && e.be.getLsbD (p % 8)).map fun e =>
    (e, e.data.extractLsb' (8 * (p % 8)) 8)

/-- What the store buffer gives a load: nothing, all its bytes, or a wait until they have drained. -/
inductive SbHit where
  | miss
  | hit (bytes : List (BitVec 8))
  | wait

/-- A byte stored through an alias is known only once it has drained. -/
def sbLook (a : Nat) (sb : List SbEntry) (addr len : Nat) : SbHit :=
  let found := (List.range len).map fun i => sbByte a sb (addr + i)
  if found.all Option.isNone then .miss
  else if found.all (fun f => match f with
      | some (e, _) => !isAlias (spaceOf e.addr)
      | none => false) then .hit (found.map fun f => (f.map (·.2)).getD 0)
  else .wait

/-- Some parts of an access are held in entries and others are not: it waits until those entries have drained (08 R192). -/
def sbMixed (a : Nat) (sb : List SbEntry) (parts : List (Nat × Nat)) : Bool :=
  let held := parts.map fun p => match sbLook a sb p.1 p.2 with
    | .miss => false
    | _ => true
  held.any id && held.any not

/-- Add a part of a store: in a cached region it joins the youngest entry of the same task and doubleword, if it may.  `tied`: the other
half of a split store follows. -/
def sbPush (sb : List SbEntry) (k addr : Nat) (be : BitVec 8) (data : DWord) (join tied : Bool) : List SbEntry :=
  match sb.reverse with
  | y :: old =>
    if join && spaceOf addr == .staging && y.task == k && y.addr == addr then
      let mask : DWord := BitVec.ofNat 64 ((List.range 8).foldl (fun m i => m + b2n (be.getLsbD i) * (255 * 256 ^ i)) 0)
      (⟨k, addr, y.be ||| be, (y.data &&& ~~~mask) ||| (data &&& mask), false⟩ :: old).reverse
    else sb ++ [⟨k, addr, be, data, tied⟩]
  | [] => [⟨k, addr, be, data, tied⟩]

/-- A part of a store as an entry: doubleword address, byte enables, data in place. -/
def storePart (addr len v : Nat) : Nat × BitVec 8 × DWord :=
  (addr / 8 * 8, BitVec.ofNat 8 ((2 ^ len - 1) * 2 ^ (addr % 8)), BitVec.ofNat 64 (v % 256 ^ len * 256 ^ (addr % 8)))

/-- A drained store was answered with an error (08 R192). -/
def storeErr (s : Block) (n a k addr : Nat) : Block :=
  let tk := taskKey n a k
  let s := raise s n SRC.ACU_STORE_ERR (a * 64 + k) addr
  let s := if (syncPend s n a k).testBit 1 then s else putTask s tk { task s tk with errAddr := BitVec.ofNat 32 addr }
  pendSyncSet s tk 1

/-- The first enabled byte of an entry. -/
def sbFirst (be : BitVec 8) : Nat := ((List.range 8).find? fun i => be.getLsbD i).getD 0

/-- An entry reaches its target: the response code. -/
def drainTo (s : Block) (n a : Nat) (e : SbEntry) : Nat × Block :=
  let bytes := (List.range 8).map fun i => if e.be.getLsbD i then some (e.data.extractLsb' (8 * i) 8) else none
  let p := endpointOf s n a e.addr
  let pick := fun (r : MemAns) => (r.code, r.st)
  match spaceOf e.addr with
  | .ram => pick (storeAns (memWrite s (.lram a (a * 64)) n 0 e.addr bytes))
  | .otherRam =>
    let g := ramGate s n a p
    if g.1 ≠ rspOk then g else pick (storeAns (memWrite g.2 (.lram p.1 (p.1 * 64)) n 0 p.2 bytes))
  | .staging =>
    if bankCurrent s n (stagingByte e.addr / 2 ^ 24) = a then cachedWrite s n a (stagingByte e.addr / 8) e.be e.data
    else pick (stgNonOwner s n (stagingByte e.addr / 2 ^ 24) ⟨true, 0, []⟩)
  | .setAlias | .clearAlias =>
    if bankCurrent s n (stagingByte e.addr / 2 ^ 24) ≠ a then pick (stgNonOwner s n (stagingByte e.addr / 2 ^ 24) ⟨true, 0, []⟩)
    else
      let g := stagingGate s n a (stagingByte e.addr)
      if g.1 ≠ rspOk then g
      else pick (stgServe g.2 n (if spaceOf e.addr == .setAlias then 1 else 2) ⟨true, stagingByte e.addr, bytes⟩)
  | .record => pick (recReq s n a ⟨true, recFlat (p.1 - 0x28) p.2, bytes⟩)
  | .regs =>
    let c : Ctx := .acu (fin64 n) (Fin.ofNat 16 a)
    let off := e.addr - 0x40000000
    if e.be == 0xFF then barWrite s c ⟨off, e.data, true, 0xFF⟩
    else if e.be == 0xF0 then barWrite s c ⟨off + 4, e.data >>> 32, false, 0x0F⟩
    else barWrite s c ⟨off, e.data, false, 0x0F⟩
  | .none => (rspDecErr, s)

/-- The oldest entry, already taken out of the store buffer, reaches its target, or none (16 R370). -/
def drainEntry (way : BusWay) (s : Block) (n a : Nat) (e : SbEntry) : Block :=
  let addr := e.addr + sbFirst e.be
  let r := acuNet s n a addr way [] fun s => let x := drainTo s n a e; ⟨x.1, [], x.2⟩
  if r.code = rspOk then r.st else storeErr r.st n a e.task addr

/-- Take the oldest entries off: one, or the two halves of a split store. -/
def drainTake : List SbEntry → List SbEntry × List SbEntry
  | [] => ([], [])
  | e :: l =>
    if e.tied then
      let r := drainTake l
      (e :: r.1, r.2)
    else ([e], l)

/-- STORE_DRAIN (08 R192, R194): the oldest store reaches its target; the halves of a split one drain one right after the other, and `way`
is the first one's. -/
def storeDrain (n : Node) (a : AcuIx) (way : BusWay) (s : Block) : Block :=
  let r := drainTake (acu s n a).sb
  (r.1.foldl (fun p e => (BusWay.served, drainEntry p.1 p.2 n a e)) (way, putAcu s n a { acu s n a with sb := r.2 })).2

/-! ### Instruction fetch (08 R191, R195-R197) -/

/-- The parity bit kept with an instruction word. -/
def wordParity (w : Word) : Bool := parity w.toNat

/-- What a fetch finds. -/
inductive FetchAns where
  | ok (w : Word) (st : Block)
  | stall
  | refused (st : Block)

def putIcache (s : Block) (n a : Nat) (c : SMap (Option (Word × Bool))) : Block :=
  putAcu s n a { acu s n a with icache := c }

/-- Drop a line of the instruction cache. -/
def dropIline (s : Block) (n a line : Nat) : Block :=
  putIcache s n a (mdrop (acu s n a).icache (16 * line) (16 * line + 16))

/-- A set that is full lets a line of the hardware's choice go. -/
def evictIline (s : Block) (n a line : Nat) : Block :=
  let set := (((acu s n a).icache.map fun p => p.1 / 16).filter fun l => l % 256 == line % 256).eraseDups
  if set.length < 4 then s
  else
    let d := drawFree s
    match set[d.1.toNat % set.length]? with
    | some l => dropIline d.2 n a l
    | none => d.2

/-- Keep the two words of a doubleword. -/
def keepDword (s : Block) (n a addr : Nat) (bs : List (BitVec 8)) : Block :=
  let lo : Word := BitVec.ofNat 32 (ofBytes (bs.take 4))
  let hi : Word := BitVec.ofNat 32 (ofBytes (bs.drop 4))
  let c := mput (fun _ => none) (acu s n a).icache (addr / 4) (some (lo, wordParity lo))
  putIcache s n a (mput (fun _ => none) c (addr / 4 + 1) (some (hi, wordParity hi)))

/-- Fetch on a miss: the doubleword that holds the word, then the rest of its line as far as it can be read; from the staging memory
through the data cache, which it fills as a load does (DESIGN CHOICE, log 63). -/
def missFetch (s : Block) (n a pc : Nat) : FetchAns :=
  let d := acuRead s n a (pc / 8 * 8) 8
  if d.code ≠ rspOk then .refused d.st
  else
    let s := keepDword (evictIline d.st n a (pc / 64)) n a (pc / 8 * 8) d.data
    let s := (List.range 8).foldl (fun s i =>
      let addr := pc / 64 * 64 + 8 * i
      if addr = pc / 8 * 8 then s
      else
        let r := acuRead s n a addr 8
        if r.code = rspOk then keepDword r.st n a addr r.data else r.st) s
    .ok (BitVec.ofNat 32 (ofBytes ((d.data.drop (pc % 8)).take 4))) s

/-- The instruction cache holds no word at `pc`. -/
def fetchMisses (s : Block) (n a pc : Nat) : Bool :=
  match mget (fun _ => none) (acu s n a).icache (pc / 4) with
  | some (w, p) => wordParity w != p
  | none => true

/-- The check of a fetch address: a load may read it, and it is neither an alias nor a register (08 R191). -/
def fetchCheck (s : Block) (n a pc : Nat) : AccCheck :=
  let sp := spaceOf pc
  if isAlias sp || sp == .regs then .refused s else accCheck s n a pc true true

/-- A fetch has to go past the instruction cache. -/
def fetchFar (s : Block) (n a pc : Nat) : Bool :=
  match fetchCheck s n a pc with
  | .ok => fetchMisses s n a pc
  | _ => false

/-- Fetch the word at `pc`. -/
def acuFetch (s : Block) (n a pc : Nat) : FetchAns :=
  match fetchCheck s n a pc with
  | .stall => .stall
  | .refused s => .refused s
  | .ok =>
    match mget (fun _ => none) (acu s n a).icache (pc / 4) with
    | none => missFetch s n a pc
    | some (w, p) =>
      if wordParity w = p then .ok w s else missFetch (cacheCe (dropIline s n a (pc / 64)) n a (a * 64)) n a pc

end Sys2Proof.Machine
end

