-- ==== Sys2Proof/Machine/AcuAlu.lean ====
section
/-! DEFINITION. Sys2Proof/Machine/AcuAlu.lean: results and flags of the integer, packed-digit, multiply, divide and floating-point
instructions of an ACU (09 R208-R213, R220-R223; 08 R172, R174, R200). -/

namespace Sys2Proof.Machine

/-! ### Operands -/

def rdVal (s : Block) (n a k : Nat) (w : Word) : Nat := (gprGet s n a k (aRd w)).toNat
def raVal (s : Block) (n a k : Nat) (w : Word) : Nat := (gprGet s n a k (aRa w)).toNat
def rbVal (s : Block) (n a k : Nat) (w : Word) : Nat := (gprGet s n a k (aRb w)).toNat
def carryOf (s : Block) (n a k : Nat) : Nat := pswF s n a k F.ACU_TASK_PSW_C

/-! ### Results with flags (09 R209) -/

/-- A result: 32 bits, and the flags it gives where it writes them. -/
structure AluRes where
  v : Nat
  nf : Bool := false
  zf : Bool := false
  vf : Option Bool := none
  cf : Option Bool := none

/-- x + y + c with N, Z, V and C. -/
def addRes (x y c : Nat) : AluRes :=
  let t := x + y + c
  let v := t % 2 ^ 32
  let sx := x.testBit 31
  ⟨v, v.testBit 31, v == 0, some (sx == y.testBit 31 && v.testBit 31 != sx), some (decide (2 ^ 32 ≤ t))⟩

/-- x − y − (1 − c): C is 1 when no borrow occurs. -/
def subRes (x y c : Nat) : AluRes := addRes x (2 ^ 32 - 1 - y) c

/-- A logical or shift result: N and Z only. -/
def bitRes (v : Nat) : AluRes := ⟨v, v.testBit 31, v == 0, none, none⟩

/-- Write the flags of a result. -/
def putFlags (s : Block) (n a k : Nat) (r : AluRes) : Block :=
  let s := pswPut (pswPut s n a k F.ACU_TASK_PSW_N (b2n r.nf)) n a k F.ACU_TASK_PSW_Z (b2n r.zf)
  let s := match r.vf with
    | some b => pswPut s n a k F.ACU_TASK_PSW_V (b2n b)
    | none => s
  match r.cf with
  | some b => pswPut s n a k F.ACU_TASK_PSW_C (b2n b)
  | none => s

/-- Write a result to RD, and its flags if the instruction writes them, and commit. -/
def aluEnd (s : Block) (n a k : Nat) (w : Word) (setf : Bool) (r : AluRes) : Block :=
  let s := gprPut s n a k (aRd w) (BitVec.ofNat 32 r.v)
  commit (if setf then putFlags s n a k r else s) n a k

/-! ### Shifts (09 R210) -/

def shlVal (x amt : Nat) : Nat := if 32 ≤ amt then 0 else x * 2 ^ amt % 2 ^ 32
def shrVal (x amt : Nat) : Nat := if 32 ≤ amt then 0 else x / 2 ^ amt
def sarVal (x amt : Nat) : Nat := wrapTo 32 (signedOf 32 x / ((2 ^ min amt 32 : Nat) : Int))
def rolVal (x amt : Nat) : Nat := (x * 2 ^ (amt % 32) % 2 ^ 32) + x / 2 ^ (32 - amt % 32)
def rorVal (x amt : Nat) : Nat := rolVal x (32 - amt % 32)

/-! ### Multiply and divide (09 R208, R209, R211) -/

/-- The 64-bit product. -/
def mulVal (signed : Bool) (x y : Nat) : Nat := if signed then wrapTo 64 (signedOf 32 x * signedOf 32 y) else x * y

/-- MUL and MULU write MDH and MDL now, or after the third instruction that follows (08 R172). -/
def mulEnd (s : Block) (n a k p : Nat) : Block :=
  let tk := taskKey n a k
  let hi : Word := BitVec.ofNat 32 (p / 2 ^ 32)
  let lo : Word := BitVec.ofNat 32 p
  let s := commit s n a k
  let t := task s tk
  if fbit s n F.ACU_CTRL_MDEXP a then putTask s tk { t with products := t.products ++ [(3, hi, lo)] }
  else putTask s tk { t with mdh := hi, mdl := lo }

/-- What a divide commits: truncated quotient, remainder with the sign of the dividend (09 R211). -/
def divVal (signed : Bool) (k x y : Nat) : DivSt :=
  if y = 0 then ⟨k, BitVec.ofNat 32 (2 ^ 32 - 1), BitVec.ofNat 32 x, false, true⟩
  else if signed then
    let q := (signedOf 32 x).tdiv (signedOf 32 y)
    let r := (signedOf 32 x).tmod (signedOf 32 y)
    ⟨k, BitVec.ofNat 32 (wrapTo 32 q), BitVec.ofNat 32 (wrapTo 32 r), decide (q = 2 ^ 31), false⟩
  else ⟨k, BitVec.ofNat 32 (x / y), BitVec.ofNat 32 (x % y), false, false⟩

/-- DIV and DIVU hold the task until they complete, or until the divider is free (08 R174). -/
def divStart (s : Block) (n a k : Nat) (d : DivSt) : Block :=
  let x := acu s n a
  match x.divider with
  | some _ => taskWait s n a k wDiv
  | none => taskWait (putAcu s n a { x with divider := some d }) n a k wDiv

/-- DIVIDE_COMPLETE (08 R174): the divide commits, with its flags. -/
def divideComplete (n : Node) (a : AcuIx) (s : Block) : Block :=
  let x := acu s n a
  match x.divider with
  | none => s
  | some d =>
    let tk := taskKey n a d.task
    let s := putAcu s n a { x with divider := none }
    let s := putTask s tk { task s tk with mdh := d.rem, mdl := d.quot }
    let s := pswPut s n a d.task F.ACU_TASK_PSW_V (b2n d.v)
    let s := if d.dz then pswPut s n a d.task F.ACU_TASK_PSW_DZ 1 else s
    commit s n a d.task

/-! ### Packed digits (09 R212, R213) -/

def nibbles (x : Nat) : List Nat := (List.range 8).map fun i => x / 16 ^ i % 16
def digitsOk (x y : Nat) : Bool := (nibbles x).all (fun d => decide (d ≤ 9)) && (nibbles y).all fun d => decide (d ≤ 9)
/-- The decimal number that nibbles spell, and back. -/
def fromBcd (x : Nat) : Nat := (nibbles x).foldr (fun d acc => 10 * acc + d) 0
def toBcd (v : Nat) : Nat := (List.range 8).foldl (fun acc i => acc + v / 10 ^ i % 10 * 16 ^ i) 0

/-- An invalid digit: 0, V and Z set, C as it was. -/
def badDigits : AluRes := ⟨0, false, true, some true, none⟩

/-- A packed result with its carry. -/
def bcdRes (v : Nat) (c : Bool) : AluRes := ⟨v, false, v == 0, some false, some c⟩

def daddRes (x y c : Nat) : AluRes :=
  if digitsOk x y then
    let t := fromBcd x + fromBcd y + c
    bcdRes (toBcd (t % 10 ^ 8)) (decide (10 ^ 8 ≤ t))
  else badDigits

def dsubRes (x y c : Nat) : AluRes :=
  if digitsOk x y then
    let t := fromBcd x + 10 ^ 8 + c - 1 - fromBcd y
    bcdRes (toBcd (t % 10 ^ 8)) (decide (10 ^ 8 ≤ t))
  else badDigits

/-- The fields of DADJ from the lowest up: each reduced by its modulus, the excess carried on. -/
def dadjFields (x y : Nat) : Nat → Nat → Nat × Nat
  | 0, carry => (0, carry)
  | i + 1, carry =>
    let v := x / 16 % 16 * 10 + x % 16
    let m0 := y / 16 % 16 * 10 + y % 16
    let m := if m0 = 0 then 100 else m0
    let t := v + carry
    let r := dadjFields (x / 256) (y / 256) i (t / m)
    (t % m / 10 * 16 + t % m % 10 + 256 * r.1, r.2)

def dadjRes (x y c : Nat) : AluRes :=
  if digitsOk x y then
    let r := dadjFields x y 4 c
    bcdRes r.1 (r.2 != 0)
  else badDigits

/-! ### Floating point (09 R220, R221; 08 R200) -/

def fmtOf (d : Bool) : Fmt := if d then binary64 else binary32

/-- An operand of the format that `d` selects. -/
def fpGet (s : Block) (n a k c : Nat) (d : Bool) : Nat := if d then pairGet s n a k c else (gprGet s n a k c).toNat
def fpPut (s : Block) (n a k c : Nat) (d : Bool) (v : Nat) : Block :=
  if d then pairPut s n a k c v else gprPut s n a k c (BitVec.ofNat 32 v)

/-- Rounding of an instruction: RM, or FSR.RMODE where RM is 0. -/
def fpMode (s : Block) (n a k : Nat) (w : Word) : RMode :=
  rmodeOf (if aRm w = 0 then fget s n F.ACU_TASK_FSR_RMODE (at2 a k) else aRm w)

def fpFtz (s : Block) (n a k : Nat) : Bool := fbit s n F.ACU_TASK_FSR_FTZ (at2 a k)

/-- The codes of a value of the format that `d` selects. -/
def fpCodes (d : Bool) (c : Nat) : List Nat := if d then [c, c + 1] else [c]

/-- Register slots of codes in the current window; G0 holds no result. -/
def codeSlots (s : Block) (n a k : Nat) (l : List Nat) : List Nat :=
  (l.map (regSlot (pswF s n a k F.ACU_TASK_PSW_CURW))).filter (· != 0)

/-- A floating-point op commits; its result is available, and its flags are reported with its address, later (08 R199, R200). -/
def fpEnd (s : Block) (n a k : Nat) (w : Word) (d : Bool) (r : FRes) : Block :=
  let tk := taskKey n a k
  let pc : Word := BitVec.ofNat 32 (taskPc s n a k)
  let dests := codeSlots s n a k (fpCodes d (aRd w))
  let s := fpPut s n a k (aRd w) d r.bits
  let t := task s tk
  let op : FpOp := ⟨pc, r.flags.toNat % 32, dests, aFop w == 4 || aFop w == 5⟩
  commit (putTask s tk { t with fps := t.fps ++ [op] }) n a k

/-- A division or a square root of some task occupies the floating-point unit (08 R199). -/
def fpuBusy (s : Block) (n a : Nat) : Bool :=
  (List.range 64).any fun k => (task s (taskKey n a k)).fps.any (·.long)

/-- A two-operand op in the instruction's format. -/
def fpBin (s : Block) (n a k : Nat) (w : Word) (f : Fmt → RMode → Bool → Nat → Nat → FRes) : Block :=
  let d := aD w
  fpEnd s n a k w d
    (f (fmtOf d) (fpMode s n a k w) (fpFtz s n a k) (fpGet s n a k (aRa w) d) (fpGet s n a k (aRb w) d))

/-- A one-operand op in the instruction's format. -/
def fpUn (s : Block) (n a k : Nat) (w : Word) (f : Fmt → RMode → Bool → Nat → FRes) : Block :=
  let d := aD w
  fpEnd s n a k w d (f (fmtOf d) (fpMode s n a k w) (fpFtz s n a k) (fpGet s n a k (aRa w) d))

/-- Replace element `i` of a list by nothing. -/
def dropAt {α : Type} (l : List α) (i : Nat) : List α := l.take i ++ l.drop (i + 1)

/-- FP_REPORT (08 R200): the result of the `i`-th op outstanding becomes available and its flags are reported; one of them enabled in FSR makes FP_TRAP pending. -/
def fpReport (n : Node) (a : AcuIx) (k : TaskIx) (i : Nat) (s : Block) : Block :=
  let tk := taskKey n a k
  let t := task s tk
  match t.fps[i]? with
  | none => s
  | some op =>
    let fl := op.flags
    let inst := at2 a k
    let s := putTask s tk { t with fps := dropAt t.fps i }
    let s := rput s n .ACU_TASK_FSR inst (rget s n .ACU_TASK_FSR inst ||| BitVec.ofNat 32 fl)
    if Nat.land fl (fget s n F.ACU_TASK_FSR_TE inst) = 0 || (syncPend s n a k).testBit 0 then s
    else pendSyncSet (putTask s tk { task s tk with fpAddr := op.pc }) tk 0

end Sys2Proof.Machine
end

