-- ==== Sys2Proof/Machine/Acu.lean ====
section
/-! DEFINITION. Sys2Proof/Machine/Acu.lean: the effect of each ACU instruction, and a task's execution of the instruction at its PC
(08 R167-R177, R184, R186-R196, R201; 09). -/

namespace Sys2Proof.Machine

/-! ### Loads and stores (09 R214; 08 R192, R194) -/

/-- The address of a load or store. -/
def memAddr (s : Block) (n a k : Nat) (w : Word) : Nat := (raVal s n a k w + aImmS w) % 2 ^ 32

def accessTrap (s : Block) (n a k addr : Nat) : Block := preciseTrap s n a k cauAccess (some (BitVec.ofNat 32 addr))

/-- A load waits for stores that hold some of its bytes, and a load from the register region for the task's own stores (08 R192,
R193). -/
def loadWaits (s : Block) (n a k addr len : Nat) : Bool :=
  let sb := (acu s n a).sb
  (spaceOf addr == .regs && sb.any fun e => e.task == k) ||
    (match sbLook a sb addr len with
      | .wait => true
      | _ => false)

/-- A part of a load that neither the store buffer nor the ACU's own memories answer: a miss or an uncached access (08 R170). -/
def loadFar (s : Block) (n a addr len : Nat) : Bool :=
  match sbLook a (acu s n a).sb addr len with
  | .hit _ => false
  | _ => leavesAcu s n a addr

/-- One part of a load: from the store buffer or from its region. -/
def loadPart (s : Block) (n a addr len : Nat) (way : BusWay) : MemAns :=
  match sbLook a (acu s n a).sb addr len with
  | .hit bs => ⟨rspOk, bs, s⟩
  | _ =>
    acuNet s n a addr way (List.replicate len 0xFF#8) fun s => acuRead s n a addr len

/-- The parts of a load in order; the highest code of their answers.  `way` is that of the first request to leave the ACU. -/
def loadParts (s : Block) (n a : Nat) (way : BusWay) : List (Nat × Nat) → MemAns
  | [] => ⟨rspOk, [], s⟩
  | p :: l =>
    let x := loadPart s n a p.1 p.2 way
    let y := loadParts x.st n a (if loadFar s n a p.1 p.2 then .served else way) l
    ⟨max x.code y.code, x.data ++ y.data, y.st⟩

/-- What a load comes to: a wait, a trap, or its bytes. -/
inductive LoadAns where
  | wait
  | trap (st : Block)
  | ok (v : Nat) (st : Block)

/-- The instruction waits for a miss or an uncached access that has not been served. -/
def loadHeld (s : Block) (n a k : Nat) (parts : List (Nat × Nat)) : Bool :=
  (parts.any fun p => loadWaits s n a k p.1 p.2) || sbMixed a (acu s n a).sb parts
    || (!(task s (taskKey n a k)).served && parts.any fun p => loadFar s n a p.1 p.2)

def loadBytes (s : Block) (n a k addr len : Nat) (plain aligned : Bool) (way : BusWay) : LoadAns :=
  let parts := accParts addr len
  match accChecks s n a plain aligned (parts.map (·.1)) with
  | .stall => .wait
  | .refused s => .trap s
  | .ok =>
    if loadHeld s n a k parts then .wait
    else
      let r := loadParts s n a way parts
      if r.code = rspOk then .ok (ofBytes r.data) r.st else .trap r.st

/-- The registers that a load writes, by slot; with LDEXP = 1 the next instruction still reads what they held (08 R171). -/
def loadEnd (s : Block) (n a k : Nat) (vals : List (Nat × Word)) : Block :=
  let tk := taskKey n a k
  let t := task s tk
  let old := (vals.filter fun p => p.1 != 0).map fun p => (p.1, slotGet t p.1)
  let s := vals.foldl (fun s p => slotPut s n a k p.1 p.2) (commit s n a k)
  if fbit s n F.ACU_CTRL_LDEXP a then putTask s tk { task s tk with shade := old } else s

/-- Slot of a register code in the current window. -/
def codeSlot (s : Block) (n a k c : Nat) : Nat := regSlot (pswF s n a k F.ACU_TASK_PSW_CURW) c

/-- A load of `len` bytes into one register, sign-extended or not. -/
def runLoad (len : Nat) (signed plain : Bool) (way : BusWay) (w : Word) (s : Block) (n a k : Nat) : Block :=
  let addr := memAddr s n a k w
  match loadBytes s n a k addr len plain (addr % len == 0) way with
  | .wait => taskWait s n a k wMem
  | .trap s => accessTrap s n a k addr
  | .ok v s =>
    let v := if signed then wrapTo 32 (signedOf (8 * len) v) else v
    loadEnd s n a k [(codeSlot s n a k (aRd w), BitVec.ofNat 32 v)]

/-- LDD: the even register from the lower address. -/
def runLdd (way : BusWay) (w : Word) (s : Block) (n a k : Nat) : Block :=
  let addr := memAddr s n a k w
  match loadBytes s n a k addr 8 true (addr % 8 == 0) way with
  | .wait => taskWait s n a k wMem
  | .trap s => accessTrap s n a k addr
  | .ok v s =>
    loadEnd s n a k [(codeSlot s n a k (aRd w), BitVec.ofNat 32 v),
      (codeSlot s n a k (aRd w + 1), BitVec.ofNat 32 (v / 2 ^ 32))]

/-- First slot of the group that LWG and SWG move: K(c − 1), c the CURW field of W9 (09 R214). -/
def callerSlot (s : Block) (n a k : Nat) : Nat := 8 + 8 * (((gprGet s n a k 25).toNat % 4 + 3) % 4)

/-- The four doublewords that LWG and SWG access. -/
def groupParts (addr : Nat) : List (Nat × Nat) := (List.range 4).map fun i => ((addr + 8 * i) % 2 ^ 32, 8)

/-- LWG (09 R214). -/
def runLwg (way : BusWay) (w : Word) (s : Block) (n a k : Nat) : Block :=
  let addr := memAddr s n a k w
  if addr % 8 ≠ 0 then accessTrap s n a k addr
  else
    let parts := groupParts addr
    match accChecks s n a false true (parts.map (·.1)) with
    | .stall => taskWait s n a k wMem
    | .refused s => accessTrap s n a k addr
    | .ok =>
      if loadHeld s n a k parts then taskWait s n a k wMem
      else
        let r := loadParts s n a way parts
        if r.code ≠ rspOk then accessTrap r.st n a k addr
        else
          let slot := callerSlot s n a k
          loadEnd r.st n a k ((List.range 8).map fun i =>
            (slot + i, BitVec.ofNat 32 (ofBytes ((r.data.drop (4 * i)).take 4))))

/-- Put the parts of a store into the store buffer, or wait for room; those of a split store (`join` false) are tied (08 R192, R194). -/
def storeParts (s : Block) (n a k : Nat) (parts : List (Nat × Nat × Nat)) (join : Bool) : Block :=
  let x := acu s n a
  let sb := parts.zipIdx.foldl (fun sb p =>
    let q := storePart p.1.1 p.1.2.1 p.1.2.2
    sbPush sb k q.1 q.2.1 q.2.2 join (!join && decide (p.2 + 1 < parts.length))) x.sb
  if 16 < sb.length then taskWait s n a k wStore
  else commit (putAcu s n a { x with sb := sb }) n a k

/-- A store of `len` bytes: a split one enters as two entries. -/
def runStore (len v : Nat) (plain : Bool) (w : Word) (s : Block) (n a k : Nat) : Block :=
  let addr := memAddr s n a k w
  let parts := accParts addr len
  match accChecks s n a plain (addr % len == 0) (parts.map (·.1)) with
  | .stall => taskWait s n a k wMem
  | .refused s => accessTrap s n a k addr
  | .ok =>
    match parts with
    | [_] => storeParts s n a k [(addr, len, v)] true
    | _ =>
      let room := 8 - addr % 8
      storeParts s n a k [(addr, room, v), ((addr + room) % 2 ^ 32, len - room, v / 256 ^ room)] false

/-- SWG (09 R214). -/
def runSwg (w : Word) (s : Block) (n a k : Nat) : Block :=
  let addr := memAddr s n a k w
  if addr % 8 ≠ 0 then accessTrap s n a k addr
  else
    let parts := groupParts addr
    match accChecks s n a false true (parts.map (·.1)) with
    | .stall => taskWait s n a k wMem
    | .refused s => accessTrap s n a k addr
    | .ok =>
      let slot := callerSlot s n a k
      let t := task s (taskKey n a k)
      let val := fun i =>
        match t.shade.find? (fun p => p.1 == slot + i) with
        | some p => p.2.toNat
        | none => (slotGet t (slot + i)).toNat
      storeParts s n a k (((List.range 4).zip parts).map fun p => (p.2.1, 8, val (2 * p.1) + 2 ^ 32 * val (2 * p.1 + 1))) true

/-! ### Control (09 R215, R216; 08 R176, R184) -/

/-- The condition of B.cond holds. -/
def condHolds (s : Block) (n a k cond : Nat) : Bool :=
  let N := pswF s n a k F.ACU_TASK_PSW_N == 1
  let Z := pswF s n a k F.ACU_TASK_PSW_Z == 1
  let V := pswF s n a k F.ACU_TASK_PSW_V == 1
  let C := pswF s n a k F.ACU_TASK_PSW_C == 1
  match cond with
  | 0x0 => Z
  | 0x1 => !Z
  | 0x2 => C
  | 0x3 => !C
  | 0x4 => N
  | 0x5 => !N
  | 0x6 => V
  | 0x7 => !V
  | 0x8 => C && !Z
  | 0x9 => !C || Z
  | 0xA => N == V
  | 0xB => N != V
  | 0xC => !Z && N == V
  | 0xD => Z || N != V
  | _ => true

def runBcond (w : Word) (s : Block) (n a k : Nat) : Block :=
  if condHolds s n a k (aCond w) then commitAt s n a k ((taskPc s n a k + aDispB w) % 2 ^ 32) else commit s n a k

def runCall (w : Word) (s : Block) (n a k : Nat) : Block :=
  let pc := taskPc s n a k
  commitAt (gprPut s n a k 24 (BitVec.ofNat 32 (pc + 4))) n a k ((pc + aDispJ w) % 2 ^ 32)

def runJrl (w : Word) (s : Block) (n a k : Nat) : Block :=
  let target := memAddr s n a k w
  if target % 4 ≠ 0 then accessTrap s n a k target
  else commitAt (gprPut s n a k (aRd w) (BitVec.ofNat 32 (taskPc s n a k + 4))) n a k target

/-- WADV.  In the trap window it halts the task with HALT_CAUSE WINDOW_OVF, and WREV with WINDOW_UNF, whatever RES2 says: 08 R177 names
no other cause for them (DESIGN CHOICE, log 63). -/
def runWadv (s : Block) (n a k : Nat) : Block :=
  if pswF s n a k F.ACU_TASK_PSW_TW = 1 || pswF s n a k F.ACU_TASK_PSW_RES2 = 1 then preciseTrap s n a k cauWindowOvf none
  else
    let c := pswF s n a k F.ACU_TASK_PSW_CURW
    commit (pswPut (pswPut s n a k F.ACU_TASK_PSW_CURW ((c + 1) % 4)) n a k F.ACU_TASK_PSW_RES2 1) n a k

def runWrev (s : Block) (n a k : Nat) : Block :=
  if pswF s n a k F.ACU_TASK_PSW_TW = 1 || pswF s n a k F.ACU_TASK_PSW_RES2 = 0 then preciseTrap s n a k cauWindowUnf none
  else
    let c := pswF s n a k F.ACU_TASK_PSW_CURW
    commit (pswPut (pswPut s n a k F.ACU_TASK_PSW_CURW ((c + 3) % 4)) n a k F.ACU_TASK_PSW_RES2 0) n a k

/-- The bits of the PSW that hold fields. -/
def pswMask : Word := 0x1F001F1F

/-- RETI (08 R184): it chains to a pending cause that the PSW in W9 lets be taken, or restores PSW and PC. -/
def runReti (s : Block) (n a k : Nat) : Block :=
  let w8 := gprGet s n a k 24
  let w9 := gprGet s n a k 25
  match (if w9.getLsbD 4 && !w9.getLsbD 3 then pickCause s n a k else none) with
  | some c =>
    let s := gprPut s n a k 26 (BitVec.ofNat 32 c)
    let s := match causeW11 s n a k c with
      | some v => gprPut s n a k 27 v
      | none => s
    causeTaken (commitAt s n a k (vectorOf s n a c)) n a k c
  | none => setPsw (commitAt s n a k w8.toNat) n a k (w9 &&& pswMask)

/-! ### System (09 R217-R219; 08 R170, R193, R196, R201) -/

/-- WAIT (08 R170): it ends when an interrupt cause, 0x10 to 0x2F, is pending, whether or not IE is 1. -/
def waitInstr (s : Block) (n a k : Nat) : Block :=
  if routedPend s n a k ≠ 0 then commit s n a k else taskWait s n a k wWait

/-- The task has stores that have not drained. -/
def ownStores (s : Block) (n a k : Nat) : Bool := (acu s n a).sb.any fun e => e.task == k

def runSync (s : Block) (n a k : Nat) : Block := if ownStores s n a k then taskWait s n a k wSync else commit s n a k

def runIsync (s : Block) (n a k : Nat) : Block :=
  if ownStores s n a k then taskWait s n a k wSync else commit (putIcache s n a []) n a k

def fpsOut (s : Block) (n a k : Nat) : Bool := !(task s (taskKey n a k)).fps.isEmpty

def runFbar (s : Block) (n a k : Nat) : Block := if fpsOut s n a k then taskWait s n a k wFbar else commit s n a k

/-- A special register as MFSR reads it (09 R218). -/
def specialGet (s : Block) (n a k r : Nat) : Word :=
  let t := task s (taskKey n a k)
  match r with
  | 0 => BitVec.ofNat 32 (taskPc s n a k)
  | 1 => psw s n a k
  | 2 => t.mdh
  | 3 => t.mdl
  | 4 => rget s n .ACU_TASK_FSR (at2 a k)
  | _ => BitVec.ofNat 32 (k + a * 2 ^ 6 + fget s n F.GLB_STATUS_NODE_ID * 2 ^ 10)

def runMfsr (w : Word) (s : Block) (n a k : Nat) : Block :=
  if aRa w = 4 && fpsOut s n a k then taskWait s n a k wFpu
  else commit (gprPut s n a k (aRd w) (specialGet s n a k (aRa w))) n a k

/-- The bits of the PSW that MTSR writes, and the bits of FSR that hold fields. -/
def mtsrMask : Word := 0x1F001F10
def fsrMask : Word := 0x000F1F1F

/-- A write of FSR; a reserved RMODE leaves RMODE as it was (09 R219). -/
def fsrWrite (s : Block) (n a k : Nat) (v : Word) : Block :=
  let inst := at2 a k
  let m := wbits v 18 16
  let old := fget s n F.ACU_TASK_FSR_RMODE inst
  let s' := rput s n .ACU_TASK_FSR inst (v &&& fsrMask)
  if m = 0 || 5 < m then fput (acuReject s' n a) n F.ACU_TASK_FSR_RMODE inst old else s'

def runMtsr (w : Word) (s : Block) (n a k : Nat) : Block :=
  let tk := taskKey n a k
  let v := gprGet s n a k (aRa w)
  match aRd w with
  | 1 => commit (setPsw s n a k ((psw s n a k &&& ~~~mtsrMask) ||| (v &&& mtsrMask))) n a k
  | 2 => commit (putTask s tk { task s tk with mdh := v }) n a k
  | 3 => commit (putTask s tk { task s tk with mdl := v }) n a k
  | _ => if fpsOut s n a k then taskWait s n a k wFpu else commit (fsrWrite s n a k v) n a k

/-! ### Issuing to the gang (09 R224; 08 R186-R190) -/

/-- MILL_DENIED with its reason; DENY_REASON is set also where the trap window keeps the trap from being taken (log 63). -/
def millDenied (s : Block) (n a k why : Nat) : Block :=
  preciseTrap (fput s n F.ACU_MILL_DENY_REASON a why) n a k cauMillDenied none

/-- The executing task is the gang's issuing task (08 R187). -/
def issuing (s : Block) (n a k : Nat) : Bool := fget s n F.ACU_MILL_TASK a == k

/-- Croak values accepted and not taken (08 R188). -/
def croaksOut (s : Block) (n g : Nat) : Nat :=
  let x := gang s n g
  x.crkQueue.length + (x.flight.filter fun m => mopCroaks (mopFields m.word)).length

/-- The macro-op held in W(4Q) to W(4Q + 3). -/
def issWord (s : Block) (n a k q : Nat) : BitVec 128 :=
  BitVec.ofNat 128 ((List.range 4).foldl (fun v i => v + 2 ^ (32 * i) * (gprGet s n a k (16 + 4 * q + i)).toNat) 0)

def runMillIss (w : Word) (s : Block) (n a k : Nat) : Block :=
  if !issuing s n a k then millDenied s n a k 1
  else
    let op := issWord s n a k (aRa w % 4)
    if mopCroaks (mopFields op) && 16 ≤ croaksOut s n a then millDenied s n a k 2
    else taskWait (putGang s n a { gang s n a with presented := some (op, k, aRd w) }) n a k wMill

def runMillRes (w : Word) (s : Block) (n a k : Nat) : Block :=
  if !issuing s n a k then millDenied s n a k 1
  else
    match (gang s n a).crkQueue with
    | [] => taskWait s n a k wCroak
    | v :: rest => commit (pairPut (putGang s n a { gang s n a with crkQueue := rest }) n a k (aRd w) v) n a k

def runMillWait (w : Word) (s : Block) (n a k : Nat) : Block :=
  if !issuing s n a k then millDenied s n a k 1
  else
    match waitOutcome s n a (raVal s n a k w) with
    | none => taskWait s n a k wRetire
    | some v => commit (gprPut s n a k (aRd w) (BitVec.ofNat 32 v)) n a k

def runMillYield (s : Block) (n a k : Nat) : Block :=
  if !issuing s n a k then millDenied s n a k 1 else commit (stopRequest s n a .acu) n a k

def runMillResume (s : Block) (n a k : Nat) : Block :=
  if !issuing s n a k then millDenied s n a k 1 else commit (resumeGang s n a) n a k

/-! ### The floating-point unit (08 R199) -/

/-- A division or a square root waits while another occupies the unit. -/
def fpLong (s : Block) (n a k : Nat) (run : Block) : Block := if fpuBusy s n a then taskWait s n a k wFpu else run

/-- The register codes an instruction reads. -/
def readCodes (o : AOp) (w : Word) : List Nat :=
  let ra := aRa w
  let d := aD w
  match o with
  | .lui | .bcond | .call | .millRes | .millYield | .millResume | .wadv | .wrev | .trap | .wait | .sync | .isync | .fbar | .mfsr => []
  | .neg | .addi | .andi | .ori | .xori | .cmpi | .shli | .shri | .sari | .roli | .rori => [ra]
  | .ldb | .ldbu | .ldh | .ldhu | .ld | .ldd | .jrl | .millWait | .mtsr | .fcvtFi | .fcvtFu => [ra]
  | .lwg | .swg => [ra, 25]
  | .stb | .sth | .st => [ra, aRd w]
  | .std => [ra, aRd w, aRd w + 1]
  | .fadd | .fsub | .fmul | .fdiv | .fmin | .fmax | .fcmp => fpCodes d ra ++ fpCodes d (aRb w)
  | .fmadd => fpCodes d (aRd w) ++ fpCodes d ra ++ fpCodes d (aRb w)
  | .fsqrt | .fneg | .fabs | .fcvtF | .fcvtI | .fcvtU => fpCodes d ra
  | .millIss => (List.range 4).map fun i => 16 + 4 * (ra % 4) + i
  | .reti => [24, 25]
  | _ => [ra, aRb w]

/-- An instruction that reads the result of a floating-point op before it is available is interlocked, in both exposure modes. -/
def fpInterlock (s : Block) (n a k : Nat) (o : AOp) (w : Word) : Bool :=
  let group := if o == .swg then (List.range 8).map (callerSlot s n a k + ·) else []
  let reads := codeSlots s n a k (readCodes o w) ++ group
  (task s (taskKey n a k)).fps.any fun op => op.dests.any (reads.contains ·)

/-! ### The instructions -/

def fltMac (s : Block) (n a k : Nat) (w : Word) : Block :=
  let d := aD w
  fpEnd s n a k w d (fMac (fmtOf d) (fpMode s n a k w) (fpFtz s n a k) (fpGet s n a k (aRd w) d) (fpGet s n a k (aRa w) d)
    (fpGet s n a k (aRb w) d))

def fltCmp (s : Block) (n a k : Nat) (w : Word) : Block :=
  let d := aD w
  let r := fCmp (fmtOf d) (fpFtz s n a k) (aFop w % 8) (fpGet s n a k (aRa w) d) (fpGet s n a k (aRb w) d)
  fpEnd s n a k w false ⟨b2n r.1, r.2⟩

def fltToFloat (s : Block) (n a k : Nat) (w : Word) : Block :=
  let d := aD w
  fpEnd s n a k w (!d) (fToFloat (fmtOf d) (fmtOf (!d)) (fpMode s n a k w) (fpFtz s n a k) (fpGet s n a k (aRa w) d))

def fltToInt (signed : Bool) (s : Block) (n a k : Nat) (w : Word) : Block :=
  let d := aD w
  fpEnd s n a k w false (fToInt (fmtOf d) (fpMode s n a k w) (fpFtz s n a k) signed 32 0 (fpGet s n a k (aRa w) d))

def fltFromInt (signed : Bool) (s : Block) (n a k : Nat) (w : Word) : Block :=
  let d := aD w
  let x := raVal s n a k w
  fpEnd s n a k w d
    (intToFloat (fmtOf d) (fpMode s n a k w) (fpFtz s n a k) (if signed then signedOf 32 x else ((x : Nat) : Int)) 0)

/-- The effect of instruction `o`, encoded by `w`, on task `k` of ACU `a`.  `late`: an access of a load meets no answer in time. -/
def acuRun (o : AOp) (w : Word) (way : BusWay) (s : Block) (n a k : Nat) : Block :=
  let x := raVal s n a k w
  let y := rbVal s n a k w
  let c := carryOf s n a k
  let ci := if aCi w then c else 0
  let cs := if aCi w then c else 1
  let imm := aImm w
  let immS := aImmS w
  let sf := aSf w
  match o with
  | .add => aluEnd s n a k w sf (addRes x y 0)
  | .addc => aluEnd s n a k w sf (addRes x y c)
  | .sub => aluEnd s n a k w sf (subRes x y 1)
  | .subc => aluEnd s n a k w sf (subRes x y c)
  | .neg => aluEnd s n a k w true (subRes 0 x 1)
  | .and => aluEnd s n a k w sf (bitRes (Nat.land x y))
  | .or => aluEnd s n a k w sf (bitRes (Nat.lor x y))
  | .xor => aluEnd s n a k w sf (bitRes (Nat.xor x y))
  | .andn => aluEnd s n a k w sf (bitRes (Nat.land x (2 ^ 32 - 1 - y)))
  | .shl => aluEnd s n a k w sf (bitRes (shlVal x y))
  | .shr => aluEnd s n a k w sf (bitRes (shrVal x y))
  | .sar => aluEnd s n a k w sf (bitRes (sarVal x y))
  | .rol => aluEnd s n a k w sf (bitRes (rolVal x y))
  | .ror => aluEnd s n a k w sf (bitRes (rorVal x y))
  | .mul => mulEnd s n a k (mulVal true x y)
  | .mulu => mulEnd s n a k (mulVal false x y)
  | .div => divStart s n a k (divVal true k x y)
  | .divu => divStart s n a k (divVal false k x y)
  | .dadd => aluEnd s n a k w true (daddRes x y ci)
  | .dsub => aluEnd s n a k w true (dsubRes x y cs)
  | .dadj => aluEnd s n a k w true (dadjRes x y ci)
  | .addi => aluEnd s n a k w false (addRes x immS 0)
  | .andi => aluEnd s n a k w false (bitRes (Nat.land x imm))
  | .ori => aluEnd s n a k w false (bitRes (Nat.lor x imm))
  | .xori => aluEnd s n a k w false (bitRes (Nat.xor x imm))
  | .lui => aluEnd s n a k w false (bitRes (imm * 65536))
  | .cmpi => aluEnd s n a k w true (subRes x immS 1)
  | .shli => aluEnd s n a k w false (bitRes (shlVal x imm))
  | .shri => aluEnd s n a k w false (bitRes (shrVal x imm))
  | .sari => aluEnd s n a k w false (bitRes (sarVal x imm))
  | .roli => aluEnd s n a k w false (bitRes (rolVal x imm))
  | .rori => aluEnd s n a k w false (bitRes (rorVal x imm))
  | .ldb => runLoad 1 true false way w s n a k
  | .ldbu => runLoad 1 false false way w s n a k
  | .ldh => runLoad 2 true false way w s n a k
  | .ldhu => runLoad 2 false false way w s n a k
  | .ld => runLoad 4 false true way w s n a k
  | .ldd => runLdd way w s n a k
  | .lwg => runLwg way w s n a k
  | .stb => runStore 1 (rdVal s n a k w) false w s n a k
  | .sth => runStore 2 (rdVal s n a k w) false w s n a k
  | .st => runStore 4 (rdVal s n a k w) true w s n a k
  | .std => runStore 8 (pairGet s n a k (aRd w)) true w s n a k
  | .swg => runSwg w s n a k
  | .bcond => runBcond w s n a k
  | .call => runCall w s n a k
  | .jrl => runJrl w s n a k
  | .fadd => fpBin s n a k w fAdd
  | .fsub => fpBin s n a k w fSub
  | .fmul => fpBin s n a k w fMul
  | .fmadd => fltMac s n a k w
  | .fdiv => fpLong s n a k (fpBin s n a k w fDiv)
  | .fsqrt => fpLong s n a k (fpUn s n a k w fSqrt)
  | .fmin => fpBin s n a k w fun t _ z p q => fMinMax t z false p q
  | .fmax => fpBin s n a k w fun t _ z p q => fMinMax t z true p q
  | .fneg => fpUn s n a k w fun t _ _ p => fNeg t p
  | .fabs => fpUn s n a k w fun t _ _ p => fAbs t p
  | .fcvtF => fltToFloat s n a k w
  | .fcvtI => fltToInt true s n a k w
  | .fcvtU => fltToInt false s n a k w
  | .fcvtFi => fltFromInt true s n a k w
  | .fcvtFu => fltFromInt false s n a k w
  | .fcmp => fltCmp s n a k w
  | .millIss => runMillIss w s n a k
  | .millRes => runMillRes w s n a k
  | .millWait => runMillWait w s n a k
  | .millYield => runMillYield s n a k
  | .millResume => runMillResume s n a k
  | .wadv => runWadv s n a k
  | .wrev => runWrev s n a k
  | .reti => runReti s n a k
  | .trap => preciseTrap s n a k cauSwtrap none
  | .wait => waitInstr s n a k
  | .sync => runSync s n a k
  | .isync => runIsync s n a k
  | .fbar => runFbar s n a k
  | .mfsr => runMfsr w s n a k
  | .mtsr => runMtsr w s n a k

/-! ### Executing the instruction at the PC -/

/-- A word fetched: ILLEGAL where R207 says so, else its instruction, if it is one that `want` admits and no interlock holds it. -/
def acuWord (want : AOp → Bool) (w : Word) (way : BusWay) (s : Block) (n a k : Nat) : Option Block :=
  match acuDecode w with
  | none => some (preciseTrap s n a k cauIllegal none)
  | some o =>
    if needsTw o && pswF s n a k F.ACU_TASK_PSW_TW = 0 then some (preciseTrap s n a k cauIllegal none)
    else if want o && !fpInterlock s n a k o w then some (acuRun o w way s n a k)
    else none

/-- Task `k` fetches and executes the instruction at its PC: `none` if that is an instruction `want` does not take.  A miss of the
instruction cache makes the task wait (08 R170).  ACCESS at a fetch leaves the instruction's address in W11 (log 63). -/
def acuGo (want : AOp → Bool) (way : BusWay) (s : Block) (n a k : Nat) : Option Block :=
  let pc := taskPc s n a k
  let far := fetchFar s n a pc
  if far && !(task s (taskKey n a k)).served then some (taskWait s n a k wMem)
  else
    match acuFetch s n a pc with
    | .stall => some (taskWait s n a k wMem)
    | .refused s => some (accessTrap s n a k pc)
    | .ok w t => acuWord want w way (if far then unserve t n a k else t) n a k

/-- The pipeline takes an instruction of task `k` next: the module is in Run and TS selects the task (08 R169, 18 R405). -/
def acuOpen (s : Block) (n a k : Nat) : Bool :=
  inRun s n && !((pow s n).entry.isSome && allMuted s n) && selectTask s n a == some k

/-- The commands of the ACU instructions: task `k` executes the instruction at its PC, if that is `o`.  While a cause is to be taken no
instruction commits; only a precise trap, which wins over the cause, still happens (08 R181, R185). -/
def acuStep (o : AOp) (n : Node) (a : AcuIx) (k : TaskIx) (way : BusWay) (s : Block) : Block :=
  if acuOpen s n a k then
    match acuGo (· == o) way (noteSelected s n a k) n a k with
    | some t => if (takeable s n a k).isNone || pswF t n a k F.ACU_TASK_PSW_TW == 1 then t else s
    | none => s
  else s

/-- The answer to a miss or an uncached access is there for the instruction at the PC. -/
def serve (s : Block) (n a k : Nat) : Block :=
  let tk := taskKey n a k
  putTask s tk { task s tk with served := true }

/-- The condition that a waiting task waits for has cleared: its instruction would go on, its word read from memory where the
instruction cache holds it no longer (08 R170). -/
def taskMayWake (s : Block) (n a k : Nat) : Bool :=
  let why := fget s n F.ACU_TASK_STATUS_WAIT (at2 a k)
  if why = wDiv then (acu s n a).divider.isNone
  else if why = wMill then (gang s n a).presented.isNone
  else
    match acuGo (fun _ => true) .served (setRun (serve s n a k) n a k runReady 0) n a k with
    | some t => taskRun t n a k != runWait
    | none => false

/-- A task that waits on memory may go on once its fetch, or its access, no longer stalls. -/
def memoryMayWake (s : Block) (n a k : Nat) : Bool :=
  let pc := taskPc s n a k
  match fetchCheck s n a pc with
  | .stall => false
  | _ => fetchFar s n a pc || taskMayWake s n a k

/-- TASK_WAKE (08 R170): what the task waited for is there; an FBAR that waited commits (08 R201). -/
def taskWake (n : Node) (a : AcuIx) (k : TaskIx) (s : Block) : Block :=
  let why := fget s n F.ACU_TASK_STATUS_WAIT (at2 a k)
  if taskState s n a k = 2 && taskRun s n a k = runWait then
    if why = wMem then if memoryMayWake s n a k then setRun (serve s n a k) n a k runReady 0 else s
    else if why = wFbar then fbarFirst s n a k
    else if taskMayWake s n a k then setRun s n a k runReady 0
    else s
  else s

end Sys2Proof.Machine
end

