-- ==== Sys2Proof/Machine/ExecAcu.lean ====
section
/-! DEFINITION. Sys2Proof/Machine/ExecAcu.lean: the meanings of the commands of this family, one definition each. -/

namespace Sys2Proof.Machine

/-- ADD (R208). ACU add. -/
def execAdd (n : Node) (a : AcuIx) (k : TaskIx) (s : State) : Host.Outcome State Fault Refusal :=
  done s (acuStep .add n a k .served s.toBlock)

/-- ADDC (R208). ACU add with carry. -/
def execAddc (n : Node) (a : AcuIx) (k : TaskIx) (s : State) : Host.Outcome State Fault Refusal :=
  done s (acuStep .addc n a k .served s.toBlock)

/-- SUB (R208). ACU subtract. -/
def execSub (n : Node) (a : AcuIx) (k : TaskIx) (s : State) : Host.Outcome State Fault Refusal :=
  done s (acuStep .sub n a k .served s.toBlock)

/-- SUBC (R208). ACU subtract with borrow. -/
def execSubc (n : Node) (a : AcuIx) (k : TaskIx) (s : State) : Host.Outcome State Fault Refusal :=
  done s (acuStep .subc n a k .served s.toBlock)

/-- NEG (R208). ACU negate. -/
def execNeg (n : Node) (a : AcuIx) (k : TaskIx) (s : State) : Host.Outcome State Fault Refusal :=
  done s (acuStep .neg n a k .served s.toBlock)

/-- AND (R208). ACU bitwise AND. -/
def execAnd (n : Node) (a : AcuIx) (k : TaskIx) (s : State) : Host.Outcome State Fault Refusal :=
  done s (acuStep .and n a k .served s.toBlock)

/-- OR (R208). ACU bitwise OR. -/
def execOr (n : Node) (a : AcuIx) (k : TaskIx) (s : State) : Host.Outcome State Fault Refusal :=
  done s (acuStep .or n a k .served s.toBlock)

/-- XOR (R208). ACU bitwise XOR. -/
def execXor (n : Node) (a : AcuIx) (k : TaskIx) (s : State) : Host.Outcome State Fault Refusal :=
  done s (acuStep .xor n a k .served s.toBlock)

/-- ANDN (R208). ACU AND NOT. -/
def execAndn (n : Node) (a : AcuIx) (k : TaskIx) (s : State) : Host.Outcome State Fault Refusal :=
  done s (acuStep .andn n a k .served s.toBlock)

/-- SHL (R210). ACU left shift by register, unmasked. -/
def execShl (n : Node) (a : AcuIx) (k : TaskIx) (s : State) : Host.Outcome State Fault Refusal :=
  done s (acuStep .shl n a k .served s.toBlock)

/-- SHR (R210). ACU logical right shift by register. -/
def execShr (n : Node) (a : AcuIx) (k : TaskIx) (s : State) : Host.Outcome State Fault Refusal :=
  done s (acuStep .shr n a k .served s.toBlock)

/-- SAR (R210). ACU arithmetic right shift by register. -/
def execSar (n : Node) (a : AcuIx) (k : TaskIx) (s : State) : Host.Outcome State Fault Refusal :=
  done s (acuStep .sar n a k .served s.toBlock)

/-- ROL (R210). ACU rotate left by register. -/
def execRol (n : Node) (a : AcuIx) (k : TaskIx) (s : State) : Host.Outcome State Fault Refusal :=
  done s (acuStep .rol n a k .served s.toBlock)

/-- ROR (R210). ACU rotate right by register. -/
def execRor (n : Node) (a : AcuIx) (k : TaskIx) (s : State) : Host.Outcome State Fault Refusal :=
  done s (acuStep .ror n a k .served s.toBlock)

/-- MUL (R172). ACU signed 64-bit multiply into MDH:MDL. -/
def execMul (n : Node) (a : AcuIx) (k : TaskIx) (s : State) : Host.Outcome State Fault Refusal :=
  done s (acuStep .mul n a k .served s.toBlock)

/-- MULU (R172). ACU unsigned 64-bit multiply into MDH:MDL. -/
def execMulu (n : Node) (a : AcuIx) (k : TaskIx) (s : State) : Host.Outcome State Fault Refusal :=
  done s (acuStep .mulu n a k .served s.toBlock)

/-- DIV (R174). ACU signed divide on the shared iterative divider. -/
def execDiv (n : Node) (a : AcuIx) (k : TaskIx) (s : State) : Host.Outcome State Fault Refusal :=
  done s (acuStep .div n a k .served s.toBlock)

/-- DIVU (R174). ACU unsigned divide on the shared divider. -/
def execDivu (n : Node) (a : AcuIx) (k : TaskIx) (s : State) : Host.Outcome State Fault Refusal :=
  done s (acuStep .divu n a k .served s.toBlock)

/-- DIVIDE_COMPLETE (R174). After 36 cycles the divide commits its quotient, remainder and flags, and frees the divider. -/
def execDivideComplete (n : Node) (a : AcuIx) (s : State) : Host.Outcome State Fault Refusal :=
  done s (divideComplete n a s.toBlock)

/-- DADD (R212). Packed-decimal add. -/
def execDadd (n : Node) (a : AcuIx) (k : TaskIx) (s : State) : Host.Outcome State Fault Refusal :=
  done s (acuStep .dadd n a k .served s.toBlock)

/-- DSUB (R212). Packed-decimal subtract. -/
def execDsub (n : Node) (a : AcuIx) (k : TaskIx) (s : State) : Host.Outcome State Fault Refusal :=
  done s (acuStep .dsub n a k .served s.toBlock)

/-- DADJ (R213). Mixed-radix adjust of four two-digit fields. -/
def execDadj (n : Node) (a : AcuIx) (k : TaskIx) (s : State) : Host.Outcome State Fault Refusal :=
  done s (acuStep .dadj n a k .served s.toBlock)

/-- ADDI (R206). Add sign-extended immediate. -/
def execAddi (n : Node) (a : AcuIx) (k : TaskIx) (s : State) : Host.Outcome State Fault Refusal :=
  done s (acuStep .addi n a k .served s.toBlock)

/-- ANDI (R206). AND zero-extended immediate. -/
def execAndi (n : Node) (a : AcuIx) (k : TaskIx) (s : State) : Host.Outcome State Fault Refusal :=
  done s (acuStep .andi n a k .served s.toBlock)

/-- ORI (R206). OR zero-extended immediate. -/
def execOri (n : Node) (a : AcuIx) (k : TaskIx) (s : State) : Host.Outcome State Fault Refusal :=
  done s (acuStep .ori n a k .served s.toBlock)

/-- XORI (R206). XOR zero-extended immediate. -/
def execXori (n : Node) (a : AcuIx) (k : TaskIx) (s : State) : Host.Outcome State Fault Refusal :=
  done s (acuStep .xori n a k .served s.toBlock)

/-- LUI (R206). Load upper immediate. -/
def execLui (n : Node) (a : AcuIx) (k : TaskIx) (s : State) : Host.Outcome State Fault Refusal :=
  done s (acuStep .lui n a k .served s.toBlock)

/-- CMPI (R206). Compare with immediate, setting flags. -/
def execCmpi (n : Node) (a : AcuIx) (k : TaskIx) (s : State) : Host.Outcome State Fault Refusal :=
  done s (acuStep .cmpi n a k .served s.toBlock)

/-- SHLI (R210). Left shift by immediate. -/
def execShli (n : Node) (a : AcuIx) (k : TaskIx) (s : State) : Host.Outcome State Fault Refusal :=
  done s (acuStep .shli n a k .served s.toBlock)

/-- SHRI (R210). Logical right shift by immediate. -/
def execShri (n : Node) (a : AcuIx) (k : TaskIx) (s : State) : Host.Outcome State Fault Refusal :=
  done s (acuStep .shri n a k .served s.toBlock)

/-- SARI (R210). Arithmetic right shift by immediate. -/
def execSari (n : Node) (a : AcuIx) (k : TaskIx) (s : State) : Host.Outcome State Fault Refusal :=
  done s (acuStep .sari n a k .served s.toBlock)

/-- ROLI (R210). Rotate left by immediate. -/
def execRoli (n : Node) (a : AcuIx) (k : TaskIx) (s : State) : Host.Outcome State Fault Refusal :=
  done s (acuStep .roli n a k .served s.toBlock)

/-- RORI (R210). Rotate right by immediate. -/
def execRori (n : Node) (a : AcuIx) (k : TaskIx) (s : State) : Host.Outcome State Fault Refusal :=
  done s (acuStep .rori n a k .served s.toBlock)

/-- LDB (R214). Load sign-extended byte. -/
def execLdb (n : Node) (a : AcuIx) (k : TaskIx) (way : BusWay) (s : State) : Host.Outcome State Fault Refusal :=
  done s (acuStep .ldb n a k way s.toBlock)

/-- LDBU (R214). Load zero-extended byte. -/
def execLdbu (n : Node) (a : AcuIx) (k : TaskIx) (way : BusWay) (s : State) : Host.Outcome State Fault Refusal :=
  done s (acuStep .ldbu n a k way s.toBlock)

/-- LDH (R214). Load sign-extended halfword. -/
def execLdh (n : Node) (a : AcuIx) (k : TaskIx) (way : BusWay) (s : State) : Host.Outcome State Fault Refusal :=
  done s (acuStep .ldh n a k way s.toBlock)

/-- LDHU (R214). Load zero-extended halfword. -/
def execLdhu (n : Node) (a : AcuIx) (k : TaskIx) (way : BusWay) (s : State) : Host.Outcome State Fault Refusal :=
  done s (acuStep .ldhu n a k way s.toBlock)

/-- LD (R214). Load word. -/
def execLd (n : Node) (a : AcuIx) (k : TaskIx) (way : BusWay) (s : State) : Host.Outcome State Fault Refusal :=
  done s (acuStep .ld n a k way s.toBlock)

/-- LDD (R214). Load doubleword into an even pair. -/
def execLdd (n : Node) (a : AcuIx) (k : TaskIx) (way : BusWay) (s : State) : Host.Outcome State Fault Refusal :=
  done s (acuStep .ldd n a k way s.toBlock)

/-- LWG (R214). Load eight words into the caller's register group in a trap window. -/
def execLwg (n : Node) (a : AcuIx) (k : TaskIx) (way : BusWay) (s : State) : Host.Outcome State Fault Refusal :=
  done s (acuStep .lwg n a k way s.toBlock)

/-- STB (R214). Store byte into the store buffer. -/
def execStb (n : Node) (a : AcuIx) (k : TaskIx) (s : State) : Host.Outcome State Fault Refusal :=
  done s (acuStep .stb n a k .served s.toBlock)

/-- STH (R214). Store halfword. -/
def execSth (n : Node) (a : AcuIx) (k : TaskIx) (s : State) : Host.Outcome State Fault Refusal :=
  done s (acuStep .sth n a k .served s.toBlock)

/-- ST (R214). Store word. -/
def execSt (n : Node) (a : AcuIx) (k : TaskIx) (s : State) : Host.Outcome State Fault Refusal :=
  done s (acuStep .st n a k .served s.toBlock)

/-- STD (R214). Store doubleword from an even pair. -/
def execStd (n : Node) (a : AcuIx) (k : TaskIx) (s : State) : Host.Outcome State Fault Refusal :=
  done s (acuStep .std n a k .served s.toBlock)

/-- SWG (R214). Store the caller's register group in a trap window. -/
def execSwg (n : Node) (a : AcuIx) (k : TaskIx) (s : State) : Host.Outcome State Fault Refusal :=
  done s (acuStep .swg n a k .served s.toBlock)

/-- B_COND (R215). Conditional branch on the flags. -/
def execBCond (n : Node) (a : AcuIx) (k : TaskIx) (s : State) : Host.Outcome State Fault Refusal :=
  done s (acuStep .bcond n a k .served s.toBlock)

/-- CALL (R216). Call, writing the return address to W8. -/
def execCall (n : Node) (a : AcuIx) (k : TaskIx) (s : State) : Host.Outcome State Fault Refusal :=
  done s (acuStep .call n a k .served s.toBlock)

/-- JRL (R216). Jump to register and link. -/
def execJrl (n : Node) (a : AcuIx) (k : TaskIx) (s : State) : Host.Outcome State Fault Refusal :=
  done s (acuStep .jrl n a k .served s.toBlock)

/-- FADD (R221). ACU floating-point add. -/
def execFadd (n : Node) (a : AcuIx) (k : TaskIx) (s : State) : Host.Outcome State Fault Refusal :=
  done s (acuStep .fadd n a k .served s.toBlock)

/-- FSUB (R221). ACU floating-point subtract. -/
def execFsub (n : Node) (a : AcuIx) (k : TaskIx) (s : State) : Host.Outcome State Fault Refusal :=
  done s (acuStep .fsub n a k .served s.toBlock)

/-- FMUL (R221). ACU floating-point multiply. -/
def execFmul (n : Node) (a : AcuIx) (k : TaskIx) (s : State) : Host.Outcome State Fault Refusal :=
  done s (acuStep .fmul n a k .served s.toBlock)

/-- FMADD (R221). ACU fused multiply-add. -/
def execFmadd (n : Node) (a : AcuIx) (k : TaskIx) (s : State) : Host.Outcome State Fault Refusal :=
  done s (acuStep .fmadd n a k .served s.toBlock)

/-- FDIV (R221). ACU floating-point divide, occupying the unit. -/
def execFdiv (n : Node) (a : AcuIx) (k : TaskIx) (s : State) : Host.Outcome State Fault Refusal :=
  done s (acuStep .fdiv n a k .served s.toBlock)

/-- FSQRT (R221). ACU floating-point square root, occupying the unit. -/
def execFsqrt (n : Node) (a : AcuIx) (k : TaskIx) (s : State) : Host.Outcome State Fault Refusal :=
  done s (acuStep .fsqrt n a k .served s.toBlock)

/-- FMIN (R221). ACU floating-point minimum. -/
def execFmin (n : Node) (a : AcuIx) (k : TaskIx) (s : State) : Host.Outcome State Fault Refusal :=
  done s (acuStep .fmin n a k .served s.toBlock)

/-- FMAX (R221). ACU floating-point maximum. -/
def execFmax (n : Node) (a : AcuIx) (k : TaskIx) (s : State) : Host.Outcome State Fault Refusal :=
  done s (acuStep .fmax n a k .served s.toBlock)

/-- FNEG (R221). ACU floating-point negate. -/
def execFneg (n : Node) (a : AcuIx) (k : TaskIx) (s : State) : Host.Outcome State Fault Refusal :=
  done s (acuStep .fneg n a k .served s.toBlock)

/-- FABS (R221). ACU floating-point absolute value. -/
def execFabs (n : Node) (a : AcuIx) (k : TaskIx) (s : State) : Host.Outcome State Fault Refusal :=
  done s (acuStep .fabs n a k .served s.toBlock)

/-- FCVT_F (R221). Convert between binary32 and binary64. -/
def execFcvtF (n : Node) (a : AcuIx) (k : TaskIx) (s : State) : Host.Outcome State Fault Refusal :=
  done s (acuStep .fcvtF n a k .served s.toBlock)

/-- FCVT_I (R221). Convert float to SINT 32. -/
def execFcvtI (n : Node) (a : AcuIx) (k : TaskIx) (s : State) : Host.Outcome State Fault Refusal :=
  done s (acuStep .fcvtI n a k .served s.toBlock)

/-- FCVT_U (R221). Convert float to UINT 32. -/
def execFcvtU (n : Node) (a : AcuIx) (k : TaskIx) (s : State) : Host.Outcome State Fault Refusal :=
  done s (acuStep .fcvtU n a k .served s.toBlock)

/-- FCVT_FI (R221). Convert SINT 32 to float. -/
def execFcvtFi (n : Node) (a : AcuIx) (k : TaskIx) (s : State) : Host.Outcome State Fault Refusal :=
  done s (acuStep .fcvtFi n a k .served s.toBlock)

/-- FCVT_FU (R221). Convert UINT 32 to float. -/
def execFcvtFu (n : Node) (a : AcuIx) (k : TaskIx) (s : State) : Host.Outcome State Fault Refusal :=
  done s (acuStep .fcvtFu n a k .served s.toBlock)

/-- FCMP (R221). ACU floating-point comparison into a register. -/
def execFcmp (n : Node) (a : AcuIx) (k : TaskIx) (s : State) : Host.Outcome State Fault Refusal :=
  done s (acuStep .fcmp n a k .served s.toBlock)

/-- FP_REPORT (R200). A floating-point op's result becomes available and its flags enter FSR, possibly making FP_TRAP pending. -/
def execFpReport (n : Node) (a : AcuIx) (k : TaskIx) (r : Nat) (s : State) : Host.Outcome State Fault Refusal :=
  done s (fpReport n a k r s.toBlock)

/-- WADV (R176). Window advance, or WINDOW_OVF. -/
def execWadv (n : Node) (a : AcuIx) (k : TaskIx) (s : State) : Host.Outcome State Fault Refusal :=
  done s (acuStep .wadv n a k .served s.toBlock)

/-- WREV (R176). Window revert, or WINDOW_UNF. -/
def execWrev (n : Node) (a : AcuIx) (k : TaskIx) (s : State) : Host.Outcome State Fault Refusal :=
  done s (acuStep .wrev n a k .served s.toBlock)

/-- RETI (R184). Return from trap, or chain to a pending cause. -/
def execReti (n : Node) (a : AcuIx) (k : TaskIx) (s : State) : Host.Outcome State Fault Refusal :=
  done s (acuStep .reti n a k .served s.toBlock)

/-- TRAP (R217). Raises SWTRAP. -/
def execTrap (n : Node) (a : AcuIx) (k : TaskIx) (s : State) : Host.Outcome State Fault Refusal :=
  done s (acuStep .trap n a k .served s.toBlock)

/-- WAIT (R170). Waits until any interrupt cause is pending for the task. -/
def execWait (n : Node) (a : AcuIx) (k : TaskIx) (s : State) : Host.Outcome State Fault Refusal :=
  done s (acuStep .wait n a k .served s.toBlock)

/-- SYNC (R193). Waits until the task's earlier stores have drained. -/
def execSync (n : Node) (a : AcuIx) (k : TaskIx) (s : State) : Host.Outcome State Fault Refusal :=
  done s (acuStep .sync n a k .served s.toBlock)

/-- ISYNC (R196). Drains stores and invalidates the ACU's instruction cache. -/
def execIsync (n : Node) (a : AcuIx) (k : TaskIx) (s : State) : Host.Outcome State Fault Refusal :=
  done s (acuStep .isync n a k .served s.toBlock)

/-- FBAR (R201). Commits after every earlier floating-point op has reported. -/
def execFbar (n : Node) (a : AcuIx) (k : TaskIx) (s : State) : Host.Outcome State Fault Refusal :=
  done s (acuStep .fbar n a k .served s.toBlock)

/-- MFSR (R218). Read a special register. -/
def execMfsr (n : Node) (a : AcuIx) (k : TaskIx) (s : State) : Host.Outcome State Fault Refusal :=
  done s (acuStep .mfsr n a k .served s.toBlock)

/-- MTSR (R218). Write a special register. -/
def execMtsr (n : Node) (a : AcuIx) (k : TaskIx) (s : State) : Host.Outcome State Fault Refusal :=
  done s (acuStep .mtsr n a k .served s.toBlock)

/-- MILL_ISS (R186). Presents a macro-op to Millrace and writes its acceptance number. -/
def execMillIss (n : Node) (a : AcuIx) (k : TaskIx) (s : State) : Host.Outcome State Fault Refusal :=
  done s (acuStep .millIss n a k .served s.toBlock)

/-- MILL_RES (R188). Takes the oldest Croak value from the gang's result queue. -/
def execMillRes (n : Node) (a : AcuIx) (k : TaskIx) (s : State) : Host.Outcome State Fault Refusal :=
  done s (acuStep .millRes n a k .served s.toBlock)

/-- MILL_WAIT (R189). Waits for and returns the outcome of a numbered macro-op. -/
def execMillWait (n : Node) (a : AcuIx) (k : TaskIx) (s : State) : Host.Outcome State Fault Refusal :=
  done s (acuStep .millWait n a k .served s.toBlock)

/-- MILL_YIELD (R190). Sends a stop request with cause ACU to the gang. -/
def execMillYield (n : Node) (a : AcuIx) (k : TaskIx) (s : State) : Host.Outcome State Fault Refusal :=
  done s (acuStep .millYield n a k .served s.toBlock)

/-- MILL_RESUME (R190). Acts as a RESUME write to the gang. -/
def execMillResume (n : Node) (a : AcuIx) (k : TaskIx) (s : State) : Host.Outcome State Fault Refusal :=
  done s (acuStep .millResume n a k .served s.toBlock)

/-- TASK_WAKE (R170). A waiting task's condition clears, such as cache data returning, and it becomes READY. -/
def execTaskWake (n : Node) (a : AcuIx) (k : TaskIx) (s : State) : Host.Outcome State Fault Refusal :=
  done s (taskWake n a k s.toBlock)

/-- TRAP_ENTRY (R182). A takeable cause is taken: registers saved in the next window and the PC set to the vector. -/
def execTrapEntry (n : Node) (a : AcuIx) (k : TaskIx) (s : State) : Host.Outcome State Fault Refusal :=
  done s (trapEntry n a k s.toBlock)

/-- STORE_DRAIN (R192). The oldest store-buffer entry drains to its target. -/
def execStoreDrain (n : Node) (a : AcuIx) (way : BusWay) (s : State) : Host.Outcome State Fault Refusal :=
  done s (storeDrain n a way s.toBlock)

end Sys2Proof.Machine
end

