-- ==== Sys2Proof/Machine/ExecArray.lean ====
section
/-! DEFINITION. Sys2Proof/Machine/ExecArray.lean: the meanings of the commands of this family, one definition each. -/

namespace Sys2Proof.Machine

/-- A_NOP (R105). Macro-op doing nothing. -/
def execANop (n : Node) (g : GangIx) (s : State) : Host.Outcome State Fault Refusal :=
  done s (runOp 0x00 0 idleBody n g s.toBlock)

/-- A_END (R110). Macro-op ending the gang program once all earlier ops have retired; its retirement is the program's commit point. -/
def execAEnd (n : Node) (g : GangIx) (s : State) : Host.Outcome State Fault Refusal :=
  done s (runOp 0x01 0 idleBody n g s.toBlock)

/-- A_FBAR (R111). Floating-point barrier retiring only after earlier float ops have delivered flags and traps. -/
def execAFbar (n : Node) (g : GangIx) (s : State) : Host.Outcome State Fault Refusal :=
  done s (runOp 0x02 0 idleBody n g s.toBlock)

/-- A_CLRF (R105). Macro-op clearing F in active PEs. -/
def execAClrf (n : Node) (g : GangIx) (s : State) : Host.Outcome State Fault Refusal :=
  done s (runOp 0x03 0 clrfBody n g s.toBlock)

/-- A_GETF (R105). Macro-op writing F into a one-bit destination. -/
def execAGetf (n : Node) (g : GangIx) (s : State) : Host.Outcome State Fault Refusal :=
  done s (runOp 0x04 0 (elemBody peGetf false) n g s.toBlock)

/-- A_PUTF (R105). Macro-op loading F from a one-bit operand. -/
def execAPutf (n : Node) (g : GangIx) (s : State) : Host.Outcome State Fault Refusal :=
  done s (runOp 0x05 0 putfBody n g s.toBlock)

/-- A_SETM (R109). Macro-op setting M in every PE by the function in PRM. -/
def execASetm (n : Node) (g : GangIx) (s : State) : Host.Outcome State Fault Refusal :=
  done s (runOp 0x06 0 setmBody n g s.toBlock)

/-- A_GETM (R109). Macro-op writing M into a one-bit destination in every PE. -/
def execAGetm (n : Node) (g : GangIx) (s : State) : Host.Outcome State Fault Refusal :=
  done s (runOp 0x07 0 getmBody n g s.toBlock)

/-- A_ADD (R124). Integer add with wrap and V. -/
def execAAdd (n : Node) (g : GangIx) (s : State) : Host.Outcome State Fault Refusal :=
  done s (runOp 0x10 0 (elemBody peAdd false) n g s.toBlock)

/-- A_FADD (R129). Floating-point add, correctly rounded. -/
def execAFadd (n : Node) (g : GangIx) (s : State) : Host.Outcome State Fault Refusal :=
  done s (runOp 0x10 1 (elemBody peFAdd false) n g s.toBlock)

/-- A_SUB (R124). Integer subtract with wrap and V. -/
def execASub (n : Node) (g : GangIx) (s : State) : Host.Outcome State Fault Refusal :=
  done s (runOp 0x11 0 (elemBody peSub false) n g s.toBlock)

/-- A_FSUB (R129). Floating-point subtract, correctly rounded. -/
def execAFsub (n : Node) (g : GangIx) (s : State) : Host.Outcome State Fault Refusal :=
  done s (runOp 0x11 1 (elemBody peFSub false) n g s.toBlock)

/-- A_NEG (R124). Integer negate with wrap and V. -/
def execANeg (n : Node) (g : GangIx) (s : State) : Host.Outcome State Fault Refusal :=
  done s (runOp 0x12 0 (elemBody peNeg false) n g s.toBlock)

/-- A_FNEG (R131). Floating-point negate changing only the sign bit. -/
def execAFneg (n : Node) (g : GangIx) (s : State) : Host.Outcome State Fault Refusal :=
  done s (runOp 0x12 1 (elemBody peFNeg false) n g s.toBlock)

/-- A_ABS (R124). Integer absolute value with wrap and V. -/
def execAAbs (n : Node) (g : GangIx) (s : State) : Host.Outcome State Fault Refusal :=
  done s (runOp 0x13 0 (elemBody peAbs false) n g s.toBlock)

/-- A_FABS (R131). Floating-point absolute value changing only the sign bit. -/
def execAFabs (n : Node) (g : GangIx) (s : State) : Host.Outcome State Fault Refusal :=
  done s (runOp 0x13 1 (elemBody peFAbs false) n g s.toBlock)

/-- A_MUL (R125). Integer or fixed-point multiply scaled back to the shared binary point. -/
def execAMul (n : Node) (g : GangIx) (s : State) : Host.Outcome State Fault Refusal :=
  done s (runOp 0x14 0 (elemBody peMul false) n g s.toBlock)

/-- A_FMUL (R129). Floating-point multiply. -/
def execAFmul (n : Node) (g : GangIx) (s : State) : Host.Outcome State Fault Refusal :=
  done s (runOp 0x14 1 (elemBody peFMul false) n g s.toBlock)

/-- A_MAC (R125). Integer multiply-accumulate, rounded once. -/
def execAMac (n : Node) (g : GangIx) (s : State) : Host.Outcome State Fault Refusal :=
  done s (runOp 0x15 0 (elemBody peMac true) n g s.toBlock)

/-- A_FMAC (R129). Fused floating-point multiply-add. -/
def execAFmac (n : Node) (g : GangIx) (s : State) : Host.Outcome State Fault Refusal :=
  done s (runOp 0x15 1 (elemBody peFMac true) n g s.toBlock)

/-- A_DIV (R125). Integer division of stored integers, truncated by default. -/
def execADiv (n : Node) (g : GangIx) (s : State) : Host.Outcome State Fault Refusal :=
  done s (runOp 0x16 0 (elemBody peDiv false) n g s.toBlock)

/-- A_FDIV (R129). Floating-point division. -/
def execAFdiv (n : Node) (g : GangIx) (s : State) : Host.Outcome State Fault Refusal :=
  done s (runOp 0x16 1 (elemBody peFDiv false) n g s.toBlock)

/-- A_REM (R125). Integer remainder with the sign of the dividend. -/
def execARem (n : Node) (g : GangIx) (s : State) : Host.Outcome State Fault Refusal :=
  done s (runOp 0x17 0 (elemBody peRem false) n g s.toBlock)

/-- A_FSQRT (R129). Floating-point square root. -/
def execAFsqrt (n : Node) (g : GangIx) (s : State) : Host.Outcome State Fault Refusal :=
  done s (runOp 0x18 1 (elemBody peFSqrt false) n g s.toBlock)

/-- A_MIN (R124). Integer minimum. -/
def execAMin (n : Node) (g : GangIx) (s : State) : Host.Outcome State Fault Refusal :=
  done s (runOp 0x19 0 (elemBody peMin false) n g s.toBlock)

/-- A_FMIN (R132). Floating-point minimumNumber. -/
def execAFmin (n : Node) (g : GangIx) (s : State) : Host.Outcome State Fault Refusal :=
  done s (runOp 0x19 1 (elemBody peFMin false) n g s.toBlock)

/-- A_MAX (R124). Integer maximum. -/
def execAMax (n : Node) (g : GangIx) (s : State) : Host.Outcome State Fault Refusal :=
  done s (runOp 0x1A 0 (elemBody peMax false) n g s.toBlock)

/-- A_FMAX (R132). Floating-point maximumNumber. -/
def execAFmax (n : Node) (g : GangIx) (s : State) : Host.Outcome State Fault Refusal :=
  done s (runOp 0x1A 1 (elemBody peFMax false) n g s.toBlock)

/-- A_CMP (R106). Integer comparison by the relation in PRM into a one-bit destination. -/
def execACmp (n : Node) (g : GangIx) (s : State) : Host.Outcome State Fault Refusal :=
  done s (runOp 0x1B 0 (elemBody peCmp false) n g s.toBlock)

/-- A_FCMP (R133). Floating-point comparison by the relation in PRM. -/
def execAFcmp (n : Node) (g : GangIx) (s : State) : Host.Outcome State Fault Refusal :=
  done s (runOp 0x1B 1 (elemBody peFCmp false) n g s.toBlock)

/-- A_CVT (R126). Conversion from an integer format to the format held in PRM. -/
def execACvt (n : Node) (g : GangIx) (s : State) : Host.Outcome State Fault Refusal :=
  done s (runOp 0x1C 0 (elemBody peCvt false) n g s.toBlock)

/-- A_FCVT (R134). Conversion from a float format to the format held in PRM. -/
def execAFcvt (n : Node) (g : GangIx) (s : State) : Host.Outcome State Fault Refusal :=
  done s (runOp 0x1C 1 (elemBody peFCvt false) n g s.toBlock)

/-- A_AND (R107). Bitwise AND. -/
def execAAnd (n : Node) (g : GangIx) (s : State) : Host.Outcome State Fault Refusal :=
  done s (runOp 0x20 0 (elemBody peAnd false) n g s.toBlock)

/-- A_OR (R107). Bitwise OR. -/
def execAOr (n : Node) (g : GangIx) (s : State) : Host.Outcome State Fault Refusal :=
  done s (runOp 0x21 0 (elemBody peOr false) n g s.toBlock)

/-- A_XOR (R107). Bitwise XOR. -/
def execAXor (n : Node) (g : GangIx) (s : State) : Host.Outcome State Fault Refusal :=
  done s (runOp 0x22 0 (elemBody peXor false) n g s.toBlock)

/-- A_NOT (R107). Bitwise NOT. -/
def execANot (n : Node) (g : GangIx) (s : State) : Host.Outcome State Fault Refusal :=
  done s (runOp 0x23 0 (elemBody peNot false) n g s.toBlock)

/-- A_LOGIC (R107). Three-input logic function from the table in PRM. -/
def execALogic (n : Node) (g : GangIx) (s : State) : Host.Outcome State Fault Refusal :=
  done s (runOp 0x24 0 (elemBody peLogic true) n g s.toBlock)

/-- A_SHL (R107). Left shift by operand 2. -/
def execAShl (n : Node) (g : GangIx) (s : State) : Host.Outcome State Fault Refusal :=
  done s (runOp 0x25 0 (elemBody peShl false) n g s.toBlock)

/-- A_SHR (R107). Logical right shift by operand 2. -/
def execAShr (n : Node) (g : GangIx) (s : State) : Host.Outcome State Fault Refusal :=
  done s (runOp 0x26 0 (elemBody peShr false) n g s.toBlock)

/-- A_SAR (R107). Arithmetic right shift by operand 2. -/
def execASar (n : Node) (g : GangIx) (s : State) : Host.Outcome State Fault Refusal :=
  done s (runOp 0x27 0 (elemBody peSar false) n g s.toBlock)

/-- A_ROL (R107). Rotate left by operand 2. -/
def execARol (n : Node) (g : GangIx) (s : State) : Host.Outcome State Fault Refusal :=
  done s (runOp 0x28 0 (elemBody peRol false) n g s.toBlock)

/-- A_ROR (R107). Rotate right by operand 2. -/
def execARor (n : Node) (g : GangIx) (s : State) : Host.Outcome State Fault Refusal :=
  done s (runOp 0x29 0 (elemBody peRor false) n g s.toBlock)

/-- A_SHLI (R107). Left shift by PRM. -/
def execAShli (n : Node) (g : GangIx) (s : State) : Host.Outcome State Fault Refusal :=
  done s (runOp 0x2A 0 (elemBody peShli false) n g s.toBlock)

/-- A_SHRI (R107). Logical right shift by PRM. -/
def execAShri (n : Node) (g : GangIx) (s : State) : Host.Outcome State Fault Refusal :=
  done s (runOp 0x2B 0 (elemBody peShri false) n g s.toBlock)

/-- A_SARI (R107). Arithmetic right shift by PRM. -/
def execASari (n : Node) (g : GangIx) (s : State) : Host.Outcome State Fault Refusal :=
  done s (runOp 0x2C 0 (elemBody peSari false) n g s.toBlock)

/-- A_ROLI (R107). Rotate left by PRM. -/
def execARoli (n : Node) (g : GangIx) (s : State) : Host.Outcome State Fault Refusal :=
  done s (runOp 0x2D 0 (elemBody peRoli false) n g s.toBlock)

/-- A_RORI (R107). Rotate right by PRM. -/
def execARori (n : Node) (g : GangIx) (s : State) : Host.Outcome State Fault Refusal :=
  done s (runOp 0x2E 0 (elemBody peRori false) n g s.toBlock)

/-- A_MOV (R108). Move with extension or truncation and V. -/
def execAMov (n : Node) (g : GangIx) (s : State) : Host.Outcome State Fault Refusal :=
  done s (runOp 0x30 0 (elemBody peMov false) n g s.toBlock)

/-- A_FILL (R108). Fill with the 32-bit immediate CNT:PRM. -/
def execAFill (n : Node) (g : GangIx) (s : State) : Host.Outcome State Fault Refusal :=
  done s (runOp 0x31 0 (elemBody peFill false) n g s.toBlock)

/-- A_SEL (R108). Select between two sources by F. -/
def execASel (n : Node) (g : GangIx) (s : State) : Host.Outcome State Fault Refusal :=
  done s (runOp 0x32 0 (elemBody peSel false) n g s.toBlock)

/-- A_MOVN (R116). Resumable neighbour move over a distance, using the committed edge modes. -/
def execAMovn (n : Node) (g : GangIx) (upto : BitVec 16) (s : State) : Host.Outcome State Fault Refusal :=
  done s (runMovn upto.toNat n g s.toBlock)

/-- A_CROAK (R112). Returns the gang OR of a bit or of F. -/
def execACroak (n : Node) (g : GangIx) (s : State) : Host.Outcome State Fault Refusal :=
  done s (runOp 0x40 0 (croakBody n g) n g s.toBlock)

/-- A_CMAX (R112). Returns the gang maximum by Croak bisection. -/
def execACmax (n : Node) (g : GangIx) (s : State) : Host.Outcome State Fault Refusal :=
  done s (runOp 0x41 0 (cmaxBody true n g) n g s.toBlock)

/-- A_FCMAX (R112). Returns the gang floating-point maximum. -/
def execAFcmax (n : Node) (g : GangIx) (s : State) : Host.Outcome State Fault Refusal :=
  done s (runOp 0x41 1 (fcmaxBody true n g) n g s.toBlock)

/-- A_CMIN (R112). Returns the gang minimum by Croak bisection. -/
def execACmin (n : Node) (g : GangIx) (s : State) : Host.Outcome State Fault Refusal :=
  done s (runOp 0x42 0 (cmaxBody false n g) n g s.toBlock)

/-- A_FCMIN (R112). Returns the gang floating-point minimum. -/
def execAFcmin (n : Node) (g : GangIx) (s : State) : Host.Outcome State Fault Refusal :=
  done s (runOp 0x42 1 (fcmaxBody false n g) n g s.toBlock)

/-- A_COUNT (R112). Returns the count of active PEs with the bit set, summed over the mesh and read out by Croak. -/
def execACount (n : Node) (g : GangIx) (s : State) : Host.Outcome State Fault Refusal :=
  done s (runOp 0x43 0 (countBody n g) n g s.toBlock)

/-- A_COPY (R113). Resumable block copy of CNT elements. -/
def execACopy (n : Node) (g : GangIx) (upto : BitVec 16) (s : State) : Host.Outcome State Fault Refusal :=
  done s (runResumable 0x50 0 cntTotal copyStep always upto.toNat n g s.toBlock)

/-- A_SCAN (R114). Resumable inclusive prefix scan along one axis of the gang. -/
def execAScan (n : Node) (g : GangIx) (upto : BitVec 16) (s : State) : Host.Outcome State Fault Refusal :=
  done s (runResumable 0x51 0 scanTotal scanStep always upto.toNat n g s.toBlock)

/-- A_BFLY (R115). Resumable integer radix-2 butterfly stage over CNT batches. -/
def execABfly (n : Node) (g : GangIx) (upto : BitVec 16) (s : State) : Host.Outcome State Fault Refusal :=
  done s (runResumable 0x52 0 bflyTotal bflyStep always upto.toNat n g s.toBlock)

/-- A_FBFLY (R115). Resumable floating-point radix-2 butterfly stage over CNT batches. -/
def execAFbfly (n : Node) (g : GangIx) (upto : BitVec 16) (s : State) : Host.Outcome State Fault Refusal :=
  done s (runResumable 0x52 1 bflyTotal bflyStep always upto.toNat n g s.toBlock)

/-- A_WIN (R113). Resumable transfer of CNT elements from a Wheel stream into the planes. -/
def execAWin (n : Node) (g : GangIx) (upto : BitVec 16) (s : State) : Host.Outcome State Fault Refusal :=
  done s (runResumable 0x53 0 cntTotal winStep buffersReady upto.toNat n g s.toBlock)

/-- A_WOUT (R113). Resumable transfer of CNT elements from the planes to a Wheel stream. -/
def execAWout (n : Node) (g : GangIx) (only : Option TileAt) (s : State) : Host.Outcome State Fault Refusal :=
  done s (runWout only n g s.toBlock)

/-- USER_OP (R122). A macro-op at opcodes 0xC0–0xFF runs the routine that software loaded. -/
def execUserOp (n : Node) (t : TileIx) (cycles : BitVec 12) (s : State) : Host.Outcome State Fault Refusal :=
  done s (userOp cycles.toNat n t s.toBlock)

end Sys2Proof.Machine
end

