-- ==== Sys2Proof/Machine/ExecBoot.lean ====
section
/-! DEFINITION. Sys2Proof/Machine/ExecBoot.lean: the meanings of the commands of this family, one definition each. -/

namespace Sys2Proof.Machine

/-- POWER_GOOD (R437). All supplies are in range with RESET_N high, and the module sequences rails and boots. -/
def execPowerGood (n : Node) (recovery : Bool) (straps : BitVec 10) (link : Bool) (s : State) : Host.Outcome State Fault Refusal :=
  done s (powerGood n recovery straps link s.toBlock)

/-- RESET_N_ASSERT (R440). RESET_N low for 1 µs mutes outputs, finishes MRAM writes and resets the module. -/
def execResetNAssert (n : Node) (high recovery : Bool) (addr : BitVec 2) (link : Bool) (s : State) : Host.Outcome State Fault Refusal :=
  done s (resetNAssert n high recovery addr link s.toBlock)

/-- RELOAD_DONE (R408). After a wake from Brake or Rest the stores and images are reloaded and READY is set. -/
def execReloadDone (n : Node) (s : State) : Host.Outcome State Fault Refusal :=
  done s (reloadDone n s.toBlock)

end Sys2Proof.Machine
end

