-- ==== Sys2Proof/Machine/HostRow.lean ====
section
/-! DEFINITION. Sys2Proof/Machine/HostRow.lean: the register writes that the command table lists by themselves, as the host's requests. -/

namespace Sys2Proof.Machine

/-- What a request that the command table lists by itself does where it arrives: the register's own effect. -/
def rowAct : HostRow → Block → Block
  | .scrubEnWrite n en => scrubEnWrite n en
  | .inspectionRead c n t kind row addr => inspectionRead c n t kind row addr
  | .inspectionWrite c n t kind row addr => inspectionWrite c n t kind row addr
  | .storeWordRead n t store bcast raw addr => storeWordRead n t store bcast raw addr
  | .storeWordWrite n t store bcast raw addr => storeWordWrite n t store bcast raw addr
  | .gangEnWrite n g en => gangEnWrite n g en
  | .gangStopWrite n g => gangStopWrite n g
  | .gangResumeWrite n g => gangResumeWrite n g
  | .resumeDiscard n g => resumeDiscard n g
  | .taskEnWrite n a k en => taskEnWrite n a k en
  | .acuIpiWrite n a w => acuIpi n a w
  | .acuBellWrite n a w => acuBell n a w
  | .ownerWrite n b owner => ownerWrite n b owner
  | .ringTrigger n r => ringTrigger n r
  | .ringResume n r => ringResume n r
  | .ringEnWrite n r en => ringEnWrite n r en
  | .wheelEnWrite n e en => wheelEnWrite n e en
  | .jlinkEnWrite n k en => jlinkEnWrite n k en
  | .streamEnWrite n t en => streamEnWrite n t en
  | .drvReadyWrite n o half v => drvReadyWrite n o half v
  | .driveMuteWrite n o => driveMuteWrite n o
  | .driveUnmuteWrite n o => driveUnmuteWrite n o
  | .muteAllWrite n => muteAllWrite n
  | .driveEnWrite n o en => driveEnWrite n o en
  | .logEventWrite c n d => logEventWrite c n d
  | .logRptrWrite n half v => logRptrWrite n half v
  | .logEnWrite n en => logEnWrite n en
  | .regionEnWrite n r en => regionEnWrite n r en
  | .weirCommitWrite n => weirCommitWrite n
  | .weirDiscard n => weirDiscard n
  | .pubReady n p copy => pubReadyWrite n p copy
  | .pubEnWrite n p en => pubEnWrite n p en
  | .spanLinkEnWrite n l en => spanLinkEnWrite n l en
  | .nocIsolateWrite n k w => nocIsolateWrite n k w
  | .routerSwap n r => routerSwap n r
  | .domainDownWrite n w => domainDownWrite n w
  | .faultAckWrite n src => faultAckWrite n src
  | .clearFirst n => clearFirst n
  | .dlmArmWrite n m => dlmArmWrite n m
  | .dlmDoneWrite n m => dlmDoneWrite n m
  | .dlmEnWrite n m en => dlmEnWrite n m en
  | .govReqWrite n target all => govReqWrite n target all
  | .govClkWrite n w => govClkWrite n w
  | .timSetWrite n => timSetWrite n
  | .secUnlock n scope => secUnlock n scope
  | .dbgRegRead n a k reg => dbgRegRead n a k reg
  | .dbgRegWrite n a k reg => dbgRegWrite n a k reg

/-- Whose request it is, and the module and the BAR0 block of the register (01 R12): the host's, where the row names no context. -/
def rowAt : HostRow → Ctx × Nat × Nat
  | .scrubEnWrite n _ => (.queue 0, n, 0x5)
  | .inspectionRead c n _ _ _ _ => (c, n, 0x5)
  | .inspectionWrite c n _ _ _ _ => (c, n, 0x5)
  | .storeWordRead n _ _ _ _ _ => (.queue 0, n, 0x5)
  | .storeWordWrite n _ _ _ _ _ => (.queue 0, n, 0x5)
  | .gangEnWrite n _ _ => (.queue 0, n, 0x3)
  | .gangStopWrite n _ => (.queue 0, n, 0x3)
  | .gangResumeWrite n _ => (.queue 0, n, 0x3)
  | .resumeDiscard n _ => (.queue 0, n, 0x3)
  | .taskEnWrite n _ _ _ => (.queue 0, n, 0x6)
  | .acuIpiWrite n _ _ => (.queue 0, n, 0x6)
  | .acuBellWrite n _ _ => (.queue 0, n, 0x6)
  | .ownerWrite n _ _ => (.queue 0, n, 0x8)
  | .ringTrigger n _ => (.queue 0, n, 0x9)
  | .ringResume n _ => (.queue 0, n, 0x9)
  | .ringEnWrite n _ _ => (.queue 0, n, 0x9)
  | .wheelEnWrite n _ _ => (.queue 0, n, 0x7)
  | .jlinkEnWrite n _ _ => (.queue 0, n, 0xA)
  | .streamEnWrite n _ _ => (.queue 0, n, 0xB)
  | .drvReadyWrite n _ _ _ => (.queue 0, n, 0xC)
  | .driveMuteWrite n _ => (.queue 0, n, 0xC)
  | .driveUnmuteWrite n _ => (.queue 0, n, 0xC)
  | .muteAllWrite n => (.queue 0, n, 0xC)
  | .driveEnWrite n _ _ => (.queue 0, n, 0xC)
  | .logEventWrite c n _ => (c, n, 0xD)
  | .logRptrWrite n _ _ => (.queue 0, n, 0xD)
  | .logEnWrite n _ => (.queue 0, n, 0xD)
  | .regionEnWrite n _ _ => (.queue 0, n, 0xE)
  | .weirCommitWrite n => (.queue 0, n, 0x2)
  | .weirDiscard n => (.queue 0, n, 0x2)
  | .pubReady n _ _ => (.queue 0, n, 0x2)
  | .pubEnWrite n _ _ => (.queue 0, n, 0x2)
  | .spanLinkEnWrite n _ _ => (.queue 0, n, 0xF)
  | .nocIsolateWrite n _ _ => (.queue 0, n, 0x11)
  | .routerSwap n _ => (.queue 0, n, 0x11)
  | .domainDownWrite n _ => (.queue 0, n, 0x14)
  | .faultAckWrite n _ => (.queue 0, n, 0x12)
  | .clearFirst n => (.queue 0, n, 0x12)
  | .dlmArmWrite n _ => (.queue 0, n, 0x13)
  | .dlmDoneWrite n _ => (.queue 0, n, 0x13)
  | .dlmEnWrite n _ _ => (.queue 0, n, 0x13)
  | .govReqWrite n _ _ => (.queue 0, n, 0x14)
  | .govClkWrite n _ => (.queue 0, n, 0x14)
  | .timSetWrite n => (.queue 0, n, 0x15)
  | .secUnlock n _ => (.queue 0, n, 0x18)
  | .dbgRegRead n _ _ _ => (.queue 0, n, 0x17)
  | .dbgRegWrite n _ _ _ => (.queue 0, n, 0x17)

end Sys2Proof.Machine
end

