-- ==== Sys2Proof/Machine/HostPort.lean ====
section
/-! DEFINITION. Sys2Proof/Machine/HostPort.lean: the requests that the host sends over the link, in their order of arrival, and the
register and BAR2 commands (00 R5, 01 R15-R20, 13 R300, 14 R321, R322, R337). -/

namespace Sys2Proof.Machine

/-! ### BAR2 (01 R15, R17-R20) -/

/-- The byte of the record store that a BAR2 request names (01 R17). -/
def apertureByte (s : Block) (n addr : Nat) : Nat := addr - 2 ^ 27 + 2 ^ 27 * fget s n F.GLB_REC_APERTURE_WINDOW

/-- What a BAR2 request finds at its module: the staging memory below, the record store's window above; `none` while it stalls. -/
def bar2Req (s : Block) (n : Nat) (req : MemReq) : Option MemAns :=
  if req.addr < 2 ^ 27 then stgReq s n ownHost 0 req
  else some (recReq s n ownHost { req with addr := apertureByte s n req.addr })

/-- The endpoint and the address there that a BAR2 request names (16 R365). -/
def bar2Target (s : Block) (n : Nat) (req : MemReq) : Nat × Nat :=
  if req.addr < 2 ^ 27 then (0x20 + bankOf req.addr, bankAddr 0 req.addr)
  else (0x28 + recStackOf (apertureByte s n req.addr), recLocal (apertureByte s n req.addr))

/-- The limit of a BAR2 request expires. -/
def bar2TimedOut (n : Nat) (t : Nat × Nat) (s : Block) : Block := timedOut s 0 ownHost t.1 n t.2 (viaPair s 0 n)

/-- A BAR2 request on the way to its module (16 R367, R374): the path of a request within the module is its target's. -/
def bar2Way (s : Block) (n : Nat) (t : Nat × Nat) (req : MemReq) : Option MemAns :=
  if n = 0 then bar2Req s n req
  else
    match busPath s 0 ownHost n t.1 with
    | .gone => some ⟨rspTimeout, onesData req, bar2TimedOut n t s⟩
    | .lacks m r => some ⟨rspNoRoute, onesData req, noRouteRaise s m r⟩
    | .there => bar2Req s n req

/-- A BAR2 request by context 0, within one aligned 64-byte block: `none` while it stalls for a handover. -/
def bar2Try (req : NetReq) (s : Block) : Option Block :=
  let n := selGet s 0 0
  let r := req.toMemReq
  let t := bar2Target s n r
  if decide (2 ^ 28 < req.addr + req.bytes.length) || req.bytes.isEmpty then some s
  else if !nodePresent s n then some (answer ownHost ⟨rspIsolated, onesData r, s⟩)
  else
    (overNet s 0 req.way (onesData r) (bar2TimedOut n t) fun s =>
      if served s n || cutFrom s 0 n then bar2Way s n t r else some ⟨rspPwrOff, onesData r, s⟩).map (answer ownHost)

/-- A request that stalls: it has passed its domain's bridges, and its limit runs. -/
def tlpStall (t : HostTlp) (s : Block) : HostTlp × Block :=
  match t with
  | .bar2 req due =>
    let n := selGet s 0 0
    (.bar2 req (some (due.getD (limitOf s 0 n))), stgWaits s n)
  | t => (t, s)

/-- A read of a BAR0 register, answered to the context. -/
def barReadAns (s : Block) (c : Ctx) (off : Nat) : Block :=
  let r := barRead s c off
  answer (ctxNum c) ⟨r.1, leBytes 4 r.2.1.toNat, r.2.2⟩

/-! ### Arrival (01 R19) -/

/-- A register write that the command table lists by itself, on its way to its module and block (16 R371, R374): it is lost where it does
not come through. -/
def rowThrough (w : HostRow) (c : Ctx) (n off : Nat) (s : Block) : Block :=
  match regEnd s (ctxHome (ctxNum c)) (ctxEp c) n off with
  | some r => r.2
  | none => if accessCode s n off = rspOk then rowAct w s else s

/-- That at the module and block the row names. -/
def rowNet (w : HostRow) (s : Block) : Block := rowThrough w (rowAt w).1 (rowAt w).2.1 ((rowAt w).2.2 * 2 ^ 20) s

/-- What a request of the host does at the primary; `none` while it stalls. -/
def tlpApply (t : HostTlp) (s : Block) : Option Block :=
  match t with
  | .write c b => some (netWrite s c b).2
  | .select c q i w =>
    some (if accessCode s 0 0x00100100 = rspOk then
      selWrite s (match q with
        | some q => q.val
        | none => ctxNum c) i w
    else s)
  | .bar2 req _ => bar2Try req s
  | .sqTail q v => some (sqTailWrite q v s)
  | .cqHead q v => some (cqHeadWrite q v s)
  | .queueEn q en => some (queueEnWrite q en s)
  | .unmask v => some (vectorMask s v.toNat false)
  | .timNow c => some (barReadAns s c 0x01500008)
  | .challenge c => some (barReadAns s c 0x01800010)
  | .row i => some (rowNet i s)

/-- The primary sleeps with its link in L1: Furl or Brake (14 R321). -/
def tlpAsleep (s : Block) : Bool := pState s 0 == 2 || pState s 0 == 3

/-- A request stalls, and `l` behind it. -/
def tlpHold (t : HostTlp) (l : List HostTlp) (s : Block) : Block :=
  let p := tlpStall t s
  { p.2 with tlpQ := p.1 :: l }

/-- Requests go on in order, until one stalls or the primary sleeps. -/
def tlpDrain : List HostTlp → Block → Block
  | [], s => s
  | t :: l, s =>
    if tlpAsleep s then { s with tlpQ := t :: l }
    else
      match tlpApply t s with
      | some s => tlpDrain l s
      | none => tlpHold t l s

/-- The requests that wait go on, if they can. -/
def tlpRelease (s : Block) : Block := if tlpAsleep s then s else tlpDrain s.tlpQ { s with tlpQ := [] }

/-- A request of the host arrives: none does without power or in Rest; in D3hot it is not answered (14 R322); in Furl or Brake it wakes
the primary and waits (14 R321); in Idle it wakes it (18 R407) and is served; behind others that wait it waits too. -/
def hostTlp (t : HostTlp) (s : Block) : Block :=
  if s.d3hot || (pow s 0).off || pState s 0 = 4 then s
  else if tlpAsleep s then tlpWake { s with tlpQ := s.tlpQ ++ [t] }
  else
    let s := if pState s 0 = 1 then tlpWake s else s
    if s.tlpQ.isEmpty then (tlpApply t s).getD (tlpHold t [] s)
    else { s with tlpQ := s.tlpQ ++ [t] }

/-- A request of the host takes effect at once: the primary is in Run and answers, and no request waits before it. -/
def hostReady (s : Block) : Bool := pState s 0 == 0 && !(pow s 0).off && !s.d3hot && s.tlpQ.isEmpty

/-- An access of a context to a register block of a module comes through and is served there. -/
def pathOpen (s : Block) (c : Ctx) (n b : Nat) : Bool :=
  regPath s (ctxHome (ctxNum c)) (ctxEp c) n (b * 2 ^ 20) == .there && accessCode s n (b * 2 ^ 20) == rspOk

/-- An access of a context to block `b` of a module takes effect at once. -/
def takenBy (s : Block) (c : Ctx) (n b : Nat) : Bool :=
  (match c with
    | .queue _ => hostReady s
    | _ => true) && pathOpen s c n b

/-- One of the host. -/
def takenNow (s : Block) (n b : Nat) : Bool := takenBy s (.queue 0) n b

/-- A request of a context: the host's over its link, those of an ACU or a region at once. -/
def ctxReq (c : Ctx) (t : HostTlp) (s : Block) : Block :=
  match c with
  | .queue _ => hostTlp t s
  | _ => (tlpApply t s).getD s

/-! ### The commands -/

/-- REGISTER_WRITE (00 R5): a write of BAR0. -/
def registerWrite (c : Ctx) (b : NetWrite) (s : Block) : Block := ctxReq c (.write c b) s

/-- RWL_SHADOW_WRITE (13 R300): a write of an RWL register or of its alias. -/
def rwlShadowWrite (c : Ctx) (b : NetWrite) (s : Block) : Block :=
  if ((namedReg b.off).map isRwl).getD false then ctxReq c (.write c b) s else s

/-- SELECT_WRITE (14 R337): a write of select `i` of the context's own copy, or of the copy of queue context `q`. -/
def selectWrite (c : Ctx) (q : Option (Fin 16)) (i : Fin 11) (w : Word) (s : Block) : Block := ctxReq c (.select c q i w) s

/-- COUNTER_CLEAR_WRITE (00 R5): a write of a register that holds a CLEAR bit, with that bit 1. -/
def counterClearWrite (c : Ctx) (b : NetWrite) (s : Block) : Block :=
  match (regAt b.off).bind fun p => clearOf p.1 with
  | some (k, _) => if b.data.getLsbD k then ctxReq c (.write c b) s else s
  | none => s

/-- BAR2_ACCESS (01 R17). -/
def bar2Access (req : NetReq) (s : Block) : Block := hostTlp (.bar2 req none) s

/-- SQ_TAIL_WRITE and CQ_HEAD_WRITE (14 R327): doorbells. -/
def sqTailBell (q : Fin 16) (v : Half) (s : Block) : Block := hostTlp (.sqTail q v) s
def cqHeadBell (q : Fin 16) (v : Half) (s : Block) : Block := hostTlp (.cqHead q v) s

/-- QUEUE_EN_WRITE (14 R328). -/
def queueEnBell (q : Fin 16) (en : Bool) (s : Block) : Block := hostTlp (.queueEn q en) s

/-- VECTOR_UNMASK (14 R343). -/
def vectorUnmask (v : BitVec 8) (s : Block) : Block := hostTlp (.unmask v) s

/-- TIM_NOW_LO_READ (18 R411): a read of TIM_NOW_LO answers the low word of device time and latches the rest for the context.
SEC_CHALLENGE_READ (19 R430): a read of SEC_CHALLENGE_0 draws a challenge. -/
def timNowRead (c : Ctx) (s : Block) : Block := ctxReq c (.timNow c) s
def challengeRead (c : Ctx) (s : Block) : Block := ctxReq c (.challenge c) s

/-- HANDOVER_COMMIT (10 R226), with the host requests that waited for it. -/
def handoverServe (n : Node) (b : Fin 8) (s : Block) : Block := tlpRelease (handoverAll n b s)

/-- The limit of stalled request `k` of the staging memory expires. -/
def heldLate (n : Node) (k : Option Nat) (s : Block) : Block :=
  match k.bind fun k => s.stgHeld[k]?.map fun h => (k, h) with
  | none => s
  | some (k, h) =>
    let s := atTime { s with stgHeld := s.stgHeld.set k { h with late := true } } h.due
    answer h.master ⟨rspTimeout, onesData h.req,
      expired s n h.master (0x20 + bankOf h.req.addr) n (bankAddr h.al h.req.addr) 4⟩

/-- The limit of a request that stalls for a handover expires: it is answered to its initiator, and its answer will be late (16 R370). -/
def heldExpire (n : Node) (e : Nat) (s : Block) : Block :=
  match s.tlpQ, s.stgHeld.findIdx? fun h => h.node == n.val && h.master == e && !h.late with
  | .bar2 req (some due) :: l, k =>
    if e = ownHost && n.val = 0 then
      let m := selGet s 0 0
      let t := bar2Target s m req.toMemReq
      let s := expired (atTime s due) 0 ownHost t.1 m t.2 (viaPair s 0 m)
      tlpRelease (answer ownHost ⟨rspTimeout, onesData req.toMemReq,
        { s with stgHeld := s.stgHeld ++ [⟨m, ownHost, 0, req.toMemReq, due, true⟩], tlpQ := l }⟩)
    else heldLate n k s
  | _, k => heldLate n k s

/-- INITIATOR_TIMEOUT (16 R370): the limit of a packet's tag expires, or else of a stalled request of the endpoint. -/
def initiatorExpire (n : Node) (e : BitVec 8) (tag : BitVec 12) (s : Block) : Block :=
  if (outReq s n e.toNat tag.toNat).isSome then initiatorTimeout n e tag s else heldExpire n e.toNat s

/-- POWER_EXIT_DONE (18 R408), with the host requests that waited for it (14 R321). -/
def powerExitServe (n : Node) (s : Block) : Block := tlpRelease (powerExitDone n s)

end Sys2Proof.Machine
end

