-- ==== Sys2Proof/Machine/ExecChorus.lean ====
section
/-! DEFINITION. Sys2Proof/Machine/ExecChorus.lean: the meanings of the commands of this family, one definition each. -/

namespace Sys2Proof.Machine

/-- SPAN_LINK_UP (R346). A Bunel link finishes training with all 4 lanes and reads UP. -/
def execSpanLinkUp (n : Node) (l : Fin 8) (pn : Node) (pl : Fin 8) (asym : Word) (s : State) : Host.Outcome State Fault Refusal :=
  done s (spanLinkUp n l pn pl asym s.toBlock)

/-- SPAN_TRAIN_RETRY (R346). A link with a failed lane retries training every 10 ms. -/
def execSpanTrainRetry (n : Node) (l : Fin 8) (s : State) : Host.Outcome State Fault Refusal :=
  done s (spanTrainRetry n l s.toBlock)

/-- FLIT_RECEIVE (R347). A link receives a flit, delivering it in order or asking for a replay. -/
def execFlitReceive (n : Node) (l : Fin 8) (seq : BitVec 32) (x : FlitIn) (s : State) : Host.Outcome State Fault Refusal :=
  done s (flitReceive n l seq x.found x.put s.toBlock)

/-- LINK_DOWN_DETECT (R347). A link without a valid flit for 1 µs reads DOWN and its traffic moves to the pair. -/
def execLinkDownDetect (n : Node) (l : Fin 8) (s : State) : Host.Outcome State Fault Refusal :=
  done s (linkDownDetect n l s.toBlock)

/-- SPAN_LINK_EN_WRITE (R346). Writing SPAN_LINK_CTRL.EN enables a link or moves its traffic and drains it. -/
def execSpanLinkEnWrite (n : Node) (l : Fin 8) (en : Bool) (s : State) : Host.Outcome State Fault Refusal :=
  done s (hostTlp (.row (.spanLinkEnWrite n l en)) s.toBlock)

/-- CALL_PERIOD (R352). Every CALL_MS each UP link or WSL lane sends a Chorus call. -/
def execCallPeriod (n : Node) (s : State) : Host.Outcome State Fault Refusal :=
  done s (callPeriod n s.toBlock)

/-- CHORUS_CALL (R352). A Chorus call is taken, answered and judged for admission. -/
def execChorusCall (n : Node) (port : Fin 32) (bytes : List (BitVec 8)) (s : State) : Host.Outcome State Fault Refusal :=
  done s (chorusCall n port bytes s.toBlock)

/-- CHORUS_ANSWER (R359). A Chorus answer is taken; a front-end answering is admitted on its lane. -/
def execChorusAnswer (n : Node) (port : Fin 32) (bytes : List (BitVec 8)) (s : State) : Host.Outcome State Fault Refusal :=
  done s (chorusAnswer n port bytes s.toBlock)

/-- PRIMARY_ELECTION (R353). After 50 ms of calls the lowest-serial candidate becomes PRIMARY. -/
def execPrimaryElection (s : State) : Host.Outcome State Fault Refusal :=
  done s (primaryElection s.toBlock)

/-- LOSS_REPORT (R357). A surviving end reports a lost node to the primary, which raises PARTNER_LOST. -/
def execLossReport (n : Node) (d : Fin 4) (s : State) : Host.Outcome State Fault Refusal :=
  done s (lossReport n d s.toBlock)

/-- FENCE (R358). A module fences a lost node's links, stops its gangs and mutes its outputs. -/
def execFence (n lost : Node) (s : State) : Host.Outcome State Fault Refusal :=
  done s (fence n lost s.toBlock)

/-- PRIMARY_UNREACHABLE (R357). A node unable to reach the primary for 20 µs takes role ISOLATED and mutes. -/
def execPrimaryUnreachable (n : Node) (s : State) : Host.Outcome State Fault Refusal :=
  done s (primaryUnreachable n s.toBlock)

/-- FRONT_END_LEAVE (R359). Three unanswered calls or a changed serial make a front-end leave and its outputs mute. -/
def execFrontEndLeave (n : Node) (p : Fin 24) (s : State) : Host.Outcome State Fault Refusal :=
  done s (frontEndLeave n p s.toBlock)

/-- TIME_TRANSFER (R360). Every 10 µs parent and child exchange stamped messages and the child corrects its timebase. -/
def execTimeTransfer (n : Node) (l : Fin 8) (t1 t2 t3 t4 : DWord) (s : State) : Host.Outcome State Fault Refusal :=
  done s (timeTransfer n l t1 t2 t3 t4 s.toBlock)

end Sys2Proof.Machine
end

