-- ==== Sys2Proof/Machine/CmdCheck.lean ====
section
/-! DEFINITION. Sys2Proof/Machine/CmdCheck.lean: a command packet and the checks made as it is taken (14 R330, R333, R338). -/

namespace Sys2Proof.Machine

/-! ### The packet (14 R330) -/

def pktOp (p : BitVec 512) : Nat := (p.extractLsb' 0 16).toNat
def pktCid (p : BitVec 512) : Nat := (p.extractLsb' 16 16).toNat
def pktNode (p : BitVec 512) : Nat := (p.extractLsb' 32 8).toNat
def pktFlags (p : BitVec 512) : Nat := (p.extractLsb' 40 8).toNat
def pktP (p : BitVec 512) (k : Nat) : Nat := (p.extractLsb' (64 + 64 * k) 64).toNat

/-- Bits [h:l] of a parameter. -/
def pf (ps : List Nat) (k h l : Nat) : Nat := ps.getD k 0 / 2 ^ l % 2 ^ (h + 1 - l)

/-! ### Parameters (14 R338) -/

/-- The fields an opcode names: parameter, high bit, low bit. -/
def opFields (op : Nat) : List (Nat × Nat × Nat) :=
  match op with
  | 0x0101 => [(0, 63, 0)]
  | 0x0102 => [(0, 15, 0), (0, 19, 16)]
  | 0x0103 => [(0, 31, 0), (0, 34, 32)]
  | 0x0104 => [(0, 31, 0), (0, 34, 32), (1, 63, 0), (2, 63, 0)]
  | 0x0601 => [(0, 31, 0), (0, 34, 32), (1, 63, 0), (2, 63, 0)]
  | 0x0200 => [(0, 15, 0), (1, 63, 0), (2, 16, 0), (2, 32, 32)]
  | 0x0201 => [(0, 15, 0), (1, 63, 0)]
  | 0x0300 => [(0, 15, 0), (1, 63, 0), (2, 31, 0), (2, 32, 32)]
  | 0x0301 => [(0, 15, 0), (0, 16, 16), (1, 63, 0), (2, 31, 0)]
  | 0x0900 => [(0, 15, 0), (0, 16, 16), (1, 63, 0), (2, 31, 0)]
  | 0x0302 => [(0, 0, 0)]
  | 0x0400 => [(0, 3, 0), (0, 9, 4), (1, 31, 0)]
  | 0x0401 => [(0, 3, 0)]
  | 0x0402 => [(0, 3, 0)]
  | 0x0403 => [(0, 3, 0)]
  | 0x0404 => [(0, 3, 0), (0, 9, 4), (1, 31, 0), (2, 31, 0)]
  | 0x0405 => [(0, 3, 0), (0, 9, 4)]
  | 0x0500 => [(0, 5, 0), (0, 8, 8)]
  | 0x0501 => [(0, 1, 0), (0, 15, 8)]
  | 0x0502 => [(0, 1, 0), (0, 15, 8)]
  | 0x0602 => [(0, 15, 0), (0, 17, 16), (0, 22, 18), (1, 10, 0), (1, 26, 16)]
  | 0x0700 => [(0, 7, 0)]
  | 0x0701 => [(0, 0, 0), (1, 63, 0), (2, 31, 0)]
  | 0x0800 => [(0, 2, 0), (0, 8, 8)]
  | 0x0A00 => [(1, 63, 0)]
  | _ => []

/-- Offsets of the registers that REG_READ, REG_WRITE and EPOCH_STAGE name. -/
def regOffs (ps : List Nat) : List Nat := (List.range (pf ps 0 34 32 + 1)).map fun i => pf ps 0 31 0 + 4 * i

/-- A named field holds a value that its opcode takes (14 R338; 10 R224; 12 R288; 13 R300; 19 R421, R426; log 52). -/
def fieldOk (op : Nat) (ps : List Nat) (k lo v : Nat) : Bool :=
  let src := fun (len : Nat) => if pf ps 2 32 32 = 1 then decide (v + len ≤ 2 ^ 27) else v % 64 == 0
  match op, k, lo with
  | 0x0101, 0, 0 => v % 64 == 0
  | 0x0201, 1, 0 => v % 64 == 0
  | 0x0701, 1, 0 => v % 64 == 0
  | 0x0A00, 1, 0 => v % 64 == 0
  | 0x0103, 0, 0 => v % 4 == 0 && decide (v + 4 * pf ps 0 34 32 < 2 ^ 25)
  | 0x0104, 0, 0 => v % 4 == 0 && decide (v + 4 * pf ps 0 34 32 < 2 ^ 25)
  | 0x0601, 0, 0 => v % 4 == 0 && (regOffs ps).all fun o => ((namedReg o).map isRwl).getD false
  | 0x0103, 0, 32 => decide (v < 4)
  | 0x0104, 0, 32 => decide (v < 4)
  | 0x0601, 0, 32 => decide (v < 4)
  | 0x0200, 0, 0 => decide (v ≤ 2) || (decide (16 ≤ v) && decide (v ≤ 47))
  | 0x0201, 0, 0 => decide (v ≤ 2) || (decide (16 ≤ v) && decide (v ≤ 47))
  | 0x0200, 1, 0 => src (pf ps 2 16 0)
  | 0x0200, 2, 0 => decide (1 ≤ v) && decide (v ≤ 65536)
  | 0x0300, 0, 0 => decide (v ≤ 13)
  | 0x0300, 1, 0 => src (pf ps 2 31 0)
  | 0x0300, 2, 0 => slotFits (pf ps 0 15 0) v
  | 0x0301, 0, 0 => pf ps 0 16 16 == 1 || v == 2 || v == 3
  | 0x0301, 1, 0 => pf ps 0 16 16 == 0 || decide (v + pf ps 2 31 0 ≤ 2 ^ 27)
  | 0x0900, 0, 0 => pf ps 0 16 16 == 1 || (decide (4 ≤ v) && decide (v ≤ 13))
  | 0x0900, 1, 0 => pf ps 0 16 16 == 0 || decide (v + pf ps 2 31 0 ≤ 2 ^ 27)
  | 0x0501, 0, 8 => pf ps 0 1 0 != 1 || decide (v ≤ 15)
  | 0x0502, 0, 0 => v != 3
  | 0x0502, 0, 8 => pf ps 0 1 0 != 1 || decide (v ≤ 15)
  | 0x0602, 1, 16 => decide (pf ps 1 10 0 ≤ v) && decide (v ≤ 1919)
  | 0x0800, 0, 0 => decide (v ≤ 4)
  | _, _, _ => true

/-- The first bad bit of a parameter from bit `at_` on: its named fields in order, and 0 in the bits between. -/
def paramBad (op : Nat) (ps : List Nat) (k : Nat) : Nat → List (Nat × Nat × Nat) → Option Nat
  | at_, [] => if at_ < 64 && pf ps k 63 at_ != 0 then some at_ else none
  | at_, f :: fs =>
    if at_ < f.2.2 && pf ps k (f.2.2 - 1) at_ != 0 then some at_
    else if !fieldOk op ps k f.2.2 (pf ps k f.2.1 f.2.2) then some f.2.2
    else paramBad op ps k (f.2.1 + 1) fs

/-- The byte offset of the first field found bad in P0 to P6. -/
def paramsBad (op : Nat) (ps : List Nat) : Option Nat :=
  (List.range 7).findSome? fun k =>
    (paramBad op ps k 0 ((opFields op).filter fun f => f.1 == k)).map fun b => 8 + 8 * k + b / 8

/-- Opcodes whose NODE must be 0: they follow the context (14 R330). -/
def followsContext (op : Nat) : Bool := op == 0x0103 || op == 0x0104 || op == 0x0601

/-- The byte offset of the first field found bad in a packet of queue `q`. -/
def badParam (s : Block) (q : Nat) (p : BitVec 512) (ps : List Nat) : Option Nat :=
  let op := pktOp p
  if (cmdOf s q (pktCid p)).isSome then some 2
  else if decide (64 ≤ pktNode p) || (followsContext op && pktNode p != 0) then some 4
  else if pktFlags p / 4 ≠ 0 then some 5
  else if (p.extractLsb' 48 16).toNat ≠ 0 then some 6
  else paramsBad op ps

/-- NODE, or the NODESEL that a register access follows, names an absent node; the CMD block needs none (14 R337). -/
def badNode (s : Block) (q : Nat) (p : BitVec 512) (ps : List Nat) : Bool :=
  if followsContext (pktOp p) then
    !nodePresent s (selGet s q 0) && (regOffs ps).any fun o => o / 2 ^ 20 != 1
  else !nodePresent s (pktNode p)

/-- Opcodes that recovery takes (19 R428). -/
def recoveryOk (op : Nat) (ps : List Nat) : Bool :=
  [0x0100, 0x0101, 0x0302].contains op || (op == 0x0300 && decide (pf ps 0 15 0 ≤ 1))

/-- The checks of R333 before BUSY: the reply of the first that fails. -/
def packetError (s : Block) (q : Nat) (p : BitVec 512) (ps : List Nat) : Option Reply :=
  if (opClass (pktOp p)).isNone || (fbit s 0 F.NVS_STATUS_RECOVERY && !recoveryOk (pktOp p) ps) then
    some { status := stBadOpcode }
  else
    match badParam s q p ps with
    | some d => some { status := stBadParam, detail := d }
    | none => if badNode s q p ps then some { status := stBadNode } else none

/-! ### Taking (14 R326, R329) -/

/-- Commands of a queue in flight. -/
def inflight (s : Block) (q : Nat) : Nat := (s.flight.filter fun f => f.q == q).length

/-- The completion queue has room for one reply more than those owed (14 R326). -/
def queueRoom (s : Block) (q : Nat) : Bool :=
  decide (inflight s q + 1 + (cqTail s q + cqSize s q - cqHead s q) % cqSize s q ≤ cqSize s q - 1)

/-- A queue whose next command can be taken; `fence` is FLAGS.FENCE of that command (14 R326, R328, R330, R334). -/
def queueReady (s : Block) (q : Nat) (fence : Bool) : Bool :=
  qState s q == 2 && sqHead s q != sqTail s q && queueRoom s q && !(fence && decide (inflight s q ≠ 0))
    && (!fbit s 0 F.NVS_STATUS_RECOVERY || q == 0)
    && !s.flight.any fun f => f.q == q && opClass f.op == some 0

/-- A command taken whose work has not begun. -/
def fresh (f : CmdFl) : Bool := f.step == 0 && f.result.isNone
def nextCmd (s : Block) : Option CmdFl := s.flight.find? fun f => fresh f && !f.stalled

/-- Commands of an opcode whose source stalls. -/
def stalledCmds (s : Block) (op : Nat) : List CmdFl := s.flight.filter fun f => fresh f && f.stalled && f.op == op

/-- The command processor takes commands; one whose source stalls does not hold it up (14 R329). -/
def taking (s : Block) : Bool :=
  (fbit s 0 F.CMD_STATUS_READY || fbit s 0 F.NVS_STATUS_RECOVERY) && inRun s 0 && !s.d3hot && (nextCmd s).isNone

/-- The queue whose turn it is, in round robin after the last one served. -/
def turnQueue (s : Block) (fence : BitVec 16) : Option Nat :=
  ((List.range 16).map fun i => (s.lastQueue + 1 + i) % 16).find? fun q => queueReady s q (fence.getLsbD q)

/-- COMMAND_TAKE (14 R326-R333): queue `q` is next; `pkt` is its packet, `fence` FLAGS.FENCE of each queue's next packet; its
register access `miss` will be answered in the way `way`. -/
def commandTake (q : Fin 16) (pkt : BitVec 512) (fence : BitVec 16) (miss : Fin 4) (way : BusWay) (s : Block) : Block :=
  let fence := if pkt.getLsbD 41 then fence ||| BitVec.ofNat 16 (2 ^ q.val) else fence &&& ~~~BitVec.ofNat 16 (2 ^ q.val)
  if taking s && turnQueue s fence = some q.val then
    let ps := (List.range 7).map (pktP pkt)
    let head := (sqHead s q + 1) % sqSize s q
    let cls := opClass (pktOp pkt)
    let f : CmdFl :=
      { q := q, cid := pktCid pkt, op := pktOp pkt, node := pktNode pkt, irq := pkt.getLsbD 40, head := head, ps := ps,
        past := cls != some 2 && cls != some 3, dup := (cmdOf s q (pktCid pkt)).isSome, result := packetError s q pkt ps,
        sels := (List.range 11).map (selGet s q.val), miss := miss, way := way }
    { fput s 0 F.CMD_Q_STATUS_SQ_HEAD (ix q) head with flight := s.flight ++ [f], lastQueue := q.val }
  else s

end Sys2Proof.Machine
end

