-- ==== Sys2Proof/Machine/CmdWork.lean ====
section
/-! DEFINITION. Sys2Proof/Machine/CmdWork.lean: what each opcode does once its command is taken (14 R334-R342 and the rules its row
names).  An opcode's row acts on the command taken whose work has not begun; a command that its checks refuse ends at once. -/

namespace Sys2Proof.Machine

/-! ### Beginning and ending (14 R332-R334) -/

/-- The command's work begins. -/
def begun (s : Block) (f : CmdFl) : Block := cmdStep s f.q f.cid 1

/-- It ends with its work. -/
def endWith (r : Reply) (f : CmdFl) (s : Block) : Block := cmdEnd (begun s f) f.q f.cid r
def endOk (f : CmdFl) (s : Block) : Block := endWith { status := stOk } f s
def endBusy (f : CmdFl) (s : Block) : Block := endWith { status := stBusy } f s

/-- Try commands whose source stalled, in their order, until the work of one begins. -/
def retryCmds (act : CmdFl → Block → Block) : List CmdFl → Block → Block
  | [], s => s
  | f :: fs, s =>
    let t := act f s
    if ((cmdOf t f.q f.cid).map fresh).getD false then retryCmds act fs s else t

/-- Run an opcode's work on the command that waits for it, else on one whose source stalled. -/
def runCmd (op : Nat) (act : CmdFl → Block → Block) (s : Block) : Block :=
  match nextCmd s with
  | some f => if f.op = op then act f s else retryCmds act (stalledCmds s op) s
  | none => retryCmds act (stalledCmds s op) s

/-- Work that needs its node: PWR_OFF while the node is in Brake or Rest (14 R332). -/
def runNode (op : Nat) (act : CmdFl → Block → Block) (s : Block) : Block :=
  runCmd op (fun f s =>
    if (pow s f.node).off || decide (3 ≤ pState s f.node) then endWith { status := stPwrOff } f s else act f s) s

/-- FAULTED by a DMA of host memory: the spec names no source, so DETAIL is a free value (14 R342, log 52). -/
def dmaFault (f : CmdFl) (s : Block) : Block :=
  let r := drawFree s
  endWith { status := stFaulted, detail := (r.1.setWidth 8).toNat } f r.2

/-- What the endpoint notes of a DMA that fails (14 R318; log 61): an abort received, of which kind is not told (log 2), or a completion
timeout. -/
def dmaNote (dma : Fin 3) (s : Block) : Block :=
  let x := pow s 0
  match dma with
  | 0 => s
  | 1 => let r := drawFree s; putPow r.2 0 { x with aborts := x.aborts ||| (if r.1.getLsbD 0 then 1 else 2) }
  | 2 => putPow s 0 { x with aerUnc := x.aerUnc ||| 0x4000 }

/-- A DMA to host memory: 0 done, 1 answered with Unsupported Request or Completer Abort, 2 timed out (14 R342). -/
def dmaOut (dma : Fin 3) (addr : Nat) (bytes : List (BitVec 8)) (r : Reply) (f : CmdFl) (s : Block) : Block :=
  match dma with
  | 0 => endWith r f (hostWrite s addr bytes)
  | 1 => dmaFault f (dmaNote dma s)
  | 2 => endWith { status := stTimeout } f (dmaNote dma s)

/-! ### Sources (14 R338) -/

/-- What a source gives: its bytes, or how the command ends; `none` while staging memory stalls it. -/
abbrev Sourced := Option (Except Reply (List (BitVec 8)) × Block)

/-- How a staging read failed, if it did (10 R226, R231; log 52). -/
def stgError (a : MemAns) (before : Nat) : Option Reply :=
  if a.code = rspPwrOff then some { status := stPwrOff }
  else if a.code = rspIsolated then some { status := stBadNode }
  else
    ((a.st.events.drop before).find? fun e => e.src == SRC.STG_NOT_OWNER || e.src == SRC.STG_UE).map fun e =>
      { status := stFaulted, detail := e.src % 256 }

/-- Bytes of staging memory read by the command processor, one aligned 64-byte block after another. -/
def stgBytes (n : Nat) : Nat → Nat → Nat → List (List (BitVec 8)) → Block → Sourced
  | 0, _, _, acc, s => some (.ok acc.reverse.flatten, s)
  | fuel + 1, addr, len, acc, s =>
    if len = 0 then some (.ok acc.reverse.flatten, s)
    else
      let k := min len (64 - addr % 64)
      match stgReq s n ownCmd 0 ⟨false, addr, List.replicate k none⟩ with
      | none => none
      | some a =>
        match stgError a s.events.length with
        | some r => some (.error r, a.st)
        | none => stgBytes n fuel (addr + k) (len - k) (a.data :: acc) a.st

/-- A block of staging memory of the command's node. -/
def stgSource (f : CmdFl) (addr len : Nat) (s : Block) : Sourced := stgBytes f.node (len / 64 + 2) addr len [] s

/-- A source given by an address and a kind; `data` is what host memory holds there. -/
def sourceOf (f : CmdFl) (addr len kind : Nat) (data : List (BitVec 8)) (dma : Fin 3) (s : Block) : Sourced :=
  if kind = 1 then stgSource f addr len s
  else
    match dma with
    | 0 => if data.length = len then some (.ok data, s) else none
    | 1 => let r := drawFree (dmaNote dma s); some (.error { status := stFaulted, detail := (r.1.setWidth 8).toNat }, r.2)
    | 2 => some (.error { status := stTimeout }, dmaNote dma s)

/-- A command whose source stalls waits, and others are taken meanwhile (14 R329). -/
def stallCmd (f : CmdFl) (s : Block) : Block := cmdSet s f.q f.cid fun c => { c with stalled := true }

/-- Go on with a source's bytes; a stalled source leaves the command where it is. -/
def withSource (x : Sourced) (f : CmdFl) (s : Block) (act : List (BitVec 8) → Block → Block) : Block :=
  match x with
  | none => if pf f.ps 2 32 32 = 1 then stallCmd f (stgWaits s f.node) else s
  | some (.error r, s) => endWith r f s
  | some (.ok bs, s) => act bs s

/-- Keep numbers and bytes with a command whose work goes on. -/
def keep (f : CmdFl) (nums : List Nat) (bytes : List (BitVec 8)) (s : Block) : Block :=
  cmdSet (begun s f) f.q f.cid fun c => { c with nums := nums, bytes := bytes }

/-! ### NOP, IDENTIFY, ABORT -/

/-- NOP. -/
def nopCmd (s : Block) : Block := runCmd 0x0100 endOk s

/-- The 64 bytes of IDENTIFY (14 R340). -/
def identBytes (s : Block) (n : Nat) : List (BitVec 8) :=
  let w := fun (r : Reg) => leBytes 4 (rget s n r).toNat
  w .GLB_ID ++ w .GLB_PARAM0 ++ w .GLB_PARAM1 ++ w .GLB_PARAM2 ++ w .GLB_PARAM3 ++ w .CMD_FW_VERSION ++
    leBytes 1 (fget s n F.CMD_STATUS_BOOT_SLOT) ++ leBytes 1 n ++ leBytes 1 s.nodeTab.length ++ leBytes 1 (role s n) ++
    leBytes 8 (Config.serialNumber n).toNat ++ leBytes 4 (nvsOf s n).boots ++ leBytes 8 (epochOf s n) ++ List.replicate 16 0

/-- IDENTIFY (14 R340). -/
def identifyCmd (dma : Fin 3) (s : Block) : Block :=
  runNode 0x0101 (fun f s => dmaOut dma (f.p 0) (identBytes s f.node) { status := stOk } f s) s

/-- ABORT (14 R335, 13 R316): resolved as it is taken, unless it waits for a vote. -/
def abortCmd (s : Block) : Block :=
  runCmd 0x0102 (fun f s =>
    let q := pf f.ps 0 19 16
    let cid := pf f.ps 0 15 0
    match cmdOf s q cid with
    | none =>
      if (mget (fun _ => []) s.doneCids q).contains cid then endWith { status := stTooLate } f s
      else endWith { status := stBadParam, detail := 8 } f s
    | some t =>
      let s1 := stopFlight stAborted true s t
      match cmdOf s1 q cid with
      | some u =>
        if t.result.isNone && (u.result.map (·.status)) == some stAborted then endOk f s1
        else if u.result.isNone && u.aborting then begun s1 f
        else endWith { status := stTooLate } f s1
      | none => endWith { status := stTooLate } f s1) s

/-! ### REG_READ and REG_WRITE (14 R336, R338, R342) -/

/-- The status of a register access answered with an error. -/
def regStatus (code : Nat) : Nat :=
  if code = rspNoRoute then stNoRoute else if code = rspPwrOff then stPwrOff else if code = rspTimeout then stTimeout else stBadNode

/-- The context of a command's queue. -/
def cmdCtx (f : CmdFl) : Ctx := .queue (Fin.ofNat 16 f.q)

/-- An access of the command processor to a register with what becomes of it on its way (16 R364, R370, R374); `act` answers it at its
target.  The CMD block is its own. -/
def cmdNet (f : CmdFl) (way : BusWay) (o : Nat) (s : Block) (ones : List (BitVec 8)) (act : Block → MemAns) : MemAns :=
  let n := accessNode s (cmdCtx f) o
  if o / 2 ^ 20 = 1 then act s
  else
    overNet1 s 0 way ones (regTimedOut 0 ownCmd n o) fun s =>
      match regEnd s 0 ownCmd n o with
      | some r => ⟨r.1, ones, r.2⟩
      | none => act s

/-- The selects that an access of a command uses are those of its queue's context as they stood when it was taken (14 R336); the CMD block
has registers without a select, and those selects themselves. -/
def atTaken (f : CmdFl) (o : Nat) (s : Block) : Block :=
  if o / 2 ^ 20 = 1 then s
  else { s with sels := f.sels.zipIdx.foldl (fun m p => mput (fun _ => 0) m (f.q * 16 + p.2) (BitVec.ofNat 14 p.1)) s.sels }

/-- The context's selects stand as they did before the access. -/
def backTaken (s : Block) (o : Nat) (t : Block) : Block := if o / 2 ^ 20 = 1 then t else { t with sels := s.sels }

/-- One read of a command: its code, the word, and the state. -/
def readTaken (f : CmdFl) (way : BusWay) (o : Nat) (s : Block) : Nat × Word × Block :=
  let a := cmdNet f way o (atTaken f o s) [] fun s =>
    let r := barRead s (cmdCtx f) o
    ⟨r.1, leBytes 4 r.2.1.toNat, r.2.2⟩
  (a.code, BitVec.ofNat 32 (ofBytes a.data), backTaken s o a.st)

/-- One write of a command; one without an answer has taken effect if it is the answer that did not come (16 R370). -/
def writeTaken (f : CmdFl) (way : BusWay) (o : Nat) (w : Word) (s : Block) : Nat × Block :=
  let a := cmdNet f way o (atTaken f o s) [] fun s =>
    let r := barWord s (cmdCtx f) o w
    ⟨r.1, [], r.2⟩
  (a.code, backTaken s o a.st)

/-- An answer's code ends a command's accesses. -/
def codeEnds (code : Nat) : Bool := code != rspOk && code != rspDecErr

/-- Read registers one after another; the first error ends it.  Access `k` meets `way`, the others are served. -/
def regReads (f : CmdFl) (way : BusWay) : Nat → List Nat → Block → Nat × List Word × Block
  | _, [], s => (rspOk, [], s)
  | k, o :: os, s =>
    let a := readTaken f (if k = 0 then way else .served) o s
    if codeEnds a.1 then (a.1, [], a.2.2)
    else
      let r := regReads f way (if k = 0 then 4 else k - 1) os a.2.2
      (r.1, a.2.1 :: r.2.1, r.2.2)

/-- Write registers one after another; the first error ends it. -/
def regWrites (f : CmdFl) (way : BusWay) : Nat → List (Nat × Word) → Block → Nat × Block
  | _, [], s => (rspOk, s)
  | k, (o, w) :: os, s =>
    let a := writeTaken f (if k = 0 then way else .served) o w s
    if codeEnds a.1 then a else regWrites f way (if k = 0 then 4 else k - 1) os a.2

/-- Two registers as a result. -/
def twoWords (ws : List Word) (k : Nat) : Nat := (ws.getD k 0).toNat + 2 ^ 32 * (ws.getD (k + 1) 0).toNat

/-- REG_READ. -/
def regReadCmd (s : Block) : Block :=
  runCmd 0x0103 (fun f s =>
    let r := regReads f f.way f.miss (regOffs f.ps) s
    if r.1 = rspOk then endWith { status := stOk, r0 := twoWords r.2.1 0, r1 := twoWords r.2.1 2 } f r.2.2
    else endWith { status := regStatus r.1 } f r.2.2) s

/-- The values of REG_WRITE and EPOCH_STAGE with their offsets. -/
def regValues (ps : List Nat) : List (Nat × Word) :=
  (regOffs ps).zip [BitVec.ofNat 32 (pf ps 1 31 0), BitVec.ofNat 32 (pf ps 1 63 32), BitVec.ofNat 32 (pf ps 2 31 0),
    BitVec.ofNat 32 (pf ps 2 63 32)]

/-- REG_WRITE. -/
def regWriteCmd (s : Block) : Block :=
  runCmd 0x0104 (fun f s =>
    let r := regWrites f f.way f.miss (regValues f.ps) s
    endWith { status := if r.1 = rspOk then stOk else regStatus r.1 } f r.2) s

/-! ### Settings and images (19) -/

/-- A store to the node's MRAM by another command is running (14 "Opcodes"). -/
def storing (s : Block) (f : CmdFl) : Bool :=
  s.flight.any fun c => (c.op == 0x0200 || c.op == 0x0300) && c.node == f.node && (c.step == 1 || c.stalled) &&
    c.result.isNone &&
    !(c.q == f.q && c.cid == f.cid)

/-- STORE_SETTINGS (19 R421, R423): checks and source; its commit point follows, and the copies are written as it completes.  `bad`: copies that fail verification
twice. -/
def storeSettingsCmd (data : List (BitVec 8)) (bad : BitVec 3) (dma : Fin 3) (s : Block) : Block :=
  runNode 0x0200 (fun f s =>
    if storing s f then endBusy f s
    else withSource (sourceOf f (f.p 1) (pf f.ps 2 16 0) (pf f.ps 2 32 32) data dma s) f s (keep f [bad.toNat])) s

/-- READ_SETTINGS (19 R421, R422). -/
def readSettingsCmd (dma : Fin 3) (s : Block) : Block :=
  runNode 0x0201 (fun f s =>
    let r := readPage s f.node (pf f.ps 0 15 0)
    let rep : Reply := { status := stOk, r0 := copyGenOf r.1, r1 := r.2.1 }
    match r.1 with
    | some c => dmaOut dma (f.p 1) c.data rep f r.2.2
    | none => endWith rep f r.2.2) s

/-- IMAGE_WRITE (19 R425, R426): the whole image is checked; at the commit point, which follows, the slot is made invalid, and it is written
as the command completes.  `fail`:
the result fails verification. -/
def imageWriteCmd (data : List (BitVec 8)) (fail : Bool) (dma : Fin 3) (s : Block) : Block :=
  runNode 0x0300 (fun f s =>
    let k := pf f.ps 0 15 0
    let n := f.node
    let running := decide (k ≤ 1) && fget s n F.CMD_STATUS_BOOT_SLOT == k && !fbit s n F.NVS_STATUS_RECOVERY
    if storing s f || running then endBusy f s
    else withSource (sourceOf f (f.p 1) (pf f.ps 2 31 0) (pf f.ps 2 32 32) data dma s) f s fun bs s =>
      let r := checkImage s n (slotTypes k) bs
      if !r.1 then endWith { status := stImageRejected } f r.2
      else if hdr bs 4 1 = tyRegion && decide (2 ^ 22 < bs.length) then endWith { status := stBadParam, detail := 24 } f r.2
      else keep f [b2n fail] bs r.2) s

/-- The image that MICROCODE_LOAD or FABRIC_LOAD names, checked (14 R338, 19 R425). -/
def imageOf (f : CmdFl) (types : List Nat) (s : Block) : Option (Except Reply (Option (List (BitVec 8))) × Block) :=
  let bad : Reply := { status := stImageRejected }
  if pf f.ps 0 16 16 = 1 then
    match stgSource f (f.p 1) (pf f.ps 2 31 0) s with
    | none => none
    | some (.error r, s) => some (.error r, s)
    | some (.ok bs, s) =>
      let r := checkImage s f.node types bs
      some (if r.1 then .ok (some bs) else .error bad, r.2)
  else
    let r := slotImage s f.node (pf f.ps 0 15 0) types
    some (match r.1 with
      | some x => .ok x
      | none => .error bad, r.2)

/-- Another microcode load runs on the node. -/
def microBusy (s : Block) (n : Nat) : Bool :=
  anyRunning s n || s.flight.any fun c => c.op == 0x0301 && c.node == n && c.step == 1 && c.result.isNone

/-- MICROCODE_LOAD (03 R84): steps 1 and 2; step 3 is its commit point, and step 4 on comes as it completes. -/
def microcodeLoadCmd (s : Block) : Block :=
  runNode 0x0301 (fun f s =>
    match imageOf f [tyMicrocode] s with
    | none => stallCmd f (stgWaits s f.node)
    | some (.error r, s) => endWith r f s
    | some (.ok img, s) =>
      if !loadableMicro img then endWith { status := stImageRejected } f s
      else if microBusy s f.node then endBusy f s
      else match img with
        | some bs => keep f [hdr bs 20 4] bs s
        | none => keep f [] [] s) s

/-- BOOT_SELECT (19 R423, "boot record"): BUSY while IMAGE_WRITE writes the slot it names (19 R432). -/
def bootSelectCmd (bad : BitVec 3) (s : Block) : Block :=
  runNode 0x0302 (fun f s =>
    if s.flight.any fun c => c.op == 0x0300 && c.node == f.node && (c.step == 1 || c.stalled) && c.result.isNone &&
        c.p 0 % 2 ^ 16 == f.p 0 % 2 then endBusy f s
    else keep f [bad.toNat] [BitVec.ofNat 8 (f.p 0 % 2)] s) s

/-! ### Gangs and tasks (14 R339, 06 R158-R162, 08 R202) -/

def cmdGang (f : CmdFl) : Fin 16 := Fin.ofNat 16 (pf f.ps 0 3 0)
def cmdTask (f : CmdFl) : Nat := pf f.ps 0 9 4

/-- Start a task at a PC with a PSW. -/
def runTask (s : Block) (n a k pc : Nat) (w : Word) : Block :=
  let s := rput s n .ACU_TASK_PC (at2 a k) (BitVec.ofNat 32 (pc / 4 * 4))
  startTask (rput s n .ACU_TASK_PSW (at2 a k) (w &&& pswMask)) n a k

/-- GANG_RUN (14 R339). -/
def gangRunCmd (s : Block) : Block :=
  runNode 0x0400 (fun f s =>
    let n := f.node
    let g := (cmdGang f).val
    let k := cmdTask f
    if gState s n g ≠ gOff || !gangFormed s n g || taskState s n g k ≠ 0 || l4Open s n then endBusy f s
    else
      let s := gangEnable (fput s n F.ACU_MILL_TASK g k) n g
      let s := putGang s n g { gang s n g with program := some (f.q, f.cid) }
      runTask (begun s f) n g k (pf f.ps 1 31 0) 0) s

/-- GANG_STOP (06 R159): a stop request with cause HOST. -/
def gangStopCmd (s : Block) : Block :=
  runNode 0x0401 (fun f s => gangStopWrite (fin64 f.node) (cmdGang f) (begun s f)) s

/-- GANG_RESUME (06 R160). -/
def gangResumeCmd (s : Block) : Block :=
  runNode 0x0402 (fun f s =>
    if gState s f.node (cmdGang f) ≠ gStopped then endBusy f s else endOk f (resumeGang s f.node (cmdGang f))) s

/-- GANG_DISABLE (06 R162). -/
def gangDisableCmd (s : Block) : Block :=
  runNode 0x0403 (fun f s => startDrain (begun s f) f.node (cmdGang f)) s

/-- TASK_START (08 R202). -/
def taskStartCmd (s : Block) : Block :=
  runNode 0x0404 (fun f s =>
    let a := (cmdGang f).val
    if taskState s f.node a (cmdTask f) ≠ 0 then endBusy f s
    else endOk f (runTask s f.node a (cmdTask f) (pf f.ps 1 31 0) (BitVec.ofNat 32 (pf f.ps 2 31 0)))) s

/-- TASK_STOP (08 R202). -/
def taskStopCmd (s : Block) : Block :=
  runNode 0x0405 (fun f s => taskEn (begun s f) f.node (cmdGang f) (cmdTask f) false) s

/-! ### Streams and drive outputs (11) -/

/-- STREAM_CTRL. -/
def streamCtrlCmd (s : Block) : Block :=
  runNode 0x0500 (fun f s =>
    streamEnWrite (fin64 f.node) (Fin.ofNat 64 (pf f.ps 0 5 0)) (pf f.ps 0 8 8 == 1) (begun s f)) s

/-- The outputs that DRIVE_MUTE and DRIVE_UNMUTE name, with their nodes. -/
def namedOutputs (s : Block) (f : CmdFl) : List (Nat × Nat) :=
  let v := pf f.ps 0 15 8
  let all := fun (n : Nat) => (List.range 256).map fun o => (n, o)
  match pf f.ps 0 1 0 with
  | 0 => [(f.node, v)]
  | 1 => (all f.node).filter fun p => fget s p.1 F.DRV_CFG_GROUP p.2 == v
  | 2 => all f.node
  | _ => s.nodeTab.flatMap fun e => all e.node

/-- DRIVE_MUTE (11 R266). -/
def driveMuteCmd (s : Block) : Block :=
  runNode 0x0501 (fun f s => (namedOutputs s f).foldl (fun s p => muteOut s p.1 p.2 mcCommand) (begun s f)) s

/-- An UNMUTE of one output, and whether it is refused. -/
def unmuteCount (r : Nat × Block) (p : Nat × Nat) : Nat × Block :=
  let s := unmuteOut r.2 p.1 p.2
  let ok := drvState s p.1 p.2 == 2 && (drvPlay s p.1 p.2 == pRampUp || drvPlay s p.1 p.2 == pPlaying)
  (r.1 + b2n (!ok), s)

/-- DRIVE_UNMUTE (11 R267): of a group or a node, every output that is not OFF. -/
def driveUnmuteCmd (s : Block) : Block :=
  runNode 0x0502 (fun f s =>
    let os := (namedOutputs s f).filter fun p => pf f.ps 0 1 0 == 0 || drvState s p.1 p.2 != 0
    let r := os.foldl unmuteCount (0, s)
    endWith { status := if r.1 = 0 then stOk else stBusy, r0 := r.1 } f r.2) s

/-! ### Weir (13 R299, R313-R316) -/

/-- EPOCH_COMMIT (13 R299). -/
def epochCommitCmd (s : Block) : Block :=
  runCmd 0x0600 (fun f s => explicitBound (begun s f) (some (f.q, f.cid))) s

/-- The register that an offset names, directly or through its alias. -/
def namedAt (off : Nat) : Option (Reg × Nat) :=
  match aliasAt off with
  | some x => some x
  | none => regAt off

/-- One write of EPOCH_STAGE goes to the queue's command set; reserved values are treated as it is accepted (13 R300, R315, 00 R7). -/
def stageWrite (f : CmdFl) (s : Block) (p : Nat × Word) : Block :=
  match namedAt p.1 with
  | none => s
  | some (r, i) =>
    let c := cmdCtx f
    let n := accessNode (atTaken f p.1 s) c p.1
    let sel := selVal (atTaken f p.1 s) (ctxNum c) (regSpec r).sel
    let k := rkey n r (ix i sel)
    let a := rwlTake r p.2
    let s := { s with cmdSets := s.cmdSets ++ [⟨f.q, f.cid, n, k, a.1, behindPrepare s n⟩] }
    if a.2 then setReject s n r i sel else s

/-- EPOCH_STAGE (13 R315). -/
def epochStageCmd (s : Block) : Block :=
  runCmd 0x0601 (fun f s =>
    let code := fun (o : Nat) => accessCode s (accessNode (atTaken f o s) (cmdCtx f) o) o
    match (regOffs f.ps).find? fun o => code o != rspOk with
    | some o => endWith { status := regStatus (code o) } f s
    | none => (regValues f.ps).foldl (stageWrite f) (begun s f)) s

/-- SNAPSHOT (13 R313, R314). -/
def snapshotCmd (s : Block) : Block :=
  runNode 0x0602 (fun f s =>
    let x : SnapSt :=
      { q := f.q, cid := f.cid, node := f.node, mask := pf f.ps 0 15 0, engine := pf f.ps 0 17 16, ring := pf f.ps 0 22 18, first := pf f.ps 1 10 0,
        last := pf f.ps 1 26 16 }
    { begun s f with snaps := s.snaps ++ [x] }) s

/-! ### Faults (17 R382, R386, 19 R429) -/

/-- FAULT_ACK. -/
def faultAckCmd (s : Block) : Block := runNode 0x0700 (fun f s => endOk f (ackSource s f.node (pf f.ps 0 7 0))) s

/-- FAULT_READ: whole records, oldest first, up to the byte limit (log 52). -/
def faultReadCmd (dma : Fin 3) (s : Block) : Block :=
  runNode 0x0701 (fun f s =>
    let n := f.node
    let limit := pf f.ps 2 31 0
    if f.p 0 % 2 = 0 then
      let ring := mget (fun _ => []) s.fltRing n
      let k := min ring.length (limit / 32)
      let bs := (ring.take k).flatMap recBytes32
      let s := if dma = 0 then
          { s with
            fltRing := mput (fun _ => []) s.fltRing n
              ((ring.take k).map (fun r => { r with returned := true }) ++ ring.drop k) }
        else s
      dmaOut dma (f.p 1) bs { status := stOk, r0 := bs.length } f s
    else
      let bs := ((bbValid s n).take (limit / 40)).flatMap (·.bytes)
      dmaOut dma (f.p 1) bs { status := stOk, r0 := bs.length } f s) s

/-! ### Power, the fabric and the topology -/

/-- The nodes that POWER_STATE names. -/
def powerNodes (s : Block) (f : CmdFl) : List Nat := namedNodes s (pf f.ps 0 8 8 == 1) f.node

/-- POWER_STATE (14 R341; 18 R405, R409): a request, or a keep-alive wake to the secondaries named for Run. -/
def powerStateCmd (s : Block) : Block :=
  runCmd 0x0800 (fun f s =>
    let t := pf f.ps 0 2 0
    let ns := powerNodes s f
    if t = 0 then
      ns.foldl (fun s n =>
        if n ≠ 0 && (pState s n != 0 || (pow s n).entry.isSome) then putPow s n { pow s n with keepAlive := true } else s)
        (begun s f)
    else if powerBusy s ns t (some (f.q, f.cid)) then endBusy f s
    else powerGo (begun s f) ns t) s

/-- FABRIC_LOAD (12 R288, R292): step 1; it waits for a commit. -/
def fabricLoadCmd (s : Block) : Block :=
  runNode 0x0900 (fun f s =>
    let n := f.node
    if (load s n).isSome then endBusy f s
    else
      match imageOf f [tyWhole, tyRegion] s with
      | none => stallCmd f (stgWaits s f.node)
      | some (.error r, s) => endWith r f s
      | some (.ok none, s) => endWith { status := stImageRejected } f s
      | some (.ok (some bs), s) =>
        let x := fabricLoad f.q f.cid 1 bs
        if x.regions.any (rgPlaying s n) then endBusy f s else putLoad (begun s f) n (some x)) s

/-- TOPOLOGY_READ (15 R362). -/
def topologyReadCmd (dma : Fin 3) (s : Block) : Block :=
  runCmd 0x0A00 (fun f s => dmaOut dma (f.p 1) (topologyBytes s) { status := stOk } f s) s

/-- TOPOLOGY_RESCAN (15 R356): BUSY while another is in flight (15 R361). -/
def topologyRescanCmd (s : Block) : Block :=
  runCmd 0x0A01 (fun f s =>
    if s.flight.any fun c => c.op == opRescan && c.step != 0 && c.result.isNone then endBusy f s
    else rescan (keep f (s.chrWaiting.map (·.node)) [] s)) s

end Sys2Proof.Machine
end

