-- ==== Sys2Proof/Machine/Endpoint.lean ====
section
/-! DEFINITION. Sys2Proof/Machine/Endpoint.lean: what the function of the PCI Express endpoint shows of itself (14 R318, R319). No
command is a configuration access: what the host has written there is state, and the places of the header are those of the PCI Express
specification (log 61). -/

namespace Sys2Proof.Machine

/-- Identity, the same for every member of the family; the revision is GLB_ID[7:0] (14 R318). -/
def epVendor : Nat := 0x1F4E
def epDevice : Nat := 0x4E10
def epClass : Nat := 0x118000
def epRevision (s : Block) (n : Nat) : Nat := wbits (rget s n .GLB_ID) 7 0

/-- Sizes of BAR0 and BAR2 (14 R319). -/
def bar0Size : Nat := 2 ^ 25
def bar2Size : Nat := 2 ^ 28

/-- A base address register as it reads: its base, of the bits its size leaves, and its type: 64-bit memory, prefetchable or not. -/
def barDword (base size : Nat) (prefetch : Bool) : Word := BitVec.ofNat 32 (base / size * size % 2 ^ 32 + (if prefetch then 0xC else 0x4))

/-- Double word `d` of the type 0 header: of Status, the aborts received; BAR4, BAR5 and the Expansion ROM BAR read 0, and so does the Interrupt Pin. -/
def cfgHeader (s : Block) (n d : Nat) : Word :=
  let x := pow s n
  match d with
  | 0 => BitVec.ofNat 32 (epVendor + 2 ^ 16 * epDevice)
  | 1 => BitVec.ofNat 32 (x.aborts.toNat * 2 ^ 28)
  | 2 => BitVec.ofNat 32 (epRevision s n + 2 ^ 8 * epClass)
  | 4 => barDword x.bar0.toNat bar0Size false
  | 5 => x.bar0.extractLsb' 32 32
  | 6 => barDword x.bar2.toNat bar2Size true
  | 7 => x.bar2.extractLsb' 32 32
  | 11 => x.subsys
  | _ => 0

/-- A write of a base address register keeps the bits that its size leaves. -/
def barAssign (w : DWord) (size : Nat) : DWord := BitVec.ofNat 64 (w.toNat / size * size)

/-- The largest payload and read request that the host has set, in bytes, and the largest that it may set (14 R318). -/
def maxPayload (s : Block) (n : Nat) : Nat := 128 * 2 ^ (pow s n).mps.val
def maxReadRequest (s : Block) (n : Nat) : Nat := 128 * 2 ^ (pow s n).mrrs.val
def maxPayloadTop : Nat := 512
def maxReadTop : Nat := 4096

/-- Tags of a request: 10 bits, as requester once the host enables them and as completer always. -/
def tagBits (s : Block) (n : Nat) : Nat := if (pow s n).tag10 then 10 else 8

/-- The Device Serial Number capability: the part's serial number. -/
def deviceSerial (n : Nat) : DWord := Config.serialNumber n

end Sys2Proof.Machine
end

