-- ==== Sys2Proof/Machine/Cmd.lean ====
section
/-! DEFINITION. Sys2Proof/Machine/Cmd.lean: how commands complete, and the resets of the command interface (14 R322-R324, R334, R343;
20 R441). -/

namespace Sys2Proof.Machine

/-! ### Completion (14 R334, R338) -/

/-- The work of a store, a load or a boot selection that has passed its commit point ends (19 R423, R426; 03 R84; 12 R288): its reply,
`none` while it cannot end yet. -/
def finishWork (s : Block) (f : CmdFl) : Option Reply × Block :=
  let n := f.node
  match f.op with
  | 0x0200 =>
    let bad := BitVec.ofNat 3 (f.nums.getD 0 0)
    let p := pf f.ps 0 15 0
    (some { status := if bad = 0 then stOk else stStoreFail, r0 := nextGen s n p }, storePage s n p f.bytes bad)
  | 0x0302 =>
    let bad := BitVec.ofNat 3 (f.nums.getD 0 0)
    (some { status := if bad = 0 then stOk else stStoreFail }, storePage s n pgBoot f.bytes bad)
  | 0x0300 =>
    let k := pf f.ps 0 15 0
    if f.nums.getD 0 0 = 1 then (some { status := stStoreFail }, putSlot (writeSlots n 10 k f.bytes s) n k .empty)
    else
      let s := writeSlots n 10 k f.bytes s
      let s := if fbit s n F.NVS_STATUS_RECOVERY then
          let b := bootSlot s n
          let s := startFirmware b.2 n k (some f.bytes)
          bootRest (if b.1 = k then s else fset s n F.NVS_STATUS_SLOT_FALLBACK 1) n (mget (fun _ => false) s.pcieUp n)
        else s
      (some { status := stOk }, s)
  | 0x0301 =>
    let r := loadEndMicro s n f.nums.head?
    (some { status := if r.1 then stOk else stImageRejected }, r.2)
  | _ => (none, s)

/-- A store, a load or a boot selection whose checks have passed reaches its commit point: the first MRAM write, by which a slot becomes
invalid, or step 3 of 03 R84 (14 R338).  A node that has gone below Furl meanwhile ends it (log 52). -/
def passCommit (s : Block) (f : CmdFl) : Block :=
  let n := f.node
  if (pow s n).off || decide (3 ≤ pState s n) then cmdEnd s f.q f.cid { status := stPwrOff }
  else
    let t := cmdPast s f.q f.cid
    match f.op with
    | 0x0300 => putSlot t n (pf f.ps 0 15 0) .empty
    | 0x0301 =>
      if anyRunning s n then cmdEnd s f.q f.cid { status := stBusy }
      else loadBeginMicro t n (if f.nums.isEmpty then none else some f.bytes)
    | _ => t

/-- A FABRIC_LOAD goes on by steps 3 and 4 to 6 (12 R288). -/
def finishFabric (s : Block) (f : CmdFl) : Option Reply × Block :=
  match load s f.node with
  | some x =>
    if x.stage = 3 then (none, loadBegin s f.node)
    else if x.stage = 4 then
      let r := loadFinish s f.node x
      (some { status := if r.1 then stOk else stImageRejected, epoch := x.epoch }, r.2)
    else (none, s)
  | none => (none, s)

/-- A GANG_RUN ends as its program does, or with its task halted (14 R339). -/
def finishGang (s : Block) (f : CmdFl) : Option Reply × Block :=
  let n := f.node
  let g := (cmdGang f).val
  let x := gang s n g
  let done := putGang s n g { x with program := none, verdict := none }
  match x.verdict with
  | some v => (some (progReply v), done)
  | none =>
    if taskRun s n g (cmdTask f) = runHalted then (some { status := stFaulted, detail := SRC.WINDOW_DOUBLE }, done) else (none, s)

/-- Every node named has reached the state; the primary once its entry is certain (14 R341). -/
def powerReached (s : Block) (f : CmdFl) : Bool :=
  let t := pf f.ps 0 2 0
  (powerNodes s f).all fun n =>
    if t = 0 then pState s n == 0
    else if n = 0 then (pow s 0).entry.isSome && allMuted s 0
    else decide (t ≤ pState s n)

/-- How a command whose work has begun ends, if it can end now (14 R338). -/
def finish (s : Block) (f : CmdFl) : Option Reply × Block :=
  let n := f.node
  let g := (cmdGang f).val
  let ok := fun (b : Bool) => (if b then some { status := stOk } else none, s)
  match f.op with
  | 0x0400 => finishGang s f
  | 0x0401 => ok (gState s n g == gStopped || gState s n g == gOff)
  | 0x0403 => ok (gState s n g == gOff)
  | 0x0405 => ok (taskState s n g (cmdTask f) == 0)
  | 0x0500 => ok (strmState s n (pf f.ps 0 5 0) != 1)
  | 0x0501 => ok ((namedOutputs s f).all fun p => drvState s p.1 p.2 == 0 || drvPlay s p.1 p.2 == pMuted)
  | 0x0602 =>
    match s.snaps.find? fun x => x.q == f.q && x.cid == f.cid && x.imgs.isEmpty with
    | some x =>
      match x.taken with
      | some (e, _) =>
        (some { status := stOk, epoch := e, r0 := e },
          { s with snaps := s.snaps.filter fun z => !(z.q == f.q && z.cid == f.cid) })
      | none => (none, s)
    | none => (none, s)
  | 0x0800 => ok (powerReached s f)
  | 0x0900 => finishFabric s f
  | _ => if f.past then finishWork s f else (none, if opClass f.op = some 3 then passCommit s f else s)

/-- COMMAND_COMPLETION (14 R334): a command's outcome is known, or its work can end; its reply is written.  A command refused for a CID
in use is answered before the one that has it (log 51). -/
def commandCompletion (q : Fin 16) (cid : Half) (s : Block) : Block :=
  if s.d3hot || !inRun s 0 then s
  else
    match (dupOf s q cid.toNat).or (cmdOf s q cid.toNat) with
    | none => s
    | some f =>
      match f.result with
      | some r => writeReply s f r
      | none =>
        if f.step = 0 then s
        else
          let x := finish s f
          match x.1 with
          | some r => writeReply x.2 f r
          | none => x.2

/-! ### Resets of the command interface (14 R322-R324, 20 R441) -/

/-- Work past its commit point runs to its end without a reply (14 R324, R335). -/
def finishSilent (s : Block) (f : CmdFl) : Block :=
  if f.past && f.result.isNone && f.step = 1 then
    (if f.op = 0x0900 then
      match load s f.node with
      | some x => if 3 ≤ x.stage then (loadFinish s f.node x).2 else s
      | none => s
    else (finishWork s f).2)
  else s

/-- A command of class I or T that was taken and has not run completes (14 R334, R335).  Nothing of the host's memory is reached any
more: a DMA of it fails (log 51). -/
def finishTaken (s : Block) : Block :=
  match nextCmd s with
  | none => s
  | some f =>
    match f.op with
    | 0x0101 => identifyCmd 1 s
    | 0x0102 => abortCmd s
    | 0x0103 => regReadCmd s
    | 0x0104 => regWriteCmd s
    | 0x0201 => readSettingsCmd 1 s
    | 0x0401 => gangStopCmd s
    | 0x0402 => gangResumeCmd s
    | 0x0403 => gangDisableCmd s
    | 0x0404 => taskStartCmd s
    | 0x0405 => taskStopCmd s
    | 0x0500 => streamCtrlCmd s
    | 0x0501 => driveMuteCmd s
    | 0x0502 => driveUnmuteCmd s
    | 0x0600 => epochCommitCmd s
    | 0x0700 => faultAckCmd s
    | 0x0701 => faultReadCmd 1 s
    | 0x0800 => powerStateCmd s
    | 0x0A00 => topologyReadCmd 1 s
    | _ => s

/-- What a command that a reset resolved has left in progress keeps no CID that a later command could have (14 R324). -/
def deadCid (cid : Nat) : Nat := cid + 2 ^ 16

/-- The registers of the command interface. -/
def cmdRegs : List Reg :=
  [.CMD_Q_CTRL, .CMD_Q_SQBASE, .CMD_Q_CQBASE, .CMD_Q_SQ_TAIL, .CMD_Q_CQ_HEAD, .CMD_Q_STATUS, .CMD_Q_COUNT, .CMD_IRQ_MAP,
    .CMD_IRQ_NODES]

/-- Every command in flight is resolved, no reply is written, and the interface takes its reset values (14 R324). -/
def interfaceReset (s : Block) : Block :=
  let s := finishTaken s
  let s := s.flight.foldl (stopFlight stAborted false) s
  let s := s.flight.foldl finishSilent s
  let s := s.flight.foldl (fun s f => if f.op = 0x0400 then stopProgram s f false else s) s
  let s := { s with
    regs := cmdRegs.foldl (fun m r => mdrop m (rkey 0 r 0) (rkey 0 r 0 + 2 ^ 25)) s.regs
    flight := []
    doneCids := []
    phases := []
    lastQueue := 15
    sels := mdrop s.sels 0 256
    cmdSets := s.cmdSets.map fun c => { c with cid := deadCid c.cid }
    cmdSealed := s.cmdSealed.map fun c => { c with cid := deadCid c.cid }
    snaps := s.snaps.map fun x => { x with cid := deadCid x.cid }
    loads := s.loads.map fun p => (p.1, p.2.map fun x => { x with cid := deadCid x.cid })
    commit := s.commit.map fun c => { c with cmd := none }
    heldBounds := s.heldBounds.map fun _ => none
    unmasked := []
    pba := []
    msixTab := []
    tlpQ := []
    d3hot := false }
  fset s 0 F.CMD_STATUS_CFG_REJECT 0

/-- FUNCTION_LEVEL_RESET (14 R324): an FLR, a hot reset, or a loss of the link (`loss`). -/
def functionLevelReset (loss : Bool) (s : Block) : Block :=
  if (pow s 0).off || pState s 0 = 4 then s
  else
    let s := interfaceReset s
    if loss then { s with pcieUp := mput (fun _ => false) s.pcieUp 0 false } else s

/-- PERST_N_ASSERT (20 R441, R448): ignored on a secondary and during a reset by RESET_N; held in Brake and Rest. -/
def perstNAssert (n : Node) (s : Block) : Block :=
  if (pow s n).off || (pow s n).resetting || role s n = roSecondary then s
  else if 3 ≤ pState s n then putPow s n { pow s n with perst := true }
  else endpointReset (if n.val = 0 then interfaceReset s else s) n

/-- D0_WRITE (14 R321, R322, R343): held messages are sent, replies go on, and Run is requested. -/
def d0Write (s : Block) : Block :=
  if (pow s 0).off || pState s 0 = 4 then s
  else
    let s := fset { s with d3hot := false } 0 F.GOV_STATE_D3_HELD 0
    let s := (List.range 256).foldl (fun s v =>
      if mget (fun _ => false) s.unmasked v then vectorMask s v false else s) s
    startExit s 0 wkTlp

/-- The widest link that working lanes form, from lane 0 or, reversed, from lane 15, up to the partner's width 2^k (14 R320). -/
def linkWidth (lanes : BitVec 16) (reversed : Bool) (k : Nat) : Nat :=
  let w := 2 ^ k
  let good := (List.range w).all fun i => lanes.getLsbD (if reversed then 15 - i else i)
  if good then w
  else match k with
    | 0 => 0
    | k + 1 => linkWidth lanes reversed k

/-- LINK_TRAINED (14 R320, R323; 15 R353): the partner takes rates up to number `rate` of R318 and widths up to 2^`width`; `lanes` are
the lanes that train. -/
def linkTrained (n : Node) (rate width : Fin 5) (lanes : BitVec 16) (reversed : Bool) (s : Block) : Block :=
  let x := pow s n
  let w := linkWidth lanes reversed width
  if x.off || x.quietEp || pState s n = 4 || w = 0 then s
  else
    let s := putPow s n { x with rate := [25, 50, 80, 160, 320].getD rate 25, width := w }
    let s := { s with pcieUp := mput (fun _ => false) s.pcieUp n true }
    if role s n = roUnattached then setRole s n roCandidate else s

end Sys2Proof.Machine
end

