-- ==== Sys2Proof/Machine/ExecCommand.lean ====
section
/-! DEFINITION. Sys2Proof/Machine/ExecCommand.lean: the meanings of the commands of this family, one definition each. -/

namespace Sys2Proof.Machine

/-- COMMAND_TAKE (R329). The processor takes the next command of a queue in round robin when the completion queue has room, and checks it. -/
def execCommandTake (q : Fin 16) (pkt : BitVec 512) (x : TakeIn) (s : State) : Host.Outcome State Fault Refusal :=
  done s (commandTake q pkt x.fence x.miss x.way s.toBlock)

/-- COMMAND_COMPLETION (R334). A triggered, epoch or long command's work ends and its reply is written. -/
def execCommandCompletion (q : Fin 16) (cid : Half) (s : State) : Host.Outcome State Fault Refusal :=
  done s (commandCompletion q cid s.toBlock)

/-- NOP (R338). Command that completes OK. -/
def execNop (s : State) : Host.Outcome State Fault Refusal :=
  done s (nopCmd s.toBlock)

/-- IDENTIFY (R340). Command writing 64 bytes of identification for a node. -/
def execIdentify (dma : Fin 3) (s : State) : Host.Outcome State Fault Refusal :=
  done s (identifyCmd dma s.toBlock)

/-- ABORT (R335). Command aborting a target command, resolved against its commit point. -/
def execAbort (s : State) : Host.Outcome State Fault Refusal :=
  done s (abortCmd s.toBlock)

/-- REG_READ (R338). Command reading 1–4 registers through the queue's context. -/
def execRegRead (s : State) : Host.Outcome State Fault Refusal :=
  done s (regReadCmd s.toBlock)

/-- REG_WRITE (R338). Command writing 1–4 registers through the queue's context. -/
def execRegWrite (s : State) : Host.Outcome State Fault Refusal :=
  done s (regWriteCmd s.toBlock)

/-- STORE_SETTINGS (R423). Command writing a settings page in three verified copies. -/
def execStoreSettings (data : List (BitVec 8)) (bad : BitVec 3) (dma : Fin 3) (s : State) : Host.Outcome State Fault Refusal :=
  done s (storeSettingsCmd data bad dma s.toBlock)

/-- READ_SETTINGS (R422). Command returning the selected copy of a settings page. -/
def execReadSettings (dma : Fin 3) (s : State) : Host.Outcome State Fault Refusal :=
  done s (readSettingsCmd dma s.toBlock)

/-- IMAGE_WRITE (R426). Command checking and writing an image into an MRAM slot. -/
def execImageWrite (data : List (BitVec 8)) (fail : Bool) (dma : Fin 3) (s : State) : Host.Outcome State Fault Refusal :=
  done s (imageWriteCmd data fail dma s.toBlock)

/-- MICROCODE_LOAD (R84). Command loading a microcode image into every tile's stores and verifying it. -/
def execMicrocodeLoad (s : State) : Host.Outcome State Fault Refusal :=
  done s (microcodeLoadCmd s.toBlock)

/-- BOOT_SELECT (R338). Command writing the boot record for the next boot. -/
def execBootSelect (bad : BitVec 3) (s : State) : Host.Outcome State Fault Refusal :=
  done s (bootSelectCmd bad s.toBlock)

/-- GANG_RUN (R339). Command starting a gang program on its issuing task and completing at A.END. -/
def execGangRun (s : State) : Host.Outcome State Fault Refusal :=
  done s (gangRunCmd s.toBlock)

/-- GANG_STOP (R338). Command requesting a stop with cause HOST. -/
def execGangStop (s : State) : Host.Outcome State Fault Refusal :=
  done s (gangStopCmd s.toBlock)

/-- GANG_RESUME (R338). Command resuming a stopped gang. -/
def execGangResume (s : State) : Host.Outcome State Fault Refusal :=
  done s (gangResumeCmd s.toBlock)

/-- GANG_DISABLE (R338). Command draining a gang to OFF. -/
def execGangDisable (s : State) : Host.Outcome State Fault Refusal :=
  done s (gangDisableCmd s.toBlock)

/-- TASK_START (R338). Command starting an ACU task at a PC and PSW. -/
def execTaskStart (s : State) : Host.Outcome State Fault Refusal :=
  done s (taskStartCmd s.toBlock)

/-- TASK_STOP (R338). Command disabling an ACU task. -/
def execTaskStop (s : State) : Host.Outcome State Fault Refusal :=
  done s (taskStopCmd s.toBlock)

/-- STREAM_CTRL (R338). Command enabling or disabling a stream. -/
def execStreamCtrl (s : State) : Host.Outcome State Fault Refusal :=
  done s (streamCtrlCmd s.toBlock)

/-- DRIVE_MUTE (R338). Command muting an output, group, node or all nodes. -/
def execDriveMute (s : State) : Host.Outcome State Fault Refusal :=
  done s (driveMuteCmd s.toBlock)

/-- DRIVE_UNMUTE (R338). Command unmuting outputs and returning the number refused. -/
def execDriveUnmute (s : State) : Host.Outcome State Fault Refusal :=
  done s (driveUnmuteCmd s.toBlock)

/-- EPOCH_COMMIT (R338). Command making an explicit boundary and completing at the apply instant. -/
def execEpochCommit (s : State) : Host.Outcome State Fault Refusal :=
  done s (epochCommitCmd s.toBlock)

/-- EPOCH_STAGE (R315). Command staging RWL writes in the queue's command set. -/
def execEpochStage (s : State) : Host.Outcome State Fault Refusal :=
  done s (epochStageCmd s.toBlock)

/-- SNAPSHOT (R313). Command imaging named gangs at the next apply instant. -/
def execSnapshot (s : State) : Host.Outcome State Fault Refusal :=
  done s (snapshotCmd s.toBlock)

/-- FAULT_ACK (R386). Command acknowledging the open faults of a source. -/
def execFaultAck (s : State) : Host.Outcome State Fault Refusal :=
  done s (faultAckCmd s.toBlock)

/-- FAULT_READ (R338). Command writing current fault records or the black-box history to host memory. -/
def execFaultRead (dma : Fin 3) (s : State) : Host.Outcome State Fault Refusal :=
  done s (faultReadCmd dma s.toBlock)

/-- POWER_STATE (R341). Command moving named nodes to a power state. -/
def execPowerState (s : State) : Host.Outcome State Fault Refusal :=
  done s (powerStateCmd s.toBlock)

/-- FABRIC_LOAD (R288). Command loading a whole or region fabric image at a commit. -/
def execFabricLoad (s : State) : Host.Outcome State Fault Refusal :=
  done s (fabricLoadCmd s.toBlock)

/-- TOPOLOGY_READ (R362). Command writing the node table. -/
def execTopologyRead (dma : Fin 3) (s : State) : Host.Outcome State Fault Refusal :=
  done s (topologyReadCmd dma s.toBlock)

/-- TOPOLOGY_RESCAN (R356). Command calling on every link and staging every admitted module. -/
def execTopologyRescan (s : State) : Host.Outcome State Fault Refusal :=
  done s (topologyRescanCmd s.toBlock)

/-- VECTOR_UNMASK (R343). Unmasking a vector with its PBA bit set sends its held message. -/
def execVectorUnmask (v : BitVec 8) (s : State) : Host.Outcome State Fault Refusal :=
  done s (vectorUnmask v s.toBlock)

/-- LINK_TRAINED (R320). The PCI Express link trains to the best common rate and width. -/
def execLinkTrained (n : Node) (rate width : Fin 5) (lanes : BitVec 16) (reversed : Bool) (s : State) : Host.Outcome State Fault Refusal :=
  done s (linkTrained n rate width lanes reversed s.toBlock)

/-- FUNCTION_LEVEL_RESET (R324). FLR, hot reset or link loss resets the command interface and resolves in-flight commands. -/
def execFunctionLevelReset (loss : Bool) (s : State) : Host.Outcome State Fault Refusal :=
  done s (functionLevelReset loss s.toBlock)

/-- D0_WRITE (R321). A write of D0 clears D3_HELD, releases held replies and requests Run. -/
def execD0Write (s : State) : Host.Outcome State Fault Refusal :=
  done s (d0Write s.toBlock)

/-- PERST_N_ASSERT (R441). PERST_N low resets the endpoint and command interface. -/
def execPerstNAssert (n : Node) (s : State) : Host.Outcome State Fault Refusal :=
  done s (perstNAssert n s.toBlock)

end Sys2Proof.Machine
end

