-- ==== Sys2Proof/Machine/ExecDeadline.lean ====
section
/-! DEFINITION. Sys2Proof/Machine/ExecDeadline.lean: the meanings of the commands of this family, one definition each. -/

namespace Sys2Proof.Machine

/-- DLM_ARM_WRITE (R392). Writing DLM_CTRL.ARM arms a monitor, or sets REARM if armed. -/
def execDlmArmWrite (n : Node) (m : Fin 64) (s : State) : Host.Outcome State Fault Refusal :=
  done s (hostTlp (.row (.dlmArmWrite n m)) s.toBlock)

/-- DLM_DONE_WRITE (R393). Writing DLM_CTRL.DONE completes a monitor, met, late or stray. -/
def execDlmDoneWrite (n : Node) (m : Fin 64) (s : State) : Host.Outcome State Fault Refusal :=
  done s (hostTlp (.row (.dlmDoneWrite n m)) s.toBlock)

/-- DEADLINE_EXPIRY (R393). An armed monitor's deadline passes and it misses. -/
def execDeadlineExpiry (n : Node) (m : Fin 64) (s : State) : Host.Outcome State Fault Refusal :=
  done s (deadlineExpiry n m s.toBlock)

/-- DLM_EN_WRITE (R394). Writing DLM_CTRL.EN enables a monitor or disarms it without a miss. -/
def execDlmEnWrite (n : Node) (m : Fin 64) (en : Bool) (s : State) : Host.Outcome State Fault Refusal :=
  done s (hostTlp (.row (.dlmEnWrite n m en)) s.toBlock)

end Sys2Proof.Machine
end

