-- ==== Sys2Proof/Machine/ExecDrive.lean ====
section
/-! DEFINITION. Sys2Proof/Machine/ExecDrive.lean: the meanings of the commands of this family, one definition each. -/

namespace Sys2Proof.Machine

/-- DRIVE_FETCH (R263). An output fetches ready samples from its ring into its FIFO. -/
def execDriveFetch (n : Node) (o : Fin 256) (count : BitVec 12) (s : State) : Host.Outcome State Fault Refusal :=
  done s (whenClocked n (driveFetch n o count) s.toBlock)

/-- DRIVE_SAMPLE_DUE (R263). At a due time the output sends the sample, ramp step, loop or SAFE to its sink. -/
def execDriveSampleDue (n : Node) (o : Fin 256) (s : State) : Host.Outcome State Fault Refusal :=
  done s (whenClocked n (driveSampleDue n o) s.toBlock)

/-- DRV_READY_WRITE (R263). A write of DRV_READY raises the ready index, or is refused if it would fall. -/
def execDrvReadyWrite (n : Node) (o : Fin 256) (half : Fin 3) (v : DWord) (s : State) : Host.Outcome State Fault Refusal :=
  done s (hostTlp (.row (.drvReadyWrite n o half v)) s.toBlock)

/-- DRIVE_MUTE_WRITE (R266). Writing DRV_CTRL.MUTE starts a ramp down of the selected output. -/
def execDriveMuteWrite (n : Node) (o : Fin 256) (s : State) : Host.Outcome State Fault Refusal :=
  done s (hostTlp (.row (.driveMuteWrite n o)) s.toBlock)

/-- DRIVE_UNMUTE_WRITE (R267). Writing DRV_CTRL.UNMUTE starts a ramp up or is refused. -/
def execDriveUnmuteWrite (n : Node) (o : Fin 256) (s : State) : Host.Outcome State Fault Refusal :=
  done s (hostTlp (.row (.driveUnmuteWrite n o)) s.toBlock)

/-- MUTE_ALL_WRITE (R266). Writing DRV_GLOBAL.MUTE_ALL starts a ramp down on every output. -/
def execMuteAllWrite (n : Node) (s : State) : Host.Outcome State Fault Refusal :=
  done s (hostTlp (.row (.muteAllWrite n)) s.toBlock)

/-- DRIVE_EN_WRITE (R269). Writing DRV_CFG.EN enables an output MUTED or drains it through the ramp. -/
def execDriveEnWrite (n : Node) (o : Fin 256) (en : Bool) (s : State) : Host.Outcome State Fault Refusal :=
  done s (hostTlp (.row (.driveEnWrite n o en)) s.toBlock)

/-- INHIBIT_ASSERT (R268). DRV_INHIBIT_N low for 100 ns mutes every output. -/
def execInhibitAssert (n : Node) (s : State) : Host.Outcome State Fault Refusal :=
  done s (inhibitAssert n s.toBlock)

/-- INHIBIT_RELEASE (R268). DRV_INHIBIT_N high for 100 ns clears INHIBIT. -/
def execInhibitRelease (n : Node) (s : State) : Host.Outcome State Fault Refusal :=
  done s (inhibitRelease n s.toBlock)

end Sys2Proof.Machine
end

