-- ==== Sys2Proof/Machine/ExecFault.lean ====
section
/-! DEFINITION. Sys2Proof/Machine/ExecFault.lean: the meanings of the commands of this family, one definition each. -/

namespace Sys2Proof.Machine

/-- FAULT_EVENT (R378). The collector takes an event, decides its level, records it and applies that level's reactions. -/
def execFaultEvent (n : Node) (k : Fin 64) (s : State) : Host.Outcome State Fault Refusal :=
  done s (faultEvent n k s.toBlock)

/-- QUIET_WINDOW_END (R390). The quiet window of a block reset ends. -/
def execQuietWindowEnd (n : Node) (src : BitVec 8) (inst : Half) (s : State) : Host.Outcome State Fault Refusal :=
  done s (quietWindowEnd n src inst s.toBlock)

/-- LEAK_TIMER (R383). A source's leak timer expires and COUNT falls by 1. -/
def execLeakTimer (n : Node) (src : BitVec 8) (s : State) : Host.Outcome State Fault Refusal :=
  done s (leakTimer n src s.toBlock)

/-- ESCALATION_TIMER (R385). An open fault's escalation timer expires and an ESCALATED record is made one level higher. -/
def execEscalationTimer (n : Node) (src : BitVec 8) (s : State) : Host.Outcome State Fault Refusal :=
  done s (escalationTimer n src s.toBlock)

/-- FAULT_ACK_WRITE (R386). Writing FLT_SRC_STATUS.ACK closes the source's open faults. -/
def execFaultAckWrite (n : Node) (src : BitVec 8) (s : State) : Host.Outcome State Fault Refusal :=
  done s (hostTlp (.row (.faultAckWrite n src)) s.toBlock)

/-- CLEAR_FIRST (R381). Writing FLT_CTRL.CLEAR_FIRST clears FLT_FIRST and FLT_NEXT. -/
def execClearFirst (n : Node) (s : State) : Host.Outcome State Fault Refusal :=
  done s (hostTlp (.row (.clearFirst n)) s.toBlock)

/-- BLACKBOX_WRITE (R429). A queued record is written to the black-box history. -/
def execBlackboxWrite (n : Node) (s : State) : Host.Outcome State Fault Refusal :=
  done s (whenServed n (blackboxWrite n) s.toBlock)

end Sys2Proof.Machine
end

