-- ==== Sys2Proof/Machine/ExecGang.lean ====
section
/-! DEFINITION. Sys2Proof/Machine/ExecGang.lean: the meanings of the commands of this family, one definition each. -/

namespace Sys2Proof.Machine

/-- MILLRACE_ACCEPT (R152). Millrace accepts a macro-op from the issuing task when it has room, checks it and numbers it. -/
def execMillraceAccept (n : Node) (g : GangIx) (s : State) : Host.Outcome State Fault Refusal :=
  done s (whenRun n (millraceAccept n g) s.toBlock)

/-- MACRO_OP_DELIVERY (R153). Millrace copies an accepted macro-op into a tile FIFO as the FIFO has room and pacing allows. -/
def execMacroOpDelivery (n : Node) (g : GangIx) (tn : Node) (t : TileIx) (s : State) : Host.Outcome State Fault Refusal :=
  done s (whenRun n (macroOpDelivery n g tn t) s.toBlock)

/-- COLD_WAVE_RELEASE (R154). Every INTERVAL ns Millrace releases the next wave of cold tiles. -/
def execColdWaveRelease (n : Node) (g : GangIx) (s : State) : Host.Outcome State Fault Refusal :=
  done s (whenRun n (coldWaveRelease n g) s.toBlock)

/-- MACRO_OP_RETIRE (R152). A macro-op retires when every tile has reported it done and the previous op has retired. -/
def execMacroOpRetire (n : Node) (g : GangIx) (s : State) : Host.Outcome State Fault Refusal :=
  done s (whenRun n (macroOpRetire n g) s.toBlock)

/-- CROAK_RESULT_LATCH (R68). The gang result of a Croak step is latched into CRF on every tile of the gang. -/
def execCroakResultLatch (n : Node) (g : GangIx) (ns : Half) (s : State) : Host.Outcome State Fault Refusal :=
  done s (whenRun n (croakResultLatch n g ns) s.toBlock)

/-- YIELD_DECISION (R76). When every tile has parked or reported, Millrace chooses completion or Cmax and the tiles catch up. -/
def execYieldDecision (n : Node) (g : GangIx) (s : State) : Host.Outcome State Fault Refusal :=
  done s (whenRun n (yieldDecision n g) s.toBlock)

/-- STOP_COMPLETE (R159). The gang reaches STOPPED with the frontier op held or completed. -/
def execStopComplete (n : Node) (g : GangIx) (s : State) : Host.Outcome State Fault Refusal :=
  done s (whenRun n (stopComplete n g) s.toBlock)

/-- GANG_DRAIN_DONE (R162). Every tile and the queue of a draining gang have drained, and STATE reads OFF. -/
def execGangDrainDone (n : Node) (g : GangIx) (s : State) : Host.Outcome State Fault Refusal :=
  done s (whenRun n (gangDrainDone n g) s.toBlock)

end Sys2Proof.Machine
end

