-- ==== Sys2Proof/Machine/ExecGangWrite.lean ====
section
/-! DEFINITION. Sys2Proof/Machine/ExecGangWrite.lean: the meanings of the commands of this family, one definition each. -/

namespace Sys2Proof.Machine

/-- GANG_EN_WRITE (R158). Writing MILL_GANG_CTRL.EN = 1 enables a formed gang, and 0 starts draining it. -/
def execGangEnWrite (n : Node) (g : GangIx) (en : Bool) (s : State) : Host.Outcome State Fault Refusal :=
  done s (hostTlp (.row (.gangEnWrite n g en)) s.toBlock)

/-- GANG_STOP_WRITE (R159). Writing MILL_GANG_CTRL.STOP = 1 requests a stop of the gang. -/
def execGangStopWrite (n : Node) (g : GangIx) (s : State) : Host.Outcome State Fault Refusal :=
  done s (hostTlp (.row (.gangStopWrite n g)) s.toBlock)

/-- GANG_RESUME_WRITE (R160). Writing MILL_GANG_CTRL.RESUME = 1 resumes a stopped gang. -/
def execGangResumeWrite (n : Node) (g : GangIx) (s : State) : Host.Outcome State Fault Refusal :=
  done s (hostTlp (.row (.gangResumeWrite n g)) s.toBlock)

/-- RESUME_DISCARD (R119). Writing MILL_RESUME_CTRL.DISCARD = 1 while stopped drops the held macro-op. -/
def execResumeDiscard (n : Node) (g : GangIx) (s : State) : Host.Outcome State Fault Refusal :=
  done s (hostTlp (.row (.resumeDiscard n g)) s.toBlock)

end Sys2Proof.Machine
end

