-- ==== Sys2Proof/Machine/ExecGecko.lean ====
section
/-! DEFINITION. Sys2Proof/Machine/ExecGecko.lean: the meanings of the commands of this family, one definition each. -/

namespace Sys2Proof.Machine

/-- FABRIC_CONTENTION (R281). Two drivers drive one long track for 5 ns, and the contention is recorded. -/
def execFabricContention (n : Node) (track : Fin 1024) (user : BitVec 16) (s : State) : Host.Outcome State Fault Refusal :=
  done s (whenRun n (fabricContention n track user) s.toBlock)

/-- REGION_RAM_READ (R279). A design reads a RAM block word, with ECC correction in the ECC shape. -/
def execRegionRamRead (n : Node) (r : Fin 8) (m : Fin 64) (b : Bool) (w : BitVec 14) (wr : Option (BitVec 14 × DWord)) (oneClock : Bool) (s : State) : Host.Outcome State Fault Refusal :=
  done s (whenRun n (regionRamRead n r m b w wr oneClock) s.toBlock)

/-- INBOUND_BEAT (R283). An inbound stream beat enters the port FIFO or is discarded when full. -/
def execInboundBeat (n : Node) (port : Fin 32) (beat : BitVec 128) (period : Word) (taken : BitVec 7) (s : State) : Host.Outcome State Fault Refusal :=
  done s (whenRun n (inboundBeat n port beat period taken) s.toBlock)

/-- OUTBOUND_BEAT_EXPIRE (R283). An outbound beat not taken by its due time is discarded. -/
def execOutboundBeatExpire (n : Node) (port : Fin 32) (taken : Bool) (s : State) : Host.Outcome State Fault Refusal :=
  done s (whenRun n (outboundBeatExpire n port taken) s.toBlock)

/-- GECKO_WINDOW_ACCESS (R286). An access to a region's target window goes to its design or is answered as isolated. -/
def execGeckoWindowAccess (n : Node) (r : Fin 8) (who : BitVec 8) (req : NetReq) (data : List (BitVec 8)) (s : State) : Host.Outcome State Fault Refusal :=
  done s (whenRun n (geckoWindowAccess n r who req data) s.toBlock)

/-- GECKO_TRIGGER (R286). A rising trigger line fires its ring trigger source or monitor event. -/
def execGeckoTrigger (n : Node) (l : Fin 32) (s : State) : Host.Outcome State Fault Refusal :=
  done s (whenRun n (geckoTrigger n l) s.toBlock)

/-- GECKO_IRQ_LINE (R286). A rising interrupt line sets GKO_IRQ_PEND, raising FABRIC if enabled. -/
def execGeckoIrqLine (n : Node) (l : Fin 16) (s : State) : Host.Outcome State Fault Refusal :=
  done s (whenRun n (geckoIrqLine n l) s.toBlock)

/-- REGION_EN_WRITE (R293). Writing GKO_REGION_CTRL.EN releases a held region or drains it after muting its outputs. -/
def execRegionEnWrite (n : Node) (r : Fin 8) (en : Bool) (s : State) : Host.Outcome State Fault Refusal :=
  done s (hostTlp (.row (.regionEnWrite n r en)) s.toBlock)

/-- REGION_DRAIN_DONE (R293). A draining region has stopped and reads OFF with PHASE HOLD. -/
def execRegionDrainDone (n : Node) (r : Fin 8) (s : State) : Host.Outcome State Fault Refusal :=
  done s (regionDrainDone n r s.toBlock)

/-- CONFIG_WORD_CHECK (R294). A configuration word of a running region is checked, corrected or found uncorrectable. -/
def execConfigWordCheck (n : Node) (r : Fin 8) (w : ConfigUpset) (s : State) : Host.Outcome State Fault Refusal :=
  done s (whenRun n (configWordCheck n r w.word w.flips) s.toBlock)

/-- CAPTURE (R296). GKO_CAPTURE_CTRL.CMD = capture names regions and a device time to capture. -/
def execCapture (n : Node) (freeze : Bool) (regions : BitVec 8) (s : State) : Host.Outcome State Fault Refusal :=
  done s (whenRun n (capture n freeze regions) s.toBlock)

/-- CAPTURE_EDGE (R296). At the first region clock edge at or after T, each named region records its state and may freeze. -/
def execCaptureEdge (n : Node) (r : Fin 8) (cells : List CellIn) (s : State) : Host.Outcome State Fault Refusal :=
  done s (whenRun n (captureEdge n r cells) s.toBlock)

/-- CAPTURE_WRITTEN (R296). Every named region's record is written and DONE is set. -/
def execCaptureWritten (n : Node) (s : State) : Host.Outcome State Fault Refusal :=
  done s (whenRun n (captureWritten n) s.toBlock)

/-- CAPTURE_RESUME (R296). GKO_CAPTURE_CTRL.CMD = resume restarts the clocks of FROZEN regions. -/
def execCaptureResume (n : Node) (s : State) : Host.Outcome State Fault Refusal :=
  done s (whenRun n (captureResume n) s.toBlock)

end Sys2Proof.Machine
end

