-- ==== Sys2Proof/Machine/ExecLog.lean ====
section
/-! DEFINITION. Sys2Proof/Machine/ExecLog.lean: the meanings of the commands of this family, one definition each. -/

namespace Sys2Proof.Machine

/-- LOG_EVENT_WRITE (R270). An aligned 64-bit write of LOG_EVENT posts one EVENT record. -/
def execLogEventWrite (c : Ctx) (n : Node) (d : DWord) (s : State) : Host.Outcome State Fault Refusal :=
  done s (ctxReq c (.row (.logEventWrite c n d)) s.toBlock)

/-- LOG_HOST_COPY (R275). The engine copies a whole record into the host ring and advances WPTR. -/
def execLogHostCopy (n : Node) (s : State) : Host.Outcome State Fault Refusal :=
  done s (whenRun n (logHostCopy n) s.toBlock)

/-- LOG_IRQ_TIMER (R275). TIMER_US after the first unsignalled record, the LOG interrupt is raised. -/
def execLogIrqTimer (n : Node) (s : State) : Host.Outcome State Fault Refusal :=
  done s (logIrqTimer n s.toBlock)

/-- LOG_RPTR_WRITE (R275). A write of LOG_HOST_RPTR frees host ring room, or is refused. -/
def execLogRptrWrite (n : Node) (half : Fin 3) (v : DWord) (s : State) : Host.Outcome State Fault Refusal :=
  done s (hostTlp (.row (.logRptrWrite n half v)) s.toBlock)

/-- LOG_EN_WRITE (R276). Writing LOG_CTRL.EN enables the engine or starts its drain. -/
def execLogEnWrite (n : Node) (en : Bool) (s : State) : Host.Outcome State Fault Refusal :=
  done s (hostTlp (.row (.logEnWrite n en)) s.toBlock)

/-- LOG_DRAIN_DONE (R276). Nothing remains to copy and the engine's STATE reads OFF. -/
def execLogDrainDone (n : Node) (s : State) : Host.Outcome State Fault Refusal :=
  done s (whenRun n (logDrainDone n) s.toBlock)

end Sys2Proof.Machine
end

