-- ==== Sys2Proof/Machine/ExecMemory.lean ====
section
/-! DEFINITION. Sys2Proof/Machine/ExecMemory.lean: the meanings of the commands of this family, one definition each. -/

namespace Sys2Proof.Machine

/-- OWNER_WRITE (R226). Writing STG_BANK_OWNER.OWNER starts a handover of a staging bank. -/
def execOwnerWrite (n : Node) (b : Fin 8) (owner : Fin 32) (s : State) : Host.Outcome State Fault Refusal :=
  done s (hostTlp (.row (.ownerWrite n b owner)) s.toBlock)

/-- STAGING_ACCESS (R225). A staging-bank request is served for the current owner or given the non-owner treatment. -/
def execStagingAccess (n : Node) (m : Fin 32) (al : Fin 3) (req : NetReq) (s : State) : Host.Outcome State Fault Refusal :=
  done s (whenRun n (stagingAccess n m al req) s.toBlock)

/-- STG_TEST_WINDOW (R231). Every INTERVAL µs each bank march-tests one 64-word window and restores it. -/
def execStgTestWindow (n : Node) (fails : BitVec 8) (yielded : Bool) (s : State) : Host.Outcome State Fault Refusal :=
  done s (whenRun n (stgTestWindow n fails yielded) s.toBlock)

/-- RECORD_STORE_ACCESS (R233). A record store request is served with SEC-DED correction. -/
def execRecordStoreAccess (n : Node) (m : Fin 32) (req : NetReq) (s : State) : Host.Outcome State Fault Refusal :=
  done s (whenRun n (recordStoreAccess n m req) s.toBlock)

/-- REC_SCRUB_STEP (R233). The controller scrubs the next record store words of its pass. -/
def execRecScrubStep (n : Node) (s : State) : Host.Outcome State Fault Refusal :=
  done s (recScrubStep n s.toBlock)

/-- REC_CLEAR_DONE (R234). The background clear after a wake finishes and CLEARING reads 0. -/
def execRecClearDone (n : Node) (s : State) : Host.Outcome State Fault Refusal :=
  done s (recClearDone n s.toBlock)

/-- RING_TRIGGER (R236). Writing REC_RING_CTRL.TRIGGER = 1 fires the register trigger source of the ring. -/
def execRingTrigger (n : Node) (r : Fin 32) (s : State) : Host.Outcome State Fault Refusal :=
  done s (hostTlp (.row (.ringTrigger n r)) s.toBlock)

/-- RING_FREEZE (R236). POST KiB after a trigger, the ring sets FROZEN and accepts no data. -/
def execRingFreeze (n : Node) (r : Fin 32) (s : State) : Host.Outcome State Fault Refusal :=
  done s (ringFreeze n r s.toBlock)

/-- RING_RESUME (R236). Writing FROZEN = 1 clears FROZEN and TRIGGERED and appending continues. -/
def execRingResume (n : Node) (r : Fin 32) (s : State) : Host.Outcome State Fault Refusal :=
  done s (hostTlp (.row (.ringResume n r)) s.toBlock)

/-- RING_EN_WRITE (R237). Writing REC_RING_CTRL.EN enables a ring or moves it to DRAINING. -/
def execRingEnWrite (n : Node) (r : Fin 32) (en : Bool) (s : State) : Host.Outcome State Fault Refusal :=
  done s (hostTlp (.row (.ringEnWrite n r en)) s.toBlock)

/-- RING_DRAIN_DONE (R237). The appends issued have landed and the ring's STATE reads OFF. -/
def execRingDrainDone (n : Node) (r : Fin 32) (s : State) : Host.Outcome State Fault Refusal :=
  done s (whenRun n (ringDrainDone n r) s.toBlock)

end Sys2Proof.Machine
end

