-- ==== Sys2Proof/Machine/ExecNetwork.lean ====
section
/-! DEFINITION. Sys2Proof/Machine/ExecNetwork.lean: the meanings of the commands of this family, one definition each. -/

namespace Sys2Proof.Machine

/-- NOC_ISOLATE_WRITE (R371). A write of NOC_ISOLATE isolates or releases endpoints while MAINT allows. -/
def execNocIsolateWrite (n : Node) (k : Fin 8) (w : Word) (s : State) : Host.Outcome State Fault Refusal :=
  done s (hostTlp (.row (.nocIsolateWrite n k w)) s.toBlock)

/-- ROUTER_SWAP (R373). Writing SWAP = 1 holds the router's feeders and drains it for a table swap. -/
def execRouterSwap (n : Node) (r : Fin 48) (s : State) : Host.Outcome State Fault Refusal :=
  done s (hostTlp (.row (.routerSwap n r)) s.toBlock)

/-- SWAP_DRAIN_DONE (R373). The router has drained, the banks are exchanged and the feeders reopen. -/
def execSwapDrainDone (n : Node) (r : Fin 48) (s : State) : Host.Outcome State Fault Refusal :=
  done s (swapDrainDone n r s.toBlock)

/-- NOC_RECONF_STALL (R373). A swap whose drain has not ended within 10 µs is reported. -/
def execNocReconfStall (n : Node) (r : Fin 48) (s : State) : Host.Outcome State Fault Refusal :=
  done s (nocReconfStall n r s.toBlock)

/-- DOMAIN_DOWN_WRITE (R410). Writing GOV_DOMAIN.DOWN powers a domain down or up in Run. -/
def execDomainDownWrite (n : Node) (w : BitVec 4) (s : State) : Host.Outcome State Fault Refusal :=
  done s (hostTlp (.row (.domainDownWrite n w)) s.toBlock)

/-- BRIDGE_CLOSED (R375). Every owed response has left a closing domain, its bridges close and it powers down. -/
def execBridgeClosed (n : Node) (d : Fin 8) (s : State) : Host.Outcome State Fault Refusal :=
  done s (bridgeClosed n d s.toBlock)

end Sys2Proof.Machine
end

