-- ==== Sys2Proof/Machine/ExecPacket.lean ====
section
/-! DEFINITION. Sys2Proof/Machine/ExecPacket.lean: the meanings of the commands of this family, one definition each. -/

namespace Sys2Proof.Machine

/-- HANDOVER_COMMIT (R226). After the old owner's accesses and cache write-backs, CURRENT takes OWNER and PENDING clears. -/
def execHandoverCommit (n : Node) (b : Fin 8) (s : State) : Host.Outcome State Fault Refusal :=
  done s (handoverServe n b s.toBlock)

/-- FABRIC_MASTER_REQUEST (R285). A region issues a request through its master channel. -/
def execFabricMasterRequest (n : Node) (r : Fin 8) (q : TaggedReq) (ans : Option (List (BitVec 8))) (s : State) : Host.Outcome State Fault Refusal :=
  done s (fabricMasterRequest n r q.tag q.req ans s.toBlock)

/-- READ (R363). A READ request reaches its target and is answered with RDATA. -/
def execRead (n : Node) (c : Ctx) (f : BitVec 128) (ans : PacketIn) (s : State) : Host.Outcome State Fault Refusal :=
  done s (nocRead n c f ans s.toBlock)

/-- WRITE (R363). A WRITE header with its WDATA reaches its target as one request and is answered. -/
def execWrite (n : Node) (c : Ctx) (f : BitVec 128) (data : List (BitVec 8)) (ans : PacketIn) (s : State) : Host.Outcome State Fault Refusal :=
  done s (nocWrite n c f data ans s.toBlock)

/-- MSG (R363). A MSG delivers an event to an ACU or the command processor. -/
def execMsg (n : Node) (f : BitVec 128) (msg : MsgIn) (s : State) : Host.Outcome State Fault Refusal :=
  done s (nocMsg n f msg s.toBlock)

/-- ACK (R363). A response reaches its initiator and completes its request, or is discarded if late. -/
def execAck (n : Node) (e : BitVec 8) (tag : BitVec 12) (s : State) : Host.Outcome State Fault Refusal :=
  done s (nocAck n e tag s.toBlock)

/-- HELD (R376). A HELD notice extends the initiator's timeout for a wake. -/
def execHeld (n : Node) (e : BitVec 8) (tag : BitVec 12) (s : State) : Host.Outcome State Fault Refusal :=
  done s (nocHeld n e tag s.toBlock)

/-- SNOOP_INV (R363). A snoop invalidates a data-cache line. -/
def execSnoopInv (n : Node) (f : BitVec 128) (line : BitVec 21) (s : State) : Host.Outcome State Fault Refusal :=
  done s (snoopInv n f line s.toBlock)

/-- SNOOP_WBINV (R363). A snoop writes back and invalidates a data-cache line. -/
def execSnoopWbinv (n : Node) (f : BitVec 128) (line : BitVec 21) (s : State) : Host.Outcome State Fault Refusal :=
  done s (snoopWbinv n f line s.toBlock)

/-- SNOOP_ACK (R363). A snoop acknowledgement returns to its requester. -/
def execSnoopAck (n : Node) (e : BitVec 8) (s : State) : Host.Outcome State Fault Refusal :=
  done s (snoopAck n e s.toBlock)

/-- ROUTER_FORWARD (R369). A router sends the oldest head flit onward, or discards it with NOROUTE or DECERR. -/
def execRouterForward (n : Node) (r : Fin 48) (out : Fin 8) (ins : List RtrIn) (s : State) : Host.Outcome State Fault Refusal :=
  done s (whenRun n (routerForward n r out ins) s.toBlock)

/-- INITIATOR_TIMEOUT (R370). A request unanswered at its limit gets a synthesised RSP_TIMEOUT. -/
def execInitiatorTimeout (n : Node) (e : BitVec 8) (tag : BitVec 12) (s : State) : Host.Outcome State Fault Refusal :=
  done s (initiatorExpire n e tag s.toBlock)

/-- DOMAIN_WAKE_DONE (R376). A domain woken for a held request is up and the held requests are forwarded. -/
def execDomainWakeDone (n : Node) (d : Fin 8) (s : State) : Host.Outcome State Fault Refusal :=
  done s (domainWakeDone n d s.toBlock)

end Sys2Proof.Machine
end

