-- ==== Sys2Proof/Machine/ExecPower.lean ====
section
/-! DEFINITION. Sys2Proof/Machine/ExecPower.lean: the meanings of the commands of this family, one definition each. -/

namespace Sys2Proof.Machine

/-- D3HOT_WRITE (R322). A write of D3hot is taken as a request for Brake or held with D3_HELD. -/
def execD3hotWrite (s : State) : Host.Outcome State Fault Refusal :=
  done s (d3hotWrite s.toBlock)

/-- KEEP_ALIVE_WAKE (R409). A keep-alive wake from the primary wakes a node below Run. -/
def execKeepAliveWake (n : Node) (s : State) : Host.Outcome State Fault Refusal :=
  done s (keepAliveWake n s.toBlock)

/-- SAG_STRETCH (R399). An island's supply drops below SAG_MV and it stretches its clock. -/
def execSagStretch (n : Node) (g : Fin 1096) (d : BitVec 10) (s : State) : Host.Outcome State Fault Refusal :=
  done s (sagStretch n g d s.toBlock)

/-- SAG_RECOVER (R399). After 20 ns below threshold the island shortens its period step by step. -/
def execSagRecover (n : Node) (g : Fin 1096) (s : State) : Host.Outcome State Fault Refusal :=
  done s (sagRecover n g s.toBlock)

/-- SAG_SUSTAINED (R400). An island stretched for SUSTAIN_US makes its compute die's throttle rise. -/
def execSagSustained (n : Node) (d : Fin 4) (s : State) : Host.Outcome State Fault Refusal :=
  done s (sagSustained n d s.toBlock)

/-- THROTTLE_STEP (R400). The throttle level of a die rises every 10 µs or falls every 100 µs. -/
def execThrottleStep (n : Node) (d : Fin 4) (s : State) : Host.Outcome State Fault Refusal :=
  done s (throttleStep n d s.toBlock)

/-- POWER_SAMPLE (R401). Every 10 µs the Governor measures power and raises throttling above the cap. -/
def execPowerSample (n : Node) (dw : Half) (s : State) : Host.Outcome State Fault Refusal :=
  done s (powerSample n dw s.toBlock)

/-- TEMP_SAMPLE (R402). Every 1 ms each die's temperature is read against WARN_C and the trip limit. -/
def execTempSample (n : Node) (t0 t1 t2 t3 io : BitVec 8) (s : State) : Host.Outcome State Fault Refusal :=
  done s (tempSample n t0 t1 t2 t3 io s.toBlock)

/-- RAIL_OUT_OF_RANGE (R403). A monitored rail leaves its range, or VIN falls below 42 V or PWR_FAIL_N falls. -/
def execRailOutOfRange (n : Node) (rail : Option (Fin 18 × Bool)) (pwrFail : Bool) (s : State) : Host.Outcome State Fault Refusal :=
  done s (railOutOfRange n rail pwrFail s.toBlock)

/-- RAIL_FAULT_TIMEOUT (R403). A rail not recovered by the end of the mute or 1 s makes the Governor enter Rest. -/
def execRailFaultTimeout (n : Node) (back : BitVec 9) (s : State) : Host.Outcome State Fault Refusal :=
  done s (railFaultTimeout n back s.toBlock)

/-- VIN_COLLAPSE (R438). VIN below 36 V for 10 µs stops every VIN domain at once. -/
def execVinCollapse (n : Node) (s : State) : Host.Outcome State Fault Refusal :=
  done s (vinCollapse n s.toBlock)

/-- VAUX_LOSS (R439). VAUX below 3.0 V takes the module to Off. -/
def execVauxLoss (n : Node) (s : State) : Host.Outcome State Fault Refusal :=
  done s (vauxLoss n s.toBlock)

/-- GOV_REQ_WRITE (R405). A write of GOV_REQ requests a lower power state. -/
def execGovReqWrite (n : Node) (target : BitVec 3) (all : Bool) (s : State) : Host.Outcome State Fault Refusal :=
  done s (hostTlp (.row (.govReqWrite n target all)) s.toBlock)

/-- POWER_ENTRY_DONE (R406). Clocks stop and power is removed, and GOV_STATE reads the new state. -/
def execPowerEntryDone (n : Node) (s : State) : Host.Outcome State Fault Refusal :=
  done s (powerEntryDone n s.toBlock)

/-- WAKE_N_LOW (R407). WAKE_N low for 100 ns wakes the module. -/
def execWakeNLow (n : Node) (s : State) : Host.Outcome State Fault Refusal :=
  done s (wakeNLow n s.toBlock)

/-- WAKE_TIMER (R407). Device time reaches GOV_WAKE and wakes the module. -/
def execWakeTimer (n : Node) (s : State) : Host.Outcome State Fault Refusal :=
  done s (wakeTimer n s.toBlock)

/-- POWER_EXIT_DONE (R408). The module reaches Run after a wake and tasks and tiles continue or restart. -/
def execPowerExitDone (n : Node) (s : State) : Host.Outcome State Fault Refusal :=
  done s (powerExitServe n s.toBlock)

/-- GOV_CLK_WRITE (R398). A write of GOV_CLK changes island rates at their next cycle boundary. -/
def execGovClkWrite (n : Node) (w : Word) (s : State) : Host.Outcome State Fault Refusal :=
  done s (hostTlp (.row (.govClkWrite n w)) s.toBlock)

/-- BMC_WRITE (R416). An I²C write transaction sets the pointer and writes bytes, including a power request. -/
def execBmcWrite (n : Node) (addr : BitVec 2) (ptr : BitVec 8) (bytes : List (BitVec 8)) (s : State) : Host.Outcome State Fault Refusal :=
  done s (bmcWrite n addr ptr bytes s.toBlock)

/-- VIN_RETURN (R438). VIN comes back within its operating range after having fallen below 42 V on a module that had reached power good. -/
def execVinReturn (n : Node) (s : State) : Host.Outcome State Fault Refusal :=
  done s (vinReturn n s.toBlock)

/-- TLP_WAKE (R321). A host TLP, read or configuration request included, arriving in Idle, Furl or Brake wakes the link and the module. -/
def execTlpWake (s : State) : Host.Outcome State Fault Refusal :=
  done s (tlpWake s.toBlock)

/-- ASPM_L1_ENTRY (R321). After the PCI Express link has been idle for 10 µs in Run or Idle, the endpoint requests ASPM L1. -/
def execAspmL1Entry (en : Bool) (s : State) : Host.Outcome State Fault Refusal :=
  done s (aspmL1Entry en s.toBlock)

end Sys2Proof.Machine
end

