-- ==== Sys2Proof/Machine/ExecQueue.lean ====
section
/-! DEFINITION. Sys2Proof/Machine/ExecQueue.lean: the meanings of the commands of this family, one definition each. -/

namespace Sys2Proof.Machine

/-- SQ_TAIL_WRITE (R327). A submission tail doorbell submits entries, or is discarded with CMD_QUEUE_ERROR. -/
def execSqTailWrite (q : Fin 16) (v : Half) (s : State) : Host.Outcome State Fault Refusal :=
  done s (sqTailBell q v s.toBlock)

/-- CQ_HEAD_WRITE (R327). A completion head doorbell frees completion entries. -/
def execCqHeadWrite (q : Fin 16) (v : Half) (s : State) : Host.Outcome State Fault Refusal :=
  done s (cqHeadBell q v s.toBlock)

/-- QUEUE_EN_WRITE (R328). Writing CMD_Q_CTRL.EN enables a queue pair or starts its drain. -/
def execQueueEnWrite (q : Fin 16) (en : Bool) (s : State) : Host.Outcome State Fault Refusal :=
  done s (queueEnBell q en s.toBlock)

/-- QUEUE_DRAIN_DONE (R328). Every reply of a draining queue is written and STATE reads OFF. -/
def execQueueDrainDone (q : Fin 16) (s : State) : Host.Outcome State Fault Refusal :=
  done s (queueDrainDone q s.toBlock)

end Sys2Proof.Machine
end

