-- ==== Sys2Proof/Machine/ExecRegister.lean ====
section
/-! DEFINITION. Sys2Proof/Machine/ExecRegister.lean: the meanings of the commands of this family, one definition each. -/

namespace Sys2Proof.Machine

/-- REGISTER_WRITE (R5). A write to a register that has no row of its own takes effect by field type, with reserved values handled under R7. -/
def execRegisterWrite (c : Ctx) (b : NetWrite) (s : State) : Host.Outcome State Fault Refusal :=
  done s (registerWrite c b s.toBlock)

/-- RWL_SHADOW_WRITE (R300). A write to an RWL field, direct or through its shadow alias, is accepted into the module's shadow and waits for the next commit. -/
def execRwlShadowWrite (c : Ctx) (b : NetWrite) (s : State) : Host.Outcome State Fault Refusal :=
  done s (rwlShadowWrite c b s.toBlock)

/-- SELECT_WRITE (R337). A write to a select register of a context takes effect for the next access; an out-of-range value is refused. -/
def execSelectWrite (c : Ctx) (q : Option (Fin 16)) (k : Fin 11) (w : Word) (s : State) : Host.Outcome State Fault Refusal :=
  done s (selectWrite c q k w s.toBlock)

/-- COUNTER_CLEAR_WRITE (R5). Writing 1 to a CLEAR field sets that register's error or event counts to 0. -/
def execCounterClearWrite (c : Ctx) (b : NetWrite) (s : State) : Host.Outcome State Fault Refusal :=
  done s (counterClearWrite c b s.toBlock)

/-- BAR2_ACCESS (R17). A host access through BAR2 reaches staging memory or the record store aperture of the selected module. -/
def execBar2Access (req : NetReq) (s : State) : Host.Outcome State Fault Refusal :=
  done s (bar2Access req s.toBlock)

/-- RAM_TEST_WINDOW (R198). Every INTERVAL µs the ACU march-tests one window of local RAM and restores it. -/
def execRamTestWindow (n : Node) (a : AcuIx) (fails yielded : Bool) (s : State) : Host.Outcome State Fault Refusal :=
  done s (whenRun n (ramTestWindow n a fails yielded) s.toBlock)

/-- TASK_EN_WRITE (R202). Writing ACU_TASK_CTRL.EN starts a task at its PC or moves it to DRAINING. -/
def execTaskEnWrite (n : Node) (a : AcuIx) (k : TaskIx) (en : Bool) (s : State) : Host.Outcome State Fault Refusal :=
  done s (hostTlp (.row (.taskEnWrite n a k en)) s.toBlock)

/-- TASK_DRAIN_DONE (R202). A draining task has no instruction, store or float op outstanding, and STATE reads OFF. -/
def execTaskDrainDone (n : Node) (a : AcuIx) (k : TaskIx) (s : State) : Host.Outcome State Fault Refusal :=
  done s (taskDrainDone n a k s.toBlock)

/-- ACU_IPI_WRITE (R179). Writing 1 to a bit of ACU_IPI raises the matching IPI cause. -/
def execAcuIpiWrite (n : Node) (a : AcuIx) (w : Half) (s : State) : Host.Outcome State Fault Refusal :=
  done s (hostTlp (.row (.acuIpiWrite n a w)) s.toBlock)

/-- ACU_BELL_WRITE (R180). A write to ACU_BELL stores MSG and raises cause CMD at the ACU. -/
def execAcuBellWrite (n : Node) (a : AcuIx) (w : Word) (s : State) : Host.Outcome State Fault Refusal :=
  done s (hostTlp (.row (.acuBellWrite n a w)) s.toBlock)

end Sys2Proof.Machine
end

