-- ==== Sys2Proof/Machine/ExecSensor.lean ====
section
/-! DEFINITION. Sys2Proof/Machine/ExecSensor.lean: the meanings of the commands of this family, one definition each. -/

namespace Sys2Proof.Machine

/-- JLINK_EN_WRITE (R247). Writing SP_JLINK_CFG0.EN starts or drains a JESD204C link. -/
def execJlinkEnWrite (n : Node) (k : Fin 16) (en : Bool) (s : State) : Host.Outcome State Fault Refusal :=
  done s (hostTlp (.row (.jlinkEnWrite n k en)) s.toBlock)

/-- JLINK_UP (R249). A receive link aligns after lane lock and SYSREF and comes UP. -/
def execJlinkUp (n : Node) (k : Fin 16) (s : State) : Host.Outcome State Fault Refusal :=
  done s (jlinkUp n k s.toBlock)

/-- JESD_BLOCK_RECEIVE (R248). A receive link takes a 64b/66b block, stamps its samples or discards it on CRC-12 failure. -/
def execJesdBlockReceive (n : Node) (k : Fin 8) (bad : BitVec 8) (octs : List (BitVec 64)) (s : State) : Host.Outcome State Fault Refusal :=
  done s (whenRun n (jesdBlockReceive n k bad octs) s.toBlock)

/-- LANE_ALIGN_LOSS (R249). A lane loses block alignment and its link goes down until realigned. -/
def execLaneAlignLoss (n : Node) (p : Fin 24) (s : State) : Host.Outcome State Fault Refusal :=
  done s (laneAlignLoss n p s.toBlock)

/-- SYSREF_PULSE (R247). A SYSREF pulse leaves at every multiple of PERIOD_NS and is checked against each link's clock. -/
def execSysrefPulse (n : Node) (s : State) : Host.Outcome State Fault Refusal :=
  done s (sysrefPulse n s.toBlock)

/-- LANE_SIGNAL_LOSS (R252). A WSL lane loses signal and its channels are treated as lost. -/
def execLaneSignalLoss (n : Node) (p : Fin 24) (s : State) : Host.Outcome State Fault Refusal :=
  done s (laneSignalLoss n p s.toBlock)

/-- SAMPLES (R252). A WSL SAMPLES packet is taken, checked and its stamped samples passed to the channel engine. -/
def execSamples (n : Node) (p : Fin 24) (bytes : List (BitVec 8)) (period : Nat) (s : State) : Host.Outcome State Fault Refusal :=
  done s (whenRun n (samples n p bytes period) s.toBlock)

/-- TIME_SYNC (R251). Every 1 ms a two-way time exchange keeps the front-end's sample clock on device time. -/
def execTimeSync (n : Node) (p : Fin 24) (x : SyncStep) (s : State) : Host.Outcome State Fault Refusal :=
  done s (whenRun n (timeSync n p x.start x.bytes) s.toBlock)

/-- CONTROL (R251). A WSL CONTROL packet carries front-end register access. -/
def execControl (n : Node) (p : Fin 24) (toFrontEnd : Bool) (bytes : List (BitVec 8)) (s : State) : Host.Outcome State Fault Refusal :=
  done s (whenRun n (control n p toFrontEnd bytes) s.toBlock)

/-- RAW_LANE_WORD (R284). A raw-mode lane half delivers a 64-bit word to its Gecko region. -/
def execRawLaneWord (n : Node) (p : Fin 24) (w : LaneWord) (s : State) : Host.Outcome State Fault Refusal :=
  done s (whenRun n (rawLaneWord n p w.out w.word) s.toBlock)

/-- SENSOR_LANE_LOCK (R245). A sensor lane half gains signal and locks at its quad's rate, moving SP_LANE_STATUS.STATE from NO_SIGNAL or LOCKING to UP. -/
def execSensorLaneLock (n : Node) (p : Fin 24) (s : State) : Host.Outcome State Fault Refusal :=
  done s (sensorLaneLock n p s.toBlock)

end Sys2Proof.Machine
end

