-- ==== Sys2Proof/Machine/ExecSettings.lean ====
section
/-! DEFINITION. Sys2Proof/Machine/ExecSettings.lean: the meanings of the commands of this family, one definition each. -/

namespace Sys2Proof.Machine

/-- SEC_CHALLENGE_READ (R430). A read of SEC_CHALLENGE_0 draws a fresh 32-byte challenge and ends the one before it. -/
def execSecChallengeRead (c : Ctx) (s : State) : Host.Outcome State Fault Refusal :=
  done s (challengeRead c s.toBlock)

/-- MRAM_PATROL (R420). Firmware reads MRAM words, rewriting correctable ones and invalidating uncorrectable copies. -/
def execMramPatrol (n : Node) (addr : BitVec 23) (found : WordCheck) (s : State) : Host.Outcome State Fault Refusal :=
  done s (mramPatrol n addr found s.toBlock)

/-- SEC_UNLOCK (R430). Writing SEC_UNLOCK.GO verifies the response and unlocks the requested scopes. -/
def execSecUnlock (n : Node) (scope : BitVec 3) (s : State) : Host.Outcome State Fault Refusal :=
  done s (hostTlp (.row (.secUnlock n scope)) s.toBlock)

/-- CHALLENGE_EXPIRY (R430). A challenge not used within 60 s expires. -/
def execChallengeExpiry (n : Node) (s : State) : Host.Outcome State Fault Refusal :=
  done s (challengeExpiry n s.toBlock)

/-- DBG_REG_READ (R431). DBG_ACU_REG.CMD = read loads a task register into DBG_ACU_DATA. -/
def execDbgRegRead (n : Node) (a : Fin 16) (k : Fin 64) (reg : BitVec 6) (s : State) : Host.Outcome State Fault Refusal :=
  done s (hostTlp (.row (.dbgRegRead n a k reg)) s.toBlock)

/-- DBG_REG_WRITE (R431). DBG_ACU_REG.CMD = write writes DBG_ACU_DATA into a task register. -/
def execDbgRegWrite (n : Node) (a : Fin 16) (k : Fin 64) (reg : BitVec 6) (s : State) : Host.Outcome State Fault Refusal :=
  done s (hostTlp (.row (.dbgRegWrite n a k reg)) s.toBlock)

end Sys2Proof.Machine
end

