-- ==== Sys2Proof/Machine/ExecStream.lean ====
section
/-! DEFINITION. Sys2Proof/Machine/ExecStream.lean: the meanings of the commands of this family, one definition each. -/

namespace Sys2Proof.Machine

/-- SAMPLE_WRITE_DONE (R259). A container write completes and its lateness is checked against LATE_LIMIT. -/
def execSampleWriteDone (n : Node) (t : Fin 64) (s : State) : Host.Outcome State Fault Refusal :=
  done s (whenRun n (sampleWriteDone n t) s.toBlock)

/-- SAMPLE_LOST_DUE (R260). At a sample's due time plus LATE_LIMIT with no sample, it is written as lost. -/
def execSampleLostDue (n : Node) (c : Fin 16384) (s : State) : Host.Outcome State Fault Refusal :=
  done s (whenRun n (sampleLostDue n c) s.toBlock)

/-- BLOCK_COMPLETE (R262). A complete block's descriptor is written, routes change, interrupts fire, a monitor is armed and copies go to ring and Log. -/
def execBlockComplete (n : Node) (t : Fin 64) (s : State) : Host.Outcome State Fault Refusal :=
  done s (whenRun n (blockComplete n t) s.toBlock)

/-- STREAM_EN_WRITE (R262). Writing CH_STRM_CTRL.EN enables a stream or starts completing its block. -/
def execStreamEnWrite (n : Node) (t : Fin 64) (en : Bool) (s : State) : Host.Outcome State Fault Refusal :=
  done s (hostTlp (.row (.streamEnWrite n t en)) s.toBlock)

/-- STREAM_DRAIN_DONE (R262). A draining stream's last descriptor is written and STATE reads OFF. -/
def execStreamDrainDone (n : Node) (t : Fin 64) (s : State) : Host.Outcome State Fault Refusal :=
  done s (whenRun n (streamDrainDone n t) s.toBlock)

end Sys2Proof.Machine
end

