-- ==== Sys2Proof/Machine/ExecTile.lean ====
section
/-! DEFINITION. Sys2Proof/Machine/ExecTile.lean: the meanings of the commands of this family, one definition each. -/

namespace Sys2Proof.Machine

/-- TILE_CYCLE (R59). A tile executes one microword and its nano-word: PE truth tables, register updates, plane reads and write, generator updates, and sequencing. -/
def execTileCycle (n : Node) (t : TileIx) (s : State) : Host.Outcome State Fault Refusal :=
  done s (tileCycle n t s.toBlock)

/-- EXCHANGE_STEP_ARRIVAL (R42). An exchange step from a neighbouring tile, a wrap path or a Bunel link becomes present at the receiving tile. -/
def execExchangeStepArrival (n : Node) (t : TileIx) (d : Side) (wrap : Bool) (s : State) : Host.Outcome State Fault Refusal :=
  done s (whenRun n (exchangeStepArrival n t d wrap) s.toBlock)

/-- NEWT_WAIT_END (R66). A waiting tile's wait condition (neighbour step, Croak, Wheel buffer or QSETTLE) holds, and its cycle begins. -/
def execNewtWaitEnd (n : Node) (t : TileIx) (s : State) : Host.Outcome State Fault Refusal :=
  done s (whenRun n (newtWaitEnd n t) s.toBlock)

/-- FINAL_GATE (R77). A tile waiting at a FINAL microword passes the gate once the final-enable line is asserted, or abandons the op. -/
def execFinalGate (n : Node) (t : TileIx) (s : State) : Host.Outcome State Fault Refusal :=
  done s (whenRun n (finalGate n t) s.toBlock)

/-- NEWT_EDGE_STALL (R43). A neighbour-handshake wait exceeds WAIT_LIMIT, and Millrace stops the gang. -/
def execNewtEdgeStall (n : Node) (t : TileIx) (s : State) : Host.Outcome State Fault Refusal :=
  done s (whenRun n (newtEdgeStall n t) s.toBlock)

/-- NEWT_WAIT_STALL (R67). A CROAK or WHEEL wait, or a fifth Croak contribution, exceeds WAIT_LIMIT, and Millrace stops the gang. -/
def execNewtWaitStall (n : Node) (t : TileIx) (s : State) : Host.Outcome State Fault Refusal :=
  done s (whenRun n (newtWaitStall n t) s.toBlock)

/-- STORE_CE_WRITEBACK (R87). The corrected store word is written back to the store within 16 tile cycles. -/
def execStoreCeWriteback (n : Node) (t : TileIx) (s : State) : Host.Outcome State Fault Refusal :=
  done s (storeCeWriteback n t s.toBlock)

/-- STORE_PATROL_CHECK (R90). Every 256 tile cycles the Newt checks one store word, correcting it or setting STORE_BAD. -/
def execStorePatrolCheck (n : Node) (t : TileIx) (s : State) : Host.Outcome State Fault Refusal :=
  done s (storePatrolCheck n t s.toBlock)

/-- SCRUB_SLOT (R49). A due scrub slot reads the plane address at CURSOR across all tile rows and advances CURSOR. -/
def execScrubSlot (n : Node) (t : TileIx) (s : State) : Host.Outcome State Fault Refusal :=
  done s (scrubSlot n t s.toBlock)

/-- SCRUB_FORCED_SLOT (R49). After 2^FORCE_LOG2 tile cycles without a free slot, the Newt inserts a scrub cycle of its own. -/
def execScrubForcedSlot (n : Node) (t : TileIx) (s : State) : Host.Outcome State Fault Refusal :=
  done s (scrubForcedSlot n t s.toBlock)

/-- SCRUB_IDLE_WAKE (R49). In Idle and Furl the Newt wakes its clock every 1 ms for one scrub slot. -/
def execScrubIdleWake (n : Node) (t : TileIx) (s : State) : Host.Outcome State Fault Refusal :=
  done s (scrubIdleWake n t s.toBlock)

/-- SCRUB_WRITEBACK (R50). A corrected row is written back in the first free write cycle, unless a nano-word write cancels it. -/
def execScrubWriteback (n : Node) (t : TileIx) (s : State) : Host.Outcome State Fault Refusal :=
  done s (scrubWriteback n t s.toBlock)

/-- SCRUB_EN_WRITE (R51). A write of NEWT_SCRUB_CTRL.EN enables scrub or moves it to DRAINING. -/
def execScrubEnWrite (n : Node) (en : Bool) (s : State) : Host.Outcome State Fault Refusal :=
  done s (hostTlp (.row (.scrubEnWrite n en)) s.toBlock)

/-- SCRUB_DRAIN_DONE (R51). Every tile has finished its scrub slot in progress, and STATE reads OFF. -/
def execScrubDrainDone (n : Node) (s : State) : Host.Outcome State Fault Refusal :=
  done s (scrubDrainDone n s.toBlock)

/-- INSPECTION_READ (R53). NEWT_INSP_CTRL.CMD = read starts a read of a plane row, raw row or PE register of the selected tile. -/
def execInspectionRead (c : Ctx) (n : Node) (t : TileIx) (kind : BitVec 2) (row : BitVec 6) (addr : BitVec 11) (s : State) : Host.Outcome State Fault Refusal :=
  done s (ctxReq c (.row (.inspectionRead c n t kind row addr)) s.toBlock)

/-- INSPECTION_WRITE (R54). NEWT_INSP_CTRL.CMD = write starts a write of a plane row, raw row or PE register, refused while the gang runs. -/
def execInspectionWrite (c : Ctx) (n : Node) (t : TileIx) (kind : BitVec 2) (row : BitVec 6) (addr : BitVec 11) (s : State) : Host.Outcome State Fault Refusal :=
  done s (ctxReq c (.row (.inspectionWrite c n t kind row addr)) s.toBlock)

/-- INSPECTION_DONE (R53). An inspection completes, loading the context's data registers and setting DONE, REFUSED, CE or UE. -/
def execInspectionDone (c : Ctx) (s : State) : Host.Outcome State Fault Refusal :=
  done s (inspectionDone c s.toBlock)

/-- STORE_WORD_READ (R80). NEWT_STORE_CTRL.CMD = read reads one store word through the second read port. -/
def execStoreWordRead (n : Node) (t : TileIx) (store : BitVec 2) (bcast raw : Bool) (addr : BitVec 13) (s : State) : Host.Outcome State Fault Refusal :=
  done s (hostTlp (.row (.storeWordRead n t store bcast raw addr)) s.toBlock)

/-- STORE_WORD_WRITE (R81). NEWT_STORE_CTRL.CMD = write writes one store word of one tile or of all tiles, refused on a running tile. -/
def execStoreWordWrite (n : Node) (t : TileIx) (store : BitVec 2) (bcast raw : Bool) (addr : BitVec 13) (s : State) : Host.Outcome State Fault Refusal :=
  done s (hostTlp (.row (.storeWordWrite n t store bcast raw addr)) s.toBlock)

/-- STORE_VERIFY (R82). NEWT_STORE_CTRL.CMD = verify computes a CRC-32 over the tile's stores into NEWT_STORE_CRC. -/
def execStoreVerify (n : Node) (t : TileIx) (bcast : Bool) (s : State) : Host.Outcome State Fault Refusal :=
  done s (storeVerify n t bcast s.toBlock)

/-- STORE_OP_DONE (R81). A register-path store read, write or verify completes and sets DONE. -/
def execStoreOpDone (n : Node) (t : TileIx) (s : State) : Host.Outcome State Fault Refusal :=
  done s (storeOpDone n t s.toBlock)

/-- DISPATCH (R71). A tile dispatches the next macro-op from its FIFO, setting sequencer state, once the previous routine is done and LEAD allows. -/
def execDispatch (n : Node) (t : TileIx) (s : State) : Host.Outcome State Fault Refusal :=
  done s (dispatchNext n t s.toBlock)

end Sys2Proof.Machine
end

