-- ==== Sys2Proof/Machine/ExecTime.lean ====
section
/-! DEFINITION. Sys2Proof/Machine/ExecTime.lean: the meanings of the commands of this family, one definition each. -/

namespace Sys2Proof.Machine

/-- TIM_NOW_LO_READ (R411). A read of TIM_NOW_LO returns device time and latches TIM_NOW_HI and TIM_NOW_FRAC for the reading context. -/
def execTimNowLoRead (c : Ctx) (s : State) : Host.Outcome State Fault Refusal :=
  done s (timNowRead c s.toBlock)

/-- REF_LOCK (R412). The timebase locks its rate to a valid REFIN. -/
def execRefLock (n : Node) (s : State) : Host.Outcome State Fault Refusal :=
  done s (refLock n s.toBlock)

/-- REFIN_LOSS (R412). REFIN is lost and the timebase enters holdover. -/
def execRefinLoss (n : Node) (s : State) : Host.Outcome State Fault Refusal :=
  done s (refinLoss n s.toBlock)

/-- PPS_EDGE (R413). A PPS_IN edge aligns phase or makes a pending time load. -/
def execPpsEdge (n : Node) (s : State) : Host.Outcome State Fault Refusal :=
  done s (ppsEdge n s.toBlock)

/-- TIM_PPS_LOSS (R413). No PPS edge within 1.1 s of the expected edge is reported. -/
def execTimPpsLoss (n : Node) (s : State) : Host.Outcome State Fault Refusal :=
  done s (timPpsLoss n s.toBlock)

/-- PPS_OUT_PULSE (R413). PPS_OUT rises at each whole second of device time. -/
def execPpsOutPulse (n : Node) (s : State) : Host.Outcome State Fault Refusal :=
  done s (ppsOutPulse n s.toBlock)

/-- TIM_SET_WRITE (R414). Writing TIM_CTRL.SET schedules a load of device time on every node, or is refused. -/
def execTimSetWrite (n : Node) (s : State) : Host.Outcome State Fault Refusal :=
  done s (hostTlp (.row (.timSetWrite n)) s.toBlock)

/-- TIME_LOAD (R414). Device time is loaded from TIM_SET on every node at the PPS edge or 1 s after the write. -/
def execTimeLoad (s : State) : Host.Outcome State Fault Refusal :=
  done s (timeLoad s.toBlock)

/-- TIM_HOLDOVER_LIMIT (R415). The holdover error estimate passes LIMIT_NS. -/
def execTimHoldoverLimit (n : Node) (s : State) : Host.Outcome State Fault Refusal :=
  done s (timHoldoverLimit n s.toBlock)

end Sys2Proof.Machine
end

