-- ==== Sys2Proof/Machine/ExecWeir.lean ====
section
/-! DEFINITION. Sys2Proof/Machine/ExecWeir.lean: the meanings of the commands of this family, one definition each. -/

namespace Sys2Proof.Machine

/-- EPOCH_BOUNDARY (R299). In PERIODIC mode a boundary at each multiple of the period starts a commit or is skipped. -/
def execEpochBoundary (s : State) : Host.Outcome State Fault Refusal :=
  done s (epochBoundary s.toBlock)

/-- WEIR_COMMIT_WRITE (R299). Writing WEIR_CTRL.COMMIT on the primary makes an explicit boundary, held if a commit runs. -/
def execWeirCommitWrite (n : Node) (s : State) : Host.Outcome State Fault Refusal :=
  done s (hostTlp (.row (.weirCommitWrite n)) s.toBlock)

/-- WEIR_DISCARD (R304). Writing WEIR_CTRL.DISCARD drops unsealed shadow writes on every node. -/
def execWeirDiscard (n : Node) (s : State) : Host.Outcome State Fault Refusal :=
  done s (hostTlp (.row (.weirDiscard n)) s.toBlock)

/-- PREPARE (R301). A node takes PREPARE, seals its shadow and publications, records its vote in three copies and sends it. -/
def execPrepareCommit (n : Node) (e0 e1 e2 : BitVec 104) (s : State) : Host.Outcome State Fault Refusal :=
  done s (prepareCommit n e0 e1 e2 s.toBlock)

/-- VOTE (R308). A vote reaches the primary; with every vote YES the primary sends COMMIT with Ta. -/
def execVote (n : Node) (s : State) : Host.Outcome State Fault Refusal :=
  done s (vote n s.toBlock)

/-- COMMIT (R308). A node takes COMMIT and schedules its apply at Ta, or applies at once if late. -/
def execCommit (n : Node) (s : State) : Host.Outcome State Fault Refusal :=
  done s (commitMsg n s.toBlock)

/-- APPLY (R308). At Ta each node applies RWL fields, checks, fronts, node table and E, and signals EPOCH. -/
def execApplyEpoch (s : State) : Host.Outcome State Fault Refusal :=
  done s (applyMsg s.toBlock)

/-- SNAPSHOT_IMAGE_DONE (R314). A node's image ends and its header is written, or WEIR_SNAP_DROP is raised. -/
def execSnapshotImageDone (n dn : Node) (g : GangIx) (s : State) : Host.Outcome State Fault Refusal :=
  done s (snapshotImageDone n dn g s.toBlock)

/-- COMMIT_ACK (R308). A node's acknowledgement of COMMIT reaches the primary. -/
def execCommitAck (n : Node) (s : State) : Host.Outcome State Fault Refusal :=
  done s (commitAck n s.toBlock)

/-- ABANDON (R311). A node takes ABANDON, applies nothing and merges its sealed set back. -/
def execAbandon (n : Node) (s : State) : Host.Outcome State Fault Refusal :=
  done s (abandon n s.toBlock)

/-- VOTE_TIMEOUT (R311). A vote missing at VOTE_US after the boundary fails the commit. -/
def execVoteTimeout (s : State) : Host.Outcome State Fault Refusal :=
  done s (voteTimeout s.toBlock)

/-- COMMIT_LATE (R309). A node that has neither applied nor abandoned by the late limit raises DLM_EPOCH_LATE. -/
def execCommitLate (n : Node) (s : State) : Host.Outcome State Fault Refusal :=
  done s (commitLate n s.toBlock)

/-- OUTCOME_TIMEOUT (R312). A node holding a YES vote with no outcome after VOTE_US + 100 µs becomes ISOLATED. -/
def execOutcomeTimeout (n : Node) (s : State) : Host.Outcome State Fault Refusal :=
  done s (outcomeTimeout n s.toBlock)

/-- PUB_READY (R305). Writing WEIR_PUB_CTRL.READY marks the copy being written ready for the next seal. -/
def execPubReady (n : Node) (p : Fin 32) (copy : Fin 4) (s : State) : Host.Outcome State Fault Refusal :=
  done s (hostTlp (.row (.pubReady n p copy)) s.toBlock)

/-- PUB_EN_WRITE (R307). Writing WEIR_PUB_CTRL.EN enables a publication or starts its drain. -/
def execPubEnWrite (n : Node) (p : Fin 32) (en : Bool) (s : State) : Host.Outcome State Fault Refusal :=
  done s (hostTlp (.row (.pubEnWrite n p en)) s.toBlock)

end Sys2Proof.Machine
end

