-- ==== Sys2Proof/Machine/ExecWheel.lean ====
section
/-! DEFINITION. Sys2Proof/Machine/ExecWheel.lean: the meanings of the commands of this family, one definition each. -/

namespace Sys2Proof.Machine

/-- WHEEL_TRANSFER (R243). A Wheel engine moves a tile's elements between memory and its transfer buffer and makes the buffer ready. -/
def execWheelTransfer (n : Node) (t : TileMove) (s : State) : Host.Outcome State Fault Refusal :=
  done s (whenRun n (wheelTransfer n t.tile t.upto t.way) s.toBlock)

/-- WHEEL_EN_WRITE (R244). Writing WHL_ENG.EN = 0 moves the engine to DRAINING. -/
def execWheelEnWrite (n : Node) (e : Fin 4) (en : Bool) (s : State) : Host.Outcome State Fault Refusal :=
  done s (hostTlp (.row (.wheelEnWrite n e en)) s.toBlock)

/-- WHEEL_DRAIN_DONE (R244). The last latched transfer of a draining engine retires and STATE reads OFF. -/
def execWheelDrainDone (n : Node) (e : Fin 4) (s : State) : Host.Outcome State Fault Refusal :=
  done s (whenRun n (wheelDrainDone n e) s.toBlock)

end Sys2Proof.Machine
end

