-- ==== Sys2Proof/Machine/Dispatch.lean ====
section
/-! DEFINITION. Sys2Proof/Machine/Dispatch.lean: exec, one arm per command. -/

namespace Sys2Proof.Machine

def exec (i : Instr) (s : State) : Host.Outcome State Fault Refusal :=
  match i with
  | .registerWrite c b => Sys2Proof.Machine.execRegisterWrite c b s
  | .rwlShadowWrite c b => Sys2Proof.Machine.execRwlShadowWrite c b s
  | .selectWrite c q k w => Sys2Proof.Machine.execSelectWrite c q k w s
  | .counterClearWrite c b => Sys2Proof.Machine.execCounterClearWrite c b s
  | .bar2Access req => Sys2Proof.Machine.execBar2Access req s
  | .timNowLoRead c => Sys2Proof.Machine.execTimNowLoRead c s
  | .secChallengeRead c => Sys2Proof.Machine.execSecChallengeRead c s
  | .tileCycle n t => Sys2Proof.Machine.execTileCycle n t s
  | .exchangeStepArrival n t d wrap => Sys2Proof.Machine.execExchangeStepArrival n t d wrap s
  | .newtWaitEnd n t => Sys2Proof.Machine.execNewtWaitEnd n t s
  | .finalGate n t => Sys2Proof.Machine.execFinalGate n t s
  | .newtEdgeStall n t => Sys2Proof.Machine.execNewtEdgeStall n t s
  | .newtWaitStall n t => Sys2Proof.Machine.execNewtWaitStall n t s
  | .storeCeWriteback n t => Sys2Proof.Machine.execStoreCeWriteback n t s
  | .storePatrolCheck n t => Sys2Proof.Machine.execStorePatrolCheck n t s
  | .scrubSlot n t => Sys2Proof.Machine.execScrubSlot n t s
  | .scrubForcedSlot n t => Sys2Proof.Machine.execScrubForcedSlot n t s
  | .scrubIdleWake n t => Sys2Proof.Machine.execScrubIdleWake n t s
  | .scrubWriteback n t => Sys2Proof.Machine.execScrubWriteback n t s
  | .scrubEnWrite n en => Sys2Proof.Machine.execScrubEnWrite n en s
  | .scrubDrainDone n => Sys2Proof.Machine.execScrubDrainDone n s
  | .inspectionRead c n t kind row addr => Sys2Proof.Machine.execInspectionRead c n t kind row addr s
  | .inspectionWrite c n t kind row addr => Sys2Proof.Machine.execInspectionWrite c n t kind row addr s
  | .inspectionDone c => Sys2Proof.Machine.execInspectionDone c s
  | .storeWordRead n t store bcast raw addr => Sys2Proof.Machine.execStoreWordRead n t store bcast raw addr s
  | .storeWordWrite n t store bcast raw addr => Sys2Proof.Machine.execStoreWordWrite n t store bcast raw addr s
  | .storeVerify n t bcast => Sys2Proof.Machine.execStoreVerify n t bcast s
  | .storeOpDone n t => Sys2Proof.Machine.execStoreOpDone n t s
  | .dispatch n t => Sys2Proof.Machine.execDispatch n t s
  | .aNop n g => Sys2Proof.Machine.execANop n g s
  | .aEnd n g => Sys2Proof.Machine.execAEnd n g s
  | .aFbar n g => Sys2Proof.Machine.execAFbar n g s
  | .aClrf n g => Sys2Proof.Machine.execAClrf n g s
  | .aGetf n g => Sys2Proof.Machine.execAGetf n g s
  | .aPutf n g => Sys2Proof.Machine.execAPutf n g s
  | .aSetm n g => Sys2Proof.Machine.execASetm n g s
  | .aGetm n g => Sys2Proof.Machine.execAGetm n g s
  | .aAdd n g => Sys2Proof.Machine.execAAdd n g s
  | .aFadd n g => Sys2Proof.Machine.execAFadd n g s
  | .aSub n g => Sys2Proof.Machine.execASub n g s
  | .aFsub n g => Sys2Proof.Machine.execAFsub n g s
  | .aNeg n g => Sys2Proof.Machine.execANeg n g s
  | .aFneg n g => Sys2Proof.Machine.execAFneg n g s
  | .aAbs n g => Sys2Proof.Machine.execAAbs n g s
  | .aFabs n g => Sys2Proof.Machine.execAFabs n g s
  | .aMul n g => Sys2Proof.Machine.execAMul n g s
  | .aFmul n g => Sys2Proof.Machine.execAFmul n g s
  | .aMac n g => Sys2Proof.Machine.execAMac n g s
  | .aFmac n g => Sys2Proof.Machine.execAFmac n g s
  | .aDiv n g => Sys2Proof.Machine.execADiv n g s
  | .aFdiv n g => Sys2Proof.Machine.execAFdiv n g s
  | .aRem n g => Sys2Proof.Machine.execARem n g s
  | .aFsqrt n g => Sys2Proof.Machine.execAFsqrt n g s
  | .aMin n g => Sys2Proof.Machine.execAMin n g s
  | .aFmin n g => Sys2Proof.Machine.execAFmin n g s
  | .aMax n g => Sys2Proof.Machine.execAMax n g s
  | .aFmax n g => Sys2Proof.Machine.execAFmax n g s
  | .aCmp n g => Sys2Proof.Machine.execACmp n g s
  | .aFcmp n g => Sys2Proof.Machine.execAFcmp n g s
  | .aCvt n g => Sys2Proof.Machine.execACvt n g s
  | .aFcvt n g => Sys2Proof.Machine.execAFcvt n g s
  | .aAnd n g => Sys2Proof.Machine.execAAnd n g s
  | .aOr n g => Sys2Proof.Machine.execAOr n g s
  | .aXor n g => Sys2Proof.Machine.execAXor n g s
  | .aNot n g => Sys2Proof.Machine.execANot n g s
  | .aLogic n g => Sys2Proof.Machine.execALogic n g s
  | .aShl n g => Sys2Proof.Machine.execAShl n g s
  | .aShr n g => Sys2Proof.Machine.execAShr n g s
  | .aSar n g => Sys2Proof.Machine.execASar n g s
  | .aRol n g => Sys2Proof.Machine.execARol n g s
  | .aRor n g => Sys2Proof.Machine.execARor n g s
  | .aShli n g => Sys2Proof.Machine.execAShli n g s
  | .aShri n g => Sys2Proof.Machine.execAShri n g s
  | .aSari n g => Sys2Proof.Machine.execASari n g s
  | .aRoli n g => Sys2Proof.Machine.execARoli n g s
  | .aRori n g => Sys2Proof.Machine.execARori n g s
  | .aMov n g => Sys2Proof.Machine.execAMov n g s
  | .aFill n g => Sys2Proof.Machine.execAFill n g s
  | .aSel n g => Sys2Proof.Machine.execASel n g s
  | .aMovn n g upto => Sys2Proof.Machine.execAMovn n g upto s
  | .aCroak n g => Sys2Proof.Machine.execACroak n g s
  | .aCmax n g => Sys2Proof.Machine.execACmax n g s
  | .aFcmax n g => Sys2Proof.Machine.execAFcmax n g s
  | .aCmin n g => Sys2Proof.Machine.execACmin n g s
  | .aFcmin n g => Sys2Proof.Machine.execAFcmin n g s
  | .aCount n g => Sys2Proof.Machine.execACount n g s
  | .aCopy n g upto => Sys2Proof.Machine.execACopy n g upto s
  | .aScan n g upto => Sys2Proof.Machine.execAScan n g upto s
  | .aBfly n g upto => Sys2Proof.Machine.execABfly n g upto s
  | .aFbfly n g upto => Sys2Proof.Machine.execAFbfly n g upto s
  | .aWin n g upto => Sys2Proof.Machine.execAWin n g upto s
  | .aWout n g only => Sys2Proof.Machine.execAWout n g only s
  | .userOp n t cycles => Sys2Proof.Machine.execUserOp n t cycles s
  | .millraceAccept n g => Sys2Proof.Machine.execMillraceAccept n g s
  | .macroOpDelivery n g tn t => Sys2Proof.Machine.execMacroOpDelivery n g tn t s
  | .coldWaveRelease n g => Sys2Proof.Machine.execColdWaveRelease n g s
  | .macroOpRetire n g => Sys2Proof.Machine.execMacroOpRetire n g s
  | .croakResultLatch n g ns => Sys2Proof.Machine.execCroakResultLatch n g ns s
  | .gangEnWrite n g en => Sys2Proof.Machine.execGangEnWrite n g en s
  | .gangStopWrite n g => Sys2Proof.Machine.execGangStopWrite n g s
  | .gangResumeWrite n g => Sys2Proof.Machine.execGangResumeWrite n g s
  | .yieldDecision n g => Sys2Proof.Machine.execYieldDecision n g s
  | .stopComplete n g => Sys2Proof.Machine.execStopComplete n g s
  | .gangDrainDone n g => Sys2Proof.Machine.execGangDrainDone n g s
  | .resumeDiscard n g => Sys2Proof.Machine.execResumeDiscard n g s
  | .add n a k => Sys2Proof.Machine.execAdd n a k s
  | .addc n a k => Sys2Proof.Machine.execAddc n a k s
  | .sub n a k => Sys2Proof.Machine.execSub n a k s
  | .subc n a k => Sys2Proof.Machine.execSubc n a k s
  | .neg n a k => Sys2Proof.Machine.execNeg n a k s
  | .and n a k => Sys2Proof.Machine.execAnd n a k s
  | .or n a k => Sys2Proof.Machine.execOr n a k s
  | .xor n a k => Sys2Proof.Machine.execXor n a k s
  | .andn n a k => Sys2Proof.Machine.execAndn n a k s
  | .shl n a k => Sys2Proof.Machine.execShl n a k s
  | .shr n a k => Sys2Proof.Machine.execShr n a k s
  | .sar n a k => Sys2Proof.Machine.execSar n a k s
  | .rol n a k => Sys2Proof.Machine.execRol n a k s
  | .ror n a k => Sys2Proof.Machine.execRor n a k s
  | .mul n a k => Sys2Proof.Machine.execMul n a k s
  | .mulu n a k => Sys2Proof.Machine.execMulu n a k s
  | .div n a k => Sys2Proof.Machine.execDiv n a k s
  | .divu n a k => Sys2Proof.Machine.execDivu n a k s
  | .divideComplete n a => Sys2Proof.Machine.execDivideComplete n a s
  | .dadd n a k => Sys2Proof.Machine.execDadd n a k s
  | .dsub n a k => Sys2Proof.Machine.execDsub n a k s
  | .dadj n a k => Sys2Proof.Machine.execDadj n a k s
  | .addi n a k => Sys2Proof.Machine.execAddi n a k s
  | .andi n a k => Sys2Proof.Machine.execAndi n a k s
  | .ori n a k => Sys2Proof.Machine.execOri n a k s
  | .xori n a k => Sys2Proof.Machine.execXori n a k s
  | .lui n a k => Sys2Proof.Machine.execLui n a k s
  | .cmpi n a k => Sys2Proof.Machine.execCmpi n a k s
  | .shli n a k => Sys2Proof.Machine.execShli n a k s
  | .shri n a k => Sys2Proof.Machine.execShri n a k s
  | .sari n a k => Sys2Proof.Machine.execSari n a k s
  | .roli n a k => Sys2Proof.Machine.execRoli n a k s
  | .rori n a k => Sys2Proof.Machine.execRori n a k s
  | .ldb n a k way => Sys2Proof.Machine.execLdb n a k way s
  | .ldbu n a k way => Sys2Proof.Machine.execLdbu n a k way s
  | .ldh n a k way => Sys2Proof.Machine.execLdh n a k way s
  | .ldhu n a k way => Sys2Proof.Machine.execLdhu n a k way s
  | .ld n a k way => Sys2Proof.Machine.execLd n a k way s
  | .ldd n a k way => Sys2Proof.Machine.execLdd n a k way s
  | .lwg n a k way => Sys2Proof.Machine.execLwg n a k way s
  | .stb n a k => Sys2Proof.Machine.execStb n a k s
  | .sth n a k => Sys2Proof.Machine.execSth n a k s
  | .st n a k => Sys2Proof.Machine.execSt n a k s
  | .std n a k => Sys2Proof.Machine.execStd n a k s
  | .swg n a k => Sys2Proof.Machine.execSwg n a k s
  | .bCond n a k => Sys2Proof.Machine.execBCond n a k s
  | .call n a k => Sys2Proof.Machine.execCall n a k s
  | .jrl n a k => Sys2Proof.Machine.execJrl n a k s
  | .fadd n a k => Sys2Proof.Machine.execFadd n a k s
  | .fsub n a k => Sys2Proof.Machine.execFsub n a k s
  | .fmul n a k => Sys2Proof.Machine.execFmul n a k s
  | .fmadd n a k => Sys2Proof.Machine.execFmadd n a k s
  | .fdiv n a k => Sys2Proof.Machine.execFdiv n a k s
  | .fsqrt n a k => Sys2Proof.Machine.execFsqrt n a k s
  | .fmin n a k => Sys2Proof.Machine.execFmin n a k s
  | .fmax n a k => Sys2Proof.Machine.execFmax n a k s
  | .fneg n a k => Sys2Proof.Machine.execFneg n a k s
  | .fabs n a k => Sys2Proof.Machine.execFabs n a k s
  | .fcvtF n a k => Sys2Proof.Machine.execFcvtF n a k s
  | .fcvtI n a k => Sys2Proof.Machine.execFcvtI n a k s
  | .fcvtU n a k => Sys2Proof.Machine.execFcvtU n a k s
  | .fcvtFi n a k => Sys2Proof.Machine.execFcvtFi n a k s
  | .fcvtFu n a k => Sys2Proof.Machine.execFcvtFu n a k s
  | .fcmp n a k => Sys2Proof.Machine.execFcmp n a k s
  | .fpReport n a k r => Sys2Proof.Machine.execFpReport n a k r s
  | .wadv n a k => Sys2Proof.Machine.execWadv n a k s
  | .wrev n a k => Sys2Proof.Machine.execWrev n a k s
  | .reti n a k => Sys2Proof.Machine.execReti n a k s
  | .trap n a k => Sys2Proof.Machine.execTrap n a k s
  | .wait n a k => Sys2Proof.Machine.execWait n a k s
  | .sync n a k => Sys2Proof.Machine.execSync n a k s
  | .isync n a k => Sys2Proof.Machine.execIsync n a k s
  | .fbar n a k => Sys2Proof.Machine.execFbar n a k s
  | .mfsr n a k => Sys2Proof.Machine.execMfsr n a k s
  | .mtsr n a k => Sys2Proof.Machine.execMtsr n a k s
  | .millIss n a k => Sys2Proof.Machine.execMillIss n a k s
  | .millRes n a k => Sys2Proof.Machine.execMillRes n a k s
  | .millWait n a k => Sys2Proof.Machine.execMillWait n a k s
  | .millYield n a k => Sys2Proof.Machine.execMillYield n a k s
  | .millResume n a k => Sys2Proof.Machine.execMillResume n a k s
  | .taskWake n a k => Sys2Proof.Machine.execTaskWake n a k s
  | .trapEntry n a k => Sys2Proof.Machine.execTrapEntry n a k s
  | .storeDrain n a way => Sys2Proof.Machine.execStoreDrain n a way s
  | .ramTestWindow n a fails yielded => Sys2Proof.Machine.execRamTestWindow n a fails yielded s
  | .taskEnWrite n a k en => Sys2Proof.Machine.execTaskEnWrite n a k en s
  | .taskDrainDone n a k => Sys2Proof.Machine.execTaskDrainDone n a k s
  | .acuIpiWrite n a w => Sys2Proof.Machine.execAcuIpiWrite n a w s
  | .acuBellWrite n a w => Sys2Proof.Machine.execAcuBellWrite n a w s
  | .ownerWrite n b owner => Sys2Proof.Machine.execOwnerWrite n b owner s
  | .handoverCommit n b => Sys2Proof.Machine.execHandoverCommit n b s
  | .stagingAccess n m al req => Sys2Proof.Machine.execStagingAccess n m al req s
  | .stgTestWindow n fails yielded => Sys2Proof.Machine.execStgTestWindow n fails yielded s
  | .recordStoreAccess n m req => Sys2Proof.Machine.execRecordStoreAccess n m req s
  | .recScrubStep n => Sys2Proof.Machine.execRecScrubStep n s
  | .recClearDone n => Sys2Proof.Machine.execRecClearDone n s
  | .ringTrigger n r => Sys2Proof.Machine.execRingTrigger n r s
  | .ringFreeze n r => Sys2Proof.Machine.execRingFreeze n r s
  | .ringResume n r => Sys2Proof.Machine.execRingResume n r s
  | .ringEnWrite n r en => Sys2Proof.Machine.execRingEnWrite n r en s
  | .ringDrainDone n r => Sys2Proof.Machine.execRingDrainDone n r s
  | .wheelTransfer n t => Sys2Proof.Machine.execWheelTransfer n t s
  | .wheelEnWrite n e en => Sys2Proof.Machine.execWheelEnWrite n e en s
  | .wheelDrainDone n e => Sys2Proof.Machine.execWheelDrainDone n e s
  | .jlinkEnWrite n k en => Sys2Proof.Machine.execJlinkEnWrite n k en s
  | .jlinkUp n k => Sys2Proof.Machine.execJlinkUp n k s
  | .jesdBlockReceive n k bad octs => Sys2Proof.Machine.execJesdBlockReceive n k bad octs s
  | .laneAlignLoss n p => Sys2Proof.Machine.execLaneAlignLoss n p s
  | .sysrefPulse n => Sys2Proof.Machine.execSysrefPulse n s
  | .laneSignalLoss n p => Sys2Proof.Machine.execLaneSignalLoss n p s
  | .samples n p bytes period => Sys2Proof.Machine.execSamples n p bytes period s
  | .timeSync n p x => Sys2Proof.Machine.execTimeSync n p x s
  | .control n p toFrontEnd bytes => Sys2Proof.Machine.execControl n p toFrontEnd bytes s
  | .rawLaneWord n p w => Sys2Proof.Machine.execRawLaneWord n p w s
  | .sampleWriteDone n t => Sys2Proof.Machine.execSampleWriteDone n t s
  | .sampleLostDue n c => Sys2Proof.Machine.execSampleLostDue n c s
  | .blockComplete n t => Sys2Proof.Machine.execBlockComplete n t s
  | .streamEnWrite n t en => Sys2Proof.Machine.execStreamEnWrite n t en s
  | .streamDrainDone n t => Sys2Proof.Machine.execStreamDrainDone n t s
  | .driveFetch n o count => Sys2Proof.Machine.execDriveFetch n o count s
  | .driveSampleDue n o => Sys2Proof.Machine.execDriveSampleDue n o s
  | .drvReadyWrite n o half v => Sys2Proof.Machine.execDrvReadyWrite n o half v s
  | .driveMuteWrite n o => Sys2Proof.Machine.execDriveMuteWrite n o s
  | .driveUnmuteWrite n o => Sys2Proof.Machine.execDriveUnmuteWrite n o s
  | .muteAllWrite n => Sys2Proof.Machine.execMuteAllWrite n s
  | .driveEnWrite n o en => Sys2Proof.Machine.execDriveEnWrite n o en s
  | .inhibitAssert n => Sys2Proof.Machine.execInhibitAssert n s
  | .inhibitRelease n => Sys2Proof.Machine.execInhibitRelease n s
  | .logEventWrite c n d => Sys2Proof.Machine.execLogEventWrite c n d s
  | .logHostCopy n => Sys2Proof.Machine.execLogHostCopy n s
  | .logIrqTimer n => Sys2Proof.Machine.execLogIrqTimer n s
  | .logRptrWrite n half v => Sys2Proof.Machine.execLogRptrWrite n half v s
  | .logEnWrite n en => Sys2Proof.Machine.execLogEnWrite n en s
  | .logDrainDone n => Sys2Proof.Machine.execLogDrainDone n s
  | .fabricContention n track user => Sys2Proof.Machine.execFabricContention n track user s
  | .regionRamRead n r m b w wr oneClock => Sys2Proof.Machine.execRegionRamRead n r m b w wr oneClock s
  | .inboundBeat n port beat period taken => Sys2Proof.Machine.execInboundBeat n port beat period taken s
  | .outboundBeatExpire n port taken => Sys2Proof.Machine.execOutboundBeatExpire n port taken s
  | .fabricMasterRequest n r q ans => Sys2Proof.Machine.execFabricMasterRequest n r q ans s
  | .geckoWindowAccess n r who req data => Sys2Proof.Machine.execGeckoWindowAccess n r who req data s
  | .geckoTrigger n l => Sys2Proof.Machine.execGeckoTrigger n l s
  | .geckoIrqLine n l => Sys2Proof.Machine.execGeckoIrqLine n l s
  | .regionEnWrite n r en => Sys2Proof.Machine.execRegionEnWrite n r en s
  | .regionDrainDone n r => Sys2Proof.Machine.execRegionDrainDone n r s
  | .configWordCheck n r w => Sys2Proof.Machine.execConfigWordCheck n r w s
  | .capture n freeze regions => Sys2Proof.Machine.execCapture n freeze regions s
  | .captureEdge n r cells => Sys2Proof.Machine.execCaptureEdge n r cells s
  | .captureWritten n => Sys2Proof.Machine.execCaptureWritten n s
  | .captureResume n => Sys2Proof.Machine.execCaptureResume n s
  | .epochBoundary => Sys2Proof.Machine.execEpochBoundary s
  | .weirCommitWrite n => Sys2Proof.Machine.execWeirCommitWrite n s
  | .weirDiscard n => Sys2Proof.Machine.execWeirDiscard n s
  | .prepareCommit n e0 e1 e2 => Sys2Proof.Machine.execPrepareCommit n e0 e1 e2 s
  | .vote n => Sys2Proof.Machine.execVote n s
  | .commit n => Sys2Proof.Machine.execCommit n s
  | .applyEpoch => Sys2Proof.Machine.execApplyEpoch s
  | .snapshotImageDone n dn g => Sys2Proof.Machine.execSnapshotImageDone n dn g s
  | .commitAck n => Sys2Proof.Machine.execCommitAck n s
  | .abandon n => Sys2Proof.Machine.execAbandon n s
  | .voteTimeout => Sys2Proof.Machine.execVoteTimeout s
  | .commitLate n => Sys2Proof.Machine.execCommitLate n s
  | .outcomeTimeout n => Sys2Proof.Machine.execOutcomeTimeout n s
  | .pubReady n p copy => Sys2Proof.Machine.execPubReady n p copy s
  | .pubEnWrite n p en => Sys2Proof.Machine.execPubEnWrite n p en s
  | .sqTailWrite q v => Sys2Proof.Machine.execSqTailWrite q v s
  | .cqHeadWrite q v => Sys2Proof.Machine.execCqHeadWrite q v s
  | .queueEnWrite q en => Sys2Proof.Machine.execQueueEnWrite q en s
  | .queueDrainDone q => Sys2Proof.Machine.execQueueDrainDone q s
  | .commandTake q pkt x => Sys2Proof.Machine.execCommandTake q pkt x s
  | .commandCompletion q cid => Sys2Proof.Machine.execCommandCompletion q cid s
  | .nop => Sys2Proof.Machine.execNop s
  | .identify dma => Sys2Proof.Machine.execIdentify dma s
  | .abort => Sys2Proof.Machine.execAbort s
  | .regRead => Sys2Proof.Machine.execRegRead s
  | .regWrite => Sys2Proof.Machine.execRegWrite s
  | .storeSettings data bad dma => Sys2Proof.Machine.execStoreSettings data bad dma s
  | .readSettings dma => Sys2Proof.Machine.execReadSettings dma s
  | .imageWrite data fail dma => Sys2Proof.Machine.execImageWrite data fail dma s
  | .microcodeLoad => Sys2Proof.Machine.execMicrocodeLoad s
  | .bootSelect bad => Sys2Proof.Machine.execBootSelect bad s
  | .gangRun => Sys2Proof.Machine.execGangRun s
  | .gangStop => Sys2Proof.Machine.execGangStop s
  | .gangResume => Sys2Proof.Machine.execGangResume s
  | .gangDisable => Sys2Proof.Machine.execGangDisable s
  | .taskStart => Sys2Proof.Machine.execTaskStart s
  | .taskStop => Sys2Proof.Machine.execTaskStop s
  | .streamCtrl => Sys2Proof.Machine.execStreamCtrl s
  | .driveMute => Sys2Proof.Machine.execDriveMute s
  | .driveUnmute => Sys2Proof.Machine.execDriveUnmute s
  | .epochCommit => Sys2Proof.Machine.execEpochCommit s
  | .epochStage => Sys2Proof.Machine.execEpochStage s
  | .snapshot => Sys2Proof.Machine.execSnapshot s
  | .faultAck => Sys2Proof.Machine.execFaultAck s
  | .faultRead dma => Sys2Proof.Machine.execFaultRead dma s
  | .powerState => Sys2Proof.Machine.execPowerState s
  | .fabricLoad => Sys2Proof.Machine.execFabricLoad s
  | .topologyRead dma => Sys2Proof.Machine.execTopologyRead dma s
  | .topologyRescan => Sys2Proof.Machine.execTopologyRescan s
  | .vectorUnmask v => Sys2Proof.Machine.execVectorUnmask v s
  | .linkTrained n rate width lanes reversed => Sys2Proof.Machine.execLinkTrained n rate width lanes reversed s
  | .functionLevelReset loss => Sys2Proof.Machine.execFunctionLevelReset loss s
  | .d3hotWrite => Sys2Proof.Machine.execD3hotWrite s
  | .d0Write => Sys2Proof.Machine.execD0Write s
  | .perstNAssert n => Sys2Proof.Machine.execPerstNAssert n s
  | .spanLinkUp n l pn pl asym => Sys2Proof.Machine.execSpanLinkUp n l pn pl asym s
  | .spanTrainRetry n l => Sys2Proof.Machine.execSpanTrainRetry n l s
  | .flitReceive n l seq x => Sys2Proof.Machine.execFlitReceive n l seq x s
  | .linkDownDetect n l => Sys2Proof.Machine.execLinkDownDetect n l s
  | .spanLinkEnWrite n l en => Sys2Proof.Machine.execSpanLinkEnWrite n l en s
  | .callPeriod n => Sys2Proof.Machine.execCallPeriod n s
  | .chorusCall n port bytes => Sys2Proof.Machine.execChorusCall n port bytes s
  | .chorusAnswer n port bytes => Sys2Proof.Machine.execChorusAnswer n port bytes s
  | .primaryElection => Sys2Proof.Machine.execPrimaryElection s
  | .lossReport n d => Sys2Proof.Machine.execLossReport n d s
  | .fence n lost => Sys2Proof.Machine.execFence n lost s
  | .primaryUnreachable n => Sys2Proof.Machine.execPrimaryUnreachable n s
  | .frontEndLeave n p => Sys2Proof.Machine.execFrontEndLeave n p s
  | .timeTransfer n l t1 t2 t3 t4 => Sys2Proof.Machine.execTimeTransfer n l t1 t2 t3 t4 s
  | .keepAliveWake n => Sys2Proof.Machine.execKeepAliveWake n s
  | .read n c f ans => Sys2Proof.Machine.execRead n c f ans s
  | .write n c f data ans => Sys2Proof.Machine.execWrite n c f data ans s
  | .msg n f msg => Sys2Proof.Machine.execMsg n f msg s
  | .ack n e tag => Sys2Proof.Machine.execAck n e tag s
  | .held n e tag => Sys2Proof.Machine.execHeld n e tag s
  | .snoopInv n f line => Sys2Proof.Machine.execSnoopInv n f line s
  | .snoopWbinv n f line => Sys2Proof.Machine.execSnoopWbinv n f line s
  | .snoopAck n e => Sys2Proof.Machine.execSnoopAck n e s
  | .routerForward n r out ins => Sys2Proof.Machine.execRouterForward n r out ins s
  | .initiatorTimeout n e tag => Sys2Proof.Machine.execInitiatorTimeout n e tag s
  | .nocIsolateWrite n k w => Sys2Proof.Machine.execNocIsolateWrite n k w s
  | .routerSwap n r => Sys2Proof.Machine.execRouterSwap n r s
  | .swapDrainDone n r => Sys2Proof.Machine.execSwapDrainDone n r s
  | .nocReconfStall n r => Sys2Proof.Machine.execNocReconfStall n r s
  | .domainDownWrite n w => Sys2Proof.Machine.execDomainDownWrite n w s
  | .bridgeClosed n d => Sys2Proof.Machine.execBridgeClosed n d s
  | .domainWakeDone n d => Sys2Proof.Machine.execDomainWakeDone n d s
  | .faultEvent n k => Sys2Proof.Machine.execFaultEvent n k s
  | .quietWindowEnd n src inst => Sys2Proof.Machine.execQuietWindowEnd n src inst s
  | .leakTimer n src => Sys2Proof.Machine.execLeakTimer n src s
  | .escalationTimer n src => Sys2Proof.Machine.execEscalationTimer n src s
  | .faultAckWrite n src => Sys2Proof.Machine.execFaultAckWrite n src s
  | .clearFirst n => Sys2Proof.Machine.execClearFirst n s
  | .blackboxWrite n => Sys2Proof.Machine.execBlackboxWrite n s
  | .dlmArmWrite n m => Sys2Proof.Machine.execDlmArmWrite n m s
  | .dlmDoneWrite n m => Sys2Proof.Machine.execDlmDoneWrite n m s
  | .deadlineExpiry n m => Sys2Proof.Machine.execDeadlineExpiry n m s
  | .dlmEnWrite n m en => Sys2Proof.Machine.execDlmEnWrite n m en s
  | .sagStretch n g d => Sys2Proof.Machine.execSagStretch n g d s
  | .sagRecover n g => Sys2Proof.Machine.execSagRecover n g s
  | .sagSustained n d => Sys2Proof.Machine.execSagSustained n d s
  | .throttleStep n d => Sys2Proof.Machine.execThrottleStep n d s
  | .powerSample n dw => Sys2Proof.Machine.execPowerSample n dw s
  | .tempSample n t0 t1 t2 t3 io => Sys2Proof.Machine.execTempSample n t0 t1 t2 t3 io s
  | .railOutOfRange n rail pwrFail => Sys2Proof.Machine.execRailOutOfRange n rail pwrFail s
  | .railFaultTimeout n back => Sys2Proof.Machine.execRailFaultTimeout n back s
  | .vinCollapse n => Sys2Proof.Machine.execVinCollapse n s
  | .vauxLoss n => Sys2Proof.Machine.execVauxLoss n s
  | .powerGood n recovery straps link => Sys2Proof.Machine.execPowerGood n recovery straps link s
  | .resetNAssert n high recovery addr link => Sys2Proof.Machine.execResetNAssert n high recovery addr link s
  | .govReqWrite n target all => Sys2Proof.Machine.execGovReqWrite n target all s
  | .powerEntryDone n => Sys2Proof.Machine.execPowerEntryDone n s
  | .wakeNLow n => Sys2Proof.Machine.execWakeNLow n s
  | .wakeTimer n => Sys2Proof.Machine.execWakeTimer n s
  | .powerExitDone n => Sys2Proof.Machine.execPowerExitDone n s
  | .reloadDone n => Sys2Proof.Machine.execReloadDone n s
  | .govClkWrite n w => Sys2Proof.Machine.execGovClkWrite n w s
  | .refLock n => Sys2Proof.Machine.execRefLock n s
  | .refinLoss n => Sys2Proof.Machine.execRefinLoss n s
  | .ppsEdge n => Sys2Proof.Machine.execPpsEdge n s
  | .timPpsLoss n => Sys2Proof.Machine.execTimPpsLoss n s
  | .ppsOutPulse n => Sys2Proof.Machine.execPpsOutPulse n s
  | .timSetWrite n => Sys2Proof.Machine.execTimSetWrite n s
  | .timeLoad => Sys2Proof.Machine.execTimeLoad s
  | .timHoldoverLimit n => Sys2Proof.Machine.execTimHoldoverLimit n s
  | .bmcWrite n addr ptr bytes => Sys2Proof.Machine.execBmcWrite n addr ptr bytes s
  | .mramPatrol n addr found => Sys2Proof.Machine.execMramPatrol n addr found s
  | .secUnlock n scope => Sys2Proof.Machine.execSecUnlock n scope s
  | .challengeExpiry n => Sys2Proof.Machine.execChallengeExpiry n s
  | .dbgRegRead n a k reg => Sys2Proof.Machine.execDbgRegRead n a k reg s
  | .dbgRegWrite n a k reg => Sys2Proof.Machine.execDbgRegWrite n a k reg s
  | .sensorLaneLock n p => Sys2Proof.Machine.execSensorLaneLock n p s
  | .vinReturn n => Sys2Proof.Machine.execVinReturn n s
  | .tlpWake => Sys2Proof.Machine.execTlpWake s
  | .aspmL1Entry en => Sys2Proof.Machine.execAspmL1Entry en s

end Sys2Proof.Machine
end

