-- ==== Sys2Proof/Safety.lean ====
section
/-! DEFINITION. Sys2Proof/Safety.lean: what counts as a safe step, and the terms in which the statements are written. -/

namespace Sys2Proof.Machine

/-- The step from `s` answers a next state. -/
def StepSafe (s : State) : Prop := ∃ t, step s = .next t

/-- A command answers a next state. -/
def ExecSafe (i : Instr) (s : State) : Prop := ∃ t, exec i s = .next t

/-- Whatever the queue holds, the command `c` takes the block from `b` to `b'` and leaves the queue as it is.  Since the next
block is named whole, this says the result, the frame and that the command completes. -/
def Gives (c : Instr) (b b' : Block) : Prop :=
  ∀ q : List Instr, exec c { toBlock := b, pending := q } = .next { toBlock := b', pending := q }

/-- Whatever the queue holds, the command `c` answers a next state that leaves the queue as it is and whose block has `P`. -/
def Does (c : Instr) (b : Block) (P : Block → Prop) : Prop := ∃ b', Gives c b b' ∧ P b'

/-- A tile at the start of its cycle: its quiet results are one cycle nearer. -/
def agedTile (s : Block) (tk : Nat) : Block := putTile s tk (ageQuiet (tile s tk))

/-- The oldest step that tile `o` holds for side `d` of tile `tk` has left `o` and is the newest present at `tk`. -/
def stepCrossed (s : Block) (tk o : Nat) (d : Side) (st : ExStep) (rest : List ExStep) : Block :=
  let b := putTile s o { tile s o with outbox := (tile s o).outbox.put (oppSide d) rest }
  putTile b tk { tile b tk with inbox := (tile b tk).inbox.put d ((tile b tk).inbox.get d ++ [st]) }

/-- The same over the wrap path. -/
def stepWrapped (s : Block) (tk o : Nat) (d : Side) (st : ExStep) (rest : List ExStep) : Block :=
  let b := putTile s o { tile s o with wrapOut := (tile s o).wrapOut.put (oppSide d) rest }
  putTile b tk { tile b tk with wrapIn := (tile b tk).wrapIn.put d ((tile b tk).wrapIn.get d ++ [st]) }

/-- The WAIT_LIMIT of a gang, in ns. -/
def waitLimit (s : Block) (n g : Nat) : Nat := wbits (rget s n .MILL_EDGE g) 31 16 * 1000

/-- The block once the inspection of context `c` has started: its fields held, its flags clear, and BUSY set. -/
def inspBegun (s : Block) (c n t cmd kind row addr : Nat) : Block :=
  let h := ctxHome c
  let i := ctxInst c
  let b := fput (fput (fput s h F.NEWT_INSP_CTRL_ADDR i addr) h F.NEWT_INSP_CTRL_ROW i row) h F.NEWT_INSP_CTRL_KIND i kind
  let b := [F.NEWT_INSP_STATUS_DONE, F.NEWT_INSP_STATUS_REFUSED, F.NEWT_INSP_STATUS_CE, F.NEWT_INSP_STATUS_UE].foldl
    (fun s f => inspFlag s c f false) b
  { inspFlag b c F.NEWT_INSP_STATUS_BUSY true with
    insps := b.insps ++ [(c, n, t, BitVec.ofNat 32 (cmd * 2 ^ 30 + kind * 2 ^ 28 + addr % 2048 * 2 ^ 16 + row % 64))] }

/-- The block once the inspection of context `c` has left those in progress, with BUSY clear and DONE set. -/
def inspEnded (s : Block) (c : Nat) : Block :=
  inspFlag (inspFlag { s with insps := s.insps.filter fun p => p.1 != c } c F.NEWT_INSP_STATUS_BUSY false) c
    F.NEWT_INSP_STATUS_DONE true

/-- Op `num`, the oldest of the tile's FIFO, may be dispatched (03 R71, R81; 06 R150-R154; 13 R313). -/
def dispatchReady (s : Block) (n : Node) (t : TileIx) (gn g num : Nat) : Bool :=
  (tile s (tkey n t)).mop.isNone && inRun s n && opLive s gn g num
    && decide (opIndex (gang s gn g) num < fget s gn F.MILL_PACE_LEAD g)
    && !snapHolds s (tkey n t) gn g num && (!tileCold s (tkey n t) || (tile s (tkey n t)).released)
    && !storeHeld s (tkey n t) && decide ((tile s (tkey n t)).phase ≠ .loading)

/-- Op `m`, the oldest that tile `t` of module `tn` has not received, may enter its FIFO (03 R81, 06 R153, 18 R400). -/
def dlvOpen (s : Block) (n : Node) (g : GangIx) (tn : Node) (t : TileIx) (m : Mop) : Bool :=
  (gangTiles s n g).contains (tkey tn t) && opLive s n g m.num && decide ((tile s (tkey tn t)).fifo.length < 64)
    && !storeHeld s (tkey tn t) && decide ((tile s (tkey tn t)).phase ≠ .loading) && !withheld s tn t

/-- The cold tiles of a gang that hold a macro-op and have not been released (06 R154). -/
def coldTiles (s : Block) (n : Node) (g : GangIx) : List Nat :=
  (gangTiles s n g).filter fun tk =>
    tileCold s tk && opComing s n g tk && !(tile s tk).released && decide ((tile s tk).mop = none)

/-- SYSREF came at `t` after any loss of the link's alignment (11 R249). -/
def linkFresh (s : Block) (n k t : Nat) : Bool :=
  match (jlink s n k).lostAt with
  | some l => decide (l < t)
  | none => true

/-- A track has raised no contention in the last 1 ms (12 R281). -/
def contQuiet (s : Block) (n : Node) (track : Fin 1024) : Bool :=
  match mget (fun _ => none) s.contAt (n.val * 1024 + track.val) with
  | some t => decide (t + 1000000 * 2 ^ 16 ≤ s.now)
  | none => true

/-- Port A or (`b`) B of RAM block `m` puts out the word `v` it has read, with the check bits in the ECC shape (12 R297). -/
def ramLatched (s : Block) (n : Node) (r : Fin 8) (m : Fin 64) (b : Bool) (shape w v : Nat) : Block :=
  let chk := if shape = 5 && decide (w < 512) then (ramGet s n r (m * 512 + w)).toNat / 2 ^ 64 else 0
  let x := region s n r
  putRegion s n r { x with out := mput (fun _ => none) x.out (2 * m + b2n b) (some (BitVec.ofNat 72 (v + chk * 2 ^ 64))) }

/-- A request of context `c` is served as it arrives: an ACU's or a region's always; the host's while the primary is in Run or Idle and
not in D3hot, behind no other request that waits (01 R19, 14 R321, R322). -/
def servedNow (s : Block) (c : Ctx) : Bool :=
  match c with
  | .queue _ => !s.d3hot && !(pow s 0).off && decide (pState s 0 < 2) && s.tlpQ.isEmpty
  | _ => true

/-- The block when a request of context `c` is served: one of the host's wakes a primary in Idle (18 R407). -/
def arrived (s : Block) (c : Ctx) : Block :=
  match c with
  | .queue _ => if pState s 0 = 1 then tlpWake s else s
  | _ => s

/-- A packet comes through to its target: its module is its sender's or in the table, and not in Brake, Rest or Off, and the endpoint is not
isolated (16 R367, R371). -/
def comesThrough (s : Block) (f : BitVec 128) : Bool :=
  (flDnode f == flSnode f || nodePresent s (flDnode f))
    && !(pow s (flDnode f)).off && decide (pState s (flDnode f) < 3) && !isolatedEp s (flDnode f) (flDst f)

/-- When the next macro-op of a gang is `opc` with FL = `fl`, every tile is ready, the gate does not hold it and its network is live,
the command `c` runs it as `body` says and reports it done, or stops the gang where a row was uncorrectable.  At the gate it waits; one
that is abandoned ends with nothing changed. -/
def RunsOp (c : Node → GangIx → Instr) (opc fl : Nat) (body : Node → GangIx → Block → List Nat → Mop → Acc × Option Nat) : Prop :=
  ∀ (n : Node) (g : GangIx) (s : Block) (m : Mop),
    (abandonedOp s n g opc fl = none → readyOp s n g opc fl = some m →
      (gated s n g m = false → netLive s n g m = true →
        let r := body n g s (gangTiles s n g) m
        Gives (c n g) s (if r.1.bad then faultStop r.1.st n g (some m.num) SRC.NEWT_PLANE_UE
          else finishOp r.1.st n g m r.1.flags r.2)) ∧
      (gated s n g m = true → Gives (c n g) s s)) ∧
    (abandonedOp s n g opc fl = some m → Gives (c n g) s (abandonOp s n g m))

/-- The word at the PC of task `k`, once it is there, and the block after its fetch: a miss of the instruction cache has been
served. -/
def fetchedAs (s : Block) (n a k : Nat) : Option (Word × Block) :=
  let far := fetchFar s n a (taskPc s n a k)
  if far && !(task s (taskKey n a k)).served then none
  else
    match acuFetch s n a (taskPc s n a k) with
    | .ok w t => some (w, if far then unserve t n a k else t)
    | _ => none

/-- Task `k` of ACU `a` is the one that executes next, no cause is to be taken first, and the word at its PC is `w`, of instruction `o`,
legal in the task's state and held by no interlock; `b` is the block once it is fetched. -/
def AtInstr (s : Block) (n : Node) (a : AcuIx) (k : TaskIx) (o : AOp) (w : Word) (b : Block) : Prop :=
  acuOpen s n a k = true ∧ takeable s n a k = none ∧ fetchedAs (noteSelected s n a k) n a k = some (w, b) ∧
    acuDecode w = some o ∧ (needsTw o = true → pswF b n a k F.ACU_TASK_PSW_TW ≠ 0) ∧ fpInterlock b n a k o w = false

/-- Where the instruction at the PC is `o`, the command `c` has the effect `act` of its word. -/
def Executes (c : Node → AcuIx → TaskIx → Instr) (o : AOp) (act : Word → Block → Nat → Nat → Nat → Block) : Prop :=
  ∀ (n : Node) (a : AcuIx) (k : TaskIx) (s : Block) (w : Word) (b : Block), AtInstr s n a k o w b →
    Gives (c n a k) s (act w b n a k)

/-- The exclusive OR of `p` over a list. -/
def xorOver (l : List Nat) (p : Nat → Bool) : Bool := l.foldl (fun b k => b != p k) false

/-- The ECC memories and the host's memory are in their canonical form: addresses strictly rising, and no entry equal to the 0 that
an unlisted address reads as. -/
def Memory.wf (s : Block) : Bool :=
  mwf (fun _ => 0) s.stg && mwf (fun _ => 0) s.record && mwf (fun _ => 0) s.lram && mwf (fun _ => 0) s.hostMem

end Sys2Proof.Machine
end

