-- ==== Sys2Proof/WellFormed.lean ====
section
/-! DEFINITION. Sys2Proof/WellFormed.lean: the checks on a command's operands that their types do not make. -/

namespace Sys2Proof

/-- A BAR0 write: 32 or 64 bits, aligned to its size (01 R14). -/
def BarWrite.wf (w : BarWrite) : Bool := if w.wide then w.off % 8 == 0 else w.off % 4 == 0

/-- A memory request: 1 to 64 bytes within one aligned 64-byte block (16 R364). -/
def MemReq.wf (r : MemReq) : Bool := decide (1 ≤ r.bytes.length) && decide (r.addr % 64 + r.bytes.length ≤ 64)

/-- The flit of a request as an initiator forms it: AGE, CODE and the reserved bit are 0 (16 R364, R369). -/
def requestFlit (f : BitVec 128) : Bool := f.extractLsb' 48 6 == 0 && f.extractLsb' 60 4 == 0

/-- The operands of a command are such as the spec lets come in.  The commands not named have operands that their types bound. -/
def Instr.wf : Instr → Bool
  | .registerWrite _ b => b.toBarWrite.wf
  | .rwlShadowWrite _ b => b.toBarWrite.wf
  | .counterClearWrite _ b => b.toBarWrite.wf
  | .bar2Access r => r.toMemReq.wf && decide (r.addr < 2 ^ 28)
  | .stagingAccess _ _ _ r => r.toMemReq.wf
  | .recordStoreAccess _ _ r => r.toMemReq.wf
  | .fabricMasterRequest _ _ q ans => q.req.toMemReq.wf && ans.all fun d => q.req.wr || d.length == q.req.bytes.length
  | .geckoWindowAccess _ _ _ r data => r.toMemReq.wf && (r.wr || data.length == r.bytes.length)
  | .chorusCall _ port bytes => decide (port.val < 24) || bytes.length == 64
  | .captureEdge _ _ cells => decide (cells.length ≤ 16384)
  | .read _ _ f _ => requestFlit f
  | .write _ _ f data _ => requestFlit f && decide (data.length ≤ 64)
  | .msg _ f _ => requestFlit f
  | _ => true

end Sys2Proof
end

