-- ==== Sys2Proof/Certificates/Slice0/Obligations.lean ====
section
/-! DEFINITION. Sys2Proof/Certificates/Slice0/Obligations.lean: the statements for the provers. -/

open Sys2Proof Sys2Proof.Machine

/-- In Run, a tile whose op runs and that owes a cycle to a CALL or RET spends that cycle and does nothing else. A tile that owes none fetches its microword and nano-word. If both are read and legal, meet no edge mismatch and need not wait, it runs exactly that cycle; if they must wait it goes into that wait, and a FINAL microword that the gate holds waits before its nano-word is looked at. A reserved or illegal field raises NEWT_MICRO_ILLEGAL and stops the gang; a step against the exchange raises NEWT_EDGE_MISMATCH and stops it; a word that cannot be read stops it with NEWT_STORE_UE. Where the spec leaves the point open, these are the choices of the model: log 62 (uPC after DONE, what a stop leaves of M and F). -/
def Obligations.TileCycleRunsItsMicroword : Prop :=
  (∀ (n : Node) (t : TileIx) (s s2 s3 s4 : Block) (gn g : Nat) (m : Mop) (uw nw : Nat),
    tileOp s (tkey n t) = some (gn, g, m) →
    (tile s (tkey n t)).phase = .run →
    inRun s n = true →
    (tile (agedTile s (tkey n t)) (tkey n t)).owed = 0 →
    fetchStore (agedTile s (tkey n t)) (tkey n t) 0 (tile (agedTile s (tkey n t)) (tkey n t)).upc.toNat = (some uw, s2) →
    microBad (microFields uw) (tile s2 (tkey n t)).cls (tile s2 (tkey n t)).rep (tile s2 (tkey n t)).stack.length = false →
    gateHeld s2 gn g m (tkey n t) (microFields uw) = false →
    fetchStore s2 (tkey n t) 1 (microFields uw).nano = (some nw, s3) →
    nanoBad (nanoFields nw) = false →
    (((nanoFields nw).nop = 3 → edgeMismatch s3 (gangRect s3 gn g) m (tkey n t) (nanoFields nw).dir = false)) →
    cycleWait s3 gn g m (tkey n t) (nanoFields nw) = (none, s4) →
    Gives (.tileCycle n t) s (runCycle s4 gn g m (tkey n t) (microFields uw) (nanoFields nw))) ∧
  (∀ (n : Node) (t : TileIx) (s s2 s3 s4 : Block) (gn g : Nat) (m : Mop) (uw nw : Nat) (why : TWait),
    tileOp s (tkey n t) = some (gn, g, m) →
    (tile s (tkey n t)).phase = .run →
    inRun s n = true →
    (tile (agedTile s (tkey n t)) (tkey n t)).owed = 0 →
    fetchStore (agedTile s (tkey n t)) (tkey n t) 0 (tile (agedTile s (tkey n t)) (tkey n t)).upc.toNat = (some uw, s2) →
    microBad (microFields uw) (tile s2 (tkey n t)).cls (tile s2 (tkey n t)).rep (tile s2 (tkey n t)).stack.length = false →
    gateHeld s2 gn g m (tkey n t) (microFields uw) = false →
    fetchStore s2 (tkey n t) 1 (microFields uw).nano = (some nw, s3) →
    nanoBad (nanoFields nw) = false →
    (((nanoFields nw).nop = 3 → edgeMismatch s3 (gangRect s3 gn g) m (tkey n t) (nanoFields nw).dir = false)) →
    cycleWait s3 gn g m (tkey n t) (nanoFields nw) = (some why, s4) →
    Gives (.tileCycle n t) s (waitFor s4 (tkey n t) why)) ∧
  (∀ (n : Node) (t : TileIx) (s : Block) (gn g : Nat) (m : Mop),
    tileOp s (tkey n t) = some (gn, g, m) →
    (tile s (tkey n t)).phase = .run →
    inRun s n = true →
    (tile (agedTile s (tkey n t)) (tkey n t)).owed ≠ 0 →
    Gives (.tileCycle n t) s (putTile (agedTile s (tkey n t)) (tkey n t)
      { tile (agedTile s (tkey n t)) (tkey n t) with owed := (tile (agedTile s (tkey n t)) (tkey n t)).owed - 1 })) ∧
  (∀ (n : Node) (t : TileIx) (s s2 : Block) (gn g : Nat) (m : Mop) (uw : Nat),
    tileOp s (tkey n t) = some (gn, g, m) →
    (tile s (tkey n t)).phase = .run →
    inRun s n = true →
    (tile (agedTile s (tkey n t)) (tkey n t)).owed = 0 →
    fetchStore (agedTile s (tkey n t)) (tkey n t) 0 (tile (agedTile s (tkey n t)) (tkey n t)).upc.toNat = (some uw, s2) →
    microBad (microFields uw) (tile s2 (tkey n t)).cls (tile s2 (tkey n t)).rep (tile s2 (tkey n t)).stack.length = true →
    Gives (.tileCycle n t) s (faultStopTile (raise s2 (tkey n t / 1024) SRC.NEWT_MICRO_ILLEGAL (tkey n t % 1024) 0) (tkey n t)
      SRC.NEWT_MICRO_ILLEGAL)) ∧
  (∀ (n : Node) (t : TileIx) (s s2 : Block) (gn g : Nat) (m : Mop) (uw : Nat),
    tileOp s (tkey n t) = some (gn, g, m) →
    (tile s (tkey n t)).phase = .run →
    inRun s n = true →
    (tile (agedTile s (tkey n t)) (tkey n t)).owed = 0 →
    fetchStore (agedTile s (tkey n t)) (tkey n t) 0 (tile (agedTile s (tkey n t)) (tkey n t)).upc.toNat = (some uw, s2) →
    microBad (microFields uw) (tile s2 (tkey n t)).cls (tile s2 (tkey n t)).rep (tile s2 (tkey n t)).stack.length = false →
    gateHeld s2 gn g m (tkey n t) (microFields uw) = true →
    Gives (.tileCycle n t) s (waitFor s2 (tkey n t) .gate)) ∧
  (∀ (n : Node) (t : TileIx) (s s2 s3 : Block) (gn g : Nat) (m : Mop) (uw nw : Nat),
    tileOp s (tkey n t) = some (gn, g, m) →
    (tile s (tkey n t)).phase = .run →
    inRun s n = true →
    (tile (agedTile s (tkey n t)) (tkey n t)).owed = 0 →
    fetchStore (agedTile s (tkey n t)) (tkey n t) 0 (tile (agedTile s (tkey n t)) (tkey n t)).upc.toNat = (some uw, s2) →
    microBad (microFields uw) (tile s2 (tkey n t)).cls (tile s2 (tkey n t)).rep (tile s2 (tkey n t)).stack.length = false →
    gateHeld s2 gn g m (tkey n t) (microFields uw) = false →
    fetchStore s2 (tkey n t) 1 (microFields uw).nano = (some nw, s3) →
    nanoBad (nanoFields nw) = true →
    Gives (.tileCycle n t) s (faultStopTile (raise s3 (tkey n t / 1024) SRC.NEWT_MICRO_ILLEGAL (tkey n t % 1024) 0) (tkey n t)
      SRC.NEWT_MICRO_ILLEGAL)) ∧
  (∀ (n : Node) (t : TileIx) (s s2 s3 : Block) (gn g : Nat) (m : Mop) (uw nw : Nat),
    tileOp s (tkey n t) = some (gn, g, m) →
    (tile s (tkey n t)).phase = .run →
    inRun s n = true →
    (tile (agedTile s (tkey n t)) (tkey n t)).owed = 0 →
    fetchStore (agedTile s (tkey n t)) (tkey n t) 0 (tile (agedTile s (tkey n t)) (tkey n t)).upc.toNat = (some uw, s2) →
    microBad (microFields uw) (tile s2 (tkey n t)).cls (tile s2 (tkey n t)).rep (tile s2 (tkey n t)).stack.length = false →
    gateHeld s2 gn g m (tkey n t) (microFields uw) = false →
    fetchStore s2 (tkey n t) 1 (microFields uw).nano = (some nw, s3) →
    nanoBad (nanoFields nw) = false →
    (nanoFields nw).nop = 3 →
    edgeMismatch s3 (gangRect s3 gn g) m (tkey n t) (nanoFields nw).dir = true →
    Gives (.tileCycle n t) s (faultStopTile (raise s3 (tkey n t / 1024) SRC.NEWT_EDGE_MISMATCH (tkey n t % 1024) 0) (tkey n t)
      SRC.NEWT_EDGE_MISMATCH)) ∧
  (∀ (n : Node) (t : TileIx) (s s2 : Block) (gn g : Nat) (m : Mop),
    tileOp s (tkey n t) = some (gn, g, m) →
    (tile s (tkey n t)).phase = .run →
    inRun s n = true →
    (tile (agedTile s (tkey n t)) (tkey n t)).owed = 0 →
    fetchStore (agedTile s (tkey n t)) (tkey n t) 0 (tile (agedTile s (tkey n t)) (tkey n t)).upc.toNat = (none, s2) →
    Gives (.tileCycle n t) s (faultStopTile s2 (tkey n t) SRC.NEWT_STORE_UE)) ∧
  (∀ (n : Node) (t : TileIx) (s s2 s3 : Block) (gn g : Nat) (m : Mop) (uw : Nat),
    tileOp s (tkey n t) = some (gn, g, m) →
    (tile s (tkey n t)).phase = .run →
    inRun s n = true →
    (tile (agedTile s (tkey n t)) (tkey n t)).owed = 0 →
    fetchStore (agedTile s (tkey n t)) (tkey n t) 0 (tile (agedTile s (tkey n t)) (tkey n t)).upc.toNat = (some uw, s2) →
    microBad (microFields uw) (tile s2 (tkey n t)).cls (tile s2 (tkey n t)).rep (tile s2 (tkey n t)).stack.length = false →
    gateHeld s2 gn g m (tkey n t) (microFields uw) = false →
    fetchStore s2 (tkey n t) 1 (microFields uw).nano = (none, s3) →
    Gives (.tileCycle n t) s (faultStopTile s3 (tkey n t) SRC.NEWT_STORE_UE))

/-- In Run: the oldest step a tile holds for its neighbour becomes the newest present there, inside one gang, across a CONT side (where a step against the exchange raises NEWT_EDGE_MISMATCH and stops the gang), and over the wrap path; at a module edge a link must be UP. A tile that waits for its neighbour sends its step as soon as there is room, and goes on waiting for the step that enters. A waiting tile whose condition holds runs again, a QSETTLE wait with the newest quiet result visible. A tile at the final gate runs on once final-enable is asserted, or, its op abandoned, ends with scratch, A, C and N undefined. A wait whose condition does not hold past WAIT_LIMIT raises NEWT_EDGE_STALL or NEWT_WAIT_STALL and stops the gang. Where the spec leaves the point open, these are the choices of the model: log 62 (the wrap path, waits of whole ops, the final-phase gate, what a stall leaves), log 1 (the moment of an event, and a command whose condition does not hold). -/
def Obligations.TileWaitsAndStepsComplete : Prop :=
  (∀ (n : Node) (t : TileIx) (d : Side) (s : Block) (o : Nat) (st : ExStep) (rest : List ExStep),
    inRun s n = true →
    neighbour s (tkey n t) d = some o →
    (tile s o).outbox.get (oppSide d) = st :: rest →
    edgeLive s (tkey n t) d o = true →
    tileOwner s (tkey n t) ≠ none →
    tileOwner s (tkey n t) = tileOwner s o →
    usesCont s (tkey n t) d = false →
    Gives (.exchangeStepArrival n t d false) s (stepCrossed s (tkey n t) o d st rest)) ∧
  (∀ (n : Node) (t : TileIx) (d : Side) (s : Block) (o : Nat) (st : ExStep) (rest : List ExStep),
    inRun s n = true →
    neighbour s (tkey n t) d = some o →
    (tile s o).outbox.get (oppSide d) = st :: rest →
    edgeLive s (tkey n t) d o = true →
    usesCont s (tkey n t) d = true →
    arrivalAgainst (stepCrossed s (tkey n t) o d st rest) (tkey n t) d = false →
    Gives (.exchangeStepArrival n t d false) s (stepCrossed s (tkey n t) o d st rest)) ∧
  (∀ (n : Node) (t : TileIx) (d : Side) (s : Block) (o : Nat) (st : ExStep) (rest : List ExStep),
    inRun s n = true →
    neighbour s (tkey n t) d = some o →
    (tile s o).outbox.get (oppSide d) = st :: rest →
    edgeLive s (tkey n t) d o = true →
    usesCont s (tkey n t) d = true →
    arrivalAgainst (stepCrossed s (tkey n t) o d st rest) (tkey n t) d = true →
    Gives (.exchangeStepArrival n t d false) s (edgeAgainst (stepCrossed s (tkey n t) o d st rest) (tkey n t))) ∧
  (∀ (n : Node) (t : TileIx) (d : Side) (s : Block) (gn g o : Nat) (st : ExStep) (rest : List ExStep),
    inRun s n = true →
    tileOwner s (tkey n t) = some (gn, g) →
    wrapTile s (gangRect s gn g) (tkey n t) d = some o →
    (tile s o).wrapOut.get (oppSide d) = st :: rest →
    Gives (.exchangeStepArrival n t d true) s (stepWrapped s (tkey n t) o d st rest)) ∧
  (∀ (n : Node) (t : TileIx) (s b : Block),
    inRun s n = true →
    b = nbrSend s (tkey n t) →
    (tile b (tkey n t)).phase = .wait →
    (tile b (tkey n t)).wait ≠ .qsettle →
    waitOver b (tkey n t) = true →
    Gives (.newtWaitEnd n t) s (putTile b (tkey n t) { tile b (tkey n t) with phase := .run, wait := .none })) ∧
  (∀ (n : Node) (t : TileIx) (s : Block) (v : Bool) (k : Nat),
    inRun s n = true →
    (tile s (tkey n t)).phase = .wait →
    (tile s (tkey n t)).wait = .qsettle →
    (tile s (tkey n t)).qpend.getLast? = some (v, k) →
    Gives (.newtWaitEnd n t) s (putTile s (tkey n t) { tile s (tkey n t) with qr := v, qpend := [], phase := .run, wait := .none })) ∧
  (∀ (n : Node) (t : TileIx) (s : Block) (gn g : Nat) (m : Mop) (w : NanoF),
    (tile s (tkey n t)).phase = .wait →
    (tile s (tkey n t)).wait = .nbr →
    (tile s (tkey n t)).sent = false →
    tileOp s (tkey n t) = some (gn, g, m) →
    nextNano s (tkey n t) = some w →
    nbrSend s (tkey n t) = if sendRoom s (gangRect s gn g) m (tkey n t) w.dir then sendStep s (gangRect s gn g) m (tkey n t) w.dir else s) ∧
  (∀ (n : Node) (t : TileIx) (s : Block) (gn g : Nat) (m : Mop),
    inRun s n = true →
    tileOp s (tkey n t) = some (gn, g, m) →
    (tile s (tkey n t)).phase = .wait →
    (tile s (tkey n t)).wait = .gate →
    ((gang s gn g).abandon = false ∨ (gang s gn g).frontier ≠ some m.num) →
    (gang s gn g).finalEnable = true →
    Gives (.finalGate n t) s (putTile s (tkey n t) { tile s (tkey n t) with phase := .run, wait := .none })) ∧
  (∀ (n : Node) (t : TileIx) (s : Block) (gn g : Nat) (m : Mop),
    inRun s n = true →
    tileOp s (tkey n t) = some (gn, g, m) →
    (tile s (tkey n t)).phase = .wait →
    (tile s (tkey n t)).wait = .gate →
    (gang s gn g).abandon = true →
    (gang s gn g).frontier = some m.num →
    Gives (.finalGate n t) s (clobber (putTile s (tkey n t)
      { tile s (tkey n t) with phase := .idle, wait := .none, mop := none, rep := false, stack := [] }) (tkey n t))) ∧
  (∀ (n : Node) (t : TileIx) (s b : Block) (gn g : Nat),
    inRun s n = true →
    b = nbrSend s (tkey n t) →
    tileOwner b (tkey n t) = some (gn, g) →
    (tile b (tkey n t)).phase = .wait →
    ((tile b (tkey n t)).wait = .nbr ∨ (tile b (tkey n t)).wait = .cont) →
    waitOver b (tkey n t) = false →
    waitLimit b gn g ≠ 0 →
    Gives (.newtEdgeStall n t) s (faultStopTile (raise (atTime b ((tile b (tkey n t)).since + waitLimit b gn g * 65536 + 1))
      (tkey n t / 1024) SRC.NEWT_EDGE_STALL (tkey n t % 1024) 0) (tkey n t) SRC.NEWT_EDGE_STALL)) ∧
  (∀ (n : Node) (t : TileIx) (s b : Block) (gn g : Nat),
    inRun s n = true →
    b = nbrSend s (tkey n t) →
    tileOwner b (tkey n t) = some (gn, g) →
    (tile b (tkey n t)).phase = .wait →
    ((tile b (tkey n t)).wait = .croak ∨ (tile b (tkey n t)).wait = .wheel) →
    waitOver b (tkey n t) = false →
    waitLimit b gn g ≠ 0 →
    Gives (.newtWaitStall n t) s (faultStopTile (raise (atTime b ((tile b (tkey n t)).since + waitLimit b gn g * 65536 + 1))
      (tkey n t / 1024) SRC.NEWT_WAIT_STALL (tkey n t % 1024) 0) (tkey n t) SRC.NEWT_WAIT_STALL))

/-- A corrected store word waiting for its write-back is stored and leaves the queue. In Run the patrol goes on to its next word, micro-store, nano-store, then dispatch table, and with scrub ON fetches, and so corrects, the word it was at; in Idle and Furl a wake does the same after a scrub slot. With scrub ON a scrub slot in Run, due or forced, rewrites the rows of the repair queue, reads the 64 rows at CURSOR, and advances CURSOR modulo 2,048, counting a pass at its end; with scrub OFF it does nothing. The rows a slot corrected are stored. A write of EN = 1 turns OFF to ON, of EN = 0 ON to DRAINING, and DRAINING ends OFF once no tile of the module has a row to write back. Where the spec leaves the point open, these are the choices of the model: log 34 (one row or word a command), log 62 (a queued row that has become uncorrectable, a second fetch, reported rows), log 1 (the moment of an event, and a command whose condition does not hold). -/
def Obligations.StoreAndScrubUpkeep : Prop :=
  (∀ (n : Node) (t : TileIx) (s : Block) (st ad w : Nat) (rest : List (Nat × Nat × Nat)),
    (tile s (tkey n t)).storeWb = (st, ad, w) :: rest →
    Gives (.storeCeWriteback n t) s (storePut (putTile s (tkey n t) { tile s (tkey n t) with storeWb := rest }) (tkey n t) st ad w)) ∧
  (∀ (n : Node) (t : TileIx) (s : Block),
    inRun s n = true →
    let p := (tile s (tkey n t)).patrol
    let b := putTile s (tkey n t) { tile s (tkey n t) with patrol := if p = 10751 then 0 else p + 1 }
    let store := if p < 8192 then 0 else if p < 10240 then 1 else 2
    Gives (.storePatrolCheck n t) s
      (if fget b n F.NEWT_SCRUB_CTRL_STATE = 2 then (fetchStore b (tkey n t) store (p - storeBase store)).2 else b)) ∧
  (∀ (n : Node) (t : TileIx) (s : Block),
    inRun s n = true →
    fget s n F.NEWT_SCRUB_CTRL_STATE = 2 →
    let addr := fget (repairRows s (tkey n t)) n F.NEWT_SCRUB_STATUS_CURSOR t
    let b := (List.range 64).foldl (scrubRow (tile s (tkey n t)).repair (tkey n t) addr) (repairRows s (tkey n t))
    let b' := fput (if addr = 2047 then fwrap b n F.NEWT_SCRUB_STATUS_PASSES t else b) n F.NEWT_SCRUB_STATUS_CURSOR t ((addr + 1) % 2048)
    Gives (.scrubSlot n t) s b' ∧ Gives (.scrubForcedSlot n t) s b') ∧
  (∀ (n : Node) (t : TileIx) (s : Block),
    inRun s n = true →
    fget s n F.NEWT_SCRUB_CTRL_STATE ≠ 2 →
    Gives (.scrubSlot n t) s s ∧ Gives (.scrubForcedSlot n t) s s) ∧
  (∀ (n : Node) (t : TileIx) (s : Block),
    (fget s n F.GOV_STATE_STATE = 1 ∨ fget s n F.GOV_STATE_STATE = 2) →
    fget s n F.NEWT_SCRUB_CTRL_STATE = 2 →
    let addr := fget (repairRows s (tkey n t)) n F.NEWT_SCRUB_STATUS_CURSOR t
    let b := (List.range 64).foldl (scrubRow (tile s (tkey n t)).repair (tkey n t) addr) (repairRows s (tkey n t))
    let b' := fput (if addr = 2047 then fwrap b n F.NEWT_SCRUB_STATUS_PASSES t else b) n F.NEWT_SCRUB_STATUS_CURSOR t ((addr + 1) % 2048)
    Gives (.scrubIdleWake n t) s (patrolWord b' (tkey n t))) ∧
  (∀ (n : Node) (t : TileIx) (s : Block),
    Gives (.scrubWriteback n t) s ((tile s (tkey n t)).scrubWb.foldl (fun s p => rowPutRaw s (tkey n t) p.1 p.2.1 p.2.2)
      (putTile s (tkey n t) { tile s (tkey n t) with scrubWb := [] }))) ∧
  (∀ (n : Node) (s : Block),
    takenNow s n 0x5 = true →
    fget s n F.NEWT_SCRUB_CTRL_STATE = 0 →
    Gives (.scrubEnWrite n true) s (fput (fput s n F.NEWT_SCRUB_CTRL_EN 0 1) n F.NEWT_SCRUB_CTRL_STATE 0 2)) ∧
  (∀ (n : Node) (s : Block),
    takenNow s n 0x5 = true →
    fget s n F.NEWT_SCRUB_CTRL_STATE = 2 →
    Gives (.scrubEnWrite n false) s (fput (fput s n F.NEWT_SCRUB_CTRL_EN 0 0) n F.NEWT_SCRUB_CTRL_STATE 0 1)) ∧
  (∀ (n : Node) (s : Block),
    fget s n F.NEWT_SCRUB_CTRL_STATE = 1 →
    (s.tiles.all fun p => p.1 / 1024 != n.val || p.2.scrubWb.isEmpty) = true →
    Gives (.scrubDrainDone n) s (fput s n F.NEWT_SCRUB_CTRL_STATE 0 0))

/-- An inspection that finds its context not busy and names a legal kind and register clears DONE, REFUSED, CE and UE, holds ADDR, ROW and KIND, sets BUSY and joins those in progress. When it completes with none before it on its tile, BUSY clears, DONE sets, and a read loads its data, a write of a tile of no gang or of a stopped gang stores it, and a write of another sets REFUSED; with the planes unpowered REFUSED sets and a read loads ones. A store read, write or verify of a tile with none in progress holds its fields and sets BUSY. Completing, it clears BUSY, sets DONE, and: refused, sets REFUSED alone; a read loads the word, raw or corrected with CE or UE; a write of one tile stores the word, of all tiles stores it in each; a verify loads the CRC. A dispatch gives the next op of the FIFO the state of R71. Where the spec leaves the point open, these are the choices of the model: log 34 (one step), log 62 (data taken as the operation completes, DONE and REFUSED left set, a broadcast with a reserved STORE). -/
def Obligations.InspectionsAndStoreAccesses : Prop :=
  (∀ (c : Ctx) (n : Node) (t : TileIx) (kind : BitVec 2) (row : BitVec 6) (addr : BitVec 11) (s : Block),
    takenBy s c n 0x5 = true →
    fbit s (ctxHome (ctxNum c)) F.NEWT_INSP_STATUS_BUSY (ctxInst (ctxNum c)) = false →
    (kind.toNat < 2 ∨ kind.toNat = 2 ∧ addr.toNat ≤ 4) →
    Gives (.inspectionRead c n t kind row addr) s (inspBegun s (ctxNum c) n t 1 kind.toNat row.toNat addr.toNat) ∧
    Gives (.inspectionWrite c n t kind row addr) s (inspBegun s (ctxNum c) n t 2 kind.toNat row.toNat addr.toNat)) ∧
  (∀ (c : Ctx) (s : Block) (p : Nat) (n t : Nat) (w : Word),
    (s.insps.find? fun p => p.1 == ctxNum c) = some (p, n, t, w) →
    ((s.insps.takeWhile fun p => p.1 != ctxNum c).any fun p => p.2.1 == n && p.2.2.1 == t) = false →
    wbits w 31 30 = 1 →
    planesOff (inspEnded s (ctxNum c)) n = false →
    Gives (.inspectionDone c) s (inspRead (inspEnded s (ctxNum c)) (ctxNum c) (tkey n t) (wbits w 29 28) (wbits w 5 0) (wbits w 26 16))) ∧
  (∀ (c : Ctx) (s : Block) (p : Nat) (n t : Nat) (w : Word),
    (s.insps.find? fun p => p.1 == ctxNum c) = some (p, n, t, w) →
    ((s.insps.takeWhile fun p => p.1 != ctxNum c).any fun p => p.2.1 == n && p.2.2.1 == t) = false →
    wbits w 31 30 = 2 →
    planesOff (inspEnded s (ctxNum c)) n = false →
    tileStopped (inspEnded s (ctxNum c)) (tkey n t) = true →
    Gives (.inspectionDone c) s (inspWrite (inspEnded s (ctxNum c)) (ctxNum c) (tkey n t) (wbits w 29 28) (wbits w 5 0) (wbits w 26 16))) ∧
  (∀ (c : Ctx) (s : Block) (p : Nat) (n t : Nat) (w : Word),
    (s.insps.find? fun p => p.1 == ctxNum c) = some (p, n, t, w) →
    ((s.insps.takeWhile fun p => p.1 != ctxNum c).any fun p => p.2.1 == n && p.2.2.1 == t) = false →
    wbits w 31 30 = 2 →
    planesOff (inspEnded s (ctxNum c)) n = false →
    tileStopped (inspEnded s (ctxNum c)) (tkey n t) = false →
    Gives (.inspectionDone c) s (inspFlag (inspEnded s (ctxNum c)) (ctxNum c) F.NEWT_INSP_STATUS_REFUSED true)) ∧
  (∀ (c : Ctx) (s : Block) (p : Nat) (n t : Nat) (w : Word),
    (s.insps.find? fun p => p.1 == ctxNum c) = some (p, n, t, w) →
    ((s.insps.takeWhile fun p => p.1 != ctxNum c).any fun p => p.2.1 == n && p.2.2.1 == t) = false →
    planesOff (inspEnded s (ctxNum c)) n = true →
    let b := inspFlag (inspEnded s (ctxNum c)) (ctxNum c) F.NEWT_INSP_STATUS_REFUSED true
    Gives (.inspectionDone c) s (if wbits w 31 30 = 1 then putInspData b (ctxNum c) (2 ^ 64 - 1) else b)) ∧
  (∀ (n : Node) (t : TileIx) (s : Block) (store : BitVec 2) (bcast raw : Bool) (addr : BitVec 13),
    takenNow s n 0x5 = true →
    (tile s (tkey n t)).storeOp = none →
    store.toNat < 3 →
    addr.toNat < storeSize store.toNat →
    Gives (.storeWordRead n t store bcast raw addr) s
      (putTile (fput (fput (fput (fput (fput s n F.NEWT_STORE_CTRL_BCAST t (b2n bcast)) n F.NEWT_STORE_CTRL_RAW t (b2n raw)) n
          F.NEWT_STORE_CTRL_ADDR t addr.toNat) n F.NEWT_STORE_CTRL_STORE t store.toNat) n F.NEWT_STORE_STATUS_BUSY t 1) (tkey n t)
        { tile s (tkey n t) with storeOp := some ⟨1, store.toNat, false, raw, addr.toNat, false⟩ })) ∧
  (∀ (n : Node) (t : TileIx) (s : Block) (store : BitVec 2) (bcast raw : Bool) (addr : BitVec 13),
    takenNow s n 0x5 = true →
    (tile s (tkey n t)).storeOp = none →
    store.toNat < 3 →
    addr.toNat < storeSize store.toNat →
    let b := fput (fput (fput (fput s n F.NEWT_STORE_CTRL_BCAST t (b2n bcast)) n F.NEWT_STORE_CTRL_RAW t (b2n raw)) n
        F.NEWT_STORE_CTRL_ADDR t addr.toNat) n F.NEWT_STORE_CTRL_STORE t store.toNat
    Gives (.storeWordWrite n t store bcast raw addr) s (putTile (fput b n F.NEWT_STORE_STATUS_BUSY t 1) (tkey n t)
      { tile s (tkey n t) with storeOp := some ⟨2, store.toNat, bcast, raw, addr.toNat,
        if bcast then (nodeTiles n).any (tileRunning b) else tileRunning b (tkey n t)⟩ })) ∧
  (∀ (n : Node) (t : TileIx) (s : Block) (bcast : Bool),
    served s n = true →
    (tile s (tkey n t)).storeOp = none →
    fget s n F.NEWT_STORE_CTRL_STORE t < 3 →
    let store := fget s n F.NEWT_STORE_CTRL_STORE t
    let raw := fbit s n F.NEWT_STORE_CTRL_RAW t
    let addr := fget s n F.NEWT_STORE_CTRL_ADDR t
    Gives (.storeVerify n t bcast) s
      (putTile (fput (fput (fput (fput (fput s n F.NEWT_STORE_CTRL_BCAST t (b2n bcast)) n F.NEWT_STORE_CTRL_RAW t (b2n raw)) n
          F.NEWT_STORE_CTRL_ADDR t addr) n F.NEWT_STORE_CTRL_STORE t store) n F.NEWT_STORE_STATUS_BUSY t 1) (tkey n t)
        { tile s (tkey n t) with storeOp := some ⟨3, store, bcast, raw, addr, false⟩ })) ∧
  (∀ (n : Node) (t : TileIx) (s : Block) (op : StoreOp),
    (tile s (tkey n t)).storeOp = some op →
    op.refused = true →
    let b := fput (fput (putTile s (tkey n t) { tile s (tkey n t) with storeOp := none }) n F.NEWT_STORE_STATUS_BUSY t 0) n
      F.NEWT_STORE_STATUS_DONE t 1
    Gives (.storeOpDone n t) s
      ((if op.bcast then List.range 1024 else [t.val]).foldl (fun s t => fput s n F.NEWT_STORE_STATUS_REFUSED t 1) b)) ∧
  (∀ (n : Node) (t : TileIx) (s : Block) (op : StoreOp),
    (tile s (tkey n t)).storeOp = some op →
    op.refused = false →
    op.cmd = 1 →
    let b := fput (fput (putTile s (tkey n t) { tile s (tkey n t) with storeOp := none }) n F.NEWT_STORE_STATUS_BUSY t 0) n
      F.NEWT_STORE_STATUS_DONE t 1
    let w := storeGet b (tkey n t) op.store op.addr
    let d := decodeStored (storeCode op.store) w
    Gives (.storeOpDone n t) s (if op.raw then
        fput (putStoreData b n t (w % 2 ^ (storeCode op.store).k)) n F.NEWT_STORE_CHECK_CHECK t (w / 2 ^ (storeCode op.store).k)
      else fput (fput (putStoreData b n t d.data) n F.NEWT_STORE_STATUS_CE t (match d.found with
        | .fixed _ => 1
        | _ => 0)) n F.NEWT_STORE_STATUS_UE t (match d.found with
        | .bad => 1
        | _ => 0))) ∧
  (∀ (n : Node) (t : TileIx) (s : Block) (op : StoreOp),
    (tile s (tkey n t)).storeOp = some op →
    op.refused = false →
    op.cmd = 2 →
    op.bcast = false →
    let b := fput (fput (putTile s (tkey n t) { tile s (tkey n t) with storeOp := none }) n F.NEWT_STORE_STATUS_BUSY t 0) n
      F.NEWT_STORE_STATUS_DONE t 1
    Gives (.storeOpDone n t) s
      (clearBad (storePut b (tkey n t) op.store op.addr (storeWriteWord b n t op)) (tkey n t) op.store op.addr)) ∧
  (∀ (n : Node) (t : TileIx) (s : Block) (op : StoreOp),
    (tile s (tkey n t)).storeOp = some op →
    op.refused = false →
    op.cmd = 2 →
    op.bcast = true →
    let b := fput (fput (putTile s (tkey n t) { tile s (tkey n t) with storeOp := none }) n F.NEWT_STORE_STATUS_BUSY t 0) n
      F.NEWT_STORE_STATUS_DONE t 1
    let w := storeWriteWord b n t op
    let b' := (nodeTiles n).foldl (fun s tk => clearBad s tk op.store op.addr) (storePutAll b n op.store op.addr w)
    Gives (.storeOpDone n t) s (if op.store = 2 then
      { b' with dispCopy := mput (fun _ => none) b'.dispCopy (n * 512 + op.addr) (some (w.testBit 15, bitsOf w 14 13)) } else b')) ∧
  (∀ (n : Node) (t : TileIx) (s : Block) (op : StoreOp),
    (tile s (tkey n t)).storeOp = some op →
    op.refused = false →
    op.cmd = 3 →
    let b := fput (fput (putTile s (tkey n t) { tile s (tkey n t) with storeOp := none }) n F.NEWT_STORE_STATUS_BUSY t 0) n
      F.NEWT_STORE_STATUS_DONE t 1
    Gives (.storeOpDone n t) s (if op.bcast then (nodeTiles n).foldl verifyTile b else verifyTile b (tkey n t))) ∧
  (∀ (n : Node) (t : TileIx) (s s2 : Block) (gn g num : Nat) (rest : List Nat) (m : Mop) (e : Nat),
    tileOwner s (tkey n t) = some (gn, g) →
    (tile s (tkey n t)).fifo = num :: rest →
    findOp (gang s gn g) num = some m →
    dispatchReady s n t gn g num = true →
    fetchStore s (tkey n t) 2 (mopRoutine (mopFields m.word)) = (some e, s2) →
    let b := if (tile s (tkey n t)).lastRun.isSome && m.cur = 0 && decide ((mopFields m.word).opc ≠ 0x43) then clobber s2 (tkey n t) else s2
    let b := putTile b (tkey n t) (dispatchState (tile b (tkey n t)) m e (gangWidth b gn g) (gangHeight b gn g))
    Gives (.dispatch n t) s (latchSlot (putGang b gn g (setOp (gang b gn g) { m with started := true })) n (gkey gn g) m))

/-- In Run: a presented macro-op of a gang that can accept, whose task has no write of MILL_FPCTRL still to come, is accepted under the next acceptance number, which the task receives as its instruction commits; passing the checks it joins those in flight with the edge modes and MILL_FPCTRL in force, failing one it is recorded in MILL_ILLEGAL and raised, and acceptance ends, the gang stopping with nothing in flight. The oldest op not yet in a tile FIFO enters it; a bad store stops the gang instead. A wave of at most 2^WAVE_LOG2 cold waiting tiles is released, INTERVAL ns after the one before. The oldest op in flight, started and done on every tile, retires with its effects. A Croak step that every tile has contributed to is latched: CRF takes the OR of the bits, ROUNDS counts, MAX_NS keeps the largest round. Where the spec leaves the point open, these are the choices of the model: log 46 (the windows withheld), log 62 (widths of a user opcode), log 1 (the moment of an event, and a command whose condition does not hold). -/
def Obligations.GangAcceptsAndDelivers : Prop :=
  (∀ (n : Node) (g : GangIx) (s : Block) (w : BitVec 128) (k rd : Nat),
    inRun s n = true →
    (gang s n g).presented = some (w, k, rd) →
    canAccept s n g = true →
    fpctrlComing s n g k = false →
    let b := acceptOp (putGang s n g { gang s n g with presented := none }) n g w
    Gives (.millraceAccept n g) s (commit (gprPut b n g k rd (BitVec.ofNat 32 (gang b n g).accepted)) n g k)) ∧
  (∀ (n g : Nat) (s : Block) (w : BitVec 128),
    mopReason (mopFields w) (dispEntry s n (mopRoutine (mopFields w))) (edgesOf (rget s n .MILL_EDGE g)) (gangRect s n g) = 0 →
    let x := gang s n g
    let m : Mop :=
      { num := x.accepted + 1, word := w, edges := edgesOf (rget s n .MILL_EDGE g),
        fpctrl := rget (setGState s n g gRun) n .MILL_FPCTRL g, cls := (dispEntry s n (mopRoutine (mopFields w))).getD 0 }
    acceptOp s n g w = putGang (setGState s n g gRun) n g { x with accepted := x.accepted + 1, flight := x.flight ++ [m] }) ∧
  (∀ (n g : Nat) (s : Block) (w : BitVec 128) (r : Nat),
    mopReason (mopFields w) (dispEntry s n (mopRoutine (mopFields w))) (edgesOf (rget s n .MILL_EDGE g)) (gangRect s n g) = r →
    r ≠ 0 →
    let x := gang s n g
    let b := putGang (setGState s n g gRun) n g (addLost { x with accepted := x.accepted + 1, closing := some .illegal } [x.accepted + 1])
    let b := putOpRegs (fput (fput b n F.MILL_ILLEGAL_VALID g 1) n F.MILL_ILLEGAL_REASON g r) n g .MILL_ILLEGAL_OP w
    let b := raise b n SRC.ILLEGAL_ARRAY_OP g (2 ^ 31 + r)
    acceptOp s n g w = if x.flight.isEmpty then enterStopped b n g .illegal SRC.ILLEGAL_ARRAY_OP else b) ∧
  (∀ (n : Node) (g : GangIx) (tn : Node) (t : TileIx) (s : Block) (m : Mop),
    inRun s n = true →
    ((gang s n g).flight.find? fun m => !m.delivered.contains (tkey tn t)) = some m →
    dlvOpen s n g tn t m = true →
    (gangTiles s n g).find? (storeBad s) = none →
    let b := putTile s (tkey tn t) { tile s (tkey tn t) with fifo := (tile s (tkey tn t)).fifo ++ [m.num] }
    Gives (.macroOpDelivery n g tn t) s
      (putGang b n g (setOp (gang s n g) { m with delivered := m.delivered ++ [tkey tn t] }))) ∧
  (∀ (n : Node) (g : GangIx) (tn : Node) (t : TileIx) (s : Block) (m : Mop) (bad : Nat),
    inRun s n = true →
    ((gang s n g).flight.find? fun m => !m.delivered.contains (tkey tn t)) = some m →
    dlvOpen s n g tn t m = true →
    (gangTiles s n g).find? (storeBad s) = some bad →
    Gives (.macroOpDelivery n g tn t) s (faultStop (raise s (bad / 1024) SRC.NEWT_STORE_UE (bad % 1024) 0) n g none SRC.NEWT_STORE_UE)) ∧
  (∀ (n : Node) (g : GangIx) (s : Block),
    inRun s n = true →
    coldTiles s n g ≠ [] →
    let b := match (gang s n g).waveAt with
      | some t => atTime s (t + fget s n F.MILL_PACE_INTERVAL g * 2 ^ 16)
      | none => s
    let b := putGang b n g { gang b n g with waveAt := some b.now }
    Gives (.coldWaveRelease n g) s (((coldTiles s n g).take (2 ^ fget b n F.MILL_PACE_WAVE_LOG2 g)).foldl
      (fun s tk => putTile s tk { tile s tk with released := true }) b)) ∧
  (∀ (n : Node) (g : GangIx) (s : Block) (m : Mop) (rest : List Mop),
    inRun s n = true →
    (gang s n g).flight = m :: rest →
    m.started = true →
    opDone (gangTiles s n g) m = true →
    Gives (.macroOpRetire n g) s (afterRetire (retireEffects s n g m) n g)) ∧
  (∀ (n : Node) (g : GangIx) (ns : Half) (s : Block) (m : Mop),
    inRun s n = true →
    ((gang s n g).flight.find? fun m => m.started && !(gangTiles s n g).isEmpty && (gangTiles s n g).all fun tk =>
      m.crkIn.any fun c => c.1 == m.crkDone + 1 && c.2.1 == tk) = some m →
    let k := m.crkDone + 1
    let bit := m.crkIn.any fun c => c.1 == k && c.2.2
    let b := putGang s n g (setOp (gang s n g) { m with crkDone := k, crkIn := m.crkIn.filter fun c => c.1 != k })
    let b := (gangTiles s n g).foldl (fun s tk =>
      if (tile s tk).mop = some m.num then putTile s tk { tile s tk with crf := bit, crkGot := k } else s) b
    let b := fwrap b n F.CRK_COUNT_ROUNDS g
    Gives (.croakResultLatch n g ns) s (fput b n F.CRK_ROUND_MAX_NS g (max (fget b n F.CRK_ROUND_MAX_NS g) ns.toNat)))

/-- A STOP write to a gang in IDLE stops it with cause HOST (or that of a trap or illegal op that ended acceptance, if it ranks first); in RUN it withdraws what no tile has dispatched, stopping at once with nothing dispatched and else entering YIELDING with the newest dispatched op as frontier and final-enable low. In YIELDING or DRAINING the frontier op is decided by class: atomic completes; restartable completes if a tile has passed or finished it and is abandoned otherwise; resumable, once every tile has parked or finished, completes if one has finished and goes on to the highest cursor otherwise. YIELDING ends in STOPPED with the cause of the stop once the ops up to the frontier have retired, or once the frontier op rests, which is then held in MILL_RESUME; an abort discards it. DRAINING with nothing in flight, or with its last op at rest, ends OFF, and the ACU learns it. EN = 1 in OFF with a formed gang and no open L4 record starts it in IDLE; with an L4 record open, in any state, or with no gang formed, it is rejected. EN = 0 empties the Croak queue in every state and drains a gang that is neither OFF nor DRAINING. RESUME of a STOPPED gang clears CAUSE and MILL_RESUME and goes to RUN, or IDLE with nothing in flight; DISCARD in STOPPED drops the held op as not retired; in other states both are rejected with CFG_REJECT. Where the spec leaves the point open, these are the choices of the model: log 50 (the order EN, STOP, RESUME), log 55 (halted tiles read STOPPED), log 62 (what a stop leaves, exchange counts). -/
def Obligations.GangStopsAndResumes : Prop :=
  (∀ (n : Node) (g : GangIx) (s : Block),
    takenNow s n 0x3 = true →
    gState s n g = gIdle →
    Gives (.gangStopWrite n g) s (enterStopped s n g (joinCause (gang s n g).closing .host) 0)) ∧
  (∀ (n : Node) (g : GangIx) (s : Block),
    takenNow s n 0x3 = true →
    gState s n g = gRun →
    newestStarted (gang s n g) = none →
    let c := joinCause (gang s n g).closing .host
    Gives (.gangStopWrite n g) s (enterStopped (withdraw s n g 0) n g c (stopSrc c))) ∧
  (∀ (n : Node) (g : GangIx) (s : Block) (fr : Nat),
    takenNow s n 0x3 = true →
    gState s n g = gRun →
    newestStarted (gang s n g) = some fr →
    let b := putGang s n g
      { gang s n g with stop := some (joinCause (gang s n g).closing .host), frontier := some fr, finalEnable := false }
    Gives (.gangStopWrite n g) s (setGState (withdraw b n g fr) n g gYielding)) ∧
  (∀ (n : Node) (g : GangIx) (s : Block) (m : Mop),
    inRun s n = true →
    (gState s n g = gYielding ∨ gState s n g = gDraining) →
    (gang s n g).complete = false →
    (gang s n g).abandon = false →
    (gang s n g).cmax = none →
    (gang s n g).frontier.bind (findOp (gang s n g)) = some m →
    (m.cls = 0 ∨ m.cls = 1 ∧ (m.passed = true ∨ m.doneBy ≠ [])) →
    Gives (.yieldDecision n g) s (putGang s n g { gang s n g with complete := true, finalEnable := true })) ∧
  (∀ (n : Node) (g : GangIx) (s : Block) (m : Mop),
    inRun s n = true →
    (gState s n g = gYielding ∨ gState s n g = gDraining) →
    (gang s n g).complete = false →
    (gang s n g).abandon = false →
    (gang s n g).cmax = none →
    (gang s n g).frontier.bind (findOp (gang s n g)) = some m →
    m.cls = 1 →
    m.passed = false →
    m.doneBy = [] →
    Gives (.yieldDecision n g) s (putGang s n g { gang s n g with abandon := true })) ∧
  (∀ (n : Node) (g : GangIx) (s : Block) (m : Mop),
    inRun s n = true →
    (gState s n g = gYielding ∨ gState s n g = gDraining) →
    (gang s n g).complete = false →
    (gang s n g).abandon = false →
    (gang s n g).cmax = none →
    (gang s n g).frontier.bind (findOp (gang s n g)) = some m →
    1 < m.cls →
    ((gangTiles s n g).all fun tk => m.doneBy.contains tk || (m.parkedAt.any fun p => p.1 == tk)) = true →
    Gives (.yieldDecision n g) s (if m.doneBy.isEmpty then
        let c := m.parkedAt.foldl (fun c p => max c p.2) 0
        unpark (putGang s n g { gang s n g with cmax := some c }) (gangTiles s n g) m.num (some c)
      else unpark (putGang s n g { gang s n g with complete := true }) (gangTiles s n g) m.num none)) ∧
  (∀ (n : Node) (g : GangIx) (s : Block) (c : StopCause) (fr : Nat),
    inRun s n = true →
    (gang s n g).stop = some c →
    (gang s n g).frontier = some fr →
    gState s n g = gYielding →
    ((gang s n g).flight = [] ∨ (∃ m rest, (gang s n g).flight = m :: rest ∧ fr < m.num)) →
    joinCause (gang s n g).closing c ≠ .abort →
    let c := joinCause (gang s n g).closing c
    Gives (.stopComplete n g) s (enterStopped s n g c (stopSrc c))) ∧
  (∀ (n : Node) (g : GangIx) (s : Block) (c : StopCause) (fr : Nat) (m : Mop) (rest : List Mop) (kind cur : Nat),
    inRun s n = true →
    (gang s n g).stop = some c →
    (gang s n g).frontier = some fr →
    gState s n g = gYielding →
    (gang s n g).flight = m :: rest →
    m.num = fr →
    restKind s (gang s n g) (gangTiles s n g) m = some (kind, cur) →
    let x := gang s n g
    let c := joinCause x.closing c
    let b := letGo s (gangTiles s n g) fr kind
    let b := if mopCroaks (mopFields m.word) then b else gatherFlags b n g (if kind = 2 then m.flags else {})
    let held := { freshOp m cur with
      gave := if kind = 2 then m.gave.join m.flags else m.gave, kept := opLatches b (gkey n g) fr }
    let b := holdResume (putGang (releaseSlots b (gkey n g) fr) n g { x with flight := held :: rest }) n g held kind cur
    let b := enterStopped b n g c (stopSrc c)
    Gives (.stopComplete n g) s (if c = .abort then discardAll b n g else b)) ∧
  (∀ (n : Node) (g : GangIx) (s : Block),
    inRun s n = true →
    gState s n g = gDraining →
    (gang s n g).flight = [] →
    Gives (.gangDrainDone n g) s (irqAcu (setGState (putGang s n g (clearYield (gang s n g))) n g gOff) n g cGangStopped)) ∧
  (∀ (n : Node) (g : GangIx) (s : Block) (m : Mop) (kind cur : Nat),
    inRun s n = true →
    gState s n g = gDraining →
    (gang s n g).flight = [m] →
    restKind s (gang s n g) (gangTiles s n g) m = some (kind, cur) →
    let b := letGo s (gangTiles s n g) m.num kind
    let b := releaseSlots (if kind = 2 then gatherFlags b n g m.flags else b) (gkey n g) m.num
    let b := putGang b n g (addLost { gang s n g with flight := [] } [m.num])
    Gives (.gangDrainDone n g) s (irqAcu (setGState (putGang b n g (clearYield (gang b n g))) n g gOff) n g cGangStopped)) ∧
  (∀ (n : Node) (g : GangIx) (s : Block),
    takenNow s n 0x3 = true →
    gState s n g = gOff →
    gangFormed s n g = true →
    l4Open s n = false →
    (gang s n g).program = none →
    let b := putGang s n g { gang s n g with accepted := 0, lost := [], verdict := none, program := none }
    Gives (.gangEnWrite n g true) s (fput (setGState (rput b n .MILL_RETIRED g 0) n g gIdle) n F.MILL_GANG_CTRL_EN g 1)) ∧
  (∀ (n : Node) (g : GangIx) (s : Block),
    takenNow s n 0x3 = true →
    (l4Open s n = true ∨ gState s n g = gOff ∧ gangFormed s n g = false) →
    Gives (.gangEnWrite n g true) s (millReject s n)) ∧
  (∀ (n : Node) (g : GangIx) (s : Block),
    takenNow s n 0x3 = true →
    Gives (.gangEnWrite n g false) s (startDrain s n g)) ∧
  (∀ (n g : Nat) (s : Block),
    (gState s n g = gOff ∨ gState s n g = gDraining) →
    startDrain s n g = putGang s n g { gang s n g with crkQueue := [] }) ∧
  (∀ (n g : Nat) (s : Block),
    (gState s n g = gIdle ∨ gState s n g = gRun) →
    let s0 := s
    let gone := ((gang s n g).flight.filter fun m => !m.started).map (·.num)
    let fr := newestStarted (gang s n g)
    let b := gone.foldl (fun s k => releaseSlots (dropFromTiles s (gangTiles s0 n g) k .idle) (gkey n g) k) s
    let b := putGang b n g (endProgram (addLost { gang s n g with
      flight := (gang s n g).flight.filter (·.started), stop := none, closing := none, crkQueue := [], frontier := fr,
      finalEnable := fr.isNone } gone) 0x03 0)
    startDrain s n g = fput (setGState (clearResume b n g) n g gDraining) n F.MILL_GANG_CTRL_EN g 0) ∧
  (∀ (n : Node) (g : GangIx) (s : Block),
    takenNow s n 0x3 = true →
    gState s n g = gStopped →
    let b := fput (clearResume s n g) n F.MILL_GANG_STATUS_CAUSE g 0
    Gives (.gangResumeWrite n g) s (setGState b n g (if (gang b n g).flight.isEmpty then gIdle else gRun))) ∧
  (∀ (n : Node) (g : GangIx) (s : Block),
    takenNow s n 0x3 = true →
    gState s n g ≠ gStopped →
    Gives (.gangResumeWrite n g) s (millReject s n) ∧ Gives (.resumeDiscard n g) s (millReject s n)) ∧
  (∀ (n : Node) (g : GangIx) (s : Block) (m : Mop) (rest : List Mop),
    takenNow s n 0x3 = true →
    gState s n g = gStopped →
    fbit s n F.MILL_RESUME_CTRL_VALID g = true →
    (gang s n g).flight = m :: rest →
    Gives (.resumeDiscard n g) s (clearResume (putGang s n g (addLost { gang s n g with flight := rest } [m.num])) n g))

/-- A write of OWNER while a handover is pending sets REFUSED; else a reserved code sets STG_STATUS.CFG_REJECT, the code of CURRENT changes nothing, and any other becomes OWNER with PENDING = 1. A handover whose bank has drained writes back the data caches' lines of the bank, moves OWNER to CURRENT, clears PENDING and answers what waited for it. An access that goes beyond the memory, or through an alias with another size or alignment, gets RSP_DECERR; one whose path ends before the bank the code that ends it; one to an isolated bank RSP_ISOLATED; one while domain 7 is closed and does not wake on access RSP_PWROFF; one of a master that does not hold the bank RSP_DECERR with STG_NOT_OWNER raised; one of the new owner during a handover waits, the bridges passed, with its time limit running; the owner's is served. One that a router discards, or whose answer it discards or comes late, is answered RSP_TIMEOUT once its limit has expired. Where the spec leaves the point open, these are the choices of the model: log 34 (a test in one step), log 49 (owner codes of remote masters, an access at a closed bridge, what becomes of a request on its way), log 50 (order of requests), log 55 (an uncorrectable word among several), log 1 (the moment of an event, and a command whose condition does not hold). -/
def Obligations.StagingOwnersAndAccesses : Prop :=
  (∀ (n : Node) (b : Fin 8) (o : Fin 32) (s : Block),
    takenNow s n 0x8 = true →
    bankPending s n b = true →
    Gives (.ownerWrite n b o) s (fput s n F.STG_BANK_OWNER_REFUSED (ix b) 1)) ∧
  (∀ (n : Node) (b : Fin 8) (o : Fin 32) (s : Block),
    takenNow s n 0x8 = true →
    bankPending s n b = false →
    (0x1A ≤ o.val ∧ o.val ≤ 0x1E) →
    Gives (.ownerWrite n b o) s (fset s n F.STG_STATUS_CFG_REJECT 1)) ∧
  (∀ (n : Node) (b : Fin 8) (o : Fin 32) (s : Block),
    takenNow s n 0x8 = true →
    bankPending s n b = false →
    (¬ (0x1A ≤ o.val ∧ o.val ≤ 0x1E)) →
    o.val ≠ bankCurrent s n b →
    Gives (.ownerWrite n b o) s (fput (fput s n F.STG_BANK_OWNER_OWNER (ix b) o) n F.STG_BANK_OWNER_PENDING (ix b) 1)) ∧
  (∀ (n : Node) (b : Fin 8) (o : Fin 32) (s : Block),
    takenNow s n 0x8 = true →
    bankPending s n b = false →
    (¬ (0x1A ≤ o.val ∧ o.val ≤ 0x1E)) →
    o.val = bankCurrent s n b →
    Gives (.ownerWrite n b o) s s) ∧
  (∀ (n : Node) (b : Fin 8) (s : Block),
    bankPending s n b = true →
    bankDrained s n b = true →
    let f := flushBank s n b
    let h := releaseHeld (fput (fput f n F.STG_BANK_OWNER_CURRENT (ix b) (bankOwner f n b)) n F.STG_BANK_OWNER_PENDING (ix b) 0) n b
    Gives (.handoverCommit n b) s (tlpRelease (if bankPending h n b then h else releaseReqs h n (16 + b.val)))) ∧
  (∀ (n : Node) (m : Fin 32) (al : Fin 3) (req : MemReq) (s : Block),
    inRun s n = true →
    (2 ^ 27 < req.addr + req.bytes.length ∨ 2 ^ 27 ≤ req.addr) →
    Gives (.stagingAccess n m al ⟨req, .served⟩) s { s with rsps := s.rsps ++ [⟨m, rspDecErr, onesData req⟩] }) ∧
  (∀ (n : Node) (m : Fin 32) (al : Fin 3) (req : MemReq) (s b : Block) (k : Nat),
    inRun s n = true →
    req.addr + req.bytes.length ≤ 2 ^ 27 →
    req.addr < 2 ^ 27 →
    netEnd s n m (0x20 + bankOf req.addr) (bankAddr al req.addr) = some (k, b) →
    Gives (.stagingAccess n m al ⟨req, .served⟩) s { b with rsps := b.rsps ++ [⟨m, k, onesData req⟩] }) ∧
  (∀ (n : Node) (m : Fin 32) (al : Fin 3) (req : MemReq) (s : Block),
    inRun s n = true →
    req.addr + req.bytes.length ≤ 2 ^ 27 →
    req.addr < 2 ^ 27 →
    netEnd s n m (0x20 + bankOf req.addr) (bankAddr al req.addr) = none →
    isolatedEp s n (0x20 + bankOf req.addr) = true →
    Gives (.stagingAccess n m al ⟨req, .served⟩) s { s with rsps := s.rsps ++ [⟨m, rspIsolated, onesData req⟩] }) ∧
  (∀ (n : Node) (m : Fin 32) (al : Fin 3) (req : MemReq) (s : Block),
    inRun s n = true →
    req.addr + req.bytes.length ≤ 2 ^ 27 →
    req.addr < 2 ^ 27 →
    netEnd s n m (0x20 + bankOf req.addr) (bankAddr al req.addr) = none →
    isolatedEp s n (0x20 + bankOf req.addr) = false →
    al.val ≠ 0 →
    aliasSizeOk req = false →
    Gives (.stagingAccess n m al ⟨req, .served⟩) s { s with rsps := s.rsps ++ [⟨m, rspDecErr, onesData req⟩] }) ∧
  (∀ (n : Node) (m : Fin 32) (al : Fin 3) (req : MemReq) (s : Block),
    inRun s n = true →
    req.addr + req.bytes.length ≤ 2 ^ 27 →
    req.addr < 2 ^ 27 →
    netEnd s n m (0x20 + bankOf req.addr) (bankAddr al req.addr) = none →
    isolatedEp s n (0x20 + bankOf req.addr) = false →
    (al.val = 0 ∨ aliasSizeOk req = true) →
    domAccess s n 7 = none →
    Gives (.stagingAccess n m al ⟨req, .served⟩) s { s with rsps := s.rsps ++ [⟨m, rspPwrOff, onesData req⟩] }) ∧
  (∀ (n : Node) (m : Fin 32) (al : Fin 3) (req : MemReq) (s b : Block),
    inRun s n = true →
    req.addr + req.bytes.length ≤ 2 ^ 27 →
    req.addr < 2 ^ 27 →
    netEnd s n m (0x20 + bankOf req.addr) (bankAddr al req.addr) = none →
    isolatedEp s n (0x20 + bankOf req.addr) = false →
    (al.val = 0 ∨ aliasSizeOk req = true) →
    domAccess s n 7 = some b →
    bankTreat b n (bankOf req.addr) m = .serve →
    Gives (.stagingAccess n m al ⟨req, .served⟩) s { (stgServe b n al req).st with
      rsps := (stgServe b n al req).st.rsps ++ [⟨m, (stgServe b n al req).code, (stgServe b n al req).data⟩] }) ∧
  (∀ (n : Node) (m : Fin 32) (al : Fin 3) (req : MemReq) (s b : Block),
    inRun s n = true →
    req.addr + req.bytes.length ≤ 2 ^ 27 →
    req.addr < 2 ^ 27 →
    netEnd s n m (0x20 + bankOf req.addr) (bankAddr al req.addr) = none →
    isolatedEp s n (0x20 + bankOf req.addr) = false →
    (al.val = 0 ∨ aliasSizeOk req = true) →
    domAccess s n 7 = some b →
    bankTreat b n (bankOf req.addr) m = .nonOwner →
    Gives (.stagingAccess n m al ⟨req, .served⟩) s { raise b n SRC.STG_NOT_OWNER (bankOf req.addr) 0 with
      rsps := (raise b n SRC.STG_NOT_OWNER (bankOf req.addr) 0).rsps ++ [⟨m, rspDecErr, onesData req⟩] }) ∧
  (∀ (n : Node) (m : Fin 32) (al : Fin 3) (req : MemReq) (s b : Block),
    inRun s n = true →
    req.addr + req.bytes.length ≤ 2 ^ 27 →
    req.addr < 2 ^ 27 →
    netEnd s n m (0x20 + bankOf req.addr) (bankAddr al req.addr) = none →
    isolatedEp s n (0x20 + bankOf req.addr) = false →
    (al.val = 0 ∨ aliasSizeOk req = true) →
    domAccess s n 7 = some b →
    bankTreat b n (bankOf req.addr) m = .stall →
    Gives (.stagingAccess n m al ⟨req, .served⟩) s { b with stgHeld := b.stgHeld ++ [⟨n, m, al, req, limitOf b n n, false⟩] }) ∧
  (∀ (n : Node) (m : Fin 32) (al : Fin 3) (req : MemReq) (s : Block) (r : Fin 48),
    inRun s n = true →
    let b := timedOut (raise s n SRC.NOC_FLIT_UE r 0) n m (0x20 + bankOf req.addr) n (bankAddr al req.addr) 4
    Gives (.stagingAccess n m al ⟨req, .lost r false⟩) s { b with rsps := b.rsps ++ [⟨m, rspTimeout, onesData req⟩] }) ∧
  (∀ (n : Node) (m : Fin 32) (al : Fin 3) (req : MemReq) (s : Block) (a : MemAns),
    inRun s n = true →
    stgReq s n m al req = some a →
    let late := timedOut (fsat a.st n F.NOC_LATE_COUNT 0) n m (0x20 + bankOf req.addr) n (bankAddr al req.addr) 4
    Gives (.stagingAccess n m al ⟨req, .late⟩) s { late with rsps := late.rsps ++ [⟨m, rspTimeout, onesData req⟩] } ∧
    ∀ r : Fin 48, let lost := timedOut (raise a.st n SRC.NOC_FLIT_UE r 0) n m (0x20 + bankOf req.addr) n (bankAddr al req.addr) 4
      Gives (.stagingAccess n m al ⟨req, .lost r true⟩) s { lost with rsps := lost.rsps ++ [⟨m, rspTimeout, onesData req⟩] })

/-- A record store write stores its bytes and a read answers them, an uncorrectable word making either RSP_DECERR; an access beyond the memory gets RSP_DECERR, one whose path ends before the stack the code that ends it, one to an isolated stack (addresses go round the four stacks in units of 256 bytes) RSP_ISOLATED, one while domain 4 is closed and does not wake on access RSP_PWROFF, one that a router discards or whose answer does not come in time RSP_TIMEOUT. A scrub step in Run with domain 4 open checks and corrects the eight words of the next 64-byte block and goes on, counting a pass at the end. A staging test step that is ON and not yielded checks a window of every bank, raises STG_TEST_FAIL for each failing bank and advances CURSOR modulo 32,768. Clearing ends. A trigger sets TRIGGERED if TRIGSRC names it and nothing has triggered the ring; with POST KiB appended after it the ring freezes; FROZEN = 1 clears FROZEN and TRIGGERED; EN = 1 starts an OFF ring with COUNT = 0, EN = 0 drains an ON one; after either the Log engine goes on with a ring that takes data again; a drained ring is OFF. Where the spec leaves the point open, these are the choices of the model: log 34 (scrub and test in one step, STATE OFF at once), log 49 (256-byte units, an access at a closed bridge), log 50 (the order EN, FROZEN, TRIGGER), log 57 (an append that fits in part), log 1 (the moment of an event, and a command whose condition does not hold). -/
def Obligations.RecordStoreAndRings : Prop :=
  (∀ (n : Node) (m : Fin 32) (req : MemReq) (s b : Block),
    inRun s n = true →
    req.addr + req.bytes.length ≤ 96 * 2 ^ 30 →
    netEnd s n m (0x28 + recStackOf req.addr) (recLocal req.addr) = none →
    isolatedEp s n (0x28 + recStackOf req.addr) = false →
    domAccess s n 4 = some b →
    req.wr = true →
    let r := memWrite b .record n 0 req.addr req.bytes
    Gives (.recordStoreAccess n m ⟨req, .served⟩) s { r.2 with rsps := r.2.rsps ++ [⟨m, if r.1 then rspOk else rspDecErr, []⟩] }) ∧
  (∀ (n : Node) (m : Fin 32) (req : MemReq) (s b : Block) (bs : Option (List (BitVec 8))) (b2 : Block),
    inRun s n = true →
    req.addr + req.bytes.length ≤ 96 * 2 ^ 30 →
    netEnd s n m (0x28 + recStackOf req.addr) (recLocal req.addr) = none →
    isolatedEp s n (0x28 + recStackOf req.addr) = false →
    domAccess s n 4 = some b →
    req.wr = false →
    memLoad b .record n req.addr req.bytes.length = (bs, b2) →
    Gives (.recordStoreAccess n m ⟨req, .served⟩) s (match bs with
      | some bs => { b2 with rsps := b2.rsps ++ [⟨m, rspOk, bs⟩] }
      | none => { b2 with rsps := b2.rsps ++ [⟨m, rspDecErr, onesData req⟩] })) ∧
  (∀ (n : Node) (m : Fin 32) (req : MemReq) (s : Block),
    inRun s n = true →
    96 * 2 ^ 30 < req.addr + req.bytes.length →
    Gives (.recordStoreAccess n m ⟨req, .served⟩) s { s with rsps := s.rsps ++ [⟨m, rspDecErr, onesData req⟩] }) ∧
  (∀ (n : Node) (m : Fin 32) (req : MemReq) (s b : Block) (k : Nat),
    inRun s n = true →
    req.addr + req.bytes.length ≤ 96 * 2 ^ 30 →
    netEnd s n m (0x28 + recStackOf req.addr) (recLocal req.addr) = some (k, b) →
    Gives (.recordStoreAccess n m ⟨req, .served⟩) s { b with rsps := b.rsps ++ [⟨m, k, onesData req⟩] }) ∧
  (∀ (n : Node) (m : Fin 32) (req : MemReq) (s : Block),
    inRun s n = true →
    req.addr + req.bytes.length ≤ 96 * 2 ^ 30 →
    netEnd s n m (0x28 + recStackOf req.addr) (recLocal req.addr) = none →
    isolatedEp s n (0x28 + recStackOf req.addr) = true →
    Gives (.recordStoreAccess n m ⟨req, .served⟩) s { s with rsps := s.rsps ++ [⟨m, rspIsolated, onesData req⟩] }) ∧
  (∀ (n : Node) (m : Fin 32) (req : MemReq) (s : Block),
    inRun s n = true →
    req.addr + req.bytes.length ≤ 96 * 2 ^ 30 →
    netEnd s n m (0x28 + recStackOf req.addr) (recLocal req.addr) = none →
    isolatedEp s n (0x28 + recStackOf req.addr) = false →
    domAccess s n 4 = none →
    Gives (.recordStoreAccess n m ⟨req, .served⟩) s { s with rsps := s.rsps ++ [⟨m, rspPwrOff, onesData req⟩] }) ∧
  (∀ (n : Node) (m : Fin 32) (req : MemReq) (s : Block) (r : Fin 48),
    inRun s n = true →
    let b := timedOut (raise s n SRC.NOC_FLIT_UE r 0) n m (0x28 + recStackOf req.addr) n (recLocal req.addr) 4
    Gives (.recordStoreAccess n m ⟨req, .lost r false⟩) s { b with rsps := b.rsps ++ [⟨m, rspTimeout, onesData req⟩] }) ∧
  (∀ (n : Node) (m : Fin 32) (req : MemReq) (s : Block),
    inRun s n = true →
    let late := timedOut (fsat (recReq s n m req).st n F.NOC_LATE_COUNT 0) n m (0x28 + recStackOf req.addr) n (recLocal req.addr) 4
    Gives (.recordStoreAccess n m ⟨req, .late⟩) s { late with rsps := late.rsps ++ [⟨m, rspTimeout, onesData req⟩] } ∧
    ∀ r : Fin 48, let lost := timedOut (raise (recReq s n m req).st n SRC.NOC_FLIT_UE r 0) n m (0x28 + recStackOf req.addr) n (recLocal req.addr) 4
      Gives (.recordStoreAccess n m ⟨req, .lost r true⟩) s { lost with rsps := lost.rsps ++ [⟨m, rspTimeout, onesData req⟩] }) ∧
  (∀ (n : Node) (s : Block),
    fget s n F.REC_SCRUB_STATE = 2 →
    inRun s n = true →
    fget s n F.NOC_DOMAIN_BRIDGE (ix 4) = 0 →
    let c := mget (fun _ => 0) s.recCursor n
    let b := (memReadWords s .record n ((List.range 8).map (· + 8 * c))).2
    let b := if c + 1 = 96 * 2 ^ 30 / 64 then fwrap b n F.REC_SCRUB_PASSES 0 else b
    Gives (.recScrubStep n) s { b with recCursor := mput (fun _ => 0) b.recCursor n ((c + 1) % (96 * 2 ^ 30 / 64)) }) ∧
  (∀ (n : Node) (fails : BitVec 8) (s : Block),
    inRun s n = true →
    fget s n F.STG_TEST_STATE = 2 →
    let w := fget s n F.STG_TEST_CURSOR
    let b := (List.range 8).foldl (fun s b =>
      if fails.getLsbD b then raise (checkWindow .stg n (b * 2 ^ 21 + 64 * w) s) n SRC.STG_TEST_FAIL b 0
      else checkWindow .stg n (b * 2 ^ 21 + 64 * w) s) s
    Gives (.stgTestWindow n fails false) s (fset b n F.STG_TEST_CURSOR ((w + 1) % 32768))) ∧
  (∀ (n : Node) (s : Block),
    Gives (.recClearDone n) s (fset s n F.REC_STATUS_CLEARING 0)) ∧
  (∀ (n : Node) (r : Fin 32) (s : Block),
    takenNow s n 0x9 = true →
    ringF s n r F.REC_RING_CTRL_TRIGGERED = 0 →
    (ringF s n r F.REC_RING_CTRL_TRIGSRC).testBit 0 = true →
    Gives (.ringTrigger n r) s { fput s n F.REC_RING_CTRL_TRIGGERED (ix r) 1 with
      trigGone := mput (fun _ => 0) (fput s n F.REC_RING_CTRL_TRIGGERED (ix r) 1).trigGone (ringKey n r) 0 }) ∧
  (∀ (n : Node) (r : Fin 32) (s : Block),
    takenNow s n 0x9 = true →
    (ringF s n r F.REC_RING_CTRL_TRIGGERED ≠ 0 ∨ (ringF s n r F.REC_RING_CTRL_TRIGSRC).testBit 0 = false) →
    Gives (.ringTrigger n r) s s) ∧
  (∀ (n : Node) (r : Fin 32) (s : Block),
    ringRoom s n r = some 0 →
    Gives (.ringFreeze n r) s (fput s n F.REC_RING_CTRL_FROZEN (ix r) 1)) ∧
  (∀ (n : Node) (r : Fin 32) (s : Block),
    takenNow s n 0x9 = true →
    let b := fput (fput s n F.REC_RING_CTRL_FROZEN (ix r) 0) n F.REC_RING_CTRL_TRIGGERED (ix r) 0
    Gives (.ringResume n r) s (ringBack n r { b with trigGone := mput (fun _ => 0) b.trigGone (ringKey n r) 0 })) ∧
  (∀ (n : Node) (r : Fin 32) (s : Block),
    takenNow s n 0x9 = true →
    ringF s n r F.REC_RING_CTRL_STATE = 0 →
    Gives (.ringEnWrite n r true) s
      (ringBack n r (setRingCount (fput (fput s n F.REC_RING_CTRL_EN (ix r) 1) n F.REC_RING_CTRL_STATE (ix r) 2) n r 0))) ∧
  (∀ (n : Node) (r : Fin 32) (s : Block),
    takenNow s n 0x9 = true →
    ringF s n r F.REC_RING_CTRL_STATE = 2 →
    Gives (.ringEnWrite n r false) s (ringBack n r (fput (fput s n F.REC_RING_CTRL_EN (ix r) 0) n F.REC_RING_CTRL_STATE (ix r) 1))) ∧
  (∀ (n : Node) (r : Fin 32) (s : Block),
    inRun s n = true →
    ringF s n r F.REC_RING_CTRL_STATE = 1 →
    Gives (.ringDrainDone n r) s (fput s n F.REC_RING_CTRL_STATE (ix r) 0))

/-- In Run a Wheel makes the transfer of an A.WIN, or of up to k elements of an A.WOUT, whose slot is latched for the op, unless it waits for a handover. EN = 1 turns an OFF engine ON, EN = 0 an ON one DRAINING; one that drains, with none of the slots left that were latched before, goes OFF and interrupts. EN = 1 turns an OFF JESD204C link that may start ON, else is rejected with CFG_REJECT; EN = 0 takes an ON link OFF and down, and mutes the outputs that play into it. A link that is ON, with its lanes UP and a SYSREF since any loss of its alignment, comes up at that SYSREF, its data from the next edge of its multiblock clock. A lane that gains signal is UP at its quad's rate, if the lane can run at it; at another rate it is LOCKING with CFG_REJECT. A JESD lane that loses alignment goes to LOCKING, and any lane that loses its signal to NO_SIGNAL; its links go down, or its WSL front-end leaves, and SP_LINK_DOWN is raised. Where the spec leaves the point open, these are the choices of the model: log 36 (slot errors and their instance), log 39 (a link drains at once, half a WSL write), log 57 (links read OFF at once). -/
def Obligations.WheelsAndSensorLanes : Prop :=
  (∀ (n : Node) (t : TileIx) (k : Half) (way : BusWay) (s b : Block) (gn g num : Nat) (m : Mop) (l : Latch),
    inRun s n = true →
    tileOwner s (tkey n t) = some (gn, g) →
    (tile s (tkey n t)).mop = some num →
    findOp (gang s gn g) num = some m →
    (mopFields m.word).opc = 0x53 →
    (tile s (tkey n t)).whlReady = false →
    takeLatch s n (gkey gn g) m = (some l, b) →
    xferStalls b n ((mopFields m.word).prm % 4) (slotOf b n (ix ((mopFields m.word).prm % 4 * 64 + (mopFields m.word).prm / 4 % 64))) = false →
    let e := (mopFields m.word).prm % 4
    let i := ix (e * 64 + (mopFields m.word).prm / 4 % 64)
    Gives (.wheelTransfer n ⟨t, k, way⟩) s (xferIn b gn g (tkey n t) e i (slotOf b n i) m l way)) ∧
  (∀ (n : Node) (t : TileIx) (k : Half) (way : BusWay) (s b : Block) (gn g num : Nat) (m : Mop) (l : Latch),
    inRun s n = true →
    tileOwner s (tkey n t) = some (gn, g) →
    (tile s (tkey n t)).mop = some num →
    findOp (gang s gn g) num = some m →
    (mopFields m.word).opc = 0x54 →
    (tile s (tkey n t)).whlReady = false →
    takeLatch s n (gkey gn g) m = (some l, b) →
    xferStalls b n ((mopFields m.word).prm % 4) (slotOf b n (ix ((mopFields m.word).prm % 4 * 64 + (mopFields m.word).prm / 4 % 64))) = false →
    let e := (mopFields m.word).prm % 4
    let i := ix (e * 64 + (mopFields m.word).prm / 4 % 64)
    Gives (.wheelTransfer n ⟨t, k, way⟩) s (xferOut b gn g (tkey n t) e i k.toNat (slotOf b n i) m l way)) ∧
  (∀ (n : Node) (e : Fin 4) (s : Block),
    takenNow s n 0x7 = true →
    fget s n F.WHL_ENG_STATE (ix e) = 0 →
    Gives (.wheelEnWrite n e true) s (fput (fput s n F.WHL_ENG_EN (ix e) 1) n F.WHL_ENG_STATE (ix e) 2)) ∧
  (∀ (n : Node) (e : Fin 4) (s : Block),
    takenNow s n 0x7 = true →
    fget s n F.WHL_ENG_STATE (ix e) = 2 →
    Gives (.wheelEnWrite n e false) s (fput (fput s n F.WHL_ENG_EN (ix e) 0) n F.WHL_ENG_STATE (ix e) 1)) ∧
  (∀ (n : Node) (e : Fin 4) (s : Block),
    inRun s n = true →
    fget s n F.WHL_ENG_STATE (ix e) = 1 →
    slotsOwed s n e = 0 →
    Gives (.wheelDrainDone n e) s (irqAll (fput s n F.WHL_ENG_STATE (ix e) 0) n cWheel)) ∧
  (∀ (n : Node) (k : Fin 16) (s : Block),
    takenNow s n 0xA = true →
    fget s n F.SP_JLINK_CFG0_STATE (ix k) = 0 →
    jlinkMayStart s n k = true →
    Gives (.jlinkEnWrite n k true) s (fput (fput s n F.SP_JLINK_CFG0_EN (ix k) 1) n F.SP_JLINK_CFG0_STATE (ix k) 2)) ∧
  (∀ (n : Node) (k : Fin 16) (s : Block),
    takenNow s n 0xA = true →
    fget s n F.SP_JLINK_CFG0_STATE (ix k) = 0 →
    jlinkMayStart s n k = false →
    Gives (.jlinkEnWrite n k true) s (spReject s n)) ∧
  (∀ (n : Node) (k : Fin 16) (s : Block),
    takenNow s n 0xA = true →
    fget s n F.SP_JLINK_CFG0_STATE (ix k) = 2 →
    Gives (.jlinkEnWrite n k false) s
      (muteSinks (putJlink (setJlinkUp (fput (fput s n F.SP_JLINK_CFG0_EN (ix k) 0) n F.SP_JLINK_CFG0_STATE (ix k) 0) n k false) n k {})
        n 1 mcFault fun j => j == k.val)) ∧
  (∀ (n : Node) (k : Fin 16) (s : Block) (t : Nat),
    mget (fun _ => none) s.sysref n = some t →
    jlinkOn s n k = true →
    jlinkIsUp s n k = false →
    linkFresh s n k t = true →
    ((jlanes s n k).all fun p => laneState s n p == lnUp) = true →
    let num := 256 * (jcfg s n k).e * octetNum
    Gives (.jlinkUp n k) s (putJlink (setJlinkUp s n k true) n k
      { t0 := t, emb := ((s.now - t) * quadRate s n (jcfg s n k).first + num - 1) / num })) ∧
  (∀ (n : Node) (p : Fin 24) (s : Block),
    laneActive s n p = true →
    fget s n F.NOC_DOMAIN_BRIDGE (ix 5) ≠ 2 →
    (laneState s n p = lnNoSignal ∨ laneState s n p = lnLocking) →
    laneRate s n p = quadRate s n p →
    rateOk s n p = true →
    let b := setLaneState s n p lnUp
    Gives (.sensorLaneLock n p) s (putLane b n p { lane s n p with syncAt := s.now })) ∧
  (∀ (n : Node) (p : Fin 24) (s : Block),
    laneActive s n p = true →
    fget s n F.NOC_DOMAIN_BRIDGE (ix 5) ≠ 2 →
    (laneState s n p = lnNoSignal ∨ laneState s n p = lnLocking) →
    laneRate s n p ≠ quadRate s n p →
    Gives (.sensorLaneLock n p) s (spReject (setLaneState s n p lnLocking) n)) ∧
  (∀ (n : Node) (p : Fin 24) (s : Block),
    laneState s n p = lnUp →
    rxMode s n p = mJesd →
    Gives (.laneAlignLoss n p) s (raise (linksDown (setLaneState s n p lnLocking) n p) n SRC.SP_LINK_DOWN p 0)) ∧
  (∀ (n : Node) (p : Fin 24) (s : Block),
    (laneState s n p = lnUp ∨ laneState s n p = lnLocking) →
    rxMode (setLaneState s n p lnNoSignal) n p ≠ mWsl →
    Gives (.laneSignalLoss n p) s (raise (linksDown (setLaneState s n p lnNoSignal) n p) n SRC.SP_LINK_DOWN p 0)) ∧
  (∀ (n : Node) (p : Fin 24) (s : Block),
    (laneState s n p = lnUp ∨ laneState s n p = lnLocking) →
    rxMode (setLaneState s n p lnNoSignal) n p = mWsl →
    Gives (.laneSignalLoss n p) s (raise (feLeave (setLaneState s n p lnNoSignal) n p) n SRC.SP_LINK_DOWN p 0))

/-- In Run a JESD204C block of each lane of a link that is up appends its octets, or, failing its CRC-12, lost octets and a count on its link and lane; the frames complete so far are taken, and a complete multiblock is closed. A SYSREF pulse comes at the next multiple of PERIOD_NS of device time and checks every link that is up, raising SP_LINK_ALIGN. On a WSL lane that is UP a SAMPLES packet of a front-end in service gives its samples; the module begins a TIME_SYNC exchange 1 ms after the one before, and answers a packet with device time; a CONTROL payload is kept for firmware, or sent to the front-end; a packet with a bad CRC, length or type is discarded and counted. A raw word goes to the live region that owns the lane, or from it to the lane. Where the spec leaves the point open, these are the choices of the model: log 39 (order of samples, FLAGS, payload and TIME of TIME_SYNC, a front-end's period, the first data of a link), log 38 (lateness), log 1 (the moment of an event, and a command whose condition does not hold). -/
def Obligations.SensorPacketsAndPulses : Prop :=
  (∀ (n : Node) (k : Fin 8) (bad : BitVec 8) (octs : List (BitVec 64)) (s : Block),
    inRun s n = true →
    jlinkOn s n k = true →
    jlinkIsUp s n k = true →
    let c := jcfg s n k
    let b := (List.range c.l).foldl (fun s i =>
      if bad.getLsbD i then fsat (fsat s n F.SP_JLINK_STATUS_CRC12_COUNT (ix k)) n F.SP_LANE_STATUS_CRC_COUNT (c.first + i) else s) s
    let old := if (jlink b n k).octets.isEmpty then List.replicate c.l [] else (jlink b n k).octets
    let new := (old.zipIdx).map fun p => p.1 ++ (List.range 8).map fun i =>
      if bad.getLsbD p.2 then none else (octs[p.2]?).map fun w => w.extractLsb' (8 * i) 8
    let b := jframes n k c (256 * c.e) (putJlink b n k { jlink b n k with octets := new })
    Gives (.jesdBlockReceive n k bad octs) s
      (if (jlink b n k).octets.all fun o => decide (256 * c.e ≤ o.length) then
        putJlink b n k { jlink b n k with octets := [], frames := 0, emb := (jlink b n k).emb + 1 } else b)) ∧
  (∀ (n : Node) (s : Block),
    fget s n F.SP_SYSREF_PERIOD_NS ≠ 0 →
    let p := fget s n F.SP_SYSREF_PERIOD_NS * 2 ^ 16
    let due := match mget (fun _ => none) s.sysref n with
      | some t => max (t + p) ((s.now + p - 1) / p * p) / p * p
      | none => (s.now + p - 1) / p * p
    let b := { atTime s due with sysref := mput (fun _ => none) (atTime s due).sysref n (some due) }
    Gives (.sysrefPulse n) s ((List.range 16).foldl (fun s k =>
      if jlinkOn s n k && jlinkIsUp s n k then
        if (due - (jlink s n k).t0) * quadRate s n (jcfg s n k).first % (256 * (jcfg s n k).e * octetNum) = 0 then s
        else raise s n SRC.SP_LINK_ALIGN k 0
      else s) b)) ∧
  (∀ (n : Node) (p : Fin 24) (bytes : List (BitVec 8)) (period : Nat) (s : Block) (k : WslPkt),
    inRun s n = true →
    wslUp s n p = true →
    wslParse bytes = some k →
    k.typ = 1 →
    samplesLenOk k = true →
    (lane (wslSeen s n p k) n p).down = false →
    fbit (wslSeen s n p k) n F.CHR_FE_PRESENT p = true →
    Gives (.samples n p bytes period) s (wslSamples (wslSeen s n p k) n p k period)) ∧
  (∀ (n : Node) (p : Fin 24) (bytes : List (BitVec 8)) (s : Block) (k : WslPkt),
    inRun s n = true →
    wslUp s n p = true →
    wslParse bytes = some k →
    k.typ = 3 →
    Gives (.timeSync n p ⟨false, bytes⟩) s (wslSend (wslSeen s n p k) n p 3 0 (leBytes 8 (devNs s n)))) ∧
  (∀ (n : Node) (p : Fin 24) (bytes : List (BitVec 8)) (s : Block),
    inRun s n = true →
    wslUp s n p = true →
    let b := atTime s ((lane s n p).syncAt + 1000000 * 2 ^ 16)
    Gives (.timeSync n p ⟨true, bytes⟩) s (wslSend (putLane b n p { lane b n p with syncAt := b.now }) n p 3 0 (leBytes 8 (devNs b n)))) ∧
  (∀ (n : Node) (p : Fin 24) (bytes : List (BitVec 8)) (s : Block) (k : WslPkt),
    inRun s n = true →
    wslUp s n p = true →
    wslParse bytes = some k →
    k.typ = 4 →
    Gives (.control n p false bytes) s { wslSeen s n p k with ctlIn := s.ctlIn ++ [(n.val, p.val, k.payload)] }) ∧
  (∀ (n : Node) (p : Fin 24) (bytes : List (BitVec 8)) (s : Block),
    inRun s n = true →
    wslUp s n p = true →
    bytes.length ≤ 2048 →
    Gives (.control n p true bytes) s (wslSend s n p 4 0 bytes)) ∧
  (∀ (n : Node) (p : Fin 24) (bytes : List (BitVec 8)) (period : Nat) (s : Block),
    inRun s n = true →
    wslUp s n p = true →
    wslParse bytes = none →
    let b := fsat s n F.SP_LANE_STATUS_CRC_COUNT p
    Gives (.samples n p bytes period) s b ∧ Gives (.timeSync n p ⟨false, bytes⟩) s b ∧ Gives (.control n p false bytes) s b) ∧
  (∀ (n : Node) (p : Fin 24) (w : DWord) (s : Block),
    inRun s n = true →
    rxMode s n p = mRaw →
    regionLive s n (p / 3) = true →
    Gives (.rawLaneWord n p ⟨false, w⟩) s { s with
      rawIn := mput (fun _ => []) s.rawIn (n.val * 32 + p.val) (mget (fun _ => []) s.rawIn (n.val * 32 + p.val) ++ [w]) }) ∧
  (∀ (n : Node) (p : Fin 24) (w : DWord) (s : Block),
    inRun s n = true →
    txMode s n p = mRaw →
    regionLive s n (p / 3) = true →
    Gives (.rawLaneWord n p ⟨true, w⟩) s { s with
      rawOut := mput (fun _ => []) s.rawOut (n.val * 32 + p.val) (mget (fun _ => []) s.rawOut (n.val * 32 + p.val) ++ [w]) })

/-- In Run: the oldest container write of a stream completes when its memory answers, and its sample is counted with its lateness, a refused write as a gap. A sample not come by its due time and the lateness limit is taken as lost, with the previous value. A block that is ready is completed. EN = 1 of an OFF stream brings written settings into effect and, its routes legal, starts it from block 0 with every channel at its first sample; with illegal routes it sets the stream's CFG_REJECT. EN = 0 makes it DRAINING; draining, every channel's samples of the block in progress are taken as lost, their writes made, the block completed, and the stream reads OFF. Where the spec leaves the point open, these are the choices of the model: log 2 (the stamp of a block without samples), log 38 (route changes, late and lost samples), log 1 (the moment of an event, and a command whose condition does not hold). -/
def Obligations.StreamsRunAndDrain : Prop :=
  (∀ (n : Node) (t : Fin 64) (s : Block) (w : ChWrite) (rest : List ChWrite) (a : MemAns),
    inRun s n = true →
    (strm s n t).writes = w :: rest →
    strmReq s n t ⟨true, sampleAddr s n t w.slot w.num, (container w.value).map some⟩ = some a →
    Gives (.sampleWriteDone n t) s (countSample (putStrm a.st n t { strm a.st n t with writes := rest }) n t w (a.code ≠ rspOk))) ∧
  (∀ (n : Node) (c : Fin 16384) (s : Block) (due : Nat),
    inRun s n = true →
    rtValid (chan s n c).route = true →
    strmState s n (rtStream (chan s n c).route) = 2 →
    nextDue s n c = some due →
    let b := atTime s (due + lateLimit s n (rtStream (chan s n c).route))
    Gives (.sampleLostDue n c) s (queueSample b n c (chan b n c).prev true false)) ∧
  (∀ (n : Node) (t : Fin 64) (s b : Block),
    inRun s n = true →
    strmState s n t = 2 →
    blockReady s n t = true →
    completeBlock s n t = some b →
    Gives (.blockComplete n t) s b) ∧
  (∀ (n : Node) (t : Fin 64) (s : Block),
    takenNow s n 0xB = true →
    strmState s n t = 0 →
    let a := ((chanIds s n).filter fun c => atBoundary s n t c).foldl (fun s c => adopt n t 0 true s c) s
    let b := (strmChans a n t).foldl (fun s c =>
      putChan s n c { chan s n c with start := 0, pos := 0, last := none, since := 0, prev := 0 }) a
    Gives (.streamEnWrite n t true) s (if routesOk a n t then
        fput (fput (put64 (putStrm b n t {}) n .CH_STRM_BLOCK t 0 0) n F.CH_STRM_CTRL_EN (ix t) 1) n F.CH_STRM_CTRL_STATE (ix t) 2
      else strmReject s n t)) ∧
  (∀ (n : Node) (t : Fin 64) (s : Block),
    takenNow s n 0xB = true →
    strmState s n t = 2 →
    Gives (.streamEnWrite n t false) s (fput (fput s n F.CH_STRM_CTRL_EN (ix t) 0) n F.CH_STRM_CTRL_STATE (ix t) 1)) ∧
  (∀ (n : Node) (t : Fin 64) (s c : Block),
    inRun s n = true →
    strmState s n t = 1 →
    (strm (drainWrites s n t) n t).writes = [] →
    completeBlock (drainWrites s n t) n t = some c →
    Gives (.streamDrainDone n t) s (fput (putStrm c n t {}) n F.CH_STRM_CTRL_STATE (ix t) 0))

/-- In Run, also while VIN is low, an output that is not OFF fetches ready samples into its FIFO. At its next due time (earlier by the beat lead for a stream port) it plays the sample due, or its safe value while MUTED, shapes it by its ramp, sends it, and goes on to the next position; an OFF output sends its safe value to a sink that is up. READY may not go back while the output runs. MUTE leaves an OFF output as it is, adds the cause, turns a ramp up round at the step it has reached, and starts a ramp down from PLAYING; MUTE_ALL mutes every output. UNMUTE of an ON, MUTED output starts a ramp up when the pin does not inhibit it and READY covers the ramp, and is refused otherwise. EN = 1 of an OFF output with a ring length latches START and PERIOD of its group and starts it MUTED, with none is rejected; EN = 0 mutes it, and it is OFF once muted. The inhibit pin mutes every output and raises DRV_INHIBIT, once; its release clears DRV_GLOBAL.INHIBIT. Where the spec leaves the point open, these are the choices of the model: log 39 (the lead of a beat, one DRIVE packet a sample), log 57 (a ramp reversed, an output that is OFF, a front-end that is down, LOOPING), log 1 (the moment of an event, and a command whose condition does not hold). -/
def Obligations.DriveOutputsPlayAndMute : Prop :=
  (∀ (n : Node) (o : Fin 256) (count : BitVec 12) (s : Block),
    clocked s n = true →
    drvState s n o ≠ 0 →
    Gives (.driveFetch n o count) s (fetchSamples n o count.toNat s)) ∧
  (∀ (n : Node) (o : Fin 256) (s : Block),
    clocked s n = true →
    drvState s n o = 0 →
    Gives (.driveSampleDue n o) s
      (sinkSend s n o (s.now + (if fget s n F.DRV_CFG_SINKKIND o = 3 then beatLead else 0)) (drvSafe s n o))) ∧
  (∀ (n : Node) (o : Fin 256) (s : Block),
    clocked s n = true →
    drvState s n o ≠ 0 →
    (drv s n o).period ≠ 0 →
    let due := drvDue (drv s n o) (drvPos s n o)
    let a := atTime s (if fget s n F.DRV_CFG_SINKKIND o = 3 then due - beatLead else due)
    let a := if drvPlay a n o = 1 || drvPlay a n o = 2 then lateCheck a n o due else a
    let p := if drvPlay a n o = pMuted then (drvSafe a n o, a) else playSample a n o (drvPos s n o)
    let v := shape p.2 n o p.1
    let b := drvSend v.2 n o due v.1 ⟨(drv s n o).period * 2 ^ 8, 1⟩
    let b := putDrv b n o { drv b n o with fifo := (drv b n o).fifo.filter fun p => decide (drvPos s n o < p.1) }
    Gives (.driveSampleDue n o) s (put64 b n .DRV_POS 0 o (drvPos s n o + 1))) ∧
  (∀ (n : Node) (o : Fin 256) (half : Fin 3) (v : DWord) (s : Block),
    takenNow s n 0xC = true →
    (drvState s n o = 0 ∨ drvReady s n o ≤ halfWrite (drvReady s n o) half v.toNat) →
    Gives (.drvReadyWrite n o half v) s (dlmReady (put64 s n .DRV_READY 0 o (halfWrite (drvReady s n o) half v.toNat)) n o)) ∧
  (∀ (n : Node) (o : Fin 256) (half : Fin 3) (v : DWord) (s : Block),
    takenNow s n 0xC = true →
    drvState s n o ≠ 0 →
    halfWrite (drvReady s n o) half v.toNat < drvReady s n o →
    Gives (.drvReadyWrite n o half v) s (drvReject s n)) ∧
  (∀ (n : Node) (o : Fin 256) (s : Block),
    takenNow s n 0xC = true →
    drvState s n o = 0 →
    Gives (.driveMuteWrite n o) s s) ∧
  (∀ (n : Node) (o : Fin 256) (s : Block),
    takenNow s n 0xC = true →
    drvState s n o ≠ 0 →
    (drvPlay s n o = pMuted ∨ drvPlay s n o = pRampDown) →
    Gives (.driveMuteWrite n o) s (drvSet s n o (drvPlay s n o) (Nat.lor (drvCause s n o) (2 ^ mcCommand)))) ∧
  (∀ (n : Node) (o : Fin 256) (s : Block),
    takenNow s n 0xC = true →
    drvState s n o ≠ 0 →
    drvPlay s n o = pRampUp →
    let x := drv s n o
    Gives (.driveMuteWrite n o) s
      (drvSet (putDrv s n o { x with step := x.nr - x.step }) n o pRampDown (Nat.lor (drvCause s n o) (2 ^ mcCommand)))) ∧
  (∀ (n : Node) (o : Fin 256) (s : Block),
    takenNow s n 0xC = true →
    drvState s n o ≠ 0 →
    drvPlay s n o = pPlaying →
    let x := { drv s n o with
      step := 0, nr := rampLen (fget s n F.DRV_RAMP_RAMP_MS o) (drv s n o).period, block := fget s n F.DRV_RAMP_BLOCK o }
    Gives (.driveMuteWrite n o) s (drvSet (putDrv s n o x) n o pRampDown (Nat.lor (drvCause s n o) (2 ^ mcCommand)))) ∧
  (∀ (n : Node) (s : Block),
    takenNow s n 0xC = true →
    Gives (.muteAllWrite n) s ((List.range 256).foldl (fun s o => muteOut s n o mcCommand) s)) ∧
  (∀ (n : Node) (o : Fin 256) (s : Block),
    takenNow s n 0xC = true →
    drvState s n o = 2 →
    drvPlay s n o = pMuted →
    inhibited s n = false →
    (drv s n o).period ≠ 0 →
    drvPos s n o + rampLen (fget s n F.DRV_RAMP_RAMP_MS o) (drv s n o).period < drvReady s n o →
    let x := { drv s n o with
      step := 0, nr := rampLen (fget s n F.DRV_RAMP_RAMP_MS o) (drv s n o).period, under := none, block := fget s n F.DRV_RAMP_BLOCK o }
    Gives (.driveUnmuteWrite n o) s (drvSet (fput (putDrv s n o x) n F.DRV_STATUS_LOOPING o 0) n o pRampUp 0)) ∧
  (∀ (n : Node) (o : Fin 256) (s : Block),
    takenNow s n 0xC = true →
    (drvState s n o ≠ 2 ∨ drvPlay s n o = pRampDown ∨ (drvPlay s n o = pMuted ∧ (inhibited s n = true ∨ (drv s n o).period = 0 ∨
      drvReady s n o ≤ drvPos s n o + rampLen (fget s n F.DRV_RAMP_RAMP_MS o) (drv s n o).period))) →
    Gives (.driveUnmuteWrite n o) s (fput s n F.DRV_STATUS_UNMUTE_REFUSED o 1)) ∧
  (∀ (n : Node) (o : Fin 256) (s : Block),
    takenNow s n 0xC = true →
    drvState s n o = 0 →
    fget s n F.DRV_RINGLEN_RINGLEN o = 0 →
    Gives (.driveEnWrite n o true) s (drvReject s n)) ∧
  (∀ (n : Node) (o : Fin 256) (s : Block),
    takenNow s n 0xC = true →
    drvState s n o = 0 →
    fget s n F.DRV_RINGLEN_RINGLEN o ≠ 0 →
    let g := fget s n F.DRV_CFG_GROUP o
    let x : DrvSt := { start := get64 s n .DRV_GRP_START g, period := (rget s n .DRV_GRP_PERIOD (ix g)).toNat }
    let b := putDrv s n o x
    let b := put64 b n .DRV_POS 0 o (firstDue x b.now)
    let b := fput (fput b n F.DRV_CFG_EN o 1) n F.DRV_CFG_STATE o 2
    Gives (.driveEnWrite n o true) s (drvSet (fput b n F.DRV_STATUS_LOOPING o 0) n o pMuted (drvCause b n o))) ∧
  (∀ (n : Node) (o : Fin 256) (s : Block),
    takenNow s n 0xC = true →
    drvState s n o = 2 →
    let b := muteOut (fput (fput s n F.DRV_CFG_EN o 0) n F.DRV_CFG_STATE o 1) n o mcEn
    Gives (.driveEnWrite n o false) s (if drvPlay b n o = pMuted then fput b n F.DRV_CFG_STATE o 0 else b)) ∧
  (∀ (n : Node) (s : Block),
    inhibited s n = false →
    Gives (.inhibitAssert n) s (raise (muteAll (fset s n F.DRV_GLOBAL_INHIBIT 1) n mcInhibit) n SRC.DRV_INHIBIT 0 0)) ∧
  (∀ (n : Node) (s : Block),
    inhibited s n = true →
    Gives (.inhibitAssert n) s s) ∧
  (∀ (n : Node) (s : Block),
    Gives (.inhibitRelease n) s (fset s n F.DRV_GLOBAL_INHIBIT 0))

/-- A LOG_EVENT write posts an event record of its writer while the log is on. In Run the oldest record of the spool for which the host ring has room is copied there, WPTR advances by its length, and the threshold interrupts; the timer interrupts at its due time. RPTR may not pass WPTR or go back. EN = 1 of an OFF log starts with both pointers at 0; EN = 0 drains it, and it is OFF once its queue is empty. A write of ARM arms an ON monitor in IDLE or MISSED whose source is software for its OFFSET after the time given, and one of an ARMED monitor sets REARM and raises DLM_REARM. A write of DONE meets a monitor ARMED whose deadline has not passed; in MISSED it records the lateness; in IDLE it sets STRAY. An armed monitor's deadline, passing, is a miss. EN = 1 turns a monitor on and EN = 0 turns it off to IDLE at once. Where the spec leaves the point open, these are the choices of the model: log 35 (payload of an epoch marker, SOURCE of a region), log 37 (completions before armings, a refused READY, EN = 0), log 57, log 1 (the moment of an event, and a command whose condition does not hold). -/
def Obligations.LogAndDeadlines : Prop :=
  (∀ (c : Ctx) (n : Node) (d : DWord) (s : Block),
    takenBy s c n 0xD = true →
    logOn s n = true →
    Gives (.logEventWrite c n d) s (logPost s n (devNs s n) tEvent (eventWriter c) 0 (leBytes 8 d.toNat)).2) ∧
  (∀ (c : Ctx) (n : Node) (d : DWord) (s : Block),
    takenBy s c n 0xD = true →
    logOn s n = false →
    Gives (.logEventWrite c n d) s s) ∧
  (∀ (n : Node) (s : Block) (pos len : Nat) (area : Word) (rest : List (Nat × Nat × Word)),
    inRun s n = true →
    (logSt s n).queue = (pos, len, area) :: rest →
    fget s n F.LOG_CTRL_STATE ≠ 0 →
    get64 s n .LOG_HOST_WPTR + len ≤ get64 s n .LOG_HOST_RPTR + 2 ^ fget s n F.LOG_HOST_SIZE_SIZE_LOG2 →
    let w := get64 s n .LOG_HOST_WPTR
    let d := ringRead s n area pos len
    let b := put64 (hostRing d.2 n w d.1) n .LOG_HOST_WPTR 0 0 (w + len)
    let due := (logSt s n).unsigDue.getD (b.now + fget b n F.LOG_IRQ_TIMER_US * 1000 * 2 ^ 16)
    let b := putLog b n { logSt b n with queue := rest, unsigDue := some due }
    let b := if fget b n F.LOG_CTRL_STATE = 2 then spoolGaps b n else b
    Gives (.logHostCopy n) s (if (logSt s n).sigAt + 1024 * fget b n F.LOG_IRQ_THRESH_KIB ≤ w + len then logIrq b n else b)) ∧
  (∀ (n : Node) (s : Block) (due : Nat),
    (logSt s n).unsigDue = some due →
    Gives (.logIrqTimer n) s (logIrq (atTime s due) n)) ∧
  (∀ (n : Node) (half : Fin 3) (v : DWord) (s : Block),
    takenNow s n 0xD = true →
    halfWrite (get64 s n .LOG_HOST_RPTR) half v.toNat ≤ get64 s n .LOG_HOST_WPTR →
    get64 s n .LOG_HOST_RPTR ≤ halfWrite (get64 s n .LOG_HOST_RPTR) half v.toNat →
    Gives (.logRptrWrite n half v) s (put64 s n .LOG_HOST_RPTR 0 0 (halfWrite (get64 s n .LOG_HOST_RPTR) half v.toNat))) ∧
  (∀ (n : Node) (half : Fin 3) (v : DWord) (s : Block),
    takenNow s n 0xD = true →
    (get64 s n .LOG_HOST_WPTR < halfWrite (get64 s n .LOG_HOST_RPTR) half v.toNat ∨ halfWrite (get64 s n .LOG_HOST_RPTR) half v.toNat < get64 s n .LOG_HOST_RPTR) →
    Gives (.logRptrWrite n half v) s (logReject s n)) ∧
  (∀ (n : Node) (s : Block),
    takenNow s n 0xD = true →
    fget s n F.LOG_CTRL_STATE = 0 →
    let b := put64 (put64 (fset (fset s n F.LOG_CTRL_EN 1) n F.LOG_CTRL_STATE 2) n .LOG_HOST_WPTR 0 0 0) n .LOG_HOST_RPTR 0 0 0
    Gives (.logEnWrite n true) s (putLog b n { logSt b n with sigAt := 0, unsigDue := none })) ∧
  (∀ (n : Node) (s : Block),
    takenNow s n 0xD = true →
    fget s n F.LOG_CTRL_STATE = 2 →
    Gives (.logEnWrite n false) s (fset (fset s n F.LOG_CTRL_EN 0) n F.LOG_CTRL_STATE 1)) ∧
  (∀ (n : Node) (s : Block),
    inRun s n = true →
    fget s n F.LOG_CTRL_STATE = 1 →
    (logSt s n).queue = [] →
    Gives (.logDrainDone n) s (fset s n F.LOG_CTRL_STATE 0)) ∧
  (∀ (n : Node) (m : Fin 64) (s : Block),
    takenNow s n 0x13 = true →
    fget s n F.DLM_CTRL_ARM_SRC m = 0 →
    dlmOn s n m = true →
    dlmPhase s n m ≠ dlmArmed →
    let a := if fbit s n F.DLM_CTRL_ABS m then get64 s n .DLM_ABS 0 m else nowNs s
    Gives (.dlmArmWrite n m) s
      (setDlmPhase (put64 s n .DLM_DEADLINE 0 m ((a + get64 s n .DLM_OFFSET 0 m) % 2 ^ 64)) n m dlmArmed)) ∧
  (∀ (n : Node) (m : Fin 64) (s : Block),
    takenNow s n 0x13 = true →
    fget s n F.DLM_CTRL_ARM_SRC m = 0 →
    dlmOn s n m = true →
    dlmPhase s n m = dlmArmed →
    Gives (.dlmArmWrite n m) s (raise (fput s n F.DLM_STATUS_REARM m 1) n SRC.DLM_REARM m 0)) ∧
  (∀ (n : Node) (m : Fin 64) (s : Block),
    takenNow s n 0x13 = true →
    fget s n F.DLM_CTRL_DONE_SRC m = 0 →
    dlmOn s n m = true →
    Gives (.dlmDoneWrite n m) s (if dlmPhase s n m = dlmArmed then
        if s.now ≤ dlmDeadline s n m * 2 ^ 16 then setDlmPhase (fwrap s n F.DLM_MET_MET m) n m dlmIdle else dlmLate (dlmMiss s n m) n m
      else if dlmPhase s n m = dlmMissed then dlmLate s n m
      else fput s n F.DLM_STATUS_STRAY m 1)) ∧
  (∀ (n : Node) (m : Fin 64) (s : Block),
    dlmOn s n m = true →
    dlmPhase s n m = dlmArmed →
    Gives (.deadlineExpiry n m) s (dlmMiss (atTime s (dlmDeadline s n m * 2 ^ 16 + 1)) n m)) ∧
  (∀ (n : Node) (m : Fin 64) (s : Block),
    takenNow s n 0x13 = true →
    fget s n F.DLM_CTRL_STATE m = 0 →
    Gives (.dlmEnWrite n m true) s (fput (fput s n F.DLM_CTRL_EN m 1) n F.DLM_CTRL_STATE m 2)) ∧
  (∀ (n : Node) (m : Fin 64) (s : Block),
    takenNow s n 0x13 = true →
    fget s n F.DLM_CTRL_STATE m = 2 →
    Gives (.dlmEnWrite n m false) s (setDlmPhase (fput (fput s n F.DLM_CTRL_EN m 0) n F.DLM_CTRL_STATE m 0) n m dlmIdle))

/-- In Run, a long track that two running regions drive at once raises FABRIC_CONTENTION and, where GKO_CONTENTION holds no record, records the track, the lower driver and the other; within 1 ms of the last it does not. A port of a RAM block of a region whose clocks run reads its word as it was before a write of the same cycle, or, where the clocks differ and the write meets it, a free value; the write is made, and the answer carries the error output. A beat of a region whose clocks run enters an inbound FIFO that has room, else it is dropped; one of a region that does not run is not sent. The oldest outbound beat is taken at or before its time, or dropped at it. A target window that serves and is not isolated passes a request to its design and gives its answer; another answers RSP_ISOLATED, and all ones to a read; a request whose path ends before it gets the code that ends it, and one that a router discards times out. A trigger line of a live region fires its ring and its monitor; an interrupt line sets its bit of GKO_IRQ_PEND, and interrupts if a pending bit is enabled. Where the spec leaves the point open, these are the choices of the model: log 2 (a read that meets a write), log 39 (the lead of a beat), log 40 (constants of an image, the design's part as operands), log 1 (the moment of an event, and a command whose condition does not hold). -/
def Obligations.FabricCellsAndBeats : Prop :=
  (∀ (n : Node) (track : Fin 1024) (user : BitVec 16) (s : Block),
    inRun s n = true →
    contQuiet s n track = true →
    let b := { s with contAt := mput (fun _ => none) s.contAt (n.val * 1024 + track.val) (some s.now) }
    Gives (.fabricContention n track user) s (match (List.range 16).filter (driving s n track user) with
      | w :: l :: _ => raise (if fbit b n F.GKO_CONTENTION_VALID then b else rput b n .GKO_CONTENTION 0
          (BitVec.ofNat 32 (2 ^ 31 + track.val * 2 ^ 16 + w * 2 ^ 8 + l))) n SRC.FABRIC_CONTENTION 0 0
      | _ => s)) ∧
  (∀ (n : Node) (track : Fin 1024) (user : BitVec 16) (s : Block),
    inRun s n = true →
    contQuiet s n track = false →
    Gives (.fabricContention n track user) s s) ∧
  (∀ (n : Node) (r : Fin 8) (m : Fin 64) (b : Bool) (w : BitVec 14) (oneClock : Bool) (s : Block),
    inRun s n = true →
    rgRuns s n r = true →
    (b && portShape s n r m b == 5) = false →
    let a := ramRead s n r m (portShape s n r m b) w.toNat
    Gives (.regionRamRead n r m b w none oneClock) s
      (answer (1024 + rgKey n r) ⟨b2n a.2.1, leBytes 8 a.1, ramLatched a.2.2 n r m b (portShape s n r m b) w.toNat a.1⟩)) ∧
  (∀ (n : Node) (r : Fin 8) (m : Fin 64) (b : Bool) (w w2 : BitVec 14) (d : DWord) (oneClock : Bool) (s : Block),
    inRun s n = true →
    rgRuns s n r = true →
    (b && portShape s n r m b == 5) = false →
    let shape := portShape s n r m b
    let other := portShape s n r m (!b)
    let a := ramRead s n r m shape w.toNat
    let meet := ramMeet shape w.toNat other w2.toNat && decide (w2.toNat < shapeDepth other)
    let v : Nat × Block := if meet && !oneClock then ((drawFree a.2.2).1.toNat % 2 ^ shapeWidth shape, (drawFree a.2.2).2)
      else (a.1, a.2.2)
    Gives (.regionRamRead n r m b w (some (w2, d)) oneClock) s (answer (1024 + rgKey n r)
      ⟨b2n a.2.1, leBytes 8 v.1, ramWordPut (ramLatched v.2 n r m b shape w.toNat v.1) n r m other w2.toNat d.toNat⟩)) ∧
  (∀ (n : Node) (port : Fin 32) (beat : BitVec 128) (period : Word) (taken : BitVec 7) (s : Block),
    inRun s n = true →
    rgRuns s n (port / 4) = true →
    (mget (fun _ => []) s.gkoIn (n.val * 32 + port.val)).length < 64 →
    let q := mget (fun _ => []) s.gkoIn (n.val * 32 + port.val)
    Gives (.inboundBeat n port beat period taken) s (takeBeats n port taken.toNat
      { s with gkoIn := mput (fun _ => []) s.gkoIn (n.val * 32 + port.val) (q ++ [(beat, period.toNat)]) })) ∧
  (∀ (n : Node) (port : Fin 32) (beat : BitVec 128) (period : Word) (taken : BitVec 7) (s : Block),
    inRun s n = true →
    rgRuns s n (port / 4) = true →
    64 ≤ (mget (fun _ => []) s.gkoIn (n.val * 32 + port.val)).length →
    Gives (.inboundBeat n port beat period taken) s (takeBeats n port taken.toNat (streamDrop s n (port / 4)))) ∧
  (∀ (n : Node) (port : Fin 32) (beat : BitVec 128) (period : Word) (taken : BitVec 7) (s : Block),
    inRun s n = true →
    rgRuns s n (port / 4) = false →
    Gives (.inboundBeat n port beat period taken) s (takeBeats n port taken.toNat s)) ∧
  (∀ (n : Node) (port : Fin 32) (s : Block) (b : BitVec 128) (rest : List (BitVec 128)),
    inRun s n = true →
    mget (fun _ => []) s.gkoOut (n.val * 32 + port.val) = b :: rest →
    s.now ≤ (b.extractLsb' 64 64).toNat * 2 ^ 16 + (b.extractLsb' 48 16).toNat →
    Gives (.outboundBeatExpire n port true) s
      { s with gkoOut := mput (fun _ => []) s.gkoOut (n.val * 32 + port.val) rest }) ∧
  (∀ (n : Node) (port : Fin 32) (taken : Bool) (s : Block) (b : BitVec 128) (rest : List (BitVec 128)),
    inRun s n = true →
    mget (fun _ => []) s.gkoOut (n.val * 32 + port.val) = b :: rest →
    (taken = false ∨ (b.extractLsb' 64 64).toNat * 2 ^ 16 + (b.extractLsb' 48 16).toNat < s.now) →
    let due := (b.extractLsb' 64 64).toNat * 2 ^ 16 + (b.extractLsb' 48 16).toNat
    Gives (.outboundBeatExpire n port taken) s
      (streamDrop (atTime { s with gkoOut := mput (fun _ => []) s.gkoOut (n.val * 32 + port.val) rest } due) n (port / 4))) ∧
  (∀ (n : Node) (r : Fin 8) (who : BitVec 8) (req : MemReq) (data : List (BitVec 8)) (s : Block),
    inRun s n = true →
    netEnd s n who.toNat (0x50 + r) req.addr = none →
    isolatedEp s n (0x50 + r) = false →
    rgServes s n r = true →
    Gives (.geckoWindowAccess n r who ⟨req, .served⟩ data) s
      (answer who.toNat ⟨rspOk, if req.wr then [] else data, { s with gkoWin := s.gkoWin ++ [(n.val, r.val, req)] }⟩)) ∧
  (∀ (n : Node) (r : Fin 8) (who : BitVec 8) (req : MemReq) (data : List (BitVec 8)) (s : Block),
    inRun s n = true →
    netEnd s n who.toNat (0x50 + r) req.addr = none →
    (isolatedEp s n (0x50 + r) = true ∨ rgServes s n r = false) →
    Gives (.geckoWindowAccess n r who ⟨req, .served⟩ data) s (answer who.toNat ⟨rspIsolated, onesData req, s⟩)) ∧
  (∀ (n : Node) (r : Fin 8) (who : BitVec 8) (req : MemReq) (data : List (BitVec 8)) (s b : Block) (k : Nat),
    inRun s n = true →
    netEnd s n who.toNat (0x50 + r) req.addr = some (k, b) →
    Gives (.geckoWindowAccess n r who ⟨req, .served⟩ data) s (answer who.toNat ⟨k, onesData req, b⟩)) ∧
  (∀ (n : Node) (r : Fin 8) (who : BitVec 8) (req : MemReq) (data : List (BitVec 8)) (d : Fin 48) (s : Block),
    inRun s n = true →
    let b := timedOut (raise s n SRC.NOC_FLIT_UE d 0) n who.toNat (0x50 + r) n req.addr 4
    Gives (.geckoWindowAccess n r who ⟨req, .lost d false⟩ data) s (answer who.toNat ⟨rspTimeout, onesData req, b⟩)) ∧
  (∀ (n : Node) (l : Fin 32) (s : Block),
    inRun s n = true →
    regionLive s n (l / 4) = true →
    Gives (.geckoTrigger n l) s (dlmTrigger (ringFire s n l 2) n l)) ∧
  (∀ (n : Node) (l : Fin 16) (s : Block),
    inRun s n = true →
    regionLive s n (l / 2) = true →
    let b := rput s n .GKO_IRQ_PEND 0 (rget s n .GKO_IRQ_PEND ||| BitVec.ofNat 32 (2 ^ l.val))
    Gives (.geckoIrqLine n l) s (if rget b n .GKO_IRQ_PEND &&& rget b n .GKO_IRQ_EN = 0 then b else hostIrq (irqAll b n cFabric) n hFabric))

/-- EN = 1 of a region in HOLD releases it; in another phase it is rejected; while DRAINING it is ignored. EN = 0 of a running region drains it, each output that still plays into it being muted; an EN write during a load of the region only sets EN. A region that is draining stops in HOLD once no output plays into it and it is owed no response. In Run, a checked configuration word of a running region that decodes clean changes nothing else; a correctable one is corrected, counts and raises GKO_CFG_CE; an uncorrectable one raises GKO_CFG_UE and faults the region, after the capture if one is in progress for it. CAPTURE, not busy and with an aligned destination, is refused for the named regions that are not running or frozen and takes the others with its time, FREEZE and destination: BUSY. At its edge a region's record is made, and FREEZE freezes a running region. Written, the records are in the record store, DONE sets, BUSY clears, upset regions fault and a waiting load goes on. CAPTURE_RESUME, not busy, lets every frozen region run. Where the spec leaves the point open, these are the choices of the model: log 34 (one check a command), log 40 (EN during a load), log 59 (captures), log 1 (the moment of an event, and a command whose condition does not hold). -/
def Obligations.FabricRegionsAndCaptures : Prop :=
  (∀ (n : Node) (r : Fin 8) (s : Block) (en : Bool),
    takenNow s n 0xE = true →
    inLoad s n r = true →
    Gives (.regionEnWrite n r en) s (fput s n F.GKO_REGION_CTRL_EN (ix r) (b2n en))) ∧
  (∀ (n : Node) (r : Fin 8) (s : Block),
    takenNow s n 0xE = true →
    inLoad s n r = false →
    rgState s n r = 0 →
    rgPhase s n r = phHold →
    Gives (.regionEnWrite n r true) s (releaseRegion (fput s n F.GKO_REGION_CTRL_EN (ix r) 1) n r)) ∧
  (∀ (n : Node) (r : Fin 8) (s : Block),
    takenNow s n 0xE = true →
    inLoad s n r = false →
    rgState s n r ≠ 1 →
    (rgState s n r ≠ 0 ∨ rgPhase s n r ≠ phHold) →
    Gives (.regionEnWrite n r true) s (gkoReject s n)) ∧
  (∀ (n : Node) (r : Fin 8) (s : Block),
    takenNow s n 0xE = true →
    inLoad s n r = false →
    rgState s n r = 1 →
    Gives (.regionEnWrite n r true) s s ∧
    Gives (.regionEnWrite n r false) s (fput s n F.GKO_REGION_CTRL_EN (ix r) 0)) ∧
  (∀ (n : Node) (r : Fin 8) (s : Block),
    takenNow s n 0xE = true →
    inLoad s n r = false →
    rgState s n r = 2 →
    rgState (fput s n F.GKO_REGION_CTRL_EN (ix r) 0) n r = 2 →
    Gives (.regionEnWrite n r false) s (drainRegion (fput s n F.GKO_REGION_CTRL_EN (ix r) 0) n r)) ∧
  (∀ (n : Node) (r : Fin 8) (s : Block),
    rgState s n r = 1 →
    rgPlaying s n r = false →
    regionOwed s n r = false →
    Gives (.regionDrainDone n r) s (stopRegion s n r false phHold)) ∧
  (∀ (n : Node) (r : Fin 8) (w : BitVec 19) (flips : BitVec 72) (s : Block),
    inRun s n = true →
    rgPhase s n r = phRun →
    8 * w.toNat < (region s n r).image.length →
    let b := putUpset s n r w.toNat (mget (fun _ => 0) (region s n r).upset w.toNat ^^^ flips)
    let t := raise b n SRC.GKO_CFG_UE r 0
    Gives (.configWordCheck n r ⟨w, flips⟩) s (match (decodeStored code64 (cfgWord b n r w.toNat).toNat).found with
      | .clean => b
      | .fixed _ => raise (fsat (putUpset b n r w.toNat 0) n F.GKO_REGION_STATUS_CFG_CE_COUNT (ix r)) n SRC.GKO_CFG_CE r 0
      | .bad => match mget (fun _ => none) t.caps n with
        | some c => if c.todo.contains r.val || c.recs.any (fun p => p.1 == r.val) then
            { t with caps := mput (fun _ => none) t.caps n (some { c with upset := c.upset ++ [r.val] }) }
          else faultRegion t n r
        | none => faultRegion t n r)) ∧
  (∀ (n : Node) (freeze : Bool) (regions : BitVec 8) (s : Block),
    inRun s n = true →
    fbit s n F.GKO_CAPTURE_CTRL_BUSY = false →
    let b := fset (fset s n F.GKO_CAPTURE_CTRL_FREEZE (b2n freeze)) n F.GKO_CAPTURE_CTRL_REGIONS regions.toNat
    let named := (List.range 8).filter fun r => regions.getLsbD r
    let ok := named.filter fun r => rgPhase b n r == phRun || rgPhase b n r == phFrozen
    let t := if ok.length = named.length then b else fset b n F.GKO_CAPTURE_CTRL_REFUSED 1
    Gives (.capture n freeze regions) s (if (rget b n .GKO_CAPTURE_DEST).toNat % 128 ≠ 0 then fset b n F.GKO_CAPTURE_CTRL_REFUSED 1
      else if ok.isEmpty then t
      else fset { t with caps := mput (fun _ => none) t.caps n (some
        { time := get64 t n .GKO_CAPTURE_TIME, freeze := freeze, dest := (rget t n .GKO_CAPTURE_DEST).toNat, todo := ok }) } n
        F.GKO_CAPTURE_CTRL_BUSY 1)) ∧
  (∀ (n : Node) (freeze : Bool) (regions : BitVec 8) (s : Block),
    fbit s n F.GKO_CAPTURE_CTRL_BUSY = true →
    Gives (.capture n freeze regions) s s ∧ Gives (.captureResume n) s s) ∧
  (∀ (n : Node) (r : Fin 8) (cells : List CellIn) (s : Block) (c : CapSt),
    inRun s n = true →
    mget (fun _ => none) s.caps n = some c →
    c.todo.contains r.val = true →
    let b := atTime s (c.time * 2 ^ 16)
    let ffs := edgeFfs b n r cells
    let p := ramPortBytes b n r
    let record := captureRecord p.2 n r (c.freeze || rgPhase b n r == phFrozen) (ffs.flatMap (fun v => leBytes 2 v.toNat) ++ p.1)
    let t := if c.freeze && rgPhase b n r = phRun then
      freezeRegion (putRegion p.2 n r { region p.2 n r with ffs := some ffs }) n r else p.2
    Gives (.captureEdge n r cells) s { t with
      caps := mput (fun _ => none) t.caps n
        (some { c with todo := c.todo.filter (· != r.val), recs := c.recs ++ [(r.val, record)] }) }) ∧
  (∀ (n : Node) (s : Block) (c : CapSt),
    inRun s n = true →
    mget (fun _ => none) s.caps n = some c →
    c.todo = [] →
    let b := c.recs.foldl (fun t p => recWrites n ownGecko p.2.length (64 * c.dest + 8192 * p.1) p.2 t) s
    let b := fset (fset b n F.GKO_CAPTURE_CTRL_DONE 1) n F.GKO_CAPTURE_CTRL_BUSY 0
    Gives (.captureWritten n) s
      (loadResume (c.upset.foldl (fun t r => faultRegion t n r) { b with caps := mput (fun _ => none) b.caps n none }) n)) ∧
  (∀ (n : Node) (s : Block),
    inRun s n = true →
    fbit s n F.GKO_CAPTURE_CTRL_BUSY = false →
    Gives (.captureResume n) s ((List.range 8).foldl (fun s r => if rgPhase s n r = phFrozen then thawRegion s n r else s) s))

/-- In periodic mode the next boundary of the primary is the next multiple of PERIOD_US after the last one; it starts a commit, or counts as skipped while one is in progress. A COMMIT of the primary is an explicit boundary, held while a commit is in progress; its DISCARD drops the unsealed RWL writes of every node, except, on a node that PREPARE has not reached, those before PREPARE. Both are rejected on another node. A PREPARE makes a node other than the primary seal, record its vote in three copies, read them back, raise SETTINGS_DIVERGENT where they differ, and send what the copy that is used says. A vote of a commit that has not failed counts, and the last one fixes the apply instant 600 ns or 2.5 µs on; a NO makes the commit fail. A vote of a failed commit is dropped. Where the spec leaves the point open, these are the choices of the model: log 46 (a node below Run, DISCARD behind PREPARE), log 57, log 1 (the moment of an event, and a command whose condition does not hold). -/
def Obligations.BoundariesSealsAndVotes : Prop :=
  (∀ (s : Block),
    isPrimary s = true →
    fget s 0 F.WEIR_CTRL_MODE = 0 →
    let p := fget s 0 F.WEIR_PERIOD_PERIOD_US * 1000
    let from_ := match s.lastBound with
      | some b => max (nowNs s + b2n (decide (s.now % 2 ^ 16 ≠ 0))) (b + 1)
      | none => nowNs s + b2n (decide (s.now % 2 ^ 16 ≠ 0))
    let due := (from_ + p - 1) / p * p
    let b := { atTime s (due * 2 ^ 16) with lastBound := some due }
    Gives .epochBoundary s (if b.commit.isSome then fwrap b 0 F.WEIR_STATUS_SKIPPED 0 else startCommit b none)) ∧
  (∀ (s : Block),
    (isPrimary s = false ∨ fget s 0 F.WEIR_CTRL_MODE ≠ 0) →
    Gives .epochBoundary s s) ∧
  (∀ (n : Node) (s : Block),
    takenNow s n 0x2 = true →
    n.val = 0 →
    isPrimary s = true →
    Gives (.weirCommitWrite n) s (if s.commit.isSome then { s with heldBounds := s.heldBounds ++ [none] } else startCommit s none) ∧
    Gives (.weirDiscard n) s { s with shadow := s.shadow.filter (fun p => behindPrepare s (keyNode p.1)), shadowLate := [] }) ∧
  (∀ (n : Node) (s : Block),
    takenNow s n 0x2 = true →
    (n.val ≠ 0 ∨ isPrimary s = false) →
    Gives (.weirCommitWrite n) s (fset s n F.WEIR_STATUS_CFG_REJECT 1) ∧ Gives (.weirDiscard n) s (fset s n F.WEIR_STATUS_CFG_REJECT 1)) ∧
  (∀ (n : Node) (e0 e1 e2 : BitVec 104) (s : Block) (c : CommitSt),
    s.commit = some c →
    c.ta = none →
    c.nodes.contains n.val = true →
    c.gone.contains n.val = false →
    c.prepared.contains n.val = false →
    wPhase s n ≠ wpIsolated →
    let b := if n.val = 0 then s else sealNode s c n
    let v := voteCopy c.epoch true
    let r := pickCopy copyGen copyOk (v ^^^ e0) (v ^^^ e1) (v ^^^ e2)
    let b := if r.2 then raise b n SRC.SETTINGS_DIVERGENT 0 0 else b
    let yes := match r.1 with
      | some k => copyYes k
      | none => false
    let b := setWPhase (putWeir b n { weir b n with copies := [v ^^^ e0, v ^^^ e1, v ^^^ e2], voted := yes }) n wpVoted
    Gives (.prepareCommit n e0 e1 e2) s
      { b with commit := some { c with prepared := c.prepared ++ [n.val], sent := c.sent ++ [(n.val, yes)] } }) ∧
  (∀ (n : Node) (s : Block) (c : CommitSt) (p : Nat),
    s.commit = some c →
    c.sent.find? (fun p => p.1 == n.val) = some (p, true) →
    c.failed = false →
    let d := { c with sent := c.sent.filter (fun p => p.1 != n.val), votes := c.votes ++ [n.val] }
    let ta := nowNs s + b2n (decide (s.now % 2 ^ 16 ≠ 0)) + (if c.nodes.length ≤ 1 then 600 else 2500)
    Gives (.vote n) s { s with commit := some (if c.nodes.all fun m => d.votes.contains m then { d with ta := some ta } else d) }) ∧
  (∀ (n : Node) (s : Block) (c : CommitSt) (p : Nat),
    s.commit = some c →
    c.sent.find? (fun p => p.1 == n.val) = some (p, false) →
    c.failed = false →
    Gives (.vote n) s (failCommit { s with commit := some { c with sent := c.sent.filter fun p => p.1 != n.val } } none)) ∧
  (∀ (n : Node) (s : Block) (c : CommitSt) (p : Nat × Bool),
    s.commit = some c →
    c.sent.find? (fun p => p.1 == n.val) = some p →
    c.failed = true →
    Gives (.vote n) s { s with commit := some { c with sent := c.sent.filter fun p => p.1 != n.val } })

/-- A COMMIT in time gives a sealed node its apply instant; a late one makes it apply at once and count as late. At the apply instant every node that has it applies, all together, and the commit ends if nothing is owed to it. An acknowledgement of a node that has its apply instant, or has applied, is taken once; it ends the commit if nothing is owed to it. A sealed node told ABANDON of a failed commit gives back what it sealed. A commit not voted by VOTE_US fails. A node that has not applied or abandoned by the limit of R309 is late, once. A node that has voted YES and has no outcome VOTE_US + 100 µs after its seal raises PARTNER_LOST and is isolated, and, being no primary, leaves the table, its gangs split; a node whose acknowledgement is missing then leaves the table, with PARTNER_LOST, and the gangs it shared are split. Where the spec leaves the point open, these are the choices of the model: log 41 (a bad CONT side), log 46 (a command's commit ends with PWR_OFF), log 62 (exchange counts), log 1 (the moment of an event, and a command whose condition does not hold). -/
def Obligations.CommitsAppliesAndAcks : Prop :=
  (∀ (n : Node) (s : Block) (c : CommitSt) (ta : Nat),
    s.commit = some c →
    c.ta = some ta →
    (weir s n).sealedAt.isSome = true →
    (weir s n).ta = none →
    wPhase s n ≠ wpIsolated →
    c.acks.contains n.val = false →
    Gives (.commit n) s (if s.now ≤ ta * 2 ^ 16 then putWeir s n { weir s n with ta := some ta }
      else applyNodes (epochLate s n) c [n.val] (nowNs s))) ∧
  (∀ (s : Block) (c : CommitSt) (ta k : Nat) (ks : List Nat),
    s.commit = some c →
    c.ta = some ta →
    c.nodes.filter (fun n => (weir s n).ta.isSome) = k :: ks →
    Gives .applyEpoch s (checkEnd (applyNodes (atTime s (ta * 2 ^ 16)) c (k :: ks) ta))) ∧
  (∀ (s : Block) (c : CommitSt),
    s.commit = some c →
    (c.ta = none ∨ c.nodes.filter (fun n => (weir s n).ta.isSome) = []) →
    Gives .applyEpoch s (checkEnd s)) ∧
  (∀ (n : Node) (s : Block) (c : CommitSt),
    s.commit = some c →
    c.ta.isSome = true →
    c.nodes.contains n.val = true →
    ((weir s n).ta.isSome = true ∨ epochOf s n = c.epoch) →
    c.acks.contains n.val = false →
    let b := { s with commit := some { c with acks := c.acks ++ [n.val] } }
    Gives (.commitAck n) s (checkEnd b)) ∧
  (∀ (n : Node) (s : Block) (c : CommitSt),
    s.commit = some c →
    c.failed = true →
    c.prepared.contains n.val = true →
    (weir s n).sealedAt.isSome = true →
    wPhase s n ≠ wpIsolated →
    Gives (.abandon n) s (checkEnd (abandonNode s n))) ∧
  (∀ (s : Block) (c : CommitSt),
    s.commit = some c →
    c.failed = false →
    c.ta = none →
    Gives .voteTimeout s (failCommit (atTime s ((c.t0 + fget s 0 F.WEIR_VOTE_VOTE_US * 1000) * 2 ^ 16)) none)) ∧
  (∀ (n : Node) (s : Block) (t0 e lim : Nat),
    (weir s n).part = some (t0, e, lim) →
    (weir s n).late = false →
    let b := atTime s ((t0 + lim) * 2 ^ 16)
    Gives (.commitLate n) s (if (weir b n).late then b
      else raise (fset (putWeir b n { weir b n with late := true }) n F.WEIR_STATUS_LATE 1) n SRC.DLM_EPOCH_LATE 0 0)) ∧
  (∀ (n : Node) (s : Block) (c : CommitSt),
    (weir s n).part = none →
    s.commit = some c →
    c.nodes.contains n.val = true →
    c.prepared.contains n.val = false →
    c.gone.contains n.val = false →
    (weir s n).late = false →
    let b := atTime s ((c.t0 + (if c.nodes.length ≤ 1 then 2000 else 8000 + 180 * (s.chrTab.hops - 8))) * 2 ^ 16)
    Gives (.commitLate n) s (if (weir b n).late then b
      else raise (fset (putWeir b n { weir b n with late := true }) n F.WEIR_STATUS_LATE 1) n SRC.DLM_EPOCH_LATE 0 0)) ∧
  (∀ (n : Node) (s : Block) (t : Nat),
    (weir s n).sealedAt = some t →
    (weir s n).voted = true →
    wPhase s n = wpVoted →
    (weir s n).ta = none →
    let b := setWPhase (raise (atTime s ((t + outcomeWait s n) * 2 ^ 16)) n SRC.PARTNER_LOST 0 0) n wpIsolated
    let i := if n.val = 0 then b else splitAll (leaveTable (setRole b n roIsolated) n) n
    Gives (.outcomeTimeout n) s (match i.commit with
      | none => i
      | some c =>
        if c.ta.isSome && !c.acks.contains n.val && !c.gone.contains n.val && c.nodes.contains n.val then
          let j := splitAll (leaveTable (raise (atTime i ((c.t0 + outcomeWait s n) * 2 ^ 16)) 0 SRC.PARTNER_LOST n 0) n) n
          checkEnd { j with commit := some { c with gone := c.gone ++ [n.val] } }
        else checkEnd i)) ∧
  (∀ (n : Node) (s : Block) (c : CommitSt),
    (weir s n).sealedAt = none →
    s.commit = some c →
    c.ta.isSome = true →
    c.acks.contains n.val = false →
    c.gone.contains n.val = false →
    c.nodes.contains n.val = true →
    let b := atTime s ((c.t0 + outcomeWait s n) * 2 ^ 16)
    let t := splitAll (leaveTable (raise b 0 SRC.PARTNER_LOST n 0) n) n
    Gives (.outcomeTimeout n) s (checkEnd { t with commit := some { c with gone := c.gone ++ [n.val] } }))

/-- A snapshot image whose tiles have completed its frontier, or that was made at the apply instant, is written as a record on its node, or dropped with WEIR_SNAP_DROP; the last one ends the command, FAULTED if any was dropped. READY of a publication that is not OFF is taken for the copy that WRITE names and refused for another, and has no effect while it is OFF; EN = 1 of an OFF publication starts it with WRITE 1, FRONT 0, both counts 0 and nothing valid; EN = 0 of an ON one makes it DRAINING; every other EN write has no effect. Where the spec leaves the point open, these are the choices of the model: log 46 (the engine a SNAPSHOT names), log 57 (READY of a publication that is OFF), log 1 (the moment of an event, and a command whose condition does not hold). -/
def Obligations.SnapshotsAndPublications : Prop :=
  (∀ (n dn : Node) (g : GangIx) (s : Block) (x : SnapSt) (i : SnapImg) (e ta : Nat),
    s.snaps.find? (fun x => x.imgs.any fun i => i.dn == dn.val && i.g == g.val && i.node == n.val) = some x →
    x.imgs.find? (fun i => i.dn == dn.val && i.g == g.val && i.node == n.val) = some i →
    x.taken = some (e, ta) →
    snapReady s i ((gangTiles s dn g).filter fun tk => tk / 1024 == n.val) = true →
    let d := match i.made with
      | some m => (m, s)
      | none => snapMake s x i e ta
    let r := snapRecord d.2 n x.ring d.1.1 d.1.2
    let b := if r.1 then r.2 else raise r.2 n SRC.WEIR_SNAP_DROP 0 0
    let y := { x with imgs := x.imgs.filter (· != i), dropped := x.dropped || !r.1 }
    Gives (.snapshotImageDone n dn g) s (if y.imgs.isEmpty then
        cmdEnd { b with snaps := b.snaps.filter fun z => !(z.q == x.q && z.cid == x.cid) } x.q x.cid
          (if y.dropped then { status := stFaulted, detail := SRC.WEIR_SNAP_DROP, epoch := e, r0 := e } else { status := stOk, epoch := e, r0 := e })
      else { b with snaps := b.snaps.map fun z => if z.q = x.q && z.cid = x.cid then y else z })) ∧
  (∀ (n : Node) (p : Fin 32) (copy : Fin 4) (s : Block),
    takenNow s n 0x2 = true →
    pubF s n p F.WEIR_PUB_CTRL_STATE ≠ 0 →
    pubF s n p F.WEIR_PUB_STATE_WRITE = copy.val →
    Gives (.pubReady n p copy) s { s with pubReady := mput (fun _ => false) s.pubReady (n.val * 32 + p.val) true }) ∧
  (∀ (n : Node) (p : Fin 32) (copy : Fin 4) (s : Block),
    takenNow s n 0x2 = true →
    pubF s n p F.WEIR_PUB_CTRL_STATE ≠ 0 →
    pubF s n p F.WEIR_PUB_STATE_WRITE ≠ copy.val →
    Gives (.pubReady n p copy) s (setPub s n p F.WEIR_PUB_STATE_READY_REFUSED 1)) ∧
  (∀ (n : Node) (p : Fin 32) (copy : Fin 4) (s : Block),
    takenNow s n 0x2 = true →
    pubF s n p F.WEIR_PUB_CTRL_STATE = 0 →
    Gives (.pubReady n p copy) s s) ∧
  (∀ (n : Node) (p : Fin 32) (s : Block),
    takenNow s n 0x2 = true →
    pubF s n p F.WEIR_PUB_CTRL_STATE = 0 →
    let b := setPub (setPub s n p F.WEIR_PUB_CTRL_EN 1) n p F.WEIR_PUB_CTRL_STATE 2
    let b := setPub (setPub b n p F.WEIR_PUB_STATE_WRITE 1) n p F.WEIR_PUB_STATE_FRONT 0
    let b := setPub (setPub b n p F.WEIR_PUB_STATE_SEALS 0) n p F.WEIR_PUB_STATE_PUBS 0
    let b := setPub (setPub b n p F.WEIR_PUB_STATE_VALID 0) n p F.WEIR_PUB_STATE_PEND_VALID 0
    Gives (.pubEnWrite n p true) s { b with pubReady := mput (fun _ => false) b.pubReady (n.val * 32 + p.val) false }) ∧
  (∀ (n : Node) (p : Fin 32) (s : Block),
    takenNow s n 0x2 = true →
    pubF s n p F.WEIR_PUB_CTRL_STATE = 2 →
    Gives (.pubEnWrite n p false) s (setPub (setPub s n p F.WEIR_PUB_CTRL_EN 0) n p F.WEIR_PUB_CTRL_STATE 1)) ∧
  (∀ (n : Node) (p : Fin 32) (en : Bool) (s : Block),
    takenNow s n 0x2 = true →
    (en = true ∧ pubF s n p F.WEIR_PUB_CTRL_STATE ≠ 0 ∨ en = false ∧ pubF s n p F.WEIR_PUB_CTRL_STATE ≠ 2) →
    Gives (.pubEnWrite n p en) s s)

/-- A link that is ON, with power at both ends and its far end ON, and is TRAINING or DOWN comes UP with its partner, or FENCED where one end is fenced or isolated; a link that is ON and TRAINING or DOWN tries again 10 ms after its last try. On a live link the flits that have come to the sender wait at its pair; a flit with the expected number is delivered and acknowledged, and the next one is expected; one corrected by FEC counts; one not correctable is asked for again, and the replay counts at the sender; one of another number only shows that the link lives. A link silent for 1 µs goes DOWN, its unacknowledged flit goes to the other link of the pair, and SPAN_LINK_DOWN is raised; a module whose parent pair has failed holds over. EN = 1 of an OFF link makes it ON and TRAINING; EN = 0 of an ON one turns it OFF, its unacknowledged flit going to the other link. Where the spec leaves the point open, these are the choices of the model: log 49 (flits and acknowledgements of the Bunel), log 57 (a link reads OFF at once), log 1 (the moment of an event, and a command whose condition does not hold). -/
def Obligations.SpanLinksTrainAndCarry : Prop :=
  (∀ (n : Node) (l : Fin 8) (pn : Node) (pl : Fin 8) (asym : Word) (s : Block),
    linkOn s n l = true →
    linkOn s pn pl = true →
    linkPowered s n = true →
    linkPowered s pn = true →
    (lstate s n l = lsTraining ∨ lstate s n l = lsDown) →
    let b := putLink s n l { link s n l with
      partner := some (pn.val, pl.val), lastFlit := s.now, rxNext := 0, asked := false, asym := asym.toInt }
    let b := fput b n F.SPAN_LINK_STATUS_PARTNER_LINK l pl
    let b := fput b n F.SPAN_LINK_STATUS_PARTNER_NODE l (if nodePresent b pn then pn else 0)
    Gives (.spanLinkUp n l pn pl asym) s (setLstate b n l
      (if s.fenced.contains n.val || s.fenced.contains pn.val || role s n == roIsolated then lsFenced else lsUp))) ∧
  (∀ (n : Node) (l : Fin 8) (s : Block),
    linkOn s n l = true →
    (lstate s n l = lsTraining ∨ lstate s n l = lsDown) →
    let b := atTime s ((link s n l).lastTry + 10000000 * 2 ^ 16)
    Gives (.spanTrainRetry n l) s (putLink (setLstate b n l lsTraining) n l { link s n l with lastTry := b.now })) ∧
  (∀ (n : Node) (l : Fin 8) (seq : BitVec 32) (put : List BunelFlit) (s : Block) (pn pl : Nat) (found : WordCheck),
    linkLive s n l = true →
    (link s n l).partner = some (pn, pl) →
    found ≠ .uncorrectable →
    seq.toNat = (link s n l).rxNext % 2 ^ 32 →
    let b := putPair s pn (pairOf pl) (pairWait s pn (pairOf pl) ++ put)
    let b := if found = .correctable then fsat b n F.SPAN_LINK_ERR_FEC_CORR l else b
    let r := sendFlit b pn pl
    let x := link s n l
    Gives (.flitReceive n l seq ⟨found, put⟩) s (putLink (ackFlit r.2 pn pl) n l
      { x with lastFlit := b.now, rxNext := x.rxNext + 1, asked := false, inbox := x.inbox ++ r.1.toList })) ∧
  (∀ (n : Node) (l : Fin 8) (seq : BitVec 32) (put : List BunelFlit) (s : Block) (pn pl : Nat) (found : WordCheck),
    linkLive s n l = true →
    (link s n l).partner = some (pn, pl) →
    found ≠ .uncorrectable →
    seq.toNat ≠ (link s n l).rxNext % 2 ^ 32 →
    let b := putPair s pn (pairOf pl) (pairWait s pn (pairOf pl) ++ put)
    let b := if found = .correctable then fsat b n F.SPAN_LINK_ERR_FEC_CORR l else b
    Gives (.flitReceive n l seq ⟨found, put⟩) s (putLink b n l { link s n l with lastFlit := b.now })) ∧
  (∀ (n : Node) (l : Fin 8) (seq : BitVec 32) (put : List BunelFlit) (s : Block) (pn pl : Nat),
    linkLive s n l = true →
    (link s n l).partner = some (pn, pl) →
    let b := putPair s pn (pairOf pl) (pairWait s pn (pairOf pl) ++ put)
    Gives (.flitReceive n l seq ⟨.uncorrectable, put⟩) s
      (fsat (putLink (sendFlit b pn pl).2 n l { link b n l with asked := true }) pn F.SPAN_LINK_ERR_REPLAYS pl)) ∧
  (∀ (n : Node) (l : Fin 8) (s : Block),
    linkLive s n l = true →
    let b := setLstate (atTime s ((link s n l).lastFlit + 1000 * 2 ^ 16)) n l lsDown
    let b := if parentLink s n == some l.val && lstate s n (mateOf l) != lsUp then enterHoldover b n else b
    Gives (.linkDownDetect n l) s
      (raise (requeueFlit (putLink b n l { link s n l with asked := false, lastTry := b.now }) n l) n SRC.SPAN_LINK_DOWN l 0)) ∧
  (∀ (n : Node) (l : Fin 8) (s : Block),
    takenNow s n 0xF = true →
    fget s n F.SPAN_LINK_CTRL_STATE l = 0 →
    let b := fput (fput s n F.SPAN_LINK_CTRL_EN l 1) n F.SPAN_LINK_CTRL_STATE l 2
    Gives (.spanLinkEnWrite n l true) s (putLink (setLstate b n l lsTraining) n l { link b n l with lastTry := b.now })) ∧
  (∀ (n : Node) (l : Fin 8) (s : Block),
    takenNow s n 0xF = true →
    fget s n F.SPAN_LINK_CTRL_STATE l = 2 →
    Gives (.spanLinkEnWrite n l false) s
      (requeueFlit (setLstate (fput (fput s n F.SPAN_LINK_CTRL_EN l 0) n F.SPAN_LINK_CTRL_STATE l 0) n l lsOff) n l))

/-- A call period comes CALL_MS after the last and calls on every live link and WSL lane. A 64-byte call on a live link is kept and answered, and the primary judges the caller; a link's answer is kept. On a WSL lane a call packet is answered, and an answer of a front-end is taken as R359 says; another packet counts as bad. A candidate with no rival of a lower serial number and no primary in reach becomes PRIMARY, 50 ms after it was ready. A loss reported over a pair that is down fences the farther node, of two equally far the higher. A node fences its links to the lost node and stops the gangs they shared; the lost node drops its flits, fences its links and mutes its outputs. A secondary that cannot reach the primary is ISOLATED, raises PARTNER_LOST, mutes, and leaves the table, its gangs split. A front-end that misses three calls leaves. A time transfer over the parent link gives its offset, corrects the time of the child by it and ends a holdover; one out of bounds for 1 ms raises SPAN_TIME_UNLOCK. Where the spec leaves the point open, these are the choices of the model: log 42 (layout of an answer, a node that isolates itself), log 43 (node numbers, the moment of the election), log 45 (correction of time), log 1 (the moment of an event, and a command whose condition does not hold). -/
def Obligations.ChorusDiscoversAndFences : Prop :=
  (∀ (n : Node) (s : Block),
    let b := match mget (fun _ => none) s.calledAt n with
      | some t => atTime s (t + fget s n F.CHR_CTRL_CALL_MS * 1000000 * 2 ^ 16)
      | none => s
    Gives (.callPeriod n) s (callAll { b with calledAt := mput (fun _ => none) b.calledAt n (some b.now) } n)) ∧
  (∀ (n : Node) (port : Fin 32) (bytes : List (BitVec 8)) (s : Block),
    24 ≤ port.val →
    linkLive s n (port.val - 24) = true →
    bytes.length = 64 →
    let l := port.val - 24
    let b := sendCall (putLink s n l { link s n l with heard := bytes, lastFlit := s.now }) n port
    Gives (.chorusCall n port bytes) s
      (if role b 0 = roPrimary && nodePresent b n && !b.fenced.contains n.val then judge b n l (parseCall bytes) else b)) ∧
  (∀ (n : Node) (port : Fin 32) (bytes : List (BitVec 8)) (s : Block),
    24 ≤ port.val →
    linkLive s n (port.val - 24) = true →
    bytes.length = 64 →
    Gives (.chorusAnswer n port bytes) s (putLink s n (port.val - 24) { link s n (port.val - 24) with heard := bytes, lastFlit := s.now })) ∧
  (∀ (n : Node) (port : Fin 32) (bytes : List (BitVec 8)) (s : Block) (k : WslPkt),
    port.val < 24 →
    wslUp s n port = true →
    wslParse bytes = some k →
    k.typ = 5 →
    Gives (.chorusCall n port bytes) s (wslSend (wslSeen s n port k) n port 6 0 (callBytes s n port))) ∧
  (∀ (n : Node) (port : Fin 32) (bytes : List (BitVec 8)) (s : Block) (k : WslPkt),
    port.val < 24 →
    wslUp s n port = true →
    wslParse bytes = some k →
    k.typ ≠ 5 →
    Gives (.chorusCall n port bytes) s (wslBad s n port)) ∧
  (∀ (n : Node) (port : Fin 32) (bytes : List (BitVec 8)) (s : Block) (k : WslPkt),
    port.val < 24 →
    wslUp s n port = true →
    wslParse bytes = some k →
    k.typ = 6 →
    k.payload.length = 16 →
    leAt k.payload 9 2 ≤ 4096 →
    Gives (.chorusAnswer n port bytes) s (feAnswer (wslSeen s n port k) n port k.payload)) ∧
  (∀ (n : Node) (port : Fin 32) (bytes : List (BitVec 8)) (s : Block) (k : WslPkt),
    port.val < 24 →
    wslUp s n port = true →
    wslParse bytes = some k →
    k.typ ≠ 6 →
    Gives (.chorusAnswer n port bytes) s (wslBad s n port)) ∧
  (∀ (n : Node) (port : Fin 32) (bytes : List (BitVec 8)) (s : Block),
    port.val < 24 →
    wslUp s n port = true →
    wslParse bytes = none →
    Gives (.chorusCall n port bytes) s (wslBad s n port) ∧ Gives (.chorusAnswer n port bytes) s (wslBad s n port)) ∧
  (∀ (s : Block),
    role s 0 = roCandidate →
    ((List.range 64).any fun n => n != 0 && role s n == roCandidate && reaches s 0 n &&
      decide ((Config.serialNumber n).toNat < (Config.serialNumber 0).toNat)) = false →
    ((List.range 8).any fun l => linkLive s 0 l && !(link s 0 l).heard.isEmpty && leAt (link s 0 l).heard 29 1 == roPrimary) = false →
    let b := atTime s ((pow s 0).readyAt + 50000000 * 2 ^ 16)
    Gives .primaryElection s { fset (setRole b 0 roPrimary) 0 F.WEIR_STATUS_PRIMARY 1 with posHeld := [(0, 0, 0)] }) ∧
  (∀ (n : Node) (d : Fin 4) (s : Block) (p : Nat),
    pairPeer s n d = some p →
    pairDown s n d = true →
    nodePresent s n = true →
    nodePresent s p = true →
    p ≠ n.val →
    let lost := if hopsTo0 s n < hopsTo0 s p || (hopsTo0 s n = hopsTo0 s p && n.val < p) then p else n.val
    Gives (.lossReport n d) s (if s.fenced.contains lost || lost = 0 then s else loseNode s lost)) ∧
  (∀ (n lost : Node) (s : Block),
    s.fenced.contains lost.val = true →
    n = lost →
    let mine := (List.range 8).filter fun l => linkLive s n l
    Gives (.fence n lost) s (muteAll (dropFlits (mine.foldl (fun s l => setLstate s n l lsFenced) s) n) n mcFault)) ∧
  (∀ (n lost : Node) (s : Block),
    s.fenced.contains lost.val = true →
    n ≠ lost →
    let mine := (List.range 8).filter fun l => linkLive s n l && (match (link s n l).partner with
      | some (p, _) => p == lost.val
      | none => false)
    let b := mine.foldl (fun s l => setLstate s n l lsFenced) s
    Gives (.fence n lost) s (splitFrom lost b n)) ∧
  (∀ (n : Node) (s : Block),
    role s n = roSecondary →
    (s.fenced.contains n.val = true ∨ reaches s n 0 = false) →
    let b := ((List.range 8).filter fun l => linkLive s n l).foldl (fun s l => setLstate s n l lsFenced) (setRole s n roIsolated)
    let b := muteAll (raise b n SRC.PARTNER_LOST 0 0) n mcFault
    Gives (.primaryUnreachable n) s
      (if n.val = 0 || b.fenced.contains n.val || !(admitted b).any (fun m => m.node == n.val) then b else splitAll (loseNode b n) n)) ∧
  (∀ (n : Node) (p : Fin 24) (s : Block),
    fbit s n F.CHR_FE_ADMITTED p = true →
    3 ≤ (lane s n p).unans →
    Gives (.frontEndLeave n p) s (feLeave s n p)) ∧
  (∀ (n : Node) (l : Fin 8) (t1 t2 t3 t4 : DWord) (s : Block),
    parentLink s n = some l.val →
    let off := ((t2 - t1).toInt - (t4 - t3).toInt) / 2 - (link s n l).asym
    let b := rput s n .SPAN_LINK_TIME l (BitVec.ofInt 32 off)
    let b := putTim b n { tim b n with skew := (tim b n).skew + off * 65536 / 1000 }
    let b := if (tim (rput s n .SPAN_LINK_TIME l (BitVec.ofInt 32 off)) n).hold.isSome then leaveHoldover b n else b
    let bound : Int := 1000 + 125 * (hopsTo0 b n - 8 : Nat)
    Gives (.timeTransfer n l t1 t2 t3 t4) s (if -bound ≤ off && off ≤ bound then
        { b with unlockAt := mput (fun _ => none) b.unlockAt n none }
      else match mget (fun _ => none) b.unlockAt n with
        | none => { b with unlockAt := mput (fun _ => none) b.unlockAt n (some b.now) }
        | some t => if t + 1000000 * 2 ^ 16 ≤ b.now then raise b n SRC.SPAN_TIME_UNLOCK 0 0 else b))

/-- In Run a droop stretches its island clock to at least the step k of R399; a droop below the threshold starts the recovery of a stretched island 20 ns later, and each recovery, at its time, takes one step off, the next 8 cycles of the island later; where that ends the sustained sag of a compute die, the time of its last throttle step is renewed. In Run a die of level 0 of which an island has been stretched for SUSTAIN_US takes throttle level 1 and raises GOV_SAG; while the sag lasts the level goes up by one every 10 µs to at most 7, and else down by one every 100 µs. A power sample above 98 % of the cap raises the level for power by one to at most 7, with GOV_POWER_CAP at the first; one at or below 93 %, 100 µs after the last change, lowers it. POWER_DW holds the sample. Where the spec leaves the point open, these are the choices of the model: log 44 (the die of a tile), log 46 (the windows withheld), log 1 (the moment of an event, and a command whose condition does not hold). -/
def Obligations.SagAndThrottle : Prop :=
  (∀ (n : Node) (g : Fin 1096) (d : BitVec 10) (s : Block),
    sagStep d.toNat (fget s n F.GOV_SAG_SAG_MV) ≠ 0 →
    pState s n = 0 →
    Gives (.sagStretch n g d) s (putIsland (foldIsland s n g) n g
      { k := max (island s n g).k (sagStep d.toNat (fget s n F.GOV_SAG_SAG_MV)),
        since := if (island s n g).k = 0 then s.now else (island s n g).since, due := none })) ∧
  (∀ (n : Node) (g : Fin 1096) (d : BitVec 10) (s : Block),
    sagStep d.toNat (fget s n F.GOV_SAG_SAG_MV) = 0 →
    pState s n = 0 →
    (island s n g).k ≠ 0 →
    (island s n g).due = none →
    Gives (.sagStretch n g d) s (putIsland s n g { island s n g with due := some (s.now + 20 * 2 ^ 16) })) ∧
  (∀ (n : Node) (g : Fin 1096) (s : Block) (due : Nat),
    (island s n g).due = some due →
    let b := atTime s due
    let x := island s n g
    let t := putIsland (foldIsland b n g) n g (if x.k ≤ 1 then {} else { x with k := x.k - 1, due := some (b.now + eightCycles b n g) })
    Gives (.sagRecover n g) s (if decide (g.val < 1024) && sustained b n (dieOf g) && !sustained t n (dieOf g) then
      putSagLevel t n (dieOf g) (sagLevel t n (dieOf g)) else t)) ∧
  (∀ (n : Node) (d : Fin 4) (s : Block),
    inRun s n = true →
    sustained s n d = true →
    sagLevel s n d = 0 →
    Gives (.sagSustained n d) s (raise (putSagLevel s n d 1) n SRC.GOV_SAG 0 0)) ∧
  (∀ (n : Node) (d : Fin 4) (s : Block),
    sagLevel s n d ≠ 0 →
    sustained s n d = true →
    Gives (.throttleStep n d) s
      (putSagLevel (atTime s (mget (fun _ => 0) (pow s n).dieStep d + 10000 * 2 ^ 16)) n d (min 7 (sagLevel s n d + 1)))) ∧
  (∀ (n : Node) (d : Fin 4) (s : Block),
    sagLevel s n d ≠ 0 →
    sustained s n d = false →
    Gives (.throttleStep n d) s
      (putSagLevel (atTime s (mget (fun _ => 0) (pow s n).dieStep d + 100000 * 2 ^ 16)) n d (sagLevel s n d - 1))) ∧
  (∀ (n : Node) (dw : Half) (s : Block),
    let b := fset s n F.GOV_MONITOR_POWER_DW dw.toNat
    let cap := fget b n F.GOV_CAP_CAP_W
    let up := putPow b n { pow b n with capLvl := min 7 ((pow b n).capLvl + 1), capStep := b.now }
    Gives (.powerSample n dw) s (if 98 * cap < 10 * dw.toNat then (if (pow b n).capLvl = 0 then raise up n SRC.GOV_POWER_CAP 0 0 else up)
      else if 10 * dw.toNat ≤ 93 * cap && decide (0 < (pow b n).capLvl) && decide ((pow b n).capStep + 100000 * 2 ^ 16 ≤ b.now) then
        putPow b n { pow b n with capLvl := (pow b n).capLvl - 1, capStep := b.now }
      else b))

/-- A temperature sample is held, with whether a die is within 10 °C of WARN_C or above; above Rest and Brake each die above WARN_C raises GOV_TEMP_HIGH, each above 110 °C raises GOV_TEMP_TRIP, and a trip asks for Brake; in Brake and Rest the compute dies read −128. A rail out of range opens the 1 s limit if none is open, and above Brake raises GOV_RAIL_FAULT with the rail. One that falls with VIN or PWR_FAIL_N makes the event of the supply. Once every output is muted or the limit has passed, Rest is asked for, unless the rails have recovered. VIN below its limit for long puts the node in Rest at once, its stores in progress cut off, and a wake source taken is held. VIN back in range lets a wake source that was held wake the node. VAUX lost, nothing but the MRAM is kept. A clock write sets each field that is in its range, and rejects the other. Where the spec leaves the point open, these are the choices of the model: log 45 (GOV_TEMP_HIGH at every reading), log 60 (supplies of FIO banks, wake sources held), log 2 (how PWR_FAIL_N shows a rail). -/
def Obligations.TemperaturesAndRails : Prop :=
  (∀ (n : Node) (t0 t1 t2 t3 io : BitVec 8) (s : Block),
    (pow s n).off = false →
    pState s n < 3 →
    let ts := [t0, t1, t2, t3, io]
    let warn : Int := fget s n F.GOV_TEMP_WARN_C
    let b := putPow s n { pow s n with temps := ts, hot := ts.any fun t => decide (warn - 10 < t.toInt) }
    let b := (ts.filter fun t => decide (warn < t.toInt)).foldl (fun s _ => raise s n SRC.GOV_TEMP_HIGH 0 0) b
    let trips := ts.filter fun t => decide (110 < t.toInt)
    let b := trips.foldl (fun s _ => raise s n SRC.GOV_TEMP_TRIP 0 0) b
    Gives (.tempSample n t0 t1 t2 t3 io) s (if trips.isEmpty then b else startEntry b n 3)) ∧
  (∀ (n : Node) (t0 t1 t2 t3 io : BitVec 8) (s : Block),
    (pow s n).off = false →
    3 ≤ pState s n →
    let ts : List (BitVec 8) := [0x80, 0x80, 0x80, 0x80, io]
    let warn : Int := fget s n F.GOV_TEMP_WARN_C
    Gives (.tempSample n t0 t1 t2 t3 io) s
      (putPow s n { pow s n with temps := ts, hot := ts.any fun t => decide (warn - 10 < t.toInt) })) ∧
  (∀ (n : Node) (rail : Option (Fin 18 × Bool)) (fail : Bool) (s : Block),
    (pow s n).off = false →
    (rail.isSome = true ∨ fail = true) →
    let vin := rail.any fun r => r.1.val == 8 && !r.2
    let b := putPow s n { pow s n with
      vinLow := (pow s n).vinLow || vin, pfail := (pow s n).pfail || fail,
      lowIo := (pow s n).lowIo ||| (rail.map fun r => lowBank r.1).getD 0,
      rail := some ((pow s n).rail.getD (nowNs s + 1000000000)) }
    let b := if vin then holdExit b n else b
    let c := match rail with
      | some r => if vin then b else raise b n SRC.GOV_RAIL_FAULT 0 r.1
      | none => b
    Gives (.railOutOfRange n rail fail) s (if 3 ≤ pState b n then b
      else if vin || fail then supplyEvent c n ((pow s n).vinLow || (pow s n).pfail) else c)) ∧
  (∀ (n : Node) (s : Block) (due : Nat) (back : BitVec 9),
    (pow s n).rail = some due →
    (allMuted s n = true ∨ due ≤ nowNs s) →
    let b := putPow s n { pow s n with lowIo := (pow s n).lowIo &&& ~~~back.setWidth 8, pfail := (pow s n).pfail && !back.getLsbD 8 }
    let b := putPow b n { pow b n with rail := none }
    Gives (.railFaultTimeout n back) s
      (if (back.getLsbD 8 && !(pow s n).vinLow) || (pow s n).vinLow && pState s n = 4 then b else startEntry b n 4)) ∧
  (∀ (n : Node) (s : Block) (back : BitVec 9),
    (pow s n).rail = none →
    Gives (.railFaultTimeout n back) s (putPow s n { pow s n with
      lowIo := (pow s n).lowIo &&& ~~~back.setWidth 8, pfail := (pow s n).pfail && !back.getLsbD 8 })) ∧
  (∀ (n : Node) (s : Block),
    (pow s n).off = false →
    pState s n ≠ 4 →
    Gives (.vinCollapse n) s (enterState (putPow (tearStores s n) n
      { pow s n with
        vinLow := true, rail := none, exit := none, wakeAfter := none, after := none,
        held := ((pow s n).held <|> (pow s n).wakeAfter <|> (pow s n).exit),
        started := (pow s n).started && !fbit s n F.NVS_STATUS_RECOVERY }) n 4)) ∧
  (∀ (n : Node) (s : Block),
    (pow s n).off = false →
    pState s n = 4 →
    Gives (.vinCollapse n) s (setMoving (putPow s n
      { pow s n with
        vinLow := true, rail := none, exit := none, wakeAfter := none, after := none,
        held := ((pow s n).held <|> (pow s n).wakeAfter <|> (pow s n).exit) }) n false)) ∧
  (∀ (n : Node) (s : Block),
    let b := dropLatches (wipeChorus (wipeNode (tearStores s n) n fun _ => false) n) n
    let b := { b with pins := mdrop b.pins (n * 128) ((n + 1) * 128) }
    Gives (.vauxLoss n) s (putTim (putPow b n { off := true }) n {})) ∧
  (∀ (n : Node) (s : Block),
    (pow s n).vinLow = true →
    let b := putPow s n { pow s n with vinLow := false, held := none }
    Gives (.vinReturn n) s (match (pow s n).held with
      | some src => startExit b n src
      | none => b)) ∧
  (∀ (n : Node) (w : Word) (s : Block),
    takenNow s n 0x14 = true →
    let b := if 750 ≤ wbits w 31 16 ∧ wbits w 31 16 ≤ 1500 then fset s n F.GOV_CLK_TILE_MHZ (wbits w 31 16) else govReject s n
    Gives (.govClkWrite n w) s
      (if 600 ≤ wbits w 15 0 ∧ wbits w 15 0 ≤ 1200 then fset b n F.GOV_CLK_ACU_MHZ (wbits w 15 0) else govReject b n))

/-- D3hot asks for Brake, or is refused with D3_HELD. A GOV_REQ of a reserved target is rejected with CFG_REJECT, one for Run has no effect, one that may not be taken is rejected, and any other is taken. An entry whose outputs are muted, whose trips have been taken, whose reply is written and whose node has left the table if it must, drains the tasks for Brake and Rest; once its ACUs are quiet it enters its state, then takes the wake that came, and the last secondary down lets the primary follow. A wake pin, the timer at its time, a keep-alive wake that has been sent and a TLP begin an exit, where R407 lets that source wake the state and it is not masked. An exit done, GOV_STATE reads RUN with its source in WAKE_SRC, the node goes on as R408 says, and host requests that waited are served. A BMC write to the node's address sets the pointer and writes its bytes in turn. ASPM L1 is entered from Run or Idle when enabled and trained. Where the spec leaves the point open, these are the choices of the model: log 49 (domains that close), log 60 (requests, what a wake keeps, ASPM), log 1 (the moment of an event, and a command whose condition does not hold). -/
def Obligations.PowerRequestsAndWakes : Prop :=
  (∀ (s : Block),
    let b := { s with d3hot := true }
    Gives .d3hotWrite s (if powerBusy b [0] 3 none then govReject (fset b 0 F.GOV_STATE_D3_HELD 1) 0 else powerGo b [0] 3)) ∧
  (∀ (n : Node) (target : BitVec 3) (all : Bool) (s : Block),
    takenNow s n 0x14 = true →
    5 ≤ target.toNat →
    Gives (.govReqWrite n target all) s (govReject s n)) ∧
  (∀ (n : Node) (all : Bool) (s : Block),
    takenNow s n 0x14 = true →
    Gives (.govReqWrite n 0 all) s s) ∧
  (∀ (n : Node) (target : BitVec 3) (all : Bool) (s : Block),
    takenNow s n 0x14 = true →
    target.toNat < 5 →
    target ≠ 0 →
    powerBusy s (namedNodes s all n) target.toNat none = false →
    Gives (.govReqWrite n target all) s (powerGo s (namedNodes s all n) target.toNat)) ∧
  (∀ (n : Node) (target : BitVec 3) (all : Bool) (s : Block),
    takenNow s n 0x14 = true →
    target.toNat < 5 →
    target ≠ 0 →
    powerBusy s (namedNodes s all n) target.toNat none = true →
    Gives (.govReqWrite n target all) s (govReject s n)) ∧
  (∀ (n : Node) (s : Block) (t : Nat),
    (pow s n).entry = some t →
    allMuted s n = true →
    (s.events.any fun e => e.node == n.val && (e.src == SRC.GOV_TEMP_TRIP || e.src == SRC.GOV_RAIL_FAULT)) = false →
    replyFirst s n = false →
    ((pow s n).leaving && nodePresent s n) = false →
    ((List.range 16).all (acuQuiet (if 3 ≤ t then drainTasks s n else s) n)) = true →
    let b := closingDomains (if 3 ≤ t then drainTasks s n else s) n t
    let c := enterState (putPow b n { pow b n with wakeAfter := none }) n t
    let c := match (pow b n).wakeAfter with
      | some src => startExit c n src
      | none => c
    Gives (.powerEntryDone n) s (if (domsDown t).any (domOwes b n) then b
      else match (pow c 0).waitAll with
      | some t0 => if (c.nodeTab.all fun e => e.node == 0 || decide (t0 ≤ pState c e.node) && (pow c e.node).entry.isNone)
            && !(List.range 64).any fun m => (pow c m).leaving then
          startEntry (putPow c 0 { pow c 0 with waitAll := none }) 0 t0
        else c
      | none => c)) ∧
  (∀ (n : Node) (s : Block) (t : Nat),
    (pow s n).entry = some t →
    allMuted s n = true →
    (s.events.any fun e => e.node == n.val && (e.src == SRC.GOV_TEMP_TRIP || e.src == SRC.GOV_RAIL_FAULT)) = false →
    replyFirst s n = false →
    ((pow s n).leaving && nodePresent s n) = false →
    ((List.range 16).all (acuQuiet (if 3 ≤ t then drainTasks s n else s) n)) = false →
    Gives (.powerEntryDone n) s (if 3 ≤ t then drainTasks s n else s)) ∧
  (∀ (n : Node) (s : Block),
    (pow s n).off = false →
    (fget s n F.GOV_WAKE_CTRL_SRC_MASK).testBit wkPin = true →
    (pow s n).exit = none →
    (pow s n).hot = false →
    (pow s n).entry = none →
    wakes (pState s n) wkPin = true →
    Gives (.wakeNLow n) s (if (pow s n).vinLow then putPow s n { pow s n with held := some wkPin }
      else setMoving (putPow s n { pow s n with exit := some wkPin, held := none }) n true)) ∧
  (∀ (n : Node) (s : Block) (t : Nat),
    (pow s n).off = false →
    (fget s n F.GOV_WAKE_CTRL_SRC_MASK).testBit wkPin = true →
    (pow s n).exit = none →
    (pow s n).hot = false →
    (pow s n).entry = some t →
    wakes t wkPin = true →
    Gives (.wakeNLow n) s (putPow s n { pow s n with wakeAfter := some wkPin })) ∧
  (∀ (n : Node) (s : Block),
    ((pow s n).off = true ∨ (fget s n F.GOV_WAKE_CTRL_SRC_MASK).testBit wkPin = false ∨ (pow s n).exit.isSome = true ∨ (pow s n).hot = true) →
    Gives (.wakeNLow n) s s) ∧
  (∀ (s : Block),
    Gives .tlpWake s (startExit (putPow s 0 { pow s 0 with inL1 := false }) 0 wkTlp)) ∧
  (∀ (n : Node) (s : Block),
    fbit s n F.GOV_WAKE_CTRL_TIMER_EN = true →
    (pState s n ≠ 0 ∨ (pow s n).entry.isSome = true) →
    (pow s n).off = false →
    Gives (.wakeTimer n) s (startExit (atDev s n (get64 s n .GOV_WAKE * 2 ^ 16)) n wkTimer)) ∧
  (∀ (n : Node) (s : Block),
    (pow s n).keepAlive = true →
    Gives (.keepAliveWake n) s (startExit (putPow s n { pow s n with keepAlive := false }) n wkKeep)) ∧
  (∀ (n : Node) (s : Block) (src : Nat),
    (pow s n).exit = some src →
    (pow s n).vinLow = false →
    let st := pState s n
    let b := setMoving (fset (fset s n F.GOV_STATE_STATE 0) n F.GOV_STATE_WAKE_SRC (2 ^ src)) n false
    let b := putPow b n { pow b n with exit := none, after := none, inL1 := false, reload := (pow b n).reload || decide (3 ≤ st) }
    let b := if st = 2 then openDomains b n else b
    let b := if st = 1 || st = 2 then thawRegions b n st else clearRecord (clearStaging b n) n
    let b := if st = 4 then startLinks b n else b
    let b := if st = 4 then
        (if n.val = 0 then fset (setRole b 0 roPrimary) 0 F.WEIR_STATUS_PRIMARY 1 else callAll (setRole b n roUnattached) n)
      else if st = 3 && n.val = 0 then fset b 0 F.WEIR_STATUS_PRIMARY 1
      else b
    let b := if n.val = 0 && (st = 2 || st = 3) then sendKeepAlive b else b
    let b := if (pow b n).perst then endpointReset b n else b
    Gives (.powerExitDone n) s (tlpRelease (match (pow s n).after with
      | some t => startEntry b n t
      | none => b))) ∧
  (∀ (n : Node) (addr : BitVec 2) (ptr : BitVec 8) (bytes : List (BitVec 8)) (s : Block),
    (pow s n).off = false →
    (pow s n).bmcAddr = addr →
    Gives (.bmcWrite n addr ptr bytes) s (bytes.foldl (fun s b =>
      putPow (bmcByteWrite s n (pow s n).bmcPtr.toNat b) n
        { pow (bmcByteWrite s n (pow s n).bmcPtr.toNat b) n with bmcPtr := (pow s n).bmcPtr + 1 })
      (putPow s n { pow s n with bmcPtr := ptr }))) ∧
  (∀ (n : Node) (addr : BitVec 2) (ptr : BitVec 8) (bytes : List (BitVec 8)) (s : Block),
    ((pow s n).off = true ∨ (pow s n).bmcAddr ≠ addr) →
    Gives (.bmcWrite n addr ptr bytes) s s) ∧
  (∀ (en : Bool) (s : Block),
    Gives (.aspmL1Entry en) s (putPow s 0 { pow s 0 with
      aspm := en, inL1 := (pow s 0).inL1 || (en && decide (pState s 0 ≤ 1) && mget (fun _ => false) s.pcieUp 0) }))

/-- A read of TIM_NOW_LO that is served answers the low word of device time and latches the time for the context; one that is denied answers all ones with its code. On a node with time of its own a valid reference, with REFSEL not 0, sets REF_LOCK and ends holdover; its loss, when not in holdover, enters holdover and raises TIM_REF_LOSS; a node without time of its own, or with REFSEL 0, ignores both. A PPS edge is kept and with PPS_ALIGN sets PPS_LOCK exactly where it lies at most 5 ns off; on the primary with a load pending and the PPS locked it makes the load instead; a secondary ignores it. No edge 1.1 s after the expected one, PPS_LOCK clears and TIM_PPS_LOSS is raised. With PPS_OUT_EN a powered node pulses PPS_OUT at the next whole second. TIM_SET on the primary, nothing of the system running and the value not below now, is pending with its due time 1 s on; else it is refused with CFG_REJECT. The load at that time, without PPS lock, is timeLoadNow: it sets device time or, below now or with something running, sets CFG_REJECT. When the holdover error first passes LIMIT_NS, TIM_HOLDOVER_LIMIT is raised. Where the spec leaves the point open, these are the choices of the model: log 45 (the times of the modules), log 47 (SET on a secondary, when PPS is lost), log 1 (the moment of an event, and a command whose condition does not hold). -/
def Obligations.TimeKeepsAndLoads : Prop :=
  (∀ (c : Ctx) (s : Block),
    servedNow s c = true →
    pathCode (arrived s c) c (accessNode (arrived s c) c 0x01500008) 0x01500008 = rspOk →
    let b := arrived s c
    Gives (.timNowLoRead c) s (answer (ctxNum c) ⟨rspOk, leBytes 4 (BitVec.ofNat 32 (devNs b (accessNode b c 0x01500008))).toNat,
      { b with timLatch := mput (fun _ => 0) b.timLatch (latchAt (ctxNum c) (accessNode b c 0x01500008)) (devTime b (accessNode b c 0x01500008)) }⟩)) ∧
  (∀ (c : Ctx) (s : Block),
    servedNow s c = true →
    pathCode (arrived s c) c (accessNode (arrived s c) c 0x01500008) 0x01500008 ≠ rspOk →
    let b := arrived s c
    let n := accessNode b c 0x01500008
    let k := pathCode b c n 0x01500008
    Gives (.timNowLoRead c) s (answer (ctxNum c) ⟨k, leBytes 4 (2 ^ 32 - 1), deniedBy b c n 0x01500008⟩)) ∧
  (∀ (n : Node) (s : Block),
    ownTime s n = true →
    fget s n F.TIM_CTRL_REFSEL ≠ 0 →
    Gives (.refLock n) s (leaveHoldover (fset s n F.TIM_STATUS_REF_LOCK 1) n)) ∧
  (∀ (n : Node) (s : Block),
    ownTime s n = true →
    fget s n F.TIM_CTRL_REFSEL ≠ 0 →
    (tim s n).hold = none →
    Gives (.refinLoss n) s (raise (enterHoldover s n) n SRC.TIM_REF_LOSS 0 0)) ∧
  (∀ (n : Node) (s : Block),
    (ownTime s n = false ∨ fget s n F.TIM_CTRL_REFSEL = 0) →
    Gives (.refLock n) s s ∧
    Gives (.refinLoss n) s s) ∧
  (∀ (n : Node) (s : Block),
    ownTime s n = true →
    (n.val ≠ 0 ∨ (tim s 0).setDue = none ∨ fbit s 0 F.TIM_STATUS_PPS_LOCK = false) →
    let b := putTim s n { tim s n with ppsAt := some (devNs s n) }
    Gives (.ppsEdge n) s (if fbit b n F.TIM_CTRL_PPS_ALIGN then
      fset b n F.TIM_STATUS_PPS_LOCK (b2n (decide (ppsError b n (devNs b n) ≤ 5))) else b)) ∧
  (∀ (s : Block),
    ownTime s (0 : Node) = true →
    (tim s 0).setDue.isSome = true →
    fbit s 0 F.TIM_STATUS_PPS_LOCK = true →
    Gives (.ppsEdge 0) s (putTim (timeLoadNow s) 0 { tim (timeLoadNow s) 0 with ppsAt := some (devNs (timeLoadNow s) 0) })) ∧
  (∀ (n : Node) (s : Block),
    ownTime s n = false →
    Gives (.ppsEdge n) s s) ∧
  (∀ (n : Node) (s : Block) (t : Nat),
    (tim s n).ppsAt = some t →
    ownTime s n = true →
    fbit s n F.TIM_CTRL_PPS_ALIGN = true →
    let b := atDev s n ((t + oneSec + 1100000000) * 2 ^ 16)
    Gives (.timPpsLoss n) s (raise (fset (putTim b n { tim b n with ppsAt := none }) n F.TIM_STATUS_PPS_LOCK 0) n SRC.TIM_PPS_LOSS 0 0)) ∧
  (∀ (n : Node) (s : Block),
    fbit s n F.TIM_CTRL_PPS_OUT_EN = true →
    (pow s n).off = false →
    let from_ := match (tim s n).outAt with
      | some t => max (t + 1) ((devTime s n + 2 ^ 16 - 1) / 2 ^ 16)
      | none => (devTime s n + 2 ^ 16 - 1) / 2 ^ 16
    let due := (from_ + oneSec - 1) / oneSec * oneSec
    let b := putTim (atDev s n (due * 2 ^ 16)) n { tim s n with outAt := some due }
    Gives (.ppsOutPulse n) s { b with pulses := b.pulses ++ [⟨n, due, fget b n F.TIM_CTRL_PPS_WIDTH_US⟩] }) ∧
  (∀ (s : Block),
    takenNow s (0 : Node) 0x15 = true →
    nowNs s ≤ get64 s 0 .TIM_SET →
    systemBusy s = false →
    Gives (.timSetWrite 0) s (putTim (fset s 0 F.TIM_STATUS_SET_PENDING 1) 0 { tim s 0 with setDue := some (nowNs s + oneSec) })) ∧
  (∀ (n : Node) (s : Block),
    takenNow s n 0x15 = true →
    (n.val ≠ 0 ∨ get64 s 0 .TIM_SET < nowNs s ∨ systemBusy s = true) →
    Gives (.timSetWrite n) s (fset s n F.TIM_STATUS_CFG_REJECT 1)) ∧
  (∀ (s : Block) (due : Nat),
    (tim s 0).setDue = some due →
    fbit s 0 F.TIM_STATUS_PPS_LOCK = false →
    Gives .timeLoad s (timeLoadNow (atTime s (due * 2 ^ 16)))) ∧
  (∀ (s : Block),
    let b := putTim (fset s 0 F.TIM_STATUS_SET_PENDING 0) 0 { tim s 0 with setDue := none }
    timeLoadNow s = (if get64 s 0 .TIM_SET * 2 ^ 16 < b.now || systemBusy b then fset b 0 F.TIM_STATUS_CFG_REJECT 1
      else { shiftHold b (get64 s 0 .TIM_SET * 2 ^ 16 - b.now) with now := get64 s 0 .TIM_SET * 2 ^ 16 })) ∧
  (∀ (n : Node) (s : Block) (t : Nat),
    (tim s n).hold = some t →
    (tim s n).warned = false →
    (pow s n).off = false →
    fget s n F.TIM_HOLD_LIMIT_NS ≠ 65535 →
    let b := atDev s n (t + (fget s n F.TIM_HOLD_LIMIT_NS + 1) * oneSec * 2 ^ 16)
    Gives (.timHoldoverLimit n) s (raise (putTim b n { tim b n with warned := true }) n SRC.TIM_HOLDOVER_LIMIT 0 0))

/-- FAULT_EVENT of a powered node in Run, Idle or Furl takes the oldest k + 1 of its events: each known one counts in TOTAL_EVENTS, and those of enabled sources are taken in the order of R380; in Brake, Rest or Off, and before the collector runs, it changes nothing. QUIET_WINDOW_END of a window: one that waits ends at its time where an output still plays into the block, and else restarts the block, staying open until its due time; one that does not wait, whose block is back in service for the first time, has its end moved to 1 µs from now if that is earlier; else it ends at its time. A leak step, at its time, takes one off COUNT, and the next is due after LEAK ms if COUNT is not 0 and LEAK is not 0; an escalation, at its time, makes a record one level above the top open one. A served acknowledgement acts on its source as ackSource says; a served CLEAR_FIRST frees the first and next records. A waiting black-box record is written with the boot count and the CRC of both, the history keeping 1,024; with none waiting nothing is written. Where the spec leaves the point open, these are the choices of the model: log 2 (a count beyond its width), log 60 (level and PROMOTED of a record, quiet windows, SYSTEM), log 1 (the moment of an event, and a command whose condition does not hold). -/
def Obligations.FaultsAreRecordedAndWritten : Prop :=
  (∀ (n : Node) (k : Fin 64) (s : Block),
    (pow s n).off = false →
    pState s n < 3 →
    collects s n = true →
    let mine := (s.events.filter fun e => e.node == n.val).take (k.val + 1)
    let b := { s with events := mine.foldl (fun (l : List FaultEv) e => l.erase e) s.events }
    let known := mine.filter fun e => (srcDefault e.src).isSome
    let b := known.foldl (fun s e => fwrap s n F.FLT_SRC_TOTAL_EVENTS e.src) b
    let live := known.filter fun e => cfgF b n e.src F.FLT_SRC_CFG_EN == 1
    Gives (.faultEvent n k) s ((sortEvents b live).foldl (takeEvent (decide (2 ≤ live.length))) b)) ∧
  (∀ (n : Node) (k : Fin 64) (s : Block),
    ((pow s n).off = true ∨ 3 ≤ pState s n ∨ collects s n = false) →
    Gives (.faultEvent n k) s s) ∧
  (∀ (n : Node) (src : BitVec 8) (inst : Half) (s : Block) (w : Quiet),
    (quiets s n).find? (fun w => w.src == src.toNat && w.inst == inst.toNat) = some w →
    w.waiting = true →
    let others := (quiets s n).filter fun w => !(w.src == src.toNat && w.inst == inst.toNat)
    Gives (.quietWindowEnd n src inst) s (if quietBusy s n w.src w.inst then atTime s ((w.due + 1) * 2 ^ 16)
      else putQuiets (restartBlock s n w.src w.inst) n (if nowNs s ≤ w.due then others ++ [{ w with waiting := false }] else others))) ∧
  (∀ (n : Node) (src : BitVec 8) (inst : Half) (s : Block) (w : Quiet),
    (quiets s n).find? (fun w => w.src == src.toNat && w.inst == inst.toNat) = some w →
    w.waiting = false →
    let others := (quiets s n).filter fun w => !(w.src == src.toNat && w.inst == inst.toNat)
    Gives (.quietWindowEnd n src inst) s (if blockBack s n w && !w.back then
        putQuiets s n (others ++ [{ w with back := true, due := min w.due (nowNs s + 1000) }])
      else putQuiets (atTime s ((w.due + 1) * 2 ^ 16)) n others)) ∧
  (∀ (n : Node) (src : BitVec 8) (s : Block) (due : Nat),
    (fsrc s n src.toNat).leakDue = some due →
    let b := atTime s (due * 2 ^ 16)
    let c := srcCount b n src.toNat - 1
    let b := fput b n F.FLT_SRC_STATUS_COUNT src.toNat c
    let ms := (rget b n .FLT_SRC_LEAK src.toNat).toNat
    Gives (.leakTimer n src) s (putFsrc b n src.toNat { fsrc s n src.toNat with leakDue := if c = 0 || ms = 0 then none else some (due + ms * msNs) })) ∧
  (∀ (n : Node) (src : BitVec 8) (s : Block) (due : Nat) (o : OpenF),
    (fsrc s n src.toNat).escDue = some due →
    ((fsrc s n src.toNat).opens.find? fun o => o.level == topLevel (fsrc s n src.toNat).opens) = some o →
    let b := putFsrc (atTime s (due * 2 ^ 16)) n src.toNat { fsrc s n src.toNat with escDue := none }
    Gives (.escalationTimer n src) s (makeRecord b n src.toNat o.inst o.detail (topLevel (fsrc s n src.toNat).opens + 1)
      (cfgF b n src.toNat F.FLT_SRC_CFG_LEVEL) 2 false)) ∧
  (∀ (n : Node) (src : BitVec 8) (s : Block),
    takenNow s n 0x12 = true →
    Gives (.faultAckWrite n src) s (ackSource s n src.toNat) ∧
    Gives (.clearFirst n) s (fset (fset s n F.FLT_STATUS_FIRST_VALID 0) n F.FLT_STATUS_NEXT_VALID 0)) ∧
  (∀ (n : Node) (s : Block),
    served s n = true →
    Gives (.blackboxWrite n) s (match (nvsOf s n).bbWait with
      | [] => s
      | b :: rest =>
        let body := b ++ leBytes 4 (nvsOf s n).boots
        let bb := (nvsOf s n).bb ++ [⟨(nvsOf s n).bbNum, body ++ leBytes 4 (crcBytes body), true⟩]
        putNvs s n { nvsOf s n with bbWait := rest, bbNum := (nvsOf s n).bbNum + 1, bb := if 1024 < bb.length then bb.drop 1 else bb }))

/-- In Run the patrol changes nothing for a clean word, counts and raises NVS_CE for a corrected one, and NVS_UE for a bad one, whose page or slot becomes invalid. A served read of SEC_CHALLENGE_0 draws a challenge, unless 8 unlocks have failed, and answers its first word; a denied one answers all ones with its code. A served unlock uses the challenge up and adds the scope to UNLOCKED if the response, signed by the maker or the owner, is good in time; else it fails. An expired challenge is gone. A served debug access sets DENIED while UNLOCKED bit 0 is 0; a register above 39 sets ACU_STATUS.CFG_REJECT and leaves REG as it is; a task not OFF sets it and nothing more; else it reads or writes the register REG names, a write of register 0 being discarded. Power good boots a node that has not started. RESET_N mutes the outputs; once each is muted and VIN is in range it tears the stores in progress and boots the node if it is high again, or holds it off. A reload after a wake, in Run, takes the settings pages and the calibration, loads microcode and fabric and sets READY. Where the spec leaves the point open, these are the choices of the model: log 2 (bytes of a challenge, torn stores), log 30 (what a module holds as shipped), log 45 (time at a boot), log 48 (signatures, failed loads), log 60, log 63 (DIRTY of a debug write), log 1 (the moment of an event, and a command whose condition does not hold). -/
def Obligations.SettingsSecurityAndBoot : Prop :=
  (∀ (n : Node) (addr : BitVec 23) (s : Block),
    inRun s n = true →
    Gives (.mramPatrol n addr .clean) s s ∧
    Gives (.mramPatrol n addr .correctable) s (raise (fsat s n F.NVS_ECC_CE_COUNT 0) n SRC.NVS_CE 0 0) ∧
    Gives (.mramPatrol n addr .uncorrectable) s (nvInvalidate (raise (fsat s n F.NVS_ECC_UE_COUNT 0) n SRC.NVS_UE 0 0) n (8 * addr.toNat))) ∧
  (∀ (c : Ctx) (s : Block),
    servedNow s c = true →
    pathCode (arrived s c) c (accessNode (arrived s c) c 0x01800010) 0x01800010 = rspOk →
    let b := drawChallenge (arrived s c) (accessNode (arrived s c) c 0x01800010)
    Gives (.secChallengeRead c) s (answer (ctxNum c) ⟨rspOk,
      leBytes 4 (rget b (accessNode (arrived s c) c 0x01800010) .SEC_CHALLENGE 0).toNat, b⟩)) ∧
  (∀ (c : Ctx) (s : Block),
    servedNow s c = true →
    pathCode (arrived s c) c (accessNode (arrived s c) c 0x01800010) 0x01800010 ≠ rspOk →
    let b := arrived s c
    let n := accessNode b c 0x01800010
    let k := pathCode b c n 0x01800010
    Gives (.secChallengeRead c) s (answer (ctxNum c) ⟨k, leBytes 4 (2 ^ 32 - 1), deniedBy b c n 0x01800010⟩)) ∧
  (∀ (n : Node) (scope : BitVec 3) (s : Block),
    takenNow s n 0x18 = true →
    let b := fset s n F.SEC_UNLOCK_SCOPE scope.toNat
    let v := nvsOf b n
    let b := putNvs b n { v with challenge := none }
    Gives (.secUnlock n scope) s (match v.challenge with
      | none => unlockFail b n
      | some ch =>
        let msg := ch ++ leBytes 8 (Config.serialNumber n).toNat ++ [BitVec.ofNat 8 scope.toNat]
        let byOwner := match ownerKey b n with
          | some k => Config.sigOk 1 k (secResponse b n) msg
          | none => false
        if decide (nowNs b ≤ v.chalDue) && (Config.sigOk 0 [] (secResponse b n) msg || byOwner) then
          fset b n F.SEC_UNLOCK_UNLOCKED (Nat.lor (fget b n F.SEC_UNLOCK_UNLOCKED) scope.toNat)
        else unlockFail b n)) ∧
  (∀ (n : Node) (s : Block) (ch : List (BitVec 8)),
    (nvsOf s n).challenge = some ch →
    Gives (.challengeExpiry n) s (putNvs (atTime s (((nvsOf s n).chalDue + 1) * 2 ^ 16)) n { nvsOf s n with challenge := none })) ∧
  (∀ (n : Node) (a : Fin 16) (k : Fin 64) (reg : BitVec 6) (s : Block),
    takenNow s n 0x17 = true →
    (fget s n F.SEC_UNLOCK_UNLOCKED).testBit 0 = false →
    Gives (.dbgRegRead n a k reg) s (fset s n F.SEC_STATUS_DENIED 1) ∧
    Gives (.dbgRegWrite n a k reg) s (fset s n F.SEC_STATUS_DENIED 1)) ∧
  (∀ (n : Node) (a : Fin 16) (k : Fin 64) (reg : BitVec 6) (s : Block),
    takenNow s n 0x17 = true →
    (fget s n F.SEC_UNLOCK_UNLOCKED).testBit 0 = true →
    let b := if 40 ≤ reg.toNat then fput s n F.ACU_STATUS_CFG_REJECT a 1 else fput s n F.DBG_ACU_REG_REG (at2 a k) reg.toNat
    let g := fget b n F.DBG_ACU_REG_REG (at2 a k)
    let t := task b (taskKey n a k)
    Gives (.dbgRegRead n a k reg) s (if taskState b n a k ≠ 0 then fput b n F.ACU_STATUS_CFG_REJECT a 1
      else rput b n .DBG_ACU_DATA (at2 a k) (slotGet t g)) ∧
    Gives (.dbgRegWrite n a k reg) s (if taskState b n a k ≠ 0 then fput b n F.ACU_STATUS_CFG_REJECT a 1
      else if g = 0 then b
      else putTask b (taskKey n a k) { t with regs := mput (fun _ => 0) t.regs g (rget b n .DBG_ACU_DATA (at2 a k)) })) ∧
  (∀ (n : Node) (recovery : Bool) (straps : BitVec 10) (link : Bool) (s : Block),
    (pow s n).started = false →
    Gives (.powerGood n recovery straps link) s (bootNode s n recovery (straps.setWidth 2) (~~~straps.extractLsb' 2 8) link)) ∧
  (∀ (n : Node) (high recovery : Bool) (addr : BitVec 2) (link : Bool) (s : Block),
    (pow s n).off = false →
    let b := if (pow s n).resetting then s else putPow (muteAll s n mcPower) n { pow s n with resetting := true }
    Gives (.resetNAssert n high recovery addr link) s (if !allMuted b n || (pow s n).vinLow then b
      else if high then bootNode (tearStores b n) n recovery addr (pow s n).lowIo link
      else putPow (wipeAll (tearStores b n) n) n { off := true, inReset := true, lowIo := (pow s n).lowIo })) ∧
  (∀ (n : Node) (s : Block),
    (pow s n).reload = true →
    inRun s n = true →
    let b := bootFabric (bootMicro (applyCalibration (applyPages s n) n) n) n
    Gives (.reloadDone n) s (setReady (putPow b n { pow b n with reload := false }) n))

/-- Of a request that is served as it arrives: a 32-bit aligned write with all bytes enabled lands, by its offset, in an own select, the MSI-X table, a region's window, an RWL shadow through an alias, the register there with the context's select, or nowhere; if the path denies it, only what deniedBy records changes; an unaligned one, or one with a byte of its register not enabled, changes nothing there. A 64-bit write of a paired register is one value, any other writes its two words, the lower first. RWL_SHADOW_WRITE names an RWL register directly or by its alias: the fields written legally are put over the shadow, or behind PREPARE over the late one, and a reserved value sets CFG_REJECT. A select write sets the copy named. A CLEAR bit of 1 makes the fields it clears read 0. A BAR2 access is answered by the staging memory below 128 MiB, waiting while the bank stalls it, and by the record store above if domain 4 answers; it is denied for an absent or sleeping node, has no answer in time from one cut off, none where a router lacks the route, and one past 256 MiB does nothing. A request lost on its way has no effect there; one lost on its way back, or late, has; for both the limit expires. A host request to a primary in D3hot, Rest or Off is not answered; in Furl or Brake it wakes it and waits, and behind others it waits. Where the spec leaves the point open, these are the choices of the model: log 49 (what becomes of a request on its way), log 50 (writes that mix EN with locked fields, blocks without CFG_REJECT, requests of the host that wait), log 1 (the moment of an event, and a command whose condition does not hold). -/
def Obligations.RegisterWritesLand : Prop :=
  (∀ (c : Ctx) (b : BarWrite) (s : Block) (r : Reg) (i : Nat),
    servedNow s c = true →
    pathCode (arrived s c) c (accessNode (arrived s c) c b.off) b.off = rspOk →
    b.wide = false →
    b.off % 4 = 0 →
    b.be.extractLsb' 0 4 = 0xF →
    ownSelect b.off = none →
    msixAt b.off = none →
    windowOf b.off = none →
    aliasAt b.off = none →
    regAt b.off = some (r, i) →
    Gives (.registerWrite c ⟨b, .served⟩) s (writeReg (arrived s c) c (accessNode (arrived s c) c b.off) r i
      (selVal (arrived s c) (ctxNum c) (regSpec r).sel) (b.data.setWidth 32))) ∧
  (∀ (c : Ctx) (b : BarWrite) (s : Block) (i : Nat),
    servedNow s c = true →
    pathCode (arrived s c) c (accessNode (arrived s c) c b.off) b.off = rspOk →
    b.wide = false →
    b.off % 4 = 0 →
    b.be.extractLsb' 0 4 = 0xF →
    ownSelect b.off = some i →
    Gives (.registerWrite c ⟨b, .served⟩) s (selWrite (arrived s c) (ctxNum c) i (b.data.setWidth 32))) ∧
  (∀ (c : Ctx) (b : BarWrite) (s : Block) (i : Nat),
    servedNow s c = true →
    pathCode (arrived s c) c (accessNode (arrived s c) c b.off) b.off = rspOk →
    b.wide = false →
    b.off % 4 = 0 →
    b.be.extractLsb' 0 4 = 0xF →
    ownSelect b.off = none →
    msixAt b.off = some i →
    Gives (.registerWrite c ⟨b, .served⟩) s (msixWrite (arrived s c) i (b.data.setWidth 32))) ∧
  (∀ (c : Ctx) (b : BarWrite) (s : Block) (r o : Nat),
    servedNow s c = true →
    pathCode (arrived s c) c (accessNode (arrived s c) c b.off) b.off = rspOk →
    b.wide = false →
    b.off % 4 = 0 →
    b.be.extractLsb' 0 4 = 0xF →
    ownSelect b.off = none →
    msixAt b.off = none →
    windowOf b.off = some (r, o) →
    Gives (.registerWrite c ⟨b, .served⟩) s (windowReq (arrived s c) (accessNode (arrived s c) c b.off) r
      ⟨true, o, enBytes 4 (b.data.setWidth 32).toNat⟩ []).st) ∧
  (∀ (c : Ctx) (b : BarWrite) (s : Block) (r : Reg) (i : Nat),
    servedNow s c = true →
    pathCode (arrived s c) c (accessNode (arrived s c) c b.off) b.off = rspOk →
    b.wide = false →
    b.off % 4 = 0 →
    b.be.extractLsb' 0 4 = 0xF →
    ownSelect b.off = none →
    msixAt b.off = none →
    windowOf b.off = none →
    aliasAt b.off = some (r, i) →
    Gives (.registerWrite c ⟨b, .served⟩) s (rwlWrite (arrived s c) c (accessNode (arrived s c) c b.off) r i
      (selVal (arrived s c) (ctxNum c) (regSpec r).sel) (b.data.setWidth 32))) ∧
  (∀ (c : Ctx) (b : BarWrite) (s : Block),
    servedNow s c = true →
    pathCode (arrived s c) c (accessNode (arrived s c) c b.off) b.off = rspOk →
    b.wide = false →
    b.off % 4 = 0 →
    b.be.extractLsb' 0 4 = 0xF →
    ownSelect b.off = none →
    msixAt b.off = none →
    windowOf b.off = none →
    aliasAt b.off = none →
    regAt b.off = none →
    Gives (.registerWrite c ⟨b, .served⟩) s (arrived s c)) ∧
  (∀ (c : Ctx) (b : BarWrite) (s : Block),
    servedNow s c = true →
    pathCode (arrived s c) c (accessNode (arrived s c) c b.off) b.off ≠ rspOk →
    b.wide = false →
    b.off % 4 = 0 →
    b.be.extractLsb' 0 4 = 0xF →
    Gives (.registerWrite c ⟨b, .served⟩) s (deniedBy (arrived s c) c (accessNode (arrived s c) c b.off) b.off)) ∧
  (∀ (c : Ctx) (b : BarWrite) (s : Block),
    servedNow s c = true →
    (b.wide = false ∧ (b.be.extractLsb' 0 4 ≠ 0xF ∨ b.off % 4 ≠ 0) ∨ b.wide = true ∧ b.off % 8 ≠ 0) →
    Gives (.registerWrite c ⟨b, .served⟩) s (arrived s c)) ∧
  (∀ (c : Ctx) (b : BarWrite) (s t : Block),
    servedNow s c = true →
    b.wide = true →
    b.off % 8 = 0 →
    b.be = 0xFF →
    pathCode (arrived s c) c (accessNode (arrived s c) c b.off) b.off = rspOk →
    pairWrite (arrived s c) c (accessNode (arrived s c) c b.off) b.off b.data = some t →
    Gives (.registerWrite c ⟨b, .served⟩) s t) ∧
  (∀ (c : Ctx) (b : BarWrite) (s : Block),
    servedNow s c = true →
    b.wide = true →
    b.off % 8 = 0 →
    (¬ (b.be = 0xFF ∧ pathCode (arrived s c) c (accessNode (arrived s c) c b.off) b.off = rspOk) ∨ pairWrite (arrived s c) c (accessNode (arrived s c) c b.off) b.off b.data = none) →
    let t := if b.be.extractLsb' 0 4 = 0xF then (barWord (arrived s c) c b.off (b.data.setWidth 32)).2 else arrived s c
    Gives (.registerWrite c ⟨b, .served⟩) s (if b.be.extractLsb' 4 4 = 0xF then (barWord t c (b.off + 4) (b.data.extractLsb' 32 32)).2 else t)) ∧
  (∀ (c : Ctx) (off : Nat) (w : Word) (s : Block),
    barWord s c off w = (if pathCode s c (accessNode s c off) off = rspOk then writeAt s c (accessNode s c off) off w
      else (pathCode s c (accessNode s c off) off, deniedBy s c (accessNode s c off) off))) ∧
  (∀ (c : Ctx) (b : BarWrite) (s : Block) (r : Reg) (i : Nat),
    servedNow s c = true →
    pathCode (arrived s c) c (accessNode (arrived s c) c b.off) b.off = rspOk →
    b.wide = false →
    b.off % 4 = 0 →
    b.be.extractLsb' 0 4 = 0xF →
    ownSelect b.off = none →
    msixAt b.off = none →
    windowOf b.off = none →
    (aliasAt b.off = some (r, i) ∨ aliasAt b.off = none ∧ regAt b.off = some (r, i)) →
    isRwl r = true →
    Gives (.rwlShadowWrite c ⟨b, .served⟩) s (rwlWrite (arrived s c) c (accessNode (arrived s c) c b.off) r i
      (selVal (arrived s c) (ctxNum c) (regSpec r).sel) (b.data.setWidth 32))) ∧
  (∀ (s : Block) (c : Ctx) (n : Nat) (r : Reg) (idx sel : Nat) (w : Word),
    let k := rkey n r (ix idx sel)
    let late := (match c with
      | .queue _ => true
      | _ => false) && behindPrepare s n
    let b := if late then { s with shadowLate := rwlPut s.shadowLate k (rwlTake r w).1 } else { s with shadow := rwlPut s.shadow k (rwlTake r w).1 }
    rwlWrite s c n r idx sel w = if (rwlTake r w).2 then setReject b n r idx sel else b) ∧
  (∀ (c : Ctx) (qc : Option (Fin 16)) (i : Fin 11) (w : Word) (s : Block),
    servedNow s c = true →
    Gives (.selectWrite c qc i w) s (if accessCode (arrived s c) 0 0x00100100 = rspOk then
        selWrite (arrived s c) (match qc with
          | some q => q.val
          | none => ctxNum c) i w
      else arrived s c)) ∧
  (∀ (c : Ctx) (b : BarWrite) (s : Block) (r : Reg) (i k : Nat) (fs : List Fld),
    servedNow s c = true →
    pathCode (arrived s c) c (accessNode (arrived s c) c b.off) b.off = rspOk →
    b.wide = false →
    b.off % 4 = 0 →
    b.be.extractLsb' 0 4 = 0xF →
    ownSelect b.off = none →
    msixAt b.off = none →
    windowOf b.off = none →
    aliasAt b.off = none →
    regAt b.off = some (r, i) →
    clearOf r = some (k, fs) →
    b.data.getLsbD k = true →
    mrising none (arrived s c).regs = true →
    let t := writeReg (arrived s c) c (accessNode (arrived s c) c b.off) r i
      (selVal (arrived s c) (ctxNum c) (regSpec r).sel) (b.data.setWidth 32)
    Gives (.counterClearWrite c ⟨b, .served⟩) s t ∧ ∀ f ∈ fs, fget t (accessNode (arrived s c) c b.off) f (ix i (selVal (arrived s c) (ctxNum c) (regSpec r).sel)) = 0) ∧
  (∀ (req : MemReq) (way : BusWay) (s : Block),
    servedNow s (.queue 0) = true →
    (2 ^ 28 < req.addr + req.bytes.length ∨ req.bytes = []) →
    Gives (.bar2Access ⟨req, way⟩) s (arrived s (.queue 0))) ∧
  (∀ (req : MemReq) (s : Block),
    servedNow s (.queue 0) = true →
    req.addr + req.bytes.length ≤ 2 ^ 28 →
    req.bytes ≠ [] →
    let b := arrived s (.queue 0)
    let n := selGet b 0 0
    let t := bar2Target b n req
    Gives (.bar2Access ⟨req, .served⟩) s (if !nodePresent b n then answer ownHost ⟨rspIsolated, onesData req, b⟩
      else if !(served b n || cutFrom b 0 n) then answer ownHost ⟨rspPwrOff, onesData req, b⟩
      else
        match (if n = 0 then BusPath.there else busPath b 0 ownHost n t.1) with
        | .gone => answer ownHost ⟨rspTimeout, onesData req, bar2TimedOut n t b⟩
        | .lacks m r => answer ownHost ⟨rspNoRoute, onesData req, noRouteRaise b m r⟩
        | .there =>
          if req.addr < 2 ^ 27 then
            (match stgReq b n ownHost 0 req with
            | some a => answer ownHost a
            | none => { stgWaits b n with tlpQ := [.bar2 ⟨req, .served⟩ (some (limitOf b 0 n))] })
          else answer ownHost (recReq b n ownHost { req with addr := apertureByte b n req.addr }))) ∧
  (∀ (s : Block) (n a : Nat),
    apertureByte s n a = a - 2 ^ 27 + 2 ^ 27 * fget s n F.GLB_REC_APERTURE_WINDOW) ∧
  (∀ (req : MemReq) (r : Fin 48) (s : Block),
    servedNow s (.queue 0) = true →
    req.addr + req.bytes.length ≤ 2 ^ 28 →
    req.bytes ≠ [] →
    nodePresent (arrived s (.queue 0)) (selGet (arrived s (.queue 0)) 0 0) = true →
    let b := arrived s (.queue 0)
    let n := selGet b 0 0
    let t := bar2Target b n req
    let w := if served b n || cutFrom b 0 n then bar2Way b n t req else some ⟨rspPwrOff, onesData req, b⟩
    let out := fun (x : Block) => answer ownHost ⟨rspTimeout, onesData req, bar2TimedOut n t x⟩
    Gives (.bar2Access ⟨req, .lost r false⟩) s (out (raise b 0 SRC.NOC_FLIT_UE r 0)) ∧
    ∀ a, w = some a → Gives (.bar2Access ⟨req, .late⟩) s (out (fsat a.st 0 F.NOC_LATE_COUNT 0)) ∧
      Gives (.bar2Access ⟨req, .lost r true⟩) s (out (raise a.st 0 SRC.NOC_FLIT_UE r 0))) ∧
  (∀ (c : Ctx) (b : BarWrite) (r : Fin 48) (s : Block),
    servedNow s c = true →
    let x := arrived s c
    let out := regTimedOut (ctxHome (ctxNum c)) (ctxEp c) (accessNode x c b.off) b.off
    Gives (.registerWrite c ⟨b, .lost r false⟩) s (out (raise x (ctxHome (ctxNum c)) SRC.NOC_FLIT_UE r 0)) ∧
    Gives (.registerWrite c ⟨b, .lost r true⟩) s (out (raise (barWrite x c b).2 (ctxHome (ctxNum c)) SRC.NOC_FLIT_UE r 0)) ∧
    Gives (.registerWrite c ⟨b, .late⟩) s (out (fsat (barWrite x c b).2 (ctxHome (ctxNum c)) F.NOC_LATE_COUNT 0))) ∧
  (∀ (k : Fin 16) (b : NetWrite) (req : NetReq) (s : Block),
    (s.d3hot = true ∨ (pow s 0).off = true ∨ pState s 0 = 4) →
    Gives (.registerWrite (.queue k) b) s s ∧
    Gives (.bar2Access req) s s) ∧
  (∀ (k : Fin 16) (b : NetWrite) (req : NetReq) (s : Block),
    s.d3hot = false →
    (pow s 0).off = false →
    (pState s 0 = 2 ∨ pState s 0 = 3) →
    Gives (.registerWrite (.queue k) b) s (tlpWake { s with tlpQ := s.tlpQ ++ [.write (.queue k) b] }) ∧
    Gives (.bar2Access req) s (tlpWake { s with tlpQ := s.tlpQ ++ [.bar2 req none] })) ∧
  (∀ (k : Fin 16) (b : NetWrite) (req : NetReq) (s : Block),
    s.d3hot = false →
    (pow s 0).off = false →
    pState s 0 < 2 →
    s.tlpQ ≠ [] →
    let t := arrived s (.queue k)
    Gives (.registerWrite (.queue k) b) s { t with tlpQ := t.tlpQ ++ [.write (.queue k) b] } ∧
    Gives (.bar2Access req) s { t with tlpQ := t.tlpQ ++ [.bar2 req none] })

/-- For every register and every field of it: an RW or RWL field takes the value written if it is legal and keeps its own otherwise; ones written clear the bits of a W1C field and set those of a W1S field; RO, LIVE and WO fields keep their value; a bit in no field keeps its value; the write is marked for rejection exactly when a reserved value was written; a WO field reads as zero. -/
def Obligations.FieldsChangeByType : Prop :=
  ∀ (r : Reg) (old w : Word),
    let a := (fieldsBut r []).foldl (writeField w) (old, false)
    (∀ f ∈ (regSpec r).fields,
      wbits a.1 f.hi f.lo = (match f.ty with
        | .rw => if legalOk f.legal (wbits w f.hi f.lo) then wbits w f.hi f.lo else wbits old f.hi f.lo
        | .rwl => if legalOk f.legal (wbits w f.hi f.lo) then wbits w f.hi f.lo else wbits old f.hi f.lo
        | .w1c => wbits (old &&& ~~~w) f.hi f.lo
        | .w1s => wbits (old ||| w) f.hi f.lo
        | .ro => wbits old f.hi f.lo
        | .live => wbits old f.hi f.lo
        | .wo => wbits old f.hi f.lo) ∧
      (f.ty = .wo → wbits (readable r old) f.hi f.lo = 0)) ∧
    (∀ j : Nat, (∀ f ∈ (regSpec r).fields, j < f.lo ∨ f.hi < j) → a.1.getLsbD j = old.getLsbD j) ∧
    (a.2 = true ↔ ∃ f ∈ (regSpec r).fields, (f.ty = .rw ∨ f.ty = .rwl ∨ f.ty = .wo) ∧
      legalOk f.legal (wbits w f.hi f.lo) = false)

/-- A READ, WRITE or MSG well formed, whose tag is free, is outstanding until its limit, which is that of local or of remote targets, and goes on its way; one whose tag is in use is not sent. On its way: a router that lacks the route answers so, and where the way breaks off nothing does; a flit discarded as uncorrectable raises NOC_FLIT_UE, and the request or its answer is lost. A module not in the table answers isolated; one in Brake, Rest or Off powered down; an isolated endpoint isolated. A READ or WRITE that comes through is taken by an ACU's local RAM; a register block; a Gecko window for aligned 4 or 8 bytes, whose design answers, or isolated if the region does not serve and none is given; the memory behind the bridge of its domain: served if the bridge is open, waiting if it is in HOLD, powered down if the domain is closed and not to be woken, held if it is, a closing bridge opening again; any other endpoint answers a decoding error. A MSG that comes through raises its cause, but a reserved one, at an ACU and is acknowledged, is acknowledged by the command processor, and elsewhere answers a decoding error. The first answer to an outstanding request frees its tag and reaches the initiator with its code, 6 and 7 as a decoding error, and ones for data it lacks; one that comes late is discarded and counted. A HELD notice sets the limit to the exit time of the domain and the local one from now. A snoop lets go of the line, for WBINV after a write-back, and is acknowledged; the initiator takes the oldest acknowledgement. Where the spec leaves the point open, these are the choices of the model: log 40 (the order of a port's channels), log 45 (the cause of a MSG), log 49 (one step from initiator to target, remote packets, owner codes, instances, HELD, dies), log 1 (the moment of an event, and a command whose condition does not hold). -/
def Obligations.PacketsRequestsAndAnswers : Prop :=
  (∀ (n : Node) (c : Ctx) (f : BitVec 128) (p : PacketIn) (s : Block),
    flType f = tyRead →
    flSnode f = n.val →
    flSrc f ≤ 0x1C →
    flAge f = 0 →
    flBits f 60 4 = 0 →
    outReq s n (flSrc f) (flTag f) = none →
    flAddr f % 64 + flLen f < 64 →
    Gives (.read n c f p) s (sentBy { s with outReqs := s.outReqs ++ [⟨n, flSrc f, flTag f, f, limitOf s n (flDnode f)⟩] }
      f p.way fun s => packetDeliver s c f (flitReq f []) p.ans)) ∧
  (∀ (n : Node) (c : Ctx) (f : BitVec 128) (data : List (BitVec 8)) (p : PacketIn) (s : Block),
    flType f = tyWrite →
    flSnode f = n.val →
    flSrc f ≤ 0x1C →
    flAge f = 0 →
    flBits f 60 4 = 0 →
    outReq s n (flSrc f) (flTag f) = none →
    flAddr f % 64 + flLen f < 64 →
    Gives (.write n c f data p) s (sentBy { s with outReqs := s.outReqs ++ [⟨n, flSrc f, flTag f, f, limitOf s n (flDnode f)⟩] }
      f p.way fun s => packetDeliver s c f (flitReq f data) (p.ans.map fun _ => []))) ∧
  (∀ (n : Node) (f : BitVec 128) (x : MsgIn) (s : Block),
    flType f = tyMsg →
    flSnode f = n.val →
    flSrc f ≤ 0x1C →
    flAge f = 0 →
    flBits f 60 4 = 0 →
    outReq s n (flSrc f) (flTag f) = none →
    Gives (.msg n f x) s (sentBy { s with outReqs := s.outReqs ++ [⟨n, flSrc f, flTag f, f, limitOf s n (flDnode f)⟩] }
      f x.way fun s => msgDeliver s f x.cause)) ∧
  (∀ (n : Node) (c : Ctx) (f : BitVec 128) (data : List (BitVec 8)) (p : PacketIn) (x : MsgIn) (s : Block),
    (outReq s n (flSrc f) (flTag f)).isSome = true →
    Gives (.read n c f p) s s ∧ Gives (.write n c f data p) s s ∧ Gives (.msg n f x) s s) ∧
  (∀ (f : BitVec 128) (r : Fin 48) (act : Block → Block) (s : Block),
    let t := match busPath s (flSnode f) (flSrc f) (flDnode f) (flDst f) with
      | .gone => s
      | .lacks k r => respondAck (noRouteRaise s k r) f rspNoRoute
      | .there => act s
    sentBy s f .served act = t ∧ sentBy s f .late act = t ∧ sentBy s f (.lost r false) act = raise s (flSnode f) SRC.NOC_FLIT_UE r 0 ∧
    sentBy s f (.lost r true) act = (if t.rspFlits.length = s.rspFlits.length then t
      else raise { t with rspFlits := s.rspFlits } (flSnode f) SRC.NOC_FLIT_UE r 0)) ∧
  (∀ (c : Ctx) (f : BitVec 128) (req : MemReq) (ans : Option (List (BitVec 8))) (cause : Fin 32) (s : Block),
    let near := flDnode f = flSnode f ∨ nodePresent s (flDnode f) = true
    let runs := (pow s (flDnode f)).off = false ∧ pState s (flDnode f) < 3
    (¬ near → packetDeliver s c f req ans = respond f ⟨rspIsolated, onesData req, s⟩ ∧ msgDeliver s f cause = respondAck s f rspIsolated) ∧
    (near ∧ ¬ runs → packetDeliver s c f req ans = respond f ⟨rspPwrOff, onesData req, s⟩ ∧ msgDeliver s f cause = respondAck s f rspPwrOff) ∧
    (near ∧ runs ∧ isolatedEp s (flDnode f) (flDst f) = true →
      packetDeliver s c f req ans = respond f ⟨rspIsolated, onesData req, s⟩ ∧ msgDeliver s f cause = respondAck s f rspIsolated)) ∧
  (∀ (f : BitVec 128) (cause : Fin 32) (s : Block),
    comesThrough s f = true →
    msgDeliver s f cause = (if flDst f < 16 then
        respondAck (if 11 ≤ cause.val ∧ cause.val < 16 then s else irqAcu s (flDnode f) (flDst f) cause) f rspOk
      else if flDst f = ownCmd then respondAck s f rspOk
      else respondAck s f rspDecErr)) ∧
  (∀ (c : Ctx) (f : BitVec 128) (req : MemReq) (ans : Option (List (BitVec 8))) (s : Block),
    comesThrough s f = true →
    epDomain (flDst f) = none →
    packetDeliver s c f req ans = (if flDst f < 16 then respond f (epRam s (flDnode f) (flDst f) req)
      else if 0x30 ≤ flDst f ∧ flDst f ≤ 0x49 then
        respond f (epReg s c (if flDst f = 0x31 then 0 else flDnode f) ((flDst f - 0x30) * 2 ^ 20 + req.addr % 2 ^ 20) req)
      else if 0x50 ≤ flDst f ∧ flDst f ≤ 0x57 then
        (if (req.bytes.length ≠ 4 ∧ req.bytes.length ≠ 8) ∨ req.addr % req.bytes.length ≠ 0 ∨ 2 ^ 16 < req.addr + req.bytes.length then
          respond f ⟨rspDecErr, onesData req, s⟩
        else match ans with
          | some d => respond f (windowReq s (flDnode f) (flDst f - 0x50) req d)
          | none => if rgServes s (flDnode f) (flDst f - 0x50) then s else respond f ⟨rspIsolated, onesData req, s⟩)
      else respond f ⟨rspDecErr, onesData req, s⟩)) ∧
  (∀ (c : Ctx) (f : BitVec 128) (req : MemReq) (ans : Option (List (BitVec 8))) (s : Block) (d : Nat),
    comesThrough s f = true →
    epDomain (flDst f) = some d →
    let go := fun (t : Block) => match epMem t f false req with
      | some a => respond f a
      | none => holdReq t f (16 + (flDst f - 0x20)) req
    packetDeliver s c f req ans = (if bridgeOf s (flDnode f) d = brOpen then (if bridgeHold s (flDnode f) d then holdReq s f d req else go s)
      else if fbit s (flDnode f) F.NOC_DOMAIN_WAKE_ON_ACCESS (ix d) = false then respond f ⟨rspPwrOff, onesData req, s⟩
      else if bridgeOf s (flDnode f) d = brClosing then go (setBridge s (flDnode f) d brOpen)
      else holdReq s f d req)) ∧
  (∀ (n : Node) (e : BitVec 8) (tag : BitVec 12) (s : Block) (x : RspFlit) (rest : List RspFlit) (r : OutReq),
    takeFirst (rspFor n e.toNat tag.toNat false) s.rspFlits = some (x, rest) →
    outReq { s with rspFlits := rest } n e.toNat tag.toNat = some r →
    let b := loadResume (dropReq { s with rspFlits := rest } n e.toNat tag.toNat) n
    Gives (.ack n e tag) s { b with rsps := b.rsps ++ [⟨whoIs n e.toNat, if 6 ≤ flCode x.flit then rspDecErr else flCode x.flit,
      if x.data.isEmpty then reqOnes r.flit else x.data⟩] }) ∧
  (∀ (n : Node) (e : BitVec 8) (tag : BitVec 12) (s : Block) (x : RspFlit) (rest : List RspFlit),
    takeFirst (rspFor n e.toNat tag.toNat false) s.rspFlits = some (x, rest) →
    outReq { s with rspFlits := rest } n e.toNat tag.toNat = none →
    Gives (.ack n e tag) s (fsat { s with rspFlits := rest } n F.NOC_LATE_COUNT 0)) ∧
  (∀ (n : Node) (e : BitVec 8) (tag : BitVec 12) (s : Block) (x : RspFlit) (rest : List RspFlit),
    takeFirst (rspFor n e.toNat tag.toNat true) s.rspFlits = some (x, rest) →
    let due := s.now + domExitNs ((epDomain (flSrc x.flit)).getD 7) * 2 ^ 16 + usTime (fget s n F.NOC_TIMEOUT_LOCAL_US)
    Gives (.held n e tag) s { s with
      rspFlits := rest
      outReqs := s.outReqs.map fun r => if isReq n e.toNat tag.toNat r then { r with due := due } else r }) ∧
  (∀ (n : Node) (f : BitVec 128) (line : BitVec 21) (s : Block),
    flType f = tySnoopInv →
    flDnode f = n.val →
    flDst f < 16 →
    let x := acu s n (flDst f)
    Gives (.snoopInv n f line) s (snoopReply (putAcu s n (flDst f) { x with dcache := mput (fun _ => none) x.dcache line.toNat none }) f)) ∧
  (∀ (n : Node) (f : BitVec 128) (line : BitVec 21) (s : Block),
    flType f = tySnoopWbinv →
    flDnode f = n.val →
    flDst f < 16 →
    Gives (.snoopWbinv n f line) s (snoopReply (flushLineOf n line.toNat s (flDst f)) f)) ∧
  (∀ (n : Node) (e : BitVec 8) (s : Block) (x : SnoopMsg) (rest : List SnoopMsg),
    takeFirst (fun x : SnoopMsg => flDst x.flit == e.toNat && flDnode x.flit == n.val) s.snoopAcks = some (x, rest) →
    Gives (.snoopAck n e) s { s with snoopAcks := rest })

/-- A served NOC_ISOLATE write with MAINT takes the word; without it only clears bits, and a 1 is rejected. A served SWAP starts the swap of a router in RUN and is rejected otherwise; once drained it ends with the banks exchanged, and bridges held go on; 10 µs after its start NOC_RECONF_STALL is raised, once. A served DOWN write acts on bits 4 to 7 in order: a 1 takes the domain down, closing an open bridge, or again after the wake that a held request awaits; bit 6 is refused unless the table holds one node; a 0 opens a closing bridge. A bridge that owes nothing closes, putting the lanes of domain 5 off, the links of domain 6 down. A domain that a held request woke, or not down with a closed bridge, opens, forwards the requests, and goes down again if so asked. In Run a flit that comes to a router joins its input's queue, but one that is bad (NOC_FLIT_UE), of no defined TYPE (decoding error), or of a WRITE discarded; a router in reconfiguration takes none. An output sends on each network, of the heads routed to it, the one of highest AGE, those without route discarded (NOC_NOROUTE). A time limit that expires, of a packet or a stalled request, answers TIMEOUT, frees the tag, raises NOC_TIMEOUT and keeps the record. A master request of 1 to 64 bytes in one aligned 64-byte block, of an open channel, with a free tag, goes to its target as a packet of its port, or answers a decoding error outside the map; of a channel not open, or not so shaped, nothing happens. Where the spec leaves the point open, these are the choices of the model: log 40 (the order of a port's channels), log 49 (wiring, input 0 first, HOLD, accesses at a closed bridge), log 1 (the moment of an event, and a command whose condition does not hold). -/
def Obligations.NetworkSwapsDomainsAndTimeouts : Prop :=
  (∀ (n : Node) (k : Fin 8) (w : Word) (s : Block),
    takenNow s n 0x11 = true →
    let b := rput s n .NOC_ISOLATE (ix k) (rget s n .NOC_ISOLATE (ix k) &&& w)
    Gives (.nocIsolateWrite n k w) s (if fbit s n F.NOC_CTRL_MAINT then rput s n .NOC_ISOLATE (ix k) w
      else if w = 0 then b else fset b n F.NOC_STATUS_CFG_REJECT 1)) ∧
  (∀ (n : Node) (r : Fin 48) (s : Block),
    takenNow s n 0x11 = true →
    Gives (.routerSwap n r) s (if rtrPhase s n r = 0 then
        fput (putRouter s n r { router s n r with swapAt := s.now, stalled := false }) n F.NOC_RTR_CTRL_PHASE (ix r) 1
      else fset s n F.NOC_STATUS_CFG_REJECT 1)) ∧
  (∀ (n : Node) (r : Fin 48) (s : Block),
    rtrPhase s n r = 1 →
    (router s n r).inputs = [] →
    let b := fput (fput s n F.NOC_RTR_CTRL_BANK (ix r) (1 - activeBank s n r)) n F.NOC_RTR_CTRL_PHASE (ix r) 0
    Gives (.swapDrainDone n r) s
      ((List.range 8).foldl (fun s d => if bridgeOf s n d = brOpen && !bridgeHold s n d then releaseReqs s n d else s) b)) ∧
  (∀ (n : Node) (r : Fin 48) (s : Block),
    (rtrPhase s n r ≠ 1 ∨ (router s n r).inputs ≠ []) →
    Gives (.swapDrainDone n r) s s) ∧
  (∀ (n : Node) (r : Fin 48) (s : Block),
    rtrPhase s n r = 1 →
    (router s n r).stalled = false →
    let b := putRouter (atTime s ((router s n r).swapAt + 10000 * 2 ^ 16)) n r { router s n r with stalled := true }
    Gives (.nocReconfStall n r) s (raise (fput b n F.NOC_RTR_CTRL_STALL (ix r) 1) n SRC.NOC_RECONF_STALL 0 0)) ∧
  (∀ (n : Node) (r : Fin 48) (s : Block),
    (rtrPhase s n r ≠ 1 ∨ (router s n r).stalled = true) →
    Gives (.nocReconfStall n r) s s) ∧
  (∀ (n : Node) (w : BitVec 4) (s : Block),
    takenNow s n 0x14 = true →
    Gives (.domainDownWrite n w) s (domWrite w n (domWrite w n (domWrite w n (domWrite w n s 4) 5) 6) 7)) ∧
  (∀ (n d : Nat) (w : BitVec 4) (s : Block),
    let b := setDomDown s n d true
    let c := setDomDown s n d false
    domWrite w n s d = (if w.getLsbD (d - 4) then
        (if d = 6 ∧ s.nodeTab.length ≠ 1 then fset c n F.GOV_STATE_CFG_REJECT 1
        else if bridgeOf b n d = brOpen then setBridge b n d brClosing
        else if (b.heldReqs.any fun h => h.node == n && h.dom == d) then
          putPow b n { pow b n with downAgain := (pow b n).downAgain ||| BitVec.ofNat 8 (2 ^ d) }
        else b)
      else if bridgeOf c n d = brClosing then setBridge c n d brOpen else c)) ∧
  (∀ (n : Node) (d : Fin 8) (s : Block),
    bridgeOf s n d = brClosing →
    (d.val ≠ 7 ∨ (s.heldReqs.any fun h => h.node == n.val && decide (16 ≤ h.dom)) = false ∧ (s.stgHeld.any fun h => h.node == n.val) = false) →
    let b := setBridge s n d brClosed
    Gives (.bridgeClosed n d) s (if d.val = 5 then lanesOff b n
      else if d.val = 6 then (List.range 8).foldl (fun s l => if lstate s n l = lsOff then s else setLstate s n l lsDown) b
      else b)) ∧
  (∀ (n : Node) (s : Block),
    ((s.heldReqs.any fun h => h.node == n.val && decide (16 ≤ h.dom)) = true ∨ (s.stgHeld.any fun h => h.node == n.val) = true) →
    Gives (.bridgeClosed n 7) s s) ∧
  (∀ (n : Node) (d : Fin 8) (s : Block),
    (bridgeOf s n d ≠ brOpen ∧ (s.heldReqs.any fun h => h.node == n.val && h.dom == d.val) = true ∨ bridgeOf s n d = brClosed ∧ domDown s n d = false) →
    let b := setBridge s n d brOpen
    let b := if bridgeHold b n d then b else releaseReqs b n d
    Gives (.domainWakeDone n d) s (if (pow b n).downAgain.getLsbD d && domDown b n d then
      setBridge (putPow b n { pow b n with downAgain := (pow b n).downAgain &&& ~~~BitVec.ofNat 8 (2 ^ d.val) }) n d brClosing else b)) ∧
  (∀ (n : Node) (r : Fin 48) (out : Fin 8) (ins : List RtrIn) (s : Block),
    inRun s n = true →
    Gives (.routerForward n r out ins) s ([0, 1, 2, 3].foldl (sendHead n r out) (ins.foldl (flitArrive n r) s))) ∧
  (∀ (n r : Nat) (a : RtrIn) (s : Block),
    let x := router s n r
    flitArrive n r s a = (if rtrPhase s n r ≠ 0 then s
      else if a.found = .uncorrectable then raise s n SRC.NOC_FLIT_UE r 0
      else if tyDefined (flType a.flit) = false then respondAck s a.flit rspDecErr
      else if flType a.flit = tyWdata ∧ x.drops.contains (flWriter a.flit) = true then
        putRouter s n r { x with drops := x.drops.erase (flWriter a.flit) }
      else putInput s n r (netOf (flType a.flit)) a.input (inputQ s n r (netOf (flType a.flit)) a.input ++ [⟨a.flit, s.now⟩]))) ∧
  (∀ (n r net i : Nat) (l : List Nat) (h : RtrFlit) (q : List RtrFlit) (s : Block),
    inputQ s n r net i = h :: q →
    headFlits n r net (i :: l) s = (if 8 ≤ flitPort s n r h.flit then headFlits n r net l (noRoute (putInput s n r net i q) n r h.flit)
      else ((i, aged h.flit ((s.now - h.since) / 2 ^ 16)) :: (headFlits n r net l s).1, (headFlits n r net l s).2))) ∧
  (∀ (n r out net : Nat) (s : Block),
    let p := headFlits n r net (List.range 8) s
    let x := router p.2 n r
    sendHead n r out s net = (match nextHead (mget (fun _ => 7) x.last (net * 8 + out)) (p.1.filter fun h => flitPort p.2 n r h.2 == out) with
      | none => p.2
      | some h =>
        let b := putRouter p.2 n r { x with last := mput (fun _ => 7) x.last (net * 8 + out) h.1 }
        let b := putInput b n r net h.1 ((inputQ b n r net h.1).drop 1)
        { b with fwds := b.fwds ++ [⟨n, r, out, h.2⟩] })) ∧
  (∀ (n : Node) (e : BitVec 8) (tag : BitVec 12) (s : Block) (r : OutReq),
    outReq s n e.toNat tag.toNat = some r →
    let b := loadResume (dropReq (atTime s r.due) n e.toNat tag.toNat) n
    let b := { b with rsps := b.rsps ++ [⟨whoIs n e.toNat, rspTimeout, reqOnes r.flit⟩] }
    let m := flDnode r.flit
    let c := raiseVia b n SRC.NOC_TIMEOUT (flSrc r.flit) 0 (if n.val = m then 4 else firstPair b n m)
    Gives (.initiatorTimeout n e tag) s (nocRecord c n rspTimeout (flSrc r.flit) (flDst r.flit) m (flAddr r.flit))) ∧
  (∀ (n : Node) (e : BitVec 8) (tag : BitVec 12) (s : Block) (k : Nat) (h : HeldAcc),
    outReq s n e.toNat tag.toNat = none →
    (e.toNat ≠ ownHost ∨ n.val ≠ 0 ∨ s.tlpQ = []) →
    (s.stgHeld.findIdx? fun h => h.node == n.val && h.master == e.toNat && !h.late) = some k →
    s.stgHeld[k]? = some h →
    let b := atTime { s with stgHeld := s.stgHeld.set k { h with late := true } } h.due
    Gives (.initiatorTimeout n e tag) s (answer h.master ⟨rspTimeout, onesData h.req,
      expired b n h.master (0x20 + bankOf h.req.addr) n (bankAddr h.al h.req.addr) 4⟩)) ∧
  (∀ (tag : BitVec 12) (s : Block) (req : NetReq) (due : Nat) (l : List HostTlp),
    outReq s 0 ownHost tag.toNat = none →
    s.tlpQ = .bar2 req (some due) :: l →
    let m := selGet s 0 0
    let t := bar2Target s m req.toMemReq
    let b := expired (atTime s due) 0 ownHost t.1 m t.2 (viaPair s 0 m)
    Gives (.initiatorTimeout 0 (BitVec.ofNat 8 ownHost) tag) s (tlpRelease (answer ownHost ⟨rspTimeout, onesData req.toMemReq,
      { b with stgHeld := b.stgHeld ++ [⟨m, ownHost, 0, req.toMemReq, due, true⟩], tlpQ := l }⟩))) ∧
  (∀ (n : Node) (r : Fin 8) (tag : BitVec 10) (req : NetReq) (ans : Option (List (BitVec 8))) (s b : Block) (t : Option (Nat × Nat)) (f : BitVec 128),
    masterOpen s n r = true →
    req.bytes.length ≠ 0 →
    req.addr % 64 + req.bytes.length ≤ 64 →
    t = fabricTarget req.addr →
    f = fabricFlit n r tag req.toMemReq ((t.map (·.1)).getD 0) ((t.map (·.2)).getD req.addr) →
    sendReq s n (flType f) f = some b →
    Gives (.fabricMasterRequest n r ⟨tag, req⟩ ans) s (fabricGo n r f req ans t b)) ∧
  (∀ (n : Node) (r : Fin 8) (f : BitVec 128) (req : NetReq) (ans : Option (List (BitVec 8))) (dst a : Nat) (s : Block),
    fabricGo n r f req ans (some (dst, a)) s =
      (if 0x4A ≤ dst ∧ dst < 0x50 then respond f (epReg s (.region n r) n (req.addr - 0x100000000) req.toMemReq)
      else sentBy s f req.way fun s => packetDeliver s (.region n r) f { req.toMemReq with addr := a } ans) ∧
    fabricGo n r f req ans none s = respond f ⟨rspDecErr, onesData req.toMemReq, s⟩) ∧
  (∀ (n : Node) (r : Fin 8) (tag : BitVec 10) (req : NetReq) (ans : Option (List (BitVec 8))) (s : Block),
    (masterOpen s n r = false ∨ req.bytes.length = 0 ∨ 64 < req.addr % 64 + req.bytes.length) →
    Gives (.fabricMasterRequest n r ⟨tag, req⟩ ans) s s)

/-- Of the flits at the heads of its inputs for one output, a router sends one of the highest AGE; among those it takes the input that comes first after the one served last, counting around. It sends one whenever any is there. Where the spec leaves the point open, these are the choices of the model: log 49 (which input comes first). -/
def Obligations.RoutersServeTheOldestFlit : Prop :=
  ∀ (last : Nat) (l : List (Nat × BitVec 128)),
    (l ≠ [] → ∃ h, nextHead last l = some h) ∧
    ∀ h, nextHead last l = some h →
      h ∈ l ∧ ∀ o ∈ l, flAge o.2 ≤ flAge h.2 ∧
        (flAge o.2 = flAge h.2 → (h.1 + 7 - last) % 8 ≤ (o.1 + 7 - last) % 8)

/-- Of writes that are served as they arrive: on a queue in RUN a tail write below the ring size moves SQ_TAIL, and a head write that does not pass the completion tail moves CQ_HEAD; one out of range is discarded, sets CFG_REJECT and raises CMD_QUEUE_ERROR with the queue; on a queue not in RUN both are ignored. EN = 1 of an OFF queue starts it with all four indices 0 and phase 1; EN = 1 of a queue in RUN, and EN = 0 of an OFF one, and either of one that drains, change nothing; EN = 0 of a queue in RUN drains it and cancels its commands that have not reached their commit point; with none left it is OFF. Where the spec leaves the point open, these are the choices of the model: log 50 (a CQ_HEAD beyond the size), log 51 (a GANG_RUN in a drain). -/
def Obligations.QueuesTakeDoorbellsAndDrain : Prop :=
  (∀ (q0 : Fin 16) (v : Half) (s : Block),
    servedNow s (.queue 0) = true →
    qState (arrived s (.queue 0)) q0 = 2 →
    v.toNat < sqSize (arrived s (.queue 0)) q0 →
    Gives (.sqTailWrite q0 v) s (fput (arrived s (.queue 0)) 0 F.CMD_Q_SQ_TAIL_SQ_TAIL (ix q0) v.toNat)) ∧
  (∀ (q0 : Fin 16) (v : Half) (s : Block),
    servedNow s (.queue 0) = true →
    qState (arrived s (.queue 0)) q0 = 2 →
    sqSize (arrived s (.queue 0)) q0 ≤ v.toNat →
    Gives (.sqTailWrite q0 v) s (raise (fput (arrived s (.queue 0)) 0 F.CMD_Q_STATUS_CFG_REJECT (ix q0) 1) 0 SRC.CMD_QUEUE_ERROR q0 0)) ∧
  (∀ (q0 : Fin 16) (v : Half) (s : Block),
    servedNow s (.queue 0) = true →
    qState (arrived s (.queue 0)) q0 = 2 →
    let b := arrived s (.queue 0)
    Gives (.cqHeadWrite q0 v) s (if v.toNat < cqSize b q0 ∧
        (v.toNat + cqSize b q0 - cqHead b q0) % cqSize b q0 ≤ (cqTail b q0 + cqSize b q0 - cqHead b q0) % cqSize b q0 then
      fput b 0 F.CMD_Q_CQ_HEAD_CQ_HEAD (ix q0) v.toNat
      else raise (fput b 0 F.CMD_Q_STATUS_CFG_REJECT (ix q0) 1) 0 SRC.CMD_QUEUE_ERROR q0 0)) ∧
  (∀ (q0 : Fin 16) (v : Half) (s : Block),
    servedNow s (.queue 0) = true →
    qState (arrived s (.queue 0)) q0 ≠ 2 →
    Gives (.sqTailWrite q0 v) s (arrived s (.queue 0)) ∧
    Gives (.cqHeadWrite q0 v) s (arrived s (.queue 0))) ∧
  (∀ (q0 : Fin 16) (s : Block),
    servedNow s (.queue 0) = true →
    qState (arrived s (.queue 0)) q0 = 0 →
    let b := fput (fput (arrived s (.queue 0)) 0 F.CMD_Q_CTRL_EN (ix q0) 1) 0 F.CMD_Q_CTRL_STATE (ix q0) 2
    let b := fput (fput b 0 F.CMD_Q_STATUS_SQ_HEAD (ix q0) 0) 0 F.CMD_Q_COUNT_CQ_TAIL (ix q0) 0
    let b := fput (fput b 0 F.CMD_Q_SQ_TAIL_SQ_TAIL (ix q0) 0) 0 F.CMD_Q_CQ_HEAD_CQ_HEAD (ix q0) 0
    Gives (.queueEnWrite q0 true) s { b with phases := mput (fun _ => true) (arrived s (.queue 0)).phases q0 true }) ∧
  (∀ (q0 : Fin 16) (s : Block),
    servedNow s (.queue 0) = true →
    qState (arrived s (.queue 0)) q0 = 2 →
    let b := fput (fput (arrived s (.queue 0)) 0 F.CMD_Q_CTRL_EN (ix q0) 0) 0 F.CMD_Q_CTRL_STATE (ix q0) 1
    Gives (.queueEnWrite q0 false) s (((arrived s (.queue 0)).flight.filter fun f => f.q == q0.val).foldl (stopFlight stCancelled false) b)) ∧
  (∀ (q0 : Fin 16) (en : Bool) (s : Block),
    servedNow s (.queue 0) = true →
    (qState (arrived s (.queue 0)) q0 = 1 ∨ qState (arrived s (.queue 0)) q0 = (if en then 2 else 0)) →
    Gives (.queueEnWrite q0 en) s (arrived s (.queue 0))) ∧
  (∀ (q0 : Fin 16) (s : Block),
    qState s q0 = 1 →
    (s.flight.any fun f => f.q == q0.val) = false →
    Gives (.queueDrainDone q0) s (fput s 0 F.CMD_Q_CTRL_STATE (ix q0) 0))

/-- The queue whose turn it is, while the processor takes commands, gives up its next packet: SQ_HEAD moves on by one, modulo its size, and the command is in flight with the CID, opcode, node, flags and parameters of R330, with the selects of its queue's context as they stand, and with the way in which one register access of it will be answered; a CID in flight is noted, and a packet that fails a check of R333 is refused at once, the first of BAD_OPCODE, BAD_PARAM with its offset, and BAD_NODE; a queue whose turn it is not gives nothing up. COMMAND_COMPLETION while the primary runs, not in D3hot, answers a command whose result is known, one refused for its CID before the one that holds it, and finishes the work of one that has begun, answering it where that gives its result: 32 bytes with CID, status, phase, head, queue, detail, epoch and two results at the completion tail, which moves on by one, the phase turning at the wrap; ABORTs that wait for it end, and the queue's interrupt is sent if asked for. A command whose opcode needs a node in Brake, Rest or Off ends with PWR_OFF. Where no fresh command waits, or one of another opcode, the commands of the opcode whose source stalled are tried in order. Where the spec leaves the point open, these are the choices of the model: log 51 (a CID in use), log 52 (statuses that no rule names, selects and parameters), log 1 (the moment of an event, and a command whose condition does not hold). -/
def Obligations.CommandsAreTakenAndAnswered : Prop :=
  (∀ (q0 : Fin 16) (pkt : BitVec 512) (fence : BitVec 16) (miss : Fin 4) (way : BusWay) (s : Block),
    taking s = true →
    turnQueue s (if pkt.getLsbD 41 then fence ||| BitVec.ofNat 16 (2 ^ q0.val) else fence &&& ~~~BitVec.ofNat 16 (2 ^ q0.val)) = some q0.val →
    let head := (sqHead s q0 + 1) % sqSize s q0
    let ps := (List.range 7).map (pktP pkt)
    let b := fput s 0 F.CMD_Q_STATUS_SQ_HEAD (ix q0) head
    Gives (.commandTake q0 pkt ⟨fence, miss, way⟩) s { b with
      flight := s.flight ++ [{ q := q0, cid := pktCid pkt, op := pktOp pkt, node := pktNode pkt, irq := pkt.getLsbD 40, head := head,
                               ps := ps, past := opClass (pktOp pkt) != some 2 && opClass (pktOp pkt) != some 3,
                               dup := (cmdOf s q0 (pktCid pkt)).isSome, result := packetError s q0 pkt ps,
                               sels := (List.range 11).map (selGet s q0.val), miss := miss, way := way }]
      lastQueue := q0.val }) ∧
  (∀ (q0 : Fin 16) (pkt : BitVec 512) (fence : BitVec 16) (miss : Fin 4) (way : BusWay) (s : Block),
    (taking s = false ∨ turnQueue s (if pkt.getLsbD 41 then fence ||| BitVec.ofNat 16 (2 ^ q0.val) else fence &&& ~~~BitVec.ofNat 16 (2 ^ q0.val)) ≠ some q0.val) →
    Gives (.commandTake q0 pkt ⟨fence, miss, way⟩) s s) ∧
  (∀ (s : Block) (q0 : Nat) (pkt : BitVec 512) (ps : List Nat),
    packetError s q0 pkt ps = (if opClass (pktOp pkt) = none ∨ fbit s 0 F.NVS_STATUS_RECOVERY = true ∧ recoveryOk (pktOp pkt) ps = false then
        some { status := 0x10 }
      else match badParam s q0 pkt ps with
        | some d => some { status := 0x11, detail := d }
        | none => if badNode s q0 pkt ps then some { status := 0x12 } else none)) ∧
  (∀ (s : Block) (f : CmdFl) (op : Nat) (act : CmdFl → Block → Block),
    nextCmd s = some f →
    f.op = op →
    ((pow s f.node).off = true ∨ 3 ≤ pState s f.node) →
    runNode op act s = endWith { status := 0x21 } f s) ∧
  (∀ (s : Block) (op : Nat) (act : CmdFl → Block → Block),
    (∀ f, nextCmd s = some f → f.op ≠ op) →
    runCmd op act s = retryCmds act (stalledCmds s op) s ∧
    ∀ (f : CmdFl) (fs : List CmdFl), retryCmds act (f :: fs) s =
      if ((cmdOf (act f s) f.q f.cid).map fresh).getD false then retryCmds act fs s else act f s) ∧
  (∀ (q0 : Fin 16) (cid : Half) (s : Block) (f : CmdFl),
    s.d3hot = false →
    inRun s 0 = true →
    (dupOf s q0 cid.toNat).or (cmdOf s q0 cid.toNat) = some f →
    Gives (.commandCompletion q0 cid) s (match f.result with
      | some r => writeReply s f r
      | none => if f.step = 0 then s
        else match (finish s f).1 with
          | some r => writeReply (finish s f).2 f r
          | none => (finish s f).2)) ∧
  (∀ (s : Block) (f : CmdFl) (r : Reply),
    let w := hostWrite s (get64 s 0 .CMD_Q_CQBASE f.q + 32 * cqTail s f.q) (replyBytes f (qPhase s f.q) r)
    let next := (cqTail s f.q + 1) % cqSize w f.q
    let b := fput w 0 F.CMD_Q_COUNT_CQ_TAIL (ix f.q) next
    let done := mget (fun _ => []) b.doneCids f.q ++ [f.cid]
    let c := { b with
      phases := if next = 0 then mput (fun _ => true) b.phases f.q (!qPhase s f.q) else b.phases
      flight := if f.dup then b.flight.eraseP (fun c => c.q == f.q && c.cid == f.cid && c.dup) else b.flight.filter fun c => !c.named f.q f.cid
      doneCids := mput (fun _ => []) b.doneCids f.q (done.drop (done.length - 256)) }
    let c := if f.dup then c else tellAborts c f.q f.cid r.status
    writeReply s f r = (if f.irq then hostIrq c 0 f.q else c)) ∧
  (∀ (s : Block) (f : CmdFl) (r : Reply),
    (replyBytes f (qPhase s f.q) r = leBytes 2 f.cid ++ leBytes 1 r.status ++ leBytes 1 (b2n (qPhase s f.q)) ++ leBytes 2 f.head ++
        leBytes 1 f.q ++ leBytes 1 r.detail ++ leBytes 8 r.epoch ++ leBytes 8 r.r0 ++ leBytes 8 r.r1) ∧
    (replyBytes f (qPhase s f.q) r).length = 32)

/-- Taken and not begun, with its node where it needs one in Run, Idle or Furl: NOP ends with OK. IDENTIFY and TOPOLOGY_READ write their bytes to host memory and end with OK, with FAULTED where that write is refused, with TIMEOUT where it is not answered. ABORT of a CID that is not in flight ends with TOO_LATE if completed and kept, else with BAD_PARAM 8; of a command past its commit point or whose result is known, with TOO_LATE; of one that it stops, with OK, the target with ABORTED; of one that awaits its vote it waits. REG_READ and REG_WRITE access their registers in order by the selects as they stood at the taking, the access that was named at the taking being answered in the way named there, and end with OK or with the status of the first error; a write that times out on the way may have landed. FAULT_ACK acknowledges its source. FAULT_READ writes the oldest whole records of the ring, marking them returned where the write succeeds, or of the black box. POWER_STATE Run sends keep-alives, else begins entry or ends with BUSY. TOPOLOGY_RESCAN admits waiting modules, or ends with BUSY while another works. Where the spec leaves the point open, these are the choices of the model: log 52 (register accesses, DETAIL of a DMA that failed, power requests, whole records), log 51 (modules that a rescan staged). -/
def Obligations.CommandsReadWriteAndReport : Prop :=
  (∀ (s : Block) (f : CmdFl),
    nextCmd s = some f →
    f.op = 0x0100 →
    Gives .nop s (endWith { status := 0 } f s)) ∧
  (∀ (dma : Fin 3) (s : Block) (f : CmdFl),
    nextCmd s = some f →
    f.op = 0x0101 →
    (pow s f.node).off = false →
    pState s f.node < 3 →
    Gives (.identify dma) s (dmaOut dma (f.p 0) (identBytes s f.node) { status := 0 } f s)) ∧
  (∀ (a : Nat) (bytes : List (BitVec 8)) (r : Reply) (s : Block) (f : CmdFl),
    dmaOut 0 a bytes r f s = endWith r f (hostWrite s a bytes) ∧
    dmaOut 1 a bytes r f s = endWith { status := 0x40, detail := ((drawFree (dmaNote 1 s)).1.setWidth 8).toNat } f (drawFree (dmaNote 1 s)).2 ∧
    dmaOut 2 a bytes r f s = endWith { status := 0x22 } f (putPow s 0 { pow s 0 with aerUnc := (pow s 0).aerUnc ||| 0x4000 })) ∧
  (∀ (s : Block) (f t u : CmdFl),
    nextCmd s = some f →
    f.op = 0x0102 →
    cmdOf s (pf f.ps 0 19 16) (pf f.ps 0 15 0) = some t →
    cmdOf (stopFlight stAborted true s t) (pf f.ps 0 19 16) (pf f.ps 0 15 0) = some u →
    t.result = none →
    u.result.map (·.status) = some 1 →
    Gives .abort s (endWith { status := 0 } f (stopFlight stAborted true s t))) ∧
  (∀ (s : Block) (f t u : CmdFl),
    nextCmd s = some f →
    f.op = 0x0102 →
    cmdOf s (pf f.ps 0 19 16) (pf f.ps 0 15 0) = some t →
    cmdOf (stopFlight stAborted true s t) (pf f.ps 0 19 16) (pf f.ps 0 15 0) = some u →
    u.result = none →
    u.aborting = true →
    Gives .abort s (begun (stopFlight stAborted true s t) f)) ∧
  (∀ (s : Block) (f t : CmdFl),
    nextCmd s = some f →
    f.op = 0x0102 →
    cmdOf s (pf f.ps 0 19 16) (pf f.ps 0 15 0) = some t →
    (t.past = true ∧ t.aborting = false ∨ t.result.isSome = true) →
    Gives .abort s (endWith { status := 2 } f s)) ∧
  (∀ (s : Block) (f : CmdFl),
    nextCmd s = some f →
    f.op = 0x0102 →
    cmdOf s (pf f.ps 0 19 16) (pf f.ps 0 15 0) = none →
    Gives .abort s (endWith (if (mget (fun _ => []) s.doneCids (pf f.ps 0 19 16)).contains (pf f.ps 0 15 0) then { status := 2 }
      else { status := 0x11, detail := 8 }) f s)) ∧
  (∀ (s : Block) (f : CmdFl),
    nextCmd s = some f →
    f.op = 0x0103 →
    let r := regReads f f.way f.miss (regOffs f.ps) s
    Gives .regRead s (endWith (if r.1 = rspOk then { status := 0, r0 := twoWords r.2.1 0, r1 := twoWords r.2.1 2 }
      else { status := regStatus r.1 }) f r.2.2)) ∧
  (∀ (f : CmdFl) (way : BusWay) (k o : Nat) (os : List Nat) (s : Block),
    let a := readTaken f (if k = 0 then way else .served) o s
    let r := regReads f way (if k = 0 then 4 else k - 1) os a.2.2
    regReads f way k [] s = (rspOk, [], s) ∧
    regReads f way k (o :: os) s = (if a.1 ≠ rspOk ∧ a.1 ≠ rspDecErr then (a.1, [], a.2.2) else (r.1, a.2.1 :: r.2.1, r.2.2))) ∧
  (∀ (f : CmdFl) (o : Nat) (w : Word) (s : Block),
    o / 2 ^ 20 ≠ 1 →
    let b := atTaken f o s
    let n := accessNode b (cmdCtx f) o
    let back := fun (t : Block) => { t with sels := s.sels }
    (∀ p, regPath b 0 ownCmd n o = p → p ≠ .there → (readTaken f .served o s).1 = (if p = .gone then rspTimeout else rspNoRoute)) ∧
    (regPath b 0 ownCmd n o = .there → writeTaken f .served o w s = ((barWord b (cmdCtx f) o w).1, back (barWord b (cmdCtx f) o w).2) ∧
      writeTaken f .late o w s = (rspTimeout, back (regTimedOut 0 ownCmd n o (fsat (barWord b (cmdCtx f) o w).2 0 F.NOC_LATE_COUNT 0))))) ∧
  (∀ (s : Block) (f : CmdFl),
    nextCmd s = some f →
    f.op = 0x0104 →
    let r := regWrites f f.way f.miss (regValues f.ps) s
    Gives .regWrite s (endWith { status := if r.1 = rspOk then 0 else regStatus r.1 } f r.2)) ∧
  (∀ (f : CmdFl) (way : BusWay) (k o : Nat) (w : Word) (os : List (Nat × Word)) (s : Block),
    let a := writeTaken f (if k = 0 then way else .served) o w s
    regWrites f way k [] s = (rspOk, s) ∧
    regWrites f way k ((o, w) :: os) s =
      (if a.1 ≠ rspOk ∧ a.1 ≠ rspDecErr then a else regWrites f way (if k = 0 then 4 else k - 1) os a.2)) ∧
  (∀ (s : Block) (f : CmdFl),
    nextCmd s = some f →
    f.op = 0x0700 →
    (pow s f.node).off = false →
    pState s f.node < 3 →
    Gives .faultAck s (endWith { status := 0 } f (ackSource s f.node (pf f.ps 0 7 0)))) ∧
  (∀ (dma : Fin 3) (s : Block) (f : CmdFl),
    nextCmd s = some f →
    f.op = 0x0701 →
    (pow s f.node).off = false →
    pState s f.node < 3 →
    f.p 0 % 2 = 0 →
    let ring := mget (fun _ => []) s.fltRing f.node
    let k := min ring.length (pf f.ps 2 31 0 / 32)
    let bs := (ring.take k).flatMap recBytes32
    let b := if dma = 0 then { s with
        fltRing := mput (fun _ => []) s.fltRing f.node ((ring.take k).map (fun r => { r with returned := true }) ++ ring.drop k) } else s
    Gives (.faultRead dma) s (dmaOut dma (f.p 1) bs { status := 0, r0 := bs.length } f b)) ∧
  (∀ (dma : Fin 3) (s : Block) (f : CmdFl),
    nextCmd s = some f →
    f.op = 0x0701 →
    (pow s f.node).off = false →
    pState s f.node < 3 →
    f.p 0 % 2 ≠ 0 →
    let bs := ((bbValid s f.node).take (pf f.ps 2 31 0 / 40)).flatMap (·.bytes)
    Gives (.faultRead dma) s (dmaOut dma (f.p 1) bs { status := 0, r0 := bs.length } f s)) ∧
  (∀ (s : Block) (f : CmdFl),
    nextCmd s = some f →
    f.op = 0x0800 →
    pf f.ps 0 2 0 ≠ 0 →
    Gives .powerState s (if powerBusy s (powerNodes s f) (pf f.ps 0 2 0) (some (f.q, f.cid)) then endWith { status := 0x13 } f s
      else powerGo (begun s f) (powerNodes s f) (pf f.ps 0 2 0))) ∧
  (∀ (s : Block) (f : CmdFl),
    nextCmd s = some f →
    f.op = 0x0800 →
    pf f.ps 0 2 0 = 0 →
    Gives .powerState s ((powerNodes s f).foldl (fun s n => if n ≠ 0 && (pState s n != 0 || (pow s n).entry.isSome) then
      putPow s n { pow s n with keepAlive := true } else s) (begun s f))) ∧
  (∀ (dma : Fin 3) (s : Block) (f : CmdFl),
    nextCmd s = some f →
    f.op = 0x0A00 →
    Gives (.topologyRead dma) s (dmaOut dma (f.p 1) (topologyBytes s) { status := 0 } f s)) ∧
  (∀ (s : Block) (f : CmdFl),
    nextCmd s = some f →
    f.op = 0x0A01 →
    Gives .topologyRescan s (if (s.flight.any fun c => c.op == opRescan && c.step != 0 && c.result.isNone) then endWith { status := 0x13 } f s
      else rescan (keep f (s.chrWaiting.map (·.node)) [] s)))

/-- Taken and not begun, on a node in Run, Idle or Furl: STORE_SETTINGS, while another command stores on the node, ends with BUSY; else it keeps its source's bytes for the page. IMAGE_WRITE is busy then too, and for the slot its firmware runs from; else it checks the whole image, ends with IMAGE_REJECTED, or with BAD_PARAM for a region image above 4 MiB, or keeps the bytes. READ_SETTINGS returns the page's valid copy, its generation and how many copies agree. MICROCODE_LOAD checks its image and keeps it, or is busy. Each of these and BOOT_SELECT then reaches its commit point, which makes the slot invalid or begins the load, before its work is done. BOOT_SELECT keeps the slot, and is busy while an IMAGE_WRITE writes it. FABRIC_LOAD is busy while the node loads or a region it names plays; else it checks its image and waits for its commit. A source in staging memory that stalls for a handover leaves the command waiting; one that fails ends it with its reply, a bad image with IMAGE_REJECTED. Where the spec leaves the point open, these are the choices of the model: log 30 (what a store holds as shipped), log 48 (signatures, CONTENT_CRC), log 52 (sources, stores at completion, recovery). -/
def Obligations.CommandsOnSettingsAndImages : Prop :=
  (∀ (data : List (BitVec 8)) (bad : BitVec 3) (dma : Fin 3) (s : Block) (f : CmdFl),
    nextCmd s = some f →
    f.op = 0x0200 →
    (pow s f.node).off = false →
    pState s f.node < 3 →
    Gives (.storeSettings data bad dma) s (if storing s f then endWith { status := 0x13 } f s
      else match sourceOf f (f.p 1) (pf f.ps 2 16 0) (pf f.ps 2 32 32) data dma s with
        | none => if pf f.ps 2 32 32 = 1 then stallCmd f (stgWaits s f.node) else s
        | some (.error r, b) => endWith r f b
        | some (.ok bs, b) => keep f [bad.toNat] bs b)) ∧
  (∀ (s : Block) (f : CmdFl) (dma : Fin 3),
    nextCmd s = some f →
    f.op = 0x0201 →
    (pow s f.node).off = false →
    pState s f.node < 3 →
    let r := readPage s f.node (pf f.ps 0 15 0)
    Gives (.readSettings dma) s (match r.1 with
      | some c => dmaOut dma (f.p 1) c.data { status := 0, r0 := copyGenOf (some c), r1 := r.2.1 } f r.2.2
      | none => endWith { status := 0, r0 := copyGenOf none, r1 := r.2.1 } f r.2.2)) ∧
  (∀ (data : List (BitVec 8)) (fail : Bool) (dma : Fin 3) (s : Block) (f : CmdFl),
    nextCmd s = some f →
    f.op = 0x0300 →
    (pow s f.node).off = false →
    pState s f.node < 3 →
    let k := pf f.ps 0 15 0
    Gives (.imageWrite data fail dma) s
      (if storing s f || (decide (k ≤ 1) && fget s f.node F.CMD_STATUS_BOOT_SLOT == k && !fbit s f.node F.NVS_STATUS_RECOVERY) then
        endWith { status := 0x13 } f s
      else match sourceOf f (f.p 1) (pf f.ps 2 31 0) (pf f.ps 2 32 32) data dma s with
        | none => if pf f.ps 2 32 32 = 1 then stallCmd f (stgWaits s f.node) else s
        | some (.error r, b) => endWith r f b
        | some (.ok bs, b) =>
          let r := checkImage b f.node (slotTypes k) bs
          if !r.1 then endWith { status := 0x31 } f r.2
          else if hdr bs 4 1 = tyRegion && decide (2 ^ 22 < bs.length) then endWith { status := 0x11, detail := 24 } f r.2
          else keep f [b2n fail] bs r.2)) ∧
  (∀ (s : Block) (f : CmdFl),
    nextCmd s = some f →
    f.op = 0x0301 →
    (pow s f.node).off = false →
    pState s f.node < 3 →
    Gives .microcodeLoad s (match imageOf f [tyMicrocode] s with
      | none => stallCmd f (stgWaits s f.node)
      | some (.error r, b) => endWith r f b
      | some (.ok img, b) => if !loadableMicro img then endWith { status := 0x31 } f b
        else if microBusy b f.node then endWith { status := 0x13 } f b
        else match img with
          | some bs => keep f [hdr bs 20 4] bs b
          | none => keep f [] [] b)) ∧
  (∀ (bad : BitVec 3) (s : Block) (f : CmdFl),
    nextCmd s = some f →
    f.op = 0x0302 →
    (pow s f.node).off = false →
    pState s f.node < 3 →
    Gives (.bootSelect bad) s
      (if (s.flight.any fun c => c.op == 0x0300 && c.node == f.node && (c.step == 1 || c.stalled) && c.result.isNone &&
          c.p 0 % 2 ^ 16 == f.p 0 % 2) then endWith { status := 0x13 } f s
      else keep f [bad.toNat] [BitVec.ofNat 8 (f.p 0 % 2)] s)) ∧
  (∀ (s : Block) (f : CmdFl),
    nextCmd s = some f →
    f.op = 0x0900 →
    (pow s f.node).off = false →
    pState s f.node < 3 →
    Gives .fabricLoad s (if (load s f.node).isSome then endWith { status := 0x13 } f s
      else match imageOf f [tyWhole, tyRegion] s with
        | none => stallCmd f (stgWaits s f.node)
        | some (.error r, b) => endWith r f b
        | some (.ok none, b) => endWith { status := 0x31 } f b
        | some (.ok (some bs), b) => if (fabricLoad f.q f.cid 1 bs).regions.any (rgPlaying b f.node) then endWith { status := 0x13 } f b
          else putLoad (begun b f) f.node (some (fabricLoad f.q f.cid 1 bs)))) ∧
  (∀ (s : Block) (f : CmdFl),
    (f.op = 0x0200 ∨ f.op = 0x0300 ∨ f.op = 0x0301 ∨ f.op = 0x0302) →
    f.past = false →
    let t := cmdPast s f.q f.cid
    finish s f = (none, passCommit s f) ∧
    passCommit s f = (if (pow s f.node).off = true ∨ 3 ≤ pState s f.node then cmdEnd s f.q f.cid { status := 0x21 }
      else if f.op = 0x0300 then putSlot t f.node (pf f.ps 0 15 0) .empty
      else if f.op = 0x0301 then (if anyRunning s f.node then cmdEnd s f.q f.cid { status := 0x13 }
        else loadBeginMicro t f.node (if f.nums.isEmpty then none else some f.bytes))
      else t))

/-- Taken and not begun, on a node in Run, Idle or Furl: GANG_RUN of a formed OFF gang with an OFF task, no fault of level 4 open, enables the gang and starts its program, and ends with BUSY otherwise. GANG_STOP, GANG_DISABLE, TASK_STOP, STREAM_CTRL and DRIVE_MUTE make their request at once and go on. GANG_RESUME of a STOPPED gang and TASK_START of an OFF task end with OK, otherwise with BUSY. DRIVE_UNMUTE of the outputs named, of a group or node those not OFF, counts those that refuse and ends with OK or BUSY. EPOCH_COMMIT makes an explicit boundary; EPOCH_STAGE adds its writes to the queue's command set, or ends with the status of the first offset that is not served; SNAPSHOT is recorded. Where the spec leaves the point open, these are the choices of the model: log 46 (a node below Run), log 52 (UNMUTE, a task that halts), log 57 (an output that is OFF). -/
def Obligations.CommandsOnGangsTasksAndOutputs : Prop :=
  (∀ (s : Block) (f : CmdFl),
    nextCmd s = some f →
    f.op = 0x0400 →
    (pow s f.node).off = false →
    pState s f.node < 3 →
    let g := (cmdGang f).val
    let b := gangEnable (fput s f.node F.ACU_MILL_TASK g (cmdTask f)) f.node g
    let b := putGang b f.node g { gang b f.node g with program := some (f.q, f.cid) }
    Gives .gangRun s (if gState s f.node g = gOff ∧ gangFormed s f.node g = true ∧ taskState s f.node g (cmdTask f) = 0 ∧ l4Open s f.node = false then
        runTask (begun b f) f.node g (cmdTask f) (pf f.ps 1 31 0) 0
      else endWith { status := 0x13 } f s)) ∧
  (∀ (s : Block) (f : CmdFl),
    nextCmd s = some f →
    f.op = 0x0401 →
    (pow s f.node).off = false →
    pState s f.node < 3 →
    Gives .gangStop s (gangStopWrite (fin64 f.node) (cmdGang f) (begun s f))) ∧
  (∀ (s : Block) (f : CmdFl),
    nextCmd s = some f →
    f.op = 0x0402 →
    (pow s f.node).off = false →
    pState s f.node < 3 →
    Gives .gangResume s (if gState s f.node (cmdGang f) = gStopped then endWith { status := 0 } f (resumeGang s f.node (cmdGang f))
      else endWith { status := 0x13 } f s)) ∧
  (∀ (s : Block) (f : CmdFl),
    nextCmd s = some f →
    f.op = 0x0403 →
    (pow s f.node).off = false →
    pState s f.node < 3 →
    Gives .gangDisable s (startDrain (begun s f) f.node (cmdGang f))) ∧
  (∀ (s : Block) (f : CmdFl),
    nextCmd s = some f →
    f.op = 0x0404 →
    (pow s f.node).off = false →
    pState s f.node < 3 →
    Gives .taskStart s (if taskState s f.node (cmdGang f).val (cmdTask f) = 0 then
        endWith { status := 0 } f (runTask s f.node (cmdGang f).val (cmdTask f) (pf f.ps 1 31 0) (BitVec.ofNat 32 (pf f.ps 2 31 0)))
      else endWith { status := 0x13 } f s)) ∧
  (∀ (s : Block) (f : CmdFl),
    nextCmd s = some f →
    f.op = 0x0405 →
    (pow s f.node).off = false →
    pState s f.node < 3 →
    Gives .taskStop s (taskEn (begun s f) f.node (cmdGang f) (cmdTask f) false)) ∧
  (∀ (s : Block) (f : CmdFl),
    nextCmd s = some f →
    f.op = 0x0500 →
    (pow s f.node).off = false →
    pState s f.node < 3 →
    Gives .streamCtrl s (streamEnWrite (fin64 f.node) (Fin.ofNat 64 (pf f.ps 0 5 0)) (pf f.ps 0 8 8 == 1) (begun s f))) ∧
  (∀ (s : Block) (f : CmdFl),
    nextCmd s = some f →
    f.op = 0x0501 →
    (pow s f.node).off = false →
    pState s f.node < 3 →
    Gives .driveMute s ((namedOutputs s f).foldl (fun s p => muteOut s p.1 p.2 mcCommand) (begun s f))) ∧
  (∀ (s : Block) (f : CmdFl),
    nextCmd s = some f →
    f.op = 0x0502 →
    (pow s f.node).off = false →
    pState s f.node < 3 →
    let r := ((namedOutputs s f).filter fun p => pf f.ps 0 1 0 == 0 || drvState s p.1 p.2 != 0).foldl unmuteCount (0, s)
    Gives .driveUnmute s (endWith { status := if r.1 = 0 then 0 else 0x13, r0 := r.1 } f r.2)) ∧
  (∀ (s : Block) (f : CmdFl),
    nextCmd s = some f →
    f.op = 0x0600 →
    Gives .epochCommit s (explicitBound (begun s f) (some (f.q, f.cid)))) ∧
  (∀ (s : Block) (f : CmdFl),
    nextCmd s = some f →
    f.op = 0x0601 →
    let code := fun (o : Nat) => accessCode s (accessNode (atTaken f o s) (cmdCtx f) o) o
    Gives .epochStage s (match (regOffs f.ps).find? fun o => code o != rspOk with
      | some o => endWith { status := regStatus (code o) } f s
      | none => (regValues f.ps).foldl (stageWrite f) (begun s f))) ∧
  (∀ (s : Block) (f : CmdFl),
    nextCmd s = some f →
    f.op = 0x0602 →
    (pow s f.node).off = false →
    pState s f.node < 3 →
    Gives .snapshot s { begun s f with
      snaps := s.snaps ++ [{ q := f.q, cid := f.cid, node := f.node, mask := pf f.ps 0 15 0, engine := pf f.ps 0 17 16,
                             ring := pf f.ps 0 22 18, first := pf f.ps 1 10 0, last := pf f.ps 1 26 16 }] })

/-- A served unmask of a vector lets its interrupts through, and sends the one that waited. A link of a powered module not in Rest, its endpoint not disabled, trains at the rate named and at the widest width of which all lanes train, from the lowest one, reversed from the highest, and of width 0 not at all; a module without a role becomes a candidate. A function-level reset of a primary not in Rest or Off resets the interface, and drops the link when it is lost. D0 ends D3hot, clears D3_HELD, sends the interrupts that waited, and begins an exit; in Rest or Off neither does anything. PERST_N of a secondary, in a reset or without power does nothing; of another module above Brake it resets the endpoint, on the primary the interface too; in Brake or Rest it waits. Where the spec leaves the point open, these are the choices of the model: log 51 (what a reset leaves), log 52 (the MSI-X table), log 58 (MSI-X at reset), log 61 (configuration space), log 1 (the moment of an event, and a command whose condition does not hold). -/
def Obligations.HostLinkTrainsResetsAndWakes : Prop :=
  (∀ (v : BitVec 8) (s : Block),
    servedNow s (.queue 0) = true →
    let b := arrived s (.queue 0)
    Gives (.vectorUnmask v) s (if b.d3hot = false ∧ mget (fun _ => false) b.pba v.toNat = true then { b with
        unmasked := mput (fun _ => false) b.unmasked v.toNat true
        pba := mput (fun _ => false) b.pba v.toNat false
        msgs := b.msgs ++ [v.toNat] }
      else { b with unmasked := mput (fun _ => false) b.unmasked v.toNat true })) ∧
  (∀ (n : Node) (rate width : Fin 5) (lanes : BitVec 16) (reversed : Bool) (s : Block),
    (pow s n).off = false →
    (pow s n).quietEp = false →
    pState s n ≠ 4 →
    linkWidth lanes reversed width ≠ 0 →
    let b := putPow s n { pow s n with rate := [25, 50, 80, 160, 320].getD rate 25, width := linkWidth lanes reversed width }
    let b := { b with pcieUp := mput (fun _ => false) b.pcieUp n true }
    Gives (.linkTrained n rate width lanes reversed) s (if role b n = roUnattached then setRole b n roCandidate else b)) ∧
  (∀ (n : Node) (rate width : Fin 5) (lanes : BitVec 16) (reversed : Bool) (s : Block),
    ((pow s n).off = true ∨ (pow s n).quietEp = true ∨ pState s n = 4 ∨ linkWidth lanes reversed width = 0) →
    Gives (.linkTrained n rate width lanes reversed) s s) ∧
  (∀ (lanes : BitVec 16) (reversed : Bool) (k : Nat),
    let wide := fun (w : Nat) => (List.range w).all fun i => lanes.getLsbD (if reversed then 15 - i else i)
    linkWidth lanes reversed 0 = (if wide 1 then 1 else 0) ∧
    linkWidth lanes reversed (k + 1) = (if wide (2 ^ (k + 1)) then 2 ^ (k + 1) else linkWidth lanes reversed k)) ∧
  (∀ (loss : Bool) (s : Block),
    (pow s 0).off = false →
    pState s 0 ≠ 4 →
    let b := interfaceReset s
    Gives (.functionLevelReset loss) s (if loss then { b with pcieUp := mput (fun _ => false) b.pcieUp 0 false } else b)) ∧
  (∀ (s : Block),
    (pow s 0).off = false →
    pState s 0 ≠ 4 →
    let b := fset { s with d3hot := false } 0 F.GOV_STATE_D3_HELD 0
    let b := (List.range 256).foldl (fun s v => if mget (fun _ => false) s.unmasked v then vectorMask s v false else s) b
    Gives .d0Write s (startExit b 0 wkTlp)) ∧
  (∀ (loss : Bool) (s : Block),
    ((pow s 0).off = true ∨ pState s 0 = 4) →
    Gives (.functionLevelReset loss) s s ∧
    Gives .d0Write s s) ∧
  (∀ (n : Node) (s : Block),
    Gives (.perstNAssert n) s (if (pow s n).off = true ∨ (pow s n).resetting = true ∨ role s n = roSecondary then s
      else if 3 ≤ pState s n then putPow s n { pow s n with perst := true }
      else endpointReset (if n.val = 0 then interfaceReset s else s) n))

/-- When the next macro-op of a gang is the op named, every tile is ready, the gate does not hold it and the links that its exchanges cross are UP, the command runs it on every row of every tile and reports it done, or stops the gang with NEWT_PLANE_UE if a row was uncorrectable; at the gate it waits, and where its gang abandons it the tiles that have it leave it with nothing changed. In each active PE: A.ADD, A.SUB, A.NEG, A.ABS, A.MUL, A.MAC write the exact result scaled and rounded, with V when it does not fit; A.DIV and A.REM divide, with DZ for a zero divisor; A.MIN and A.MAX the lesser and greater; A.CMP the relation; A.CVT converts. -/
def Obligations.ArrayIntegerOpsRun : Prop :=
  (RunsOp .aAdd 0x10 0 fun _ _ => elemBody (fun f _ _ a b _ => peInt f (srcA f a + srcB f b)) false) ∧
  (RunsOp .aSub 0x11 0 fun _ _ => elemBody (fun f _ _ a b _ => peInt f (srcA f a - srcB f b)) false) ∧
  (RunsOp .aNeg 0x12 0 fun _ _ => elemBody (fun f _ _ a _ _ => peInt f (-(srcA f a))) false) ∧
  (RunsOp .aAbs 0x13 0 fun _ _ => elemBody (fun f _ _ a _ _ => peInt f (if srcA f a < 0 then -(srcA f a) else srcA f a)) false) ∧
  (RunsOp .aMul 0x14 0 fun _ _ => elemBody (fun f fp _ a b _ => peInt f (scaledProduct (opMode f fp) (srcA f a) (srcB f b) (fmtFrac f.fmt))) false) ∧
  (RunsOp .aMac 0x15 0 fun _ _ => elemBody (fun f fp d a b _ => peInt f (scaledMac (opMode f fp) (srcD f d) (srcA f a) (srcB f b) (fmtFrac f.fmt))) true) ∧
  (RunsOp .aDiv 0x16 0 fun _ _ => elemBody (fun f _ _ a b _ =>
      let r := intDiv (rmodeOf (if f.rnd = 0 then 2 else f.rnd)) (fmtSigned f.fmt) (f.wid0 + 1) (srcA f a) (srcB f b)
      ⟨r.bits, r.flags.v || r.flags.dz, r.flags⟩) false) ∧
  (RunsOp .aRem 0x17 0 fun _ _ => elemBody (fun f _ _ a b _ =>
      let r := intRem (f.wid0 + 1) (srcA f a) (srcB f b)
      ⟨r.bits, r.flags.dz, r.flags⟩) false) ∧
  (RunsOp .aMin 0x19 0 fun _ _ => elemBody (fun f _ _ a b _ => ⟨wrapTo (f.wid0 + 1) (min (srcA f a) (srcB f b)), false, {}⟩) false) ∧
  (RunsOp .aMax 0x1A 0 fun _ _ => elemBody (fun f _ _ a b _ => ⟨wrapTo (f.wid0 + 1) (max (srcA f a) (srcB f b)), false, {}⟩) false) ∧
  (RunsOp .aCmp 0x1B 0 fun _ _ => elemBody (fun f _ _ a b _ =>
      let r := relHolds (f.prm % 16) (decide (srcA f a < srcB f b)) (decide (srcA f a = srcB f b)) false
      ⟨b2n r, r, {}⟩) false) ∧
  (RunsOp .aCvt 0x1C 0 fun _ _ => elemBody (fun f fp _ a _ _ =>
      if fmtKind f.prm = 2 then
        let r := intToFloat (fmtFloat f.prm) (opMode f fp) (opFtz fp) (srcA f a) (fmtFrac f.fmt)
        ⟨r.bits, r.flags.ofl, { r.flags with v := r.flags.ofl }⟩
      else
        let r := intConvert (opMode f fp) (fmtSigned f.prm) (f.wid0 + 1) (fmtFrac f.fmt) (fmtFrac f.prm) (srcA f a)
        ⟨r.bits, r.flags.v, r.flags⟩) false)

/-- As for the integer ops. In each active PE: A.AND, A.OR, A.XOR, A.NOT and A.LOGIC act on the sources brought to the width of d; a shift by d's width or more gives 0, or the sign for A.SAR; rotations turn modulo the width; the immediate forms take PRM; A.MOV extends or truncates with V on a change of value; A.FILL writes CNT:PRM; A.SEL takes a where F is 1 and b elsewhere. -/
def Obligations.ArrayLogicShiftAndMoveOpsRun : Prop :=
  (RunsOp .aAnd 0x20 0 fun _ _ => elemBody (fun f _ _ a b _ => ⟨Nat.land (toWd f a) (toWd f b), false, {}⟩) false) ∧
  (RunsOp .aOr 0x21 0 fun _ _ => elemBody (fun f _ _ a b _ => ⟨Nat.lor (toWd f a) (toWd f b), false, {}⟩) false) ∧
  (RunsOp .aXor 0x22 0 fun _ _ => elemBody (fun f _ _ a b _ => ⟨Nat.xor (toWd f a) (toWd f b), false, {}⟩) false) ∧
  (RunsOp .aNot 0x23 0 fun _ _ => elemBody (fun f _ _ a _ _ => ⟨2 ^ (f.wid0 + 1) - 1 - toWd f a, false, {}⟩) false) ∧
  (RunsOp .aLogic 0x24 0 fun _ _ => elemBody (fun f _ d a b _ =>
      ⟨(List.range (f.wid0 + 1)).foldl (fun acc i =>
        acc + b2n (f.prm.testBit (4 * b2n ((toWd f a).testBit i) + 2 * b2n ((toWd f b).testBit i) + b2n (d.testBit i))) * 2 ^ i) 0,
       false, {}⟩) true) ∧
  (RunsOp .aShl 0x25 0 fun _ _ => elemBody (fun f _ _ a b _ => ⟨shlBits f a b, false, {}⟩) false) ∧
  (RunsOp .aShr 0x26 0 fun _ _ => elemBody (fun f _ _ a b _ => ⟨shrBits f a b, false, {}⟩) false) ∧
  (RunsOp .aSar 0x27 0 fun _ _ => elemBody (fun f _ _ a b _ => ⟨sarBits f a b, false, {}⟩) false) ∧
  (RunsOp .aRol 0x28 0 fun _ _ => elemBody (fun f _ _ a b _ => ⟨rolBits f a b, false, {}⟩) false) ∧
  (RunsOp .aRor 0x29 0 fun _ _ => elemBody (fun f _ _ a b _ => ⟨rorBits f a b, false, {}⟩) false) ∧
  (RunsOp .aShli 0x2A 0 fun _ _ => elemBody (fun f _ _ a _ _ => ⟨shlBits f a f.prm, false, {}⟩) false) ∧
  (RunsOp .aShri 0x2B 0 fun _ _ => elemBody (fun f _ _ a _ _ => ⟨shrBits f a f.prm, false, {}⟩) false) ∧
  (RunsOp .aSari 0x2C 0 fun _ _ => elemBody (fun f _ _ a _ _ => ⟨sarBits f a f.prm, false, {}⟩) false) ∧
  (RunsOp .aRoli 0x2D 0 fun _ _ => elemBody (fun f _ _ a _ _ => ⟨rolBits f a f.prm, false, {}⟩) false) ∧
  (RunsOp .aRori 0x2E 0 fun _ _ => elemBody (fun f _ _ a _ _ => ⟨rorBits f a f.prm, false, {}⟩) false) ∧
  (RunsOp .aMov 0x30 0 fun _ _ => elemBody (fun f _ _ a _ _ => peInt f (srcA f a)) false) ∧
  (RunsOp .aFill 0x31 0 fun _ _ => elemBody (fun f _ _ _ _ _ =>
      ⟨wrapTo (f.wid0 + 1) (stored (fmtSigned f.fmt) 32 (f.cnt * 65536 + f.prm)), false, {}⟩) false) ∧
  (RunsOp .aSel 0x32 0 fun _ _ => elemBody (fun f _ _ a b fb => ⟨toWd f (if fb then a else b), false, {}⟩) false)

/-- As for the integer ops, for FMT.KIND = FLOAT: A.FADD, A.FSUB, A.FMUL, A.FMAC, A.FDIV, A.FSQRT, A.FNEG, A.FABS, A.FMIN, A.FMAX, A.FCMP and A.FCVT give the result and flags of 05 in each active PE, rounded in the op's mode, with the condition that MILL_FPCTRL's mask selects; A.FCMAX and A.FCMIN find the extreme of the active PEs. -/
def Obligations.ArrayFloatOpsRun : Prop :=
  (RunsOp .aFadd 0x10 1 fun _ _ => elemBody (fun f fp _ a b _ => peFlt fp (fAdd (fmtFloat f.fmt) (opMode f fp) (opFtz fp) a b)) false) ∧
  (RunsOp .aFsub 0x11 1 fun _ _ => elemBody (fun f fp _ a b _ => peFlt fp (fSub (fmtFloat f.fmt) (opMode f fp) (opFtz fp) a b)) false) ∧
  (RunsOp .aFneg 0x12 1 fun _ _ => elemBody (fun f fp _ a _ _ => peFlt fp (fNeg (fmtFloat f.fmt) a)) false) ∧
  (RunsOp .aFabs 0x13 1 fun _ _ => elemBody (fun f fp _ a _ _ => peFlt fp (fAbs (fmtFloat f.fmt) a)) false) ∧
  (RunsOp .aFmul 0x14 1 fun _ _ => elemBody (fun f fp _ a b _ => peFlt fp (fMul (fmtFloat f.fmt) (opMode f fp) (opFtz fp) a b)) false) ∧
  (RunsOp .aFmac 0x15 1 fun _ _ => elemBody (fun f fp d a b _ => peFlt fp (fMac (fmtFloat f.fmt) (opMode f fp) (opFtz fp) d a b)) true) ∧
  (RunsOp .aFdiv 0x16 1 fun _ _ => elemBody (fun f fp _ a b _ => peFlt fp (fDiv (fmtFloat f.fmt) (opMode f fp) (opFtz fp) a b)) false) ∧
  (RunsOp .aFsqrt 0x18 1 fun _ _ => elemBody (fun f fp _ a _ _ => peFlt fp (fSqrt (fmtFloat f.fmt) (opMode f fp) (opFtz fp) a)) false) ∧
  (RunsOp .aFmin 0x19 1 fun _ _ => elemBody (fun f fp _ a b _ => peFlt fp (fMinMax (fmtFloat f.fmt) (opFtz fp) false a b)) false) ∧
  (RunsOp .aFmax 0x1A 1 fun _ _ => elemBody (fun f fp _ a b _ => peFlt fp (fMinMax (fmtFloat f.fmt) (opFtz fp) true a b)) false) ∧
  (RunsOp .aFcmp 0x1B 1 fun _ _ => elemBody (fun f fp _ a b _ =>
      let r := fCmp (fmtFloat f.fmt) (opFtz fp) (f.prm % 16) a b
      ⟨b2n r.1, r.1, r.2⟩) false) ∧
  (RunsOp .aFcvt 0x1C 1 fun _ _ => elemBody (fun f fp _ a _ _ =>
      if fmtKind f.prm = 2 then peFlt fp (fToFloat (fmtFloat f.fmt) (fmtFloat f.prm) (opMode f fp) (opFtz fp) a)
      else peFlt fp (fToInt (fmtFloat f.fmt) (opMode f fp) (opFtz fp) (fmtSigned f.prm) (f.wid0 + 1) (fmtFrac f.prm) a)) false) ∧
  (RunsOp .aFcmax 0x41 1 fun n g => fcmaxBody true n g) ∧
  (RunsOp .aFcmin 0x42 1 fun n g => fcmaxBody false n g)

/-- A.NOP, A.END and A.FBAR leave the planes as they are. A.CLRF clears F and A.PUTF sets it from a in the active PEs, A.GETF writes F to d; A.SETM sets M in every PE by PRM, A.GETM writes M to d in every PE. A.CROAK gives the OR over the active PEs, A.CMAX and A.CMIN the extreme, A.COUNT the number of active PEs with bit 0 set, as the croak result. Where a link that the exchanges of A.COUNT cross is not UP its tiles wait. Where the spec leaves the point open, these are the choices of the model: log 2 (what MAX_NS gains), log 62 (reserved functions of A.SETM). -/
def Obligations.ArrayControlMaskAndCroakOpsRun : Prop :=
  (∀ (n : Node) (g : GangIx) (s : Block) (m : Mop), abandonedOp s n g 0x43 0 = none → readyOp s n g 0x43 0 = some m →
    gated s n g m = false → netLive s n g m = false → Gives (.aCount n g) s (holdTiles s (gangTiles s n g))) ∧
  (RunsOp .aNop 0x00 0 fun _ _ => idleBody) ∧
  (RunsOp .aEnd 0x01 0 fun _ _ => idleBody) ∧
  (RunsOp .aFbar 0x02 0 fun _ _ => idleBody) ∧
  (RunsOp .aClrf 0x03 0 fun _ _ => clrfBody) ∧
  (RunsOp .aGetf 0x04 0 fun _ _ => elemBody (fun _ _ _ _ _ fb => ⟨b2n fb, false, {}⟩) false) ∧
  (RunsOp .aPutf 0x05 0 fun _ _ => putfBody) ∧
  (RunsOp .aSetm 0x06 0 fun _ _ => setmBody) ∧
  (RunsOp .aGetm 0x07 0 fun _ _ => getmBody) ∧
  (RunsOp .aCroak 0x40 0 fun n g => croakBody n g) ∧
  (RunsOp .aCmax 0x41 0 fun n g => cmaxBody true n g) ∧
  (RunsOp .aCmin 0x42 0 fun n g => cmaxBody false n g) ∧
  (RunsOp .aCount 0x43 0 fun n g => countBody n g)

/-- When its gang is ready, the links that its exchanges cross are UP, and for A.WIN the buffers are ready, a resumable op goes on from the greatest cursor of its tiles, cursor by cursor, to its end, or, while its gang yields, to the safe point that stopCursor gives: A.COPY and A.WIN to CNT, A.SCAN over its axis, A.BFLY over its batches; at the end it is reported done, at a safe point its tiles park, and an uncorrectable row stops the gang. Where a link is not UP, or the buffers are not ready, its tiles wait. A.MOVN goes on line by line: a line that reaches no CONT side and whose links are up moves bit by bit to its stop, and is reported done or parks; another goes on exchange by exchange, and a step that goes against it stops the gang. A.WOUT, whose elements the Wheel takes, is reported done at each tile, or at one tile named, that has moved its last, parks at the cursor of a yield, and else waits. USER_OP gives a tile that runs a user routine up to its number of cycles. Where the spec leaves the point open, these are the choices of the model: log 2 (the workspace of A.SCAN), log 36 (slot errors), log 55 (A.BFLY, inactive PEs in A.WIN, user routines), log 62 (CNT of A.SCAN, the width of A.WOUT, waits of whole ops). -/
def Obligations.ArrayResumableOpsRun : Prop :=
  (∀ (n : Node) (g : GangIx) (upto : Half) (s : Block) (m : Mop),
    readyOp s n g 0x50 0 = some m →
    let tiles := gangTiles s n g
    let cur := tiles.foldl (fun c tk => max c (tile s tk).cur.toNat) 0
    let top := cntTotal s n g m
    let stop := stopCursor s n g m upto.toNat cur top
    let r := (List.range (stop - cur)).foldl (fun acc i => if acc.bad then acc else copyStep n g m (cur + i) acc) ⟨false, {}, s⟩
    let b := setCursor r.st tiles stop
    Gives (.aCopy n g upto) s (if r.bad then faultStop r.st n g (some m.num) SRC.NEWT_PLANE_UE
      else if stop = top then finishOp r.st n g m r.flags none
      else tiles.foldl (fun s tk => tilePark s n g m tk) (putGang b n g (setOp (gang b n g) { m with flags := m.flags.join r.flags })))) ∧
  (∀ (n : Node) (g : GangIx) (upto : Half) (s : Block) (m : Mop),
    readyOp s n g 0x51 0 = some m →
    netLive s n g m = true →
    let tiles := gangTiles s n g
    let cur := tiles.foldl (fun c tk => max c (tile s tk).cur.toNat) 0
    let top := scanTotal s n g m
    let stop := stopCursor s n g m upto.toNat cur top
    let r := (List.range (stop - cur)).foldl (fun acc i => if acc.bad then acc else scanStep n g m (cur + i) acc) ⟨false, {}, s⟩
    let b := setCursor r.st tiles stop
    Gives (.aScan n g upto) s (if r.bad then faultStop r.st n g (some m.num) SRC.NEWT_PLANE_UE
      else if stop = top then finishOp r.st n g m r.flags none
      else tiles.foldl (fun s tk => tilePark s n g m tk) (putGang b n g (setOp (gang b n g) { m with flags := m.flags.join r.flags })))) ∧
  (∀ (n : Node) (g : GangIx) (upto : Half) (s : Block) (m : Mop),
    readyOp s n g 0x52 0 = some m →
    netLive s n g m = true →
    let tiles := gangTiles s n g
    let cur := tiles.foldl (fun c tk => max c (tile s tk).cur.toNat) 0
    let top := bflyTotal s n g m
    let stop := stopCursor s n g m upto.toNat cur top
    let r := (List.range (stop - cur)).foldl (fun acc i => if acc.bad then acc else bflyStep n g m (cur + i) acc) ⟨false, {}, s⟩
    let b := setCursor r.st tiles stop
    Gives (.aBfly n g upto) s (if r.bad then faultStop r.st n g (some m.num) SRC.NEWT_PLANE_UE
      else if stop = top then finishOp r.st n g m r.flags none
      else tiles.foldl (fun s tk => tilePark s n g m tk) (putGang b n g (setOp (gang b n g) { m with flags := m.flags.join r.flags })))) ∧
  (∀ (n : Node) (g : GangIx) (upto : Half) (s : Block) (m : Mop),
    readyOp s n g 0x52 1 = some m →
    netLive s n g m = true →
    let tiles := gangTiles s n g
    let cur := tiles.foldl (fun c tk => max c (tile s tk).cur.toNat) 0
    let top := bflyTotal s n g m
    let stop := stopCursor s n g m upto.toNat cur top
    let r := (List.range (stop - cur)).foldl (fun acc i => if acc.bad then acc else bflyStep n g m (cur + i) acc) ⟨false, {}, s⟩
    let b := setCursor r.st tiles stop
    Gives (.aFbfly n g upto) s (if r.bad then faultStop r.st n g (some m.num) SRC.NEWT_PLANE_UE
      else if stop = top then finishOp r.st n g m r.flags none
      else tiles.foldl (fun s tk => tilePark s n g m tk) (putGang b n g (setOp (gang b n g) { m with flags := m.flags.join r.flags })))) ∧
  (∀ (n : Node) (g : GangIx) (upto : Half) (s : Block) (m : Mop),
    readyOp s n g 0x53 0 = some m →
    buffersReady s n g m = true →
    let tiles := gangTiles s n g
    let cur := tiles.foldl (fun c tk => max c (tile s tk).cur.toNat) 0
    let top := cntTotal s n g m
    let stop := stopCursor s n g m upto.toNat cur top
    let r := (List.range (stop - cur)).foldl (fun acc i => if acc.bad then acc else winStep n g m (cur + i) acc) ⟨false, {}, s⟩
    let b := setCursor r.st tiles stop
    Gives (.aWin n g upto) s (if r.bad then faultStop r.st n g (some m.num) SRC.NEWT_PLANE_UE
      else if stop = top then finishOp r.st n g m r.flags none
      else tiles.foldl (fun s tk => tilePark s n g m tk) (putGang b n g (setOp (gang b n g) { m with flags := m.flags.join r.flags })))) ∧
  (∀ (n : Node) (g : GangIx) (upto : Half) (s : Block) (m : Mop),
    readyOp s n g 0x53 0 = some m →
    buffersReady s n g m = false →
    Gives (.aWin n g upto) s ((gangTiles s n g).foldl holdWheel s)) ∧
  (∀ (n : Node) (g : GangIx) (upto : Half) (s : Block) (m : Mop),
    netLive s n g m = false →
    (readyOp s n g 0x51 0 = some m → Gives (.aScan n g upto) s (holdTiles s (gangTiles s n g))) ∧
    (readyOp s n g 0x52 0 = some m → Gives (.aBfly n g upto) s (holdTiles s (gangTiles s n g))) ∧
    (readyOp s n g 0x52 1 = some m → Gives (.aFbfly n g upto) s (holdTiles s (gangTiles s n g)))) ∧
  (∀ (n : Node) (g : GangIx) (upto : Half) (s : Block) (m : Mop),
    headOp s n g = some m →
    (mopFields m.word).opc = 0x33 →
    mopFl (mopFields m.word) = 0 →
    m.started = true →
    Gives (.aMovn n g upto) s ((gangLines s n g (axisIsY (movnDir (mopFields m.word)))).foldl (fun s line =>
      if allReady s line m.num then movnLine n g m upto.toNat line s else s) s)) ∧
  (∀ (n g : Nat) (m : Mop) (upto : Nat) (line : List Nat) (s : Block),
    lineCont s (gangRect s n g) m (movnDir (mopFields m.word)) line = false →
    lineLive s (gangRect s n g) (movnDir (mopFields m.word)) line = true →
    (tile s (line.headD 0)).moved = 0 →
    let c := (tile s (line.headD 0)).cur.toNat
    let top := (mopFields m.word).wid0 + 1
    let stop := stopCursor s n g m upto c top
    let r := (List.range (stop - c)).foldl (fun acc i => movnBit m line (c + i) acc) ⟨false, {}, s⟩
    movnLine n g m upto line s = (if r.bad then faultStop (setCursor r.st line stop) n g (some m.num) SRC.NEWT_PLANE_UE
      else movnRest n g m line stop top (c, 0) (setCursor r.st line stop))) ∧
  (∀ (n g : Nat) (m : Mop) (upto : Nat) (line : List Nat) (s : Block),
    (lineCont s (gangRect s n g) m (movnDir (mopFields m.word)) line = true ∨ lineLive s (gangRect s n g) (movnDir (mopFields m.word)) line = false ∨ (tile s (line.headD 0)).moved ≠ 0) →
    let f := mopFields m.word
    let c := (tile s (line.headD 0)).cur.toNat
    let stop := stopCursor s n g m upto c (f.wid0 + 1)
    let r := movnCycles (gangRect s n g) m line stop ((stop - c) * (f.prm % 2 ^ 12 + 2) + 1) ⟨false, {}, s⟩
    movnLine n g m upto line s = (if r.2.bad then faultStop r.2.st n g (some m.num) SRC.NEWT_PLANE_UE
      else if r.1 then
        match line.find? fun tk => edgeMismatch r.2.st (gangRect s n g) m tk (movnDir f) with
        | some tk => edgeAgainst r.2.st tk
        | none => r.2.st
      else movnRest n g m line stop (f.wid0 + 1) (c, (tile s (line.headD 0)).moved) r.2.st)) ∧
  (∀ (n : Node) (g : GangIx) (only : Option TileAt) (s : Block) (m : Mop),
    headOp s n g = some m →
    (mopFields m.word).opc = 0x54 →
    mopFl (mopFields m.word) = 0 →
    m.started = true →
    Gives (.aWout n g only) s (((gangTiles s n g).filter fun tk => only.all fun x => tk == tkey x.node x.tile).foldl (woutRest n g m) s)) ∧
  (∀ (n g : Nat) (m x : Mop) (s : Block) (tk : Nat),
    findOp (gang s n g) m.num = some x →
    tileReady s x.num tk = true →
    woutRest n g m s tk = (if (tile s tk).cur.toNat = (mopFields x.word).cnt then finishTiles s n g x [tk] {} none
      else if yielding s n g x.num && ((gang s n g).cmax.getD (tile s tk).cur.toNat == (tile s tk).cur.toNat) then tilePark s n g x tk
      else holdWheel s tk)) ∧
  (∀ (n : Node) (t : TileIx) (s : Block) (gn g : Nat) (m : Mop),
    tileOp s (tkey n t) = some (gn, g, m) →
    mopUser (mopFields m.word) = true →
    (tile s (tkey n t)).phase = .run →
    Gives (.userOp n t 1) s (tileCycle n t s)) ∧
  (∀ (n : Node) (t : TileIx) (c : BitVec 12) (s : Block) (k : Nat),
    c.toNat = k + 1 →
    Gives (.userOp n t c) s (match tileOp s (tkey n t) with
      | some (_, _, m) => if mopUser (mopFields m.word) && decide ((tile s (tkey n t)).phase = .run) then
          Sys2Proof.Machine.userOp k n t (tileCycle n t s) else s
      | none => s))

/-- A task that is next, no cause being taken first, whose PC names the instruction, fetched and held by no interlock, executes it: RD takes the sum, difference, logical result, shift or rotation of its operands or the packed-digit result, and N, Z, V and C follow R209 where SF is set or the instruction always writes them; MUL and MULU write MDH and MDL, at once or exposed; DIV and DIVU give the divider their quotient, remainder and flags, which DIVIDE_COMPLETE commits, or wait while it is occupied. The task goes on at PC + 4. -/
def Obligations.AcuIntegerInstructionsRun : Prop :=
  (Executes .add .add fun w s n a k => aluEnd s n a k w (aSf w) (addRes (raVal s n a k w) (rbVal s n a k w) 0)) ∧
  (Executes .addc .addc fun w s n a k => aluEnd s n a k w (aSf w) (addRes (raVal s n a k w) (rbVal s n a k w) (carryOf s n a k))) ∧
  (Executes .sub .sub fun w s n a k => aluEnd s n a k w (aSf w) (subRes (raVal s n a k w) (rbVal s n a k w) 1)) ∧
  (Executes .subc .subc fun w s n a k => aluEnd s n a k w (aSf w) (subRes (raVal s n a k w) (rbVal s n a k w) (carryOf s n a k))) ∧
  (Executes .neg .neg fun w s n a k => aluEnd s n a k w true (subRes 0 (raVal s n a k w) 1)) ∧
  (Executes .and .and fun w s n a k => aluEnd s n a k w (aSf w) (bitRes (Nat.land (raVal s n a k w) (rbVal s n a k w)))) ∧
  (Executes .or .or fun w s n a k => aluEnd s n a k w (aSf w) (bitRes (Nat.lor (raVal s n a k w) (rbVal s n a k w)))) ∧
  (Executes .xor .xor fun w s n a k => aluEnd s n a k w (aSf w) (bitRes (Nat.xor (raVal s n a k w) (rbVal s n a k w)))) ∧
  (Executes .andn .andn fun w s n a k => aluEnd s n a k w (aSf w) (bitRes (Nat.land (raVal s n a k w) (2 ^ 32 - 1 - (rbVal s n a k w))))) ∧
  (Executes .shl .shl fun w s n a k => aluEnd s n a k w (aSf w) (bitRes (shlVal (raVal s n a k w) (rbVal s n a k w)))) ∧
  (Executes .shr .shr fun w s n a k => aluEnd s n a k w (aSf w) (bitRes (shrVal (raVal s n a k w) (rbVal s n a k w)))) ∧
  (Executes .sar .sar fun w s n a k => aluEnd s n a k w (aSf w) (bitRes (sarVal (raVal s n a k w) (rbVal s n a k w)))) ∧
  (Executes .rol .rol fun w s n a k => aluEnd s n a k w (aSf w) (bitRes (rolVal (raVal s n a k w) (rbVal s n a k w)))) ∧
  (Executes .ror .ror fun w s n a k => aluEnd s n a k w (aSf w) (bitRes (rorVal (raVal s n a k w) (rbVal s n a k w)))) ∧
  (Executes .mul .mul fun w s n a k => mulEnd s n a k (mulVal true (raVal s n a k w) (rbVal s n a k w))) ∧
  (Executes .mulu .mulu fun w s n a k => mulEnd s n a k (mulVal false (raVal s n a k w) (rbVal s n a k w))) ∧
  (Executes .div .div fun w s n a k => divStart s n a k (divVal true k (raVal s n a k w) (rbVal s n a k w))) ∧
  (Executes .divu .divu fun w s n a k => divStart s n a k (divVal false k (raVal s n a k w) (rbVal s n a k w))) ∧
  (Executes .dadd .dadd fun w s n a k => aluEnd s n a k w true (daddRes (raVal s n a k w) (rbVal s n a k w) (if aCi w then carryOf s n a k else 0))) ∧
  (Executes .dsub .dsub fun w s n a k => aluEnd s n a k w true (dsubRes (raVal s n a k w) (rbVal s n a k w) (if aCi w then carryOf s n a k else 1))) ∧
  (Executes .dadj .dadj fun w s n a k => aluEnd s n a k w true (dadjRes (raVal s n a k w) (rbVal s n a k w) (if aCi w then carryOf s n a k else 0))) ∧
  (Executes .addi .addi fun w s n a k => aluEnd s n a k w false (addRes (raVal s n a k w) (aImmS w) 0)) ∧
  (Executes .andi .andi fun w s n a k => aluEnd s n a k w false (bitRes (Nat.land (raVal s n a k w) (aImm w)))) ∧
  (Executes .ori .ori fun w s n a k => aluEnd s n a k w false (bitRes (Nat.lor (raVal s n a k w) (aImm w)))) ∧
  (Executes .xori .xori fun w s n a k => aluEnd s n a k w false (bitRes (Nat.xor (raVal s n a k w) (aImm w)))) ∧
  (Executes .lui .lui fun w s n a k => aluEnd s n a k w false (bitRes ((aImm w) * 65536))) ∧
  (Executes .cmpi .cmpi fun w s n a k => aluEnd s n a k w true (subRes (raVal s n a k w) (aImmS w) 1)) ∧
  (Executes .shli .shli fun w s n a k => aluEnd s n a k w false (bitRes (shlVal (raVal s n a k w) (aImm w)))) ∧
  (Executes .shri .shri fun w s n a k => aluEnd s n a k w false (bitRes (shrVal (raVal s n a k w) (aImm w)))) ∧
  (Executes .sari .sari fun w s n a k => aluEnd s n a k w false (bitRes (sarVal (raVal s n a k w) (aImm w)))) ∧
  (Executes .roli .roli fun w s n a k => aluEnd s n a k w false (bitRes (rolVal (raVal s n a k w) (aImm w)))) ∧
  (Executes .rori .rori fun w s n a k => aluEnd s n a k w false (bitRes (rorVal (raVal s n a k w) (aImm w)))) ∧
  (∀ (d : DivSt) (s : Block) (n a k : Nat), divStart s n a k d = (match (acu s n a).divider with
      | some _ => taskWait s n a k wDiv
      | none => taskWait (putAcu s n a { acu s n a with divider := some d }) n a k wDiv)) ∧
  (∀ (s : Block) (n a k p : Nat), 
      let b := commit s n a k
      let t := task b (taskKey n a k)
      let hi : Word := BitVec.ofNat 32 (p / 2 ^ 32)
      mulEnd s n a k p = putTask b (taskKey n a k) (if fbit b n F.ACU_CTRL_MDEXP a then
        { t with products := t.products ++ [(3, hi, BitVec.ofNat 32 p)] } else { t with mdh := hi, mdl := BitVec.ofNat 32 p }))

/-- A task that is next, no cause being taken first, whose PC names the instruction, fetched and held by no interlock, executes it: RD, or the even pair RD for D = 1, takes the result of binary32 or binary64 arithmetic, rounded by RM or FSR.RMODE and with FSR.FTZ; the op stays outstanding with the instruction's address, its flags and the registers of its result until FP_REPORT; the task goes on at PC + 4. FDIV and FSQRT wait while the unit is occupied by another. -/
def Obligations.AcuFloatInstructionsRun : Prop :=
  (Executes .fadd .fadd fun w s n a k => fpBin s n a k w fAdd) ∧
  (Executes .fsub .fsub fun w s n a k => fpBin s n a k w fSub) ∧
  (Executes .fmul .fmul fun w s n a k => fpBin s n a k w fMul) ∧
  (Executes .fmadd .fmadd fun w s n a k => fltMac s n a k w) ∧
  (Executes .fdiv .fdiv fun w s n a k => fpLong s n a k (fpBin s n a k w fDiv)) ∧
  (Executes .fsqrt .fsqrt fun w s n a k => fpLong s n a k (fpUn s n a k w fSqrt)) ∧
  (Executes .fmin .fmin fun w s n a k => fpBin s n a k w fun t _ z p q => fMinMax t z false p q) ∧
  (Executes .fmax .fmax fun w s n a k => fpBin s n a k w fun t _ z p q => fMinMax t z true p q) ∧
  (Executes .fneg .fneg fun w s n a k => fpUn s n a k w fun t _ _ p => fNeg t p) ∧
  (Executes .fabs .fabs fun w s n a k => fpUn s n a k w fun t _ _ p => fAbs t p) ∧
  (Executes .fcvtF .fcvtF fun w s n a k => fltToFloat s n a k w) ∧
  (Executes .fcvtI .fcvtI fun w s n a k => fltToInt true s n a k w) ∧
  (Executes .fcvtU .fcvtU fun w s n a k => fltToInt false s n a k w) ∧
  (Executes .fcvtFi .fcvtFi fun w s n a k => fltFromInt true s n a k w) ∧
  (Executes .fcvtFu .fcvtFu fun w s n a k => fltFromInt false s n a k w) ∧
  (Executes .fcmp .fcmp fun w s n a k => fltCmp s n a k w) ∧
  (∀ (s : Block) (n a k : Nat) (w : Word) (d : Bool) (r : FRes), 
      let b := fpPut s n a k (aRd w) d r.bits
      let t := task b (taskKey n a k)
      fpEnd s n a k w d r = commit (putTask b (taskKey n a k) { t with fps := t.fps ++ [⟨BitVec.ofNat 32 (taskPc s n a k), r.flags.toNat % 32, codeSlots s n a k (fpCodes d (aRd w)), aFop w == 4 || aFop w == 5⟩] }) n a k)

/-- A task that is next, no cause being taken first, whose PC names the instruction, fetched and held by no interlock, executes it: a branch by its condition, CALL and JRL with the return address, JRL with ACCESS for a target that is no word address, WADV and WREV moving the window or trapping, RETI restoring PSW and PC or chaining, TRAP taking cause 0x05, WAIT, SYNC, ISYNC and FBAR going on once their condition holds and else waiting, MFSR and MTSR moving special registers, those of FSR once no op is outstanding; MILL.ISS presents its macro-op to the gang and waits for its acceptance, RES takes the oldest croak value or waits, WAIT gives what became of an op or waits, YIELD and RESUME ask the gang to stop and to go on, each refused with MILL_DENIED if the task does not issue for the gang, and MILL.ISS for a 17th croak value. Where the spec leaves the point open, these are the choices of the model: log 53 (what holds an instruction, RETI, floating-point reports), log 63 (a fetch through the data cache, HALT_CAUSE in the trap window, DENY_REASON). -/
def Obligations.AcuControlInstructionsRun : Prop :=
  (Executes .bCond .bcond fun w s n a k => if condHolds s n a k (aCond w) then commitAt s n a k ((taskPc s n a k + aDispB w) % 2 ^ 32) else commit s n a k) ∧
  (Executes .call .call fun w s n a k =>
      let pc := taskPc s n a k
      commitAt (gprPut s n a k 24 (BitVec.ofNat 32 (pc + 4))) n a k ((pc + aDispJ w) % 2 ^ 32)) ∧
  (Executes .jrl .jrl fun w s n a k =>
      let target := memAddr s n a k w
      if target % 4 ≠ 0 then accessTrap s n a k target
      else commitAt (gprPut s n a k (aRd w) (BitVec.ofNat 32 (taskPc s n a k + 4))) n a k target) ∧
  (Executes .wadv .wadv fun _ s n a k =>
      if pswF s n a k F.ACU_TASK_PSW_TW = 1 || pswF s n a k F.ACU_TASK_PSW_RES2 = 1 then preciseTrap s n a k cauWindowOvf none
      else
        let c := pswF s n a k F.ACU_TASK_PSW_CURW
        commit (pswPut (pswPut s n a k F.ACU_TASK_PSW_CURW ((c + 1) % 4)) n a k F.ACU_TASK_PSW_RES2 1) n a k) ∧
  (Executes .wrev .wrev fun _ s n a k =>
      if pswF s n a k F.ACU_TASK_PSW_TW = 1 || pswF s n a k F.ACU_TASK_PSW_RES2 = 0 then preciseTrap s n a k cauWindowUnf none
      else
        let c := pswF s n a k F.ACU_TASK_PSW_CURW
        commit (pswPut (pswPut s n a k F.ACU_TASK_PSW_CURW ((c + 3) % 4)) n a k F.ACU_TASK_PSW_RES2 0) n a k) ∧
  (Executes .reti .reti fun _ s n a k =>
      let w8 := gprGet s n a k 24
      let w9 := gprGet s n a k 25
      match (if w9.getLsbD 4 && !w9.getLsbD 3 then pickCause s n a k else none) with
      | some c =>
        let s := gprPut s n a k 26 (BitVec.ofNat 32 c)
        let s := match causeW11 s n a k c with
          | some v => gprPut s n a k 27 v
          | none => s
        causeTaken (commitAt s n a k (vectorOf s n a c)) n a k c
      | none => setPsw (commitAt s n a k w8.toNat) n a k (w9 &&& pswMask)) ∧
  (Executes .trap .trap fun _ s n a k => preciseTrap s n a k cauSwtrap none) ∧
  (Executes .wait .wait fun _ s n a k => if routedPend s n a k ≠ 0 then commit s n a k else taskWait s n a k wWait) ∧
  (Executes .sync .sync fun _ s n a k => if ownStores s n a k then taskWait s n a k wSync else commit s n a k) ∧
  (Executes .isync .isync fun _ s n a k => if ownStores s n a k then taskWait s n a k wSync else commit (putIcache s n a []) n a k) ∧
  (Executes .fbar .fbar fun _ s n a k => if fpsOut s n a k then taskWait s n a k wFbar else commit s n a k) ∧
  (Executes .mfsr .mfsr fun w s n a k =>
      if aRa w = 4 && fpsOut s n a k then taskWait s n a k wFpu
      else commit (gprPut s n a k (aRd w) (specialGet s n a k (aRa w))) n a k) ∧
  (Executes .mtsr .mtsr fun w s n a k =>
      let tk := taskKey n a k
      let v := gprGet s n a k (aRa w)
      match aRd w with
      | 1 => commit (setPsw s n a k ((psw s n a k &&& ~~~mtsrMask) ||| (v &&& mtsrMask))) n a k
      | 2 => commit (putTask s tk { task s tk with mdh := v }) n a k
      | 3 => commit (putTask s tk { task s tk with mdl := v }) n a k
      | _ => if fpsOut s n a k then taskWait s n a k wFpu else commit (fsrWrite s n a k v) n a k) ∧
  (Executes .millIss .millIss fun w s n a k =>
      if !issuing s n a k then millDenied s n a k 1
      else
        let op := issWord s n a k (aRa w % 4)
        if mopCroaks (mopFields op) && 16 ≤ croaksOut s n a then millDenied s n a k 2
        else taskWait (putGang s n a { gang s n a with presented := some (op, k, aRd w) }) n a k wMill) ∧
  (Executes .millRes .millRes fun w s n a k =>
      if !issuing s n a k then millDenied s n a k 1
      else
        match (gang s n a).crkQueue with
        | [] => taskWait s n a k wCroak
        | v :: rest => commit (pairPut (putGang s n a { gang s n a with crkQueue := rest }) n a k (aRd w) v) n a k) ∧
  (Executes .millWait .millWait fun w s n a k =>
      if !issuing s n a k then millDenied s n a k 1
      else
        match waitOutcome s n a (raVal s n a k w) with
        | none => taskWait s n a k wRetire
        | some v => commit (gprPut s n a k (aRd w) (BitVec.ofNat 32 v)) n a k) ∧
  (Executes .millYield .millYield fun _ s n a k => if !issuing s n a k then millDenied s n a k 1 else commit (stopRequest s n a .acu) n a k) ∧
  (Executes .millResume .millResume fun _ s n a k => if !issuing s n a k then millDenied s n a k 1 else commit (resumeGang s n a) n a k)

/-- At a load, the ACU checks its address; it waits where the check stalls, the store buffer holds some of its bytes only in part, or a miss has not been served; a refused access or an answer in error is ACCESS with the address; else LDB, LDBU, LDH, LDHU and LD write their bytes, sign-extended for LDB and LDH, to RD, LDD to the even pair, the even register from the lower address, and LWG to the eight registers of the caller's group; with LDEXP the next instruction still reads the old ones. A store that its check serves enters the store buffer as one entry, or as two tied ones where it crosses a doubleword, SWG as four of the caller's registers; it waits where more than 16 would be held; no store adds more than one entry per part. Else it waits, or is refused with ACCESS. The address is RA + IMM; the task goes on at PC + 4. Where the spec leaves the point open, these are the choices of the model: log 53 (accesses made as the instruction runs again, exposed loads, store errors), log 63 (a bad clean line), log 49 (an access at a closed bridge). -/
def Obligations.AcuLoadsAndStoresRun : Prop :=
  (∀ (n : Node) (a : AcuIx) (k : TaskIx) (way : BusWay) (s : Block) (w : Word) (b : Block) (t : Block) (v : Nat),
    AtInstr s n a k .ldb w b →
    loadBytes b n a k (memAddr b n a k w) 1 false (memAddr b n a k w % 1 == 0) way = .ok v t →
    Gives (.ldb n a k way) s (loadEnd t n a k [(codeSlot t n a k (aRd w), BitVec.ofNat 32 (wrapTo 32 (signedOf 8 v)))])) ∧
  (∀ (n : Node) (a : AcuIx) (k : TaskIx) (way : BusWay) (s : Block) (w : Word) (b : Block) (t : Block) (v : Nat),
    AtInstr s n a k .ldbu w b →
    loadBytes b n a k (memAddr b n a k w) 1 false (memAddr b n a k w % 1 == 0) way = .ok v t →
    Gives (.ldbu n a k way) s (loadEnd t n a k [(codeSlot t n a k (aRd w), BitVec.ofNat 32 v)])) ∧
  (∀ (n : Node) (a : AcuIx) (k : TaskIx) (way : BusWay) (s : Block) (w : Word) (b : Block) (t : Block) (v : Nat),
    AtInstr s n a k .ldh w b →
    loadBytes b n a k (memAddr b n a k w) 2 false (memAddr b n a k w % 2 == 0) way = .ok v t →
    Gives (.ldh n a k way) s (loadEnd t n a k [(codeSlot t n a k (aRd w), BitVec.ofNat 32 (wrapTo 32 (signedOf 16 v)))])) ∧
  (∀ (n : Node) (a : AcuIx) (k : TaskIx) (way : BusWay) (s : Block) (w : Word) (b : Block) (t : Block) (v : Nat),
    AtInstr s n a k .ldhu w b →
    loadBytes b n a k (memAddr b n a k w) 2 false (memAddr b n a k w % 2 == 0) way = .ok v t →
    Gives (.ldhu n a k way) s (loadEnd t n a k [(codeSlot t n a k (aRd w), BitVec.ofNat 32 v)])) ∧
  (∀ (n : Node) (a : AcuIx) (k : TaskIx) (way : BusWay) (s : Block) (w : Word) (b : Block) (t : Block) (v : Nat),
    AtInstr s n a k .ld w b →
    loadBytes b n a k (memAddr b n a k w) 4 true (memAddr b n a k w % 4 == 0) way = .ok v t →
    Gives (.ld n a k way) s (loadEnd t n a k [(codeSlot t n a k (aRd w), BitVec.ofNat 32 v)])) ∧
  (∀ (n : Node) (a : AcuIx) (k : TaskIx) (way : BusWay) (s : Block) (w : Word) (b : Block) (t : Block) (v : Nat),
    AtInstr s n a k .ldd w b →
    loadBytes b n a k (memAddr b n a k w) 8 true (memAddr b n a k w % 8 == 0) way = .ok v t →
    Gives (.ldd n a k way) s (loadEnd t n a k [(codeSlot t n a k (aRd w), BitVec.ofNat 32 v),
      (codeSlot t n a k (aRd w + 1), BitVec.ofNat 32 (v / 2 ^ 32))])) ∧
  (∀ (n : Node) (a : AcuIx) (k : TaskIx) (way : BusWay) (s : Block) (w : Word) (b : Block),
    AtInstr s n a k .ldb w b →
    (loadBytes b n a k (memAddr b n a k w) 1 false (memAddr b n a k w % 1 == 0) way = .wait → Gives (.ldb n a k way) s (taskWait b n a k wMem)) ∧
    (∀ t, loadBytes b n a k (memAddr b n a k w) 1 false (memAddr b n a k w % 1 == 0) way = .trap t → Gives (.ldb n a k way) s (accessTrap t n a k (memAddr b n a k w)))) ∧
  (∀ (n : Node) (a : AcuIx) (k : TaskIx) (way : BusWay) (s : Block) (w : Word) (b : Block),
    AtInstr s n a k .ldbu w b →
    (loadBytes b n a k (memAddr b n a k w) 1 false (memAddr b n a k w % 1 == 0) way = .wait → Gives (.ldbu n a k way) s (taskWait b n a k wMem)) ∧
    (∀ t, loadBytes b n a k (memAddr b n a k w) 1 false (memAddr b n a k w % 1 == 0) way = .trap t → Gives (.ldbu n a k way) s (accessTrap t n a k (memAddr b n a k w)))) ∧
  (∀ (n : Node) (a : AcuIx) (k : TaskIx) (way : BusWay) (s : Block) (w : Word) (b : Block),
    AtInstr s n a k .ldh w b →
    (loadBytes b n a k (memAddr b n a k w) 2 false (memAddr b n a k w % 2 == 0) way = .wait → Gives (.ldh n a k way) s (taskWait b n a k wMem)) ∧
    (∀ t, loadBytes b n a k (memAddr b n a k w) 2 false (memAddr b n a k w % 2 == 0) way = .trap t → Gives (.ldh n a k way) s (accessTrap t n a k (memAddr b n a k w)))) ∧
  (∀ (n : Node) (a : AcuIx) (k : TaskIx) (way : BusWay) (s : Block) (w : Word) (b : Block),
    AtInstr s n a k .ldhu w b →
    (loadBytes b n a k (memAddr b n a k w) 2 false (memAddr b n a k w % 2 == 0) way = .wait → Gives (.ldhu n a k way) s (taskWait b n a k wMem)) ∧
    (∀ t, loadBytes b n a k (memAddr b n a k w) 2 false (memAddr b n a k w % 2 == 0) way = .trap t → Gives (.ldhu n a k way) s (accessTrap t n a k (memAddr b n a k w)))) ∧
  (∀ (n : Node) (a : AcuIx) (k : TaskIx) (way : BusWay) (s : Block) (w : Word) (b : Block),
    AtInstr s n a k .ld w b →
    (loadBytes b n a k (memAddr b n a k w) 4 true (memAddr b n a k w % 4 == 0) way = .wait → Gives (.ld n a k way) s (taskWait b n a k wMem)) ∧
    (∀ t, loadBytes b n a k (memAddr b n a k w) 4 true (memAddr b n a k w % 4 == 0) way = .trap t → Gives (.ld n a k way) s (accessTrap t n a k (memAddr b n a k w)))) ∧
  (∀ (n : Node) (a : AcuIx) (k : TaskIx) (way : BusWay) (s : Block) (w : Word) (b : Block),
    AtInstr s n a k .ldd w b →
    (loadBytes b n a k (memAddr b n a k w) 8 true (memAddr b n a k w % 8 == 0) way = .wait → Gives (.ldd n a k way) s (taskWait b n a k wMem)) ∧
    (∀ t, loadBytes b n a k (memAddr b n a k w) 8 true (memAddr b n a k w % 8 == 0) way = .trap t → Gives (.ldd n a k way) s (accessTrap t n a k (memAddr b n a k w)))) ∧
  (∀ (b : Block) (n a k addr len : Nat) (plain aligned : Bool) (way : BusWay),
    accChecks b n a plain aligned ((accParts addr len).map (·.1)) = .ok →
    let r := loadParts b n a way (accParts addr len)
    loadBytes b n a k addr len plain aligned way = (if loadHeld b n a k (accParts addr len) then .wait
      else if r.code = rspOk then .ok (ofBytes r.data) r.st else .trap r.st)) ∧
  (∀ (n : Node) (a : AcuIx) (k : TaskIx) (way : BusWay) (s : Block) (w : Word) (b : Block),
    AtInstr s n a k .lwg w b →
    memAddr b n a k w % 8 = 0 →
    accChecks b n a false true ((groupParts (memAddr b n a k w)).map (·.1)) = .ok →
    let r := loadParts b n a way (groupParts (memAddr b n a k w))
    Gives (.lwg n a k way) s (if loadHeld b n a k (groupParts (memAddr b n a k w)) then taskWait b n a k wMem
      else if r.code ≠ rspOk then accessTrap r.st n a k (memAddr b n a k w)
      else loadEnd r.st n a k ((List.range 8).map fun i =>
        (callerSlot b n a k + i, BitVec.ofNat 32 (ofBytes ((r.data.drop (4 * i)).take 4)))))) ∧
  (∀ (s : Block) (n a k : Nat) (vals : List (Nat × Word)),
    let t := task s (taskKey n a k)
    let b := vals.foldl (fun s p => slotPut s n a k p.1 p.2) (commit s n a k)
    loadEnd s n a k vals = (if fbit b n F.ACU_CTRL_LDEXP a then putTask b (taskKey n a k)
      { task b (taskKey n a k) with shade := (vals.filter fun p => p.1 != 0).map fun p => (p.1, slotGet t p.1) } else b)) ∧
  (∀ (n : Node) (a : AcuIx) (k : TaskIx) (s : Block) (w : Word) (b : Block),
    AtInstr s n a k .stb w b →
    accChecks b n a false (memAddr b n a k w % 1 == 0) ((accParts (memAddr b n a k w) 1).map (·.1)) = .ok →
    let addr := memAddr b n a k w
    let v := rdVal b n a k w
    let room := 8 - addr % 8
    let x := storePart addr 1 v
    let p := storePart addr room v
    let q := storePart ((addr + room) % 2 ^ 32) (1 - room) (v / 256 ^ room)
    let sb := if 1 ≤ room then sbPush (acu b n a).sb k x.1 x.2.1 x.2.2 true false
      else sbPush (sbPush (acu b n a).sb k p.1 p.2.1 p.2.2 false true) k q.1 q.2.1 q.2.2 false false
    Gives (.stb n a k) s (if 16 < sb.length then taskWait b n a k wStore else commit (putAcu b n a { acu b n a with sb := sb }) n a k)) ∧
  (∀ (n : Node) (a : AcuIx) (k : TaskIx) (s : Block) (w : Word) (b : Block),
    AtInstr s n a k .stb w b →
    (accChecks b n a false (memAddr b n a k w % 1 == 0) ((accParts (memAddr b n a k w) 1).map (·.1)) = .stall → Gives (.stb n a k) s (taskWait b n a k wMem)) ∧
    (∀ t, accChecks b n a false (memAddr b n a k w % 1 == 0) ((accParts (memAddr b n a k w) 1).map (·.1)) = .refused t → Gives (.stb n a k) s (accessTrap t n a k (memAddr b n a k w)))) ∧
  (∀ (n : Node) (a : AcuIx) (k : TaskIx) (s : Block) (w : Word) (b : Block),
    AtInstr s n a k .sth w b →
    accChecks b n a false (memAddr b n a k w % 2 == 0) ((accParts (memAddr b n a k w) 2).map (·.1)) = .ok →
    let addr := memAddr b n a k w
    let v := rdVal b n a k w
    let room := 8 - addr % 8
    let x := storePart addr 2 v
    let p := storePart addr room v
    let q := storePart ((addr + room) % 2 ^ 32) (2 - room) (v / 256 ^ room)
    let sb := if 2 ≤ room then sbPush (acu b n a).sb k x.1 x.2.1 x.2.2 true false
      else sbPush (sbPush (acu b n a).sb k p.1 p.2.1 p.2.2 false true) k q.1 q.2.1 q.2.2 false false
    Gives (.sth n a k) s (if 16 < sb.length then taskWait b n a k wStore else commit (putAcu b n a { acu b n a with sb := sb }) n a k)) ∧
  (∀ (n : Node) (a : AcuIx) (k : TaskIx) (s : Block) (w : Word) (b : Block),
    AtInstr s n a k .sth w b →
    (accChecks b n a false (memAddr b n a k w % 2 == 0) ((accParts (memAddr b n a k w) 2).map (·.1)) = .stall → Gives (.sth n a k) s (taskWait b n a k wMem)) ∧
    (∀ t, accChecks b n a false (memAddr b n a k w % 2 == 0) ((accParts (memAddr b n a k w) 2).map (·.1)) = .refused t → Gives (.sth n a k) s (accessTrap t n a k (memAddr b n a k w)))) ∧
  (∀ (n : Node) (a : AcuIx) (k : TaskIx) (s : Block) (w : Word) (b : Block),
    AtInstr s n a k .st w b →
    accChecks b n a true (memAddr b n a k w % 4 == 0) ((accParts (memAddr b n a k w) 4).map (·.1)) = .ok →
    let addr := memAddr b n a k w
    let v := rdVal b n a k w
    let room := 8 - addr % 8
    let x := storePart addr 4 v
    let p := storePart addr room v
    let q := storePart ((addr + room) % 2 ^ 32) (4 - room) (v / 256 ^ room)
    let sb := if 4 ≤ room then sbPush (acu b n a).sb k x.1 x.2.1 x.2.2 true false
      else sbPush (sbPush (acu b n a).sb k p.1 p.2.1 p.2.2 false true) k q.1 q.2.1 q.2.2 false false
    Gives (.st n a k) s (if 16 < sb.length then taskWait b n a k wStore else commit (putAcu b n a { acu b n a with sb := sb }) n a k)) ∧
  (∀ (n : Node) (a : AcuIx) (k : TaskIx) (s : Block) (w : Word) (b : Block),
    AtInstr s n a k .st w b →
    (accChecks b n a true (memAddr b n a k w % 4 == 0) ((accParts (memAddr b n a k w) 4).map (·.1)) = .stall → Gives (.st n a k) s (taskWait b n a k wMem)) ∧
    (∀ t, accChecks b n a true (memAddr b n a k w % 4 == 0) ((accParts (memAddr b n a k w) 4).map (·.1)) = .refused t → Gives (.st n a k) s (accessTrap t n a k (memAddr b n a k w)))) ∧
  (∀ (n : Node) (a : AcuIx) (k : TaskIx) (s : Block) (w : Word) (b : Block),
    AtInstr s n a k .std w b →
    accChecks b n a true (memAddr b n a k w % 8 == 0) ((accParts (memAddr b n a k w) 8).map (·.1)) = .ok →
    let addr := memAddr b n a k w
    let v := pairGet b n a k (aRd w)
    let room := 8 - addr % 8
    let x := storePart addr 8 v
    let p := storePart addr room v
    let q := storePart ((addr + room) % 2 ^ 32) (8 - room) (v / 256 ^ room)
    let sb := if 8 ≤ room then sbPush (acu b n a).sb k x.1 x.2.1 x.2.2 true false
      else sbPush (sbPush (acu b n a).sb k p.1 p.2.1 p.2.2 false true) k q.1 q.2.1 q.2.2 false false
    Gives (.std n a k) s (if 16 < sb.length then taskWait b n a k wStore else commit (putAcu b n a { acu b n a with sb := sb }) n a k)) ∧
  (∀ (n : Node) (a : AcuIx) (k : TaskIx) (s : Block) (w : Word) (b : Block),
    AtInstr s n a k .std w b →
    (accChecks b n a true (memAddr b n a k w % 8 == 0) ((accParts (memAddr b n a k w) 8).map (·.1)) = .stall → Gives (.std n a k) s (taskWait b n a k wMem)) ∧
    (∀ t, accChecks b n a true (memAddr b n a k w % 8 == 0) ((accParts (memAddr b n a k w) 8).map (·.1)) = .refused t → Gives (.std n a k) s (accessTrap t n a k (memAddr b n a k w)))) ∧
  (∀ (sb : List SbEntry) (k addr : Nat) (be : BitVec 8) (data : DWord) (join tied : Bool),
    (sbPush sb k addr be data join tied).length ≤ sb.length + 1) ∧
  (∀ (n : Node) (a : AcuIx) (k : TaskIx) (s : Block) (w : Word) (b : Block),
    AtInstr s n a k .swg w b →
    let addr := memAddr b n a k w
    let slot := callerSlot b n a k
    let t := task b (taskKey n a k)
    let val := fun i => match t.shade.find? (fun p => p.1 == slot + i) with
      | some p => p.2.toNat
      | none => (slotGet t (slot + i)).toNat
    let sb := (List.range 4).foldl (fun sb i =>
      let x := storePart ((addr + 8 * i) % 2 ^ 32) 8 (val (2 * i) + 2 ^ 32 * val (2 * i + 1))
      sbPush sb k x.1 x.2.1 x.2.2 true false) (acu b n a).sb
    Gives (.swg n a k) s (if addr % 8 ≠ 0 then accessTrap b n a k addr
      else match accChecks b n a false true ((groupParts addr).map (·.1)) with
        | .stall => taskWait b n a k wMem
        | .refused c => accessTrap c n a k addr
        | .ok => if 16 < sb.length then taskWait b n a k wStore else commit (putAcu b n a { acu b n a with sb := sb }) n a k))

/-- A divide that completes writes MDH and MDL, V, and DZ for a zero divisor; its task goes on. FP_REPORT adds the flags to FSR and with one enabled makes FP_TRAP pending with its address. TASK_WAKE readies a waiting task once what it waits for is there; a task that waits on memory has it served; an FBAR commits. TRAP_ENTRY takes the cause to be taken: W8 to W10 of the next window hold PC, PSW and cause, the window moves on, TW is 1, IE 0, the PC the vector. A word that is no legal instruction is ILLEGAL; a fetch past the instruction cache waits until served; with a cause to be taken only a precise trap goes first. STORE_DRAIN sends the oldest store, or both halves of a split one, to its target; one that no target answers, or answers in error, is STORE_ERR. EN starts or stops a task; it is OFF once it has nothing outstanding. IPI bits raise their causes; BELL holds its word and raises the cause for commands. Where the spec leaves the point open, these are the choices of the model: log 34 (RAM test and patrol in one step), log 53 (causes and their order, an exception with TW = 1), log 63 (W11, interlocks), log 1 (the moment of an event, and a command whose condition does not hold). -/
def Obligations.AcuTasksTrapsAndUnits : Prop :=
  (∀ (n : Node) (a : AcuIx) (s : Block) (d : DivSt),
    (acu s n a).divider = some d →
    let b := putAcu s n a { acu s n a with divider := none }
    let b := putTask b (taskKey n a d.task) { task b (taskKey n a d.task) with mdh := d.rem, mdl := d.quot }
    let b := pswPut b n a d.task F.ACU_TASK_PSW_V (b2n d.v)
    Gives (.divideComplete n a) s (commit (if d.dz then pswPut b n a d.task F.ACU_TASK_PSW_DZ 1 else b) n a d.task)) ∧
  (∀ (n : Node) (a : AcuIx) (k : TaskIx) (i : Nat) (s : Block) (op : FpOp),
    (task s (taskKey n a k)).fps[i]? = some op →
    let b := putTask s (taskKey n a k) { task s (taskKey n a k) with fps := dropAt (task s (taskKey n a k)).fps i }
    let b := rput b n .ACU_TASK_FSR (at2 a k) (rget b n .ACU_TASK_FSR (at2 a k) ||| BitVec.ofNat 32 op.flags)
    Gives (.fpReport n a k i) s (if Nat.land op.flags (fget b n F.ACU_TASK_FSR_TE (at2 a k)) = 0 || (syncPend b n a k).testBit 0 then b
      else pendSyncSet (putTask b (taskKey n a k) { task b (taskKey n a k) with fpAddr := op.pc }) (taskKey n a k) 0)) ∧
  (∀ (n : Node) (a : AcuIx) (k : TaskIx) (s : Block),
    taskState s n a k = 2 →
    taskRun s n a k = runWait →
    let why := fget s n F.ACU_TASK_STATUS_WAIT (at2 a k)
    Gives (.taskWake n a k) s (if why = wMem then if memoryMayWake s n a k then setRun (serve s n a k) n a k runReady 0 else s
      else if why = wFbar then if (task s (taskKey n a k)).fps.isEmpty then commit s n a k else s
      else if taskMayWake s n a k then setRun s n a k runReady 0 else s) ∧
    (why = wDiv → taskMayWake s n a k = (acu s n a).divider.isNone) ∧
    (why = wMill → taskMayWake s n a k = (gang s n a).presented.isNone)) ∧
  (∀ (n : Node) (a : AcuIx) (k : TaskIx) (s : Block) (c : Nat),
    inRun s n = true →
    taskState s n a k = 2 →
    (taskRun s n a k = runReady ∨ taskRun s n a k = runWait) →
    takeable s n a k = some c →
    let b := abandonInstr (fbarFirst s n a k) n a k
    Gives (.trapEntry n a k) s (causeTaken (enterTrap b n a k c (taskPc b n a k) (causeW11 b n a k c)) n a k c)) ∧
  (∀ (n a k cause pc : Nat) (v : Word) (x : Block),
    let s := unserve x n a k
    let c := pswF s n a k F.ACU_TASK_PSW_CURW
    let b := trapReg (trapReg (trapReg s n a k c 0 (BitVec.ofNat 32 pc)) n a k c 1 (psw s n a k)) n a k c 2 (BitVec.ofNat 32 cause)
    let z := fun b => pswPut (pswPut (pswPut b n a k F.ACU_TASK_PSW_CURW ((c + 1) % 4)) n a k F.ACU_TASK_PSW_TW 1) n a k F.ACU_TASK_PSW_IE 0
    let e := fun b => setRun (setPc (z b) n a k (vectorOf (z b) n a cause)) n a k runReady 0
    enterTrap x n a k cause pc none = e b ∧ enterTrap x n a k cause pc (some v) = e (trapReg b n a k c 3 v)) ∧
  (∀ (o : AOp) (n : Node) (a : AcuIx) (k : TaskIx) (way : BusWay) (s : Block) (w : Word) (b : Block),
    acuOpen s n a k = true →
    takeable s n a k = none →
    fetchedAs (noteSelected s n a k) n a k = some (w, b) →
    acuDecode w = none →
    acuStep o n a k way s = preciseTrap b n a k cauIllegal none) ∧
  (∀ (o : AOp) (n : Node) (a : AcuIx) (k : TaskIx) (way : BusWay) (s : Block),
    acuOpen s n a k = true →
    takeable s n a k = none →
    fetchFar (noteSelected s n a k) n a (taskPc (noteSelected s n a k) n a k) = true →
    (task (noteSelected s n a k) (taskKey n a k)).served = false →
    acuStep o n a k way s = taskWait (noteSelected s n a k) n a k wMem) ∧
  (∀ (o : AOp) (n : Node) (a : AcuIx) (k : TaskIx) (way : BusWay) (s : Block) (c : Nat),
    acuOpen s n a k = true →
    takeable s n a k = some c →
    acuStep o n a k way s = (match acuGo (· == o) way (noteSelected s n a k) n a k with
      | some t => if pswF t n a k F.ACU_TASK_PSW_TW == 1 then t else s
      | none => s)) ∧
  (∀ (n : Node) (a : AcuIx) (way : BusWay) (s : Block) (e : SbEntry) (rest : List SbEntry),
    (acu s n a).sb = e :: rest →
    e.tied = false →
    Gives (.storeDrain n a way) s (drainEntry way (putAcu s n a { acu s n a with sb := rest }) n a e)) ∧
  (∀ (n : Node) (a : AcuIx) (way : BusWay) (s : Block) (e f : SbEntry) (rest : List SbEntry),
    (acu s n a).sb = e :: f :: rest →
    e.tied = true →
    f.tied = false →
    Gives (.storeDrain n a way) s (drainEntry .served (drainEntry way (putAcu s n a { acu s n a with sb := rest }) n a e) n a f)) ∧
  (∀ (n a : Nat) (way : BusWay) (s : Block) (e : SbEntry),
    let r := acuNet s n a (e.addr + sbFirst e.be) way [] fun x => ⟨(drainTo x n a e).1, [], (drainTo x n a e).2⟩
    drainEntry way s n a e = (if r.code = rspOk then r.st else storeErr r.st n a e.task (e.addr + sbFirst e.be))) ∧
  (∀ (n a addr : Nat) (r : Fin 48) (ones : List (BitVec 8)) (act : Block → MemAns) (s : Block),
    leavesAcu s n a addr = true →
    let out := fun (x : Block) => (⟨rspTimeout, ones, acuTimedOut n a addr x⟩ : MemAns)
    acuNet s n a addr .served ones act = act s ∧ acuNet s n a addr .late ones act = out (fsat (act s).st n F.NOC_LATE_COUNT 0) ∧
    acuNet s n a addr (.lost r false) ones act = out (raise s n SRC.NOC_FLIT_UE r 0) ∧
    acuNet s n a addr (.lost r true) ones act = out (raise (act s).st n SRC.NOC_FLIT_UE r 0)) ∧
  (∀ (n : Node) (a : AcuIx) (fails : Bool) (s : Block),
    inRun s n = true →
    fget s n F.ACU_RAM_TEST_STATE a = 2 →
    let c := fget s n F.ACU_RAM_TEST_CURSOR a
    Gives (.ramTestWindow n a fails false) s (fput (if fails then raise s n SRC.ACU_RAM_TEST_FAIL (a.val * 64) c else s) n F.ACU_RAM_TEST_CURSOR a ((c + 1) % 2048)) ∧
    Gives (.ramTestWindow n a fails true) s s) ∧
  (∀ (n : Node) (a : AcuIx) (k : TaskIx) (s : Block),
    takenNow s n 0x6 = true →
    taskState s n a k = 0 →
    Gives (.taskEnWrite n a k true) s (startTask s n a k)) ∧
  (∀ (n : Node) (a : AcuIx) (k : TaskIx) (s : Block),
    takenNow s n 0x6 = true →
    taskState s n a k = 2 →
    Gives (.taskEnWrite n a k false) s (stopTask s n a k)) ∧
  (∀ (n : Node) (a : AcuIx) (k : TaskIx) (s : Block),
    taskState s n a k = 1 →
    taskDrained s n a k = true →
    Gives (.taskDrainDone n a k) s (setRun (fput s n F.ACU_TASK_CTRL_STATE (at2 a k) 0) n a k runOff 0)) ∧
  (∀ (n : Node) (a : AcuIx) (h : Half) (w : Word) (s : Block),
    takenNow s n 0x6 = true →
    Gives (.acuIpiWrite n a h) s ((List.range 16).foldl (fun s i => if h.getLsbD i then irqAcu s n a (cIpi0 + i) else s) s) ∧
    Gives (.acuBellWrite n a w) s (irqAcu (rput s n .ACU_BELL a w) n a cCmd))

/-- For every 32-bit word that decodes to an instruction, the word built from that instruction and the fields of the word is the word itself: OP, FUNC or FOP, registers, immediates, modes and displacements account for all of its bits. -/
def Obligations.AcuWordsRoundTrip : Prop :=
  ∀ (w : Word) (o : AOp), acuDecode w = some o → acuWordOf o (acuFields w) = w

/-- For every 64 data bits, the word stored holds data bit k in column k; for j = 0 to 6 the check bit in column 64 + j is the exclusive OR of the data bits whose position has bit j set; column 71 holds the exclusive OR of all data bits and c0 to c6. The positions of the data bits are, in ascending order of k, those from 3 to 71 that are not powers of two. -/
def Obligations.PlaneCheckBits : Prop :=
  (dataPositions 64).length = 64 ∧ (dataPositions 64).Pairwise (· < ·) ∧
  (∀ p, p ∈ dataPositions 64 ↔ 3 ≤ p ∧ p ≤ 71 ∧ ∀ i, p ≠ 2 ^ i) ∧
  ∀ d : DWord,
    let w := freshWord code64 d.toNat
    w < 2 ^ 72 ∧
    (∀ k < 64, w.testBit k = d.getLsbD k) ∧
    (∀ j < 7, w.testBit (64 + j) =
      xorOver ((List.range 64).filter fun k => ((dataPositions 64).getD k 0).testBit j) fun k => d.getLsbD k) ∧
    w.testBit 71 = (xorOver (List.range 64) (fun k => d.getLsbD k) != xorOver (List.range 7) fun j => w.testBit (64 + j))

/-- For every 64 data bits: the stored word decodes to the data, clean; with any one of its 72 columns flipped it decodes to the data and the stored check bits, one correctable error in that column; with any two different columns flipped it is uncorrectable. -/
def Obligations.PlaneCodeCorrectsOneAndFindsTwo : Prop :=
  ∀ d : DWord,
    let w := freshWord code64 d.toNat
    decodeStored code64 w = ⟨d.toNat, w / 2 ^ 64, .clean⟩ ∧
    (∀ i < 72, decodeStored code64 (Nat.xor w (2 ^ i)) = ⟨d.toNat, w / 2 ^ 64, .fixed i⟩) ∧
    (∀ i < 72, ∀ j < i, (decodeStored code64 (Nat.xor w (Nat.xor (2 ^ i) (2 ^ j)))).found = .bad)

/-- Every 128-bit macro-op word is the word built from its fields, and every fields in the ranges that R91 gives them are the fields of the word built from them: no bit of the word is dropped and none is read twice. -/
def Obligations.MacroOpWordsRoundTrip : Prop :=
  (∀ w : BitVec 128, mopWord (mopFields w) = w) ∧
  (∀ f : MopF, f.opc < 2 ^ 8 → f.msel < 2 ^ 3 → f.rnd < 2 ^ 3 → f.fupd < 2 ^ 2 → f.fmt < 2 ^ 16 → f.base0 < 2 ^ 11 →
    f.wid0 < 2 ^ 6 → f.base1 < 2 ^ 11 → f.wid1 < 2 ^ 6 → f.base2 < 2 ^ 11 → f.wid2 < 2 ^ 6 → f.maddr < 2 ^ 11 →
    f.rsvd < 2 ^ 2 → f.prm < 2 ^ 16 → f.cnt < 2 ^ 16 → mopFields (mopWord f) = f)

/-- For 64 values, the w rows built from them hold in column c, lowest row first, value c modulo 2^w: elements stand bit by bit down the columns. -/
def Obligations.RowsHoldTheirElements : Prop :=
  ∀ (vals : List Nat) (w c : Nat), vals.length = 64 → c < 64 →
    colVal ((List.range w).map fun i => packWord vals i) c = vals.getD c 0 % 2 ^ w

/-- For every width of at least one bit and every exact value v: the bits written are below 2^w and, as a stored integer, equal v modulo 2^w; V is set exactly when v lies outside the range of the operand; within the range the stored integer is v itself. -/
def Obligations.IntegerResultsWrapAndFlag : Prop :=
  ∀ (signed : Bool) (w : Nat) (v : Int), 0 < w →
    let r := intResult signed w v
    let rng := intRange signed w
    r.bits < 2 ^ w ∧
    ((2 ^ w : Nat) : Int) ∣ (stored signed w r.bits - v) ∧
    (r.flags.v = false ↔ rng.1 ≤ v ∧ v ≤ rng.2) ∧
    (rng.1 ≤ v → v ≤ rng.2 → stored signed w r.bits = v)

/-- A NaN operand of A.FADD, A.FMUL or A.FDIV gives the canonical quiet NaN, with IV exactly when a NaN operand is signalling. Infinities of opposite sign added, zero times infinity, infinity over infinity and zero over zero give it with IV. A nonzero number over zero gives an infinity of the sign of both, with DZ. The root of a negative nonzero number gives the NaN with IV. Where the spec leaves the point open, these are the choices of the model: log 62 (zero sums toward minus infinity). -/
def Obligations.FloatSpecialValues : Prop :=
  ∀ (t : Fmt) (mode : RMode) (ftz : Bool) (a b : Nat),
    let va := fval t ftz a
    let vb := fval t ftz b
    let iv := va.isSNan || vb.isSNan
    ((va.isNan || vb.isNan) = true →
      fAdd t mode ftz a b = ⟨t.qnan, { iv := iv }⟩ ∧ fMul t mode ftz a b = ⟨t.qnan, { iv := iv }⟩ ∧
        fDiv t mode ftz a b = ⟨t.qnan, { iv := iv }⟩) ∧
    (∀ sa, va = .inf sa → vb = .inf (!sa) → fAdd t mode ftz a b = ⟨t.qnan, { iv := true }⟩) ∧
    (∀ sa sb x, va = .inf sa → vb = .fin sb 0 x → fMul t mode ftz a b = ⟨t.qnan, { iv := true }⟩ ∧
      fMul t mode ftz b a = ⟨t.qnan, { iv := true }⟩) ∧
    (∀ sa sb, va = .inf sa → vb = .inf sb → fDiv t mode ftz a b = ⟨t.qnan, { iv := true }⟩) ∧
    (∀ sa sb x y, va = .fin sa 0 x → vb = .fin sb 0 y → fDiv t mode ftz a b = ⟨t.qnan, { iv := true }⟩) ∧
    (∀ sa sb m x y, va = .fin sa m x → m ≠ 0 → vb = .fin sb 0 y → fDiv t mode ftz a b = ⟨t.inf (sa != sb), { dz := true }⟩) ∧
    (∀ m x, va = .fin true m x → m ≠ 0 → fSqrt t mode ftz a = ⟨t.qnan, { iv := true }⟩)

/-- With a command at the front of the queue, a step is that command on the state with the rest of the queue. Every command, in every state, answers a next state, and leaves the queue as it finds it. With an empty queue a step lets 1 ns of device time pass and changes nothing else: that is the model's choice (log 1). -/
def Obligations.StepRunsTheFrontCommand : Prop :=
  (∀ (c : Instr) (b : Block) (q : List Instr),
    step { toBlock := b, pending := c :: q } = exec c { toBlock := b, pending := q }) ∧
  (∀ (c : Instr) (b : Block) (q : List Instr), ∃ b' : Block,
    exec c { toBlock := b, pending := q } = .next { toBlock := b', pending := q }) ∧
  (∀ b : Block, step { toBlock := b, pending := [] } = .next { toBlock := { b with now := b.now + 65536 }, pending := [] })

/-- In every state whose waiting commands all are well formed, a step that answers a next state leaves waiting exactly the commands after the first, all well formed; and the reset state has no command waiting. The queue is the model's own (log 1). -/
def Obligations.QueueStaysWellFormed : Prop :=
  (∀ s s' : State, (∀ c ∈ s.pending, c.wf = true) → step s = .next s' →
    s'.pending = s.pending.tail ∧ ∀ c ∈ s'.pending, c.wf = true) ∧
  State.reset.pending = []

/-- At reset every register whose heading or fields give a reset value other than zero holds it, on every node and for every select; so do CMD_IRQ_MAP and NOC_DOMAIN, entry by entry, FLT_REACT, level by level, and FLT_SRC_CFG, FLT_SRC_LEAK and FLT_SRC_ESC, source by source: a source that R391 does not list holds 0. Every plane row is zero with valid check bits; every PE has M = 1 and A, C, F and N 0. The registers, the selects and the memories list nothing, in canonical form, and device time is 0. That memory nothing has written reads as zero at reset is the model's choice where the spec gives no clear (log 2), and so is that WHL_SLOT_CFG holds its RMODE field's 0b001 and not its heading's 0 (log 54). -/
def Obligations.ResetHoldsTheSpecsValues : Prop :=
  (∀ p ∈ ([(.GLB_ID, 0x57534E10), (.GLB_PARAM0, 0x10402020), (.GLB_PARAM1, 0x840780B), (.GLB_PARAM2, 0x4601084),
    (.GLB_PARAM3, 0x408E818), (.MILL_EDGE, 0x3E80000), (.NEWT_SCRUB_CTRL, 0x1405), (.MILL_FPCTRL, 0x1C01),
    (.MILL_PACE, 0x401406), (.ACU_RAM_TEST, 0xA05), (.ACU_TASK_FSR, 0x10000), (.STG_BANK_OWNER, 0x1F1F),
    (.STG_TEST, 0x205), (.REC_SCRUB, 0x5), (.WHL_ENG, 0x5), (.WEIR_PERIOD, 0x186A0),
    (.WEIR_VOTE, 0x64), (.SPAN_LINK_CTRL, 0x80000000), (.CHR_CTRL, 0x101), (.NOC_CTRL, 0x1),
    (.NOC_TIMEOUT, 0xC80032), (.FLT_CTRL, 0x3), (.DLM_OUT_MARGIN, 0x2710), (.GOV_CLK, 0x5DC04B0),
    (.GOV_SAG, 0x140028), (.TIM_CTRL, 0x640000), (.WHL_SLOT_CFG, 0x100000), (.CH_GAIN, 0x1000000),
    (.CH_STRM_LATE, 0x3E8), (.DRV_RAMP, 0x640000), (.LOG_HOST_SIZE, 0x10), (.LOG_IRQ, 0x3E80040),
    (.CMD_Q_CTRL, 0x101), (.GKO_REGION_CTRL, 0x80000000), (.GOV_CAP, 0x2BC), (.GOV_TEMP, 0x5F),
    (.GOV_WAKE_CTRL, 0x1F00), (.TIM_HOLD, 0x3E8)] : List (Reg × Word)), ∀ n inst : Nat, inst < 2 ^ 25 → rget Block.reset n p.1 inst = p.2) ∧
  (∀ n i : Nat, i < 32 → rget Block.reset n .CMD_IRQ_MAP (ix i) = BitVec.ofNat 32 i) ∧
  (∀ n d : Nat, d < 8 → rget Block.reset n .NOC_DOMAIN (ix d) = if d = 5 ∨ d = 6 then 0 else 0x80000000) ∧
  (∀ n : Nat, ∀ p ∈ ([(0, 0x00), (1, 0x01), (2, 0x07), (3, 0x1F), (4, 0x3F)] : List (Nat × Word)), rget Block.reset n .FLT_REACT (ix p.1) = p.2) ∧
  (∀ n src : Nat, src < 256 →
    let level : Option Nat :=
      if src ∈ [0x00, 0x02, 0x1A, 0x1C, 0x29, 0x2C, 0x50, 0x52, 0x66] then some 0
      else if src ∈ [0x3D, 0x65, 0x6A, 0x72, 0x75, 0x80, 0x81, 0x86, 0x90, 0x91] then some 1
      else if src ∈ [0x05, 0x06, 0x07, 0x08, 0x10, 0x18, 0x19, 0x1E, 0x28, 0x2B, 0x2E, 0x38, 0x39, 0x3A, 0x3B, 0x3C, 0x3E, 0x3F, 0x51, 0x54, 0x55, 0x60, 0x61, 0x63, 0x64, 0x68, 0x69, 0x70, 0x71, 0x74, 0x76, 0x82, 0x85, 0x87] then some 2
      else if src ∈ [0x01, 0x03, 0x04, 0x11, 0x1B, 0x1D, 0x2A, 0x2D, 0x53, 0x62, 0x67, 0x73] then some 3
      else if src ∈ [0x83, 0x84] then some 4
      else if 0xC0 ≤ src then some 2 else none
    rget Block.reset n .FLT_SRC_CFG src = (match level with
      | none => 0
      | some l => BitVec.ofNat 32 (src * 2 ^ 24 + (if l = 0 then 16 else if l = 1 then 8 else 0) * 2 ^ 16 + 2 * 2 ^ 12 + l * 2 ^ 8 + l * 2 ^ 4 + 1)) ∧
    rget Block.reset n .FLT_SRC_LEAK src = (if level = some 0 then 3600000 else if level = some 1 then 600000 else 0) ∧
    rget Block.reset n .FLT_SRC_ESC src = if level = none then 0 else 0xEA602710) ∧
  (∀ tk row addr : Nat, rowGet Block.reset tk row addr = 0 ∧ (decodeStored code64 (rowGet Block.reset tk row addr)).found = .clean) ∧
  (∀ tk row reg : Nat, reg < 5 → peGet Block.reset tk row reg = if reg = peM then BitVec.allOnes 64 else 0) ∧
  Memory.wf Block.reset = true ∧ mwf regDefault Block.reset.regs = true ∧ mwf (fun _ => 0) Block.reset.sels = true ∧
  Block.reset.stg = [] ∧ Block.reset.record = [] ∧ Block.reset.lram = [] ∧ Block.reset.now = 0

/-- From every state in which the registers, the selects and the memories are in canonical form (keys strictly rising, no entry equal to what an unlisted one reads as), every step leaves them so, whatever command it takes. A read of a register after a write of it answers what was written, and every other register reads as before; the same for words of the memories. In a module in Run an aligned 8-byte write of a word of the record store that exists, in a stack not isolated, reached and in an open domain, is answered OK, changes no other word of the store, and a read of the same bytes then answers them and changes no word. -/
def Obligations.MemoriesKeepFormAndReadBack : Prop :=
  (∀ s s' : State, Memory.wf s.toBlock = true → mwf regDefault s.regs = true → mwf (fun _ => 0) s.sels = true → step s = .next s' →
    Memory.wf s'.toBlock = true ∧ mwf regDefault s'.regs = true ∧ mwf (fun _ => 0) s'.sels = true) ∧
  (∀ (s : Block) (n n' : Nat) (r r' : Reg) (i i' : Nat) (w : Word), mwf regDefault s.regs = true →
    rget (rput s n r i w) n' r' i' = if rkey n' r' i' = rkey n r i then w else rget s n' r' i') ∧
  (∀ (n : Node) (m : Fin 32) (addr : Nat) (bs : List (BitVec 8)) (s : Block), inRun s n = true → Memory.wf s = true → bs.length = 8 →
    addr % 8 = 0 → addr + 8 ≤ recBytes → netEnd s n m (0x28 + recStackOf addr) (recLocal addr) = none →
    isolatedEp s n (0x28 + recStackOf addr) = false → domAccess s n 4 = some s →
    Does (.recordStoreAccess n m ⟨⟨true, addr, bs.map some⟩, .served⟩) s fun t =>
      t.rsps = s.rsps ++ [⟨m, rspOk, []⟩] ∧
      (∀ (n' w : Nat), (n' ≠ n.val ∨ w ≠ addr / 8) → w < 2 ^ 34 → memGet t .record n' w = memGet s .record n' w) ∧
      Does (.recordStoreAccess n m ⟨⟨false, addr, List.replicate 8 none⟩, .served⟩) t fun u =>
        u = { t with rsps := t.rsps ++ [⟨m, rspOk, bs⟩] })

/-- For every module that serves the access, no link on the way lost, and every offset of BAR0 that holds nothing (no register, no alias, no select, no MSI-X word, no window): a read answers zero and changes nothing, and a write changes nothing. Every offset of the reserved range holds nothing. -/
def Obligations.UnusedOffsetsReadZero : Prop :=
  (∀ (s : Block) (c : Ctx) (off : Nat) (w : Word), pathCode s c (accessNode s c off) off = rspOk → ownSelect off = none →
    msixAt off = none → windowOf off = none → aliasAt off = none → regAt off = none →
    barRead s c off = (rspOk, 0, s) ∧ barWord s c off w = (rspOk, s)) ∧
  (∀ off : Nat, 0x01A00000 ≤ off → off < 2 ^ 25 →
    ownSelect off = none ∧ msixAt off = none ∧ windowOf off = none ∧ aliasAt off = none ∧ regAt off = none)

/-- A BAR0 read of anything but a region's window, TIM_NOW_LO, SEC_CHALLENGE_0 and a locked debug register leaves every field of the block as it is, but for the model's own count of free values; one that does not get to its target leaves what NOC_TIMEOUT or NOC_NOROUTE records. A locked debug register reads 0 and sets DENIED. A read of TIM_NOW_LO answers bits 31:0 of device time and changes only the latch; TIM_NOW_HI and TIM_NOW_FRAC then answer the same instant to the same context, however device time has gone on. -/
def Obligations.ReadsChangeOnlyTheLatchAndChallenge : Prop :=
  (∀ (s : Block) (c : Ctx) (off : Nat), windowOf off = none → (∀ i, regAt off ≠ some (.TIM_NOW_LO, i)) →
    regAt off ≠ some (.SEC_CHALLENGE, 0) →
    (∀ i, regAt off ≠ some (.DBG_ACU_REG, i) ∧ regAt off ≠ some (.DBG_ACU_DATA, i)) ∨ dbgLocked s (accessNode s c off) = false →
    (barRead s c off).2.2 = (match regEnd s (ctxHome (ctxNum c)) (ctxEp c) (accessNode s c off) off with
      | some r => r.2
      | none => { s with freeCtr := (barRead s c off).2.2.freeCtr })) ∧
  (∀ (s : Block) (c : Ctx) (n i : Nat), dbgLocked s n = true →
    readReg s c n .DBG_ACU_REG i = (0, fset s n F.SEC_STATUS_DENIED 1) ∧ readReg s c n .DBG_ACU_DATA i = (0, fset s n F.SEC_STATUS_DENIED 1)) ∧
  (∀ (s : Block) (c : Ctx) (n i : Nat), mrising none s.timLatch = true → devTime s n < 2 ^ 80 →
    let r := readReg s c n .TIM_NOW_LO i
    r.1.toNat = devTime s n / 2 ^ 16 % 2 ^ 32 ∧ r.2 = { s with timLatch := r.2.timLatch } ∧
    ∀ later : Nat, let t := { r.2 with now := later }
      (readReg t c n .TIM_NOW_HI 0).1.toNat = devTime s n / 2 ^ 48 ∧ (readReg t c n .TIM_NOW_FRAC 0).1.toNat = devTime s n % 2 ^ 16)
end

