-- ==== Sys2Proof/Laws/Acu.lean ====
section
/-! SUPPORT. Sys2Proof/Laws/Acu.lean: what executing the instruction at a task's PC comes to. -/

namespace Sys2Proof.Machine

/-- A word that is there is looked at. -/
theorem acuGo_fetched {s b : Block} {n a k : Nat} {w : Word} (want : AOp → Bool) (way : BusWay)
    (h : fetchedAs s n a k = some (w, b)) : acuGo want way s n a k = acuWord want w way b n a k := by
  unfold fetchedAs at h
  unfold acuGo
  dsimp only at h ⊢
  split at h
  · exact absurd h (by simp)
  · rename_i hf
    rw [if_neg hf]
    split at h
    · rename_i v t ht
      injection h with h
      injection h with h1 h2
      subst h1 h2
      rw [ht]
    · exact absurd h (by simp)

/-- The instruction at the PC has its effect. -/
theorem acuStep_at {s b : Block} {n : Node} {a : AcuIx} {k : TaskIx} {o : AOp} {w : Word} (way : BusWay)
    (h : AtInstr s n a k o w b) : acuStep o n a k way s = acuRun o w way b n a k := by
  obtain ⟨h1, h2, h3, h4, h5, h6⟩ := h
  unfold acuStep
  rw [if_pos h1, acuGo_fetched _ way h3]
  unfold acuWord
  rw [h4]
  dsimp only
  have hn : ¬ (needsTw o && decide (pswF b n a k F.ACU_TASK_PSW_TW = 0)) = true := by
    cases hh : needsTw o
    · simp
    · simpa using h5 hh
  rw [if_neg hn, if_pos (by rw [h6]; simp)]
  dsimp only
  rw [if_pos (by rw [h2]; rfl)]

/-- A word that spells no instruction, or one that the task's state forbids, is ILLEGAL (09 R207). -/
theorem acuStep_illegal {s b : Block} {n : Node} {a : AcuIx} {k : TaskIx} {w : Word} (o : AOp) (way : BusWay)
    (h1 : acuOpen s n a k = true) (h2 : takeable s n a k = none) (h3 : fetchedAs (noteSelected s n a k) n a k = some (w, b))
    (h4 : acuDecode w = none ∨ ∃ p, acuDecode w = some p ∧ needsTw p = true ∧ pswF b n a k F.ACU_TASK_PSW_TW = 0) :
    acuStep o n a k way s = preciseTrap b n a k cauIllegal none := by
  unfold acuStep
  rw [if_pos h1, acuGo_fetched _ way h3]
  unfold acuWord
  rcases h4 with h4 | ⟨p, h4, h5, h6⟩
  · rw [h4]
    dsimp only
    rw [if_pos (by rw [h2]; rfl)]
  · rw [h4]
    dsimp only
    rw [if_pos (by rw [h5, h6]; rfl)]
    dsimp only
    rw [if_pos (by rw [h2]; rfl)]

end Sys2Proof.Machine
end

