-- ==== Sys2Proof/Laws/Array.lean ====
section
/-! SUPPORT. Sys2Proof/Laws/Array.lean: what it means that a macro-op is ready to run. -/

namespace Sys2Proof.Machine

/-- The macro-op that is ready has the opcode and FL asked for, and some tile has started it. -/
theorem readyOp_is {s : Block} {n g opc fl : Nat} {m : Mop} (h : readyOp s n g opc fl = some m) :
    (mopFields m.word).opc = opc ∧ mopFl (mopFields m.word) = fl ∧ m.started = true ∧
      allReady s (gangTiles s n g) m.num = true := by
  unfold readyOp at h
  split at h
  · exact absurd h (by simp)
  · dsimp only at h
    split at h
    · rename_i hc
      injection h with h
      subst h
      simp only [Bool.and_eq_true, decide_eq_true_eq] at hc
      exact ⟨hc.1.1.1, hc.1.1.2, hc.1.2, hc.2⟩
    · exact absurd h (by simp)

theorem readyOp_opc {s : Block} {n g opc fl : Nat} {m : Mop} (h : readyOp s n g opc fl = some m) :
    (mopFields m.word).opc = opc := (readyOp_is h).1

end Sys2Proof.Machine
end

