-- ==== Sys2Proof/Laws/Host.lean ====
section
/-! SUPPORT. Sys2Proof/Laws/Host.lean: what the arrival of a request of a context does (01 R19, 14 R321). -/

namespace Sys2Proof.Machine

/-- Waking the primary leaves the queue of requests and the state of its power ladder as they are. -/
theorem tlpWake_tlpQ (s : Block) : (tlpWake s).tlpQ = s.tlpQ := by
  unfold tlpWake startExit
  dsimp only
  repeat' split
  all_goals rfl

/-- A request of the host that is served as it arrives, or stalls and waits. -/
theorem hostTlp_served (s : Block) (k : Fin 16) (t : HostTlp) (o : Option Block) (h : servedNow s (.queue k) = true)
    (ht : tlpApply t (arrived s (.queue k)) = o) : hostTlp t s = o.getD (tlpHold t [] (arrived s (.queue k))) := by
  simp only [servedNow, Bool.and_eq_true, Bool.not_eq_true', decide_eq_true_eq] at h
  obtain ⟨⟨⟨h1, h2⟩, h3⟩, h4⟩ := h
  simp only [arrived] at ht ⊢
  unfold hostTlp
  have a1 : (s.d3hot || (pow s 0).off || decide (pState s 0 = 4)) = false := by
    rw [h1, h2, decide_eq_false (by omega)]; rfl
  have a2 : tlpAsleep s = false := by
    unfold tlpAsleep
    have e2 : (pState s 0 == 2) = false := by rw [beq_eq_false_iff_ne]; omega
    have e3 : (pState s 0 == 3) = false := by rw [beq_eq_false_iff_ne]; omega
    rw [e2, e3]; rfl
  dsimp only
  rw [if_neg (by rw [a1]; decide), if_neg (by rw [a2]; decide)]
  have a3 : (if pState s 0 = 1 then tlpWake s else s).tlpQ.isEmpty = true := by
    split
    · rw [tlpWake_tlpQ]; exact h4
    · exact h4
  rw [if_pos a3, ht]

/-- A request of the host waits behind others. -/
theorem hostTlp_waits (s : Block) (k : Fin 16) (t : HostTlp) (h1 : s.d3hot = false) (h2 : (pow s 0).off = false)
    (h3 : pState s 0 < 2) (h4 : s.tlpQ ≠ []) :
    hostTlp t s = { arrived s (.queue k) with tlpQ := (arrived s (.queue k)).tlpQ ++ [t] } := by
  simp only [arrived]
  unfold hostTlp
  have a1 : (s.d3hot || (pow s 0).off || decide (pState s 0 = 4)) = false := by
    rw [h1, h2, decide_eq_false (by omega)]; rfl
  have a2 : tlpAsleep s = false := by
    unfold tlpAsleep
    have e2 : (pState s 0 == 2) = false := by rw [beq_eq_false_iff_ne]; omega
    have e3 : (pState s 0 == 3) = false := by rw [beq_eq_false_iff_ne]; omega
    rw [e2, e3]; rfl
  dsimp only
  rw [if_neg (by rw [a1]; decide), if_neg (by rw [a2]; decide)]
  have a3 : (if pState s 0 = 1 then tlpWake s else s).tlpQ.isEmpty = false := by
    split
    · rw [tlpWake_tlpQ]; cases hq : s.tlpQ <;> simp_all
    · cases hq : s.tlpQ <;> simp_all
  rw [if_neg (by rw [a3]; decide)]

/-- A request that is served as it arrives, and does not stall, does what it does at the primary. -/
theorem ctxReq_served (s : Block) (c : Ctx) (t : HostTlp) (b : Block) (h : servedNow s c = true)
    (ht : tlpApply t (arrived s c) = some b) : ctxReq c t s = b := by
  cases c with
  | queue k => exact hostTlp_served s k t _ h ht
  | acu n a => exact (congrArg (fun o => o.getD s) ht).trans rfl
  | region n r => exact (congrArg (fun o => o.getD s) ht).trans rfl

/-- A request of the host that takes effect at once, and does not stall. -/
theorem hostTlp_ready (s : Block) (t : HostTlp) (b : Block) (h : hostReady s = true) (ht : tlpApply t s = some b) : hostTlp t s = b := by
  have h0 : pState s 0 = 0 := by
    simp only [hostReady, Bool.and_eq_true, beq_iff_eq] at h
    exact h.1.1.1
  have a : arrived s (.queue 0) = s := by
    show (if pState s 0 = 1 then tlpWake s else s) = s
    rw [if_neg (by rw [h0]; decide)]
  have hs : servedNow s (.queue 0) = true := by
    simp only [hostReady, Bool.and_eq_true, Bool.not_eq_true'] at h
    simp only [servedNow, Bool.and_eq_true, Bool.not_eq_true', decide_eq_true_eq]
    exact ⟨⟨⟨h.1.2, h.1.1.2⟩, by omega⟩, h.2⟩
  rw [← a] at ht
  exact hostTlp_served s 0 t (some b) hs ht

/-- A path that reaches its target ends nothing. -/
theorem regEnd_there (s : Block) (a b n off : Nat) (hp : regPath s a b n off = .there) : regEnd s a b n off = none := by
  unfold regEnd
  rw [hp]

/-- An open path reaches a block that serves. -/
theorem pathOpen_at {s : Block} {c : Ctx} {n b off : Nat} (ho : off = b * 2 ^ 20) (h : pathOpen s c n b = true) :
    regPath s (ctxHome (ctxNum c)) (ctxEp c) n off = .there ∧ accessCode s n off = rspOk := by
  unfold pathOpen at h
  rw [← ho] at h
  simp only [Bool.and_eq_true, beq_iff_eq] at h
  exact h

/-- A row that comes through is the register's own effect. -/
theorem rowThrough_open (w : HostRow) (c : Ctx) (n off : Nat) (s : Block) (hp : regPath s (ctxHome (ctxNum c)) (ctxEp c) n off = .there)
    (ha : accessCode s n off = rspOk) : rowThrough w c n off s = rowAct w s := by
  unfold rowThrough
  rw [regEnd_there _ _ _ _ _ hp]
  generalize rowAct w s = y
  exact if_pos ha

/-- A row of a context that takes effect at once is the register's own effect. -/
theorem ctxReq_row (s : Block) (c : Ctx) (n b : Nat) (w : HostRow) (h : takenBy s c n b = true) (hw : rowAt w = (c, n, b)) :
    ctxReq c (.row w) s = rowAct w s := by
  unfold takenBy at h
  rw [Bool.and_eq_true] at h
  obtain ⟨hc, hp⟩ := h
  have e2 : tlpApply (.row w) s = some (rowNet w s) := by rw [tlpApply]
  have e3 : rowNet w s = rowAct w s := by
    obtain ⟨off, ho⟩ : ∃ off, off = b * 2 ^ 20 := ⟨_, rfl⟩
    obtain ⟨hp, ha⟩ := pathOpen_at ho hp
    rw [rowNet, hw]
    dsimp only
    rw [← ho]
    exact rowThrough_open w c n off s hp ha
  rw [e3] at e2
  cases c with
  | queue k => exact hostTlp_ready s _ _ hc e2
  | acu m a => simp only [ctxReq, e2, Option.getD_some]
  | region m r => simp only [ctxReq, e2, Option.getD_some]

/-- One of the host. -/
theorem row_now {s : Block} {n b : Nat} (h : takenNow s n b = true) (w : HostRow) (hw : rowAt w = (.queue 0, n, b) := by rfl) :
    hostTlp (.row w) s = rowAct w s := ctxReq_row s (.queue 0) n b w h hw

/-- The same, for a row known by where it lies. -/
theorem row_at {s : Block} {n b : Nat} (h : takenNow s n b = true) (w : HostRow) (hw : rowAt w = (.queue 0, n, b)) :
    hostTlp (.row w) s = rowAct w s := ctxReq_row s (.queue 0) n b w h hw

/-- A read that is denied answers all ones with its code. -/
theorem barReadAns_denied (s : Block) (c : Ctx) (off : Nat) (h : pathCode s c (accessNode s c off) off ≠ rspOk) :
    barReadAns s c off = answer (ctxNum c) ⟨pathCode s c (accessNode s c off) off, leBytes 4 (2 ^ 32 - 1),
      deniedBy s c (accessNode s c off) off⟩ := by
  unfold barReadAns barRead
  dsimp only
  rw [if_neg h]
  rfl

/-- A read that is served answers the word. -/
theorem barReadAns_served (s : Block) (c : Ctx) (off : Nat) (h : pathCode s c (accessNode s c off) off = rspOk) :
    barReadAns s c off = answer (ctxNum c) ⟨(readAt s c (accessNode s c off) off).1,
      leBytes 4 (readAt s c (accessNode s c off) off).2.1.toNat, (readAt s c (accessNode s c off) off).2.2⟩ := by
  unfold barReadAns barRead
  dsimp only
  rw [if_pos h]

/-- A read of an offset where a register, and nothing else, lies. -/
theorem readAt_register (s : Block) (c : Ctx) (n off : Nat) (r : Reg) (i : Nat) (h1 : ownSelect off = none)
    (h2 : msixAt off = none) (h3 : windowOf off = none) (h4 : aliasAt off = none) (h5 : regAt off = some (r, i)) :
    readAt s c n off = (rspOk, (readReg s c n r i).1, (readReg s c n r i).2) := by
  unfold readAt
  rw [h1, h2, h3, h4, h5]

/-- TIM_NOW_LO and SEC_CHALLENGE_0 lie at these offsets (18 R411, 19 R430). -/
theorem readAt_timNow (s : Block) (c : Ctx) (n : Nat) :
    readAt s c n 0x01500008 = (rspOk, (readReg s c n .TIM_NOW_LO 0).1, (readReg s c n .TIM_NOW_LO 0).2) :=
  readAt_register s c n _ _ _ (by decide) (by decide +kernel) (by decide) (by decide +kernel) (by decide +kernel)
theorem readAt_challenge (s : Block) (c : Ctx) (n : Nat) :
    readAt s c n 0x01800010 = (rspOk, (readReg s c n .SEC_CHALLENGE 0).1, (readReg s c n .SEC_CHALLENGE 0).2) :=
  readAt_register s c n _ _ _ (by decide) (by decide +kernel) (by decide) (by decide +kernel) (by decide +kernel)

/-- A packet that comes through is delivered to its endpoint (16 R365-R367). -/
theorem packetDeliver_comes (s : Block) (c : Ctx) (f : BitVec 128) (req : MemReq) (ans : Option (List (BitVec 8)))
    (h : comesThrough s f = true) : packetDeliver s c f req ans =
      (match epDomain (flDst f) with
      | some d => memDeliver s f d req
      | none =>
        if flDst f < 16 then respond f (epRam s (flDnode f) (flDst f) req)
        else if 0x30 ≤ flDst f && flDst f ≤ 0x49 then
          respond f (epReg s c (if flDst f = 0x31 then 0 else flDnode f) ((flDst f - 0x30) * 2 ^ 20 + req.addr % 2 ^ 20) req)
        else if 0x50 ≤ flDst f && flDst f ≤ 0x57 then
          if (req.bytes.length ≠ 4 && req.bytes.length ≠ 8) || req.addr % req.bytes.length ≠ 0
              || 2 ^ 16 < req.addr + req.bytes.length then respond f ⟨rspDecErr, onesData req, s⟩
          else
            match ans with
            | some d => respond f (windowReq s (flDnode f) (flDst f - 0x50) req d)
            | none => if rgServes s (flDnode f) (flDst f - 0x50) then s else respond f ⟨rspIsolated, onesData req, s⟩
        else respond f ⟨rspDecErr, onesData req, s⟩) := by
  simp only [comesThrough, Bool.and_eq_true, Bool.or_eq_true, Bool.not_eq_true', beq_iff_eq, decide_eq_true_eq] at h
  obtain ⟨⟨⟨h1, h2⟩, h3⟩, h4⟩ := h
  unfold packetDeliver targetDeliver
  dsimp only
  have a1 : ¬ ((!nodePresent s (flDnode f) && decide (flDnode f ≠ flSnode f)) = true) := by
    rcases h1 with h | h <;> simp [h]
  rw [if_neg a1, if_neg (by simp [h2]; omega), if_neg (by simp [h4])]
  all_goals (cases epDomain (flDst f) <;> cases ans <;> rfl)

end Sys2Proof.Machine
end

