-- ==== Sys2Proof/Laws/SMap.lean ====
section
/-! SUPPORT. Sys2Proof/Laws/SMap.lean: the laws of sparse maps: a read after a write, and the canonical form kept by every
operation. -/

namespace Sys2Proof.Machine

/-- Keys strictly rising, each above `b`. -/
theorem mrising_some_none {α : Type} (b : Nat) (m : SMap α) (h : mrising (some b) m = true) : mrising none m = true := by
  cases m with
  | nil => rfl
  | cons p m => simp only [mrising, Bool.and_eq_true] at h ⊢; exact h.2

/-- A lower bound may be lowered. -/
theorem mrising_lower {α : Type} {a b : Nat} (hab : a ≤ b) (m : SMap α) (h : mrising (some b) m = true) :
    mrising (some a) m = true := by
  cases m with
  | nil => rfl
  | cons p m =>
    simp only [mrising, Bool.and_eq_true, decide_eq_true_eq] at h ⊢
    exact ⟨by omega, h.2⟩

/-- A key at or below the bound of a rising map reads as unlisted. -/
theorem mget_below {α : Type} (d : Nat → α) (m : SMap α) (b k : Nat) (h : mrising (some b) m = true) (hk : k ≤ b) :
    mget d m k = d k := by
  cases m with
  | nil => rfl
  | cons p m =>
    simp only [mrising, Bool.and_eq_true, decide_eq_true_eq] at h
    have h1 : k ≠ p.1 := by omega
    have h2 : k < p.1 := by omega
    simp [mget, h1, h2]

theorem mget_mcons_self {α : Type} [DecidableEq α] (d : Nat → α) (k : Nat) (v : α) (m : SMap α)
    (h : mrising (some k) m = true) : mget d (mcons d k v m) k = v := by
  unfold mcons
  split
  · rename_i hv; rw [mget_below d m k k h (Nat.le_refl k), hv]
  · simp [mget]

theorem mget_mcons_other {α : Type} [DecidableEq α] (d : Nat → α) (k j : Nat) (v : α) (m : SMap α)
    (h : mrising (some k) m = true) (hj : j ≠ k) : mget d (mcons d k v m) j = mget d m j := by
  unfold mcons
  split
  · rfl
  · simp only [mget, hj, if_false]
    split
    · rw [mget_below d m k j h (by omega)]
    · rfl

/-- A read of the key just written gives the value written. -/
theorem mget_mput_self {α : Type} [DecidableEq α] (d : Nat → α) (m : SMap α) (k : Nat) (v : α)
    (h : mrising none m = true) : mget d (mput d m k v) k = v := by
  induction m with
  | nil => exact mget_mcons_self d k v [] rfl
  | cons p m ih =>
    obtain ⟨k', v'⟩ := p
    simp only [mrising] at h
    simp only [mput]
    split
    · rename_i hlt
      exact mget_mcons_self d k v _ (by simp [mrising, hlt, h])
    · split
      · rename_i heq
        exact mget_mcons_self d k v m (by rw [heq]; exact h)
      · rename_i h1 h2
        have : ¬ k < k' := h1
        simp only [mget, h2, if_false, this]
        exact ih (mrising_some_none k' m h)

/-- A write leaves every other key alone. -/
theorem mget_mput_other {α : Type} [DecidableEq α] (d : Nat → α) (m : SMap α) (k j : Nat) (v : α)
    (h : mrising none m = true) (hj : j ≠ k) : mget d (mput d m k v) j = mget d m j := by
  induction m with
  | nil => exact mget_mcons_other d k j v [] rfl hj
  | cons p m ih =>
    obtain ⟨k', v'⟩ := p
    simp only [mrising] at h
    simp only [mput]
    split
    · rename_i hlt
      exact mget_mcons_other d k j v _ (by simp [mrising, hlt, h]) hj
    · split
      · rename_i heq
        subst heq
        rw [mget_mcons_other d k j v m h hj]
        simp only [mget, hj, if_false]
        split
        · rw [mget_below d m k j h (by omega)]
        · rfl
      · simp only [mget]
        split
        · rfl
        · split
          · rfl
          · exact ih (mrising_some_none k' m h)

theorem mcons_rising {α : Type} [DecidableEq α] (d : Nat → α) (b k : Nat) (v : α) (m : SMap α) (hb : b < k)
    (h : mrising (some k) m = true) : mrising (some b) (mcons d k v m) = true := by
  unfold mcons
  split
  · exact mrising_lower (Nat.le_of_lt hb) m h
  · simp [mrising, hb, h]

theorem mput_rising_some {α : Type} [DecidableEq α] (d : Nat → α) (m : SMap α) (b k : Nat) (v : α) (hb : b < k)
    (h : mrising (some b) m = true) : mrising (some b) (mput d m k v) = true := by
  induction m generalizing b with
  | nil => exact mcons_rising d b k v [] hb rfl
  | cons p m ih =>
    obtain ⟨k', v'⟩ := p
    simp only [mrising, Bool.and_eq_true, decide_eq_true_eq] at h
    simp only [mput]
    split
    · rename_i hlt
      exact mcons_rising d b k v _ hb (by simp [mrising, hlt, h.2])
    · split
      · rename_i heq
        exact mcons_rising d b k v m hb (by rw [heq]; exact h.2)
      · rename_i h1 h2
        simp only [mrising, Bool.and_eq_true, decide_eq_true_eq]
        exact ⟨h.1, ih k' (by omega) h.2⟩

theorem mput_rising {α : Type} [DecidableEq α] (d : Nat → α) (m : SMap α) (k : Nat) (v : α)
    (h : mrising none m = true) : mrising none (mput d m k v) = true := by
  cases m with
  | nil => unfold mput mcons; split <;> rfl
  | cons p m =>
    obtain ⟨k', v'⟩ := p
    simp only [mrising] at h
    simp only [mput]
    split
    · rename_i hlt
      unfold mcons
      split
      · exact h
      · simp [mrising, hlt, h]
    · split
      · rename_i heq
        unfold mcons
        split
        · exact mrising_some_none k' m h
        · rw [heq]; exact h
      · rename_i h1 h2
        exact mput_rising_some d m k' k v (by omega) h

theorem mcons_lean {α : Type} [DecidableEq α] (d : Nat → α) (k : Nat) (v : α) (m : SMap α) (h : mlean d m = true) :
    mlean d (mcons d k v m) = true := by
  unfold mcons
  split
  · exact h
  · rename_i hv
    simp only [mlean, List.all_cons, Bool.and_eq_true] at h ⊢
    exact ⟨by simpa using hv, h⟩

theorem mput_lean {α : Type} [DecidableEq α] (d : Nat → α) (m : SMap α) (k : Nat) (v : α) (h : mlean d m = true) :
    mlean d (mput d m k v) = true := by
  induction m with
  | nil => exact mcons_lean d k v [] rfl
  | cons p m ih =>
    have h2 : mlean d m = true := by
      simp only [mlean, List.all_cons, Bool.and_eq_true] at h; exact h.2
    simp only [mput]
    split
    · exact mcons_lean d k v _ h
    · split
      · exact mcons_lean d k v m h2
      · simp only [mlean, List.all_cons, Bool.and_eq_true] at h ⊢
        exact ⟨h.1, ih h2⟩

/-- A write keeps the canonical form. -/
theorem mput_wf {α : Type} [DecidableEq α] (d : Nat → α) (m : SMap α) (k : Nat) (v : α) (h : mwf d m = true) :
    mwf d (mput d m k v) = true := by
  simp only [mwf, Bool.and_eq_true] at h ⊢
  exact ⟨mput_rising d m k v h.1, mput_lean d m k v h.2⟩

theorem filter_rising_some {α : Type} (p : Nat × α → Bool) (m : SMap α) (b : Nat) (h : mrising (some b) m = true) :
    mrising (some b) (m.filter p) = true := by
  induction m generalizing b with
  | nil => rfl
  | cons q m ih =>
    simp only [mrising, Bool.and_eq_true, decide_eq_true_eq] at h
    simp only [List.filter_cons]
    split
    · simp [mrising, h.1, ih q.1 h.2]
    · exact mrising_lower (Nat.le_of_lt h.1) _ (ih q.1 h.2)

theorem filter_rising {α : Type} (p : Nat × α → Bool) (m : SMap α) (h : mrising none m = true) :
    mrising none (m.filter p) = true := by
  induction m with
  | nil => rfl
  | cons q m ih =>
    simp only [mrising] at h
    simp only [List.filter_cons]
    split
    · exact filter_rising_some p m q.1 h
    · exact ih (mrising_some_none q.1 m h)

/-- Leaving entries out keeps the canonical form. -/
theorem filter_wf {α : Type} [DecidableEq α] (d : Nat → α) (p : Nat × α → Bool) (m : SMap α) (h : mwf d m = true) :
    mwf d (m.filter p) = true := by
  simp only [mwf, Bool.and_eq_true] at h ⊢
  refine ⟨filter_rising p m h.1, ?_⟩
  have h2 := h.2
  simp only [mlean, List.all_eq_true] at h2 ⊢
  intro x hx
  exact h2 x (List.mem_filter.mp hx).1

/-- Forgetting a range of keys keeps the canonical form. -/
theorem mdrop_wf {α : Type} [DecidableEq α] (d : Nat → α) (m : SMap α) (lo hi : Nat) (h : mwf d m = true) :
    mwf d (mdrop m lo hi) = true := filter_wf d _ m h

end Sys2Proof.Machine
end

