-- ==== Sys2Proof/Laws/State.lean ====
section
/-! SUPPORT. Sys2Proof/Laws/State.lean: one lemma for each field under each of the updates that every family uses, true by rfl,
and what a command's end and a step do to the queue. -/

namespace Sys2Proof.Machine

/-! ### rput -/

@[simp] theorem rput_freeCtr (s : Block) (n : Nat) (r : Reg) (i : Nat) (w : Word) : (rput s n r i w).freeCtr = s.freeCtr := rfl
@[simp] theorem rput_now (s : Block) (n : Nat) (r : Reg) (i : Nat) (w : Word) : (rput s n r i w).now = s.now := rfl
@[simp] theorem rput_shadow (s : Block) (n : Nat) (r : Reg) (i : Nat) (w : Word) : (rput s n r i w).shadow = s.shadow := rfl
@[simp] theorem rput_sealedRwl (s : Block) (n : Nat) (r : Reg) (i : Nat) (w : Word) : (rput s n r i w).sealedRwl = s.sealedRwl := rfl
@[simp] theorem rput_shadowLate (s : Block) (n : Nat) (r : Reg) (i : Nat) (w : Word) : (rput s n r i w).shadowLate = s.shadowLate := rfl
@[simp] theorem rput_sels (s : Block) (n : Nat) (r : Reg) (i : Nat) (w : Word) : (rput s n r i w).sels = s.sels := rfl
@[simp] theorem rput_planes (s : Block) (n : Nat) (r : Reg) (i : Nat) (w : Word) : (rput s n r i w).planes = s.planes := rfl
@[simp] theorem rput_pes (s : Block) (n : Nat) (r : Reg) (i : Nat) (w : Word) : (rput s n r i w).pes = s.pes := rfl
@[simp] theorem rput_stores (s : Block) (n : Nat) (r : Reg) (i : Nat) (w : Word) : (rput s n r i w).stores = s.stores := rfl
@[simp] theorem rput_bstores (s : Block) (n : Nat) (r : Reg) (i : Nat) (w : Word) : (rput s n r i w).bstores = s.bstores := rfl
@[simp] theorem rput_dispCopy (s : Block) (n : Nat) (r : Reg) (i : Nat) (w : Word) : (rput s n r i w).dispCopy = s.dispCopy := rfl
@[simp] theorem rput_tiles (s : Block) (n : Nat) (r : Reg) (i : Nat) (w : Word) : (rput s n r i w).tiles = s.tiles := rfl
@[simp] theorem rput_gangs (s : Block) (n : Nat) (r : Reg) (i : Nat) (w : Word) : (rput s n r i w).gangs = s.gangs := rfl
@[simp] theorem rput_insps (s : Block) (n : Nat) (r : Reg) (i : Nat) (w : Word) : (rput s n r i w).insps = s.insps := rfl
@[simp] theorem rput_events (s : Block) (n : Nat) (r : Reg) (i : Nat) (w : Word) : (rput s n r i w).events = s.events := rfl
@[simp] theorem rput_nodeTab (s : Block) (n : Nat) (r : Reg) (i : Nat) (w : Word) : (rput s n r i w).nodeTab = s.nodeTab := rfl
@[simp] theorem rput_undefGen (s : Block) (n : Nat) (r : Reg) (i : Nat) (w : Word) : (rput s n r i w).undefGen = s.undefGen := rfl
@[simp] theorem rput_latches (s : Block) (n : Nat) (r : Reg) (i : Nat) (w : Word) : (rput s n r i w).latches = s.latches := rfl
@[simp] theorem rput_ports (s : Block) (n : Nat) (r : Reg) (i : Nat) (w : Word) : (rput s n r i w).ports = s.ports := rfl
@[simp] theorem rput_pendSync (s : Block) (n : Nat) (r : Reg) (i : Nat) (w : Word) : (rput s n r i w).pendSync = s.pendSync := rfl
@[simp] theorem rput_unmasked (s : Block) (n : Nat) (r : Reg) (i : Nat) (w : Word) : (rput s n r i w).unmasked = s.unmasked := rfl
@[simp] theorem rput_pba (s : Block) (n : Nat) (r : Reg) (i : Nat) (w : Word) : (rput s n r i w).pba = s.pba := rfl
@[simp] theorem rput_d3hot (s : Block) (n : Nat) (r : Reg) (i : Nat) (w : Word) : (rput s n r i w).d3hot = s.d3hot := rfl
@[simp] theorem rput_msgs (s : Block) (n : Nat) (r : Reg) (i : Nat) (w : Word) : (rput s n r i w).msgs = s.msgs := rfl
@[simp] theorem rput_tasks (s : Block) (n : Nat) (r : Reg) (i : Nat) (w : Word) : (rput s n r i w).tasks = s.tasks := rfl
@[simp] theorem rput_acus (s : Block) (n : Nat) (r : Reg) (i : Nat) (w : Word) : (rput s n r i w).acus = s.acus := rfl
@[simp] theorem rput_stg (s : Block) (n : Nat) (r : Reg) (i : Nat) (w : Word) : (rput s n r i w).stg = s.stg := rfl
@[simp] theorem rput_record (s : Block) (n : Nat) (r : Reg) (i : Nat) (w : Word) : (rput s n r i w).record = s.record := rfl
@[simp] theorem rput_lram (s : Block) (n : Nat) (r : Reg) (i : Nat) (w : Word) : (rput s n r i w).lram = s.lram := rfl
@[simp] theorem rput_stgHeld (s : Block) (n : Nat) (r : Reg) (i : Nat) (w : Word) : (rput s n r i w).stgHeld = s.stgHeld := rfl
@[simp] theorem rput_trigGone (s : Block) (n : Nat) (r : Reg) (i : Nat) (w : Word) : (rput s n r i w).trigGone = s.trigGone := rfl
@[simp] theorem rput_recCursor (s : Block) (n : Nat) (r : Reg) (i : Nat) (w : Word) : (rput s n r i w).recCursor = s.recCursor := rfl
@[simp] theorem rput_rsps (s : Block) (n : Nat) (r : Reg) (i : Nat) (w : Word) : (rput s n r i w).rsps = s.rsps := rfl
@[simp] theorem rput_fsrcs (s : Block) (n : Nat) (r : Reg) (i : Nat) (w : Word) : (rput s n r i w).fsrcs = s.fsrcs := rfl
@[simp] theorem rput_fltRing (s : Block) (n : Nat) (r : Reg) (i : Nat) (w : Word) : (rput s n r i w).fltRing = s.fltRing := rfl
@[simp] theorem rput_quiets (s : Block) (n : Nat) (r : Reg) (i : Nat) (w : Word) : (rput s n r i w).quiets = s.quiets := rfl
@[simp] theorem rput_hostMem (s : Block) (n : Nat) (r : Reg) (i : Nat) (w : Word) : (rput s n r i w).hostMem = s.hostMem := rfl
@[simp] theorem rput_logs (s : Block) (n : Nat) (r : Reg) (i : Nat) (w : Word) : (rput s n r i w).logs = s.logs := rfl
@[simp] theorem rput_drvs (s : Block) (n : Nat) (r : Reg) (i : Nat) (w : Word) : (rput s n r i w).drvs = s.drvs := rfl
@[simp] theorem rput_sent (s : Block) (n : Nat) (r : Reg) (i : Nat) (w : Word) : (rput s n r i w).sent = s.sent := rfl
@[simp] theorem rput_lanes (s : Block) (n : Nat) (r : Reg) (i : Nat) (w : Word) : (rput s n r i w).lanes = s.lanes := rfl
@[simp] theorem rput_jlinks (s : Block) (n : Nat) (r : Reg) (i : Nat) (w : Word) : (rput s n r i w).jlinks = s.jlinks := rfl
@[simp] theorem rput_sysref (s : Block) (n : Nat) (r : Reg) (i : Nat) (w : Word) : (rput s n r i w).sysref = s.sysref := rfl
@[simp] theorem rput_chans (s : Block) (n : Nat) (r : Reg) (i : Nat) (w : Word) : (rput s n r i w).chans = s.chans := rfl
@[simp] theorem rput_strms (s : Block) (n : Nat) (r : Reg) (i : Nat) (w : Word) : (rput s n r i w).strms = s.strms := rfl
@[simp] theorem rput_gkoOut (s : Block) (n : Nat) (r : Reg) (i : Nat) (w : Word) : (rput s n r i w).gkoOut = s.gkoOut := rfl
@[simp] theorem rput_wslOut (s : Block) (n : Nat) (r : Reg) (i : Nat) (w : Word) : (rput s n r i w).wslOut = s.wslOut := rfl
@[simp] theorem rput_ctlIn (s : Block) (n : Nat) (r : Reg) (i : Nat) (w : Word) : (rput s n r i w).ctlIn = s.ctlIn := rfl
@[simp] theorem rput_rawIn (s : Block) (n : Nat) (r : Reg) (i : Nat) (w : Word) : (rput s n r i w).rawIn = s.rawIn := rfl
@[simp] theorem rput_rawOut (s : Block) (n : Nat) (r : Reg) (i : Nat) (w : Word) : (rput s n r i w).rawOut = s.rawOut := rfl
@[simp] theorem rput_regions (s : Block) (n : Nat) (r : Reg) (i : Nat) (w : Word) : (rput s n r i w).regions = s.regions := rfl
@[simp] theorem rput_caps (s : Block) (n : Nat) (r : Reg) (i : Nat) (w : Word) : (rput s n r i w).caps = s.caps := rfl
@[simp] theorem rput_loads (s : Block) (n : Nat) (r : Reg) (i : Nat) (w : Word) : (rput s n r i w).loads = s.loads := rfl
@[simp] theorem rput_gkoIn (s : Block) (n : Nat) (r : Reg) (i : Nat) (w : Word) : (rput s n r i w).gkoIn = s.gkoIn := rfl
@[simp] theorem rput_contAt (s : Block) (n : Nat) (r : Reg) (i : Nat) (w : Word) : (rput s n r i w).contAt = s.contAt := rfl
@[simp] theorem rput_pins (s : Block) (n : Nat) (r : Reg) (i : Nat) (w : Word) : (rput s n r i w).pins = s.pins := rfl
@[simp] theorem rput_gkoWin (s : Block) (n : Nat) (r : Reg) (i : Nat) (w : Word) : (rput s n r i w).gkoWin = s.gkoWin := rfl
@[simp] theorem rput_flight (s : Block) (n : Nat) (r : Reg) (i : Nat) (w : Word) : (rput s n r i w).flight = s.flight := rfl
@[simp] theorem rput_doneCids (s : Block) (n : Nat) (r : Reg) (i : Nat) (w : Word) : (rput s n r i w).doneCids = s.doneCids := rfl
@[simp] theorem rput_phases (s : Block) (n : Nat) (r : Reg) (i : Nat) (w : Word) : (rput s n r i w).phases = s.phases := rfl
@[simp] theorem rput_lastQueue (s : Block) (n : Nat) (r : Reg) (i : Nat) (w : Word) : (rput s n r i w).lastQueue = s.lastQueue := rfl
@[simp] theorem rput_cmdSets (s : Block) (n : Nat) (r : Reg) (i : Nat) (w : Word) : (rput s n r i w).cmdSets = s.cmdSets := rfl
@[simp] theorem rput_cmdSealed (s : Block) (n : Nat) (r : Reg) (i : Nat) (w : Word) : (rput s n r i w).cmdSealed = s.cmdSealed := rfl
@[simp] theorem rput_commit (s : Block) (n : Nat) (r : Reg) (i : Nat) (w : Word) : (rput s n r i w).commit = s.commit := rfl
@[simp] theorem rput_heldBounds (s : Block) (n : Nat) (r : Reg) (i : Nat) (w : Word) : (rput s n r i w).heldBounds = s.heldBounds := rfl
@[simp] theorem rput_lastBound (s : Block) (n : Nat) (r : Reg) (i : Nat) (w : Word) : (rput s n r i w).lastBound = s.lastBound := rfl
@[simp] theorem rput_weirs (s : Block) (n : Nat) (r : Reg) (i : Nat) (w : Word) : (rput s n r i w).weirs = s.weirs := rfl
@[simp] theorem rput_pubReady (s : Block) (n : Nat) (r : Reg) (i : Nat) (w : Word) : (rput s n r i w).pubReady = s.pubReady := rfl
@[simp] theorem rput_tabNext (s : Block) (n : Nat) (r : Reg) (i : Nat) (w : Word) : (rput s n r i w).tabNext = s.tabNext := rfl
@[simp] theorem rput_snaps (s : Block) (n : Nat) (r : Reg) (i : Nat) (w : Word) : (rput s n r i w).snaps = s.snaps := rfl
@[simp] theorem rput_chrTab (s : Block) (n : Nat) (r : Reg) (i : Nat) (w : Word) : (rput s n r i w).chrTab = s.chrTab := rfl
@[simp] theorem rput_chrWaiting (s : Block) (n : Nat) (r : Reg) (i : Nat) (w : Word) : (rput s n r i w).chrWaiting = s.chrWaiting := rfl
@[simp] theorem rput_posHeld (s : Block) (n : Nat) (r : Reg) (i : Nat) (w : Word) : (rput s n r i w).posHeld = s.posHeld := rfl
@[simp] theorem rput_fenced (s : Block) (n : Nat) (r : Reg) (i : Nat) (w : Word) : (rput s n r i w).fenced = s.fenced := rfl
@[simp] theorem rput_wrapDim (s : Block) (n : Nat) (r : Reg) (i : Nat) (w : Word) : (rput s n r i w).wrapDim = s.wrapDim := rfl
@[simp] theorem rput_lostSerials (s : Block) (n : Nat) (r : Reg) (i : Nat) (w : Word) : (rput s n r i w).lostSerials = s.lostSerials := rfl
@[simp] theorem rput_rescanned (s : Block) (n : Nat) (r : Reg) (i : Nat) (w : Word) : (rput s n r i w).rescanned = s.rescanned := rfl
@[simp] theorem rput_splits (s : Block) (n : Nat) (r : Reg) (i : Nat) (w : Word) : (rput s n r i w).splits = s.splits := rfl
@[simp] theorem rput_links (s : Block) (n : Nat) (r : Reg) (i : Nat) (w : Word) : (rput s n r i w).links = s.links := rfl
@[simp] theorem rput_pairQ (s : Block) (n : Nat) (r : Reg) (i : Nat) (w : Word) : (rput s n r i w).pairQ = s.pairQ := rfl
@[simp] theorem rput_callsOut (s : Block) (n : Nat) (r : Reg) (i : Nat) (w : Word) : (rput s n r i w).callsOut = s.callsOut := rfl
@[simp] theorem rput_calledAt (s : Block) (n : Nat) (r : Reg) (i : Nat) (w : Word) : (rput s n r i w).calledAt = s.calledAt := rfl
@[simp] theorem rput_unlockAt (s : Block) (n : Nat) (r : Reg) (i : Nat) (w : Word) : (rput s n r i w).unlockAt = s.unlockAt := rfl
@[simp] theorem rput_pcieUp (s : Block) (n : Nat) (r : Reg) (i : Nat) (w : Word) : (rput s n r i w).pcieUp = s.pcieUp := rfl
@[simp] theorem rput_pows (s : Block) (n : Nat) (r : Reg) (i : Nat) (w : Word) : (rput s n r i w).pows = s.pows := rfl
@[simp] theorem rput_tims (s : Block) (n : Nat) (r : Reg) (i : Nat) (w : Word) : (rput s n r i w).tims = s.tims := rfl
@[simp] theorem rput_islands (s : Block) (n : Nat) (r : Reg) (i : Nat) (w : Word) : (rput s n r i w).islands = s.islands := rfl
@[simp] theorem rput_timLatch (s : Block) (n : Nat) (r : Reg) (i : Nat) (w : Word) : (rput s n r i w).timLatch = s.timLatch := rfl
@[simp] theorem rput_pulses (s : Block) (n : Nat) (r : Reg) (i : Nat) (w : Word) : (rput s n r i w).pulses = s.pulses := rfl
@[simp] theorem rput_nvs (s : Block) (n : Nat) (r : Reg) (i : Nat) (w : Word) : (rput s n r i w).nvs = s.nvs := rfl
@[simp] theorem rput_slots (s : Block) (n : Nat) (r : Reg) (i : Nat) (w : Word) : (rput s n r i w).slots = s.slots := rfl
@[simp] theorem rput_outReqs (s : Block) (n : Nat) (r : Reg) (i : Nat) (w : Word) : (rput s n r i w).outReqs = s.outReqs := rfl
@[simp] theorem rput_heldReqs (s : Block) (n : Nat) (r : Reg) (i : Nat) (w : Word) : (rput s n r i w).heldReqs = s.heldReqs := rfl
@[simp] theorem rput_tlpQ (s : Block) (n : Nat) (r : Reg) (i : Nat) (w : Word) : (rput s n r i w).tlpQ = s.tlpQ := rfl
@[simp] theorem rput_rspFlits (s : Block) (n : Nat) (r : Reg) (i : Nat) (w : Word) : (rput s n r i w).rspFlits = s.rspFlits := rfl
@[simp] theorem rput_snoopAcks (s : Block) (n : Nat) (r : Reg) (i : Nat) (w : Word) : (rput s n r i w).snoopAcks = s.snoopAcks := rfl
@[simp] theorem rput_routers (s : Block) (n : Nat) (r : Reg) (i : Nat) (w : Word) : (rput s n r i w).routers = s.routers := rfl
@[simp] theorem rput_fwds (s : Block) (n : Nat) (r : Reg) (i : Nat) (w : Word) : (rput s n r i w).fwds = s.fwds := rfl
@[simp] theorem rput_msixTab (s : Block) (n : Nat) (r : Reg) (i : Nat) (w : Word) : (rput s n r i w).msixTab = s.msixTab := rfl

/-! ### fput -/

@[simp] theorem fput_freeCtr (s : Block) (n : Nat) (f : Fld) (i v : Nat) : (fput s n f i v).freeCtr = s.freeCtr := rfl
@[simp] theorem fput_now (s : Block) (n : Nat) (f : Fld) (i v : Nat) : (fput s n f i v).now = s.now := rfl
@[simp] theorem fput_shadow (s : Block) (n : Nat) (f : Fld) (i v : Nat) : (fput s n f i v).shadow = s.shadow := rfl
@[simp] theorem fput_sealedRwl (s : Block) (n : Nat) (f : Fld) (i v : Nat) : (fput s n f i v).sealedRwl = s.sealedRwl := rfl
@[simp] theorem fput_shadowLate (s : Block) (n : Nat) (f : Fld) (i v : Nat) : (fput s n f i v).shadowLate = s.shadowLate := rfl
@[simp] theorem fput_sels (s : Block) (n : Nat) (f : Fld) (i v : Nat) : (fput s n f i v).sels = s.sels := rfl
@[simp] theorem fput_planes (s : Block) (n : Nat) (f : Fld) (i v : Nat) : (fput s n f i v).planes = s.planes := rfl
@[simp] theorem fput_pes (s : Block) (n : Nat) (f : Fld) (i v : Nat) : (fput s n f i v).pes = s.pes := rfl
@[simp] theorem fput_stores (s : Block) (n : Nat) (f : Fld) (i v : Nat) : (fput s n f i v).stores = s.stores := rfl
@[simp] theorem fput_bstores (s : Block) (n : Nat) (f : Fld) (i v : Nat) : (fput s n f i v).bstores = s.bstores := rfl
@[simp] theorem fput_dispCopy (s : Block) (n : Nat) (f : Fld) (i v : Nat) : (fput s n f i v).dispCopy = s.dispCopy := rfl
@[simp] theorem fput_tiles (s : Block) (n : Nat) (f : Fld) (i v : Nat) : (fput s n f i v).tiles = s.tiles := rfl
@[simp] theorem fput_gangs (s : Block) (n : Nat) (f : Fld) (i v : Nat) : (fput s n f i v).gangs = s.gangs := rfl
@[simp] theorem fput_insps (s : Block) (n : Nat) (f : Fld) (i v : Nat) : (fput s n f i v).insps = s.insps := rfl
@[simp] theorem fput_events (s : Block) (n : Nat) (f : Fld) (i v : Nat) : (fput s n f i v).events = s.events := rfl
@[simp] theorem fput_nodeTab (s : Block) (n : Nat) (f : Fld) (i v : Nat) : (fput s n f i v).nodeTab = s.nodeTab := rfl
@[simp] theorem fput_undefGen (s : Block) (n : Nat) (f : Fld) (i v : Nat) : (fput s n f i v).undefGen = s.undefGen := rfl
@[simp] theorem fput_latches (s : Block) (n : Nat) (f : Fld) (i v : Nat) : (fput s n f i v).latches = s.latches := rfl
@[simp] theorem fput_ports (s : Block) (n : Nat) (f : Fld) (i v : Nat) : (fput s n f i v).ports = s.ports := rfl
@[simp] theorem fput_pendSync (s : Block) (n : Nat) (f : Fld) (i v : Nat) : (fput s n f i v).pendSync = s.pendSync := rfl
@[simp] theorem fput_unmasked (s : Block) (n : Nat) (f : Fld) (i v : Nat) : (fput s n f i v).unmasked = s.unmasked := rfl
@[simp] theorem fput_pba (s : Block) (n : Nat) (f : Fld) (i v : Nat) : (fput s n f i v).pba = s.pba := rfl
@[simp] theorem fput_d3hot (s : Block) (n : Nat) (f : Fld) (i v : Nat) : (fput s n f i v).d3hot = s.d3hot := rfl
@[simp] theorem fput_msgs (s : Block) (n : Nat) (f : Fld) (i v : Nat) : (fput s n f i v).msgs = s.msgs := rfl
@[simp] theorem fput_tasks (s : Block) (n : Nat) (f : Fld) (i v : Nat) : (fput s n f i v).tasks = s.tasks := rfl
@[simp] theorem fput_acus (s : Block) (n : Nat) (f : Fld) (i v : Nat) : (fput s n f i v).acus = s.acus := rfl
@[simp] theorem fput_stg (s : Block) (n : Nat) (f : Fld) (i v : Nat) : (fput s n f i v).stg = s.stg := rfl
@[simp] theorem fput_record (s : Block) (n : Nat) (f : Fld) (i v : Nat) : (fput s n f i v).record = s.record := rfl
@[simp] theorem fput_lram (s : Block) (n : Nat) (f : Fld) (i v : Nat) : (fput s n f i v).lram = s.lram := rfl
@[simp] theorem fput_stgHeld (s : Block) (n : Nat) (f : Fld) (i v : Nat) : (fput s n f i v).stgHeld = s.stgHeld := rfl
@[simp] theorem fput_trigGone (s : Block) (n : Nat) (f : Fld) (i v : Nat) : (fput s n f i v).trigGone = s.trigGone := rfl
@[simp] theorem fput_recCursor (s : Block) (n : Nat) (f : Fld) (i v : Nat) : (fput s n f i v).recCursor = s.recCursor := rfl
@[simp] theorem fput_rsps (s : Block) (n : Nat) (f : Fld) (i v : Nat) : (fput s n f i v).rsps = s.rsps := rfl
@[simp] theorem fput_fsrcs (s : Block) (n : Nat) (f : Fld) (i v : Nat) : (fput s n f i v).fsrcs = s.fsrcs := rfl
@[simp] theorem fput_fltRing (s : Block) (n : Nat) (f : Fld) (i v : Nat) : (fput s n f i v).fltRing = s.fltRing := rfl
@[simp] theorem fput_quiets (s : Block) (n : Nat) (f : Fld) (i v : Nat) : (fput s n f i v).quiets = s.quiets := rfl
@[simp] theorem fput_hostMem (s : Block) (n : Nat) (f : Fld) (i v : Nat) : (fput s n f i v).hostMem = s.hostMem := rfl
@[simp] theorem fput_logs (s : Block) (n : Nat) (f : Fld) (i v : Nat) : (fput s n f i v).logs = s.logs := rfl
@[simp] theorem fput_drvs (s : Block) (n : Nat) (f : Fld) (i v : Nat) : (fput s n f i v).drvs = s.drvs := rfl
@[simp] theorem fput_sent (s : Block) (n : Nat) (f : Fld) (i v : Nat) : (fput s n f i v).sent = s.sent := rfl
@[simp] theorem fput_lanes (s : Block) (n : Nat) (f : Fld) (i v : Nat) : (fput s n f i v).lanes = s.lanes := rfl
@[simp] theorem fput_jlinks (s : Block) (n : Nat) (f : Fld) (i v : Nat) : (fput s n f i v).jlinks = s.jlinks := rfl
@[simp] theorem fput_sysref (s : Block) (n : Nat) (f : Fld) (i v : Nat) : (fput s n f i v).sysref = s.sysref := rfl
@[simp] theorem fput_chans (s : Block) (n : Nat) (f : Fld) (i v : Nat) : (fput s n f i v).chans = s.chans := rfl
@[simp] theorem fput_strms (s : Block) (n : Nat) (f : Fld) (i v : Nat) : (fput s n f i v).strms = s.strms := rfl
@[simp] theorem fput_gkoOut (s : Block) (n : Nat) (f : Fld) (i v : Nat) : (fput s n f i v).gkoOut = s.gkoOut := rfl
@[simp] theorem fput_wslOut (s : Block) (n : Nat) (f : Fld) (i v : Nat) : (fput s n f i v).wslOut = s.wslOut := rfl
@[simp] theorem fput_ctlIn (s : Block) (n : Nat) (f : Fld) (i v : Nat) : (fput s n f i v).ctlIn = s.ctlIn := rfl
@[simp] theorem fput_rawIn (s : Block) (n : Nat) (f : Fld) (i v : Nat) : (fput s n f i v).rawIn = s.rawIn := rfl
@[simp] theorem fput_rawOut (s : Block) (n : Nat) (f : Fld) (i v : Nat) : (fput s n f i v).rawOut = s.rawOut := rfl
@[simp] theorem fput_regions (s : Block) (n : Nat) (f : Fld) (i v : Nat) : (fput s n f i v).regions = s.regions := rfl
@[simp] theorem fput_caps (s : Block) (n : Nat) (f : Fld) (i v : Nat) : (fput s n f i v).caps = s.caps := rfl
@[simp] theorem fput_loads (s : Block) (n : Nat) (f : Fld) (i v : Nat) : (fput s n f i v).loads = s.loads := rfl
@[simp] theorem fput_gkoIn (s : Block) (n : Nat) (f : Fld) (i v : Nat) : (fput s n f i v).gkoIn = s.gkoIn := rfl
@[simp] theorem fput_contAt (s : Block) (n : Nat) (f : Fld) (i v : Nat) : (fput s n f i v).contAt = s.contAt := rfl
@[simp] theorem fput_pins (s : Block) (n : Nat) (f : Fld) (i v : Nat) : (fput s n f i v).pins = s.pins := rfl
@[simp] theorem fput_gkoWin (s : Block) (n : Nat) (f : Fld) (i v : Nat) : (fput s n f i v).gkoWin = s.gkoWin := rfl
@[simp] theorem fput_flight (s : Block) (n : Nat) (f : Fld) (i v : Nat) : (fput s n f i v).flight = s.flight := rfl
@[simp] theorem fput_doneCids (s : Block) (n : Nat) (f : Fld) (i v : Nat) : (fput s n f i v).doneCids = s.doneCids := rfl
@[simp] theorem fput_phases (s : Block) (n : Nat) (f : Fld) (i v : Nat) : (fput s n f i v).phases = s.phases := rfl
@[simp] theorem fput_lastQueue (s : Block) (n : Nat) (f : Fld) (i v : Nat) : (fput s n f i v).lastQueue = s.lastQueue := rfl
@[simp] theorem fput_cmdSets (s : Block) (n : Nat) (f : Fld) (i v : Nat) : (fput s n f i v).cmdSets = s.cmdSets := rfl
@[simp] theorem fput_cmdSealed (s : Block) (n : Nat) (f : Fld) (i v : Nat) : (fput s n f i v).cmdSealed = s.cmdSealed := rfl
@[simp] theorem fput_commit (s : Block) (n : Nat) (f : Fld) (i v : Nat) : (fput s n f i v).commit = s.commit := rfl
@[simp] theorem fput_heldBounds (s : Block) (n : Nat) (f : Fld) (i v : Nat) : (fput s n f i v).heldBounds = s.heldBounds := rfl
@[simp] theorem fput_lastBound (s : Block) (n : Nat) (f : Fld) (i v : Nat) : (fput s n f i v).lastBound = s.lastBound := rfl
@[simp] theorem fput_weirs (s : Block) (n : Nat) (f : Fld) (i v : Nat) : (fput s n f i v).weirs = s.weirs := rfl
@[simp] theorem fput_pubReady (s : Block) (n : Nat) (f : Fld) (i v : Nat) : (fput s n f i v).pubReady = s.pubReady := rfl
@[simp] theorem fput_tabNext (s : Block) (n : Nat) (f : Fld) (i v : Nat) : (fput s n f i v).tabNext = s.tabNext := rfl
@[simp] theorem fput_snaps (s : Block) (n : Nat) (f : Fld) (i v : Nat) : (fput s n f i v).snaps = s.snaps := rfl
@[simp] theorem fput_chrTab (s : Block) (n : Nat) (f : Fld) (i v : Nat) : (fput s n f i v).chrTab = s.chrTab := rfl
@[simp] theorem fput_chrWaiting (s : Block) (n : Nat) (f : Fld) (i v : Nat) : (fput s n f i v).chrWaiting = s.chrWaiting := rfl
@[simp] theorem fput_posHeld (s : Block) (n : Nat) (f : Fld) (i v : Nat) : (fput s n f i v).posHeld = s.posHeld := rfl
@[simp] theorem fput_fenced (s : Block) (n : Nat) (f : Fld) (i v : Nat) : (fput s n f i v).fenced = s.fenced := rfl
@[simp] theorem fput_wrapDim (s : Block) (n : Nat) (f : Fld) (i v : Nat) : (fput s n f i v).wrapDim = s.wrapDim := rfl
@[simp] theorem fput_lostSerials (s : Block) (n : Nat) (f : Fld) (i v : Nat) : (fput s n f i v).lostSerials = s.lostSerials := rfl
@[simp] theorem fput_rescanned (s : Block) (n : Nat) (f : Fld) (i v : Nat) : (fput s n f i v).rescanned = s.rescanned := rfl
@[simp] theorem fput_splits (s : Block) (n : Nat) (f : Fld) (i v : Nat) : (fput s n f i v).splits = s.splits := rfl
@[simp] theorem fput_links (s : Block) (n : Nat) (f : Fld) (i v : Nat) : (fput s n f i v).links = s.links := rfl
@[simp] theorem fput_pairQ (s : Block) (n : Nat) (f : Fld) (i v : Nat) : (fput s n f i v).pairQ = s.pairQ := rfl
@[simp] theorem fput_callsOut (s : Block) (n : Nat) (f : Fld) (i v : Nat) : (fput s n f i v).callsOut = s.callsOut := rfl
@[simp] theorem fput_calledAt (s : Block) (n : Nat) (f : Fld) (i v : Nat) : (fput s n f i v).calledAt = s.calledAt := rfl
@[simp] theorem fput_unlockAt (s : Block) (n : Nat) (f : Fld) (i v : Nat) : (fput s n f i v).unlockAt = s.unlockAt := rfl
@[simp] theorem fput_pcieUp (s : Block) (n : Nat) (f : Fld) (i v : Nat) : (fput s n f i v).pcieUp = s.pcieUp := rfl
@[simp] theorem fput_pows (s : Block) (n : Nat) (f : Fld) (i v : Nat) : (fput s n f i v).pows = s.pows := rfl
@[simp] theorem fput_tims (s : Block) (n : Nat) (f : Fld) (i v : Nat) : (fput s n f i v).tims = s.tims := rfl
@[simp] theorem fput_islands (s : Block) (n : Nat) (f : Fld) (i v : Nat) : (fput s n f i v).islands = s.islands := rfl
@[simp] theorem fput_timLatch (s : Block) (n : Nat) (f : Fld) (i v : Nat) : (fput s n f i v).timLatch = s.timLatch := rfl
@[simp] theorem fput_pulses (s : Block) (n : Nat) (f : Fld) (i v : Nat) : (fput s n f i v).pulses = s.pulses := rfl
@[simp] theorem fput_nvs (s : Block) (n : Nat) (f : Fld) (i v : Nat) : (fput s n f i v).nvs = s.nvs := rfl
@[simp] theorem fput_slots (s : Block) (n : Nat) (f : Fld) (i v : Nat) : (fput s n f i v).slots = s.slots := rfl
@[simp] theorem fput_outReqs (s : Block) (n : Nat) (f : Fld) (i v : Nat) : (fput s n f i v).outReqs = s.outReqs := rfl
@[simp] theorem fput_heldReqs (s : Block) (n : Nat) (f : Fld) (i v : Nat) : (fput s n f i v).heldReqs = s.heldReqs := rfl
@[simp] theorem fput_tlpQ (s : Block) (n : Nat) (f : Fld) (i v : Nat) : (fput s n f i v).tlpQ = s.tlpQ := rfl
@[simp] theorem fput_rspFlits (s : Block) (n : Nat) (f : Fld) (i v : Nat) : (fput s n f i v).rspFlits = s.rspFlits := rfl
@[simp] theorem fput_snoopAcks (s : Block) (n : Nat) (f : Fld) (i v : Nat) : (fput s n f i v).snoopAcks = s.snoopAcks := rfl
@[simp] theorem fput_routers (s : Block) (n : Nat) (f : Fld) (i v : Nat) : (fput s n f i v).routers = s.routers := rfl
@[simp] theorem fput_fwds (s : Block) (n : Nat) (f : Fld) (i v : Nat) : (fput s n f i v).fwds = s.fwds := rfl
@[simp] theorem fput_msixTab (s : Block) (n : Nat) (f : Fld) (i v : Nat) : (fput s n f i v).msixTab = s.msixTab := rfl

/-! ### putTile -/

@[simp] theorem putTile_freeCtr (s : Block) (k : Nat) (x : Tile) : (putTile s k x).freeCtr = s.freeCtr := rfl
@[simp] theorem putTile_now (s : Block) (k : Nat) (x : Tile) : (putTile s k x).now = s.now := rfl
@[simp] theorem putTile_regs (s : Block) (k : Nat) (x : Tile) : (putTile s k x).regs = s.regs := rfl
@[simp] theorem putTile_shadow (s : Block) (k : Nat) (x : Tile) : (putTile s k x).shadow = s.shadow := rfl
@[simp] theorem putTile_sealedRwl (s : Block) (k : Nat) (x : Tile) : (putTile s k x).sealedRwl = s.sealedRwl := rfl
@[simp] theorem putTile_shadowLate (s : Block) (k : Nat) (x : Tile) : (putTile s k x).shadowLate = s.shadowLate := rfl
@[simp] theorem putTile_sels (s : Block) (k : Nat) (x : Tile) : (putTile s k x).sels = s.sels := rfl
@[simp] theorem putTile_planes (s : Block) (k : Nat) (x : Tile) : (putTile s k x).planes = s.planes := rfl
@[simp] theorem putTile_pes (s : Block) (k : Nat) (x : Tile) : (putTile s k x).pes = s.pes := rfl
@[simp] theorem putTile_stores (s : Block) (k : Nat) (x : Tile) : (putTile s k x).stores = s.stores := rfl
@[simp] theorem putTile_bstores (s : Block) (k : Nat) (x : Tile) : (putTile s k x).bstores = s.bstores := rfl
@[simp] theorem putTile_dispCopy (s : Block) (k : Nat) (x : Tile) : (putTile s k x).dispCopy = s.dispCopy := rfl
@[simp] theorem putTile_gangs (s : Block) (k : Nat) (x : Tile) : (putTile s k x).gangs = s.gangs := rfl
@[simp] theorem putTile_insps (s : Block) (k : Nat) (x : Tile) : (putTile s k x).insps = s.insps := rfl
@[simp] theorem putTile_events (s : Block) (k : Nat) (x : Tile) : (putTile s k x).events = s.events := rfl
@[simp] theorem putTile_nodeTab (s : Block) (k : Nat) (x : Tile) : (putTile s k x).nodeTab = s.nodeTab := rfl
@[simp] theorem putTile_undefGen (s : Block) (k : Nat) (x : Tile) : (putTile s k x).undefGen = s.undefGen := rfl
@[simp] theorem putTile_latches (s : Block) (k : Nat) (x : Tile) : (putTile s k x).latches = s.latches := rfl
@[simp] theorem putTile_ports (s : Block) (k : Nat) (x : Tile) : (putTile s k x).ports = s.ports := rfl
@[simp] theorem putTile_pendSync (s : Block) (k : Nat) (x : Tile) : (putTile s k x).pendSync = s.pendSync := rfl
@[simp] theorem putTile_unmasked (s : Block) (k : Nat) (x : Tile) : (putTile s k x).unmasked = s.unmasked := rfl
@[simp] theorem putTile_pba (s : Block) (k : Nat) (x : Tile) : (putTile s k x).pba = s.pba := rfl
@[simp] theorem putTile_d3hot (s : Block) (k : Nat) (x : Tile) : (putTile s k x).d3hot = s.d3hot := rfl
@[simp] theorem putTile_msgs (s : Block) (k : Nat) (x : Tile) : (putTile s k x).msgs = s.msgs := rfl
@[simp] theorem putTile_tasks (s : Block) (k : Nat) (x : Tile) : (putTile s k x).tasks = s.tasks := rfl
@[simp] theorem putTile_acus (s : Block) (k : Nat) (x : Tile) : (putTile s k x).acus = s.acus := rfl
@[simp] theorem putTile_stg (s : Block) (k : Nat) (x : Tile) : (putTile s k x).stg = s.stg := rfl
@[simp] theorem putTile_record (s : Block) (k : Nat) (x : Tile) : (putTile s k x).record = s.record := rfl
@[simp] theorem putTile_lram (s : Block) (k : Nat) (x : Tile) : (putTile s k x).lram = s.lram := rfl
@[simp] theorem putTile_stgHeld (s : Block) (k : Nat) (x : Tile) : (putTile s k x).stgHeld = s.stgHeld := rfl
@[simp] theorem putTile_trigGone (s : Block) (k : Nat) (x : Tile) : (putTile s k x).trigGone = s.trigGone := rfl
@[simp] theorem putTile_recCursor (s : Block) (k : Nat) (x : Tile) : (putTile s k x).recCursor = s.recCursor := rfl
@[simp] theorem putTile_rsps (s : Block) (k : Nat) (x : Tile) : (putTile s k x).rsps = s.rsps := rfl
@[simp] theorem putTile_fsrcs (s : Block) (k : Nat) (x : Tile) : (putTile s k x).fsrcs = s.fsrcs := rfl
@[simp] theorem putTile_fltRing (s : Block) (k : Nat) (x : Tile) : (putTile s k x).fltRing = s.fltRing := rfl
@[simp] theorem putTile_quiets (s : Block) (k : Nat) (x : Tile) : (putTile s k x).quiets = s.quiets := rfl
@[simp] theorem putTile_hostMem (s : Block) (k : Nat) (x : Tile) : (putTile s k x).hostMem = s.hostMem := rfl
@[simp] theorem putTile_logs (s : Block) (k : Nat) (x : Tile) : (putTile s k x).logs = s.logs := rfl
@[simp] theorem putTile_drvs (s : Block) (k : Nat) (x : Tile) : (putTile s k x).drvs = s.drvs := rfl
@[simp] theorem putTile_sent (s : Block) (k : Nat) (x : Tile) : (putTile s k x).sent = s.sent := rfl
@[simp] theorem putTile_lanes (s : Block) (k : Nat) (x : Tile) : (putTile s k x).lanes = s.lanes := rfl
@[simp] theorem putTile_jlinks (s : Block) (k : Nat) (x : Tile) : (putTile s k x).jlinks = s.jlinks := rfl
@[simp] theorem putTile_sysref (s : Block) (k : Nat) (x : Tile) : (putTile s k x).sysref = s.sysref := rfl
@[simp] theorem putTile_chans (s : Block) (k : Nat) (x : Tile) : (putTile s k x).chans = s.chans := rfl
@[simp] theorem putTile_strms (s : Block) (k : Nat) (x : Tile) : (putTile s k x).strms = s.strms := rfl
@[simp] theorem putTile_gkoOut (s : Block) (k : Nat) (x : Tile) : (putTile s k x).gkoOut = s.gkoOut := rfl
@[simp] theorem putTile_wslOut (s : Block) (k : Nat) (x : Tile) : (putTile s k x).wslOut = s.wslOut := rfl
@[simp] theorem putTile_ctlIn (s : Block) (k : Nat) (x : Tile) : (putTile s k x).ctlIn = s.ctlIn := rfl
@[simp] theorem putTile_rawIn (s : Block) (k : Nat) (x : Tile) : (putTile s k x).rawIn = s.rawIn := rfl
@[simp] theorem putTile_rawOut (s : Block) (k : Nat) (x : Tile) : (putTile s k x).rawOut = s.rawOut := rfl
@[simp] theorem putTile_regions (s : Block) (k : Nat) (x : Tile) : (putTile s k x).regions = s.regions := rfl
@[simp] theorem putTile_caps (s : Block) (k : Nat) (x : Tile) : (putTile s k x).caps = s.caps := rfl
@[simp] theorem putTile_loads (s : Block) (k : Nat) (x : Tile) : (putTile s k x).loads = s.loads := rfl
@[simp] theorem putTile_gkoIn (s : Block) (k : Nat) (x : Tile) : (putTile s k x).gkoIn = s.gkoIn := rfl
@[simp] theorem putTile_contAt (s : Block) (k : Nat) (x : Tile) : (putTile s k x).contAt = s.contAt := rfl
@[simp] theorem putTile_pins (s : Block) (k : Nat) (x : Tile) : (putTile s k x).pins = s.pins := rfl
@[simp] theorem putTile_gkoWin (s : Block) (k : Nat) (x : Tile) : (putTile s k x).gkoWin = s.gkoWin := rfl
@[simp] theorem putTile_flight (s : Block) (k : Nat) (x : Tile) : (putTile s k x).flight = s.flight := rfl
@[simp] theorem putTile_doneCids (s : Block) (k : Nat) (x : Tile) : (putTile s k x).doneCids = s.doneCids := rfl
@[simp] theorem putTile_phases (s : Block) (k : Nat) (x : Tile) : (putTile s k x).phases = s.phases := rfl
@[simp] theorem putTile_lastQueue (s : Block) (k : Nat) (x : Tile) : (putTile s k x).lastQueue = s.lastQueue := rfl
@[simp] theorem putTile_cmdSets (s : Block) (k : Nat) (x : Tile) : (putTile s k x).cmdSets = s.cmdSets := rfl
@[simp] theorem putTile_cmdSealed (s : Block) (k : Nat) (x : Tile) : (putTile s k x).cmdSealed = s.cmdSealed := rfl
@[simp] theorem putTile_commit (s : Block) (k : Nat) (x : Tile) : (putTile s k x).commit = s.commit := rfl
@[simp] theorem putTile_heldBounds (s : Block) (k : Nat) (x : Tile) : (putTile s k x).heldBounds = s.heldBounds := rfl
@[simp] theorem putTile_lastBound (s : Block) (k : Nat) (x : Tile) : (putTile s k x).lastBound = s.lastBound := rfl
@[simp] theorem putTile_weirs (s : Block) (k : Nat) (x : Tile) : (putTile s k x).weirs = s.weirs := rfl
@[simp] theorem putTile_pubReady (s : Block) (k : Nat) (x : Tile) : (putTile s k x).pubReady = s.pubReady := rfl
@[simp] theorem putTile_tabNext (s : Block) (k : Nat) (x : Tile) : (putTile s k x).tabNext = s.tabNext := rfl
@[simp] theorem putTile_snaps (s : Block) (k : Nat) (x : Tile) : (putTile s k x).snaps = s.snaps := rfl
@[simp] theorem putTile_chrTab (s : Block) (k : Nat) (x : Tile) : (putTile s k x).chrTab = s.chrTab := rfl
@[simp] theorem putTile_chrWaiting (s : Block) (k : Nat) (x : Tile) : (putTile s k x).chrWaiting = s.chrWaiting := rfl
@[simp] theorem putTile_posHeld (s : Block) (k : Nat) (x : Tile) : (putTile s k x).posHeld = s.posHeld := rfl
@[simp] theorem putTile_fenced (s : Block) (k : Nat) (x : Tile) : (putTile s k x).fenced = s.fenced := rfl
@[simp] theorem putTile_wrapDim (s : Block) (k : Nat) (x : Tile) : (putTile s k x).wrapDim = s.wrapDim := rfl
@[simp] theorem putTile_lostSerials (s : Block) (k : Nat) (x : Tile) : (putTile s k x).lostSerials = s.lostSerials := rfl
@[simp] theorem putTile_rescanned (s : Block) (k : Nat) (x : Tile) : (putTile s k x).rescanned = s.rescanned := rfl
@[simp] theorem putTile_splits (s : Block) (k : Nat) (x : Tile) : (putTile s k x).splits = s.splits := rfl
@[simp] theorem putTile_links (s : Block) (k : Nat) (x : Tile) : (putTile s k x).links = s.links := rfl
@[simp] theorem putTile_pairQ (s : Block) (k : Nat) (x : Tile) : (putTile s k x).pairQ = s.pairQ := rfl
@[simp] theorem putTile_callsOut (s : Block) (k : Nat) (x : Tile) : (putTile s k x).callsOut = s.callsOut := rfl
@[simp] theorem putTile_calledAt (s : Block) (k : Nat) (x : Tile) : (putTile s k x).calledAt = s.calledAt := rfl
@[simp] theorem putTile_unlockAt (s : Block) (k : Nat) (x : Tile) : (putTile s k x).unlockAt = s.unlockAt := rfl
@[simp] theorem putTile_pcieUp (s : Block) (k : Nat) (x : Tile) : (putTile s k x).pcieUp = s.pcieUp := rfl
@[simp] theorem putTile_pows (s : Block) (k : Nat) (x : Tile) : (putTile s k x).pows = s.pows := rfl
@[simp] theorem putTile_tims (s : Block) (k : Nat) (x : Tile) : (putTile s k x).tims = s.tims := rfl
@[simp] theorem putTile_islands (s : Block) (k : Nat) (x : Tile) : (putTile s k x).islands = s.islands := rfl
@[simp] theorem putTile_timLatch (s : Block) (k : Nat) (x : Tile) : (putTile s k x).timLatch = s.timLatch := rfl
@[simp] theorem putTile_pulses (s : Block) (k : Nat) (x : Tile) : (putTile s k x).pulses = s.pulses := rfl
@[simp] theorem putTile_nvs (s : Block) (k : Nat) (x : Tile) : (putTile s k x).nvs = s.nvs := rfl
@[simp] theorem putTile_slots (s : Block) (k : Nat) (x : Tile) : (putTile s k x).slots = s.slots := rfl
@[simp] theorem putTile_outReqs (s : Block) (k : Nat) (x : Tile) : (putTile s k x).outReqs = s.outReqs := rfl
@[simp] theorem putTile_heldReqs (s : Block) (k : Nat) (x : Tile) : (putTile s k x).heldReqs = s.heldReqs := rfl
@[simp] theorem putTile_tlpQ (s : Block) (k : Nat) (x : Tile) : (putTile s k x).tlpQ = s.tlpQ := rfl
@[simp] theorem putTile_rspFlits (s : Block) (k : Nat) (x : Tile) : (putTile s k x).rspFlits = s.rspFlits := rfl
@[simp] theorem putTile_snoopAcks (s : Block) (k : Nat) (x : Tile) : (putTile s k x).snoopAcks = s.snoopAcks := rfl
@[simp] theorem putTile_routers (s : Block) (k : Nat) (x : Tile) : (putTile s k x).routers = s.routers := rfl
@[simp] theorem putTile_fwds (s : Block) (k : Nat) (x : Tile) : (putTile s k x).fwds = s.fwds := rfl
@[simp] theorem putTile_msixTab (s : Block) (k : Nat) (x : Tile) : (putTile s k x).msixTab = s.msixTab := rfl

/-! ### putGang -/

@[simp] theorem putGang_freeCtr (s : Block) (n g : Nat) (x : GangSt) : (putGang s n g x).freeCtr = s.freeCtr := rfl
@[simp] theorem putGang_now (s : Block) (n g : Nat) (x : GangSt) : (putGang s n g x).now = s.now := rfl
@[simp] theorem putGang_regs (s : Block) (n g : Nat) (x : GangSt) : (putGang s n g x).regs = s.regs := rfl
@[simp] theorem putGang_shadow (s : Block) (n g : Nat) (x : GangSt) : (putGang s n g x).shadow = s.shadow := rfl
@[simp] theorem putGang_sealedRwl (s : Block) (n g : Nat) (x : GangSt) : (putGang s n g x).sealedRwl = s.sealedRwl := rfl
@[simp] theorem putGang_shadowLate (s : Block) (n g : Nat) (x : GangSt) : (putGang s n g x).shadowLate = s.shadowLate := rfl
@[simp] theorem putGang_sels (s : Block) (n g : Nat) (x : GangSt) : (putGang s n g x).sels = s.sels := rfl
@[simp] theorem putGang_planes (s : Block) (n g : Nat) (x : GangSt) : (putGang s n g x).planes = s.planes := rfl
@[simp] theorem putGang_pes (s : Block) (n g : Nat) (x : GangSt) : (putGang s n g x).pes = s.pes := rfl
@[simp] theorem putGang_stores (s : Block) (n g : Nat) (x : GangSt) : (putGang s n g x).stores = s.stores := rfl
@[simp] theorem putGang_bstores (s : Block) (n g : Nat) (x : GangSt) : (putGang s n g x).bstores = s.bstores := rfl
@[simp] theorem putGang_dispCopy (s : Block) (n g : Nat) (x : GangSt) : (putGang s n g x).dispCopy = s.dispCopy := rfl
@[simp] theorem putGang_tiles (s : Block) (n g : Nat) (x : GangSt) : (putGang s n g x).tiles = s.tiles := rfl
@[simp] theorem putGang_insps (s : Block) (n g : Nat) (x : GangSt) : (putGang s n g x).insps = s.insps := rfl
@[simp] theorem putGang_events (s : Block) (n g : Nat) (x : GangSt) : (putGang s n g x).events = s.events := rfl
@[simp] theorem putGang_nodeTab (s : Block) (n g : Nat) (x : GangSt) : (putGang s n g x).nodeTab = s.nodeTab := rfl
@[simp] theorem putGang_undefGen (s : Block) (n g : Nat) (x : GangSt) : (putGang s n g x).undefGen = s.undefGen := rfl
@[simp] theorem putGang_latches (s : Block) (n g : Nat) (x : GangSt) : (putGang s n g x).latches = s.latches := rfl
@[simp] theorem putGang_ports (s : Block) (n g : Nat) (x : GangSt) : (putGang s n g x).ports = s.ports := rfl
@[simp] theorem putGang_pendSync (s : Block) (n g : Nat) (x : GangSt) : (putGang s n g x).pendSync = s.pendSync := rfl
@[simp] theorem putGang_unmasked (s : Block) (n g : Nat) (x : GangSt) : (putGang s n g x).unmasked = s.unmasked := rfl
@[simp] theorem putGang_pba (s : Block) (n g : Nat) (x : GangSt) : (putGang s n g x).pba = s.pba := rfl
@[simp] theorem putGang_d3hot (s : Block) (n g : Nat) (x : GangSt) : (putGang s n g x).d3hot = s.d3hot := rfl
@[simp] theorem putGang_msgs (s : Block) (n g : Nat) (x : GangSt) : (putGang s n g x).msgs = s.msgs := rfl
@[simp] theorem putGang_tasks (s : Block) (n g : Nat) (x : GangSt) : (putGang s n g x).tasks = s.tasks := rfl
@[simp] theorem putGang_acus (s : Block) (n g : Nat) (x : GangSt) : (putGang s n g x).acus = s.acus := rfl
@[simp] theorem putGang_stg (s : Block) (n g : Nat) (x : GangSt) : (putGang s n g x).stg = s.stg := rfl
@[simp] theorem putGang_record (s : Block) (n g : Nat) (x : GangSt) : (putGang s n g x).record = s.record := rfl
@[simp] theorem putGang_lram (s : Block) (n g : Nat) (x : GangSt) : (putGang s n g x).lram = s.lram := rfl
@[simp] theorem putGang_stgHeld (s : Block) (n g : Nat) (x : GangSt) : (putGang s n g x).stgHeld = s.stgHeld := rfl
@[simp] theorem putGang_trigGone (s : Block) (n g : Nat) (x : GangSt) : (putGang s n g x).trigGone = s.trigGone := rfl
@[simp] theorem putGang_recCursor (s : Block) (n g : Nat) (x : GangSt) : (putGang s n g x).recCursor = s.recCursor := rfl
@[simp] theorem putGang_rsps (s : Block) (n g : Nat) (x : GangSt) : (putGang s n g x).rsps = s.rsps := rfl
@[simp] theorem putGang_fsrcs (s : Block) (n g : Nat) (x : GangSt) : (putGang s n g x).fsrcs = s.fsrcs := rfl
@[simp] theorem putGang_fltRing (s : Block) (n g : Nat) (x : GangSt) : (putGang s n g x).fltRing = s.fltRing := rfl
@[simp] theorem putGang_quiets (s : Block) (n g : Nat) (x : GangSt) : (putGang s n g x).quiets = s.quiets := rfl
@[simp] theorem putGang_hostMem (s : Block) (n g : Nat) (x : GangSt) : (putGang s n g x).hostMem = s.hostMem := rfl
@[simp] theorem putGang_logs (s : Block) (n g : Nat) (x : GangSt) : (putGang s n g x).logs = s.logs := rfl
@[simp] theorem putGang_drvs (s : Block) (n g : Nat) (x : GangSt) : (putGang s n g x).drvs = s.drvs := rfl
@[simp] theorem putGang_sent (s : Block) (n g : Nat) (x : GangSt) : (putGang s n g x).sent = s.sent := rfl
@[simp] theorem putGang_lanes (s : Block) (n g : Nat) (x : GangSt) : (putGang s n g x).lanes = s.lanes := rfl
@[simp] theorem putGang_jlinks (s : Block) (n g : Nat) (x : GangSt) : (putGang s n g x).jlinks = s.jlinks := rfl
@[simp] theorem putGang_sysref (s : Block) (n g : Nat) (x : GangSt) : (putGang s n g x).sysref = s.sysref := rfl
@[simp] theorem putGang_chans (s : Block) (n g : Nat) (x : GangSt) : (putGang s n g x).chans = s.chans := rfl
@[simp] theorem putGang_strms (s : Block) (n g : Nat) (x : GangSt) : (putGang s n g x).strms = s.strms := rfl
@[simp] theorem putGang_gkoOut (s : Block) (n g : Nat) (x : GangSt) : (putGang s n g x).gkoOut = s.gkoOut := rfl
@[simp] theorem putGang_wslOut (s : Block) (n g : Nat) (x : GangSt) : (putGang s n g x).wslOut = s.wslOut := rfl
@[simp] theorem putGang_ctlIn (s : Block) (n g : Nat) (x : GangSt) : (putGang s n g x).ctlIn = s.ctlIn := rfl
@[simp] theorem putGang_rawIn (s : Block) (n g : Nat) (x : GangSt) : (putGang s n g x).rawIn = s.rawIn := rfl
@[simp] theorem putGang_rawOut (s : Block) (n g : Nat) (x : GangSt) : (putGang s n g x).rawOut = s.rawOut := rfl
@[simp] theorem putGang_regions (s : Block) (n g : Nat) (x : GangSt) : (putGang s n g x).regions = s.regions := rfl
@[simp] theorem putGang_caps (s : Block) (n g : Nat) (x : GangSt) : (putGang s n g x).caps = s.caps := rfl
@[simp] theorem putGang_loads (s : Block) (n g : Nat) (x : GangSt) : (putGang s n g x).loads = s.loads := rfl
@[simp] theorem putGang_gkoIn (s : Block) (n g : Nat) (x : GangSt) : (putGang s n g x).gkoIn = s.gkoIn := rfl
@[simp] theorem putGang_contAt (s : Block) (n g : Nat) (x : GangSt) : (putGang s n g x).contAt = s.contAt := rfl
@[simp] theorem putGang_pins (s : Block) (n g : Nat) (x : GangSt) : (putGang s n g x).pins = s.pins := rfl
@[simp] theorem putGang_gkoWin (s : Block) (n g : Nat) (x : GangSt) : (putGang s n g x).gkoWin = s.gkoWin := rfl
@[simp] theorem putGang_flight (s : Block) (n g : Nat) (x : GangSt) : (putGang s n g x).flight = s.flight := rfl
@[simp] theorem putGang_doneCids (s : Block) (n g : Nat) (x : GangSt) : (putGang s n g x).doneCids = s.doneCids := rfl
@[simp] theorem putGang_phases (s : Block) (n g : Nat) (x : GangSt) : (putGang s n g x).phases = s.phases := rfl
@[simp] theorem putGang_lastQueue (s : Block) (n g : Nat) (x : GangSt) : (putGang s n g x).lastQueue = s.lastQueue := rfl
@[simp] theorem putGang_cmdSets (s : Block) (n g : Nat) (x : GangSt) : (putGang s n g x).cmdSets = s.cmdSets := rfl
@[simp] theorem putGang_cmdSealed (s : Block) (n g : Nat) (x : GangSt) : (putGang s n g x).cmdSealed = s.cmdSealed := rfl
@[simp] theorem putGang_commit (s : Block) (n g : Nat) (x : GangSt) : (putGang s n g x).commit = s.commit := rfl
@[simp] theorem putGang_heldBounds (s : Block) (n g : Nat) (x : GangSt) : (putGang s n g x).heldBounds = s.heldBounds := rfl
@[simp] theorem putGang_lastBound (s : Block) (n g : Nat) (x : GangSt) : (putGang s n g x).lastBound = s.lastBound := rfl
@[simp] theorem putGang_weirs (s : Block) (n g : Nat) (x : GangSt) : (putGang s n g x).weirs = s.weirs := rfl
@[simp] theorem putGang_pubReady (s : Block) (n g : Nat) (x : GangSt) : (putGang s n g x).pubReady = s.pubReady := rfl
@[simp] theorem putGang_tabNext (s : Block) (n g : Nat) (x : GangSt) : (putGang s n g x).tabNext = s.tabNext := rfl
@[simp] theorem putGang_snaps (s : Block) (n g : Nat) (x : GangSt) : (putGang s n g x).snaps = s.snaps := rfl
@[simp] theorem putGang_chrTab (s : Block) (n g : Nat) (x : GangSt) : (putGang s n g x).chrTab = s.chrTab := rfl
@[simp] theorem putGang_chrWaiting (s : Block) (n g : Nat) (x : GangSt) : (putGang s n g x).chrWaiting = s.chrWaiting := rfl
@[simp] theorem putGang_posHeld (s : Block) (n g : Nat) (x : GangSt) : (putGang s n g x).posHeld = s.posHeld := rfl
@[simp] theorem putGang_fenced (s : Block) (n g : Nat) (x : GangSt) : (putGang s n g x).fenced = s.fenced := rfl
@[simp] theorem putGang_wrapDim (s : Block) (n g : Nat) (x : GangSt) : (putGang s n g x).wrapDim = s.wrapDim := rfl
@[simp] theorem putGang_lostSerials (s : Block) (n g : Nat) (x : GangSt) : (putGang s n g x).lostSerials = s.lostSerials := rfl
@[simp] theorem putGang_rescanned (s : Block) (n g : Nat) (x : GangSt) : (putGang s n g x).rescanned = s.rescanned := rfl
@[simp] theorem putGang_splits (s : Block) (n g : Nat) (x : GangSt) : (putGang s n g x).splits = s.splits := rfl
@[simp] theorem putGang_links (s : Block) (n g : Nat) (x : GangSt) : (putGang s n g x).links = s.links := rfl
@[simp] theorem putGang_pairQ (s : Block) (n g : Nat) (x : GangSt) : (putGang s n g x).pairQ = s.pairQ := rfl
@[simp] theorem putGang_callsOut (s : Block) (n g : Nat) (x : GangSt) : (putGang s n g x).callsOut = s.callsOut := rfl
@[simp] theorem putGang_calledAt (s : Block) (n g : Nat) (x : GangSt) : (putGang s n g x).calledAt = s.calledAt := rfl
@[simp] theorem putGang_unlockAt (s : Block) (n g : Nat) (x : GangSt) : (putGang s n g x).unlockAt = s.unlockAt := rfl
@[simp] theorem putGang_pcieUp (s : Block) (n g : Nat) (x : GangSt) : (putGang s n g x).pcieUp = s.pcieUp := rfl
@[simp] theorem putGang_pows (s : Block) (n g : Nat) (x : GangSt) : (putGang s n g x).pows = s.pows := rfl
@[simp] theorem putGang_tims (s : Block) (n g : Nat) (x : GangSt) : (putGang s n g x).tims = s.tims := rfl
@[simp] theorem putGang_islands (s : Block) (n g : Nat) (x : GangSt) : (putGang s n g x).islands = s.islands := rfl
@[simp] theorem putGang_timLatch (s : Block) (n g : Nat) (x : GangSt) : (putGang s n g x).timLatch = s.timLatch := rfl
@[simp] theorem putGang_pulses (s : Block) (n g : Nat) (x : GangSt) : (putGang s n g x).pulses = s.pulses := rfl
@[simp] theorem putGang_nvs (s : Block) (n g : Nat) (x : GangSt) : (putGang s n g x).nvs = s.nvs := rfl
@[simp] theorem putGang_slots (s : Block) (n g : Nat) (x : GangSt) : (putGang s n g x).slots = s.slots := rfl
@[simp] theorem putGang_outReqs (s : Block) (n g : Nat) (x : GangSt) : (putGang s n g x).outReqs = s.outReqs := rfl
@[simp] theorem putGang_heldReqs (s : Block) (n g : Nat) (x : GangSt) : (putGang s n g x).heldReqs = s.heldReqs := rfl
@[simp] theorem putGang_tlpQ (s : Block) (n g : Nat) (x : GangSt) : (putGang s n g x).tlpQ = s.tlpQ := rfl
@[simp] theorem putGang_rspFlits (s : Block) (n g : Nat) (x : GangSt) : (putGang s n g x).rspFlits = s.rspFlits := rfl
@[simp] theorem putGang_snoopAcks (s : Block) (n g : Nat) (x : GangSt) : (putGang s n g x).snoopAcks = s.snoopAcks := rfl
@[simp] theorem putGang_routers (s : Block) (n g : Nat) (x : GangSt) : (putGang s n g x).routers = s.routers := rfl
@[simp] theorem putGang_fwds (s : Block) (n g : Nat) (x : GangSt) : (putGang s n g x).fwds = s.fwds := rfl
@[simp] theorem putGang_msixTab (s : Block) (n g : Nat) (x : GangSt) : (putGang s n g x).msixTab = s.msixTab := rfl

/-! ### putTask -/

@[simp] theorem putTask_freeCtr (s : Block) (k : Nat) (x : Task) : (putTask s k x).freeCtr = s.freeCtr := rfl
@[simp] theorem putTask_now (s : Block) (k : Nat) (x : Task) : (putTask s k x).now = s.now := rfl
@[simp] theorem putTask_regs (s : Block) (k : Nat) (x : Task) : (putTask s k x).regs = s.regs := rfl
@[simp] theorem putTask_shadow (s : Block) (k : Nat) (x : Task) : (putTask s k x).shadow = s.shadow := rfl
@[simp] theorem putTask_sealedRwl (s : Block) (k : Nat) (x : Task) : (putTask s k x).sealedRwl = s.sealedRwl := rfl
@[simp] theorem putTask_shadowLate (s : Block) (k : Nat) (x : Task) : (putTask s k x).shadowLate = s.shadowLate := rfl
@[simp] theorem putTask_sels (s : Block) (k : Nat) (x : Task) : (putTask s k x).sels = s.sels := rfl
@[simp] theorem putTask_planes (s : Block) (k : Nat) (x : Task) : (putTask s k x).planes = s.planes := rfl
@[simp] theorem putTask_pes (s : Block) (k : Nat) (x : Task) : (putTask s k x).pes = s.pes := rfl
@[simp] theorem putTask_stores (s : Block) (k : Nat) (x : Task) : (putTask s k x).stores = s.stores := rfl
@[simp] theorem putTask_bstores (s : Block) (k : Nat) (x : Task) : (putTask s k x).bstores = s.bstores := rfl
@[simp] theorem putTask_dispCopy (s : Block) (k : Nat) (x : Task) : (putTask s k x).dispCopy = s.dispCopy := rfl
@[simp] theorem putTask_tiles (s : Block) (k : Nat) (x : Task) : (putTask s k x).tiles = s.tiles := rfl
@[simp] theorem putTask_gangs (s : Block) (k : Nat) (x : Task) : (putTask s k x).gangs = s.gangs := rfl
@[simp] theorem putTask_insps (s : Block) (k : Nat) (x : Task) : (putTask s k x).insps = s.insps := rfl
@[simp] theorem putTask_events (s : Block) (k : Nat) (x : Task) : (putTask s k x).events = s.events := rfl
@[simp] theorem putTask_nodeTab (s : Block) (k : Nat) (x : Task) : (putTask s k x).nodeTab = s.nodeTab := rfl
@[simp] theorem putTask_undefGen (s : Block) (k : Nat) (x : Task) : (putTask s k x).undefGen = s.undefGen := rfl
@[simp] theorem putTask_latches (s : Block) (k : Nat) (x : Task) : (putTask s k x).latches = s.latches := rfl
@[simp] theorem putTask_ports (s : Block) (k : Nat) (x : Task) : (putTask s k x).ports = s.ports := rfl
@[simp] theorem putTask_pendSync (s : Block) (k : Nat) (x : Task) : (putTask s k x).pendSync = s.pendSync := rfl
@[simp] theorem putTask_unmasked (s : Block) (k : Nat) (x : Task) : (putTask s k x).unmasked = s.unmasked := rfl
@[simp] theorem putTask_pba (s : Block) (k : Nat) (x : Task) : (putTask s k x).pba = s.pba := rfl
@[simp] theorem putTask_d3hot (s : Block) (k : Nat) (x : Task) : (putTask s k x).d3hot = s.d3hot := rfl
@[simp] theorem putTask_msgs (s : Block) (k : Nat) (x : Task) : (putTask s k x).msgs = s.msgs := rfl
@[simp] theorem putTask_acus (s : Block) (k : Nat) (x : Task) : (putTask s k x).acus = s.acus := rfl
@[simp] theorem putTask_stg (s : Block) (k : Nat) (x : Task) : (putTask s k x).stg = s.stg := rfl
@[simp] theorem putTask_record (s : Block) (k : Nat) (x : Task) : (putTask s k x).record = s.record := rfl
@[simp] theorem putTask_lram (s : Block) (k : Nat) (x : Task) : (putTask s k x).lram = s.lram := rfl
@[simp] theorem putTask_stgHeld (s : Block) (k : Nat) (x : Task) : (putTask s k x).stgHeld = s.stgHeld := rfl
@[simp] theorem putTask_trigGone (s : Block) (k : Nat) (x : Task) : (putTask s k x).trigGone = s.trigGone := rfl
@[simp] theorem putTask_recCursor (s : Block) (k : Nat) (x : Task) : (putTask s k x).recCursor = s.recCursor := rfl
@[simp] theorem putTask_rsps (s : Block) (k : Nat) (x : Task) : (putTask s k x).rsps = s.rsps := rfl
@[simp] theorem putTask_fsrcs (s : Block) (k : Nat) (x : Task) : (putTask s k x).fsrcs = s.fsrcs := rfl
@[simp] theorem putTask_fltRing (s : Block) (k : Nat) (x : Task) : (putTask s k x).fltRing = s.fltRing := rfl
@[simp] theorem putTask_quiets (s : Block) (k : Nat) (x : Task) : (putTask s k x).quiets = s.quiets := rfl
@[simp] theorem putTask_hostMem (s : Block) (k : Nat) (x : Task) : (putTask s k x).hostMem = s.hostMem := rfl
@[simp] theorem putTask_logs (s : Block) (k : Nat) (x : Task) : (putTask s k x).logs = s.logs := rfl
@[simp] theorem putTask_drvs (s : Block) (k : Nat) (x : Task) : (putTask s k x).drvs = s.drvs := rfl
@[simp] theorem putTask_sent (s : Block) (k : Nat) (x : Task) : (putTask s k x).sent = s.sent := rfl
@[simp] theorem putTask_lanes (s : Block) (k : Nat) (x : Task) : (putTask s k x).lanes = s.lanes := rfl
@[simp] theorem putTask_jlinks (s : Block) (k : Nat) (x : Task) : (putTask s k x).jlinks = s.jlinks := rfl
@[simp] theorem putTask_sysref (s : Block) (k : Nat) (x : Task) : (putTask s k x).sysref = s.sysref := rfl
@[simp] theorem putTask_chans (s : Block) (k : Nat) (x : Task) : (putTask s k x).chans = s.chans := rfl
@[simp] theorem putTask_strms (s : Block) (k : Nat) (x : Task) : (putTask s k x).strms = s.strms := rfl
@[simp] theorem putTask_gkoOut (s : Block) (k : Nat) (x : Task) : (putTask s k x).gkoOut = s.gkoOut := rfl
@[simp] theorem putTask_wslOut (s : Block) (k : Nat) (x : Task) : (putTask s k x).wslOut = s.wslOut := rfl
@[simp] theorem putTask_ctlIn (s : Block) (k : Nat) (x : Task) : (putTask s k x).ctlIn = s.ctlIn := rfl
@[simp] theorem putTask_rawIn (s : Block) (k : Nat) (x : Task) : (putTask s k x).rawIn = s.rawIn := rfl
@[simp] theorem putTask_rawOut (s : Block) (k : Nat) (x : Task) : (putTask s k x).rawOut = s.rawOut := rfl
@[simp] theorem putTask_regions (s : Block) (k : Nat) (x : Task) : (putTask s k x).regions = s.regions := rfl
@[simp] theorem putTask_caps (s : Block) (k : Nat) (x : Task) : (putTask s k x).caps = s.caps := rfl
@[simp] theorem putTask_loads (s : Block) (k : Nat) (x : Task) : (putTask s k x).loads = s.loads := rfl
@[simp] theorem putTask_gkoIn (s : Block) (k : Nat) (x : Task) : (putTask s k x).gkoIn = s.gkoIn := rfl
@[simp] theorem putTask_contAt (s : Block) (k : Nat) (x : Task) : (putTask s k x).contAt = s.contAt := rfl
@[simp] theorem putTask_pins (s : Block) (k : Nat) (x : Task) : (putTask s k x).pins = s.pins := rfl
@[simp] theorem putTask_gkoWin (s : Block) (k : Nat) (x : Task) : (putTask s k x).gkoWin = s.gkoWin := rfl
@[simp] theorem putTask_flight (s : Block) (k : Nat) (x : Task) : (putTask s k x).flight = s.flight := rfl
@[simp] theorem putTask_doneCids (s : Block) (k : Nat) (x : Task) : (putTask s k x).doneCids = s.doneCids := rfl
@[simp] theorem putTask_phases (s : Block) (k : Nat) (x : Task) : (putTask s k x).phases = s.phases := rfl
@[simp] theorem putTask_lastQueue (s : Block) (k : Nat) (x : Task) : (putTask s k x).lastQueue = s.lastQueue := rfl
@[simp] theorem putTask_cmdSets (s : Block) (k : Nat) (x : Task) : (putTask s k x).cmdSets = s.cmdSets := rfl
@[simp] theorem putTask_cmdSealed (s : Block) (k : Nat) (x : Task) : (putTask s k x).cmdSealed = s.cmdSealed := rfl
@[simp] theorem putTask_commit (s : Block) (k : Nat) (x : Task) : (putTask s k x).commit = s.commit := rfl
@[simp] theorem putTask_heldBounds (s : Block) (k : Nat) (x : Task) : (putTask s k x).heldBounds = s.heldBounds := rfl
@[simp] theorem putTask_lastBound (s : Block) (k : Nat) (x : Task) : (putTask s k x).lastBound = s.lastBound := rfl
@[simp] theorem putTask_weirs (s : Block) (k : Nat) (x : Task) : (putTask s k x).weirs = s.weirs := rfl
@[simp] theorem putTask_pubReady (s : Block) (k : Nat) (x : Task) : (putTask s k x).pubReady = s.pubReady := rfl
@[simp] theorem putTask_tabNext (s : Block) (k : Nat) (x : Task) : (putTask s k x).tabNext = s.tabNext := rfl
@[simp] theorem putTask_snaps (s : Block) (k : Nat) (x : Task) : (putTask s k x).snaps = s.snaps := rfl
@[simp] theorem putTask_chrTab (s : Block) (k : Nat) (x : Task) : (putTask s k x).chrTab = s.chrTab := rfl
@[simp] theorem putTask_chrWaiting (s : Block) (k : Nat) (x : Task) : (putTask s k x).chrWaiting = s.chrWaiting := rfl
@[simp] theorem putTask_posHeld (s : Block) (k : Nat) (x : Task) : (putTask s k x).posHeld = s.posHeld := rfl
@[simp] theorem putTask_fenced (s : Block) (k : Nat) (x : Task) : (putTask s k x).fenced = s.fenced := rfl
@[simp] theorem putTask_wrapDim (s : Block) (k : Nat) (x : Task) : (putTask s k x).wrapDim = s.wrapDim := rfl
@[simp] theorem putTask_lostSerials (s : Block) (k : Nat) (x : Task) : (putTask s k x).lostSerials = s.lostSerials := rfl
@[simp] theorem putTask_rescanned (s : Block) (k : Nat) (x : Task) : (putTask s k x).rescanned = s.rescanned := rfl
@[simp] theorem putTask_splits (s : Block) (k : Nat) (x : Task) : (putTask s k x).splits = s.splits := rfl
@[simp] theorem putTask_links (s : Block) (k : Nat) (x : Task) : (putTask s k x).links = s.links := rfl
@[simp] theorem putTask_pairQ (s : Block) (k : Nat) (x : Task) : (putTask s k x).pairQ = s.pairQ := rfl
@[simp] theorem putTask_callsOut (s : Block) (k : Nat) (x : Task) : (putTask s k x).callsOut = s.callsOut := rfl
@[simp] theorem putTask_calledAt (s : Block) (k : Nat) (x : Task) : (putTask s k x).calledAt = s.calledAt := rfl
@[simp] theorem putTask_unlockAt (s : Block) (k : Nat) (x : Task) : (putTask s k x).unlockAt = s.unlockAt := rfl
@[simp] theorem putTask_pcieUp (s : Block) (k : Nat) (x : Task) : (putTask s k x).pcieUp = s.pcieUp := rfl
@[simp] theorem putTask_pows (s : Block) (k : Nat) (x : Task) : (putTask s k x).pows = s.pows := rfl
@[simp] theorem putTask_tims (s : Block) (k : Nat) (x : Task) : (putTask s k x).tims = s.tims := rfl
@[simp] theorem putTask_islands (s : Block) (k : Nat) (x : Task) : (putTask s k x).islands = s.islands := rfl
@[simp] theorem putTask_timLatch (s : Block) (k : Nat) (x : Task) : (putTask s k x).timLatch = s.timLatch := rfl
@[simp] theorem putTask_pulses (s : Block) (k : Nat) (x : Task) : (putTask s k x).pulses = s.pulses := rfl
@[simp] theorem putTask_nvs (s : Block) (k : Nat) (x : Task) : (putTask s k x).nvs = s.nvs := rfl
@[simp] theorem putTask_slots (s : Block) (k : Nat) (x : Task) : (putTask s k x).slots = s.slots := rfl
@[simp] theorem putTask_outReqs (s : Block) (k : Nat) (x : Task) : (putTask s k x).outReqs = s.outReqs := rfl
@[simp] theorem putTask_heldReqs (s : Block) (k : Nat) (x : Task) : (putTask s k x).heldReqs = s.heldReqs := rfl
@[simp] theorem putTask_tlpQ (s : Block) (k : Nat) (x : Task) : (putTask s k x).tlpQ = s.tlpQ := rfl
@[simp] theorem putTask_rspFlits (s : Block) (k : Nat) (x : Task) : (putTask s k x).rspFlits = s.rspFlits := rfl
@[simp] theorem putTask_snoopAcks (s : Block) (k : Nat) (x : Task) : (putTask s k x).snoopAcks = s.snoopAcks := rfl
@[simp] theorem putTask_routers (s : Block) (k : Nat) (x : Task) : (putTask s k x).routers = s.routers := rfl
@[simp] theorem putTask_fwds (s : Block) (k : Nat) (x : Task) : (putTask s k x).fwds = s.fwds := rfl
@[simp] theorem putTask_msixTab (s : Block) (k : Nat) (x : Task) : (putTask s k x).msixTab = s.msixTab := rfl

/-! ### putAcu -/

@[simp] theorem putAcu_freeCtr (s : Block) (n a : Nat) (x : Acu) : (putAcu s n a x).freeCtr = s.freeCtr := rfl
@[simp] theorem putAcu_now (s : Block) (n a : Nat) (x : Acu) : (putAcu s n a x).now = s.now := rfl
@[simp] theorem putAcu_regs (s : Block) (n a : Nat) (x : Acu) : (putAcu s n a x).regs = s.regs := rfl
@[simp] theorem putAcu_shadow (s : Block) (n a : Nat) (x : Acu) : (putAcu s n a x).shadow = s.shadow := rfl
@[simp] theorem putAcu_sealedRwl (s : Block) (n a : Nat) (x : Acu) : (putAcu s n a x).sealedRwl = s.sealedRwl := rfl
@[simp] theorem putAcu_shadowLate (s : Block) (n a : Nat) (x : Acu) : (putAcu s n a x).shadowLate = s.shadowLate := rfl
@[simp] theorem putAcu_sels (s : Block) (n a : Nat) (x : Acu) : (putAcu s n a x).sels = s.sels := rfl
@[simp] theorem putAcu_planes (s : Block) (n a : Nat) (x : Acu) : (putAcu s n a x).planes = s.planes := rfl
@[simp] theorem putAcu_pes (s : Block) (n a : Nat) (x : Acu) : (putAcu s n a x).pes = s.pes := rfl
@[simp] theorem putAcu_stores (s : Block) (n a : Nat) (x : Acu) : (putAcu s n a x).stores = s.stores := rfl
@[simp] theorem putAcu_bstores (s : Block) (n a : Nat) (x : Acu) : (putAcu s n a x).bstores = s.bstores := rfl
@[simp] theorem putAcu_dispCopy (s : Block) (n a : Nat) (x : Acu) : (putAcu s n a x).dispCopy = s.dispCopy := rfl
@[simp] theorem putAcu_tiles (s : Block) (n a : Nat) (x : Acu) : (putAcu s n a x).tiles = s.tiles := rfl
@[simp] theorem putAcu_gangs (s : Block) (n a : Nat) (x : Acu) : (putAcu s n a x).gangs = s.gangs := rfl
@[simp] theorem putAcu_insps (s : Block) (n a : Nat) (x : Acu) : (putAcu s n a x).insps = s.insps := rfl
@[simp] theorem putAcu_events (s : Block) (n a : Nat) (x : Acu) : (putAcu s n a x).events = s.events := rfl
@[simp] theorem putAcu_nodeTab (s : Block) (n a : Nat) (x : Acu) : (putAcu s n a x).nodeTab = s.nodeTab := rfl
@[simp] theorem putAcu_undefGen (s : Block) (n a : Nat) (x : Acu) : (putAcu s n a x).undefGen = s.undefGen := rfl
@[simp] theorem putAcu_latches (s : Block) (n a : Nat) (x : Acu) : (putAcu s n a x).latches = s.latches := rfl
@[simp] theorem putAcu_ports (s : Block) (n a : Nat) (x : Acu) : (putAcu s n a x).ports = s.ports := rfl
@[simp] theorem putAcu_pendSync (s : Block) (n a : Nat) (x : Acu) : (putAcu s n a x).pendSync = s.pendSync := rfl
@[simp] theorem putAcu_unmasked (s : Block) (n a : Nat) (x : Acu) : (putAcu s n a x).unmasked = s.unmasked := rfl
@[simp] theorem putAcu_pba (s : Block) (n a : Nat) (x : Acu) : (putAcu s n a x).pba = s.pba := rfl
@[simp] theorem putAcu_d3hot (s : Block) (n a : Nat) (x : Acu) : (putAcu s n a x).d3hot = s.d3hot := rfl
@[simp] theorem putAcu_msgs (s : Block) (n a : Nat) (x : Acu) : (putAcu s n a x).msgs = s.msgs := rfl
@[simp] theorem putAcu_tasks (s : Block) (n a : Nat) (x : Acu) : (putAcu s n a x).tasks = s.tasks := rfl
@[simp] theorem putAcu_stg (s : Block) (n a : Nat) (x : Acu) : (putAcu s n a x).stg = s.stg := rfl
@[simp] theorem putAcu_record (s : Block) (n a : Nat) (x : Acu) : (putAcu s n a x).record = s.record := rfl
@[simp] theorem putAcu_lram (s : Block) (n a : Nat) (x : Acu) : (putAcu s n a x).lram = s.lram := rfl
@[simp] theorem putAcu_stgHeld (s : Block) (n a : Nat) (x : Acu) : (putAcu s n a x).stgHeld = s.stgHeld := rfl
@[simp] theorem putAcu_trigGone (s : Block) (n a : Nat) (x : Acu) : (putAcu s n a x).trigGone = s.trigGone := rfl
@[simp] theorem putAcu_recCursor (s : Block) (n a : Nat) (x : Acu) : (putAcu s n a x).recCursor = s.recCursor := rfl
@[simp] theorem putAcu_rsps (s : Block) (n a : Nat) (x : Acu) : (putAcu s n a x).rsps = s.rsps := rfl
@[simp] theorem putAcu_fsrcs (s : Block) (n a : Nat) (x : Acu) : (putAcu s n a x).fsrcs = s.fsrcs := rfl
@[simp] theorem putAcu_fltRing (s : Block) (n a : Nat) (x : Acu) : (putAcu s n a x).fltRing = s.fltRing := rfl
@[simp] theorem putAcu_quiets (s : Block) (n a : Nat) (x : Acu) : (putAcu s n a x).quiets = s.quiets := rfl
@[simp] theorem putAcu_hostMem (s : Block) (n a : Nat) (x : Acu) : (putAcu s n a x).hostMem = s.hostMem := rfl
@[simp] theorem putAcu_logs (s : Block) (n a : Nat) (x : Acu) : (putAcu s n a x).logs = s.logs := rfl
@[simp] theorem putAcu_drvs (s : Block) (n a : Nat) (x : Acu) : (putAcu s n a x).drvs = s.drvs := rfl
@[simp] theorem putAcu_sent (s : Block) (n a : Nat) (x : Acu) : (putAcu s n a x).sent = s.sent := rfl
@[simp] theorem putAcu_lanes (s : Block) (n a : Nat) (x : Acu) : (putAcu s n a x).lanes = s.lanes := rfl
@[simp] theorem putAcu_jlinks (s : Block) (n a : Nat) (x : Acu) : (putAcu s n a x).jlinks = s.jlinks := rfl
@[simp] theorem putAcu_sysref (s : Block) (n a : Nat) (x : Acu) : (putAcu s n a x).sysref = s.sysref := rfl
@[simp] theorem putAcu_chans (s : Block) (n a : Nat) (x : Acu) : (putAcu s n a x).chans = s.chans := rfl
@[simp] theorem putAcu_strms (s : Block) (n a : Nat) (x : Acu) : (putAcu s n a x).strms = s.strms := rfl
@[simp] theorem putAcu_gkoOut (s : Block) (n a : Nat) (x : Acu) : (putAcu s n a x).gkoOut = s.gkoOut := rfl
@[simp] theorem putAcu_wslOut (s : Block) (n a : Nat) (x : Acu) : (putAcu s n a x).wslOut = s.wslOut := rfl
@[simp] theorem putAcu_ctlIn (s : Block) (n a : Nat) (x : Acu) : (putAcu s n a x).ctlIn = s.ctlIn := rfl
@[simp] theorem putAcu_rawIn (s : Block) (n a : Nat) (x : Acu) : (putAcu s n a x).rawIn = s.rawIn := rfl
@[simp] theorem putAcu_rawOut (s : Block) (n a : Nat) (x : Acu) : (putAcu s n a x).rawOut = s.rawOut := rfl
@[simp] theorem putAcu_regions (s : Block) (n a : Nat) (x : Acu) : (putAcu s n a x).regions = s.regions := rfl
@[simp] theorem putAcu_caps (s : Block) (n a : Nat) (x : Acu) : (putAcu s n a x).caps = s.caps := rfl
@[simp] theorem putAcu_loads (s : Block) (n a : Nat) (x : Acu) : (putAcu s n a x).loads = s.loads := rfl
@[simp] theorem putAcu_gkoIn (s : Block) (n a : Nat) (x : Acu) : (putAcu s n a x).gkoIn = s.gkoIn := rfl
@[simp] theorem putAcu_contAt (s : Block) (n a : Nat) (x : Acu) : (putAcu s n a x).contAt = s.contAt := rfl
@[simp] theorem putAcu_pins (s : Block) (n a : Nat) (x : Acu) : (putAcu s n a x).pins = s.pins := rfl
@[simp] theorem putAcu_gkoWin (s : Block) (n a : Nat) (x : Acu) : (putAcu s n a x).gkoWin = s.gkoWin := rfl
@[simp] theorem putAcu_flight (s : Block) (n a : Nat) (x : Acu) : (putAcu s n a x).flight = s.flight := rfl
@[simp] theorem putAcu_doneCids (s : Block) (n a : Nat) (x : Acu) : (putAcu s n a x).doneCids = s.doneCids := rfl
@[simp] theorem putAcu_phases (s : Block) (n a : Nat) (x : Acu) : (putAcu s n a x).phases = s.phases := rfl
@[simp] theorem putAcu_lastQueue (s : Block) (n a : Nat) (x : Acu) : (putAcu s n a x).lastQueue = s.lastQueue := rfl
@[simp] theorem putAcu_cmdSets (s : Block) (n a : Nat) (x : Acu) : (putAcu s n a x).cmdSets = s.cmdSets := rfl
@[simp] theorem putAcu_cmdSealed (s : Block) (n a : Nat) (x : Acu) : (putAcu s n a x).cmdSealed = s.cmdSealed := rfl
@[simp] theorem putAcu_commit (s : Block) (n a : Nat) (x : Acu) : (putAcu s n a x).commit = s.commit := rfl
@[simp] theorem putAcu_heldBounds (s : Block) (n a : Nat) (x : Acu) : (putAcu s n a x).heldBounds = s.heldBounds := rfl
@[simp] theorem putAcu_lastBound (s : Block) (n a : Nat) (x : Acu) : (putAcu s n a x).lastBound = s.lastBound := rfl
@[simp] theorem putAcu_weirs (s : Block) (n a : Nat) (x : Acu) : (putAcu s n a x).weirs = s.weirs := rfl
@[simp] theorem putAcu_pubReady (s : Block) (n a : Nat) (x : Acu) : (putAcu s n a x).pubReady = s.pubReady := rfl
@[simp] theorem putAcu_tabNext (s : Block) (n a : Nat) (x : Acu) : (putAcu s n a x).tabNext = s.tabNext := rfl
@[simp] theorem putAcu_snaps (s : Block) (n a : Nat) (x : Acu) : (putAcu s n a x).snaps = s.snaps := rfl
@[simp] theorem putAcu_chrTab (s : Block) (n a : Nat) (x : Acu) : (putAcu s n a x).chrTab = s.chrTab := rfl
@[simp] theorem putAcu_chrWaiting (s : Block) (n a : Nat) (x : Acu) : (putAcu s n a x).chrWaiting = s.chrWaiting := rfl
@[simp] theorem putAcu_posHeld (s : Block) (n a : Nat) (x : Acu) : (putAcu s n a x).posHeld = s.posHeld := rfl
@[simp] theorem putAcu_fenced (s : Block) (n a : Nat) (x : Acu) : (putAcu s n a x).fenced = s.fenced := rfl
@[simp] theorem putAcu_wrapDim (s : Block) (n a : Nat) (x : Acu) : (putAcu s n a x).wrapDim = s.wrapDim := rfl
@[simp] theorem putAcu_lostSerials (s : Block) (n a : Nat) (x : Acu) : (putAcu s n a x).lostSerials = s.lostSerials := rfl
@[simp] theorem putAcu_rescanned (s : Block) (n a : Nat) (x : Acu) : (putAcu s n a x).rescanned = s.rescanned := rfl
@[simp] theorem putAcu_splits (s : Block) (n a : Nat) (x : Acu) : (putAcu s n a x).splits = s.splits := rfl
@[simp] theorem putAcu_links (s : Block) (n a : Nat) (x : Acu) : (putAcu s n a x).links = s.links := rfl
@[simp] theorem putAcu_pairQ (s : Block) (n a : Nat) (x : Acu) : (putAcu s n a x).pairQ = s.pairQ := rfl
@[simp] theorem putAcu_callsOut (s : Block) (n a : Nat) (x : Acu) : (putAcu s n a x).callsOut = s.callsOut := rfl
@[simp] theorem putAcu_calledAt (s : Block) (n a : Nat) (x : Acu) : (putAcu s n a x).calledAt = s.calledAt := rfl
@[simp] theorem putAcu_unlockAt (s : Block) (n a : Nat) (x : Acu) : (putAcu s n a x).unlockAt = s.unlockAt := rfl
@[simp] theorem putAcu_pcieUp (s : Block) (n a : Nat) (x : Acu) : (putAcu s n a x).pcieUp = s.pcieUp := rfl
@[simp] theorem putAcu_pows (s : Block) (n a : Nat) (x : Acu) : (putAcu s n a x).pows = s.pows := rfl
@[simp] theorem putAcu_tims (s : Block) (n a : Nat) (x : Acu) : (putAcu s n a x).tims = s.tims := rfl
@[simp] theorem putAcu_islands (s : Block) (n a : Nat) (x : Acu) : (putAcu s n a x).islands = s.islands := rfl
@[simp] theorem putAcu_timLatch (s : Block) (n a : Nat) (x : Acu) : (putAcu s n a x).timLatch = s.timLatch := rfl
@[simp] theorem putAcu_pulses (s : Block) (n a : Nat) (x : Acu) : (putAcu s n a x).pulses = s.pulses := rfl
@[simp] theorem putAcu_nvs (s : Block) (n a : Nat) (x : Acu) : (putAcu s n a x).nvs = s.nvs := rfl
@[simp] theorem putAcu_slots (s : Block) (n a : Nat) (x : Acu) : (putAcu s n a x).slots = s.slots := rfl
@[simp] theorem putAcu_outReqs (s : Block) (n a : Nat) (x : Acu) : (putAcu s n a x).outReqs = s.outReqs := rfl
@[simp] theorem putAcu_heldReqs (s : Block) (n a : Nat) (x : Acu) : (putAcu s n a x).heldReqs = s.heldReqs := rfl
@[simp] theorem putAcu_tlpQ (s : Block) (n a : Nat) (x : Acu) : (putAcu s n a x).tlpQ = s.tlpQ := rfl
@[simp] theorem putAcu_rspFlits (s : Block) (n a : Nat) (x : Acu) : (putAcu s n a x).rspFlits = s.rspFlits := rfl
@[simp] theorem putAcu_snoopAcks (s : Block) (n a : Nat) (x : Acu) : (putAcu s n a x).snoopAcks = s.snoopAcks := rfl
@[simp] theorem putAcu_routers (s : Block) (n a : Nat) (x : Acu) : (putAcu s n a x).routers = s.routers := rfl
@[simp] theorem putAcu_fwds (s : Block) (n a : Nat) (x : Acu) : (putAcu s n a x).fwds = s.fwds := rfl
@[simp] theorem putAcu_msixTab (s : Block) (n a : Nat) (x : Acu) : (putAcu s n a x).msixTab = s.msixTab := rfl

/-! ### putPow -/

@[simp] theorem putPow_freeCtr (s : Block) (n : Nat) (x : PowSt) : (putPow s n x).freeCtr = s.freeCtr := rfl
@[simp] theorem putPow_now (s : Block) (n : Nat) (x : PowSt) : (putPow s n x).now = s.now := rfl
@[simp] theorem putPow_regs (s : Block) (n : Nat) (x : PowSt) : (putPow s n x).regs = s.regs := rfl
@[simp] theorem putPow_shadow (s : Block) (n : Nat) (x : PowSt) : (putPow s n x).shadow = s.shadow := rfl
@[simp] theorem putPow_sealedRwl (s : Block) (n : Nat) (x : PowSt) : (putPow s n x).sealedRwl = s.sealedRwl := rfl
@[simp] theorem putPow_shadowLate (s : Block) (n : Nat) (x : PowSt) : (putPow s n x).shadowLate = s.shadowLate := rfl
@[simp] theorem putPow_sels (s : Block) (n : Nat) (x : PowSt) : (putPow s n x).sels = s.sels := rfl
@[simp] theorem putPow_planes (s : Block) (n : Nat) (x : PowSt) : (putPow s n x).planes = s.planes := rfl
@[simp] theorem putPow_pes (s : Block) (n : Nat) (x : PowSt) : (putPow s n x).pes = s.pes := rfl
@[simp] theorem putPow_stores (s : Block) (n : Nat) (x : PowSt) : (putPow s n x).stores = s.stores := rfl
@[simp] theorem putPow_bstores (s : Block) (n : Nat) (x : PowSt) : (putPow s n x).bstores = s.bstores := rfl
@[simp] theorem putPow_dispCopy (s : Block) (n : Nat) (x : PowSt) : (putPow s n x).dispCopy = s.dispCopy := rfl
@[simp] theorem putPow_tiles (s : Block) (n : Nat) (x : PowSt) : (putPow s n x).tiles = s.tiles := rfl
@[simp] theorem putPow_gangs (s : Block) (n : Nat) (x : PowSt) : (putPow s n x).gangs = s.gangs := rfl
@[simp] theorem putPow_insps (s : Block) (n : Nat) (x : PowSt) : (putPow s n x).insps = s.insps := rfl
@[simp] theorem putPow_events (s : Block) (n : Nat) (x : PowSt) : (putPow s n x).events = s.events := rfl
@[simp] theorem putPow_nodeTab (s : Block) (n : Nat) (x : PowSt) : (putPow s n x).nodeTab = s.nodeTab := rfl
@[simp] theorem putPow_undefGen (s : Block) (n : Nat) (x : PowSt) : (putPow s n x).undefGen = s.undefGen := rfl
@[simp] theorem putPow_latches (s : Block) (n : Nat) (x : PowSt) : (putPow s n x).latches = s.latches := rfl
@[simp] theorem putPow_ports (s : Block) (n : Nat) (x : PowSt) : (putPow s n x).ports = s.ports := rfl
@[simp] theorem putPow_pendSync (s : Block) (n : Nat) (x : PowSt) : (putPow s n x).pendSync = s.pendSync := rfl
@[simp] theorem putPow_unmasked (s : Block) (n : Nat) (x : PowSt) : (putPow s n x).unmasked = s.unmasked := rfl
@[simp] theorem putPow_pba (s : Block) (n : Nat) (x : PowSt) : (putPow s n x).pba = s.pba := rfl
@[simp] theorem putPow_d3hot (s : Block) (n : Nat) (x : PowSt) : (putPow s n x).d3hot = s.d3hot := rfl
@[simp] theorem putPow_msgs (s : Block) (n : Nat) (x : PowSt) : (putPow s n x).msgs = s.msgs := rfl
@[simp] theorem putPow_tasks (s : Block) (n : Nat) (x : PowSt) : (putPow s n x).tasks = s.tasks := rfl
@[simp] theorem putPow_acus (s : Block) (n : Nat) (x : PowSt) : (putPow s n x).acus = s.acus := rfl
@[simp] theorem putPow_stg (s : Block) (n : Nat) (x : PowSt) : (putPow s n x).stg = s.stg := rfl
@[simp] theorem putPow_record (s : Block) (n : Nat) (x : PowSt) : (putPow s n x).record = s.record := rfl
@[simp] theorem putPow_lram (s : Block) (n : Nat) (x : PowSt) : (putPow s n x).lram = s.lram := rfl
@[simp] theorem putPow_stgHeld (s : Block) (n : Nat) (x : PowSt) : (putPow s n x).stgHeld = s.stgHeld := rfl
@[simp] theorem putPow_trigGone (s : Block) (n : Nat) (x : PowSt) : (putPow s n x).trigGone = s.trigGone := rfl
@[simp] theorem putPow_recCursor (s : Block) (n : Nat) (x : PowSt) : (putPow s n x).recCursor = s.recCursor := rfl
@[simp] theorem putPow_rsps (s : Block) (n : Nat) (x : PowSt) : (putPow s n x).rsps = s.rsps := rfl
@[simp] theorem putPow_fsrcs (s : Block) (n : Nat) (x : PowSt) : (putPow s n x).fsrcs = s.fsrcs := rfl
@[simp] theorem putPow_fltRing (s : Block) (n : Nat) (x : PowSt) : (putPow s n x).fltRing = s.fltRing := rfl
@[simp] theorem putPow_quiets (s : Block) (n : Nat) (x : PowSt) : (putPow s n x).quiets = s.quiets := rfl
@[simp] theorem putPow_hostMem (s : Block) (n : Nat) (x : PowSt) : (putPow s n x).hostMem = s.hostMem := rfl
@[simp] theorem putPow_logs (s : Block) (n : Nat) (x : PowSt) : (putPow s n x).logs = s.logs := rfl
@[simp] theorem putPow_drvs (s : Block) (n : Nat) (x : PowSt) : (putPow s n x).drvs = s.drvs := rfl
@[simp] theorem putPow_sent (s : Block) (n : Nat) (x : PowSt) : (putPow s n x).sent = s.sent := rfl
@[simp] theorem putPow_lanes (s : Block) (n : Nat) (x : PowSt) : (putPow s n x).lanes = s.lanes := rfl
@[simp] theorem putPow_jlinks (s : Block) (n : Nat) (x : PowSt) : (putPow s n x).jlinks = s.jlinks := rfl
@[simp] theorem putPow_sysref (s : Block) (n : Nat) (x : PowSt) : (putPow s n x).sysref = s.sysref := rfl
@[simp] theorem putPow_chans (s : Block) (n : Nat) (x : PowSt) : (putPow s n x).chans = s.chans := rfl
@[simp] theorem putPow_strms (s : Block) (n : Nat) (x : PowSt) : (putPow s n x).strms = s.strms := rfl
@[simp] theorem putPow_gkoOut (s : Block) (n : Nat) (x : PowSt) : (putPow s n x).gkoOut = s.gkoOut := rfl
@[simp] theorem putPow_wslOut (s : Block) (n : Nat) (x : PowSt) : (putPow s n x).wslOut = s.wslOut := rfl
@[simp] theorem putPow_ctlIn (s : Block) (n : Nat) (x : PowSt) : (putPow s n x).ctlIn = s.ctlIn := rfl
@[simp] theorem putPow_rawIn (s : Block) (n : Nat) (x : PowSt) : (putPow s n x).rawIn = s.rawIn := rfl
@[simp] theorem putPow_rawOut (s : Block) (n : Nat) (x : PowSt) : (putPow s n x).rawOut = s.rawOut := rfl
@[simp] theorem putPow_regions (s : Block) (n : Nat) (x : PowSt) : (putPow s n x).regions = s.regions := rfl
@[simp] theorem putPow_caps (s : Block) (n : Nat) (x : PowSt) : (putPow s n x).caps = s.caps := rfl
@[simp] theorem putPow_loads (s : Block) (n : Nat) (x : PowSt) : (putPow s n x).loads = s.loads := rfl
@[simp] theorem putPow_gkoIn (s : Block) (n : Nat) (x : PowSt) : (putPow s n x).gkoIn = s.gkoIn := rfl
@[simp] theorem putPow_contAt (s : Block) (n : Nat) (x : PowSt) : (putPow s n x).contAt = s.contAt := rfl
@[simp] theorem putPow_pins (s : Block) (n : Nat) (x : PowSt) : (putPow s n x).pins = s.pins := rfl
@[simp] theorem putPow_gkoWin (s : Block) (n : Nat) (x : PowSt) : (putPow s n x).gkoWin = s.gkoWin := rfl
@[simp] theorem putPow_flight (s : Block) (n : Nat) (x : PowSt) : (putPow s n x).flight = s.flight := rfl
@[simp] theorem putPow_doneCids (s : Block) (n : Nat) (x : PowSt) : (putPow s n x).doneCids = s.doneCids := rfl
@[simp] theorem putPow_phases (s : Block) (n : Nat) (x : PowSt) : (putPow s n x).phases = s.phases := rfl
@[simp] theorem putPow_lastQueue (s : Block) (n : Nat) (x : PowSt) : (putPow s n x).lastQueue = s.lastQueue := rfl
@[simp] theorem putPow_cmdSets (s : Block) (n : Nat) (x : PowSt) : (putPow s n x).cmdSets = s.cmdSets := rfl
@[simp] theorem putPow_cmdSealed (s : Block) (n : Nat) (x : PowSt) : (putPow s n x).cmdSealed = s.cmdSealed := rfl
@[simp] theorem putPow_commit (s : Block) (n : Nat) (x : PowSt) : (putPow s n x).commit = s.commit := rfl
@[simp] theorem putPow_heldBounds (s : Block) (n : Nat) (x : PowSt) : (putPow s n x).heldBounds = s.heldBounds := rfl
@[simp] theorem putPow_lastBound (s : Block) (n : Nat) (x : PowSt) : (putPow s n x).lastBound = s.lastBound := rfl
@[simp] theorem putPow_weirs (s : Block) (n : Nat) (x : PowSt) : (putPow s n x).weirs = s.weirs := rfl
@[simp] theorem putPow_pubReady (s : Block) (n : Nat) (x : PowSt) : (putPow s n x).pubReady = s.pubReady := rfl
@[simp] theorem putPow_tabNext (s : Block) (n : Nat) (x : PowSt) : (putPow s n x).tabNext = s.tabNext := rfl
@[simp] theorem putPow_snaps (s : Block) (n : Nat) (x : PowSt) : (putPow s n x).snaps = s.snaps := rfl
@[simp] theorem putPow_chrTab (s : Block) (n : Nat) (x : PowSt) : (putPow s n x).chrTab = s.chrTab := rfl
@[simp] theorem putPow_chrWaiting (s : Block) (n : Nat) (x : PowSt) : (putPow s n x).chrWaiting = s.chrWaiting := rfl
@[simp] theorem putPow_posHeld (s : Block) (n : Nat) (x : PowSt) : (putPow s n x).posHeld = s.posHeld := rfl
@[simp] theorem putPow_fenced (s : Block) (n : Nat) (x : PowSt) : (putPow s n x).fenced = s.fenced := rfl
@[simp] theorem putPow_wrapDim (s : Block) (n : Nat) (x : PowSt) : (putPow s n x).wrapDim = s.wrapDim := rfl
@[simp] theorem putPow_lostSerials (s : Block) (n : Nat) (x : PowSt) : (putPow s n x).lostSerials = s.lostSerials := rfl
@[simp] theorem putPow_rescanned (s : Block) (n : Nat) (x : PowSt) : (putPow s n x).rescanned = s.rescanned := rfl
@[simp] theorem putPow_splits (s : Block) (n : Nat) (x : PowSt) : (putPow s n x).splits = s.splits := rfl
@[simp] theorem putPow_links (s : Block) (n : Nat) (x : PowSt) : (putPow s n x).links = s.links := rfl
@[simp] theorem putPow_pairQ (s : Block) (n : Nat) (x : PowSt) : (putPow s n x).pairQ = s.pairQ := rfl
@[simp] theorem putPow_callsOut (s : Block) (n : Nat) (x : PowSt) : (putPow s n x).callsOut = s.callsOut := rfl
@[simp] theorem putPow_calledAt (s : Block) (n : Nat) (x : PowSt) : (putPow s n x).calledAt = s.calledAt := rfl
@[simp] theorem putPow_unlockAt (s : Block) (n : Nat) (x : PowSt) : (putPow s n x).unlockAt = s.unlockAt := rfl
@[simp] theorem putPow_pcieUp (s : Block) (n : Nat) (x : PowSt) : (putPow s n x).pcieUp = s.pcieUp := rfl
@[simp] theorem putPow_tims (s : Block) (n : Nat) (x : PowSt) : (putPow s n x).tims = s.tims := rfl
@[simp] theorem putPow_islands (s : Block) (n : Nat) (x : PowSt) : (putPow s n x).islands = s.islands := rfl
@[simp] theorem putPow_timLatch (s : Block) (n : Nat) (x : PowSt) : (putPow s n x).timLatch = s.timLatch := rfl
@[simp] theorem putPow_pulses (s : Block) (n : Nat) (x : PowSt) : (putPow s n x).pulses = s.pulses := rfl
@[simp] theorem putPow_nvs (s : Block) (n : Nat) (x : PowSt) : (putPow s n x).nvs = s.nvs := rfl
@[simp] theorem putPow_slots (s : Block) (n : Nat) (x : PowSt) : (putPow s n x).slots = s.slots := rfl
@[simp] theorem putPow_outReqs (s : Block) (n : Nat) (x : PowSt) : (putPow s n x).outReqs = s.outReqs := rfl
@[simp] theorem putPow_heldReqs (s : Block) (n : Nat) (x : PowSt) : (putPow s n x).heldReqs = s.heldReqs := rfl
@[simp] theorem putPow_tlpQ (s : Block) (n : Nat) (x : PowSt) : (putPow s n x).tlpQ = s.tlpQ := rfl
@[simp] theorem putPow_rspFlits (s : Block) (n : Nat) (x : PowSt) : (putPow s n x).rspFlits = s.rspFlits := rfl
@[simp] theorem putPow_snoopAcks (s : Block) (n : Nat) (x : PowSt) : (putPow s n x).snoopAcks = s.snoopAcks := rfl
@[simp] theorem putPow_routers (s : Block) (n : Nat) (x : PowSt) : (putPow s n x).routers = s.routers := rfl
@[simp] theorem putPow_fwds (s : Block) (n : Nat) (x : PowSt) : (putPow s n x).fwds = s.fwds := rfl
@[simp] theorem putPow_msixTab (s : Block) (n : Nat) (x : PowSt) : (putPow s n x).msixTab = s.msixTab := rfl

/-! ### raise -/

@[simp] theorem raise_freeCtr (s : Block) (n r i d : Nat) : (raise s n r i d).freeCtr = s.freeCtr := rfl
@[simp] theorem raise_now (s : Block) (n r i d : Nat) : (raise s n r i d).now = s.now := rfl
@[simp] theorem raise_regs (s : Block) (n r i d : Nat) : (raise s n r i d).regs = s.regs := rfl
@[simp] theorem raise_shadow (s : Block) (n r i d : Nat) : (raise s n r i d).shadow = s.shadow := rfl
@[simp] theorem raise_sealedRwl (s : Block) (n r i d : Nat) : (raise s n r i d).sealedRwl = s.sealedRwl := rfl
@[simp] theorem raise_shadowLate (s : Block) (n r i d : Nat) : (raise s n r i d).shadowLate = s.shadowLate := rfl
@[simp] theorem raise_sels (s : Block) (n r i d : Nat) : (raise s n r i d).sels = s.sels := rfl
@[simp] theorem raise_planes (s : Block) (n r i d : Nat) : (raise s n r i d).planes = s.planes := rfl
@[simp] theorem raise_pes (s : Block) (n r i d : Nat) : (raise s n r i d).pes = s.pes := rfl
@[simp] theorem raise_stores (s : Block) (n r i d : Nat) : (raise s n r i d).stores = s.stores := rfl
@[simp] theorem raise_bstores (s : Block) (n r i d : Nat) : (raise s n r i d).bstores = s.bstores := rfl
@[simp] theorem raise_dispCopy (s : Block) (n r i d : Nat) : (raise s n r i d).dispCopy = s.dispCopy := rfl
@[simp] theorem raise_tiles (s : Block) (n r i d : Nat) : (raise s n r i d).tiles = s.tiles := rfl
@[simp] theorem raise_gangs (s : Block) (n r i d : Nat) : (raise s n r i d).gangs = s.gangs := rfl
@[simp] theorem raise_insps (s : Block) (n r i d : Nat) : (raise s n r i d).insps = s.insps := rfl
@[simp] theorem raise_nodeTab (s : Block) (n r i d : Nat) : (raise s n r i d).nodeTab = s.nodeTab := rfl
@[simp] theorem raise_undefGen (s : Block) (n r i d : Nat) : (raise s n r i d).undefGen = s.undefGen := rfl
@[simp] theorem raise_latches (s : Block) (n r i d : Nat) : (raise s n r i d).latches = s.latches := rfl
@[simp] theorem raise_ports (s : Block) (n r i d : Nat) : (raise s n r i d).ports = s.ports := rfl
@[simp] theorem raise_pendSync (s : Block) (n r i d : Nat) : (raise s n r i d).pendSync = s.pendSync := rfl
@[simp] theorem raise_unmasked (s : Block) (n r i d : Nat) : (raise s n r i d).unmasked = s.unmasked := rfl
@[simp] theorem raise_pba (s : Block) (n r i d : Nat) : (raise s n r i d).pba = s.pba := rfl
@[simp] theorem raise_d3hot (s : Block) (n r i d : Nat) : (raise s n r i d).d3hot = s.d3hot := rfl
@[simp] theorem raise_msgs (s : Block) (n r i d : Nat) : (raise s n r i d).msgs = s.msgs := rfl
@[simp] theorem raise_tasks (s : Block) (n r i d : Nat) : (raise s n r i d).tasks = s.tasks := rfl
@[simp] theorem raise_acus (s : Block) (n r i d : Nat) : (raise s n r i d).acus = s.acus := rfl
@[simp] theorem raise_stg (s : Block) (n r i d : Nat) : (raise s n r i d).stg = s.stg := rfl
@[simp] theorem raise_record (s : Block) (n r i d : Nat) : (raise s n r i d).record = s.record := rfl
@[simp] theorem raise_lram (s : Block) (n r i d : Nat) : (raise s n r i d).lram = s.lram := rfl
@[simp] theorem raise_stgHeld (s : Block) (n r i d : Nat) : (raise s n r i d).stgHeld = s.stgHeld := rfl
@[simp] theorem raise_trigGone (s : Block) (n r i d : Nat) : (raise s n r i d).trigGone = s.trigGone := rfl
@[simp] theorem raise_recCursor (s : Block) (n r i d : Nat) : (raise s n r i d).recCursor = s.recCursor := rfl
@[simp] theorem raise_rsps (s : Block) (n r i d : Nat) : (raise s n r i d).rsps = s.rsps := rfl
@[simp] theorem raise_fsrcs (s : Block) (n r i d : Nat) : (raise s n r i d).fsrcs = s.fsrcs := rfl
@[simp] theorem raise_fltRing (s : Block) (n r i d : Nat) : (raise s n r i d).fltRing = s.fltRing := rfl
@[simp] theorem raise_quiets (s : Block) (n r i d : Nat) : (raise s n r i d).quiets = s.quiets := rfl
@[simp] theorem raise_hostMem (s : Block) (n r i d : Nat) : (raise s n r i d).hostMem = s.hostMem := rfl
@[simp] theorem raise_logs (s : Block) (n r i d : Nat) : (raise s n r i d).logs = s.logs := rfl
@[simp] theorem raise_drvs (s : Block) (n r i d : Nat) : (raise s n r i d).drvs = s.drvs := rfl
@[simp] theorem raise_sent (s : Block) (n r i d : Nat) : (raise s n r i d).sent = s.sent := rfl
@[simp] theorem raise_lanes (s : Block) (n r i d : Nat) : (raise s n r i d).lanes = s.lanes := rfl
@[simp] theorem raise_jlinks (s : Block) (n r i d : Nat) : (raise s n r i d).jlinks = s.jlinks := rfl
@[simp] theorem raise_sysref (s : Block) (n r i d : Nat) : (raise s n r i d).sysref = s.sysref := rfl
@[simp] theorem raise_chans (s : Block) (n r i d : Nat) : (raise s n r i d).chans = s.chans := rfl
@[simp] theorem raise_strms (s : Block) (n r i d : Nat) : (raise s n r i d).strms = s.strms := rfl
@[simp] theorem raise_gkoOut (s : Block) (n r i d : Nat) : (raise s n r i d).gkoOut = s.gkoOut := rfl
@[simp] theorem raise_wslOut (s : Block) (n r i d : Nat) : (raise s n r i d).wslOut = s.wslOut := rfl
@[simp] theorem raise_ctlIn (s : Block) (n r i d : Nat) : (raise s n r i d).ctlIn = s.ctlIn := rfl
@[simp] theorem raise_rawIn (s : Block) (n r i d : Nat) : (raise s n r i d).rawIn = s.rawIn := rfl
@[simp] theorem raise_rawOut (s : Block) (n r i d : Nat) : (raise s n r i d).rawOut = s.rawOut := rfl
@[simp] theorem raise_regions (s : Block) (n r i d : Nat) : (raise s n r i d).regions = s.regions := rfl
@[simp] theorem raise_caps (s : Block) (n r i d : Nat) : (raise s n r i d).caps = s.caps := rfl
@[simp] theorem raise_loads (s : Block) (n r i d : Nat) : (raise s n r i d).loads = s.loads := rfl
@[simp] theorem raise_gkoIn (s : Block) (n r i d : Nat) : (raise s n r i d).gkoIn = s.gkoIn := rfl
@[simp] theorem raise_contAt (s : Block) (n r i d : Nat) : (raise s n r i d).contAt = s.contAt := rfl
@[simp] theorem raise_pins (s : Block) (n r i d : Nat) : (raise s n r i d).pins = s.pins := rfl
@[simp] theorem raise_gkoWin (s : Block) (n r i d : Nat) : (raise s n r i d).gkoWin = s.gkoWin := rfl
@[simp] theorem raise_flight (s : Block) (n r i d : Nat) : (raise s n r i d).flight = s.flight := rfl
@[simp] theorem raise_doneCids (s : Block) (n r i d : Nat) : (raise s n r i d).doneCids = s.doneCids := rfl
@[simp] theorem raise_phases (s : Block) (n r i d : Nat) : (raise s n r i d).phases = s.phases := rfl
@[simp] theorem raise_lastQueue (s : Block) (n r i d : Nat) : (raise s n r i d).lastQueue = s.lastQueue := rfl
@[simp] theorem raise_cmdSets (s : Block) (n r i d : Nat) : (raise s n r i d).cmdSets = s.cmdSets := rfl
@[simp] theorem raise_cmdSealed (s : Block) (n r i d : Nat) : (raise s n r i d).cmdSealed = s.cmdSealed := rfl
@[simp] theorem raise_commit (s : Block) (n r i d : Nat) : (raise s n r i d).commit = s.commit := rfl
@[simp] theorem raise_heldBounds (s : Block) (n r i d : Nat) : (raise s n r i d).heldBounds = s.heldBounds := rfl
@[simp] theorem raise_lastBound (s : Block) (n r i d : Nat) : (raise s n r i d).lastBound = s.lastBound := rfl
@[simp] theorem raise_weirs (s : Block) (n r i d : Nat) : (raise s n r i d).weirs = s.weirs := rfl
@[simp] theorem raise_pubReady (s : Block) (n r i d : Nat) : (raise s n r i d).pubReady = s.pubReady := rfl
@[simp] theorem raise_tabNext (s : Block) (n r i d : Nat) : (raise s n r i d).tabNext = s.tabNext := rfl
@[simp] theorem raise_snaps (s : Block) (n r i d : Nat) : (raise s n r i d).snaps = s.snaps := rfl
@[simp] theorem raise_chrTab (s : Block) (n r i d : Nat) : (raise s n r i d).chrTab = s.chrTab := rfl
@[simp] theorem raise_chrWaiting (s : Block) (n r i d : Nat) : (raise s n r i d).chrWaiting = s.chrWaiting := rfl
@[simp] theorem raise_posHeld (s : Block) (n r i d : Nat) : (raise s n r i d).posHeld = s.posHeld := rfl
@[simp] theorem raise_fenced (s : Block) (n r i d : Nat) : (raise s n r i d).fenced = s.fenced := rfl
@[simp] theorem raise_wrapDim (s : Block) (n r i d : Nat) : (raise s n r i d).wrapDim = s.wrapDim := rfl
@[simp] theorem raise_lostSerials (s : Block) (n r i d : Nat) : (raise s n r i d).lostSerials = s.lostSerials := rfl
@[simp] theorem raise_rescanned (s : Block) (n r i d : Nat) : (raise s n r i d).rescanned = s.rescanned := rfl
@[simp] theorem raise_splits (s : Block) (n r i d : Nat) : (raise s n r i d).splits = s.splits := rfl
@[simp] theorem raise_links (s : Block) (n r i d : Nat) : (raise s n r i d).links = s.links := rfl
@[simp] theorem raise_pairQ (s : Block) (n r i d : Nat) : (raise s n r i d).pairQ = s.pairQ := rfl
@[simp] theorem raise_callsOut (s : Block) (n r i d : Nat) : (raise s n r i d).callsOut = s.callsOut := rfl
@[simp] theorem raise_calledAt (s : Block) (n r i d : Nat) : (raise s n r i d).calledAt = s.calledAt := rfl
@[simp] theorem raise_unlockAt (s : Block) (n r i d : Nat) : (raise s n r i d).unlockAt = s.unlockAt := rfl
@[simp] theorem raise_pcieUp (s : Block) (n r i d : Nat) : (raise s n r i d).pcieUp = s.pcieUp := rfl
@[simp] theorem raise_pows (s : Block) (n r i d : Nat) : (raise s n r i d).pows = s.pows := rfl
@[simp] theorem raise_tims (s : Block) (n r i d : Nat) : (raise s n r i d).tims = s.tims := rfl
@[simp] theorem raise_islands (s : Block) (n r i d : Nat) : (raise s n r i d).islands = s.islands := rfl
@[simp] theorem raise_timLatch (s : Block) (n r i d : Nat) : (raise s n r i d).timLatch = s.timLatch := rfl
@[simp] theorem raise_pulses (s : Block) (n r i d : Nat) : (raise s n r i d).pulses = s.pulses := rfl
@[simp] theorem raise_nvs (s : Block) (n r i d : Nat) : (raise s n r i d).nvs = s.nvs := rfl
@[simp] theorem raise_slots (s : Block) (n r i d : Nat) : (raise s n r i d).slots = s.slots := rfl
@[simp] theorem raise_outReqs (s : Block) (n r i d : Nat) : (raise s n r i d).outReqs = s.outReqs := rfl
@[simp] theorem raise_heldReqs (s : Block) (n r i d : Nat) : (raise s n r i d).heldReqs = s.heldReqs := rfl
@[simp] theorem raise_tlpQ (s : Block) (n r i d : Nat) : (raise s n r i d).tlpQ = s.tlpQ := rfl
@[simp] theorem raise_rspFlits (s : Block) (n r i d : Nat) : (raise s n r i d).rspFlits = s.rspFlits := rfl
@[simp] theorem raise_snoopAcks (s : Block) (n r i d : Nat) : (raise s n r i d).snoopAcks = s.snoopAcks := rfl
@[simp] theorem raise_routers (s : Block) (n r i d : Nat) : (raise s n r i d).routers = s.routers := rfl
@[simp] theorem raise_fwds (s : Block) (n r i d : Nat) : (raise s n r i d).fwds = s.fwds := rfl
@[simp] theorem raise_msixTab (s : Block) (n r i d : Nat) : (raise s n r i d).msixTab = s.msixTab := rfl

/-! ### Registers under updates of other fields -/

@[simp] theorem rget_putTile (s : Block) (k : Nat) (x : Tile) (m : Nat) (q : Reg) (j : Nat) : rget (putTile s k x) m q j = rget s m q j := rfl
@[simp] theorem fget_putTile (s : Block) (k : Nat) (x : Tile) (m : Nat) (h : Fld) (j : Nat) : fget (putTile s k x) m h j = fget s m h j := rfl
@[simp] theorem fbit_putTile (s : Block) (k : Nat) (x : Tile) (m : Nat) (h : Fld) (j : Nat) : fbit (putTile s k x) m h j = fbit s m h j := rfl
@[simp] theorem rget_putGang (s : Block) (n g : Nat) (x : GangSt) (m : Nat) (q : Reg) (j : Nat) : rget (putGang s n g x) m q j = rget s m q j := rfl
@[simp] theorem fget_putGang (s : Block) (n g : Nat) (x : GangSt) (m : Nat) (h : Fld) (j : Nat) : fget (putGang s n g x) m h j = fget s m h j := rfl
@[simp] theorem fbit_putGang (s : Block) (n g : Nat) (x : GangSt) (m : Nat) (h : Fld) (j : Nat) : fbit (putGang s n g x) m h j = fbit s m h j := rfl
@[simp] theorem rget_putTask (s : Block) (k : Nat) (x : Task) (m : Nat) (q : Reg) (j : Nat) : rget (putTask s k x) m q j = rget s m q j := rfl
@[simp] theorem fget_putTask (s : Block) (k : Nat) (x : Task) (m : Nat) (h : Fld) (j : Nat) : fget (putTask s k x) m h j = fget s m h j := rfl
@[simp] theorem fbit_putTask (s : Block) (k : Nat) (x : Task) (m : Nat) (h : Fld) (j : Nat) : fbit (putTask s k x) m h j = fbit s m h j := rfl
@[simp] theorem rget_putAcu (s : Block) (n a : Nat) (x : Acu) (m : Nat) (q : Reg) (j : Nat) : rget (putAcu s n a x) m q j = rget s m q j := rfl
@[simp] theorem fget_putAcu (s : Block) (n a : Nat) (x : Acu) (m : Nat) (h : Fld) (j : Nat) : fget (putAcu s n a x) m h j = fget s m h j := rfl
@[simp] theorem fbit_putAcu (s : Block) (n a : Nat) (x : Acu) (m : Nat) (h : Fld) (j : Nat) : fbit (putAcu s n a x) m h j = fbit s m h j := rfl
@[simp] theorem rget_putPow (s : Block) (n : Nat) (x : PowSt) (m : Nat) (q : Reg) (j : Nat) : rget (putPow s n x) m q j = rget s m q j := rfl
@[simp] theorem fget_putPow (s : Block) (n : Nat) (x : PowSt) (m : Nat) (h : Fld) (j : Nat) : fget (putPow s n x) m h j = fget s m h j := rfl
@[simp] theorem fbit_putPow (s : Block) (n : Nat) (x : PowSt) (m : Nat) (h : Fld) (j : Nat) : fbit (putPow s n x) m h j = fbit s m h j := rfl
@[simp] theorem rget_raise (s : Block) (n r i d : Nat) (m : Nat) (q : Reg) (j : Nat) : rget (raise s n r i d) m q j = rget s m q j := rfl
@[simp] theorem fget_raise (s : Block) (n r i d : Nat) (m : Nat) (h : Fld) (j : Nat) : fget (raise s n r i d) m h j = fget s m h j := rfl
@[simp] theorem fbit_raise (s : Block) (n r i d : Nat) (m : Nat) (h : Fld) (j : Nat) : fbit (raise s n r i d) m h j = fbit s m h j := rfl
@[simp] theorem tile_rput (s : Block) (n : Nat) (r : Reg) (i : Nat) (w : Word) (j : Nat) : tile (rput s n r i w) j = tile s j := rfl
@[simp] theorem tile_fput (s : Block) (n : Nat) (f : Fld) (i v : Nat) (j : Nat) : tile (fput s n f i v) j = tile s j := rfl
@[simp] theorem tile_putGang (s : Block) (n g : Nat) (x : GangSt) (j : Nat) : tile (putGang s n g x) j = tile s j := rfl
@[simp] theorem tile_putTask (s : Block) (k : Nat) (x : Task) (j : Nat) : tile (putTask s k x) j = tile s j := rfl
@[simp] theorem tile_putAcu (s : Block) (n a : Nat) (x : Acu) (j : Nat) : tile (putAcu s n a x) j = tile s j := rfl
@[simp] theorem tile_putPow (s : Block) (n : Nat) (x : PowSt) (j : Nat) : tile (putPow s n x) j = tile s j := rfl
@[simp] theorem tile_raise (s : Block) (n r i d : Nat) (j : Nat) : tile (raise s n r i d) j = tile s j := rfl
@[simp] theorem gang_rput (s : Block) (n : Nat) (r : Reg) (i : Nat) (w : Word) (m j : Nat) : gang (rput s n r i w) m j = gang s m j := rfl
@[simp] theorem gang_fput (s : Block) (n : Nat) (f : Fld) (i v : Nat) (m j : Nat) : gang (fput s n f i v) m j = gang s m j := rfl
@[simp] theorem gang_putTile (s : Block) (k : Nat) (x : Tile) (m j : Nat) : gang (putTile s k x) m j = gang s m j := rfl
@[simp] theorem gang_putTask (s : Block) (k : Nat) (x : Task) (m j : Nat) : gang (putTask s k x) m j = gang s m j := rfl
@[simp] theorem gang_putAcu (s : Block) (n a : Nat) (x : Acu) (m j : Nat) : gang (putAcu s n a x) m j = gang s m j := rfl
@[simp] theorem gang_putPow (s : Block) (n : Nat) (x : PowSt) (m j : Nat) : gang (putPow s n x) m j = gang s m j := rfl
@[simp] theorem gang_raise (s : Block) (n r i d : Nat) (m j : Nat) : gang (raise s n r i d) m j = gang s m j := rfl
@[simp] theorem task_rput (s : Block) (n : Nat) (r : Reg) (i : Nat) (w : Word) (j : Nat) : task (rput s n r i w) j = task s j := rfl
@[simp] theorem task_fput (s : Block) (n : Nat) (f : Fld) (i v : Nat) (j : Nat) : task (fput s n f i v) j = task s j := rfl
@[simp] theorem task_putTile (s : Block) (k : Nat) (x : Tile) (j : Nat) : task (putTile s k x) j = task s j := rfl
@[simp] theorem task_putGang (s : Block) (n g : Nat) (x : GangSt) (j : Nat) : task (putGang s n g x) j = task s j := rfl
@[simp] theorem task_putAcu (s : Block) (n a : Nat) (x : Acu) (j : Nat) : task (putAcu s n a x) j = task s j := rfl
@[simp] theorem task_putPow (s : Block) (n : Nat) (x : PowSt) (j : Nat) : task (putPow s n x) j = task s j := rfl
@[simp] theorem task_raise (s : Block) (n r i d : Nat) (j : Nat) : task (raise s n r i d) j = task s j := rfl
@[simp] theorem acu_rput (s : Block) (n : Nat) (r : Reg) (i : Nat) (w : Word) (m j : Nat) : acu (rput s n r i w) m j = acu s m j := rfl
@[simp] theorem acu_fput (s : Block) (n : Nat) (f : Fld) (i v : Nat) (m j : Nat) : acu (fput s n f i v) m j = acu s m j := rfl
@[simp] theorem acu_putTile (s : Block) (k : Nat) (x : Tile) (m j : Nat) : acu (putTile s k x) m j = acu s m j := rfl
@[simp] theorem acu_putGang (s : Block) (n g : Nat) (x : GangSt) (m j : Nat) : acu (putGang s n g x) m j = acu s m j := rfl
@[simp] theorem acu_putTask (s : Block) (k : Nat) (x : Task) (m j : Nat) : acu (putTask s k x) m j = acu s m j := rfl
@[simp] theorem acu_putPow (s : Block) (n : Nat) (x : PowSt) (m j : Nat) : acu (putPow s n x) m j = acu s m j := rfl
@[simp] theorem acu_raise (s : Block) (n r i d : Nat) (m j : Nat) : acu (raise s n r i d) m j = acu s m j := rfl
@[simp] theorem pow_rput (s : Block) (n : Nat) (r : Reg) (i : Nat) (w : Word) (j : Nat) : pow (rput s n r i w) j = pow s j := rfl
@[simp] theorem pow_fput (s : Block) (n : Nat) (f : Fld) (i v : Nat) (j : Nat) : pow (fput s n f i v) j = pow s j := rfl
@[simp] theorem pow_putTile (s : Block) (k : Nat) (x : Tile) (j : Nat) : pow (putTile s k x) j = pow s j := rfl
@[simp] theorem pow_putGang (s : Block) (n g : Nat) (x : GangSt) (j : Nat) : pow (putGang s n g x) j = pow s j := rfl
@[simp] theorem pow_putTask (s : Block) (k : Nat) (x : Task) (j : Nat) : pow (putTask s k x) j = pow s j := rfl
@[simp] theorem pow_putAcu (s : Block) (n a : Nat) (x : Acu) (j : Nat) : pow (putAcu s n a x) j = pow s j := rfl
@[simp] theorem pow_raise (s : Block) (n r i d : Nat) (j : Nat) : pow (raise s n r i d) j = pow s j := rfl

/-! ### The end of a command, and the step -/

@[simp] theorem done_next (s : State) (b : Block) : done s b = .next { s with toBlock := b } := rfl

@[simp] theorem idle_pending (s : State) : s.idle.pending = s.pending := rfl

theorem step_cons (b : Block) (c : Instr) (q : List Instr) :
    step { toBlock := b, pending := c :: q } = exec c { toBlock := b, pending := q } := rfl

theorem step_nil (b : Block) : step { toBlock := b, pending := [] } = .next (State.idle { toBlock := b, pending := [] }) := rfl

end Sys2Proof.Machine
end

