-- ==== Sys2Proof/Laws/Mem.lean ====
section
/-! SUPPORT. Sys2Proof/Laws/Mem.lean: the memory operations keep the canonical form, reset has it, and a word reads as it was
written. -/

namespace Sys2Proof.Machine

theorem reset_memory_wf : Memory.wf Block.reset = true := rfl

/-- Memories that agree are in canonical form together. -/
theorem memory_wf_congr {s t : Block} (h1 : t.stg = s.stg) (h2 : t.record = s.record) (h3 : t.lram = s.lram)
    (h4 : t.hostMem = s.hostMem) : Memory.wf t = Memory.wf s := by simp [Memory.wf, h1, h2, h3, h4]

theorem memPut_wf (s : Block) (m : Mem) (n w v : Nat) (h : Memory.wf s = true) : Memory.wf (memPut s m n w v) = true := by
  simp only [Memory.wf, Bool.and_eq_true] at h ⊢
  obtain ⟨⟨⟨h1, h2⟩, h3⟩, h4⟩ := h
  cases m <;> simp only [memPut] <;> refine ⟨⟨⟨?_, ?_⟩, ?_⟩, ?_⟩ <;> first | assumption | (apply mput_wf; assumption)

@[simp] theorem fset_memory_wf (s : Block) (n : Nat) (f : Fld) (v : Nat) : Memory.wf (fset s n f v) = Memory.wf s := rfl
@[simp] theorem fput_memory_wf (s : Block) (n : Nat) (f : Fld) (i v : Nat) : Memory.wf (fput s n f i v) = Memory.wf s := rfl
@[simp] theorem rput_memory_wf (s : Block) (n : Nat) (r : Reg) (i : Nat) (w : Word) :
    Memory.wf (rput s n r i w) = Memory.wf s := rfl
@[simp] theorem raise_memory_wf (s : Block) (n src inst d : Nat) : Memory.wf (raise s n src inst d) = Memory.wf s := rfl

@[simp] theorem memCe_memory_wf (s : Block) (m : Mem) (n w : Nat) : Memory.wf (memCe s m n w) = Memory.wf s := by
  cases m <;> rfl

@[simp] theorem memUe_memory_wf (s : Block) (m : Mem) (n w : Nat) : Memory.wf (memUe s m n w) = Memory.wf s := by
  cases m <;> rfl

theorem memRead_wf (s : Block) (m : Mem) (n w : Nat) (h : Memory.wf s = true) : Memory.wf (memRead s m n w).2 = true := by
  unfold memRead
  dsimp only
  split
  · exact h
  · simpa using memPut_wf s m n w _ h
  · simpa using h

theorem memRmw_wf (s : Block) (m : Mem) (n w : Nat) (f : Nat → Nat) (h : Memory.wf s = true) :
    Memory.wf (memRmw s m n w f).2 = true := by
  have hr := memRead_wf s m n w h
  unfold memRmw
  split <;> rename_i heq <;> rw [heq] at hr
  · exact memPut_wf _ m n w _ hr
  · exact hr

theorem memWritePart_wf (m : Mem) (n al addr : Nat) (bytes : List (Option (BitVec 8))) (r : Bool × Block) (w : Nat)
    (h : Memory.wf r.2 = true) : Memory.wf (memWritePart m n al addr bytes r w).2 = true := by
  unfold memWritePart
  dsimp only
  split
  · exact h
  · split
    · exact memPut_wf _ m n w _ h
    · exact memRmw_wf _ m n w _ h

theorem memWrite_wf (s : Block) (m : Mem) (n al addr : Nat) (bytes : List (Option (BitVec 8))) (h : Memory.wf s = true) :
    Memory.wf (memWrite s m n al addr bytes).2 = true := by
  unfold memWrite
  generalize wordsOf addr bytes.length = ws
  suffices ∀ r : Bool × Block, Memory.wf r.2 = true →
      Memory.wf (ws.foldl (memWritePart m n al addr bytes) r).2 = true from this (true, s) h
  induction ws with
  | nil => intro r hr; exact hr
  | cons w ws ih => intro r hr; exact ih _ (memWritePart_wf m n al addr bytes r w hr)

theorem memReadWords_wf (m : Mem) (n : Nat) (ws : List Nat) (s : Block) (h : Memory.wf s = true) :
    Memory.wf (memReadWords s m n ws).2 = true := by
  induction ws generalizing s with
  | nil => exact h
  | cons w ws ih => exact ih _ (memRead_wf s m n w h)

theorem memLoad_wf (s : Block) (m : Mem) (n addr len : Nat) (h : Memory.wf s = true) :
    Memory.wf (memLoad s m n addr len).2 = true := by
  unfold memLoad
  dsimp only
  split <;> exact memReadWords_wf m n _ s h

/-- A word just stored reads as it was stored. -/
theorem memGet_memPut (s : Block) (m : Mem) (n w v : Nat) (h : Memory.wf s = true) :
    memGet (memPut s m n w v) m n w = v % 2 ^ 72 := by
  simp only [Memory.wf, Bool.and_eq_true, mwf] at h
  cases m <;> simp only [memGet, memPut] <;> rw [mget_mput_self] <;> simp_all

end Sys2Proof.Machine
end

