-- ==== Sys2Proof/Laws/Reg.lean ====
section
/-! SUPPORT. Sys2Proof/Laws/Reg.lean: what a register reads as at reset, after it or another one is set,
and after a write of its CLEAR bit. -/

namespace Sys2Proof.Machine

theorem reg_index (r : Reg) : r.ctorIdx < 256 := by cases r <;> decide

theorem allRegs_index (r : Reg) : allRegs[r.ctorIdx]? = some r := by cases r <;> rfl

theorem key_split (n inst b i : Nat) (hi : i < 256) (h : inst < b) :
    ((n * 256 + i) * b + inst) / b % 256 = i ∧ ((n * 256 + i) * b + inst) % b = inst := by
  have e : ((n * 256 + i) * b + inst) / b = n * 256 + i := by
    rw [Nat.mul_comm, Nat.mul_add_div (by omega), Nat.div_eq_of_lt h, Nat.add_zero]
  refine ⟨by rw [e]; omega, ?_⟩
  rw [Nat.mul_comm, Nat.mul_add_mod, Nat.mod_eq_of_lt h]

theorem regDefault_of (k : Nat) (r : Reg) (i : Nat) (h1 : allRegs[k / 2 ^ 25 % 256]? = some r) (h2 : k % 2 ^ 25 = i) :
    regDefault k = resetWord r i := by
  unfold regDefault
  rw [h1, h2]

/-- An unlisted register instance reads as its reset word. -/
theorem regDefault_rkey (n : Nat) (r : Reg) (inst : Nat) (h : inst < 2 ^ 25) : regDefault (rkey n r inst) = resetWord r inst := by
  apply regDefault_of
  · unfold rkey
    rw [(key_split n inst (2 ^ 25) _ (reg_index r) h).1, allRegs_index]
  · exact (key_split n inst (2 ^ 25) _ (reg_index r) h).2

theorem mget_nil {α : Type} (d : Nat → α) (k : Nat) : mget d [] k = d k := rfl

theorem rget_reset (n : Nat) (r : Reg) (inst : Nat) (h : inst < 2 ^ 25) : rget Block.reset n r inst = resetWord r inst := by
  unfold rget
  rw [show Block.reset.regs = [] from rfl, mget_nil, regDefault_rkey n r inst h]

/-- A register reads as it was set. -/
theorem rget_rput_self (s : Block) (n : Nat) (r : Reg) (i : Nat) (w : Word) (h : mrising none s.regs = true) :
    rget (rput s n r i w) n r i = w := mget_mput_self _ _ _ _ h

/-- Setting a register leaves every other instance as it is. -/
theorem rget_rput_other (s : Block) (n m : Nat) (r q : Reg) (i j : Nat) (w : Word) (hk : rkey m q j ≠ rkey n r i)
    (h : mrising none s.regs = true) : rget (rput s n r i w) m q j = rget s m q j := by
  unfold rget rput
  exact mget_mput_other _ _ _ _ _ h hk

/-- Clearing a field only takes bits away. -/
theorem wset_zero (w : Word) (hi lo : Nat) : wset w hi lo 0 = w &&& ~~~(BitVec.ofNat 32 ((2 ^ (hi + 1 - lo) - 1) * 2 ^ lo)) := by
  unfold wset
  simp

theorem wbits_eq_zero (w : Word) (hi lo : Nat) : wbits w hi lo = 0 ↔ ∀ i, i < hi + 1 - lo → w.getLsbD (lo + i) = false := by
  unfold wbits
  have e : (BitVec.extractLsb' lo (hi + 1 - lo) w).toNat = 0 ↔ BitVec.extractLsb' lo (hi + 1 - lo) w = 0 := by
    rw [BitVec.toNat_eq]; simp
  rw [e]
  constructor
  · intro h i hi'
    have := congrArg (fun x => x.getLsbD i) h
    simpa [hi'] using this
  · intro h
    apply BitVec.eq_of_getLsbD_eq
    intro i hi'
    simp [hi', h i hi']

theorem wset_zero_keeps (w : Word) (h l hi lo : Nat) (hz : wbits w h l = 0) : wbits (wset w hi lo 0) h l = 0 := by
  rw [wbits_eq_zero] at hz ⊢
  intro i hi'
  rw [wset_zero]
  simp [hz i hi']

theorem wset_zero_self (w : Word) (hi lo : Nat) (hw : hi < 32) : wbits (wset w hi lo 0) hi lo = 0 := by
  rw [wbits_eq_zero]
  intro i hi'
  rw [wset_zero, BitVec.getLsbD_and, BitVec.getLsbD_not]
  have : (BitVec.ofNat 32 ((2 ^ (hi + 1 - lo) - 1) * 2 ^ lo)).getLsbD (lo + i) = true := by
    rw [BitVec.getLsbD_ofNat, Nat.testBit_mul_two_pow]
    simp
    omega
  rw [this]; simp

theorem rget_rput_key (s : Block) (n m : Nat) (r q : Reg) (i j : Nat) (w : Word) (hk : rkey m q j = rkey n r i)
    (h : mrising none s.regs = true) : rget (rput s n r i w) m q j = w := by
  show mget regDefault (mput regDefault s.regs (rkey n r i) w) (rkey m q j) = w
  rw [hk]; exact mget_mput_self _ _ _ _ h

/-- A field that reads 0 goes on reading 0 when another, or itself, is cleared. -/
theorem fput_zero_keeps (s : Block) (n m : Nat) (f g : Fld) (i j : Nat) (h : mrising none s.regs = true) (hz : fget s m g j = 0) :
    fget (fput s n f i 0) m g j = 0 := by
  unfold fget fput at *
  by_cases hk : rkey m g.reg j = rkey n f.reg i
  · rw [rget_rput_key _ _ _ _ _ _ _ _ hk h]
    have e : rget s n f.reg i = rget s m g.reg j := by unfold rget; rw [hk]
    rw [e]; exact wset_zero_keeps _ _ _ _ _ hz
  · rw [rget_rput_other _ _ _ _ _ _ _ _ hk h]; exact hz

theorem fput_zero_self (s : Block) (n : Nat) (f : Fld) (i : Nat) (h : mrising none s.regs = true) (hf : f.hi < 32) :
    fget (fput s n f i 0) n f i = 0 := by
  unfold fget fput
  rw [rget_rput_self _ _ _ _ _ h]
  exact wset_zero_self _ _ _ hf

theorem fput_regs_rising (s : Block) (n : Nat) (f : Fld) (i v : Nat) (h : mrising none s.regs = true) :
    mrising none (fput s n f i v).regs = true := mput_rising _ _ _ _ h
theorem rput_regs_rising (s : Block) (n : Nat) (r : Reg) (i : Nat) (w : Word) (h : mrising none s.regs = true) :
    mrising none (rput s n r i w).regs = true := mput_rising _ _ _ _ h

theorem setReject_regs_rising (s : Block) (n : Nat) (r : Reg) (idx sel : Nat) (h : mrising none s.regs = true) :
    mrising none (setReject s n r idx sel).regs = true := by
  unfold setReject
  split
  · exact h
  · split
    · unfold newtReject; split <;> exact mput_rising _ _ _ _ h
    · exact mput_rising _ _ _ _ h
  all_goals exact mput_rising _ _ _ _ h

theorem writeBut_regs_rising (skip : List Nat) (s : Block) (n : Nat) (r : Reg) (idx sel : Nat) (w : Word)
    (h : mrising none s.regs = true) : mrising none (writeBut skip s n r idx sel w).regs = true := by
  unfold writeBut
  dsimp only
  split
  · exact setReject_regs_rising _ _ _ _ _ (rput_regs_rising _ _ _ _ _ h)
  · exact rput_regs_rising _ _ _ _ _ h

theorem fold_clears (fs : List Fld) (n i : Nat) : ∀ s : Block, mrising none s.regs = true → (∀ f ∈ fs, f.hi < 32) →
    mrising none (fs.foldl (fun s f => fput s n f i 0) s).regs = true ∧
    (∀ m g j, fget s m g j = 0 → fget (fs.foldl (fun s f => fput s n f i 0) s) m g j = 0) ∧
    (∀ f ∈ fs, fget (fs.foldl (fun s f => fput s n f i 0) s) n f i = 0) := by
  induction fs with
  | nil => exact fun s h _ => ⟨h, fun _ _ _ hz => hz, by simp⟩
  | cons f fs ih =>
    intro s h hf
    obtain ⟨a, b, c⟩ := ih (fput s n f i 0) (fput_regs_rising _ _ _ _ _ h) fun g hg => hf g (List.mem_cons_of_mem _ hg)
    refine ⟨a, fun m g j hz => b m g j (fput_zero_keeps _ _ _ _ _ _ _ h hz), ?_⟩
    intro g hg
    rcases List.mem_cons.mp hg with rfl | hg
    · exact b _ _ _ (fput_zero_self _ _ _ _ h (hf _ List.mem_cons_self))
    · exact c g hg

/-- A write with the CLEAR bit 1 leaves the fields that it clears at 0 (00 R5). -/
theorem writeClear_clears (s : Block) (n : Nat) (r : Reg) (idx sel : Nat) (w : Word) (k : Nat) (fs : List Fld)
    (hc : clearOf r = some (k, fs)) (hw : w.getLsbD k = true) (h : mrising none s.regs = true) :
    ∀ f ∈ fs, fget (writeClear s n r idx sel w) n f (ix idx sel) = 0 := by
  have hf : ∀ f ∈ fs, f.hi < 32 := by
    revert hc
    cases r <;> intro hc <;> first | (cases hc; done) | (injection hc with hc; injection hc with _ hc; subst hc; decide)
  unfold writeClear
  rw [hc]
  dsimp only
  rw [if_pos hw]
  exact (fold_clears fs n (ix idx sel) s h hf).2.2

theorem writeReg_clears (s : Block) (c : Ctx) (n : Nat) (r : Reg) (idx sel : Nat) (w : Word) (k : Nat) (fs : List Fld)
    (hc : clearOf r = some (k, fs)) (hw : w.getLsbD k = true) (h : mrising none s.regs = true) :
    ∀ f ∈ fs, fget (writeReg s c n r idx sel w) n f (ix idx sel) = 0 := by
  by_cases hr : r = .SP_LANE_STATUS
  · subst hr
    intro f hf
    show fget (writeStream s n .SP_LANE_STATUS idx sel w) n f (ix idx sel) = 0
    unfold writeStream
    dsimp only
    have h1 := writeClear_clears s n .SP_LANE_STATUS idx sel w k fs hc hw h f hf
    split
    · refine fput_zero_keeps _ _ _ _ _ _ _ ?_ h1
      unfold writeClear
      rw [hc]
      dsimp only
      rw [if_pos hw]
      injection hc with hc; injection hc with _ hc; subst hc
      exact fput_regs_rising _ _ _ _ _ h
    · exact h1
  · have e : writeReg s c n r idx sel w = writeClear (writeBut [] s n r idx sel w) n r idx sel w := by
      revert hc hr
      cases r <;> intro hc hr <;> first | (cases hc; done) | (exact absurd rfl hr) | rfl
    rw [e]
    exact writeClear_clears _ _ _ _ _ _ _ _ hc hw (writeBut_regs_rising _ _ _ _ _ _ _ h)

end Sys2Proof.Machine
end

