-- ==== Sys2Proof/Tests/Slice0.lean ====
section
/-! SUPPORT. Sys2Proof/Tests/Slice0.lean: witnesses for the statements' hypotheses, a term refused by each check of
WellFormed, and a few small tests taken from the spec's words. -/

open Sys2Proof Sys2Proof.Machine

set_option linter.unusedVariables false
set_option Elab.async false

/-! ### Small states -/

/-- Reset with some fields of node 0 set. -/
def stOn (b : Block) (l : List (Fld × Nat × Nat)) : Block := l.foldl (fun s p => fput s 0 p.1 p.2.1 p.2.2) b
def stOf (l : List (Fld × Nat × Nat)) : Block := stOn Block.reset l

/-- A macro-op in flight that some tile has dispatched. -/
def op1 : Mop := { num := 1, word := 0, edges := edgesOf 0, fpctrl := 0, cls := 0, started := true }

/-- Gang 0 of node 0, formed of tile 0, in RUN, with one op in flight. -/
def gangUp : Block :=
  putGang (stOf [(F.MILL_GANG_FORM_FORMED, 0, 1), (F.MILL_GANG_STATUS_STATE, 0, gRun)]) 0 0 { flight := [op1], accepted := 1 }

/-- Its tile runs the op at microword 0; microword 0, nano-word 0 and entry 0 are zero words. -/
def tileUp : Block :=
  storePut (storePut (storePut (putTile gangUp 0 { phase := .run, mop := some 1 }) 0 0 0 0) 0 1 0 0) 0 2 0 0

/-- Its tile has the op in its FIFO. -/
def fifoUp : Block :=
  stOn (storePut (putTile gangUp 0 { fifo := [1], released := true }) 0 2 0 0) [(F.MILL_PACE_LEAD, 0, 4)]

def step0 : ExStep := { count := 0, dir := .north, bits := 5 }

/-- The tile's op waits for Croak, holds a reserved SEQ, or is an A.MOVN that a step at its CONT side goes against. -/
def tileCroak : Block :=
  storePut (putTile tileUp 0 { tile tileUp 0 with crkSent := 1 }) 0 1 0 (freshWord code128 0x1000000000000000)
def tileBadSeq : Block := storePut tileUp 0 0 0 (freshWord code24 0xF00000)
def tileBadNano : Block := storePut tileUp 0 1 0 (freshWord code128 0x30000000000000000000000000000000)
def tileGate : Block :=
  storePut (putGang (putTile tileUp 0 { tile tileUp 0 with cls := 1 }) 0 0 { flight := [op1], accepted := 1, frontier := some 1, finalEnable := false })
    0 0 0 (freshWord code24 0xA00000)
def movnCont : Mop := { op1 with word := 0x33, edges := edgesOf 2 }
def tileAgainst : Block :=
  putTile (storePut (putGang tileUp 0 0 { flight := [movnCont], accepted := 1 }) 0 1 0 (freshWord code128 0x30000000)) 0
    { tile tileUp 0 with inbox := ⟨[⟨0, .south, 5⟩], [], [], []⟩ }
/-- Gang 0 of node 0 of tiles 0 and 32; gang 0 of tile 0 alone with its south side CONT. -/
def gangTwo : Block := rput gangUp 0 .MILL_GANG_SHAPE 0 0x01000000
def gangCont : Block := rput gangUp 0 .MILL_EDGE 0 0x20

/-- An A.WIN from engine 0, slot 0, run by the tile and latched by it. -/
def winOp : Mop := { op1 with word := 0x53 }
def winLatch : Latch := { gang := 0, num := 1, code := 0, raised := false }
def winUp : Block :=
  { putGang tileUp 0 0 { flight := [winOp], accepted := 1 } with latches := [(0, some winLatch)] }

/-- The same for an A.WOUT. -/
def woutOp : Mop := { op1 with word := 0x54 }
def woutUp : Block :=
  { putGang tileUp 0 0 { flight := [woutOp], accepted := 1 } with latches := [(0, some winLatch)] }

/-- Link 0 of two lanes may start. -/
def jcfgUp : Block :=
  stOf [(F.SP_JLINK_CFG0_L, 0, 2), (F.SP_JLINK_CFG0_MM1, 0, 1), (F.SP_JLINK_CFG0_NM1, 0, 15), (F.SP_LANE_CFG_RXMODE, 0, mJesd),
    (F.SP_LANE_CFG_RXMODE, 1, mJesd)]
def laneUp0 : Block := stOf [(F.SP_LANE_CFG_RXMODE, 0, mJesd), (F.SP_LANE_STATUS_STATE, 0, lnNoSignal)]
def jesdLane : Block := stOf [(F.SP_LANE_CFG_RXMODE, 0, mJesd), (F.SP_LANE_STATUS_STATE, 0, lnUp)]
def wslLane : Block :=
  stOf [(F.SP_LANE_CFG_RXMODE, 0, mWsl), (F.SP_LANE_CFG_TXMODE, 0, mWsl), (F.SP_LANE_STATUS_STATE, 0, lnUp)]

/-- A WSL packet of sequence number 0 and time 0. -/
def wslBytes (typ : Nat) (pay : List (BitVec 8)) : List (BitVec 8) :=
  let b := leBytes 1 typ ++ leBytes 1 0 ++ leBytes 2 pay.length ++ leBytes 4 0 ++ leBytes 8 0 ++ pay
  b ++ leBytes 4 (crcBytes b)

/-- Channel 0 on stream 0, which runs, with one container write outstanding; the host holds the bank. -/
def write0 : ChWrite := { chan := 0, slot := 0, num := 0, value := 5, stamp := 100, lost := false, sat := false }
def strmRun : Block :=
  let b := stOf [(F.CH_STRM_CTRL_STATE, 0, 2), (F.STG_BANK_OWNER_CURRENT, 0, ownChannel)]
  putStrm (putChan b 0 0 { route := 0x80000000 }) 0 0 { grid := [(0, some (100, ⟨10, 1⟩))] }
def strmUp : Block := putStrm strmRun 0 0 { grid := [(0, some (100, ⟨10, 1⟩))], writes := [write0] }
def strmFull : Block := putChan strmRun 0 0 { route := 0x80000000, pos := 70000 }
def strmDrain : Block := stOf [(F.CH_STRM_CTRL_STATE, 0, 1), (F.STG_BANK_OWNER_CURRENT, 0, ownChannel)]

/-- Region 0 runs. -/
def runRegion : Block := stOf [(F.GKO_REGION_CTRL_STATE, 0, 2), (F.GKO_REGION_CTRL_PHASE, 0, phRun)]

def runRegionImg : Block := putRegion runRegion 0 0 { image := List.replicate 8 0 }
def sbEnt0 : SbEntry := { task := 0, addr := 0, be := 0, data := 0 }
def cap0 : CapSt := { todo := [0] }

/-- A commit of node 0 alone; a snapshot with one image left. -/
def commit0 : CommitSt := { t0 := 0, epoch := 1, tab := { mods := [{ node := 0 }] } }
def img0 : SnapImg := { dn := 0, g := 0, node := 0, k := none, num := 0, stopped := true }
def snap0 : SnapSt := { q := 0, cid := 0, node := 0, mask := 1, engine := 0, ring := 0, first := 0, last := 0, taken := some (1, 2), imgs := [img0] }

/-- Link 0 of node 0: training, and up. -/
def linkTraining : Block := stOf [(F.SPAN_LINK_CTRL_STATE, 0, 2), (F.SPAN_LINK_STATUS_LSTATE, 0, lsTraining)]
def linkUp : Block := stOf [(F.SPAN_LINK_CTRL_STATE, 0, 2), (F.SPAN_LINK_STATUS_LSTATE, 0, lsUp)]

/-- Node 1 is present; its pair to node 0 is down. -/
def twoNodes : Block :=
  { Block.reset with
    nodeTab := [⟨0, 0, 0⟩, ⟨1, 1, 0⟩], chrTab := { mods := [{ node := 0 }, { node := 1, mx := 1, x := 1 }] } }
def pairLost : Block :=
  stOn (putLink twoNodes 0 4 { partner := some (1, 0) }) [(F.SPAN_LINK_STATUS_LSTATE, 4, lsDown), (F.SPAN_LINK_STATUS_LSTATE, 5, lsDown)]
def parentUp : Block := fput (putLink twoNodes 1 6 { partner := some (0, 2) }) 1 F.SPAN_LINK_STATUS_LSTATE 6 lsUp

/-- Island 0 of node 0 stretched since the device's time 0, long ago. -/
def sagUp : Block :=
  { putIsland (stOf [(F.GOV_SAG_SUSTAIN_US, 0, 1)]) 0 0 { k := 2, since := 0 } with now := 2 ^ 40 }
def gangIdle : Block := stOf [(F.MILL_GANG_STATUS_STATE, 0, gRun)]
/-- Node 1 keeps its own time and takes PPS. -/
def ppsNode : Block := fput (fput Block.reset 1 F.CHR_STATUS_ROLE 0 0) 1 F.TIM_CTRL_PPS_ALIGN 0 1
def quiet0 : Quiet := { src := 5, inst := 0, due := 9, waiting := false, back := true }
def open0 : OpenF := { level := 1, inst := 0, detail := 0, seq := 1 }
/-- Node 0 unlocked for debugging. -/
def dbgUp : Block := stOf [(F.SEC_UNLOCK_UNLOCKED, 0, 1)]

/-- A flit: TYPE, destination, source, node addressed, sender's node, TAG, LEN, ADDR. -/
def flit (ty dst src dnode snode tag len addr : Nat) : BitVec 128 :=
  BitVec.ofNat 128 (ty + src * 2 ^ 8 + dst * 2 ^ 16 + dnode * 2 ^ 24 + snode * 2 ^ 30 + tag * 2 ^ 36 + len * 2 ^ 54 + addr * 2 ^ 64)
/-- Endpoint 3 of node 0 has a READ outstanding under tag 7, and its answer has come. -/
def rspUp : Block :=
  { Block.reset with
    rspFlits := [⟨flit 0x31 3 0 0 0 7 0 0, [9]⟩], outReqs := [⟨0, 3, 7, flit 0x01 0 3 0 0 7 0 0, 100⟩] }

/-- Router 0 of node 0 sends endpoint 5 to its output 2. -/
def routeUp : Block := putRouter Block.reset 0 0 { bank0 := [(5, 2)] }
/-- Queue 0 runs. -/
def qUp : Block := stOf [(F.CMD_Q_CTRL_STATE, 0, 2)]

/-- A command of queue 0 with opcode and parameters, taken and not begun; one in flight alone. -/
def cmd0 (op : Nat) (ps : List Nat) : CmdFl :=
  { q := 0, cid := 1, op := op, node := 0, irq := false, head := 0, ps := ps, past := false }
def cmdUp (op : Nat) (ps : List Nat) : Block := { Block.reset with flight := [cmd0 op ps] }
def takeUp : Block :=
  stOf [(F.CMD_STATUS_READY, 0, 1), (F.CMD_Q_CTRL_STATE, 0, 2), (F.CMD_Q_CTRL_SQ_LOG2, 0, 4), (F.CMD_Q_CTRL_CQ_LOG2, 0, 4),
    (F.CMD_Q_SQ_TAIL_SQ_TAIL, 0, 1)]
def doneCmd : CmdFl := { cmd0 0x100 [] with step := 1, result := some ⟨0, 0, 0, 0, 0⟩ }
def goingCmd : CmdFl := { cmd0 0x401 [] with step := 1 }
/-- An ABORT names CID 7, which runs. -/
def running7 : CmdFl := { cmd0 0x401 [] with cid := 7, step := 1 }
def abortUp : Block := { Block.reset with flight := [running7, cmd0 0x102 [7]] }
def epoch7 : CmdFl := { cmd0 0x601 [] with cid := 7, step := 1 }
def abortWaits : Block :=
  { Block.reset with flight := [epoch7, cmd0 0x102 [7]], cmdSealed := [{ q := 0, cid := 7, node := 0, key := 0, word := (0, 0) }] }
def storeBusy : Block := { Block.reset with flight := [cmd0 0x200 [], { cmd0 0x300 [] with cid := 2, step := 1 }] }
def copy0 : NvCopy := ⟨1, [5], true⟩
def settingsUp : Block := putNvCopy (cmdUp 0x201 []) 0 0 0 (some copy0)
/-- The command processor owns bank 0; a FABRIC_LOAD names one byte of it. -/
def fabricUp : Block := { stOf [(F.STG_BANK_OWNER_CURRENT, 0, ownCmd)] with flight := [cmd0 0x900 [0x10000, 0, 1]] }
def loadBusy : Block := putLoad (cmdUp 0x900 []) 0 (some (fabricLoad 1 1 1 []))

/-- A command waits, and gang 0 of node 0 is formed and OFF. -/
def formedCmd (op : Nat) : Block := { stOf [(F.MILL_GANG_FORM_FORMED, 0, 1)] with flight := [cmd0 op []] }

/-- Gang 0 of node 0, of tile 0, is ready to run one op. -/
def readyMop (opc fl : Nat) : Mop := { op1 with word := BitVec.ofNat 128 (opc + 2 * fl * 2 ^ 16) }
def opReady (opc fl : Nat) : Block := putGang tileUp 0 0 { flight := [readyMop opc fl], accepted := 1 }
/-- The same op held at its gate, and abandoned there. -/
def gatedMop (opc fl : Nat) : Mop := { readyMop opc fl with cls := 1 }
def opGated (drop : Bool) (opc fl : Nat) : Block :=
  putGang tileUp 0 0 { flight := [gatedMop opc fl], accepted := 1, frontier := some 1, abandon := drop, finalEnable := false }
/-- Its gang spans nodes 0 and 1, whose link is not up. -/
def spanOp (opc : Nat) : Block :=
  let b := rput (stOn twoNodes [(F.MILL_GANG_FORM_FORMED, 0, 1), (F.MILL_GANG_STATUS_STATE, 0, gRun)]) 0 .MILL_GANG_SHAPE 0 0x0020001F
  [31, 1024].foldl (fun b k => putTile b k { phase := .run, mop := some 1 })
    (putGang b 0 0 { flight := [readyMop opc 0], accepted := 1 })
def whlReadyOp (opc : Nat) : Block := putTile (opReady opc 0) 0 { tile (opReady opc 0) 0 with whlReady := true }

/-- Task 0 of ACU 0 of node 0 is ready at PC 0, and its instruction cache holds the word there; TW is 1, so that W registers of the
trap window may be loaded. -/
def instrWord (o : AOp) : Word :=
  acuWordOf o { rd := if o = .mtsr then 1 else 2, ra := if o = .mfsr then 3 else 4, rb := 6, sf := 0, ci := 0, imm := 0, rm := 0, d := 0, rel := 0, cond := 0, disp22 := 1, disp26 := 1 }
def instrUp (o : AOp) : Block :=
  stOn (putAcu Block.reset 0 0 { icache := [(0, some (instrWord o, wordParity (instrWord o)))] })
    [(F.ACU_TASK_CTRL_STATE, 0, 2), (F.ACU_TASK_STATUS_RUN, 0, runReady), (F.ACU_TASK_PSW_TW, 0, 1)]
/-- The block once the word is fetched. -/
def fetched (o : AOp) : Block := noteSelected (instrUp o) 0 0 0
def instrCheck (o : AOp) : Bool :=
  acuOpen (instrUp o) 0 0 0 && (takeable (instrUp o) 0 0 0 == none) &&
    (fetchedAs (noteSelected (instrUp o) 0 0 0) 0 0 0 == some (instrWord o, fetched o)) && (acuDecode (instrWord o) == some o) &&
    pswF (fetched o) 0 0 0 F.ACU_TASK_PSW_TW == 1 && !fpInterlock (fetched o) 0 0 0 o (instrWord o)
theorem atInstr_of_check {o : AOp} (h : instrCheck o = true) :
    AtInstr (instrUp o) 0 0 0 o (instrWord o) (fetched o) := by
  simp only [instrCheck, Bool.and_eq_true, beq_iff_eq, Bool.not_eq_true'] at h
  obtain ⟨⟨⟨⟨⟨h1, h2⟩, h3⟩, h4⟩, h5⟩, h6⟩ := h
  refine ⟨h1, h2, h3, h4, fun _ => ?_, h6⟩
  show pswF (fetched o) 0 0 0 F.ACU_TASK_PSW_TW ≠ 0
  omega
/-- A store error is pending at task 0, which may take it. -/
def causeUp : Block :=
  stOn (pendSyncSet Block.reset 0 1) [(F.ACU_TASK_CTRL_STATE, 0, 2), (F.ACU_TASK_STATUS_RUN, 0, runReady), (F.ACU_TASK_PSW_IE, 0, 1)]
/-- Task 0 is ready, with no instruction in the cache, or with a word there that spells none. -/
def taskUp : Block := stOf [(F.ACU_TASK_CTRL_STATE, 0, 2), (F.ACU_TASK_STATUS_RUN, 0, runReady)]
def illegalUp : Block := putAcu taskUp 0 0 { icache := [(0, some (0xFFFFFFFF, wordParity 0xFFFFFFFF))] }

/-! ### Witnesses: the hypotheses of each statement hold together in some state -/


/-- The router beside endpoint `e` of module 0 lacks a route to endpoint `ep`, and what becomes of a request for it. -/
def noRouteUp (e ep : Nat) : Block :=
  { Block.reset with routers := [((Config.routerOf e).val, { bank0 := [(ep, 15)] })] }
theorem noRouteUp_ends (e ep addr : Nat) :
    netEnd (noRouteUp e ep) 0 e ep addr = some (rspNoRoute, noRouteRaise (noRouteUp e ep) 0 (Config.routerOf e)) := by
  have hr : (Config.routerOf e).val / 64 = 0 := by
    have := (Config.routerOf e).isLt
    exact Nat.div_eq_of_lt (by omega)
  have hm : (Config.routerOf e).val % 64 = (Config.routerOf e).val := by
    have := (Config.routerOf e).isLt
    exact Nat.mod_eq_of_lt (by omega)
  have hz : ∀ r : Fin 48, fget Block.reset 0 F.NOC_RTR_CTRL_BANK (ix r) = 0 := by decide +kernel
  have hb : activeBank (noRouteUp e ep) 0 (Config.routerOf e).val = 0 := hz (Config.routerOf e)
  have hx : router (noRouteUp e ep) 0 (Config.routerOf e).val = { bank0 := [(ep, 15)] } := by
    unfold router noRouteUp
    simp [mget]
  have hd : routeDefault (noRouteUp e ep) 0 ep = false := by
    show (((Config.routerOf e).val / 64 != 0 || !((activeBankOf (noRouteUp e ep) 0 ((Config.routerOf e).val % 64)
      { bank0 := [(ep, 15)] }).any fun x => x.1 == ep)) && true) = false
    rw [hr, hm]
    unfold activeBankOf
    rw [hb, if_pos rfl]
    simp
  have hp : activePort (noRouteUp e ep) 0 (Config.routerOf e).val ep = 15 := by
    unfold activePort bankEntry
    rw [hb, if_pos rfl, hx]
    simp [mget]
  unfold netEnd netPath
  rw [hd]
  unfold pathFrom
  simp [hp]
theorem test_meets_TileCycleRunsItsMicroword_1 : ∃ (n : Node) (t : TileIx) (s s2 s3 s4 : Block) (gn g : Nat) (m : Mop) (uw nw : Nat),
    tileOp s (tkey n t) = some (gn, g, m) ∧ (tile s (tkey n t)).phase = .run ∧ inRun s n = true ∧ (tile (agedTile s (tkey n t)) (tkey n t)).owed = 0 ∧ fetchStore (agedTile s (tkey n t)) (tkey n t) 0 (tile (agedTile s (tkey n t)) (tkey n t)).upc.toNat = (some uw, s2) ∧ microBad (microFields uw) (tile s2 (tkey n t)).cls (tile s2 (tkey n t)).rep (tile s2 (tkey n t)).stack.length = false ∧ gateHeld s2 gn g m (tkey n t) (microFields uw) = false ∧ fetchStore s2 (tkey n t) 1 (microFields uw).nano = (some nw, s3) ∧ nanoBad (nanoFields nw) = false ∧ (((nanoFields nw).nop = 3 → edgeMismatch s3 (gangRect s3 gn g) m (tkey n t) (nanoFields nw).dir = false)) ∧ cycleWait s3 gn g m (tkey n t) (nanoFields nw) = (none, s4) :=
  ⟨0, 0, tileUp, (fetchStore (agedTile (tileUp) 0) 0 0 0).2, (fetchStore (fetchStore (agedTile (tileUp) 0) 0 0 0).2 0 1 0).2, tileUp, 0, 0, op1, 0, 0, by decide +kernel⟩

theorem test_meets_TileCycleRunsItsMicroword_2 : ∃ (n : Node) (t : TileIx) (s s2 s3 s4 : Block) (gn g : Nat) (m : Mop) (uw nw : Nat) (why : TWait),
    tileOp s (tkey n t) = some (gn, g, m) ∧ (tile s (tkey n t)).phase = .run ∧ inRun s n = true ∧ (tile (agedTile s (tkey n t)) (tkey n t)).owed = 0 ∧ fetchStore (agedTile s (tkey n t)) (tkey n t) 0 (tile (agedTile s (tkey n t)) (tkey n t)).upc.toNat = (some uw, s2) ∧ microBad (microFields uw) (tile s2 (tkey n t)).cls (tile s2 (tkey n t)).rep (tile s2 (tkey n t)).stack.length = false ∧ gateHeld s2 gn g m (tkey n t) (microFields uw) = false ∧ fetchStore s2 (tkey n t) 1 (microFields uw).nano = (some nw, s3) ∧ nanoBad (nanoFields nw) = false ∧ (((nanoFields nw).nop = 3 → edgeMismatch s3 (gangRect s3 gn g) m (tkey n t) (nanoFields nw).dir = false)) ∧ cycleWait s3 gn g m (tkey n t) (nanoFields nw) = (some why, s4) :=
  ⟨0, 0, tileCroak, (fetchStore (agedTile (tileCroak) 0) 0 0 0).2, (fetchStore (fetchStore (agedTile (tileCroak) 0) 0 0 0).2 0 1 0).2, (fetchStore (fetchStore (agedTile tileCroak 0) 0 0 0).2 0 1 0).2, 0, 0, op1, 0, 0x1000000000000000, .croak, by decide +kernel⟩

theorem test_meets_TileCycleRunsItsMicroword_3 : ∃ (n : Node) (t : TileIx) (s : Block) (gn g : Nat) (m : Mop),
    tileOp s (tkey n t) = some (gn, g, m) ∧ (tile s (tkey n t)).phase = .run ∧ inRun s n = true ∧ (tile (agedTile s (tkey n t)) (tkey n t)).owed ≠ 0 :=
  ⟨0, 0, putTile tileUp 0 { tile tileUp 0 with owed := 1 }, 0, 0, op1, by decide +kernel⟩

theorem test_meets_TileCycleRunsItsMicroword_4 : ∃ (n : Node) (t : TileIx) (s s2 : Block) (gn g : Nat) (m : Mop) (uw : Nat),
    tileOp s (tkey n t) = some (gn, g, m) ∧ (tile s (tkey n t)).phase = .run ∧ inRun s n = true ∧ (tile (agedTile s (tkey n t)) (tkey n t)).owed = 0 ∧ fetchStore (agedTile s (tkey n t)) (tkey n t) 0 (tile (agedTile s (tkey n t)) (tkey n t)).upc.toNat = (some uw, s2) ∧ microBad (microFields uw) (tile s2 (tkey n t)).cls (tile s2 (tkey n t)).rep (tile s2 (tkey n t)).stack.length = true :=
  ⟨0, 0, tileBadSeq, (fetchStore (agedTile tileBadSeq 0) 0 0 0).2, 0, 0, op1, 0xF00000, by decide +kernel⟩

theorem test_meets_TileCycleRunsItsMicroword_5 : ∃ (n : Node) (t : TileIx) (s s2 : Block) (gn g : Nat) (m : Mop) (uw : Nat),
    tileOp s (tkey n t) = some (gn, g, m) ∧ (tile s (tkey n t)).phase = .run ∧ inRun s n = true ∧ (tile (agedTile s (tkey n t)) (tkey n t)).owed = 0 ∧ fetchStore (agedTile s (tkey n t)) (tkey n t) 0 (tile (agedTile s (tkey n t)) (tkey n t)).upc.toNat = (some uw, s2) ∧ microBad (microFields uw) (tile s2 (tkey n t)).cls (tile s2 (tkey n t)).rep (tile s2 (tkey n t)).stack.length = false ∧ gateHeld s2 gn g m (tkey n t) (microFields uw) = true :=
  ⟨0, 0, tileGate, (fetchStore (agedTile tileGate 0) 0 0 0).2, 0, 0, op1, 0xA00000, by decide +kernel⟩

theorem test_meets_TileCycleRunsItsMicroword_6 : ∃ (n : Node) (t : TileIx) (s s2 s3 : Block) (gn g : Nat) (m : Mop) (uw nw : Nat),
    tileOp s (tkey n t) = some (gn, g, m) ∧ (tile s (tkey n t)).phase = .run ∧ inRun s n = true ∧ (tile (agedTile s (tkey n t)) (tkey n t)).owed = 0 ∧ fetchStore (agedTile s (tkey n t)) (tkey n t) 0 (tile (agedTile s (tkey n t)) (tkey n t)).upc.toNat = (some uw, s2) ∧ microBad (microFields uw) (tile s2 (tkey n t)).cls (tile s2 (tkey n t)).rep (tile s2 (tkey n t)).stack.length = false ∧ gateHeld s2 gn g m (tkey n t) (microFields uw) = false ∧ fetchStore s2 (tkey n t) 1 (microFields uw).nano = (some nw, s3) ∧ nanoBad (nanoFields nw) = true :=
  ⟨0, 0, tileBadNano, (fetchStore (agedTile (tileBadNano) 0) 0 0 0).2, (fetchStore (fetchStore (agedTile (tileBadNano) 0) 0 0 0).2 0 1 0).2, 0, 0, op1, 0, 0x30000000000000000000000000000000, by decide +kernel⟩

theorem test_meets_TileCycleRunsItsMicroword_7 : ∃ (n : Node) (t : TileIx) (s s2 s3 : Block) (gn g : Nat) (m : Mop) (uw nw : Nat),
    tileOp s (tkey n t) = some (gn, g, m) ∧ (tile s (tkey n t)).phase = .run ∧ inRun s n = true ∧ (tile (agedTile s (tkey n t)) (tkey n t)).owed = 0 ∧ fetchStore (agedTile s (tkey n t)) (tkey n t) 0 (tile (agedTile s (tkey n t)) (tkey n t)).upc.toNat = (some uw, s2) ∧ microBad (microFields uw) (tile s2 (tkey n t)).cls (tile s2 (tkey n t)).rep (tile s2 (tkey n t)).stack.length = false ∧ gateHeld s2 gn g m (tkey n t) (microFields uw) = false ∧ fetchStore s2 (tkey n t) 1 (microFields uw).nano = (some nw, s3) ∧ nanoBad (nanoFields nw) = false ∧ (nanoFields nw).nop = 3 ∧ edgeMismatch s3 (gangRect s3 gn g) m (tkey n t) (nanoFields nw).dir = true :=
  ⟨0, 0, tileAgainst, (fetchStore (agedTile (tileAgainst) 0) 0 0 0).2, (fetchStore (fetchStore (agedTile (tileAgainst) 0) 0 0 0).2 0 1 0).2, 0, 0, movnCont, 0, 0x30000000, by decide +kernel⟩

theorem test_meets_TileCycleRunsItsMicroword_8 : ∃ (n : Node) (t : TileIx) (s s2 : Block) (gn g : Nat) (m : Mop),
    tileOp s (tkey n t) = some (gn, g, m) ∧ (tile s (tkey n t)).phase = .run ∧ inRun s n = true ∧ (tile (agedTile s (tkey n t)) (tkey n t)).owed = 0 ∧ fetchStore (agedTile s (tkey n t)) (tkey n t) 0 (tile (agedTile s (tkey n t)) (tkey n t)).upc.toNat = (none, s2) :=
  ⟨0, 0, storePut tileUp 0 0 0 3, (fetchStore (agedTile (storePut tileUp 0 0 0 3) 0) 0 0 0).2, 0, 0, op1, by decide +kernel⟩

theorem test_meets_TileCycleRunsItsMicroword_9 : ∃ (n : Node) (t : TileIx) (s s2 s3 : Block) (gn g : Nat) (m : Mop) (uw : Nat),
    tileOp s (tkey n t) = some (gn, g, m) ∧ (tile s (tkey n t)).phase = .run ∧ inRun s n = true ∧ (tile (agedTile s (tkey n t)) (tkey n t)).owed = 0 ∧ fetchStore (agedTile s (tkey n t)) (tkey n t) 0 (tile (agedTile s (tkey n t)) (tkey n t)).upc.toNat = (some uw, s2) ∧ microBad (microFields uw) (tile s2 (tkey n t)).cls (tile s2 (tkey n t)).rep (tile s2 (tkey n t)).stack.length = false ∧ gateHeld s2 gn g m (tkey n t) (microFields uw) = false ∧ fetchStore s2 (tkey n t) 1 (microFields uw).nano = (none, s3) :=
  ⟨0, 0, storePut tileUp 0 1 0 3, (fetchStore (agedTile (storePut tileUp 0 1 0 3) 0) 0 0 0).2, (fetchStore (fetchStore (agedTile (storePut tileUp 0 1 0 3) 0) 0 0 0).2 0 1 0).2, 0, 0, op1, 0, by decide +kernel⟩

theorem test_meets_TileWaitsAndStepsComplete_1 : ∃ (n : Node) (t : TileIx) (d : Side) (s : Block) (o : Nat) (st : ExStep) (rest : List ExStep),
    inRun s n = true ∧ neighbour s (tkey n t) d = some o ∧ (tile s o).outbox.get (oppSide d) = st :: rest ∧ edgeLive s (tkey n t) d o = true ∧ tileOwner s (tkey n t) ≠ none ∧ tileOwner s (tkey n t) = tileOwner s o ∧ usesCont s (tkey n t) d = false :=
  ⟨0, 0, .south, putTile gangTwo 32 { outbox := ⟨[step0], [], [], []⟩ }, 32, step0, [], by decide +kernel⟩

theorem test_meets_TileWaitsAndStepsComplete_2 : ∃ (n : Node) (t : TileIx) (d : Side) (s : Block) (o : Nat) (st : ExStep) (rest : List ExStep),
    inRun s n = true ∧ neighbour s (tkey n t) d = some o ∧ (tile s o).outbox.get (oppSide d) = st :: rest ∧ edgeLive s (tkey n t) d o = true ∧ usesCont s (tkey n t) d = true ∧ arrivalAgainst (stepCrossed s (tkey n t) o d st rest) (tkey n t) d = false :=
  ⟨0, 0, .south, putTile gangCont 32 { outbox := ⟨[step0], [], [], []⟩ }, 32, step0, [], by decide +kernel⟩

theorem test_meets_TileWaitsAndStepsComplete_3 : ∃ (n : Node) (t : TileIx) (d : Side) (s : Block) (o : Nat) (st : ExStep) (rest : List ExStep),
    inRun s n = true ∧ neighbour s (tkey n t) d = some o ∧ (tile s o).outbox.get (oppSide d) = st :: rest ∧ edgeLive s (tkey n t) d o = true ∧ usesCont s (tkey n t) d = true ∧ arrivalAgainst (stepCrossed s (tkey n t) o d st rest) (tkey n t) d = true :=
  ⟨0, 0, .south, putTile (putTile gangCont 32 { outbox := ⟨[step0], [], [], []⟩ }) 0 { contCount := ⟨0, 1, 0, 0⟩ }, 32, step0, [], by decide +kernel⟩

theorem test_meets_TileWaitsAndStepsComplete_4 : ∃ (n : Node) (t : TileIx) (d : Side) (s : Block) (gn g o : Nat) (st : ExStep) (rest : List ExStep),
    inRun s n = true ∧ tileOwner s (tkey n t) = some (gn, g) ∧ wrapTile s (gangRect s gn g) (tkey n t) d = some o ∧ (tile s o).wrapOut.get (oppSide d) = st :: rest :=
  ⟨0, 0, .north, putTile gangUp 0 { wrapOut := ⟨[], [step0], [], []⟩ }, 0, 0, 0, step0, [], by decide +kernel⟩

theorem test_meets_TileWaitsAndStepsComplete_5 : ∃ (n : Node) (t : TileIx) (s b : Block),
    inRun s n = true ∧ b = nbrSend s (tkey n t) ∧ (tile b (tkey n t)).phase = .wait ∧ (tile b (tkey n t)).wait ≠ .qsettle ∧ waitOver b (tkey n t) = true :=
  ⟨0, 0, putTile tileUp 0 { tile tileUp 0 with phase := .wait, wait := .wheel, whlReady := true }, nbrSend (putTile tileUp 0 { tile tileUp 0 with phase := .wait, wait := .wheel, whlReady := true }) 0, by decide +kernel⟩

theorem test_meets_TileWaitsAndStepsComplete_6 : ∃ (n : Node) (t : TileIx) (s : Block) (v : Bool) (k : Nat),
    inRun s n = true ∧ (tile s (tkey n t)).phase = .wait ∧ (tile s (tkey n t)).wait = .qsettle ∧ (tile s (tkey n t)).qpend.getLast? = some (v, k) :=
  ⟨0, 0, putTile tileUp 0 { tile tileUp 0 with phase := .wait, wait := .qsettle, qpend := [(true, 1)] }, true, 1, by decide +kernel⟩

theorem test_meets_TileWaitsAndStepsComplete_7 : ∃ (n : Node) (t : TileIx) (s : Block) (gn g : Nat) (m : Mop) (w : NanoF),
    (tile s (tkey n t)).phase = .wait ∧ (tile s (tkey n t)).wait = .nbr ∧ (tile s (tkey n t)).sent = false ∧ tileOp s (tkey n t) = some (gn, g, m) ∧ nextNano s (tkey n t) = some w :=
  ⟨0, 0, putTile (storePut tileUp 0 1 0 (freshWord code128 0x30000000)) 0 { phase := .wait, wait := .nbr, mop := some 1 }, 0, 0, op1, nanoFields 0x30000000, by decide +kernel⟩

theorem test_meets_TileWaitsAndStepsComplete_8 : ∃ (n : Node) (t : TileIx) (s : Block) (gn g : Nat) (m : Mop),
    inRun s n = true ∧ tileOp s (tkey n t) = some (gn, g, m) ∧ (tile s (tkey n t)).phase = .wait ∧ (tile s (tkey n t)).wait = .gate ∧ ((gang s gn g).abandon = false ∨ (gang s gn g).frontier ≠ some m.num) ∧ (gang s gn g).finalEnable = true :=
  ⟨0, 0, putTile tileUp 0 { tile tileUp 0 with phase := .wait, wait := .gate }, 0, 0, op1, by decide +kernel⟩

theorem test_meets_TileWaitsAndStepsComplete_9 : ∃ (n : Node) (t : TileIx) (s : Block) (gn g : Nat) (m : Mop),
    inRun s n = true ∧ tileOp s (tkey n t) = some (gn, g, m) ∧ (tile s (tkey n t)).phase = .wait ∧ (tile s (tkey n t)).wait = .gate ∧ (gang s gn g).abandon = true ∧ (gang s gn g).frontier = some m.num :=
  ⟨0, 0, putGang (putTile tileUp 0 { tile tileUp 0 with phase := .wait, wait := .gate }) 0 0 { gang tileUp 0 0 with abandon := true, frontier := some 1 }, 0, 0, op1, by decide +kernel⟩

theorem test_meets_TileWaitsAndStepsComplete_10 : ∃ (n : Node) (t : TileIx) (s b : Block) (gn g : Nat),
    inRun s n = true ∧ b = nbrSend s (tkey n t) ∧ tileOwner b (tkey n t) = some (gn, g) ∧ (tile b (tkey n t)).phase = .wait ∧ ((tile b (tkey n t)).wait = .nbr ∨ (tile b (tkey n t)).wait = .cont) ∧ waitOver b (tkey n t) = false ∧ waitLimit b gn g ≠ 0 :=
  ⟨0, 0, rput (putTile (storePut tileUp 0 1 0 (freshWord code128 0x30000000)) 0 { tile tileUp 0 with phase := .wait, wait := .nbr, sent := true, inbox := ⟨[⟨7, .north, 0⟩], [], [], []⟩, mop := none }) 0 .MILL_EDGE 0 0x00010000, nbrSend (rput (putTile (storePut tileUp 0 1 0 (freshWord code128 0x30000000)) 0 { tile tileUp 0 with phase := .wait, wait := .nbr, sent := true, inbox := ⟨[⟨7, .north, 0⟩], [], [], []⟩, mop := none }) 0 .MILL_EDGE 0 0x00010000) 0, 0, 0, by decide +kernel⟩

theorem test_meets_TileWaitsAndStepsComplete_11 : ∃ (n : Node) (t : TileIx) (s b : Block) (gn g : Nat),
    inRun s n = true ∧ b = nbrSend s (tkey n t) ∧ tileOwner b (tkey n t) = some (gn, g) ∧ (tile b (tkey n t)).phase = .wait ∧ ((tile b (tkey n t)).wait = .croak ∨ (tile b (tkey n t)).wait = .wheel) ∧ waitOver b (tkey n t) = false ∧ waitLimit b gn g ≠ 0 :=
  ⟨0, 0, rput (putTile tileUp 0 { tile tileUp 0 with phase := .wait, wait := .wheel }) 0 .MILL_EDGE 0 0x00010000, nbrSend (rput (putTile tileUp 0 { tile tileUp 0 with phase := .wait, wait := .wheel }) 0 .MILL_EDGE 0 0x00010000) 0, 0, 0, by decide +kernel⟩

theorem test_meets_StoreAndScrubUpkeep_1 : ∃ (n : Node) (t : TileIx) (s : Block) (st ad w : Nat) (rest : List (Nat × Nat × Nat)),
    (tile s (tkey n t)).storeWb = (st, ad, w) :: rest :=
  ⟨0, 0, putTile Block.reset 0 { storeWb := [(0, 1, 2)] }, 0, 1, 2, [], by decide +kernel⟩

theorem test_meets_StoreAndScrubUpkeep_2 : ∃ (n : Node) (t : TileIx) (s : Block),
    inRun s n = true :=
  ⟨0, 0, Block.reset, by decide +kernel⟩

theorem test_meets_StoreAndScrubUpkeep_3 : ∃ (n : Node) (t : TileIx) (s : Block),
    inRun s n = true ∧ fget s n F.NEWT_SCRUB_CTRL_STATE = 2 :=
  ⟨0, 0, Block.reset, by decide +kernel⟩

theorem test_meets_StoreAndScrubUpkeep_4 : ∃ (n : Node) (t : TileIx) (s : Block),
    inRun s n = true ∧ fget s n F.NEWT_SCRUB_CTRL_STATE ≠ 2 :=
  ⟨0, 0, stOf [(F.NEWT_SCRUB_CTRL_STATE, 0, 0)], by decide +kernel⟩

theorem test_meets_StoreAndScrubUpkeep_5 : ∃ (n : Node) (t : TileIx) (s : Block),
    (fget s n F.GOV_STATE_STATE = 1 ∨ fget s n F.GOV_STATE_STATE = 2) ∧ fget s n F.NEWT_SCRUB_CTRL_STATE = 2 :=
  ⟨0, 0, stOf [(F.GOV_STATE_STATE, 0, 1)], by decide +kernel⟩

theorem test_meets_StoreAndScrubUpkeep_7 : ∃ (n : Node) (s : Block),
    takenNow s n 0x5 = true ∧ fget s n F.NEWT_SCRUB_CTRL_STATE = 0 :=
  ⟨0, stOf [(F.NEWT_SCRUB_CTRL_STATE, 0, 0)], by decide +kernel⟩

theorem test_meets_StoreAndScrubUpkeep_8 : ∃ (n : Node) (s : Block),
    takenNow s n 0x5 = true ∧ fget s n F.NEWT_SCRUB_CTRL_STATE = 2 :=
  ⟨0, stOf [(F.NEWT_SCRUB_CTRL_STATE, 0, 2)], by decide +kernel⟩

theorem test_meets_StoreAndScrubUpkeep_9 : ∃ (n : Node) (s : Block),
    fget s n F.NEWT_SCRUB_CTRL_STATE = 1 ∧ (s.tiles.all fun p => p.1 / 1024 != n.val || p.2.scrubWb.isEmpty) = true :=
  ⟨0, stOf [(F.NEWT_SCRUB_CTRL_STATE, 0, 1)], by decide +kernel⟩

theorem test_meets_InspectionsAndStoreAccesses_1 : ∃ (c : Ctx) (n : Node) (t : TileIx) (kind : BitVec 2) (row : BitVec 6) (addr : BitVec 11) (s : Block),
    takenBy s c n 0x5 = true ∧ fbit s (ctxHome (ctxNum c)) F.NEWT_INSP_STATUS_BUSY (ctxInst (ctxNum c)) = false ∧ (kind.toNat < 2 ∨ kind.toNat = 2 ∧ addr.toNat ≤ 4) :=
  ⟨.queue 0, 0, 0, 0, 1, 2, Block.reset, by decide +kernel⟩

theorem test_meets_InspectionsAndStoreAccesses_2 : ∃ (c : Ctx) (s : Block) (p : Nat) (n t : Nat) (w : Word),
    (s.insps.find? fun p => p.1 == ctxNum c) = some (p, n, t, w) ∧ ((s.insps.takeWhile fun p => p.1 != ctxNum c).any fun p => p.2.1 == n && p.2.2.1 == t) = false ∧ wbits w 31 30 = 1 ∧ planesOff (inspEnded s (ctxNum c)) n = false :=
  ⟨.queue 0, { Block.reset with insps := [(0, 0, 0, 0x40000000)] }, 0, 0, 0, 0x40000000, by decide +kernel⟩

theorem test_meets_InspectionsAndStoreAccesses_3 : ∃ (c : Ctx) (s : Block) (p : Nat) (n t : Nat) (w : Word),
    (s.insps.find? fun p => p.1 == ctxNum c) = some (p, n, t, w) ∧ ((s.insps.takeWhile fun p => p.1 != ctxNum c).any fun p => p.2.1 == n && p.2.2.1 == t) = false ∧ wbits w 31 30 = 2 ∧ planesOff (inspEnded s (ctxNum c)) n = false ∧ tileStopped (inspEnded s (ctxNum c)) (tkey n t) = true :=
  ⟨.queue 0, { Block.reset with insps := [(0, 0, 0, 0x80000000)] }, 0, 0, 0, 0x80000000, by decide +kernel⟩

theorem test_meets_InspectionsAndStoreAccesses_4 : ∃ (c : Ctx) (s : Block) (p : Nat) (n t : Nat) (w : Word),
    (s.insps.find? fun p => p.1 == ctxNum c) = some (p, n, t, w) ∧ ((s.insps.takeWhile fun p => p.1 != ctxNum c).any fun p => p.2.1 == n && p.2.2.1 == t) = false ∧ wbits w 31 30 = 2 ∧ planesOff (inspEnded s (ctxNum c)) n = false ∧ tileStopped (inspEnded s (ctxNum c)) (tkey n t) = false :=
  ⟨.queue 0, { gangUp with insps := [(0, 0, 0, 0x80000000)] }, 0, 0, 0, 0x80000000, by decide +kernel⟩

theorem test_meets_InspectionsAndStoreAccesses_5 : ∃ (c : Ctx) (s : Block) (p : Nat) (n t : Nat) (w : Word),
    (s.insps.find? fun p => p.1 == ctxNum c) = some (p, n, t, w) ∧ ((s.insps.takeWhile fun p => p.1 != ctxNum c).any fun p => p.2.1 == n && p.2.2.1 == t) = false ∧ planesOff (inspEnded s (ctxNum c)) n = true :=
  ⟨.queue 0, { stOf [(F.GOV_STATE_STATE, 0, 3)] with insps := [(0, 0, 0, 0x40000000)] }, 0, 0, 0, 0x40000000, by decide +kernel⟩

theorem test_meets_InspectionsAndStoreAccesses_6 : ∃ (n : Node) (t : TileIx) (s : Block) (store : BitVec 2) (bcast raw : Bool) (addr : BitVec 13),
    takenNow s n 0x5 = true ∧ (tile s (tkey n t)).storeOp = none ∧ store.toNat < 3 ∧ addr.toNat < storeSize store.toNat :=
  ⟨0, 0, Block.reset, 0, false, false, 5, by decide +kernel⟩

theorem test_meets_InspectionsAndStoreAccesses_7 : ∃ (n : Node) (t : TileIx) (s : Block) (store : BitVec 2) (bcast raw : Bool) (addr : BitVec 13),
    takenNow s n 0x5 = true ∧ (tile s (tkey n t)).storeOp = none ∧ store.toNat < 3 ∧ addr.toNat < storeSize store.toNat :=
  ⟨0, 0, Block.reset, 0, true, false, 5, by decide +kernel⟩

theorem test_meets_InspectionsAndStoreAccesses_8 : ∃ (n : Node) (t : TileIx) (s : Block) (bcast : Bool),
    served s n = true ∧ (tile s (tkey n t)).storeOp = none ∧ fget s n F.NEWT_STORE_CTRL_STORE t < 3 :=
  ⟨0, 0, Block.reset, false, by decide +kernel⟩

theorem test_meets_InspectionsAndStoreAccesses_9 : ∃ (n : Node) (t : TileIx) (s : Block) (op : StoreOp),
    (tile s (tkey n t)).storeOp = some op ∧ op.refused = true :=
  ⟨0, 0, putTile Block.reset 0 { storeOp := some ⟨2, 0, false, false, 5, true⟩ }, ⟨2, 0, false, false, 5, true⟩, by decide +kernel⟩

theorem test_meets_InspectionsAndStoreAccesses_10 : ∃ (n : Node) (t : TileIx) (s : Block) (op : StoreOp),
    (tile s (tkey n t)).storeOp = some op ∧ op.refused = false ∧ op.cmd = 1 :=
  ⟨0, 0, putTile Block.reset 0 { storeOp := some ⟨1, 0, false, true, 5, false⟩ }, ⟨1, 0, false, true, 5, false⟩, by decide +kernel⟩

theorem test_meets_InspectionsAndStoreAccesses_11 : ∃ (n : Node) (t : TileIx) (s : Block) (op : StoreOp),
    (tile s (tkey n t)).storeOp = some op ∧ op.refused = false ∧ op.cmd = 2 ∧ op.bcast = false :=
  ⟨0, 0, putTile Block.reset 0 { storeOp := some ⟨2, 0, false, true, 5, false⟩ }, ⟨2, 0, false, true, 5, false⟩, by decide +kernel⟩

theorem test_meets_InspectionsAndStoreAccesses_12 : ∃ (n : Node) (t : TileIx) (s : Block) (op : StoreOp),
    (tile s (tkey n t)).storeOp = some op ∧ op.refused = false ∧ op.cmd = 2 ∧ op.bcast = true :=
  ⟨0, 0, putTile Block.reset 0 { storeOp := some ⟨2, 0, true, true, 5, false⟩ }, ⟨2, 0, true, true, 5, false⟩, by decide +kernel⟩

theorem test_meets_InspectionsAndStoreAccesses_13 : ∃ (n : Node) (t : TileIx) (s : Block) (op : StoreOp),
    (tile s (tkey n t)).storeOp = some op ∧ op.refused = false ∧ op.cmd = 3 :=
  ⟨0, 0, putTile Block.reset 0 { storeOp := some ⟨3, 0, true, true, 5, false⟩ }, ⟨3, 0, true, true, 5, false⟩, by decide +kernel⟩

theorem test_meets_InspectionsAndStoreAccesses_14 : ∃ (n : Node) (t : TileIx) (s s2 : Block) (gn g num : Nat) (rest : List Nat) (m : Mop) (e : Nat),
    tileOwner s (tkey n t) = some (gn, g) ∧ (tile s (tkey n t)).fifo = num :: rest ∧ findOp (gang s gn g) num = some m ∧ dispatchReady s n t gn g num = true ∧ fetchStore s (tkey n t) 2 (mopRoutine (mopFields m.word)) = (some e, s2) :=
  ⟨0, 0, fifoUp, (fetchStore fifoUp 0 2 0).2, 0, 0, 1, [], op1, 0, by decide +kernel⟩

theorem test_meets_GangAcceptsAndDelivers_1 : ∃ (n : Node) (g : GangIx) (s : Block) (w : BitVec 128) (k rd : Nat),
    inRun s n = true ∧ (gang s n g).presented = some (w, k, rd) ∧ canAccept s n g = true ∧ fpctrlComing s n g k = false :=
  ⟨0, 0, putGang gangUp 0 0 { gang gangUp 0 0 with presented := some (0, 1, 2) }, 0, 1, 2, by decide +kernel⟩

theorem test_meets_GangAcceptsAndDelivers_2 : ∃ (n g : Nat) (s : Block) (w : BitVec 128),
    mopReason (mopFields w) (dispEntry s n (mopRoutine (mopFields w))) (edgesOf (rget s n .MILL_EDGE g)) (gangRect s n g) = 0 :=
  ⟨0, 0, gangUp, 0, by decide +kernel⟩

theorem test_meets_GangAcceptsAndDelivers_3 : ∃ (n g : Nat) (s : Block) (w : BitVec 128) (r : Nat),
    mopReason (mopFields w) (dispEntry s n (mopRoutine (mopFields w))) (edgesOf (rget s n .MILL_EDGE g)) (gangRect s n g) = r ∧ r ≠ 0 :=
  ⟨0, 0, gangUp, 0x7F, 1, by decide +kernel⟩

theorem test_meets_GangAcceptsAndDelivers_4 : ∃ (n : Node) (g : GangIx) (tn : Node) (t : TileIx) (s : Block) (m : Mop),
    inRun s n = true ∧ ((gang s n g).flight.find? fun m => !m.delivered.contains (tkey tn t)) = some m ∧ dlvOpen s n g tn t m = true ∧ (gangTiles s n g).find? (storeBad s) = none :=
  ⟨0, 0, 0, 0, gangUp, op1, by decide +kernel⟩

theorem test_meets_GangAcceptsAndDelivers_5 : ∃ (n : Node) (g : GangIx) (tn : Node) (t : TileIx) (s : Block) (m : Mop) (bad : Nat),
    inRun s n = true ∧ ((gang s n g).flight.find? fun m => !m.delivered.contains (tkey tn t)) = some m ∧ dlvOpen s n g tn t m = true ∧ (gangTiles s n g).find? (storeBad s) = some bad :=
  ⟨0, 0, 0, 0, stOn gangUp [(F.NEWT_STORE_ECC_STORE_BAD, 0, 1)], op1, 0, by decide +kernel⟩

theorem test_meets_GangAcceptsAndDelivers_6 : ∃ (n : Node) (g : GangIx) (s : Block),
    inRun s n = true ∧ coldTiles s n g ≠ [] :=
  ⟨0, 0, putTile gangUp 0 { fifo := [1] }, by decide +kernel⟩

theorem test_meets_GangAcceptsAndDelivers_7 : ∃ (n : Node) (g : GangIx) (s : Block) (m : Mop) (rest : List Mop),
    inRun s n = true ∧ (gang s n g).flight = m :: rest ∧ m.started = true ∧ opDone (gangTiles s n g) m = true :=
  ⟨0, 0, putGang gangUp 0 0 { flight := [{ op1 with doneBy := [0] }] }, { op1 with doneBy := [0] }, [], by decide +kernel⟩

theorem test_meets_GangAcceptsAndDelivers_8 : ∃ (n : Node) (g : GangIx) (ns : Half) (s : Block) (m : Mop),
    inRun s n = true ∧ ((gang s n g).flight.find? fun m => m.started && !(gangTiles s n g).isEmpty && (gangTiles s n g).all fun tk =>
      m.crkIn.any fun c => c.1 == m.crkDone + 1 && c.2.1 == tk) = some m :=
  ⟨0, 0, 7, putGang gangUp 0 0 { flight := [{ op1 with crkIn := [(1, 0, true)] }] }, { op1 with crkIn := [(1, 0, true)] }, by decide +kernel⟩

theorem test_meets_GangStopsAndResumes_1 : ∃ (n : Node) (g : GangIx) (s : Block),
    takenNow s n 0x3 = true ∧ gState s n g = gIdle :=
  ⟨0, 0, stOn gangUp [(F.MILL_GANG_STATUS_STATE, 0, gIdle)], by decide +kernel⟩

theorem test_meets_GangStopsAndResumes_2 : ∃ (n : Node) (g : GangIx) (s : Block),
    takenNow s n 0x3 = true ∧ gState s n g = gRun ∧ newestStarted (gang s n g) = none :=
  ⟨0, 0, putGang gangUp 0 0 {}, by decide +kernel⟩

theorem test_meets_GangStopsAndResumes_3 : ∃ (n : Node) (g : GangIx) (s : Block) (fr : Nat),
    takenNow s n 0x3 = true ∧ gState s n g = gRun ∧ newestStarted (gang s n g) = some fr :=
  ⟨0, 0, gangUp, 1, by decide +kernel⟩

theorem test_meets_GangStopsAndResumes_4 : ∃ (n : Node) (g : GangIx) (s : Block) (m : Mop),
    inRun s n = true ∧ (gState s n g = gYielding ∨ gState s n g = gDraining) ∧ (gang s n g).complete = false ∧ (gang s n g).abandon = false ∧ (gang s n g).cmax = none ∧ (gang s n g).frontier.bind (findOp (gang s n g)) = some m ∧ (m.cls = 0 ∨ m.cls = 1 ∧ (m.passed = true ∨ m.doneBy ≠ [])) :=
  ⟨0, 0, stOn (putGang gangUp 0 0 { flight := [op1], frontier := some 1 }) [(F.MILL_GANG_STATUS_STATE, 0, gYielding)], op1, by decide +kernel⟩

theorem test_meets_GangStopsAndResumes_5 : ∃ (n : Node) (g : GangIx) (s : Block) (m : Mop),
    inRun s n = true ∧ (gState s n g = gYielding ∨ gState s n g = gDraining) ∧ (gang s n g).complete = false ∧ (gang s n g).abandon = false ∧ (gang s n g).cmax = none ∧ (gang s n g).frontier.bind (findOp (gang s n g)) = some m ∧ m.cls = 1 ∧ m.passed = false ∧ m.doneBy = [] :=
  ⟨0, 0, stOn (putGang gangUp 0 0 { flight := [{ op1 with cls := 1 }], frontier := some 1 }) [(F.MILL_GANG_STATUS_STATE, 0, gYielding)], { op1 with cls := 1 }, by decide +kernel⟩

theorem test_meets_GangStopsAndResumes_6 : ∃ (n : Node) (g : GangIx) (s : Block) (m : Mop),
    inRun s n = true ∧ (gState s n g = gYielding ∨ gState s n g = gDraining) ∧ (gang s n g).complete = false ∧ (gang s n g).abandon = false ∧ (gang s n g).cmax = none ∧ (gang s n g).frontier.bind (findOp (gang s n g)) = some m ∧ 1 < m.cls ∧ ((gangTiles s n g).all fun tk => m.doneBy.contains tk || (m.parkedAt.any fun p => p.1 == tk)) = true :=
  ⟨0, 0, stOn (putGang gangUp 0 0 { flight := [{ op1 with cls := 2, parkedAt := [(0, 5)] }], frontier := some 1 }) [(F.MILL_GANG_STATUS_STATE, 0, gYielding)], { op1 with cls := 2, parkedAt := [(0, 5)] }, by decide +kernel⟩

theorem test_meets_GangStopsAndResumes_7 : ∃ (n : Node) (g : GangIx) (s : Block) (c : StopCause) (fr : Nat),
    inRun s n = true ∧ (gang s n g).stop = some c ∧ (gang s n g).frontier = some fr ∧ gState s n g = gYielding ∧ ((gang s n g).flight = [] ∨ (∃ m rest, (gang s n g).flight = m :: rest ∧ fr < m.num)) ∧ joinCause (gang s n g).closing c ≠ .abort :=
  ⟨0, 0, stOn (putGang gangUp 0 0 { stop := some .host, frontier := some 1 }) [(F.MILL_GANG_STATUS_STATE, 0, gYielding)], .host, 1, by decide +kernel, by decide +kernel, by decide +kernel, by decide +kernel, .inl (by decide +kernel), by decide +kernel⟩

theorem test_meets_GangStopsAndResumes_8 : ∃ (n : Node) (g : GangIx) (s : Block) (c : StopCause) (fr : Nat) (m : Mop) (rest : List Mop) (kind cur : Nat),
    inRun s n = true ∧ (gang s n g).stop = some c ∧ (gang s n g).frontier = some fr ∧ gState s n g = gYielding ∧ (gang s n g).flight = m :: rest ∧ m.num = fr ∧ restKind s (gang s n g) (gangTiles s n g) m = some (kind, cur) :=
  ⟨0, 0, stOn (putTile (putGang gangUp 0 0 { flight := [op1], stop := some .host, frontier := some 1, abandon := true }) 0 {}) [(F.MILL_GANG_STATUS_STATE, 0, gYielding)], .host, 1, op1, [], 1, 0, by decide +kernel⟩

theorem test_meets_GangStopsAndResumes_9 : ∃ (n : Node) (g : GangIx) (s : Block),
    inRun s n = true ∧ gState s n g = gDraining ∧ (gang s n g).flight = [] :=
  ⟨0, 0, stOn (putGang gangUp 0 0 {}) [(F.MILL_GANG_STATUS_STATE, 0, gDraining)], by decide +kernel⟩

theorem test_meets_GangStopsAndResumes_10 : ∃ (n : Node) (g : GangIx) (s : Block) (m : Mop) (kind cur : Nat),
    inRun s n = true ∧ gState s n g = gDraining ∧ (gang s n g).flight = [m] ∧ restKind s (gang s n g) (gangTiles s n g) m = some (kind, cur) :=
  ⟨0, 0, stOn (putTile (putGang gangUp 0 0 { flight := [op1], frontier := some 1, abandon := true }) 0 {}) [(F.MILL_GANG_STATUS_STATE, 0, gDraining)], op1, 1, 0, by decide +kernel⟩

theorem test_meets_GangStopsAndResumes_11 : ∃ (n : Node) (g : GangIx) (s : Block),
    takenNow s n 0x3 = true ∧ gState s n g = gOff ∧ gangFormed s n g = true ∧ l4Open s n = false ∧ (gang s n g).program = none :=
  ⟨0, 0, stOf [(F.MILL_GANG_FORM_FORMED, 0, 1)], by decide +kernel⟩

theorem test_meets_GangStopsAndResumes_12 : ∃ (n : Node) (g : GangIx) (s : Block),
    takenNow s n 0x3 = true ∧ (l4Open s n = true ∨ gState s n g = gOff ∧ gangFormed s n g = false) :=
  ⟨0, 0, Block.reset, by decide +kernel⟩

theorem test_meets_GangStopsAndResumes_13 : ∃ (n : Node) (g : GangIx) (s : Block),
    takenNow s n 0x3 = true :=
  ⟨0, 0, gangUp, by decide +kernel⟩

theorem test_meets_GangStopsAndResumes_14 : ∃ (n g : Nat) (s : Block),
    (gState s n g = gOff ∨ gState s n g = gDraining) :=
  ⟨0, 0, Block.reset, by decide +kernel⟩

theorem test_meets_GangStopsAndResumes_15 : ∃ (n g : Nat) (s : Block),
    (gState s n g = gIdle ∨ gState s n g = gRun) :=
  ⟨0, 0, gangUp, by decide +kernel⟩

theorem test_meets_GangStopsAndResumes_16 : ∃ (n : Node) (g : GangIx) (s : Block),
    takenNow s n 0x3 = true ∧ gState s n g = gStopped :=
  ⟨0, 0, stOn gangUp [(F.MILL_GANG_STATUS_STATE, 0, gStopped)], by decide +kernel⟩

theorem test_meets_GangStopsAndResumes_17 : ∃ (n : Node) (g : GangIx) (s : Block),
    takenNow s n 0x3 = true ∧ gState s n g ≠ gStopped :=
  ⟨0, 0, gangUp, by decide +kernel⟩

theorem test_meets_GangStopsAndResumes_18 : ∃ (n : Node) (g : GangIx) (s : Block) (m : Mop) (rest : List Mop),
    takenNow s n 0x3 = true ∧ gState s n g = gStopped ∧ fbit s n F.MILL_RESUME_CTRL_VALID g = true ∧ (gang s n g).flight = m :: rest :=
  ⟨0, 0, stOn gangUp [(F.MILL_GANG_STATUS_STATE, 0, gStopped), (F.MILL_RESUME_CTRL_VALID, 0, 1)], op1, [], by decide +kernel⟩

theorem test_meets_StagingOwnersAndAccesses_1 : ∃ (n : Node) (b : Fin 8) (o : Fin 32) (s : Block),
    takenNow s n 0x8 = true ∧ bankPending s n b = true :=
  ⟨0, 0, 1, stOf [(F.STG_BANK_OWNER_PENDING, 0, 1)], by decide +kernel⟩

theorem test_meets_StagingOwnersAndAccesses_2 : ∃ (n : Node) (b : Fin 8) (o : Fin 32) (s : Block),
    takenNow s n 0x8 = true ∧ bankPending s n b = false ∧ (0x1A ≤ o.val ∧ o.val ≤ 0x1E) :=
  ⟨0, 0, 0x1B, Block.reset, by decide +kernel⟩

theorem test_meets_StagingOwnersAndAccesses_3 : ∃ (n : Node) (b : Fin 8) (o : Fin 32) (s : Block),
    takenNow s n 0x8 = true ∧ bankPending s n b = false ∧ (¬ (0x1A ≤ o.val ∧ o.val ≤ 0x1E)) ∧ o.val ≠ bankCurrent s n b :=
  ⟨0, 0, 1, Block.reset, by decide +kernel⟩

theorem test_meets_StagingOwnersAndAccesses_4 : ∃ (n : Node) (b : Fin 8) (o : Fin 32) (s : Block),
    takenNow s n 0x8 = true ∧ bankPending s n b = false ∧ (¬ (0x1A ≤ o.val ∧ o.val ≤ 0x1E)) ∧ o.val = bankCurrent s n b :=
  ⟨0, 0, 0x1F, Block.reset, by decide +kernel⟩

theorem test_meets_StagingOwnersAndAccesses_5 : ∃ (n : Node) (b : Fin 8) (s : Block),
    bankPending s n b = true ∧ bankDrained s n b = true :=
  ⟨0, 0, stOf [(F.STG_BANK_OWNER_PENDING, 0, 1)], by decide +kernel⟩

theorem test_meets_StagingOwnersAndAccesses_6 : ∃ (n : Node) (m : Fin 32) (al : Fin 3) (req : MemReq) (s : Block),
    inRun s n = true ∧ (2 ^ 27 < req.addr + req.bytes.length ∨ 2 ^ 27 ≤ req.addr) :=
  ⟨0, 0, 0, ⟨false, 2 ^ 27, [none]⟩, Block.reset, by decide +kernel⟩

theorem test_meets_StagingOwnersAndAccesses_7 : ∃ (n : Node) (m : Fin 32) (al : Fin 3) (req : MemReq) (s b : Block) (k : Nat),
    inRun s n = true ∧ req.addr + req.bytes.length ≤ 2 ^ 27 ∧ req.addr < 2 ^ 27 ∧ netEnd s n m (0x20 + bankOf req.addr) (bankAddr al req.addr) = some (k, b) :=
  ⟨0, 0, 0, ⟨false, 0, [none]⟩, noRouteUp 0 0x20, (noRouteRaise (noRouteUp 0 0x20) 0 (Config.routerOf 0).val), rspNoRoute, by decide +kernel, by decide, by decide, noRouteUp_ends 0 0x20 _⟩

theorem test_meets_StagingOwnersAndAccesses_8 : ∃ (n : Node) (m : Fin 32) (al : Fin 3) (req : MemReq) (s : Block),
    inRun s n = true ∧ req.addr + req.bytes.length ≤ 2 ^ 27 ∧ req.addr < 2 ^ 27 ∧ netEnd s n m (0x20 + bankOf req.addr) (bankAddr al req.addr) = none ∧ isolatedEp s n (0x20 + bankOf req.addr) = true :=
  ⟨0, 0, 0, ⟨false, 0, [none]⟩, rput Block.reset 0 .NOC_ISOLATE (ix 1) 1, by decide +kernel⟩

theorem test_meets_StagingOwnersAndAccesses_9 : ∃ (n : Node) (m : Fin 32) (al : Fin 3) (req : MemReq) (s : Block),
    inRun s n = true ∧ req.addr + req.bytes.length ≤ 2 ^ 27 ∧ req.addr < 2 ^ 27 ∧ netEnd s n m (0x20 + bankOf req.addr) (bankAddr al req.addr) = none ∧ isolatedEp s n (0x20 + bankOf req.addr) = false ∧ al.val ≠ 0 ∧ aliasSizeOk req = false :=
  ⟨0, 0, 1, ⟨false, 0, [none, none, none]⟩, Block.reset, by decide +kernel⟩

theorem test_meets_StagingOwnersAndAccesses_10 : ∃ (n : Node) (m : Fin 32) (al : Fin 3) (req : MemReq) (s : Block),
    inRun s n = true ∧ req.addr + req.bytes.length ≤ 2 ^ 27 ∧ req.addr < 2 ^ 27 ∧ netEnd s n m (0x20 + bankOf req.addr) (bankAddr al req.addr) = none ∧ isolatedEp s n (0x20 + bankOf req.addr) = false ∧ (al.val = 0 ∨ aliasSizeOk req = true) ∧ domAccess s n 7 = none :=
  ⟨0, 0, 0, ⟨false, 0, [none]⟩, stOf [(F.NOC_DOMAIN_BRIDGE, ix 7, 2), (F.NOC_DOMAIN_WAKE_ON_ACCESS, ix 7, 0)], by decide +kernel⟩

theorem test_meets_StagingOwnersAndAccesses_11 : ∃ (n : Node) (m : Fin 32) (al : Fin 3) (req : MemReq) (s b : Block),
    inRun s n = true ∧ req.addr + req.bytes.length ≤ 2 ^ 27 ∧ req.addr < 2 ^ 27 ∧ netEnd s n m (0x20 + bankOf req.addr) (bankAddr al req.addr) = none ∧ isolatedEp s n (0x20 + bankOf req.addr) = false ∧ (al.val = 0 ∨ aliasSizeOk req = true) ∧ domAccess s n 7 = some b ∧ bankTreat b n (bankOf req.addr) m = .serve :=
  ⟨0, 3, 0, ⟨false, 0, [none]⟩, stOf [(F.STG_BANK_OWNER_CURRENT, 0, 3)], stOf [(F.STG_BANK_OWNER_CURRENT, 0, 3)], by decide +kernel⟩

theorem test_meets_StagingOwnersAndAccesses_12 : ∃ (n : Node) (m : Fin 32) (al : Fin 3) (req : MemReq) (s b : Block),
    inRun s n = true ∧ req.addr + req.bytes.length ≤ 2 ^ 27 ∧ req.addr < 2 ^ 27 ∧ netEnd s n m (0x20 + bankOf req.addr) (bankAddr al req.addr) = none ∧ isolatedEp s n (0x20 + bankOf req.addr) = false ∧ (al.val = 0 ∨ aliasSizeOk req = true) ∧ domAccess s n 7 = some b ∧ bankTreat b n (bankOf req.addr) m = .nonOwner :=
  ⟨0, 3, 0, ⟨false, 0, [none]⟩, Block.reset, Block.reset, by decide +kernel⟩

theorem test_meets_StagingOwnersAndAccesses_13 : ∃ (n : Node) (m : Fin 32) (al : Fin 3) (req : MemReq) (s b : Block),
    inRun s n = true ∧ req.addr + req.bytes.length ≤ 2 ^ 27 ∧ req.addr < 2 ^ 27 ∧ netEnd s n m (0x20 + bankOf req.addr) (bankAddr al req.addr) = none ∧ isolatedEp s n (0x20 + bankOf req.addr) = false ∧ (al.val = 0 ∨ aliasSizeOk req = true) ∧ domAccess s n 7 = some b ∧ bankTreat b n (bankOf req.addr) m = .stall :=
  ⟨0, 3, 0, ⟨false, 0, [none]⟩, stOf [(F.STG_BANK_OWNER_OWNER, 0, 3), (F.STG_BANK_OWNER_PENDING, 0, 1)], stOf [(F.STG_BANK_OWNER_OWNER, 0, 3), (F.STG_BANK_OWNER_PENDING, 0, 1)], by decide +kernel⟩

theorem test_meets_StagingOwnersAndAccesses_14 : ∃ (n : Node) (m : Fin 32) (al : Fin 3) (req : MemReq) (s : Block) (r : Fin 48),
    inRun s n = true :=
  ⟨0, 0, 0, ⟨false, 0, [none]⟩, Block.reset, 3, by decide +kernel⟩

theorem test_meets_StagingOwnersAndAccesses_15 : ∃ (n : Node) (m : Fin 32) (al : Fin 3) (req : MemReq) (s : Block) (a : MemAns),
    inRun s n = true ∧ stgReq s n m al req = some a :=
  ⟨0, 0, 0, ⟨false, 2 ^ 27, [none]⟩, Block.reset, ⟨rspDecErr, onesData ⟨false, 2 ^ 27, [none]⟩, Block.reset⟩, by decide +kernel, rfl⟩

theorem test_meets_RecordStoreAndRings_1 : ∃ (n : Node) (m : Fin 32) (req : MemReq) (s b : Block),
    inRun s n = true ∧ req.addr + req.bytes.length ≤ 96 * 2 ^ 30 ∧ netEnd s n m (0x28 + recStackOf req.addr) (recLocal req.addr) = none ∧ isolatedEp s n (0x28 + recStackOf req.addr) = false ∧ domAccess s n 4 = some b ∧ req.wr = true :=
  ⟨0, 0, ⟨true, 0, [some 1]⟩, Block.reset, Block.reset, by decide +kernel⟩

theorem test_meets_RecordStoreAndRings_2 : ∃ (n : Node) (m : Fin 32) (req : MemReq) (s b : Block) (bs : Option (List (BitVec 8))) (b2 : Block),
    inRun s n = true ∧ req.addr + req.bytes.length ≤ 96 * 2 ^ 30 ∧ netEnd s n m (0x28 + recStackOf req.addr) (recLocal req.addr) = none ∧ isolatedEp s n (0x28 + recStackOf req.addr) = false ∧ domAccess s n 4 = some b ∧ req.wr = false ∧ memLoad b .record n req.addr req.bytes.length = (bs, b2) :=
  ⟨0, 0, ⟨false, 0, [none]⟩, Block.reset, Block.reset, some [0], Block.reset, by decide +kernel⟩

theorem test_meets_RecordStoreAndRings_3 : ∃ (n : Node) (m : Fin 32) (req : MemReq) (s : Block),
    inRun s n = true ∧ 96 * 2 ^ 30 < req.addr + req.bytes.length :=
  ⟨0, 0, ⟨false, 96 * 2 ^ 30, [none]⟩, Block.reset, by decide +kernel⟩

theorem test_meets_RecordStoreAndRings_4 : ∃ (n : Node) (m : Fin 32) (req : MemReq) (s b : Block) (k : Nat),
    inRun s n = true ∧ req.addr + req.bytes.length ≤ 96 * 2 ^ 30 ∧ netEnd s n m (0x28 + recStackOf req.addr) (recLocal req.addr) = some (k, b) :=
  ⟨0, 0, ⟨false, 0, [none]⟩, noRouteUp 0 0x28, noRouteRaise (noRouteUp 0 0x28) 0 (Config.routerOf 0).val, rspNoRoute, by decide +kernel, by decide, noRouteUp_ends 0 0x28 _⟩

theorem test_meets_RecordStoreAndRings_5 : ∃ (n : Node) (m : Fin 32) (req : MemReq) (s : Block),
    inRun s n = true ∧ req.addr + req.bytes.length ≤ 96 * 2 ^ 30 ∧ netEnd s n m (0x28 + recStackOf req.addr) (recLocal req.addr) = none ∧ isolatedEp s n (0x28 + recStackOf req.addr) = true :=
  ⟨0, 0, ⟨false, 0, [none]⟩, rput Block.reset 0 .NOC_ISOLATE (ix 1) 0x100, by decide +kernel⟩

theorem test_meets_RecordStoreAndRings_6 : ∃ (n : Node) (m : Fin 32) (req : MemReq) (s : Block),
    inRun s n = true ∧ req.addr + req.bytes.length ≤ 96 * 2 ^ 30 ∧ netEnd s n m (0x28 + recStackOf req.addr) (recLocal req.addr) = none ∧ isolatedEp s n (0x28 + recStackOf req.addr) = false ∧ domAccess s n 4 = none :=
  ⟨0, 0, ⟨false, 0, [none]⟩, stOf [(F.NOC_DOMAIN_BRIDGE, ix 4, 2), (F.NOC_DOMAIN_WAKE_ON_ACCESS, ix 4, 0)], by decide +kernel⟩

theorem test_meets_RecordStoreAndRings_7 : ∃ (n : Node) (m : Fin 32) (req : MemReq) (s : Block) (r : Fin 48),
    inRun s n = true :=
  ⟨0, 0, ⟨false, 0, [none]⟩, Block.reset, 3, by decide +kernel⟩

theorem test_meets_RecordStoreAndRings_8 : ∃ (n : Node) (m : Fin 32) (req : MemReq) (s : Block),
    inRun s n = true :=
  ⟨0, 0, ⟨false, 0, [none]⟩, Block.reset, by decide +kernel⟩

theorem test_meets_RecordStoreAndRings_9 : ∃ (n : Node) (s : Block),
    fget s n F.REC_SCRUB_STATE = 2 ∧ inRun s n = true ∧ fget s n F.NOC_DOMAIN_BRIDGE (ix 4) = 0 :=
  ⟨0, stOf [(F.REC_SCRUB_STATE, 0, 2)], by decide +kernel⟩

theorem test_meets_RecordStoreAndRings_10 : ∃ (n : Node) (fails : BitVec 8) (s : Block),
    inRun s n = true ∧ fget s n F.STG_TEST_STATE = 2 :=
  ⟨0, 0, stOf [(F.STG_TEST_STATE, 0, 2)], by decide +kernel⟩

theorem test_meets_RecordStoreAndRings_12 : ∃ (n : Node) (r : Fin 32) (s : Block),
    takenNow s n 0x9 = true ∧ ringF s n r F.REC_RING_CTRL_TRIGGERED = 0 ∧ (ringF s n r F.REC_RING_CTRL_TRIGSRC).testBit 0 = true :=
  ⟨0, 0, stOf [(F.REC_RING_CTRL_TRIGSRC, 0, 1)], by decide +kernel⟩

theorem test_meets_RecordStoreAndRings_13 : ∃ (n : Node) (r : Fin 32) (s : Block),
    takenNow s n 0x9 = true ∧ (ringF s n r F.REC_RING_CTRL_TRIGGERED ≠ 0 ∨ (ringF s n r F.REC_RING_CTRL_TRIGSRC).testBit 0 = false) :=
  ⟨0, 0, Block.reset, by decide +kernel⟩

theorem test_meets_RecordStoreAndRings_14 : ∃ (n : Node) (r : Fin 32) (s : Block),
    ringRoom s n r = some 0 :=
  ⟨0, 0, stOf [(F.REC_RING_CTRL_TRIGGERED, 0, 1), (F.REC_RING_CTRL_POST, 0, 0)], by decide +kernel⟩

theorem test_meets_RecordStoreAndRings_15 : ∃ (n : Node) (r : Fin 32) (s : Block),
    takenNow s n 0x9 = true :=
  ⟨0, 0, Block.reset, by decide +kernel⟩

theorem test_meets_RecordStoreAndRings_16 : ∃ (n : Node) (r : Fin 32) (s : Block),
    takenNow s n 0x9 = true ∧ ringF s n r F.REC_RING_CTRL_STATE = 0 :=
  ⟨0, 0, Block.reset, by decide +kernel⟩

theorem test_meets_RecordStoreAndRings_17 : ∃ (n : Node) (r : Fin 32) (s : Block),
    takenNow s n 0x9 = true ∧ ringF s n r F.REC_RING_CTRL_STATE = 2 :=
  ⟨0, 0, stOf [(F.REC_RING_CTRL_STATE, 0, 2)], by decide +kernel⟩

theorem test_meets_RecordStoreAndRings_18 : ∃ (n : Node) (r : Fin 32) (s : Block),
    inRun s n = true ∧ ringF s n r F.REC_RING_CTRL_STATE = 1 :=
  ⟨0, 0, stOf [(F.REC_RING_CTRL_STATE, 0, 1)], by decide +kernel⟩

theorem test_meets_WheelsAndSensorLanes_1 : ∃ (n : Node) (t : TileIx) (k : Half) (way : BusWay) (s b : Block) (gn g num : Nat) (m : Mop) (l : Latch),
    inRun s n = true ∧ tileOwner s (tkey n t) = some (gn, g) ∧ (tile s (tkey n t)).mop = some num ∧ findOp (gang s gn g) num = some m ∧ (mopFields m.word).opc = 0x53 ∧ (tile s (tkey n t)).whlReady = false ∧ takeLatch s n (gkey gn g) m = (some l, b) ∧ xferStalls b n ((mopFields m.word).prm % 4) (slotOf b n (ix ((mopFields m.word).prm % 4 * 64 + (mopFields m.word).prm / 4 % 64))) = false :=
  ⟨0, 0, 3, .served, winUp, winUp, 0, 0, 1, winOp, winLatch, by decide +kernel⟩

theorem test_meets_WheelsAndSensorLanes_2 : ∃ (n : Node) (t : TileIx) (k : Half) (way : BusWay) (s b : Block) (gn g num : Nat) (m : Mop) (l : Latch),
    inRun s n = true ∧ tileOwner s (tkey n t) = some (gn, g) ∧ (tile s (tkey n t)).mop = some num ∧ findOp (gang s gn g) num = some m ∧ (mopFields m.word).opc = 0x54 ∧ (tile s (tkey n t)).whlReady = false ∧ takeLatch s n (gkey gn g) m = (some l, b) ∧ xferStalls b n ((mopFields m.word).prm % 4) (slotOf b n (ix ((mopFields m.word).prm % 4 * 64 + (mopFields m.word).prm / 4 % 64))) = false :=
  ⟨0, 0, 3, .served, woutUp, woutUp, 0, 0, 1, woutOp, winLatch, by decide +kernel⟩

theorem test_meets_WheelsAndSensorLanes_3 : ∃ (n : Node) (e : Fin 4) (s : Block),
    takenNow s n 0x7 = true ∧ fget s n F.WHL_ENG_STATE (ix e) = 0 :=
  ⟨0, 0, stOf [(F.WHL_ENG_STATE, 0, 0)], by decide +kernel⟩

theorem test_meets_WheelsAndSensorLanes_4 : ∃ (n : Node) (e : Fin 4) (s : Block),
    takenNow s n 0x7 = true ∧ fget s n F.WHL_ENG_STATE (ix e) = 2 :=
  ⟨0, 0, stOf [(F.WHL_ENG_STATE, 0, 2)], by decide +kernel⟩

theorem test_meets_WheelsAndSensorLanes_5 : ∃ (n : Node) (e : Fin 4) (s : Block),
    inRun s n = true ∧ fget s n F.WHL_ENG_STATE (ix e) = 1 ∧ slotsOwed s n e = 0 :=
  ⟨0, 0, stOf [(F.WHL_ENG_STATE, 0, 1)], by decide +kernel⟩

theorem test_meets_WheelsAndSensorLanes_6 : ∃ (n : Node) (k : Fin 16) (s : Block),
    takenNow s n 0xA = true ∧ fget s n F.SP_JLINK_CFG0_STATE (ix k) = 0 ∧ jlinkMayStart s n k = true :=
  ⟨0, 0, jcfgUp, by decide +kernel⟩

theorem test_meets_WheelsAndSensorLanes_7 : ∃ (n : Node) (k : Fin 16) (s : Block),
    takenNow s n 0xA = true ∧ fget s n F.SP_JLINK_CFG0_STATE (ix k) = 0 ∧ jlinkMayStart s n k = false :=
  ⟨0, 0, Block.reset, by decide +kernel⟩

theorem test_meets_WheelsAndSensorLanes_8 : ∃ (n : Node) (k : Fin 16) (s : Block),
    takenNow s n 0xA = true ∧ fget s n F.SP_JLINK_CFG0_STATE (ix k) = 2 :=
  ⟨0, 0, stOf [(F.SP_JLINK_CFG0_STATE, 0, 2)], by decide +kernel⟩

theorem test_meets_WheelsAndSensorLanes_9 : ∃ (n : Node) (k : Fin 16) (s : Block) (t : Nat),
    mget (fun _ => none) s.sysref n = some t ∧ jlinkOn s n k = true ∧ jlinkIsUp s n k = false ∧ linkFresh s n k t = true ∧ ((jlanes s n k).all fun p => laneState s n p == lnUp) = true :=
  ⟨0, 0, { stOn jcfgUp [(F.SP_JLINK_CFG0_STATE, 0, 2), (F.SP_LANE_STATUS_STATE, 0, lnUp), (F.SP_LANE_STATUS_STATE, 1, lnUp), (F.SP_LANE_STATUS_STATE, 2, lnUp)] with sysref := [(0, some 5)] }, 5, by decide +kernel⟩

theorem test_meets_WheelsAndSensorLanes_10 : ∃ (n : Node) (p : Fin 24) (s : Block),
    laneActive s n p = true ∧ fget s n F.NOC_DOMAIN_BRIDGE (ix 5) ≠ 2 ∧ (laneState s n p = lnNoSignal ∨ laneState s n p = lnLocking) ∧ laneRate s n p = quadRate s n p ∧ rateOk s n p = true :=
  ⟨0, 0, stOn laneUp0 [(F.SP_LANE_CFG_RATE_MBPS, 0, 10000)], by decide +kernel⟩

theorem test_meets_WheelsAndSensorLanes_11 : ∃ (n : Node) (p : Fin 24) (s : Block),
    laneActive s n p = true ∧ fget s n F.NOC_DOMAIN_BRIDGE (ix 5) ≠ 2 ∧ (laneState s n p = lnNoSignal ∨ laneState s n p = lnLocking) ∧ laneRate s n p ≠ quadRate s n p :=
  ⟨0, 1, stOf [(F.SP_LANE_CFG_RXMODE, 0, mJesd), (F.SP_LANE_CFG_RATE_MBPS, 0, 10000), (F.SP_LANE_CFG_RXMODE, 1, mJesd), (F.SP_LANE_STATUS_STATE, 1, lnNoSignal)], by decide +kernel⟩

theorem test_meets_WheelsAndSensorLanes_12 : ∃ (n : Node) (p : Fin 24) (s : Block),
    laneState s n p = lnUp ∧ rxMode s n p = mJesd :=
  ⟨0, 0, jesdLane, by decide +kernel⟩

theorem test_meets_WheelsAndSensorLanes_13 : ∃ (n : Node) (p : Fin 24) (s : Block),
    (laneState s n p = lnUp ∨ laneState s n p = lnLocking) ∧ rxMode (setLaneState s n p lnNoSignal) n p ≠ mWsl :=
  ⟨0, 0, jesdLane, by decide +kernel⟩

theorem test_meets_WheelsAndSensorLanes_14 : ∃ (n : Node) (p : Fin 24) (s : Block),
    (laneState s n p = lnUp ∨ laneState s n p = lnLocking) ∧ rxMode (setLaneState s n p lnNoSignal) n p = mWsl :=
  ⟨0, 0, wslLane, by decide +kernel⟩

theorem test_meets_SensorPacketsAndPulses_1 : ∃ (n : Node) (k : Fin 8) (bad : BitVec 8) (octs : List (BitVec 64)) (s : Block),
    inRun s n = true ∧ jlinkOn s n k = true ∧ jlinkIsUp s n k = true :=
  ⟨0, 0, 0, [], stOf [(F.SP_JLINK_CFG0_STATE, 0, 2), (F.SP_JLINK_STATUS_UP, 0, 1)], by decide +kernel⟩

theorem test_meets_SensorPacketsAndPulses_2 : ∃ (n : Node) (s : Block),
    fget s n F.SP_SYSREF_PERIOD_NS ≠ 0 :=
  ⟨0, stOf [(F.SP_SYSREF_PERIOD_NS, 0, 1000)], by decide +kernel⟩

theorem test_meets_SensorPacketsAndPulses_3 : ∃ (n : Node) (p : Fin 24) (bytes : List (BitVec 8)) (period : Nat) (s : Block) (k : WslPkt),
    inRun s n = true ∧ wslUp s n p = true ∧ wslParse bytes = some k ∧ k.typ = 1 ∧ samplesLenOk k = true ∧ (lane (wslSeen s n p k) n p).down = false ∧ fbit (wslSeen s n p k) n F.CHR_FE_PRESENT p = true :=
  ⟨0, 0, wslBytes 1 [0, 0, 1, 0, 1, 2, 3, 4], 10, stOn wslLane [(F.CHR_FE_PRESENT, 0, 1)], ⟨1, 0, 0, 0, [0, 0, 1, 0, 1, 2, 3, 4]⟩, by decide +kernel⟩

theorem test_meets_SensorPacketsAndPulses_4 : ∃ (n : Node) (p : Fin 24) (bytes : List (BitVec 8)) (s : Block) (k : WslPkt),
    inRun s n = true ∧ wslUp s n p = true ∧ wslParse bytes = some k ∧ k.typ = 3 :=
  ⟨0, 0, wslBytes 3 [], wslLane, ⟨3, 0, 0, 0, []⟩, by decide +kernel⟩

theorem test_meets_SensorPacketsAndPulses_5 : ∃ (n : Node) (p : Fin 24) (bytes : List (BitVec 8)) (s : Block),
    inRun s n = true ∧ wslUp s n p = true :=
  ⟨0, 0, [], wslLane, by decide +kernel⟩

theorem test_meets_SensorPacketsAndPulses_6 : ∃ (n : Node) (p : Fin 24) (bytes : List (BitVec 8)) (s : Block) (k : WslPkt),
    inRun s n = true ∧ wslUp s n p = true ∧ wslParse bytes = some k ∧ k.typ = 4 :=
  ⟨0, 0, wslBytes 4 [9], wslLane, ⟨4, 0, 0, 0, [9]⟩, by decide +kernel⟩

theorem test_meets_SensorPacketsAndPulses_7 : ∃ (n : Node) (p : Fin 24) (bytes : List (BitVec 8)) (s : Block),
    inRun s n = true ∧ wslUp s n p = true ∧ bytes.length ≤ 2048 :=
  ⟨0, 0, [], wslLane, by decide +kernel⟩

theorem test_meets_SensorPacketsAndPulses_8 : ∃ (n : Node) (p : Fin 24) (bytes : List (BitVec 8)) (period : Nat) (s : Block),
    inRun s n = true ∧ wslUp s n p = true ∧ wslParse bytes = none :=
  ⟨0, 0, [], 10, wslLane, by decide +kernel⟩

theorem test_meets_SensorPacketsAndPulses_9 : ∃ (n : Node) (p : Fin 24) (w : DWord) (s : Block),
    inRun s n = true ∧ rxMode s n p = mRaw ∧ regionLive s n (p / 3) = true :=
  ⟨0, 0, 7, stOf [(F.SP_LANE_CFG_RXMODE, 0, mRaw), (F.GKO_REGION_CTRL_STATE, 0, 2), (F.GKO_REGION_CTRL_PHASE, 0, 4)], by decide +kernel⟩

theorem test_meets_SensorPacketsAndPulses_10 : ∃ (n : Node) (p : Fin 24) (w : DWord) (s : Block),
    inRun s n = true ∧ txMode s n p = mRaw ∧ regionLive s n (p / 3) = true :=
  ⟨0, 0, 7, stOf [(F.SP_LANE_CFG_TXMODE, 0, mRaw), (F.GKO_REGION_CTRL_STATE, 0, 2), (F.GKO_REGION_CTRL_PHASE, 0, 4)], by decide +kernel⟩

theorem test_meets_StreamsRunAndDrain_1 : ∃ (n : Node) (t : Fin 64) (s : Block) (w : ChWrite) (rest : List ChWrite) (a : MemAns),
    inRun s n = true ∧ (strm s n t).writes = w :: rest ∧ strmReq s n t ⟨true, sampleAddr s n t w.slot w.num, (container w.value).map some⟩ = some a :=
  ⟨0, 0, strmUp, write0, [], (strmReq strmUp 0 0 ⟨true, sampleAddr strmUp 0 0 0 0, (container 5).map some⟩).get (by decide +kernel), ⟨by decide +kernel, by decide +kernel, (Option.some_get _).symm⟩⟩

theorem test_meets_StreamsRunAndDrain_2 : ∃ (n : Node) (c : Fin 16384) (s : Block) (due : Nat),
    inRun s n = true ∧ rtValid (chan s n c).route = true ∧ strmState s n (rtStream (chan s n c).route) = 2 ∧ nextDue s n c = some due :=
  ⟨0, 0, strmRun, 100, by decide +kernel⟩

theorem test_meets_StreamsRunAndDrain_3 : ∃ (n : Node) (t : Fin 64) (s b : Block),
    inRun s n = true ∧ strmState s n t = 2 ∧ blockReady s n t = true ∧ completeBlock s n t = some b :=
  ⟨0, 0, strmFull, (completeBlock strmFull 0 0).get (by decide +kernel), ⟨by decide +kernel, by decide +kernel, by decide +kernel, (Option.some_get _).symm⟩⟩

theorem test_meets_StreamsRunAndDrain_4 : ∃ (n : Node) (t : Fin 64) (s : Block),
    takenNow s n 0xB = true ∧ strmState s n t = 0 :=
  ⟨0, 0, Block.reset, by decide +kernel⟩

theorem test_meets_StreamsRunAndDrain_5 : ∃ (n : Node) (t : Fin 64) (s : Block),
    takenNow s n 0xB = true ∧ strmState s n t = 2 :=
  ⟨0, 0, stOf [(F.CH_STRM_CTRL_STATE, 0, 2)], by decide +kernel⟩

theorem test_meets_StreamsRunAndDrain_6 : ∃ (n : Node) (t : Fin 64) (s c : Block),
    inRun s n = true ∧ strmState s n t = 1 ∧ (strm (drainWrites s n t) n t).writes = [] ∧ completeBlock (drainWrites s n t) n t = some c :=
  ⟨0, 0, strmDrain, (completeBlock (drainWrites strmDrain 0 0) 0 0).get (by decide +kernel), ⟨by decide +kernel, by decide +kernel, by decide +kernel, (Option.some_get _).symm⟩⟩

theorem test_meets_DriveOutputsPlayAndMute_1 : ∃ (n : Node) (o : Fin 256) (count : BitVec 12) (s : Block),
    clocked s n = true ∧ drvState s n o ≠ 0 :=
  ⟨0, 0, 1, stOf [(F.DRV_CFG_STATE, 0, 2)], by decide +kernel⟩

theorem test_meets_DriveOutputsPlayAndMute_2 : ∃ (n : Node) (o : Fin 256) (s : Block),
    clocked s n = true ∧ drvState s n o = 0 :=
  ⟨0, 0, stOf [(F.DRV_CFG_SINKKIND, 0, 1)], by decide +kernel⟩

theorem test_meets_DriveOutputsPlayAndMute_3 : ∃ (n : Node) (o : Fin 256) (s : Block),
    clocked s n = true ∧ drvState s n o ≠ 0 ∧ (drv s n o).period ≠ 0 :=
  ⟨0, 0, putDrv (stOf [(F.DRV_CFG_STATE, 0, 2)]) 0 0 { period := 256 }, by decide +kernel⟩

theorem test_meets_DriveOutputsPlayAndMute_4 : ∃ (n : Node) (o : Fin 256) (half : Fin 3) (v : DWord) (s : Block),
    takenNow s n 0xC = true ∧ (drvState s n o = 0 ∨ drvReady s n o ≤ halfWrite (drvReady s n o) half v.toNat) :=
  ⟨0, 0, 0, 5, Block.reset, by decide +kernel⟩

theorem test_meets_DriveOutputsPlayAndMute_5 : ∃ (n : Node) (o : Fin 256) (half : Fin 3) (v : DWord) (s : Block),
    takenNow s n 0xC = true ∧ drvState s n o ≠ 0 ∧ halfWrite (drvReady s n o) half v.toNat < drvReady s n o :=
  ⟨0, 0, 0, 0, put64 (stOf [(F.DRV_CFG_STATE, 0, 2)]) 0 .DRV_READY 0 0 5, by decide +kernel⟩

theorem test_meets_DriveOutputsPlayAndMute_6 : ∃ (n : Node) (o : Fin 256) (s : Block),
    takenNow s n 0xC = true ∧ drvState s n o = 0 :=
  ⟨0, 0, Block.reset, by decide +kernel⟩

theorem test_meets_DriveOutputsPlayAndMute_7 : ∃ (n : Node) (o : Fin 256) (s : Block),
    takenNow s n 0xC = true ∧ drvState s n o ≠ 0 ∧ (drvPlay s n o = pMuted ∨ drvPlay s n o = pRampDown) :=
  ⟨0, 0, stOf [(F.DRV_CFG_STATE, 0, 2)], by decide +kernel⟩

theorem test_meets_DriveOutputsPlayAndMute_8 : ∃ (n : Node) (o : Fin 256) (s : Block),
    takenNow s n 0xC = true ∧ drvState s n o ≠ 0 ∧ drvPlay s n o = pRampUp :=
  ⟨0, 0, stOf [(F.DRV_CFG_STATE, 0, 2), (F.DRV_STATUS_PLAY, 0, 1)], by decide +kernel⟩

theorem test_meets_DriveOutputsPlayAndMute_9 : ∃ (n : Node) (o : Fin 256) (s : Block),
    takenNow s n 0xC = true ∧ drvState s n o ≠ 0 ∧ drvPlay s n o = pPlaying :=
  ⟨0, 0, stOf [(F.DRV_CFG_STATE, 0, 2), (F.DRV_STATUS_PLAY, 0, 2)], by decide +kernel⟩

theorem test_meets_DriveOutputsPlayAndMute_10 : ∃ (n : Node) (s : Block),
    takenNow s n 0xC = true :=
  ⟨0, Block.reset, by decide +kernel⟩

theorem test_meets_DriveOutputsPlayAndMute_11 : ∃ (n : Node) (o : Fin 256) (s : Block),
    takenNow s n 0xC = true ∧ drvState s n o = 2 ∧ drvPlay s n o = pMuted ∧ inhibited s n = false ∧ (drv s n o).period ≠ 0 ∧ drvPos s n o + rampLen (fget s n F.DRV_RAMP_RAMP_MS o) (drv s n o).period < drvReady s n o :=
  ⟨0, 0, put64 (putDrv (stOf [(F.DRV_CFG_STATE, 0, 2)]) 0 0 { period := 256 }) 0 .DRV_READY 0 0 (2 ^ 40), by decide +kernel⟩

theorem test_meets_DriveOutputsPlayAndMute_12 : ∃ (n : Node) (o : Fin 256) (s : Block),
    takenNow s n 0xC = true ∧ (drvState s n o ≠ 2 ∨ drvPlay s n o = pRampDown ∨ (drvPlay s n o = pMuted ∧ (inhibited s n = true ∨ (drv s n o).period = 0 ∨
      drvReady s n o ≤ drvPos s n o + rampLen (fget s n F.DRV_RAMP_RAMP_MS o) (drv s n o).period))) :=
  ⟨0, 0, Block.reset, by decide +kernel⟩

theorem test_meets_DriveOutputsPlayAndMute_13 : ∃ (n : Node) (o : Fin 256) (s : Block),
    takenNow s n 0xC = true ∧ drvState s n o = 0 ∧ fget s n F.DRV_RINGLEN_RINGLEN o = 0 :=
  ⟨0, 0, Block.reset, by decide +kernel⟩

theorem test_meets_DriveOutputsPlayAndMute_14 : ∃ (n : Node) (o : Fin 256) (s : Block),
    takenNow s n 0xC = true ∧ drvState s n o = 0 ∧ fget s n F.DRV_RINGLEN_RINGLEN o ≠ 0 :=
  ⟨0, 0, stOf [(F.DRV_RINGLEN_RINGLEN, 0, 4)], by decide +kernel⟩

theorem test_meets_DriveOutputsPlayAndMute_15 : ∃ (n : Node) (o : Fin 256) (s : Block),
    takenNow s n 0xC = true ∧ drvState s n o = 2 :=
  ⟨0, 0, stOf [(F.DRV_CFG_STATE, 0, 2)], by decide +kernel⟩

theorem test_meets_DriveOutputsPlayAndMute_16 : ∃ (n : Node) (s : Block),
    inhibited s n = false :=
  ⟨0, Block.reset, by decide +kernel⟩

theorem test_meets_DriveOutputsPlayAndMute_17 : ∃ (n : Node) (s : Block),
    inhibited s n = true :=
  ⟨0, stOf [(F.DRV_GLOBAL_INHIBIT, 0, 1)], by decide +kernel⟩

theorem test_meets_LogAndDeadlines_1 : ∃ (c : Ctx) (n : Node) (d : DWord) (s : Block),
    takenBy s c n 0xD = true ∧ logOn s n = true :=
  ⟨.queue 0, 0, 5, stOf [(F.LOG_CTRL_STATE, 0, 2)], by decide +kernel⟩

theorem test_meets_LogAndDeadlines_2 : ∃ (c : Ctx) (n : Node) (d : DWord) (s : Block),
    takenBy s c n 0xD = true ∧ logOn s n = false :=
  ⟨.queue 0, 0, 5, Block.reset, by decide +kernel⟩

theorem test_meets_LogAndDeadlines_3 : ∃ (n : Node) (s : Block) (pos len : Nat) (area : Word) (rest : List (Nat × Nat × Word)),
    inRun s n = true ∧ (logSt s n).queue = (pos, len, area) :: rest ∧ fget s n F.LOG_CTRL_STATE ≠ 0 ∧ get64 s n .LOG_HOST_WPTR + len ≤ get64 s n .LOG_HOST_RPTR + 2 ^ fget s n F.LOG_HOST_SIZE_SIZE_LOG2 :=
  ⟨0, putLog (stOf [(F.LOG_CTRL_STATE, 0, 1), (F.LOG_HOST_SIZE_SIZE_LOG2, 0, 16)]) 0 { queue := [(0, 8, 0x10000)] }, 0, 8, 0x10000, [], by decide +kernel⟩

theorem test_meets_LogAndDeadlines_4 : ∃ (n : Node) (s : Block) (due : Nat),
    (logSt s n).unsigDue = some due :=
  ⟨0, putLog Block.reset 0 { unsigDue := some 7 }, 7, by decide +kernel⟩

theorem test_meets_LogAndDeadlines_5 : ∃ (n : Node) (half : Fin 3) (v : DWord) (s : Block),
    takenNow s n 0xD = true ∧ halfWrite (get64 s n .LOG_HOST_RPTR) half v.toNat ≤ get64 s n .LOG_HOST_WPTR ∧ get64 s n .LOG_HOST_RPTR ≤ halfWrite (get64 s n .LOG_HOST_RPTR) half v.toNat :=
  ⟨0, 0, 0, Block.reset, by decide +kernel⟩

theorem test_meets_LogAndDeadlines_6 : ∃ (n : Node) (half : Fin 3) (v : DWord) (s : Block),
    takenNow s n 0xD = true ∧ (get64 s n .LOG_HOST_WPTR < halfWrite (get64 s n .LOG_HOST_RPTR) half v.toNat ∨ halfWrite (get64 s n .LOG_HOST_RPTR) half v.toNat < get64 s n .LOG_HOST_RPTR) :=
  ⟨0, 0, 5, Block.reset, by decide +kernel⟩

theorem test_meets_LogAndDeadlines_7 : ∃ (n : Node) (s : Block),
    takenNow s n 0xD = true ∧ fget s n F.LOG_CTRL_STATE = 0 :=
  ⟨0, Block.reset, by decide +kernel⟩

theorem test_meets_LogAndDeadlines_8 : ∃ (n : Node) (s : Block),
    takenNow s n 0xD = true ∧ fget s n F.LOG_CTRL_STATE = 2 :=
  ⟨0, stOf [(F.LOG_CTRL_STATE, 0, 2)], by decide +kernel⟩

theorem test_meets_LogAndDeadlines_9 : ∃ (n : Node) (s : Block),
    inRun s n = true ∧ fget s n F.LOG_CTRL_STATE = 1 ∧ (logSt s n).queue = [] :=
  ⟨0, stOf [(F.LOG_CTRL_STATE, 0, 1)], by decide +kernel⟩

theorem test_meets_LogAndDeadlines_10 : ∃ (n : Node) (m : Fin 64) (s : Block),
    takenNow s n 0x13 = true ∧ fget s n F.DLM_CTRL_ARM_SRC m = 0 ∧ dlmOn s n m = true ∧ dlmPhase s n m ≠ dlmArmed :=
  ⟨0, 0, stOf [(F.DLM_CTRL_STATE, 0, 2)], by decide +kernel⟩

theorem test_meets_LogAndDeadlines_11 : ∃ (n : Node) (m : Fin 64) (s : Block),
    takenNow s n 0x13 = true ∧ fget s n F.DLM_CTRL_ARM_SRC m = 0 ∧ dlmOn s n m = true ∧ dlmPhase s n m = dlmArmed :=
  ⟨0, 0, stOf [(F.DLM_CTRL_STATE, 0, 2), (F.DLM_STATUS_PHASE, 0, dlmArmed)], by decide +kernel⟩

theorem test_meets_LogAndDeadlines_12 : ∃ (n : Node) (m : Fin 64) (s : Block),
    takenNow s n 0x13 = true ∧ fget s n F.DLM_CTRL_DONE_SRC m = 0 ∧ dlmOn s n m = true :=
  ⟨0, 0, stOf [(F.DLM_CTRL_STATE, 0, 2)], by decide +kernel⟩

theorem test_meets_LogAndDeadlines_13 : ∃ (n : Node) (m : Fin 64) (s : Block),
    dlmOn s n m = true ∧ dlmPhase s n m = dlmArmed :=
  ⟨0, 0, stOf [(F.DLM_CTRL_STATE, 0, 2), (F.DLM_STATUS_PHASE, 0, dlmArmed)], by decide +kernel⟩

theorem test_meets_LogAndDeadlines_14 : ∃ (n : Node) (m : Fin 64) (s : Block),
    takenNow s n 0x13 = true ∧ fget s n F.DLM_CTRL_STATE m = 0 :=
  ⟨0, 0, Block.reset, by decide +kernel⟩

theorem test_meets_LogAndDeadlines_15 : ∃ (n : Node) (m : Fin 64) (s : Block),
    takenNow s n 0x13 = true ∧ fget s n F.DLM_CTRL_STATE m = 2 :=
  ⟨0, 0, stOf [(F.DLM_CTRL_STATE, 0, 2)], by decide +kernel⟩

theorem test_meets_FabricCellsAndBeats_1 : ∃ (n : Node) (track : Fin 1024) (user : BitVec 16) (s : Block),
    inRun s n = true ∧ contQuiet s n track = true :=
  ⟨0, 0, 3, runRegion, by decide +kernel⟩

theorem test_meets_FabricCellsAndBeats_2 : ∃ (n : Node) (track : Fin 1024) (user : BitVec 16) (s : Block),
    inRun s n = true ∧ contQuiet s n track = false :=
  ⟨0, 0, 3, { runRegion with contAt := [(0, some 0)] }, by decide +kernel⟩

theorem test_meets_FabricCellsAndBeats_3 : ∃ (n : Node) (r : Fin 8) (m : Fin 64) (b : Bool) (w : BitVec 14) (oneClock : Bool) (s : Block),
    inRun s n = true ∧ rgRuns s n r = true ∧ (b && portShape s n r m b == 5) = false :=
  ⟨0, 0, 0, false, 0, false, runRegion, by decide +kernel⟩

theorem test_meets_FabricCellsAndBeats_4 : ∃ (n : Node) (r : Fin 8) (m : Fin 64) (b : Bool) (w w2 : BitVec 14) (d : DWord) (oneClock : Bool) (s : Block),
    inRun s n = true ∧ rgRuns s n r = true ∧ (b && portShape s n r m b == 5) = false :=
  ⟨0, 0, 0, false, 0, 0, 7, false, runRegion, by decide +kernel⟩

theorem test_meets_FabricCellsAndBeats_5 : ∃ (n : Node) (port : Fin 32) (beat : BitVec 128) (period : Word) (taken : BitVec 7) (s : Block),
    inRun s n = true ∧ rgRuns s n (port / 4) = true ∧ (mget (fun _ => []) s.gkoIn (n.val * 32 + port.val)).length < 64 :=
  ⟨0, 0, 5, 6, 0, runRegion, by decide +kernel⟩

theorem test_meets_FabricCellsAndBeats_6 : ∃ (n : Node) (port : Fin 32) (beat : BitVec 128) (period : Word) (taken : BitVec 7) (s : Block),
    inRun s n = true ∧ rgRuns s n (port / 4) = true ∧ 64 ≤ (mget (fun _ => []) s.gkoIn (n.val * 32 + port.val)).length :=
  ⟨0, 0, 5, 6, 0, { runRegion with gkoIn := [(0, List.replicate 64 (0, 0))] }, by decide +kernel⟩

theorem test_meets_FabricCellsAndBeats_7 : ∃ (n : Node) (port : Fin 32) (beat : BitVec 128) (period : Word) (taken : BitVec 7) (s : Block),
    inRun s n = true ∧ rgRuns s n (port / 4) = false :=
  ⟨0, 0, 5, 6, 0, Block.reset, by decide +kernel⟩

theorem test_meets_FabricCellsAndBeats_8 : ∃ (n : Node) (port : Fin 32) (s : Block) (b : BitVec 128) (rest : List (BitVec 128)),
    inRun s n = true ∧ mget (fun _ => []) s.gkoOut (n.val * 32 + port.val) = b :: rest ∧ s.now ≤ (b.extractLsb' 64 64).toNat * 2 ^ 16 + (b.extractLsb' 48 16).toNat :=
  ⟨0, 0, { Block.reset with gkoOut := [(0, [5])] }, 5, [], by decide +kernel⟩

theorem test_meets_FabricCellsAndBeats_9 : ∃ (n : Node) (port : Fin 32) (taken : Bool) (s : Block) (b : BitVec 128) (rest : List (BitVec 128)),
    inRun s n = true ∧ mget (fun _ => []) s.gkoOut (n.val * 32 + port.val) = b :: rest ∧ (taken = false ∨ (b.extractLsb' 64 64).toNat * 2 ^ 16 + (b.extractLsb' 48 16).toNat < s.now) :=
  ⟨0, 0, false, { Block.reset with gkoOut := [(0, [5])] }, 5, [], by decide +kernel⟩

theorem test_meets_FabricCellsAndBeats_10 : ∃ (n : Node) (r : Fin 8) (who : BitVec 8) (req : MemReq) (data : List (BitVec 8)) (s : Block),
    inRun s n = true ∧ netEnd s n who.toNat (0x50 + r) req.addr = none ∧ isolatedEp s n (0x50 + r) = false ∧ rgServes s n r = true :=
  ⟨0, 0, 0, ⟨false, 0, [none]⟩, [], runRegion, by decide +kernel⟩

theorem test_meets_FabricCellsAndBeats_11 : ∃ (n : Node) (r : Fin 8) (who : BitVec 8) (req : MemReq) (data : List (BitVec 8)) (s : Block),
    inRun s n = true ∧ netEnd s n who.toNat (0x50 + r) req.addr = none ∧ (isolatedEp s n (0x50 + r) = true ∨ rgServes s n r = false) :=
  ⟨0, 0, 0, ⟨false, 0, [none]⟩, [], Block.reset, by decide +kernel⟩

theorem test_meets_FabricCellsAndBeats_12 : ∃ (n : Node) (r : Fin 8) (who : BitVec 8) (req : MemReq) (data : List (BitVec 8)) (s b : Block) (k : Nat),
    inRun s n = true ∧ netEnd s n who.toNat (0x50 + r) req.addr = some (k, b) :=
  ⟨0, 0, 0, ⟨false, 0, [none]⟩, [], noRouteUp 0 0x50, noRouteRaise (noRouteUp 0 0x50) 0 (Config.routerOf 0).val, rspNoRoute, by decide +kernel, noRouteUp_ends 0 0x50 _⟩

theorem test_meets_FabricCellsAndBeats_13 : ∃ (n : Node) (r : Fin 8) (who : BitVec 8) (req : MemReq) (data : List (BitVec 8)) (d : Fin 48) (s : Block),
    inRun s n = true :=
  ⟨0, 0, 0, ⟨false, 0, [none]⟩, [], 3, Block.reset, by decide +kernel⟩

theorem test_meets_FabricCellsAndBeats_14 : ∃ (n : Node) (l : Fin 32) (s : Block),
    inRun s n = true ∧ regionLive s n (l / 4) = true :=
  ⟨0, 0, runRegion, by decide +kernel⟩

theorem test_meets_FabricCellsAndBeats_15 : ∃ (n : Node) (l : Fin 16) (s : Block),
    inRun s n = true ∧ regionLive s n (l / 2) = true :=
  ⟨0, 0, runRegion, by decide +kernel⟩

theorem test_meets_FabricRegionsAndCaptures_1 : ∃ (n : Node) (r : Fin 8) (s : Block) (en : Bool),
    takenNow s n 0xE = true ∧ inLoad s n r = true :=
  ⟨0, 0, putLoad Block.reset 0 (some (fabricLoad 1 1 1 [])), false, by decide +kernel⟩

theorem test_meets_FabricRegionsAndCaptures_2 : ∃ (n : Node) (r : Fin 8) (s : Block),
    takenNow s n 0xE = true ∧ inLoad s n r = false ∧ rgState s n r = 0 ∧ rgPhase s n r = phHold :=
  ⟨0, 0, stOf [(F.GKO_REGION_CTRL_PHASE, 0, phHold)], by decide +kernel⟩

theorem test_meets_FabricRegionsAndCaptures_3 : ∃ (n : Node) (r : Fin 8) (s : Block),
    takenNow s n 0xE = true ∧ inLoad s n r = false ∧ rgState s n r ≠ 1 ∧ (rgState s n r ≠ 0 ∨ rgPhase s n r ≠ phHold) :=
  ⟨0, 0, stOf [(F.GKO_REGION_CTRL_PHASE, 0, phRejected)], by decide +kernel⟩

theorem test_meets_FabricRegionsAndCaptures_4 : ∃ (n : Node) (r : Fin 8) (s : Block),
    takenNow s n 0xE = true ∧ inLoad s n r = false ∧ rgState s n r = 1 :=
  ⟨0, 0, stOf [(F.GKO_REGION_CTRL_STATE, 0, 1)], by decide +kernel⟩

theorem test_meets_FabricRegionsAndCaptures_5 : ∃ (n : Node) (r : Fin 8) (s : Block),
    takenNow s n 0xE = true ∧ inLoad s n r = false ∧ rgState s n r = 2 ∧ rgState (fput s n F.GKO_REGION_CTRL_EN (ix r) 0) n r = 2 :=
  ⟨0, 0, runRegion, by decide +kernel⟩

theorem test_meets_FabricRegionsAndCaptures_6 : ∃ (n : Node) (r : Fin 8) (s : Block),
    rgState s n r = 1 ∧ rgPlaying s n r = false ∧ regionOwed s n r = false :=
  ⟨0, 0, stOf [(F.GKO_REGION_CTRL_STATE, 0, 1)], by decide +kernel⟩

theorem test_meets_FabricRegionsAndCaptures_7 : ∃ (n : Node) (r : Fin 8) (w : BitVec 19) (flips : BitVec 72) (s : Block),
    inRun s n = true ∧ rgPhase s n r = phRun ∧ 8 * w.toNat < (region s n r).image.length :=
  ⟨0, 0, 0, 0, runRegionImg, by decide +kernel⟩

theorem test_meets_FabricRegionsAndCaptures_8 : ∃ (n : Node) (freeze : Bool) (regions : BitVec 8) (s : Block),
    inRun s n = true ∧ fbit s n F.GKO_CAPTURE_CTRL_BUSY = false :=
  ⟨0, true, 1, runRegion, by decide +kernel⟩

theorem test_meets_FabricRegionsAndCaptures_9 : ∃ (n : Node) (freeze : Bool) (regions : BitVec 8) (s : Block),
    fbit s n F.GKO_CAPTURE_CTRL_BUSY = true :=
  ⟨0, true, 1, stOf [(F.GKO_CAPTURE_CTRL_BUSY, 0, 1)], by decide +kernel⟩

theorem test_meets_FabricRegionsAndCaptures_10 : ∃ (n : Node) (r : Fin 8) (cells : List CellIn) (s : Block) (c : CapSt),
    inRun s n = true ∧ mget (fun _ => none) s.caps n = some c ∧ c.todo.contains r.val = true :=
  ⟨0, 0, [], { runRegion with caps := [(0, some cap0)] }, cap0, by decide +kernel⟩

theorem test_meets_FabricRegionsAndCaptures_11 : ∃ (n : Node) (s : Block) (c : CapSt),
    inRun s n = true ∧ mget (fun _ => none) s.caps n = some c ∧ c.todo = [] :=
  ⟨0, { runRegion with caps := [(0, some { cap0 with todo := [] })] }, { cap0 with todo := [] }, by decide +kernel⟩

theorem test_meets_FabricRegionsAndCaptures_12 : ∃ (n : Node) (s : Block),
    inRun s n = true ∧ fbit s n F.GKO_CAPTURE_CTRL_BUSY = false :=
  ⟨0, Block.reset, by decide +kernel⟩

theorem test_meets_BoundariesSealsAndVotes_1 : ∃ (s : Block),
    isPrimary s = true ∧ fget s 0 F.WEIR_CTRL_MODE = 0 :=
  ⟨stOf [(F.WEIR_CTRL_MODE, 0, 0), (F.WEIR_STATUS_PRIMARY, 0, 1)], by decide +kernel⟩

theorem test_meets_BoundariesSealsAndVotes_2 : ∃ (s : Block),
    (isPrimary s = false ∨ fget s 0 F.WEIR_CTRL_MODE ≠ 0) :=
  ⟨stOf [(F.WEIR_CTRL_MODE, 0, 1)], by decide +kernel⟩

theorem test_meets_BoundariesSealsAndVotes_3 : ∃ (n : Node) (s : Block),
    takenNow s n 0x2 = true ∧ n.val = 0 ∧ isPrimary s = true :=
  ⟨0, stOf [(F.WEIR_STATUS_PRIMARY, 0, 1)], by decide +kernel⟩

theorem test_meets_BoundariesSealsAndVotes_4 : ∃ (n : Node) (s : Block),
    takenNow s n 0x2 = true ∧ (n.val ≠ 0 ∨ isPrimary s = false) :=
  ⟨0, Block.reset, by decide +kernel⟩

theorem test_meets_BoundariesSealsAndVotes_5 : ∃ (n : Node) (e0 e1 e2 : BitVec 104) (s : Block) (c : CommitSt),
    s.commit = some c ∧ c.ta = none ∧ c.nodes.contains n.val = true ∧ c.gone.contains n.val = false ∧ c.prepared.contains n.val = false ∧ wPhase s n ≠ wpIsolated :=
  ⟨0, 0, 0, 0, startCommit Block.reset none, commit0, by decide +kernel⟩

theorem test_meets_BoundariesSealsAndVotes_6 : ∃ (n : Node) (s : Block) (c : CommitSt) (p : Nat),
    s.commit = some c ∧ c.sent.find? (fun p => p.1 == n.val) = some (p, true) ∧ c.failed = false :=
  ⟨0, { Block.reset with commit := some { commit0 with sent := [(0, true)] } }, { commit0 with sent := [(0, true)] }, 0, by decide +kernel⟩

theorem test_meets_BoundariesSealsAndVotes_7 : ∃ (n : Node) (s : Block) (c : CommitSt) (p : Nat),
    s.commit = some c ∧ c.sent.find? (fun p => p.1 == n.val) = some (p, false) ∧ c.failed = false :=
  ⟨0, { Block.reset with commit := some { commit0 with sent := [(0, false)] } }, { commit0 with sent := [(0, false)] }, 0, by decide +kernel⟩

theorem test_meets_BoundariesSealsAndVotes_8 : ∃ (n : Node) (s : Block) (c : CommitSt) (p : Nat × Bool),
    s.commit = some c ∧ c.sent.find? (fun p => p.1 == n.val) = some p ∧ c.failed = true :=
  ⟨0, { Block.reset with commit := some { commit0 with sent := [(0, true)], failed := true } }, { commit0 with sent := [(0, true)], failed := true }, (0, true), by decide +kernel⟩

theorem test_meets_CommitsAppliesAndAcks_1 : ∃ (n : Node) (s : Block) (c : CommitSt) (ta : Nat),
    s.commit = some c ∧ c.ta = some ta ∧ (weir s n).sealedAt.isSome = true ∧ (weir s n).ta = none ∧ wPhase s n ≠ wpIsolated ∧ c.acks.contains n.val = false :=
  ⟨0, { putWeir Block.reset 0 { sealedAt := some 5 } with commit := some { commit0 with ta := some 9 } }, { commit0 with ta := some 9 }, 9, by decide +kernel⟩

theorem test_meets_CommitsAppliesAndAcks_2 : ∃ (s : Block) (c : CommitSt) (ta k : Nat) (ks : List Nat),
    s.commit = some c ∧ c.ta = some ta ∧ c.nodes.filter (fun n => (weir s n).ta.isSome) = k :: ks :=
  ⟨{ putWeir Block.reset 0 { ta := some 9 } with commit := some { commit0 with ta := some 9 } }, { commit0 with ta := some 9 }, 9, 0, [], by decide +kernel⟩

theorem test_meets_CommitsAppliesAndAcks_3 : ∃ (s : Block) (c : CommitSt),
    s.commit = some c ∧ (c.ta = none ∨ c.nodes.filter (fun n => (weir s n).ta.isSome) = []) :=
  ⟨{ Block.reset with commit := some commit0 }, commit0, by decide +kernel⟩

theorem test_meets_CommitsAppliesAndAcks_4 : ∃ (n : Node) (s : Block) (c : CommitSt),
    s.commit = some c ∧ c.ta.isSome = true ∧ c.nodes.contains n.val = true ∧ ((weir s n).ta.isSome = true ∨ epochOf s n = c.epoch) ∧ c.acks.contains n.val = false :=
  ⟨0, { putWeir Block.reset 0 { ta := some 5 } with commit := some { commit0 with ta := some 9 } }, { commit0 with ta := some 9 }, by decide +kernel⟩

theorem test_meets_CommitsAppliesAndAcks_5 : ∃ (n : Node) (s : Block) (c : CommitSt),
    s.commit = some c ∧ c.failed = true ∧ c.prepared.contains n.val = true ∧ (weir s n).sealedAt.isSome = true ∧ wPhase s n ≠ wpIsolated :=
  ⟨0, { putWeir Block.reset 0 { sealedAt := some 5 } with commit := some { commit0 with failed := true, prepared := [0] } }, { commit0 with failed := true, prepared := [0] }, by decide +kernel⟩

theorem test_meets_CommitsAppliesAndAcks_6 : ∃ (s : Block) (c : CommitSt),
    s.commit = some c ∧ c.failed = false ∧ c.ta = none :=
  ⟨{ Block.reset with commit := some commit0 }, commit0, by decide +kernel⟩

theorem test_meets_CommitsAppliesAndAcks_7 : ∃ (n : Node) (s : Block) (t0 e lim : Nat),
    (weir s n).part = some (t0, e, lim) ∧ (weir s n).late = false :=
  ⟨0, putWeir Block.reset 0 { part := some (1, 1, 2000) }, 1, 1, 2000, by decide +kernel⟩

theorem test_meets_CommitsAppliesAndAcks_8 : ∃ (n : Node) (s : Block) (c : CommitSt),
    (weir s n).part = none ∧ s.commit = some c ∧ c.nodes.contains n.val = true ∧ c.prepared.contains n.val = false ∧ c.gone.contains n.val = false ∧ (weir s n).late = false :=
  ⟨0, { Block.reset with commit := some commit0 }, commit0, by decide +kernel⟩

theorem test_meets_CommitsAppliesAndAcks_9 : ∃ (n : Node) (s : Block) (t : Nat),
    (weir s n).sealedAt = some t ∧ (weir s n).voted = true ∧ wPhase s n = wpVoted ∧ (weir s n).ta = none :=
  ⟨1, putWeir (fput Block.reset 1 F.WEIR_STATUS_PHASE 0 wpVoted) 1 { sealedAt := some 5, voted := true }, 5, by decide +kernel⟩

theorem test_meets_CommitsAppliesAndAcks_10 : ∃ (n : Node) (s : Block) (c : CommitSt),
    (weir s n).sealedAt = none ∧ s.commit = some c ∧ c.ta.isSome = true ∧ c.acks.contains n.val = false ∧ c.gone.contains n.val = false ∧ c.nodes.contains n.val = true :=
  ⟨0, { Block.reset with commit := some { commit0 with ta := some 9 } }, { commit0 with ta := some 9 }, by decide +kernel⟩

theorem test_meets_SnapshotsAndPublications_1 : ∃ (n dn : Node) (g : GangIx) (s : Block) (x : SnapSt) (i : SnapImg) (e ta : Nat),
    s.snaps.find? (fun x => x.imgs.any fun i => i.dn == dn.val && i.g == g.val && i.node == n.val) = some x ∧ x.imgs.find? (fun i => i.dn == dn.val && i.g == g.val && i.node == n.val) = some i ∧ x.taken = some (e, ta) ∧ snapReady s i ((gangTiles s dn g).filter fun tk => tk / 1024 == n.val) = true :=
  ⟨0, 0, 0, { Block.reset with snaps := [snap0] }, snap0, img0, 1, 2, by decide +kernel⟩

theorem test_meets_SnapshotsAndPublications_2 : ∃ (n : Node) (p : Fin 32) (copy : Fin 4) (s : Block),
    takenNow s n 0x2 = true ∧ pubF s n p F.WEIR_PUB_CTRL_STATE ≠ 0 ∧ pubF s n p F.WEIR_PUB_STATE_WRITE = copy.val :=
  ⟨0, 0, 1, stOf [(F.WEIR_PUB_CTRL_STATE, 0, 2), (F.WEIR_PUB_STATE_WRITE, 0, 1)], by decide +kernel⟩

theorem test_meets_SnapshotsAndPublications_3 : ∃ (n : Node) (p : Fin 32) (copy : Fin 4) (s : Block),
    takenNow s n 0x2 = true ∧ pubF s n p F.WEIR_PUB_CTRL_STATE ≠ 0 ∧ pubF s n p F.WEIR_PUB_STATE_WRITE ≠ copy.val :=
  ⟨0, 0, 2, stOf [(F.WEIR_PUB_CTRL_STATE, 0, 2), (F.WEIR_PUB_STATE_WRITE, 0, 1)], by decide +kernel⟩

theorem test_meets_SnapshotsAndPublications_4 : ∃ (n : Node) (p : Fin 32) (copy : Fin 4) (s : Block),
    takenNow s n 0x2 = true ∧ pubF s n p F.WEIR_PUB_CTRL_STATE = 0 :=
  ⟨0, 0, 2, Block.reset, by decide +kernel⟩

theorem test_meets_SnapshotsAndPublications_5 : ∃ (n : Node) (p : Fin 32) (s : Block),
    takenNow s n 0x2 = true ∧ pubF s n p F.WEIR_PUB_CTRL_STATE = 0 :=
  ⟨0, 0, Block.reset, by decide +kernel⟩

theorem test_meets_SnapshotsAndPublications_6 : ∃ (n : Node) (p : Fin 32) (s : Block),
    takenNow s n 0x2 = true ∧ pubF s n p F.WEIR_PUB_CTRL_STATE = 2 :=
  ⟨0, 0, stOf [(F.WEIR_PUB_CTRL_STATE, 0, 2)], by decide +kernel⟩

theorem test_meets_SnapshotsAndPublications_7 : ∃ (n : Node) (p : Fin 32) (en : Bool) (s : Block),
    takenNow s n 0x2 = true ∧ (en = true ∧ pubF s n p F.WEIR_PUB_CTRL_STATE ≠ 0 ∨ en = false ∧ pubF s n p F.WEIR_PUB_CTRL_STATE ≠ 2) :=
  ⟨0, 0, false, Block.reset, by decide +kernel⟩

theorem test_meets_SpanLinksTrainAndCarry_1 : ∃ (n : Node) (l : Fin 8) (pn : Node) (pl : Fin 8) (asym : Word) (s : Block),
    linkOn s n l = true ∧ linkOn s pn pl = true ∧ linkPowered s n = true ∧ linkPowered s pn = true ∧ (lstate s n l = lsTraining ∨ lstate s n l = lsDown) :=
  ⟨0, 0, 1, 2, 0, fput (fput linkTraining 1 F.SPAN_LINK_CTRL_STATE 2 2) 1 F.GOV_STATE_STATE 0 0, by decide +kernel⟩

theorem test_meets_SpanLinksTrainAndCarry_2 : ∃ (n : Node) (l : Fin 8) (s : Block),
    linkOn s n l = true ∧ (lstate s n l = lsTraining ∨ lstate s n l = lsDown) :=
  ⟨0, 0, linkTraining, by decide +kernel⟩

theorem test_meets_SpanLinksTrainAndCarry_3 : ∃ (n : Node) (l : Fin 8) (seq : BitVec 32) (put : List BunelFlit) (s : Block) (pn pl : Nat) (found : WordCheck),
    linkLive s n l = true ∧ (link s n l).partner = some (pn, pl) ∧ found ≠ .uncorrectable ∧ seq.toNat = (link s n l).rxNext % 2 ^ 32 :=
  ⟨0, 0, 0, [], putLink linkUp 0 0 { partner := some (1, 2) }, 1, 2, .correctable, by decide +kernel⟩

theorem test_meets_SpanLinksTrainAndCarry_4 : ∃ (n : Node) (l : Fin 8) (seq : BitVec 32) (put : List BunelFlit) (s : Block) (pn pl : Nat) (found : WordCheck),
    linkLive s n l = true ∧ (link s n l).partner = some (pn, pl) ∧ found ≠ .uncorrectable ∧ seq.toNat ≠ (link s n l).rxNext % 2 ^ 32 :=
  ⟨0, 0, 5, [], putLink linkUp 0 0 { partner := some (1, 2) }, 1, 2, .clean, by decide +kernel⟩

theorem test_meets_SpanLinksTrainAndCarry_5 : ∃ (n : Node) (l : Fin 8) (seq : BitVec 32) (put : List BunelFlit) (s : Block) (pn pl : Nat),
    linkLive s n l = true ∧ (link s n l).partner = some (pn, pl) :=
  ⟨0, 0, 0, [], putLink linkUp 0 0 { partner := some (1, 2) }, 1, 2, by decide +kernel⟩

theorem test_meets_SpanLinksTrainAndCarry_6 : ∃ (n : Node) (l : Fin 8) (s : Block),
    linkLive s n l = true :=
  ⟨0, 0, linkUp, by decide +kernel⟩

theorem test_meets_SpanLinksTrainAndCarry_7 : ∃ (n : Node) (l : Fin 8) (s : Block),
    takenNow s n 0xF = true ∧ fget s n F.SPAN_LINK_CTRL_STATE l = 0 :=
  ⟨0, 0, stOf [(F.SPAN_LINK_CTRL_STATE, 0, 0)], by decide +kernel⟩

theorem test_meets_SpanLinksTrainAndCarry_8 : ∃ (n : Node) (l : Fin 8) (s : Block),
    takenNow s n 0xF = true ∧ fget s n F.SPAN_LINK_CTRL_STATE l = 2 :=
  ⟨0, 0, linkUp, by decide +kernel⟩

theorem test_meets_ChorusDiscoversAndFences_2 : ∃ (n : Node) (port : Fin 32) (bytes : List (BitVec 8)) (s : Block),
    24 ≤ port.val ∧ linkLive s n (port.val - 24) = true ∧ bytes.length = 64 :=
  ⟨0, 24, List.replicate 64 0, linkUp, by decide +kernel⟩

theorem test_meets_ChorusDiscoversAndFences_3 : ∃ (n : Node) (port : Fin 32) (bytes : List (BitVec 8)) (s : Block),
    24 ≤ port.val ∧ linkLive s n (port.val - 24) = true ∧ bytes.length = 64 :=
  ⟨0, 24, List.replicate 64 0, linkUp, by decide +kernel⟩

theorem test_meets_ChorusDiscoversAndFences_4 : ∃ (n : Node) (port : Fin 32) (bytes : List (BitVec 8)) (s : Block) (k : WslPkt),
    port.val < 24 ∧ wslUp s n port = true ∧ wslParse bytes = some k ∧ k.typ = 5 :=
  ⟨0, 0, wslBytes 5 [], wslLane, ⟨5, 0, 0, 0, []⟩, by decide +kernel⟩

theorem test_meets_ChorusDiscoversAndFences_5 : ∃ (n : Node) (port : Fin 32) (bytes : List (BitVec 8)) (s : Block) (k : WslPkt),
    port.val < 24 ∧ wslUp s n port = true ∧ wslParse bytes = some k ∧ k.typ ≠ 5 :=
  ⟨0, 0, wslBytes 6 [], wslLane, ⟨6, 0, 0, 0, []⟩, by decide +kernel⟩

theorem test_meets_ChorusDiscoversAndFences_6 : ∃ (n : Node) (port : Fin 32) (bytes : List (BitVec 8)) (s : Block) (k : WslPkt),
    port.val < 24 ∧ wslUp s n port = true ∧ wslParse bytes = some k ∧ k.typ = 6 ∧ k.payload.length = 16 ∧ leAt k.payload 9 2 ≤ 4096 :=
  ⟨0, 0, wslBytes 6 (List.replicate 16 0), wslLane, ⟨6, 0, 0, 0, List.replicate 16 0⟩, by decide +kernel⟩

theorem test_meets_ChorusDiscoversAndFences_7 : ∃ (n : Node) (port : Fin 32) (bytes : List (BitVec 8)) (s : Block) (k : WslPkt),
    port.val < 24 ∧ wslUp s n port = true ∧ wslParse bytes = some k ∧ k.typ ≠ 6 :=
  ⟨0, 0, wslBytes 5 [], wslLane, ⟨5, 0, 0, 0, []⟩, by decide +kernel⟩

theorem test_meets_ChorusDiscoversAndFences_8 : ∃ (n : Node) (port : Fin 32) (bytes : List (BitVec 8)) (s : Block),
    port.val < 24 ∧ wslUp s n port = true ∧ wslParse bytes = none :=
  ⟨0, 0, [], wslLane, by decide +kernel⟩

theorem test_meets_ChorusDiscoversAndFences_9 : ∃ (s : Block),
    role s 0 = roCandidate ∧ ((List.range 64).any fun n => n != 0 && role s n == roCandidate && reaches s 0 n &&
      decide ((Config.serialNumber n).toNat < (Config.serialNumber 0).toNat)) = false ∧ ((List.range 8).any fun l => linkLive s 0 l && !(link s 0 l).heard.isEmpty && leAt (link s 0 l).heard 29 1 == roPrimary) = false :=
  ⟨setRole (stOf []) 0 roCandidate, by decide +kernel⟩

theorem test_meets_ChorusDiscoversAndFences_10 : ∃ (n : Node) (d : Fin 4) (s : Block) (p : Nat),
    pairPeer s n d = some p ∧ pairDown s n d = true ∧ nodePresent s n = true ∧ nodePresent s p = true ∧ p ≠ n.val :=
  ⟨0, 2, pairLost, 1, by decide +kernel⟩

theorem test_meets_ChorusDiscoversAndFences_11 : ∃ (n lost : Node) (s : Block),
    s.fenced.contains lost.val = true ∧ n = lost :=
  ⟨1, 1, { Block.reset with fenced := [1] }, by decide +kernel⟩

theorem test_meets_ChorusDiscoversAndFences_12 : ∃ (n lost : Node) (s : Block),
    s.fenced.contains lost.val = true ∧ n ≠ lost :=
  ⟨0, 1, { Block.reset with fenced := [1] }, by decide +kernel⟩

theorem test_meets_ChorusDiscoversAndFences_13 : ∃ (n : Node) (s : Block),
    role s n = roSecondary ∧ (s.fenced.contains n.val = true ∨ reaches s n 0 = false) :=
  ⟨1, { setRole Block.reset 1 roSecondary with fenced := [1] }, by decide +kernel⟩

theorem test_meets_ChorusDiscoversAndFences_14 : ∃ (n : Node) (p : Fin 24) (s : Block),
    fbit s n F.CHR_FE_ADMITTED p = true ∧ 3 ≤ (lane s n p).unans :=
  ⟨0, 0, { stOf [(F.CHR_FE_ADMITTED, 0, 1)] with lanes := [(0, { unans := 3 })] }, by decide +kernel⟩

theorem test_meets_ChorusDiscoversAndFences_15 : ∃ (n : Node) (l : Fin 8) (t1 t2 t3 t4 : DWord) (s : Block),
    parentLink s n = some l.val :=
  ⟨1, 6, 0, 0, 0, 0, parentUp, by decide +kernel⟩

theorem test_meets_SagAndThrottle_1 : ∃ (n : Node) (g : Fin 1096) (d : BitVec 10) (s : Block),
    sagStep d.toNat (fget s n F.GOV_SAG_SAG_MV) ≠ 0 ∧ pState s n = 0 :=
  ⟨0, 0, 100, stOf [(F.GOV_SAG_SAG_MV, 0, 50)], by decide +kernel⟩

theorem test_meets_SagAndThrottle_2 : ∃ (n : Node) (g : Fin 1096) (d : BitVec 10) (s : Block),
    sagStep d.toNat (fget s n F.GOV_SAG_SAG_MV) = 0 ∧ pState s n = 0 ∧ (island s n g).k ≠ 0 ∧ (island s n g).due = none :=
  ⟨0, 0, 10, putIsland (stOf [(F.GOV_SAG_SAG_MV, 0, 50)]) 0 0 { k := 2, since := 0 }, by decide +kernel⟩

theorem test_meets_SagAndThrottle_3 : ∃ (n : Node) (g : Fin 1096) (s : Block) (due : Nat),
    (island s n g).due = some due :=
  ⟨0, 0, putIsland Block.reset 0 0 { k := 2, since := 0, due := some 9 }, 9, by decide +kernel⟩

theorem test_meets_SagAndThrottle_4 : ∃ (n : Node) (d : Fin 4) (s : Block),
    inRun s n = true ∧ sustained s n d = true ∧ sagLevel s n d = 0 :=
  ⟨0, 0, sagUp, by decide +kernel⟩

theorem test_meets_SagAndThrottle_5 : ∃ (n : Node) (d : Fin 4) (s : Block),
    sagLevel s n d ≠ 0 ∧ sustained s n d = true :=
  ⟨0, 0, putSagLevel sagUp 0 0 1, by decide +kernel⟩

theorem test_meets_SagAndThrottle_6 : ∃ (n : Node) (d : Fin 4) (s : Block),
    sagLevel s n d ≠ 0 ∧ sustained s n d = false :=
  ⟨0, 0, putSagLevel Block.reset 0 0 1, by decide +kernel⟩

theorem test_meets_TemperaturesAndRails_1 : ∃ (n : Node) (t0 t1 t2 t3 io : BitVec 8) (s : Block),
    (pow s n).off = false ∧ pState s n < 3 :=
  ⟨0, 20, 20, 20, 20, 20, Block.reset, by decide +kernel⟩

theorem test_meets_TemperaturesAndRails_2 : ∃ (n : Node) (t0 t1 t2 t3 io : BitVec 8) (s : Block),
    (pow s n).off = false ∧ 3 ≤ pState s n :=
  ⟨0, 20, 20, 20, 20, 20, stOf [(F.GOV_STATE_STATE, 0, 3)], by decide +kernel⟩

theorem test_meets_TemperaturesAndRails_3 : ∃ (n : Node) (rail : Option (Fin 18 × Bool)) (fail : Bool) (s : Block),
    (pow s n).off = false ∧ (rail.isSome = true ∨ fail = true) :=
  ⟨0, some (3, false), false, Block.reset, by decide +kernel⟩

theorem test_meets_TemperaturesAndRails_4 : ∃ (n : Node) (s : Block) (due : Nat) (back : BitVec 9),
    (pow s n).rail = some due ∧ (allMuted s n = true ∨ due ≤ nowNs s) :=
  ⟨0, putPow Block.reset 0 { rail := some 0 }, 0, 0, by decide +kernel⟩

theorem test_meets_TemperaturesAndRails_5 : ∃ (n : Node) (s : Block) (back : BitVec 9),
    (pow s n).rail = none :=
  ⟨0, Block.reset, 0, by decide +kernel⟩

theorem test_meets_TemperaturesAndRails_6 : ∃ (n : Node) (s : Block),
    (pow s n).off = false ∧ pState s n ≠ 4 :=
  ⟨0, Block.reset, by decide +kernel⟩

theorem test_meets_TemperaturesAndRails_7 : ∃ (n : Node) (s : Block),
    (pow s n).off = false ∧ pState s n = 4 :=
  ⟨0, stOf [(F.GOV_STATE_STATE, 0, 4)], by decide +kernel⟩

theorem test_meets_TemperaturesAndRails_9 : ∃ (n : Node) (s : Block),
    (pow s n).vinLow = true :=
  ⟨0, putPow Block.reset 0 { vinLow := true }, by decide +kernel⟩

theorem test_meets_TemperaturesAndRails_10 : ∃ (n : Node) (w : Word) (s : Block),
    takenNow s n 0x14 = true :=
  ⟨0, 0, Block.reset, by decide +kernel⟩

theorem test_meets_PowerRequestsAndWakes_2 : ∃ (n : Node) (target : BitVec 3) (all : Bool) (s : Block),
    takenNow s n 0x14 = true ∧ 5 ≤ target.toNat :=
  ⟨0, 5, false, Block.reset, by decide +kernel⟩

theorem test_meets_PowerRequestsAndWakes_3 : ∃ (n : Node) (all : Bool) (s : Block),
    takenNow s n 0x14 = true :=
  ⟨0, false, Block.reset, by decide +kernel⟩

theorem test_meets_PowerRequestsAndWakes_4 : ∃ (n : Node) (target : BitVec 3) (all : Bool) (s : Block),
    takenNow s n 0x14 = true ∧ target.toNat < 5 ∧ target ≠ 0 ∧ powerBusy s (namedNodes s all n) target.toNat none = false :=
  ⟨0, 1, false, Block.reset, by decide +kernel⟩

theorem test_meets_PowerRequestsAndWakes_5 : ∃ (n : Node) (target : BitVec 3) (all : Bool) (s : Block),
    takenNow s n 0x14 = true ∧ target.toNat < 5 ∧ target ≠ 0 ∧ powerBusy s (namedNodes s all n) target.toNat none = true :=
  ⟨0, 4, false, gangIdle, by decide +kernel⟩

theorem test_meets_PowerRequestsAndWakes_6 : ∃ (n : Node) (s : Block) (t : Nat),
    (pow s n).entry = some t ∧ allMuted s n = true ∧ (s.events.any fun e => e.node == n.val && (e.src == SRC.GOV_TEMP_TRIP || e.src == SRC.GOV_RAIL_FAULT)) = false ∧ replyFirst s n = false ∧ ((pow s n).leaving && nodePresent s n) = false ∧ ((List.range 16).all (acuQuiet (if 3 ≤ t then drainTasks s n else s) n)) = true :=
  ⟨0, putPow Block.reset 0 { entry := some 1 }, 1, by decide +kernel⟩

theorem test_meets_PowerRequestsAndWakes_7 : ∃ (n : Node) (s : Block) (t : Nat),
    (pow s n).entry = some t ∧ allMuted s n = true ∧ (s.events.any fun e => e.node == n.val && (e.src == SRC.GOV_TEMP_TRIP || e.src == SRC.GOV_RAIL_FAULT)) = false ∧ replyFirst s n = false ∧ ((pow s n).leaving && nodePresent s n) = false ∧ ((List.range 16).all (acuQuiet (if 3 ≤ t then drainTasks s n else s) n)) = false :=
  ⟨0, putAcu (putPow Block.reset 0 { entry := some 1 }) 0 0 { sb := [sbEnt0] }, 1, by decide +kernel⟩

theorem test_meets_PowerRequestsAndWakes_8 : ∃ (n : Node) (s : Block),
    (pow s n).off = false ∧ (fget s n F.GOV_WAKE_CTRL_SRC_MASK).testBit wkPin = true ∧ (pow s n).exit = none ∧ (pow s n).hot = false ∧ (pow s n).entry = none ∧ wakes (pState s n) wkPin = true :=
  ⟨0, stOf [(F.GOV_WAKE_CTRL_SRC_MASK, 0, 255), (F.GOV_STATE_STATE, 0, 4)], by decide +kernel⟩

theorem test_meets_PowerRequestsAndWakes_9 : ∃ (n : Node) (s : Block) (t : Nat),
    (pow s n).off = false ∧ (fget s n F.GOV_WAKE_CTRL_SRC_MASK).testBit wkPin = true ∧ (pow s n).exit = none ∧ (pow s n).hot = false ∧ (pow s n).entry = some t ∧ wakes t wkPin = true :=
  ⟨0, putPow (stOf [(F.GOV_WAKE_CTRL_SRC_MASK, 0, 255)]) 0 { entry := some 4 }, 4, by decide +kernel⟩

theorem test_meets_PowerRequestsAndWakes_10 : ∃ (n : Node) (s : Block),
    ((pow s n).off = true ∨ (fget s n F.GOV_WAKE_CTRL_SRC_MASK).testBit wkPin = false ∨ (pow s n).exit.isSome = true ∨ (pow s n).hot = true) :=
  ⟨0, putPow Block.reset 0 { off := true }, by decide +kernel⟩

theorem test_meets_PowerRequestsAndWakes_12 : ∃ (n : Node) (s : Block),
    fbit s n F.GOV_WAKE_CTRL_TIMER_EN = true ∧ (pState s n ≠ 0 ∨ (pow s n).entry.isSome = true) ∧ (pow s n).off = false :=
  ⟨0, stOf [(F.GOV_WAKE_CTRL_TIMER_EN, 0, 1), (F.GOV_STATE_STATE, 0, 1)], by decide +kernel⟩

theorem test_meets_PowerRequestsAndWakes_13 : ∃ (n : Node) (s : Block),
    (pow s n).keepAlive = true :=
  ⟨0, putPow Block.reset 0 { keepAlive := true }, by decide +kernel⟩

theorem test_meets_PowerRequestsAndWakes_14 : ∃ (n : Node) (s : Block) (src : Nat),
    (pow s n).exit = some src ∧ (pow s n).vinLow = false :=
  ⟨1, fset (putPow Block.reset 1 { exit := some 0 }) 1 F.GOV_STATE_STATE 1, 0, by decide +kernel⟩

theorem test_meets_PowerRequestsAndWakes_15 : ∃ (n : Node) (addr : BitVec 2) (ptr : BitVec 8) (bytes : List (BitVec 8)) (s : Block),
    (pow s n).off = false ∧ (pow s n).bmcAddr = addr :=
  ⟨0, 0, 0, [], Block.reset, by decide +kernel⟩

theorem test_meets_PowerRequestsAndWakes_16 : ∃ (n : Node) (addr : BitVec 2) (ptr : BitVec 8) (bytes : List (BitVec 8)) (s : Block),
    ((pow s n).off = true ∨ (pow s n).bmcAddr ≠ addr) :=
  ⟨0, 1, 0, [], Block.reset, by decide +kernel⟩

theorem test_meets_TimeKeepsAndLoads_1 : ∃ (c : Ctx) (s : Block),
    servedNow s c = true ∧ pathCode (arrived s c) c (accessNode (arrived s c) c 0x01500008) 0x01500008 = rspOk :=
  ⟨.queue 0, Block.reset, by decide +kernel⟩

theorem test_meets_TimeKeepsAndLoads_2 : ∃ (c : Ctx) (s : Block),
    servedNow s c = true ∧ pathCode (arrived s c) c (accessNode (arrived s c) c 0x01500008) 0x01500008 ≠ rspOk :=
  ⟨.queue 0, selWrite Block.reset 0 0 5, by decide +kernel⟩

theorem test_meets_TimeKeepsAndLoads_3 : ∃ (n : Node) (s : Block),
    ownTime s n = true ∧ fget s n F.TIM_CTRL_REFSEL ≠ 0 :=
  ⟨0, stOf [(F.TIM_CTRL_REFSEL, 0, 1)], by decide +kernel⟩

theorem test_meets_TimeKeepsAndLoads_4 : ∃ (n : Node) (s : Block),
    ownTime s n = true ∧ fget s n F.TIM_CTRL_REFSEL ≠ 0 ∧ (tim s n).hold = none :=
  ⟨0, stOf [(F.TIM_CTRL_REFSEL, 0, 1)], by decide +kernel⟩

theorem test_meets_TimeKeepsAndLoads_5 : ∃ (n : Node) (s : Block),
    (ownTime s n = false ∨ fget s n F.TIM_CTRL_REFSEL = 0) :=
  ⟨0, Block.reset, by decide +kernel⟩

theorem test_meets_TimeKeepsAndLoads_6 : ∃ (n : Node) (s : Block),
    ownTime s n = true ∧ (n.val ≠ 0 ∨ (tim s 0).setDue = none ∨ fbit s 0 F.TIM_STATUS_PPS_LOCK = false) :=
  ⟨1, ppsNode, by decide +kernel⟩

theorem test_meets_TimeKeepsAndLoads_7 : ∃ (s : Block),
    ownTime s (0 : Node) = true ∧ (tim s 0).setDue.isSome = true ∧ fbit s 0 F.TIM_STATUS_PPS_LOCK = true :=
  ⟨putTim (stOf [(F.TIM_STATUS_PPS_LOCK, 0, 1)]) 0 { setDue := some 5 }, by decide +kernel⟩

theorem test_meets_TimeKeepsAndLoads_8 : ∃ (n : Node) (s : Block),
    ownTime s n = false :=
  ⟨1, fput Block.reset 1 F.CHR_STATUS_ROLE 0 roSecondary, by decide +kernel⟩

theorem test_meets_TimeKeepsAndLoads_9 : ∃ (n : Node) (s : Block) (t : Nat),
    (tim s n).ppsAt = some t ∧ ownTime s n = true ∧ fbit s n F.TIM_CTRL_PPS_ALIGN = true :=
  ⟨0, putTim (stOf [(F.TIM_CTRL_PPS_ALIGN, 0, 1)]) 0 { ppsAt := some 5 }, 5, by decide +kernel⟩

theorem test_meets_TimeKeepsAndLoads_10 : ∃ (n : Node) (s : Block),
    fbit s n F.TIM_CTRL_PPS_OUT_EN = true ∧ (pow s n).off = false :=
  ⟨0, stOf [(F.TIM_CTRL_PPS_OUT_EN, 0, 1)], by decide +kernel⟩

theorem test_meets_TimeKeepsAndLoads_11 : ∃ (s : Block),
    takenNow s (0 : Node) 0x15 = true ∧ nowNs s ≤ get64 s 0 .TIM_SET ∧ systemBusy s = false :=
  ⟨Block.reset, by decide +kernel⟩

theorem test_meets_TimeKeepsAndLoads_12 : ∃ (n : Node) (s : Block),
    takenNow s n 0x15 = true ∧ (n.val ≠ 0 ∨ get64 s 0 .TIM_SET < nowNs s ∨ systemBusy s = true) :=
  ⟨0, gangIdle, by decide +kernel⟩

theorem test_meets_TimeKeepsAndLoads_13 : ∃ (s : Block) (due : Nat),
    (tim s 0).setDue = some due ∧ fbit s 0 F.TIM_STATUS_PPS_LOCK = false :=
  ⟨putTim Block.reset 0 { setDue := some 5 }, 5, by decide +kernel⟩

theorem test_meets_TimeKeepsAndLoads_15 : ∃ (n : Node) (s : Block) (t : Nat),
    (tim s n).hold = some t ∧ (tim s n).warned = false ∧ (pow s n).off = false ∧ fget s n F.TIM_HOLD_LIMIT_NS ≠ 65535 :=
  ⟨0, putTim (stOf [(F.TIM_HOLD_LIMIT_NS, 0, 7)]) 0 { hold := some 5 }, 5, by decide +kernel⟩

theorem test_meets_FaultsAreRecordedAndWritten_1 : ∃ (n : Node) (k : Fin 64) (s : Block),
    (pow s n).off = false ∧ pState s n < 3 ∧ collects s n = true :=
  ⟨0, 0, putPow Block.reset 0 { started := true }, by decide +kernel⟩

theorem test_meets_FaultsAreRecordedAndWritten_2 : ∃ (n : Node) (k : Fin 64) (s : Block),
    ((pow s n).off = true ∨ 3 ≤ pState s n ∨ collects s n = false) :=
  ⟨0, 0, stOf [(F.GOV_STATE_STATE, 0, 3)], by decide +kernel⟩

theorem test_meets_FaultsAreRecordedAndWritten_3 : ∃ (n : Node) (src : BitVec 8) (inst : Half) (s : Block) (w : Quiet),
    (quiets s n).find? (fun w => w.src == src.toNat && w.inst == inst.toNat) = some w ∧ w.waiting = true :=
  ⟨0, 5, 0, putQuiets Block.reset 0 [{ quiet0 with waiting := true }], { quiet0 with waiting := true }, by decide +kernel⟩

theorem test_meets_FaultsAreRecordedAndWritten_4 : ∃ (n : Node) (src : BitVec 8) (inst : Half) (s : Block) (w : Quiet),
    (quiets s n).find? (fun w => w.src == src.toNat && w.inst == inst.toNat) = some w ∧ w.waiting = false :=
  ⟨0, 5, 0, putQuiets Block.reset 0 [quiet0], quiet0, by decide +kernel⟩

theorem test_meets_FaultsAreRecordedAndWritten_5 : ∃ (n : Node) (src : BitVec 8) (s : Block) (due : Nat),
    (fsrc s n src.toNat).leakDue = some due :=
  ⟨0, 5, putFsrc Block.reset 0 5 { leakDue := some 9 }, 9, by decide +kernel⟩

theorem test_meets_FaultsAreRecordedAndWritten_6 : ∃ (n : Node) (src : BitVec 8) (s : Block) (due : Nat) (o : OpenF),
    (fsrc s n src.toNat).escDue = some due ∧ ((fsrc s n src.toNat).opens.find? fun o => o.level == topLevel (fsrc s n src.toNat).opens) = some o :=
  ⟨0, 5, putFsrc Block.reset 0 5 { escDue := some 9, opens := [open0] }, 9, open0, by decide +kernel⟩

theorem test_meets_FaultsAreRecordedAndWritten_7 : ∃ (n : Node) (src : BitVec 8) (s : Block),
    takenNow s n 0x12 = true :=
  ⟨0, 5, Block.reset, by decide +kernel⟩

theorem test_meets_FaultsAreRecordedAndWritten_8 : ∃ (n : Node) (s : Block),
    served s n = true :=
  ⟨0, Block.reset, by decide +kernel⟩

theorem test_meets_SettingsSecurityAndBoot_1 : ∃ (n : Node) (addr : BitVec 23) (s : Block),
    inRun s n = true :=
  ⟨0, 0, Block.reset, by decide +kernel⟩

theorem test_meets_SettingsSecurityAndBoot_2 : ∃ (c : Ctx) (s : Block),
    servedNow s c = true ∧ pathCode (arrived s c) c (accessNode (arrived s c) c 0x01800010) 0x01800010 = rspOk :=
  ⟨.queue 0, Block.reset, by decide +kernel⟩

theorem test_meets_SettingsSecurityAndBoot_3 : ∃ (c : Ctx) (s : Block),
    servedNow s c = true ∧ pathCode (arrived s c) c (accessNode (arrived s c) c 0x01800010) 0x01800010 ≠ rspOk :=
  ⟨.queue 0, selWrite Block.reset 0 0 5, by decide +kernel⟩

theorem test_meets_SettingsSecurityAndBoot_4 : ∃ (n : Node) (scope : BitVec 3) (s : Block),
    takenNow s n 0x18 = true :=
  ⟨0, 1, putNvs Block.reset 0 { challenge := some [1], chalDue := 5 }, by decide +kernel⟩

theorem test_meets_SettingsSecurityAndBoot_5 : ∃ (n : Node) (s : Block) (ch : List (BitVec 8)),
    (nvsOf s n).challenge = some ch :=
  ⟨0, putNvs Block.reset 0 { challenge := some [1], chalDue := 5 }, [1], by decide +kernel⟩

theorem test_meets_SettingsSecurityAndBoot_6 : ∃ (n : Node) (a : Fin 16) (k : Fin 64) (reg : BitVec 6) (s : Block),
    takenNow s n 0x17 = true ∧ (fget s n F.SEC_UNLOCK_UNLOCKED).testBit 0 = false :=
  ⟨0, 0, 0, 1, Block.reset, by decide +kernel⟩

theorem test_meets_SettingsSecurityAndBoot_7 : ∃ (n : Node) (a : Fin 16) (k : Fin 64) (reg : BitVec 6) (s : Block),
    takenNow s n 0x17 = true ∧ (fget s n F.SEC_UNLOCK_UNLOCKED).testBit 0 = true :=
  ⟨0, 0, 0, 1, dbgUp, by decide +kernel⟩

theorem test_meets_SettingsSecurityAndBoot_8 : ∃ (n : Node) (recovery : Bool) (straps : BitVec 10) (link : Bool) (s : Block),
    (pow s n).started = false :=
  ⟨0, false, 0, true, Block.reset, by decide +kernel⟩

theorem test_meets_SettingsSecurityAndBoot_9 : ∃ (n : Node) (high recovery : Bool) (addr : BitVec 2) (link : Bool) (s : Block),
    (pow s n).off = false :=
  ⟨0, true, false, 0, true, Block.reset, by decide +kernel⟩

theorem test_meets_SettingsSecurityAndBoot_10 : ∃ (n : Node) (s : Block),
    (pow s n).reload = true ∧ inRun s n = true :=
  ⟨0, putPow Block.reset 0 { reload := true }, by decide +kernel⟩

theorem test_meets_RegisterWritesLand_1 : ∃ (c : Ctx) (b : BarWrite) (s : Block) (r : Reg) (i : Nat),
    servedNow s c = true ∧ pathCode (arrived s c) c (accessNode (arrived s c) c b.off) b.off = rspOk ∧ b.wide = false ∧ b.off % 4 = 0 ∧ b.be.extractLsb' 0 4 = 0xF ∧ ownSelect b.off = none ∧ msixAt b.off = none ∧ windowOf b.off = none ∧ aliasAt b.off = none ∧ regAt b.off = some (r, i) :=
  ⟨.queue 0, ⟨0x00300040, 5, false, 0xF⟩, Block.reset, .MILL_EDGE, 0, by decide +kernel⟩

theorem test_meets_RegisterWritesLand_2 : ∃ (c : Ctx) (b : BarWrite) (s : Block) (i : Nat),
    servedNow s c = true ∧ pathCode (arrived s c) c (accessNode (arrived s c) c b.off) b.off = rspOk ∧ b.wide = false ∧ b.off % 4 = 0 ∧ b.be.extractLsb' 0 4 = 0xF ∧ ownSelect b.off = some i :=
  ⟨.queue 0, ⟨0x00100100, 5, false, 0xF⟩, Block.reset, 0, by decide +kernel⟩

theorem test_meets_RegisterWritesLand_3 : ∃ (c : Ctx) (b : BarWrite) (s : Block) (i : Nat),
    servedNow s c = true ∧ pathCode (arrived s c) c (accessNode (arrived s c) c b.off) b.off = rspOk ∧ b.wide = false ∧ b.off % 4 = 0 ∧ b.be.extractLsb' 0 4 = 0xF ∧ ownSelect b.off = none ∧ msixAt b.off = some i :=
  ⟨.queue 0, ⟨0x00108000, 5, false, 0xF⟩, Block.reset, 0, by decide +kernel⟩

theorem test_meets_RegisterWritesLand_4 : ∃ (c : Ctx) (b : BarWrite) (s : Block) (r o : Nat),
    servedNow s c = true ∧ pathCode (arrived s c) c (accessNode (arrived s c) c b.off) b.off = rspOk ∧ b.wide = false ∧ b.off % 4 = 0 ∧ b.be.extractLsb' 0 4 = 0xF ∧ ownSelect b.off = none ∧ msixAt b.off = none ∧ windowOf b.off = some (r, o) :=
  ⟨.queue 0, ⟨0x00E20008, 5, false, 0xF⟩, Block.reset, 1, 8, by decide +kernel⟩

theorem test_meets_RegisterWritesLand_5 : ∃ (c : Ctx) (b : BarWrite) (s : Block) (r : Reg) (i : Nat),
    servedNow s c = true ∧ pathCode (arrived s c) c (accessNode (arrived s c) c b.off) b.off = rspOk ∧ b.wide = false ∧ b.off % 4 = 0 ∧ b.be.extractLsb' 0 4 = 0xF ∧ ownSelect b.off = none ∧ msixAt b.off = none ∧ windowOf b.off = none ∧ aliasAt b.off = some (r, i) :=
  ⟨.queue 0, ⟨0x003C0040, 5, false, 0xF⟩, Block.reset, .MILL_EDGE, 0, by decide +kernel⟩

theorem test_meets_RegisterWritesLand_6 : ∃ (c : Ctx) (b : BarWrite) (s : Block),
    servedNow s c = true ∧ pathCode (arrived s c) c (accessNode (arrived s c) c b.off) b.off = rspOk ∧ b.wide = false ∧ b.off % 4 = 0 ∧ b.be.extractLsb' 0 4 = 0xF ∧ ownSelect b.off = none ∧ msixAt b.off = none ∧ windowOf b.off = none ∧ aliasAt b.off = none ∧ regAt b.off = none :=
  ⟨.queue 0, ⟨0x000FFFF0, 5, false, 0xF⟩, Block.reset, by decide +kernel⟩

theorem test_meets_RegisterWritesLand_7 : ∃ (c : Ctx) (b : BarWrite) (s : Block),
    servedNow s c = true ∧ pathCode (arrived s c) c (accessNode (arrived s c) c b.off) b.off ≠ rspOk ∧ b.wide = false ∧ b.off % 4 = 0 ∧ b.be.extractLsb' 0 4 = 0xF :=
  ⟨.queue 0, ⟨0x00300040, 5, false, 0xF⟩, selWrite Block.reset 0 0 5, by decide +kernel⟩

theorem test_meets_RegisterWritesLand_8 : ∃ (c : Ctx) (b : BarWrite) (s : Block),
    servedNow s c = true ∧ (b.wide = false ∧ (b.be.extractLsb' 0 4 ≠ 0xF ∨ b.off % 4 ≠ 0) ∨ b.wide = true ∧ b.off % 8 ≠ 0) :=
  ⟨.queue 0, ⟨0x00000010, 5, false, 0x7⟩, Block.reset, by decide +kernel⟩

theorem test_meets_RegisterWritesLand_9 : ∃ (c : Ctx) (b : BarWrite) (s t : Block),
    servedNow s c = true ∧ b.wide = true ∧ b.off % 8 = 0 ∧ b.be = 0xFF ∧ pathCode (arrived s c) c (accessNode (arrived s c) c b.off) b.off = rspOk ∧ pairWrite (arrived s c) c (accessNode (arrived s c) c b.off) b.off b.data = some t :=
  ⟨.queue 0, ⟨0x00D00028, 5, true, 0xFF⟩, Block.reset, (pairWrite Block.reset (.queue 0) 0 0x00D00028 5).get (by decide +kernel), by refine ⟨by decide +kernel, by decide +kernel, by decide +kernel, by decide +kernel, by decide +kernel, ?_⟩; exact (Option.some_get _).symm⟩

theorem test_meets_RegisterWritesLand_10 : ∃ (c : Ctx) (b : BarWrite) (s : Block),
    servedNow s c = true ∧ b.wide = true ∧ b.off % 8 = 0 ∧ (¬ (b.be = 0xFF ∧ pathCode (arrived s c) c (accessNode (arrived s c) c b.off) b.off = rspOk) ∨ pairWrite (arrived s c) c (accessNode (arrived s c) c b.off) b.off b.data = none) :=
  ⟨.queue 0, ⟨0x00300040, 5, true, 0xFF⟩, Block.reset, by decide +kernel⟩

theorem test_meets_RegisterWritesLand_12 : ∃ (c : Ctx) (b : BarWrite) (s : Block) (r : Reg) (i : Nat),
    servedNow s c = true ∧ pathCode (arrived s c) c (accessNode (arrived s c) c b.off) b.off = rspOk ∧ b.wide = false ∧ b.off % 4 = 0 ∧ b.be.extractLsb' 0 4 = 0xF ∧ ownSelect b.off = none ∧ msixAt b.off = none ∧ windowOf b.off = none ∧ (aliasAt b.off = some (r, i) ∨ aliasAt b.off = none ∧ regAt b.off = some (r, i)) ∧ isRwl r = true :=
  ⟨.queue 0, ⟨0x003C0040, 5, false, 0xF⟩, Block.reset, .MILL_EDGE, 0, by decide +kernel⟩

theorem test_meets_RegisterWritesLand_14 : ∃ (c : Ctx) (qc : Option (Fin 16)) (i : Fin 11) (w : Word) (s : Block),
    servedNow s c = true :=
  ⟨.queue 0, none, 0, 0, Block.reset, by decide +kernel⟩

theorem test_meets_RegisterWritesLand_15 : ∃ (c : Ctx) (b : BarWrite) (s : Block) (r : Reg) (i k : Nat) (fs : List Fld),
    servedNow s c = true ∧ pathCode (arrived s c) c (accessNode (arrived s c) c b.off) b.off = rspOk ∧ b.wide = false ∧ b.off % 4 = 0 ∧ b.be.extractLsb' 0 4 = 0xF ∧ ownSelect b.off = none ∧ msixAt b.off = none ∧ windowOf b.off = none ∧ aliasAt b.off = none ∧ regAt b.off = some (r, i) ∧ clearOf r = some (k, fs) ∧ b.data.getLsbD k = true ∧ mrising none (arrived s c).regs = true :=
  ⟨.queue 0, ⟨0x00508018, 0x80000000, false, 0xF⟩, Block.reset, .NEWT_PLANE_ECC, 0, 31, [F.NEWT_PLANE_ECC_UE_COUNT, F.NEWT_PLANE_ECC_CE_COUNT], by decide +kernel⟩

theorem test_meets_RegisterWritesLand_16 : ∃ (req : MemReq) (way : BusWay) (s : Block),
    servedNow s (.queue 0) = true ∧ (2 ^ 28 < req.addr + req.bytes.length ∨ req.bytes = []) :=
  ⟨⟨false, 0, []⟩, .served, Block.reset, by decide +kernel⟩

theorem test_meets_RegisterWritesLand_17 : ∃ (req : MemReq) (s : Block),
    servedNow s (.queue 0) = true ∧ req.addr + req.bytes.length ≤ 2 ^ 28 ∧ req.bytes ≠ [] :=
  ⟨⟨false, 0, [none]⟩, stOf [(F.STG_BANK_OWNER_CURRENT, 0, ownHost)], by decide +kernel⟩

theorem test_meets_RegisterWritesLand_19 : ∃ (req : MemReq) (r : Fin 48) (s : Block),
    servedNow s (.queue 0) = true ∧ req.addr + req.bytes.length ≤ 2 ^ 28 ∧ req.bytes ≠ [] ∧ nodePresent (arrived s (.queue 0)) (selGet (arrived s (.queue 0)) 0 0) = true :=
  ⟨⟨false, 0, [none]⟩, 3, stOf [(F.STG_BANK_OWNER_CURRENT, 0, ownHost)], by decide +kernel⟩

theorem test_meets_RegisterWritesLand_20 : ∃ (c : Ctx) (b : BarWrite) (r : Fin 48) (s : Block),
    servedNow s c = true :=
  ⟨.queue 0, ⟨0x00300040, 5, false, 0xF⟩, 3, Block.reset, by decide +kernel⟩

theorem test_meets_RegisterWritesLand_21 : ∃ (k : Fin 16) (b : NetWrite) (req : NetReq) (s : Block),
    (s.d3hot = true ∨ (pow s 0).off = true ∨ pState s 0 = 4) :=
  ⟨0, ⟨⟨0x00300040, 5, false, 0xF⟩, .served⟩, ⟨⟨false, 0, []⟩, .served⟩, stOf [(F.GOV_STATE_STATE, 0, 4)], by decide +kernel⟩

theorem test_meets_RegisterWritesLand_22 : ∃ (k : Fin 16) (b : NetWrite) (req : NetReq) (s : Block),
    s.d3hot = false ∧ (pow s 0).off = false ∧ (pState s 0 = 2 ∨ pState s 0 = 3) :=
  ⟨0, ⟨⟨0x00300040, 5, false, 0xF⟩, .served⟩, ⟨⟨false, 0, []⟩, .served⟩, stOf [(F.GOV_STATE_STATE, 0, 2)], by decide +kernel⟩

theorem test_meets_RegisterWritesLand_23 : ∃ (k : Fin 16) (b : NetWrite) (req : NetReq) (s : Block),
    s.d3hot = false ∧ (pow s 0).off = false ∧ pState s 0 < 2 ∧ s.tlpQ ≠ [] :=
  ⟨0, ⟨⟨0x00300040, 5, false, 0xF⟩, .served⟩, ⟨⟨false, 0, []⟩, .served⟩, { Block.reset with tlpQ := [.bar2 ⟨⟨false, 0, [none]⟩, .served⟩ none] }, by decide +kernel⟩

theorem test_meets_PacketsRequestsAndAnswers_1 : ∃ (n : Node) (c : Ctx) (f : BitVec 128) (p : PacketIn) (s : Block),
    flType f = tyRead ∧ flSnode f = n.val ∧ flSrc f ≤ 0x1C ∧ flAge f = 0 ∧ flBits f 60 4 = 0 ∧ outReq s n (flSrc f) (flTag f) = none ∧ flAddr f % 64 + flLen f < 64 :=
  ⟨0, .queue 0, flit 0x01 0 3 0 0 7 3 64, ⟨none, .served⟩, Block.reset, by decide +kernel⟩

theorem test_meets_PacketsRequestsAndAnswers_2 : ∃ (n : Node) (c : Ctx) (f : BitVec 128) (data : List (BitVec 8)) (p : PacketIn) (s : Block),
    flType f = tyWrite ∧ flSnode f = n.val ∧ flSrc f ≤ 0x1C ∧ flAge f = 0 ∧ flBits f 60 4 = 0 ∧ outReq s n (flSrc f) (flTag f) = none ∧ flAddr f % 64 + flLen f < 64 :=
  ⟨0, .queue 0, flit 0x02 0 3 0 0 7 3 64, [1, 2, 3, 4], ⟨none, .served⟩, Block.reset, by decide +kernel⟩

theorem test_meets_PacketsRequestsAndAnswers_3 : ∃ (n : Node) (f : BitVec 128) (x : MsgIn) (s : Block),
    flType f = tyMsg ∧ flSnode f = n.val ∧ flSrc f ≤ 0x1C ∧ flAge f = 0 ∧ flBits f 60 4 = 0 ∧ outReq s n (flSrc f) (flTag f) = none :=
  ⟨0, flit 0x03 0 3 0 0 7 0 0, ⟨2, .served⟩, Block.reset, by decide +kernel⟩

theorem test_meets_PacketsRequestsAndAnswers_4 : ∃ (n : Node) (c : Ctx) (f : BitVec 128) (data : List (BitVec 8)) (p : PacketIn) (x : MsgIn) (s : Block),
    (outReq s n (flSrc f) (flTag f)).isSome = true :=
  ⟨0, .queue 0, flit 0x01 0 3 0 0 7 3 64, [], ⟨none, .served⟩, ⟨0, .served⟩, rspUp, by decide +kernel⟩

theorem test_meets_PacketsRequestsAndAnswers_7 : ∃ (f : BitVec 128) (cause : Fin 32) (s : Block),
    comesThrough s f = true :=
  ⟨flit 0x03 0 3 0 0 7 0 0, 2, Block.reset, by decide +kernel⟩

theorem test_meets_PacketsRequestsAndAnswers_8 : ∃ (c : Ctx) (f : BitVec 128) (req : MemReq) (ans : Option (List (BitVec 8))) (s : Block),
    comesThrough s f = true ∧ epDomain (flDst f) = none :=
  ⟨.queue 0, flit 0x01 0 3 0 0 7 3 64, ⟨false, 64, [none]⟩, none, Block.reset, by decide +kernel⟩

theorem test_meets_PacketsRequestsAndAnswers_9 : ∃ (c : Ctx) (f : BitVec 128) (req : MemReq) (ans : Option (List (BitVec 8))) (s : Block) (d : Nat),
    comesThrough s f = true ∧ epDomain (flDst f) = some d :=
  ⟨.queue 0, flit 0x01 0x28 3 0 0 7 3 64, ⟨false, 64, [none]⟩, none, Block.reset, 4, by decide +kernel⟩

theorem test_meets_PacketsRequestsAndAnswers_10 : ∃ (n : Node) (e : BitVec 8) (tag : BitVec 12) (s : Block) (x : RspFlit) (rest : List RspFlit) (r : OutReq),
    takeFirst (rspFor n e.toNat tag.toNat false) s.rspFlits = some (x, rest) ∧ outReq { s with rspFlits := rest } n e.toNat tag.toNat = some r :=
  ⟨0, 3, 7, rspUp, ⟨flit 0x31 3 0 0 0 7 0 0, [9]⟩, [], ⟨0, 3, 7, flit 0x01 0 3 0 0 7 0 0, 100⟩, by decide +kernel⟩

theorem test_meets_PacketsRequestsAndAnswers_11 : ∃ (n : Node) (e : BitVec 8) (tag : BitVec 12) (s : Block) (x : RspFlit) (rest : List RspFlit),
    takeFirst (rspFor n e.toNat tag.toNat false) s.rspFlits = some (x, rest) ∧ outReq { s with rspFlits := rest } n e.toNat tag.toNat = none :=
  ⟨0, 3, 7, { rspUp with outReqs := [] }, ⟨flit 0x31 3 0 0 0 7 0 0, [9]⟩, [], by decide +kernel⟩

theorem test_meets_PacketsRequestsAndAnswers_12 : ∃ (n : Node) (e : BitVec 8) (tag : BitVec 12) (s : Block) (x : RspFlit) (rest : List RspFlit),
    takeFirst (rspFor n e.toNat tag.toNat true) s.rspFlits = some (x, rest) :=
  ⟨0, 3, 7, { rspUp with rspFlits := [⟨flit 0x11 3 0x28 0 0 7 0 0, []⟩] }, ⟨flit 0x11 3 0x28 0 0 7 0 0, []⟩, [], by decide +kernel⟩

theorem test_meets_PacketsRequestsAndAnswers_13 : ∃ (n : Node) (f : BitVec 128) (line : BitVec 21) (s : Block),
    flType f = tySnoopInv ∧ flDnode f = n.val ∧ flDst f < 16 :=
  ⟨0, flit 0x20 3 0x20 0 0 7 0 0, 5, Block.reset, by decide +kernel⟩

theorem test_meets_PacketsRequestsAndAnswers_14 : ∃ (n : Node) (f : BitVec 128) (line : BitVec 21) (s : Block),
    flType f = tySnoopWbinv ∧ flDnode f = n.val ∧ flDst f < 16 :=
  ⟨0, flit 0x21 3 0x20 0 0 7 0 0, 5, Block.reset, by decide +kernel⟩

theorem test_meets_PacketsRequestsAndAnswers_15 : ∃ (n : Node) (e : BitVec 8) (s : Block) (x : SnoopMsg) (rest : List SnoopMsg),
    takeFirst (fun x : SnoopMsg => flDst x.flit == e.toNat && flDnode x.flit == n.val) s.snoopAcks = some (x, rest) :=
  ⟨0, 3, { Block.reset with snoopAcks := [⟨flit 0x22 3 5 0 0 7 0 0⟩] }, ⟨flit 0x22 3 5 0 0 7 0 0⟩, [], by decide +kernel⟩

theorem test_meets_NetworkSwapsDomainsAndTimeouts_1 : ∃ (n : Node) (k : Fin 8) (w : Word) (s : Block),
    takenNow s n 0x11 = true :=
  ⟨0, 0, 1, Block.reset, by decide +kernel⟩

theorem test_meets_NetworkSwapsDomainsAndTimeouts_2 : ∃ (n : Node) (r : Fin 48) (s : Block),
    takenNow s n 0x11 = true :=
  ⟨0, 3, Block.reset, by decide +kernel⟩

theorem test_meets_NetworkSwapsDomainsAndTimeouts_3 : ∃ (n : Node) (r : Fin 48) (s : Block),
    rtrPhase s n r = 1 ∧ (router s n r).inputs = [] :=
  ⟨0, 3, fput Block.reset 0 F.NOC_RTR_CTRL_PHASE (ix 3) 1, by decide +kernel⟩

theorem test_meets_NetworkSwapsDomainsAndTimeouts_4 : ∃ (n : Node) (r : Fin 48) (s : Block),
    (rtrPhase s n r ≠ 1 ∨ (router s n r).inputs ≠ []) :=
  ⟨0, 3, Block.reset, by decide +kernel⟩

theorem test_meets_NetworkSwapsDomainsAndTimeouts_5 : ∃ (n : Node) (r : Fin 48) (s : Block),
    rtrPhase s n r = 1 ∧ (router s n r).stalled = false :=
  ⟨0, 3, fput Block.reset 0 F.NOC_RTR_CTRL_PHASE (ix 3) 1, by decide +kernel⟩

theorem test_meets_NetworkSwapsDomainsAndTimeouts_6 : ∃ (n : Node) (r : Fin 48) (s : Block),
    (rtrPhase s n r ≠ 1 ∨ (router s n r).stalled = true) :=
  ⟨0, 3, Block.reset, by decide +kernel⟩

theorem test_meets_NetworkSwapsDomainsAndTimeouts_7 : ∃ (n : Node) (w : BitVec 4) (s : Block),
    takenNow s n 0x14 = true :=
  ⟨0, 1, Block.reset, by decide +kernel⟩

theorem test_meets_NetworkSwapsDomainsAndTimeouts_9 : ∃ (n : Node) (d : Fin 8) (s : Block),
    bridgeOf s n d = brClosing ∧ (d.val ≠ 7 ∨ (s.heldReqs.any fun h => h.node == n.val && decide (16 ≤ h.dom)) = false ∧ (s.stgHeld.any fun h => h.node == n.val) = false) :=
  ⟨0, 4, setBridge Block.reset 0 4 brClosing, by decide +kernel⟩

theorem test_meets_NetworkSwapsDomainsAndTimeouts_10 : ∃ (n : Node) (s : Block),
    ((s.heldReqs.any fun h => h.node == n.val && decide (16 ≤ h.dom)) = true ∨ (s.stgHeld.any fun h => h.node == n.val) = true) :=
  ⟨0, { Block.reset with heldReqs := [⟨0, 16, 0, [], none⟩] }, by decide +kernel⟩

theorem test_meets_NetworkSwapsDomainsAndTimeouts_11 : ∃ (n : Node) (d : Fin 8) (s : Block),
    (bridgeOf s n d ≠ brOpen ∧ (s.heldReqs.any fun h => h.node == n.val && h.dom == d.val) = true ∨ bridgeOf s n d = brClosed ∧ domDown s n d = false) :=
  ⟨0, 4, setBridge Block.reset 0 4 brClosed, by decide +kernel⟩

theorem test_meets_NetworkSwapsDomainsAndTimeouts_12 : ∃ (n : Node) (r : Fin 48) (out : Fin 8) (ins : List RtrIn) (s : Block),
    inRun s n = true :=
  ⟨0, 0, 2, [⟨1, flit 0x01 5 3 0 0 7 3 64, .clean⟩], routeUp, by decide +kernel⟩

theorem test_meets_NetworkSwapsDomainsAndTimeouts_14 : ∃ (n r net i : Nat) (l : List Nat) (h : RtrFlit) (q : List RtrFlit) (s : Block),
    inputQ s n r net i = h :: q :=
  ⟨0, 0, 0, 1, [], ⟨0, 0⟩, [], putInput Block.reset 0 0 0 1 [⟨0, 0⟩], by decide +kernel⟩

theorem test_meets_NetworkSwapsDomainsAndTimeouts_16 : ∃ (n : Node) (e : BitVec 8) (tag : BitVec 12) (s : Block) (r : OutReq),
    outReq s n e.toNat tag.toNat = some r :=
  ⟨0, 3, 7, rspUp, ⟨0, 3, 7, flit 0x01 0 3 0 0 7 0 0, 100⟩, by decide +kernel⟩

theorem test_meets_NetworkSwapsDomainsAndTimeouts_17 : ∃ (n : Node) (e : BitVec 8) (tag : BitVec 12) (s : Block) (k : Nat) (h : HeldAcc),
    outReq s n e.toNat tag.toNat = none ∧ (e.toNat ≠ ownHost ∨ n.val ≠ 0 ∨ s.tlpQ = []) ∧ (s.stgHeld.findIdx? fun h => h.node == n.val && h.master == e.toNat && !h.late) = some k ∧ s.stgHeld[k]? = some h :=
  ⟨0, 3, 7, { Block.reset with stgHeld := [⟨0, 3, 0, ⟨false, 0, [none]⟩, 9, false⟩] }, 0, ⟨0, 3, 0, ⟨false, 0, [none]⟩, 9, false⟩, by decide +kernel⟩

theorem test_meets_NetworkSwapsDomainsAndTimeouts_18 : ∃ (tag : BitVec 12) (s : Block) (req : NetReq) (due : Nat) (l : List HostTlp),
    outReq s 0 ownHost tag.toNat = none ∧ s.tlpQ = .bar2 req (some due) :: l :=
  ⟨7, { Block.reset with tlpQ := [.bar2 ⟨⟨false, 0, [none]⟩, .served⟩ (some 9)] }, ⟨⟨false, 0, [none]⟩, .served⟩, 9, [], by decide +kernel⟩

theorem test_meets_NetworkSwapsDomainsAndTimeouts_19 : ∃ (n : Node) (r : Fin 8) (tag : BitVec 10) (req : NetReq) (ans : Option (List (BitVec 8))) (s b : Block) (t : Option (Nat × Nat)) (f : BitVec 128),
    masterOpen s n r = true ∧ req.bytes.length ≠ 0 ∧ req.addr % 64 + req.bytes.length ≤ 64 ∧ t = fabricTarget req.addr ∧ f = fabricFlit n r tag req.toMemReq ((t.map (·.1)).getD 0) ((t.map (·.2)).getD req.addr) ∧ sendReq s n (flType f) f = some b :=
  ⟨0, 0, 0, ⟨⟨false, 0x20000000, [none]⟩, .served⟩, none, runRegion, (sendReq runRegion 0 1 (fabricFlit 0 0 0 ⟨false, 0x20000000, [none]⟩ 0 0x20000000)).get (by decide +kernel), none, fabricFlit 0 0 0 ⟨false, 0x20000000, [none]⟩ 0 0x20000000, by refine ⟨by decide +kernel, by decide, by decide, by decide +kernel, by decide +kernel, ?_⟩; exact (Option.some_get _).symm⟩

theorem test_meets_NetworkSwapsDomainsAndTimeouts_21 : ∃ (n : Node) (r : Fin 8) (tag : BitVec 10) (req : NetReq) (ans : Option (List (BitVec 8))) (s : Block),
    (masterOpen s n r = false ∨ req.bytes.length = 0 ∨ 64 < req.addr % 64 + req.bytes.length) :=
  ⟨0, 0, 0, ⟨⟨false, 0x20000000, [none]⟩, .served⟩, none, Block.reset, by decide +kernel⟩

theorem test_meets_QueuesTakeDoorbellsAndDrain_1 : ∃ (q0 : Fin 16) (v : Half) (s : Block),
    servedNow s (.queue 0) = true ∧ qState (arrived s (.queue 0)) q0 = 2 ∧ v.toNat < sqSize (arrived s (.queue 0)) q0 :=
  ⟨0, 0, qUp, by decide +kernel⟩

theorem test_meets_QueuesTakeDoorbellsAndDrain_2 : ∃ (q0 : Fin 16) (v : Half) (s : Block),
    servedNow s (.queue 0) = true ∧ qState (arrived s (.queue 0)) q0 = 2 ∧ sqSize (arrived s (.queue 0)) q0 ≤ v.toNat :=
  ⟨0, 60000, qUp, by decide +kernel⟩

theorem test_meets_QueuesTakeDoorbellsAndDrain_3 : ∃ (q0 : Fin 16) (v : Half) (s : Block),
    servedNow s (.queue 0) = true ∧ qState (arrived s (.queue 0)) q0 = 2 :=
  ⟨0, 0, qUp, by decide +kernel⟩

theorem test_meets_QueuesTakeDoorbellsAndDrain_4 : ∃ (q0 : Fin 16) (v : Half) (s : Block),
    servedNow s (.queue 0) = true ∧ qState (arrived s (.queue 0)) q0 ≠ 2 :=
  ⟨0, 0, Block.reset, by decide +kernel⟩

theorem test_meets_QueuesTakeDoorbellsAndDrain_5 : ∃ (q0 : Fin 16) (s : Block),
    servedNow s (.queue 0) = true ∧ qState (arrived s (.queue 0)) q0 = 0 :=
  ⟨0, Block.reset, by decide +kernel⟩

theorem test_meets_QueuesTakeDoorbellsAndDrain_6 : ∃ (q0 : Fin 16) (s : Block),
    servedNow s (.queue 0) = true ∧ qState (arrived s (.queue 0)) q0 = 2 :=
  ⟨0, qUp, by decide +kernel⟩

theorem test_meets_QueuesTakeDoorbellsAndDrain_7 : ∃ (q0 : Fin 16) (en : Bool) (s : Block),
    servedNow s (.queue 0) = true ∧ (qState (arrived s (.queue 0)) q0 = 1 ∨ qState (arrived s (.queue 0)) q0 = (if en then 2 else 0)) :=
  ⟨0, true, qUp, by decide +kernel⟩

theorem test_meets_QueuesTakeDoorbellsAndDrain_8 : ∃ (q0 : Fin 16) (s : Block),
    qState s q0 = 1 ∧ (s.flight.any fun f => f.q == q0.val) = false :=
  ⟨0, stOf [(F.CMD_Q_CTRL_STATE, 0, 1)], by decide +kernel⟩

theorem test_meets_CommandsAreTakenAndAnswered_1 : ∃ (q0 : Fin 16) (pkt : BitVec 512) (fence : BitVec 16) (miss : Fin 4) (way : BusWay) (s : Block),
    taking s = true ∧ turnQueue s (if pkt.getLsbD 41 then fence ||| BitVec.ofNat 16 (2 ^ q0.val) else fence &&& ~~~BitVec.ofNat 16 (2 ^ q0.val)) = some q0.val :=
  ⟨0, 0x100, 0, 0, .served, takeUp, by decide +kernel⟩

theorem test_meets_CommandsAreTakenAndAnswered_2 : ∃ (q0 : Fin 16) (pkt : BitVec 512) (fence : BitVec 16) (miss : Fin 4) (way : BusWay) (s : Block),
    (taking s = false ∨ turnQueue s (if pkt.getLsbD 41 then fence ||| BitVec.ofNat 16 (2 ^ q0.val) else fence &&& ~~~BitVec.ofNat 16 (2 ^ q0.val)) ≠ some q0.val) :=
  ⟨0, 0, 0, 0, .served, Block.reset, by decide +kernel⟩

theorem test_meets_CommandsAreTakenAndAnswered_4 : ∃ (s : Block) (f : CmdFl) (op : Nat) (act : CmdFl → Block → Block),
    nextCmd s = some f ∧ f.op = op ∧ ((pow s f.node).off = true ∨ 3 ≤ pState s f.node) :=
  ⟨fput (cmdUp 0x401 []) 0 F.GOV_STATE_STATE 0 3, cmd0 0x401 [], 0x401, fun _ s => s, by decide +kernel⟩

theorem test_meets_CommandsAreTakenAndAnswered_5 : ∃ (s : Block) (op : Nat) (act : CmdFl → Block → Block),
    (∀ f, nextCmd s = some f → f.op ≠ op) :=
  ⟨Block.reset, 0x401, fun _ s => s, by intro f h; simp [show nextCmd Block.reset = none from by decide +kernel] at h⟩

theorem test_meets_CommandsAreTakenAndAnswered_6 : ∃ (q0 : Fin 16) (cid : Half) (s : Block) (f : CmdFl),
    s.d3hot = false ∧ inRun s 0 = true ∧ (dupOf s q0 cid.toNat).or (cmdOf s q0 cid.toNat) = some f :=
  ⟨0, 1, { Block.reset with flight := [doneCmd] }, doneCmd, by decide +kernel⟩

theorem test_meets_CommandsReadWriteAndReport_1 : ∃ (s : Block) (f : CmdFl),
    nextCmd s = some f ∧ f.op = 0x0100 :=
  ⟨cmdUp 0x100 [], cmd0 0x100 [], by decide +kernel⟩

theorem test_meets_CommandsReadWriteAndReport_2 : ∃ (dma : Fin 3) (s : Block) (f : CmdFl),
    nextCmd s = some f ∧ f.op = 0x0101 ∧ (pow s f.node).off = false ∧ pState s f.node < 3 :=
  ⟨0, cmdUp 0x101 [], cmd0 0x101 [], by decide +kernel⟩

theorem test_meets_CommandsReadWriteAndReport_4 : ∃ (s : Block) (f t u : CmdFl),
    nextCmd s = some f ∧ f.op = 0x0102 ∧ cmdOf s (pf f.ps 0 19 16) (pf f.ps 0 15 0) = some t ∧ cmdOf (stopFlight stAborted true s t) (pf f.ps 0 19 16) (pf f.ps 0 15 0) = some u ∧ t.result = none ∧ u.result.map (·.status) = some 1 :=
  ⟨abortUp, cmd0 0x102 [7], running7, { running7 with result := some { status := 1 } }, by decide +kernel⟩

theorem test_meets_CommandsReadWriteAndReport_5 : ∃ (s : Block) (f t u : CmdFl),
    nextCmd s = some f ∧ f.op = 0x0102 ∧ cmdOf s (pf f.ps 0 19 16) (pf f.ps 0 15 0) = some t ∧ cmdOf (stopFlight stAborted true s t) (pf f.ps 0 19 16) (pf f.ps 0 15 0) = some u ∧ u.result = none ∧ u.aborting = true :=
  ⟨abortWaits, cmd0 0x102 [7], epoch7, { epoch7 with aborting := true }, by decide +kernel⟩

theorem test_meets_CommandsReadWriteAndReport_6 : ∃ (s : Block) (f t : CmdFl),
    nextCmd s = some f ∧ f.op = 0x0102 ∧ cmdOf s (pf f.ps 0 19 16) (pf f.ps 0 15 0) = some t ∧ (t.past = true ∧ t.aborting = false ∨ t.result.isSome = true) :=
  ⟨{ abortUp with flight := [{ running7 with past := true }, cmd0 0x102 [7]] }, cmd0 0x102 [7], { running7 with past := true }, by decide +kernel⟩

theorem test_meets_CommandsReadWriteAndReport_7 : ∃ (s : Block) (f : CmdFl),
    nextCmd s = some f ∧ f.op = 0x0102 ∧ cmdOf s (pf f.ps 0 19 16) (pf f.ps 0 15 0) = none :=
  ⟨cmdUp 0x102 [7], cmd0 0x102 [7], by decide +kernel⟩

theorem test_meets_CommandsReadWriteAndReport_8 : ∃ (s : Block) (f : CmdFl),
    nextCmd s = some f ∧ f.op = 0x0103 :=
  ⟨cmdUp 0x103 [0xFFFF0], cmd0 0x103 [0xFFFF0], by decide +kernel⟩

theorem test_meets_CommandsReadWriteAndReport_10 : ∃ (f : CmdFl) (o : Nat) (w : Word) (s : Block),
    o / 2 ^ 20 ≠ 1 :=
  ⟨cmd0 0x104 [0x300040], 0x300040, 5, Block.reset, by decide +kernel⟩

theorem test_meets_CommandsReadWriteAndReport_11 : ∃ (s : Block) (f : CmdFl),
    nextCmd s = some f ∧ f.op = 0x0104 :=
  ⟨cmdUp 0x104 [0xFFFF0], cmd0 0x104 [0xFFFF0], by decide +kernel⟩

theorem test_meets_CommandsReadWriteAndReport_13 : ∃ (s : Block) (f : CmdFl),
    nextCmd s = some f ∧ f.op = 0x0700 ∧ (pow s f.node).off = false ∧ pState s f.node < 3 :=
  ⟨cmdUp 0x700 [], cmd0 0x700 [], by decide +kernel⟩

theorem test_meets_CommandsReadWriteAndReport_14 : ∃ (dma : Fin 3) (s : Block) (f : CmdFl),
    nextCmd s = some f ∧ f.op = 0x0701 ∧ (pow s f.node).off = false ∧ pState s f.node < 3 ∧ f.p 0 % 2 = 0 :=
  ⟨0, cmdUp 0x701 [], cmd0 0x701 [], by decide +kernel⟩

theorem test_meets_CommandsReadWriteAndReport_15 : ∃ (dma : Fin 3) (s : Block) (f : CmdFl),
    nextCmd s = some f ∧ f.op = 0x0701 ∧ (pow s f.node).off = false ∧ pState s f.node < 3 ∧ f.p 0 % 2 ≠ 0 :=
  ⟨0, cmdUp 0x701 [1], cmd0 0x701 [1], by decide +kernel⟩

theorem test_meets_CommandsReadWriteAndReport_16 : ∃ (s : Block) (f : CmdFl),
    nextCmd s = some f ∧ f.op = 0x0800 ∧ pf f.ps 0 2 0 ≠ 0 :=
  ⟨cmdUp 0x800 [1], cmd0 0x800 [1], by decide +kernel⟩

theorem test_meets_CommandsReadWriteAndReport_17 : ∃ (s : Block) (f : CmdFl),
    nextCmd s = some f ∧ f.op = 0x0800 ∧ pf f.ps 0 2 0 = 0 :=
  ⟨cmdUp 0x800 [0], cmd0 0x800 [0], by decide +kernel⟩

theorem test_meets_CommandsReadWriteAndReport_18 : ∃ (dma : Fin 3) (s : Block) (f : CmdFl),
    nextCmd s = some f ∧ f.op = 0x0A00 :=
  ⟨0, cmdUp 0xA00 [], cmd0 0xA00 [], by decide +kernel⟩

theorem test_meets_CommandsReadWriteAndReport_19 : ∃ (s : Block) (f : CmdFl),
    nextCmd s = some f ∧ f.op = 0x0A01 :=
  ⟨cmdUp 0xA01 [], cmd0 0xA01 [], by decide +kernel⟩

theorem test_meets_CommandsOnSettingsAndImages_1 : ∃ (data : List (BitVec 8)) (bad : BitVec 3) (dma : Fin 3) (s : Block) (f : CmdFl),
    nextCmd s = some f ∧ f.op = 0x0200 ∧ (pow s f.node).off = false ∧ pState s f.node < 3 :=
  ⟨[5], 0, 0, cmdUp 0x200 [0, 0, 1], cmd0 0x200 [0, 0, 1], by decide +kernel⟩

theorem test_meets_CommandsOnSettingsAndImages_2 : ∃ (s : Block) (f : CmdFl) (dma : Fin 3),
    nextCmd s = some f ∧ f.op = 0x0201 ∧ (pow s f.node).off = false ∧ pState s f.node < 3 :=
  ⟨settingsUp, cmd0 0x201 [], 0, by decide +kernel⟩

theorem test_meets_CommandsOnSettingsAndImages_3 : ∃ (data : List (BitVec 8)) (fail : Bool) (dma : Fin 3) (s : Block) (f : CmdFl),
    nextCmd s = some f ∧ f.op = 0x0300 ∧ (pow s f.node).off = false ∧ pState s f.node < 3 :=
  ⟨[5], false, 0, cmdUp 0x300 [2, 0, 1], cmd0 0x300 [2, 0, 1], by decide +kernel⟩

theorem test_meets_CommandsOnSettingsAndImages_4 : ∃ (s : Block) (f : CmdFl),
    nextCmd s = some f ∧ f.op = 0x0301 ∧ (pow s f.node).off = false ∧ pState s f.node < 3 :=
  ⟨cmdUp 0x301 [2], cmd0 0x301 [2], by decide +kernel⟩

theorem test_meets_CommandsOnSettingsAndImages_5 : ∃ (bad : BitVec 3) (s : Block) (f : CmdFl),
    nextCmd s = some f ∧ f.op = 0x0302 ∧ (pow s f.node).off = false ∧ pState s f.node < 3 :=
  ⟨0, cmdUp 0x302 [], cmd0 0x302 [], by decide +kernel⟩

theorem test_meets_CommandsOnSettingsAndImages_6 : ∃ (s : Block) (f : CmdFl),
    nextCmd s = some f ∧ f.op = 0x0900 ∧ (pow s f.node).off = false ∧ pState s f.node < 3 :=
  ⟨fabricUp, cmd0 0x900 [0x10000, 0, 1], by decide +kernel⟩

theorem test_meets_CommandsOnSettingsAndImages_7 : ∃ (s : Block) (f : CmdFl),
    (f.op = 0x0200 ∨ f.op = 0x0300 ∨ f.op = 0x0301 ∨ f.op = 0x0302) ∧ f.past = false :=
  ⟨Block.reset, cmd0 0x300 [], by decide +kernel⟩

theorem test_meets_CommandsOnGangsTasksAndOutputs_1 : ∃ (s : Block) (f : CmdFl),
    nextCmd s = some f ∧ f.op = 0x0400 ∧ (pow s f.node).off = false ∧ pState s f.node < 3 :=
  ⟨formedCmd 0x400, cmd0 0x400 [], by decide +kernel⟩

theorem test_meets_CommandsOnGangsTasksAndOutputs_2 : ∃ (s : Block) (f : CmdFl),
    nextCmd s = some f ∧ f.op = 0x0401 ∧ (pow s f.node).off = false ∧ pState s f.node < 3 :=
  ⟨cmdUp 0x401 [], cmd0 0x401 [], by decide +kernel⟩

theorem test_meets_CommandsOnGangsTasksAndOutputs_3 : ∃ (s : Block) (f : CmdFl),
    nextCmd s = some f ∧ f.op = 0x0402 ∧ (pow s f.node).off = false ∧ pState s f.node < 3 :=
  ⟨cmdUp 0x402 [], cmd0 0x402 [], by decide +kernel⟩

theorem test_meets_CommandsOnGangsTasksAndOutputs_4 : ∃ (s : Block) (f : CmdFl),
    nextCmd s = some f ∧ f.op = 0x0403 ∧ (pow s f.node).off = false ∧ pState s f.node < 3 :=
  ⟨cmdUp 0x403 [], cmd0 0x403 [], by decide +kernel⟩

theorem test_meets_CommandsOnGangsTasksAndOutputs_5 : ∃ (s : Block) (f : CmdFl),
    nextCmd s = some f ∧ f.op = 0x0404 ∧ (pow s f.node).off = false ∧ pState s f.node < 3 :=
  ⟨cmdUp 0x404 [], cmd0 0x404 [], by decide +kernel⟩

theorem test_meets_CommandsOnGangsTasksAndOutputs_6 : ∃ (s : Block) (f : CmdFl),
    nextCmd s = some f ∧ f.op = 0x0405 ∧ (pow s f.node).off = false ∧ pState s f.node < 3 :=
  ⟨cmdUp 0x405 [], cmd0 0x405 [], by decide +kernel⟩

theorem test_meets_CommandsOnGangsTasksAndOutputs_7 : ∃ (s : Block) (f : CmdFl),
    nextCmd s = some f ∧ f.op = 0x0500 ∧ (pow s f.node).off = false ∧ pState s f.node < 3 :=
  ⟨cmdUp 0x500 [], cmd0 0x500 [], by decide +kernel⟩

theorem test_meets_CommandsOnGangsTasksAndOutputs_8 : ∃ (s : Block) (f : CmdFl),
    nextCmd s = some f ∧ f.op = 0x0501 ∧ (pow s f.node).off = false ∧ pState s f.node < 3 :=
  ⟨cmdUp 0x501 [], cmd0 0x501 [], by decide +kernel⟩

theorem test_meets_CommandsOnGangsTasksAndOutputs_9 : ∃ (s : Block) (f : CmdFl),
    nextCmd s = some f ∧ f.op = 0x0502 ∧ (pow s f.node).off = false ∧ pState s f.node < 3 :=
  ⟨cmdUp 0x502 [], cmd0 0x502 [], by decide +kernel⟩

theorem test_meets_CommandsOnGangsTasksAndOutputs_10 : ∃ (s : Block) (f : CmdFl),
    nextCmd s = some f ∧ f.op = 0x0600 :=
  ⟨cmdUp 0x600 [], cmd0 0x600 [], by decide +kernel⟩

theorem test_meets_CommandsOnGangsTasksAndOutputs_11 : ∃ (s : Block) (f : CmdFl),
    nextCmd s = some f ∧ f.op = 0x0601 :=
  ⟨cmdUp 0x601 [0x300040], cmd0 0x601 [0x300040], by decide +kernel⟩

theorem test_meets_CommandsOnGangsTasksAndOutputs_12 : ∃ (s : Block) (f : CmdFl),
    nextCmd s = some f ∧ f.op = 0x0602 ∧ (pow s f.node).off = false ∧ pState s f.node < 3 :=
  ⟨cmdUp 0x602 [], cmd0 0x602 [], by decide +kernel⟩

theorem test_meets_HostLinkTrainsResetsAndWakes_1 : ∃ (v : BitVec 8) (s : Block),
    servedNow s (.queue 0) = true :=
  ⟨3, { Block.reset with pba := [(3, true)] }, by decide +kernel⟩

theorem test_meets_HostLinkTrainsResetsAndWakes_2 : ∃ (n : Node) (rate width : Fin 5) (lanes : BitVec 16) (reversed : Bool) (s : Block),
    (pow s n).off = false ∧ (pow s n).quietEp = false ∧ pState s n ≠ 4 ∧ linkWidth lanes reversed width ≠ 0 :=
  ⟨0, 4, 4, 0xFFFF, false, stOf [(F.CHR_STATUS_ROLE, 0, 2)], by decide +kernel⟩

theorem test_meets_HostLinkTrainsResetsAndWakes_3 : ∃ (n : Node) (rate width : Fin 5) (lanes : BitVec 16) (reversed : Bool) (s : Block),
    ((pow s n).off = true ∨ (pow s n).quietEp = true ∨ pState s n = 4 ∨ linkWidth lanes reversed width = 0) :=
  ⟨0, 4, 4, 0, false, Block.reset, by decide +kernel⟩

theorem test_meets_HostLinkTrainsResetsAndWakes_5 : ∃ (loss : Bool) (s : Block),
    (pow s 0).off = false ∧ pState s 0 ≠ 4 :=
  ⟨false, Block.reset, by decide +kernel⟩

theorem test_meets_HostLinkTrainsResetsAndWakes_6 : ∃ (s : Block),
    (pow s 0).off = false ∧ pState s 0 ≠ 4 :=
  ⟨Block.reset, by decide +kernel⟩

theorem test_meets_HostLinkTrainsResetsAndWakes_7 : ∃ (loss : Bool) (s : Block),
    ((pow s 0).off = true ∨ pState s 0 = 4) :=
  ⟨false, stOf [(F.GOV_STATE_STATE, 0, 4)], by decide +kernel⟩

theorem test_meets_ArrayIntegerOpsRun : ([(0x10, 0), (0x11, 0), (0x12, 0), (0x13, 0), (0x14, 0), (0x15, 0), (0x16, 0), (0x17, 0), (0x19, 0), (0x1A, 0), (0x1B, 0), (0x1C, 0)].all fun p : Nat × Nat =>
    (readyOp (opReady p.1 p.2) 0 0 p.1 p.2 == some (readyMop p.1 p.2)) && (abandonedOp (opReady p.1 p.2) 0 0 p.1 p.2).isNone &&
    !gated (opReady p.1 p.2) 0 0 (readyMop p.1 p.2) && netLive (opReady p.1 p.2) 0 0 (readyMop p.1 p.2)) = true := by
  decide +kernel

theorem test_gated_ArrayIntegerOpsRun : ([(0x10, 0), (0x11, 0), (0x12, 0), (0x13, 0), (0x14, 0), (0x15, 0), (0x16, 0), (0x17, 0), (0x19, 0), (0x1A, 0), (0x1B, 0), (0x1C, 0)].all fun p : Nat × Nat =>
    (readyOp (opGated false p.1 p.2) 0 0 p.1 p.2 == some (gatedMop p.1 p.2)) && (abandonedOp (opGated false p.1 p.2) 0 0 p.1 p.2).isNone &&
    gated (opGated false p.1 p.2) 0 0 (gatedMop p.1 p.2) &&
    (abandonedOp (opGated true p.1 p.2) 0 0 p.1 p.2 == some (gatedMop p.1 p.2))) = true := by
  decide +kernel

theorem test_meets_ArrayLogicShiftAndMoveOpsRun : ([(0x20, 0), (0x21, 0), (0x22, 0), (0x23, 0), (0x24, 0), (0x25, 0), (0x26, 0), (0x27, 0), (0x28, 0), (0x29, 0), (0x2A, 0), (0x2B, 0), (0x2C, 0), (0x2D, 0), (0x2E, 0), (0x30, 0), (0x31, 0), (0x32, 0)].all fun p : Nat × Nat =>
    (readyOp (opReady p.1 p.2) 0 0 p.1 p.2 == some (readyMop p.1 p.2)) && (abandonedOp (opReady p.1 p.2) 0 0 p.1 p.2).isNone &&
    !gated (opReady p.1 p.2) 0 0 (readyMop p.1 p.2) && netLive (opReady p.1 p.2) 0 0 (readyMop p.1 p.2)) = true := by
  decide +kernel

theorem test_gated_ArrayLogicShiftAndMoveOpsRun : ([(0x20, 0), (0x21, 0), (0x22, 0), (0x23, 0), (0x24, 0), (0x25, 0), (0x26, 0), (0x27, 0), (0x28, 0), (0x29, 0), (0x2A, 0), (0x2B, 0), (0x2C, 0), (0x2D, 0), (0x2E, 0), (0x30, 0), (0x31, 0), (0x32, 0)].all fun p : Nat × Nat =>
    (readyOp (opGated false p.1 p.2) 0 0 p.1 p.2 == some (gatedMop p.1 p.2)) && (abandonedOp (opGated false p.1 p.2) 0 0 p.1 p.2).isNone &&
    gated (opGated false p.1 p.2) 0 0 (gatedMop p.1 p.2) &&
    (abandonedOp (opGated true p.1 p.2) 0 0 p.1 p.2 == some (gatedMop p.1 p.2))) = true := by
  decide +kernel

theorem test_meets_ArrayFloatOpsRun : ([(0x10, 1), (0x11, 1), (0x12, 1), (0x13, 1), (0x14, 1), (0x15, 1), (0x16, 1), (0x18, 1), (0x19, 1), (0x1A, 1), (0x1B, 1), (0x1C, 1), (0x41, 1), (0x42, 1)].all fun p : Nat × Nat =>
    (readyOp (opReady p.1 p.2) 0 0 p.1 p.2 == some (readyMop p.1 p.2)) && (abandonedOp (opReady p.1 p.2) 0 0 p.1 p.2).isNone &&
    !gated (opReady p.1 p.2) 0 0 (readyMop p.1 p.2) && netLive (opReady p.1 p.2) 0 0 (readyMop p.1 p.2)) = true := by
  decide +kernel

theorem test_gated_ArrayFloatOpsRun : ([(0x10, 1), (0x11, 1), (0x12, 1), (0x13, 1), (0x14, 1), (0x15, 1), (0x16, 1), (0x18, 1), (0x19, 1), (0x1A, 1), (0x1B, 1), (0x1C, 1), (0x41, 1), (0x42, 1)].all fun p : Nat × Nat =>
    (readyOp (opGated false p.1 p.2) 0 0 p.1 p.2 == some (gatedMop p.1 p.2)) && (abandonedOp (opGated false p.1 p.2) 0 0 p.1 p.2).isNone &&
    gated (opGated false p.1 p.2) 0 0 (gatedMop p.1 p.2) &&
    (abandonedOp (opGated true p.1 p.2) 0 0 p.1 p.2 == some (gatedMop p.1 p.2))) = true := by
  decide +kernel

theorem test_held_ArrayControlMaskAndCroakOpsRun : abandonedOp (spanOp 0x43) 0 0 0x43 0 = none ∧
    readyOp (spanOp 0x43) 0 0 0x43 0 = some (readyMop 0x43 0) ∧ gated (spanOp 0x43) 0 0 (readyMop 0x43 0) = false ∧
    netLive (spanOp 0x43) 0 0 (readyMop 0x43 0) = false := by
  decide +kernel

theorem test_meets_ArrayControlMaskAndCroakOpsRun : ([(0x00, 0), (0x01, 0), (0x02, 0), (0x03, 0), (0x04, 0), (0x05, 0), (0x06, 0), (0x07, 0), (0x40, 0), (0x41, 0), (0x42, 0), (0x43, 0)].all fun p : Nat × Nat =>
    (readyOp (opReady p.1 p.2) 0 0 p.1 p.2 == some (readyMop p.1 p.2)) && (abandonedOp (opReady p.1 p.2) 0 0 p.1 p.2).isNone &&
    !gated (opReady p.1 p.2) 0 0 (readyMop p.1 p.2) && netLive (opReady p.1 p.2) 0 0 (readyMop p.1 p.2)) = true := by
  decide +kernel

theorem test_gated_ArrayControlMaskAndCroakOpsRun : ([(0x00, 0), (0x01, 0), (0x02, 0), (0x03, 0), (0x04, 0), (0x05, 0), (0x06, 0), (0x07, 0), (0x40, 0), (0x41, 0), (0x42, 0), (0x43, 0)].all fun p : Nat × Nat =>
    (readyOp (opGated false p.1 p.2) 0 0 p.1 p.2 == some (gatedMop p.1 p.2)) && (abandonedOp (opGated false p.1 p.2) 0 0 p.1 p.2).isNone &&
    gated (opGated false p.1 p.2) 0 0 (gatedMop p.1 p.2) &&
    (abandonedOp (opGated true p.1 p.2) 0 0 p.1 p.2 == some (gatedMop p.1 p.2))) = true := by
  decide +kernel

theorem test_meets_ArrayResumableOpsRun_1 : ∃ (n : Node) (g : GangIx) (upto : Half) (s : Block) (m : Mop),
    readyOp s n g 0x50 0 = some m :=
  ⟨0, 0, 0, opReady 0x50 0, readyMop 0x50 0, by decide +kernel⟩

theorem test_meets_ArrayResumableOpsRun_2 : ∃ (n : Node) (g : GangIx) (upto : Half) (s : Block) (m : Mop),
    readyOp s n g 0x51 0 = some m ∧ netLive s n g m = true :=
  ⟨0, 0, 0, opReady 0x51 0, readyMop 0x51 0, by decide +kernel⟩

theorem test_meets_ArrayResumableOpsRun_3 : ∃ (n : Node) (g : GangIx) (upto : Half) (s : Block) (m : Mop),
    readyOp s n g 0x52 0 = some m ∧ netLive s n g m = true :=
  ⟨0, 0, 0, opReady 0x52 0, readyMop 0x52 0, by decide +kernel⟩

theorem test_meets_ArrayResumableOpsRun_4 : ∃ (n : Node) (g : GangIx) (upto : Half) (s : Block) (m : Mop),
    readyOp s n g 0x52 1 = some m ∧ netLive s n g m = true :=
  ⟨0, 0, 0, opReady 0x52 1, readyMop 0x52 1, by decide +kernel⟩

theorem test_meets_ArrayResumableOpsRun_5 : ∃ (n : Node) (g : GangIx) (upto : Half) (s : Block) (m : Mop),
    readyOp s n g 0x53 0 = some m ∧ buffersReady s n g m = true :=
  ⟨0, 0, 0, whlReadyOp 0x53, readyMop 0x53 0, by decide +kernel⟩

theorem test_meets_ArrayResumableOpsRun_6 : ∃ (n : Node) (g : GangIx) (upto : Half) (s : Block) (m : Mop),
    readyOp s n g 0x53 0 = some m ∧ buffersReady s n g m = false :=
  ⟨0, 0, 0, opReady 0x53 0, readyMop 0x53 0, by decide +kernel⟩

theorem test_meets_ArrayResumableOpsRun_7 : ∃ (n : Node) (g : GangIx) (upto : Half) (s : Block) (m : Mop),
    netLive s n g m = false :=
  ⟨0, 0, 0, spanOp 0x51, readyMop 0x51 0, by decide +kernel⟩

theorem test_meets_ArrayResumableOpsRun_8 : ∃ (n : Node) (g : GangIx) (upto : Half) (s : Block) (m : Mop),
    headOp s n g = some m ∧ (mopFields m.word).opc = 0x33 ∧ mopFl (mopFields m.word) = 0 ∧ m.started = true :=
  ⟨0, 0, 0, opReady 0x33 0, readyMop 0x33 0, by decide +kernel⟩

theorem test_meets_ArrayResumableOpsRun_9 : ∃ (n g : Nat) (m : Mop) (upto : Nat) (line : List Nat) (s : Block),
    lineCont s (gangRect s n g) m (movnDir (mopFields m.word)) line = false ∧ lineLive s (gangRect s n g) (movnDir (mopFields m.word)) line = true ∧ (tile s (line.headD 0)).moved = 0 :=
  ⟨0, 0, readyMop 0x33 0, 0, [0], opReady 0x33 0, by decide +kernel⟩

theorem test_meets_ArrayResumableOpsRun_10 : ∃ (n g : Nat) (m : Mop) (upto : Nat) (line : List Nat) (s : Block),
    (lineCont s (gangRect s n g) m (movnDir (mopFields m.word)) line = true ∨ lineLive s (gangRect s n g) (movnDir (mopFields m.word)) line = false ∨ (tile s (line.headD 0)).moved ≠ 0) :=
  ⟨0, 0, readyMop 0x33 0, 0, [0], putTile (opReady 0x33 0) 0 { tile (opReady 0x33 0) 0 with moved := 1 }, by decide +kernel⟩

theorem test_meets_ArrayResumableOpsRun_11 : ∃ (n : Node) (g : GangIx) (only : Option TileAt) (s : Block) (m : Mop),
    headOp s n g = some m ∧ (mopFields m.word).opc = 0x54 ∧ mopFl (mopFields m.word) = 0 ∧ m.started = true :=
  ⟨0, 0, none, opReady 0x54 0, readyMop 0x54 0, by decide +kernel⟩

theorem test_meets_ArrayResumableOpsRun_12 : ∃ (n g : Nat) (m x : Mop) (s : Block) (tk : Nat),
    findOp (gang s n g) m.num = some x ∧ tileReady s x.num tk = true :=
  ⟨0, 0, readyMop 0x54 0, readyMop 0x54 0, opReady 0x54 0, 0, by decide +kernel⟩

theorem test_meets_ArrayResumableOpsRun_13 : ∃ (n : Node) (t : TileIx) (s : Block) (gn g : Nat) (m : Mop),
    tileOp s (tkey n t) = some (gn, g, m) ∧ mopUser (mopFields m.word) = true ∧ (tile s (tkey n t)).phase = .run :=
  ⟨0, 0, opReady 0xC0 0, 0, 0, readyMop 0xC0 0, by decide +kernel⟩

theorem test_meets_ArrayResumableOpsRun_14 : ∃ (n : Node) (t : TileIx) (c : BitVec 12) (s : Block) (k : Nat),
    c.toNat = k + 1 :=
  ⟨0, 0, 5, opReady 0xC0 0, 4, by decide +kernel⟩

theorem test_meets_AcuIntegerInstructionsRun_1 : ∀ o ∈ [AOp.add, AOp.addc, AOp.sub, AOp.subc, AOp.neg, AOp.and, AOp.or, AOp.xor],
    AtInstr (instrUp o) 0 0 0 o (instrWord o) (fetched o) := by
  intro o h
  have hc : ([AOp.add, AOp.addc, AOp.sub, AOp.subc, AOp.neg, AOp.and, AOp.or, AOp.xor].all instrCheck) = true := by decide +kernel
  exact atInstr_of_check (List.all_eq_true.mp hc o h)

theorem test_meets_AcuIntegerInstructionsRun_2 : ∀ o ∈ [AOp.andn, AOp.shl, AOp.shr, AOp.sar, AOp.rol, AOp.ror, AOp.mul, AOp.mulu],
    AtInstr (instrUp o) 0 0 0 o (instrWord o) (fetched o) := by
  intro o h
  have hc : ([AOp.andn, AOp.shl, AOp.shr, AOp.sar, AOp.rol, AOp.ror, AOp.mul, AOp.mulu].all instrCheck) = true := by decide +kernel
  exact atInstr_of_check (List.all_eq_true.mp hc o h)

theorem test_meets_AcuIntegerInstructionsRun_3 : ∀ o ∈ [AOp.div, AOp.divu, AOp.dadd, AOp.dsub, AOp.dadj, AOp.addi, AOp.andi, AOp.ori],
    AtInstr (instrUp o) 0 0 0 o (instrWord o) (fetched o) := by
  intro o h
  have hc : ([AOp.div, AOp.divu, AOp.dadd, AOp.dsub, AOp.dadj, AOp.addi, AOp.andi, AOp.ori].all instrCheck) = true := by decide +kernel
  exact atInstr_of_check (List.all_eq_true.mp hc o h)

theorem test_meets_AcuIntegerInstructionsRun_4 : ∀ o ∈ [AOp.xori, AOp.lui, AOp.cmpi, AOp.shli, AOp.shri, AOp.sari, AOp.roli, AOp.rori],
    AtInstr (instrUp o) 0 0 0 o (instrWord o) (fetched o) := by
  intro o h
  have hc : ([AOp.xori, AOp.lui, AOp.cmpi, AOp.shli, AOp.shri, AOp.sari, AOp.roli, AOp.rori].all instrCheck) = true := by decide +kernel
  exact atInstr_of_check (List.all_eq_true.mp hc o h)

theorem test_meets_AcuFloatInstructionsRun_1 : ∀ o ∈ [AOp.fadd, AOp.fsub, AOp.fmul, AOp.fmadd, AOp.fdiv, AOp.fsqrt, AOp.fmin, AOp.fmax],
    AtInstr (instrUp o) 0 0 0 o (instrWord o) (fetched o) := by
  intro o h
  have hc : ([AOp.fadd, AOp.fsub, AOp.fmul, AOp.fmadd, AOp.fdiv, AOp.fsqrt, AOp.fmin, AOp.fmax].all instrCheck) = true := by decide +kernel
  exact atInstr_of_check (List.all_eq_true.mp hc o h)

theorem test_meets_AcuFloatInstructionsRun_2 : ∀ o ∈ [AOp.fneg, AOp.fabs, AOp.fcvtF, AOp.fcvtI, AOp.fcvtU, AOp.fcvtFi, AOp.fcvtFu, AOp.fcmp],
    AtInstr (instrUp o) 0 0 0 o (instrWord o) (fetched o) := by
  intro o h
  have hc : ([AOp.fneg, AOp.fabs, AOp.fcvtF, AOp.fcvtI, AOp.fcvtU, AOp.fcvtFi, AOp.fcvtFu, AOp.fcmp].all instrCheck) = true := by decide +kernel
  exact atInstr_of_check (List.all_eq_true.mp hc o h)

theorem test_meets_AcuControlInstructionsRun_1 : ∀ o ∈ [AOp.bcond, AOp.call, AOp.jrl, AOp.wadv, AOp.wrev, AOp.reti, AOp.trap, AOp.wait],
    AtInstr (instrUp o) 0 0 0 o (instrWord o) (fetched o) := by
  intro o h
  have hc : ([AOp.bcond, AOp.call, AOp.jrl, AOp.wadv, AOp.wrev, AOp.reti, AOp.trap, AOp.wait].all instrCheck) = true := by decide +kernel
  exact atInstr_of_check (List.all_eq_true.mp hc o h)

theorem test_meets_AcuControlInstructionsRun_2 : ∀ o ∈ [AOp.sync, AOp.isync, AOp.fbar, AOp.mfsr, AOp.mtsr, AOp.millIss, AOp.millRes, AOp.millWait],
    AtInstr (instrUp o) 0 0 0 o (instrWord o) (fetched o) := by
  intro o h
  have hc : ([AOp.sync, AOp.isync, AOp.fbar, AOp.mfsr, AOp.mtsr, AOp.millIss, AOp.millRes, AOp.millWait].all instrCheck) = true := by decide +kernel
  exact atInstr_of_check (List.all_eq_true.mp hc o h)

theorem test_meets_AcuControlInstructionsRun_3 : ∀ o ∈ [AOp.millYield, AOp.millResume],
    AtInstr (instrUp o) 0 0 0 o (instrWord o) (fetched o) := by
  intro o h
  have hc : ([AOp.millYield, AOp.millResume].all instrCheck) = true := by decide +kernel
  exact atInstr_of_check (List.all_eq_true.mp hc o h)

theorem test_meets_AcuLoadsAndStoresRun_1 : ∃ (n : Node) (a : AcuIx) (k : TaskIx) (way : BusWay) (s : Block) (w : Word) (b : Block) (t : Block) (v : Nat),
    AtInstr s n a k .ldb w b ∧ loadBytes b n a k (memAddr b n a k w) 1 false (memAddr b n a k w % 1 == 0) way = .ok v t :=
  ⟨0, 0, 0, .served, instrUp .ldb, instrWord .ldb, fetched .ldb, fetched .ldb, 0, atInstr_of_check (by decide +kernel), rfl⟩

theorem test_meets_AcuLoadsAndStoresRun_2 : ∃ (n : Node) (a : AcuIx) (k : TaskIx) (way : BusWay) (s : Block) (w : Word) (b : Block) (t : Block) (v : Nat),
    AtInstr s n a k .ldbu w b ∧ loadBytes b n a k (memAddr b n a k w) 1 false (memAddr b n a k w % 1 == 0) way = .ok v t :=
  ⟨0, 0, 0, .served, instrUp .ldbu, instrWord .ldbu, fetched .ldbu, fetched .ldbu, 0, atInstr_of_check (by decide +kernel), rfl⟩

theorem test_meets_AcuLoadsAndStoresRun_3 : ∃ (n : Node) (a : AcuIx) (k : TaskIx) (way : BusWay) (s : Block) (w : Word) (b : Block) (t : Block) (v : Nat),
    AtInstr s n a k .ldh w b ∧ loadBytes b n a k (memAddr b n a k w) 2 false (memAddr b n a k w % 2 == 0) way = .ok v t :=
  ⟨0, 0, 0, .served, instrUp .ldh, instrWord .ldh, fetched .ldh, fetched .ldh, 0, atInstr_of_check (by decide +kernel), rfl⟩

theorem test_meets_AcuLoadsAndStoresRun_4 : ∃ (n : Node) (a : AcuIx) (k : TaskIx) (way : BusWay) (s : Block) (w : Word) (b : Block) (t : Block) (v : Nat),
    AtInstr s n a k .ldhu w b ∧ loadBytes b n a k (memAddr b n a k w) 2 false (memAddr b n a k w % 2 == 0) way = .ok v t :=
  ⟨0, 0, 0, .served, instrUp .ldhu, instrWord .ldhu, fetched .ldhu, fetched .ldhu, 0, atInstr_of_check (by decide +kernel), rfl⟩

theorem test_meets_AcuLoadsAndStoresRun_5 : ∃ (n : Node) (a : AcuIx) (k : TaskIx) (way : BusWay) (s : Block) (w : Word) (b : Block) (t : Block) (v : Nat),
    AtInstr s n a k .ld w b ∧ loadBytes b n a k (memAddr b n a k w) 4 true (memAddr b n a k w % 4 == 0) way = .ok v t :=
  ⟨0, 0, 0, .served, instrUp .ld, instrWord .ld, fetched .ld, fetched .ld, 0, atInstr_of_check (by decide +kernel), rfl⟩

theorem test_meets_AcuLoadsAndStoresRun_6 : ∃ (n : Node) (a : AcuIx) (k : TaskIx) (way : BusWay) (s : Block) (w : Word) (b : Block) (t : Block) (v : Nat),
    AtInstr s n a k .ldd w b ∧ loadBytes b n a k (memAddr b n a k w) 8 true (memAddr b n a k w % 8 == 0) way = .ok v t :=
  ⟨0, 0, 0, .served, instrUp .ldd, instrWord .ldd, fetched .ldd, fetched .ldd, 0, atInstr_of_check (by decide +kernel), rfl⟩

theorem test_meets_AcuLoadsAndStoresRun_7 : ∃ (n : Node) (a : AcuIx) (k : TaskIx) (way : BusWay) (s : Block) (w : Word) (b : Block),
    AtInstr s n a k .ldb w b :=
  ⟨0, 0, 0, .served, instrUp .ldb, instrWord .ldb, fetched .ldb, atInstr_of_check (by decide +kernel)⟩

theorem test_meets_AcuLoadsAndStoresRun_8 : ∃ (n : Node) (a : AcuIx) (k : TaskIx) (way : BusWay) (s : Block) (w : Word) (b : Block),
    AtInstr s n a k .ldbu w b :=
  ⟨0, 0, 0, .served, instrUp .ldbu, instrWord .ldbu, fetched .ldbu, atInstr_of_check (by decide +kernel)⟩

theorem test_meets_AcuLoadsAndStoresRun_9 : ∃ (n : Node) (a : AcuIx) (k : TaskIx) (way : BusWay) (s : Block) (w : Word) (b : Block),
    AtInstr s n a k .ldh w b :=
  ⟨0, 0, 0, .served, instrUp .ldh, instrWord .ldh, fetched .ldh, atInstr_of_check (by decide +kernel)⟩

theorem test_meets_AcuLoadsAndStoresRun_10 : ∃ (n : Node) (a : AcuIx) (k : TaskIx) (way : BusWay) (s : Block) (w : Word) (b : Block),
    AtInstr s n a k .ldhu w b :=
  ⟨0, 0, 0, .served, instrUp .ldhu, instrWord .ldhu, fetched .ldhu, atInstr_of_check (by decide +kernel)⟩

theorem test_meets_AcuLoadsAndStoresRun_11 : ∃ (n : Node) (a : AcuIx) (k : TaskIx) (way : BusWay) (s : Block) (w : Word) (b : Block),
    AtInstr s n a k .ld w b :=
  ⟨0, 0, 0, .served, instrUp .ld, instrWord .ld, fetched .ld, atInstr_of_check (by decide +kernel)⟩

theorem test_meets_AcuLoadsAndStoresRun_12 : ∃ (n : Node) (a : AcuIx) (k : TaskIx) (way : BusWay) (s : Block) (w : Word) (b : Block),
    AtInstr s n a k .ldd w b :=
  ⟨0, 0, 0, .served, instrUp .ldd, instrWord .ldd, fetched .ldd, atInstr_of_check (by decide +kernel)⟩

theorem test_meets_AcuLoadsAndStoresRun_13 : ∃ (b : Block) (n a k addr len : Nat) (plain aligned : Bool) (way : BusWay),
    accChecks b n a plain aligned ((accParts addr len).map (·.1)) = .ok :=
  ⟨Block.reset, 0, 0, 0, 64, 4, true, true, .served, rfl⟩

theorem test_meets_AcuLoadsAndStoresRun_14 : ∃ (n : Node) (a : AcuIx) (k : TaskIx) (way : BusWay) (s : Block) (w : Word) (b : Block),
    AtInstr s n a k .lwg w b ∧ memAddr b n a k w % 8 = 0 ∧ accChecks b n a false true ((groupParts (memAddr b n a k w)).map (·.1)) = .ok :=
  ⟨0, 0, 0, .served, instrUp .lwg, instrWord .lwg, fetched .lwg, atInstr_of_check (by decide +kernel), by decide +kernel, rfl⟩

theorem test_meets_AcuLoadsAndStoresRun_16 : ∃ (n : Node) (a : AcuIx) (k : TaskIx) (s : Block) (w : Word) (b : Block),
    AtInstr s n a k .stb w b ∧ accChecks b n a false (memAddr b n a k w % 1 == 0) ((accParts (memAddr b n a k w) 1).map (·.1)) = .ok :=
  ⟨0, 0, 0, instrUp .stb, instrWord .stb, fetched .stb, atInstr_of_check (by decide +kernel), rfl⟩

theorem test_meets_AcuLoadsAndStoresRun_17 : ∃ (n : Node) (a : AcuIx) (k : TaskIx) (s : Block) (w : Word) (b : Block),
    AtInstr s n a k .stb w b :=
  ⟨0, 0, 0, instrUp .stb, instrWord .stb, fetched .stb, atInstr_of_check (by decide +kernel)⟩

theorem test_meets_AcuLoadsAndStoresRun_18 : ∃ (n : Node) (a : AcuIx) (k : TaskIx) (s : Block) (w : Word) (b : Block),
    AtInstr s n a k .sth w b ∧ accChecks b n a false (memAddr b n a k w % 2 == 0) ((accParts (memAddr b n a k w) 2).map (·.1)) = .ok :=
  ⟨0, 0, 0, instrUp .sth, instrWord .sth, fetched .sth, atInstr_of_check (by decide +kernel), rfl⟩

theorem test_meets_AcuLoadsAndStoresRun_19 : ∃ (n : Node) (a : AcuIx) (k : TaskIx) (s : Block) (w : Word) (b : Block),
    AtInstr s n a k .sth w b :=
  ⟨0, 0, 0, instrUp .sth, instrWord .sth, fetched .sth, atInstr_of_check (by decide +kernel)⟩

theorem test_meets_AcuLoadsAndStoresRun_20 : ∃ (n : Node) (a : AcuIx) (k : TaskIx) (s : Block) (w : Word) (b : Block),
    AtInstr s n a k .st w b ∧ accChecks b n a true (memAddr b n a k w % 4 == 0) ((accParts (memAddr b n a k w) 4).map (·.1)) = .ok :=
  ⟨0, 0, 0, instrUp .st, instrWord .st, fetched .st, atInstr_of_check (by decide +kernel), rfl⟩

theorem test_meets_AcuLoadsAndStoresRun_21 : ∃ (n : Node) (a : AcuIx) (k : TaskIx) (s : Block) (w : Word) (b : Block),
    AtInstr s n a k .st w b :=
  ⟨0, 0, 0, instrUp .st, instrWord .st, fetched .st, atInstr_of_check (by decide +kernel)⟩

theorem test_meets_AcuLoadsAndStoresRun_22 : ∃ (n : Node) (a : AcuIx) (k : TaskIx) (s : Block) (w : Word) (b : Block),
    AtInstr s n a k .std w b ∧ accChecks b n a true (memAddr b n a k w % 8 == 0) ((accParts (memAddr b n a k w) 8).map (·.1)) = .ok :=
  ⟨0, 0, 0, instrUp .std, instrWord .std, fetched .std, atInstr_of_check (by decide +kernel), rfl⟩

theorem test_meets_AcuLoadsAndStoresRun_23 : ∃ (n : Node) (a : AcuIx) (k : TaskIx) (s : Block) (w : Word) (b : Block),
    AtInstr s n a k .std w b :=
  ⟨0, 0, 0, instrUp .std, instrWord .std, fetched .std, atInstr_of_check (by decide +kernel)⟩

theorem test_meets_AcuLoadsAndStoresRun_25 : ∃ (n : Node) (a : AcuIx) (k : TaskIx) (s : Block) (w : Word) (b : Block),
    AtInstr s n a k .swg w b :=
  ⟨0, 0, 0, instrUp .swg, instrWord .swg, fetched .swg, atInstr_of_check (by decide +kernel)⟩

theorem test_meets_AcuTasksTrapsAndUnits_1 : ∃ (n : Node) (a : AcuIx) (s : Block) (d : DivSt),
    (acu s n a).divider = some d :=
  ⟨0, 0, putAcu Block.reset 0 0 { divider := some ⟨0, 5, 6, false, false⟩ }, ⟨0, 5, 6, false, false⟩, by decide +kernel⟩

theorem test_meets_AcuTasksTrapsAndUnits_2 : ∃ (n : Node) (a : AcuIx) (k : TaskIx) (i : Nat) (s : Block) (op : FpOp),
    (task s (taskKey n a k)).fps[i]? = some op :=
  ⟨0, 0, 0, 0, putTask Block.reset 0 { fps := [⟨64, 1, [], false⟩] }, ⟨64, 1, [], false⟩, by decide +kernel⟩

theorem test_meets_AcuTasksTrapsAndUnits_3 : ∃ (n : Node) (a : AcuIx) (k : TaskIx) (s : Block),
    taskState s n a k = 2 ∧ taskRun s n a k = runWait :=
  ⟨0, 0, 0, setRun (instrUp .add) 0 0 0 runWait wDiv, by decide +kernel⟩

theorem test_meets_AcuTasksTrapsAndUnits_4 : ∃ (n : Node) (a : AcuIx) (k : TaskIx) (s : Block) (c : Nat),
    inRun s n = true ∧ taskState s n a k = 2 ∧ (taskRun s n a k = runReady ∨ taskRun s n a k = runWait) ∧ takeable s n a k = some c :=
  ⟨0, 0, 0, causeUp, 7, by decide +kernel⟩

theorem test_meets_AcuTasksTrapsAndUnits_6 : ∃ (o : AOp) (n : Node) (a : AcuIx) (k : TaskIx) (way : BusWay) (s : Block) (w : Word) (b : Block),
    acuOpen s n a k = true ∧ takeable s n a k = none ∧ fetchedAs (noteSelected s n a k) n a k = some (w, b) ∧ acuDecode w = none :=
  ⟨.add, 0, 0, 0, .served, illegalUp, 0xFFFFFFFF, noteSelected illegalUp 0 0 0, by decide +kernel⟩

theorem test_meets_AcuTasksTrapsAndUnits_7 : ∃ (o : AOp) (n : Node) (a : AcuIx) (k : TaskIx) (way : BusWay) (s : Block),
    acuOpen s n a k = true ∧ takeable s n a k = none ∧ fetchFar (noteSelected s n a k) n a (taskPc (noteSelected s n a k) n a k) = true ∧ (task (noteSelected s n a k) (taskKey n a k)).served = false :=
  ⟨.add, 0, 0, 0, .served, taskUp, by decide +kernel⟩

theorem test_meets_AcuTasksTrapsAndUnits_8 : ∃ (o : AOp) (n : Node) (a : AcuIx) (k : TaskIx) (way : BusWay) (s : Block) (c : Nat),
    acuOpen s n a k = true ∧ takeable s n a k = some c :=
  ⟨.add, 0, 0, 0, .served, causeUp, 7, by decide +kernel⟩

theorem test_meets_AcuTasksTrapsAndUnits_9 : ∃ (n : Node) (a : AcuIx) (way : BusWay) (s : Block) (e : SbEntry) (rest : List SbEntry),
    (acu s n a).sb = e :: rest ∧ e.tied = false :=
  ⟨0, 0, .served, putAcu Block.reset 0 0 { sb := [⟨0, 64, 1, 5, false⟩] }, ⟨0, 64, 1, 5, false⟩, [], by decide +kernel⟩

theorem test_meets_AcuTasksTrapsAndUnits_10 : ∃ (n : Node) (a : AcuIx) (way : BusWay) (s : Block) (e f : SbEntry) (rest : List SbEntry),
    (acu s n a).sb = e :: f :: rest ∧ e.tied = true ∧ f.tied = false :=
  ⟨0, 0, .served, putAcu Block.reset 0 0 { sb := [⟨0, 64, 1, 5, true⟩, ⟨0, 72, 1, 5, false⟩] }, ⟨0, 64, 1, 5, true⟩, ⟨0, 72, 1, 5, false⟩, [], by decide +kernel⟩

theorem test_meets_AcuTasksTrapsAndUnits_12 : ∃ (n a addr : Nat) (r : Fin 48) (ones : List (BitVec 8)) (act : Block → MemAns) (s : Block),
    leavesAcu s n a addr = true :=
  ⟨0, 0, 0x40000000, 3, [], (fun s => ⟨0, [], s⟩), Block.reset, by decide +kernel⟩

theorem test_meets_AcuTasksTrapsAndUnits_13 : ∃ (n : Node) (a : AcuIx) (fails : Bool) (s : Block),
    inRun s n = true ∧ fget s n F.ACU_RAM_TEST_STATE a = 2 :=
  ⟨0, 0, false, stOf [(F.ACU_RAM_TEST_STATE, 0, 2)], by decide +kernel⟩

theorem test_meets_AcuTasksTrapsAndUnits_14 : ∃ (n : Node) (a : AcuIx) (k : TaskIx) (s : Block),
    takenNow s n 0x6 = true ∧ taskState s n a k = 0 :=
  ⟨0, 0, 0, Block.reset, by decide +kernel⟩

theorem test_meets_AcuTasksTrapsAndUnits_15 : ∃ (n : Node) (a : AcuIx) (k : TaskIx) (s : Block),
    takenNow s n 0x6 = true ∧ taskState s n a k = 2 :=
  ⟨0, 0, 0, instrUp .add, by decide +kernel⟩

theorem test_meets_AcuTasksTrapsAndUnits_16 : ∃ (n : Node) (a : AcuIx) (k : TaskIx) (s : Block),
    taskState s n a k = 1 ∧ taskDrained s n a k = true :=
  ⟨0, 0, 0, stOf [(F.ACU_TASK_CTRL_STATE, 0, 1)], by decide +kernel⟩

theorem test_meets_AcuTasksTrapsAndUnits_17 : ∃ (n : Node) (a : AcuIx) (h : Half) (w : Word) (s : Block),
    takenNow s n 0x6 = true :=
  ⟨0, 0, 1, 1, Block.reset, by decide +kernel⟩

theorem test_meets_AcuWordsRoundTrip : acuDecode 0x04611000 = some .add ∧ acuDecode 0x0A30FFFF = some .addi ∧
    acuDecode 0x84000001 = some .call := by decide +kernel

theorem test_meets_MacroOpWordsRoundTrip : let f := mopFields (BitVec.allOnes 128)
    f.opc < 2 ^ 8 ∧ f.msel < 2 ^ 3 ∧ f.rnd < 2 ^ 3 ∧ f.fupd < 2 ^ 2 ∧ f.fmt < 2 ^ 16 ∧ f.base0 < 2 ^ 11 ∧ f.wid0 < 2 ^ 6 ∧
      f.base1 < 2 ^ 11 ∧ f.wid1 < 2 ^ 6 ∧ f.base2 < 2 ^ 11 ∧ f.wid2 < 2 ^ 6 ∧ f.maddr < 2 ^ 11 ∧ f.rsvd < 2 ^ 2 ∧
      f.prm < 2 ^ 16 ∧ f.cnt < 2 ^ 16 := by decide +kernel

theorem test_meets_RowsHoldTheirElements : (List.replicate 64 5).length = 64 ∧ 63 < 64 := by decide

theorem test_meets_IntegerResultsWrapAndFlag : (intRange true 8).1 ≤ -128 ∧ -128 ≤ (intRange true 8).2 := by decide

theorem test_meets_FloatSpecialValues : (fval binary32 false 0x7F800001).isNan = true ∧
    fval binary32 false 0x7F800000 = .inf false ∧ fval binary32 false 0xFF800000 = .inf true ∧
    fval binary32 false 0x80000000 = .fin true 0 (-149) ∧ fval binary32 false 0xBF800000 = .fin true (2 ^ 23) (-23) := by
  decide +kernel

theorem test_meets_QueueStaysWellFormed : (∀ c ∈ [Instr.perstNAssert 0, Instr.bar2Access ⟨⟨false, 0, [none]⟩, .served⟩], c.wf = true) ∧
    ∃ s', step { toBlock := Block.reset, pending := [Instr.perstNAssert 0, Instr.bar2Access ⟨⟨false, 0, [none]⟩, .served⟩] } = .next s' :=
  ⟨by decide, _, rfl⟩

theorem test_meets_ResetHoldsTheSpecsValues : ix 7 < 2 ^ 25 ∧ ix 31 16383 < 2 ^ 25 ∧ peM < 5 := by decide

theorem test_meets_MemoriesKeepFormAndReadBack : inRun Block.reset 5 = true ∧ Memory.wf Block.reset = true ∧
    mwf regDefault Block.reset.regs = true ∧ mwf (fun _ => 0) Block.reset.sels = true ∧ (recBytes - 8) % 8 = 0 ∧
    recBytes - 8 + 8 ≤ recBytes ∧ isolatedEp Block.reset 5 (0x28 + recStackOf (recBytes - 8)) = false ∧
    netEnd Block.reset 5 3 (0x28 + recStackOf (recBytes - 8)) (recLocal (recBytes - 8)) = none ∧
    domAccess Block.reset 5 4 = some Block.reset ∧
    ∃ s', step { toBlock := Block.reset, pending := [Instr.perstNAssert 0] } = .next s' := by
  refine ⟨by decide +kernel, rfl, rfl, rfl, by decide, by decide, by decide +kernel, ?_, ?_, _, rfl⟩
  · decide +kernel
  · unfold domAccess
    rw [if_pos (by decide +kernel)]

theorem test_meets_UnusedOffsetsReadZero : pathCode Block.reset (.queue 0) (accessNode Block.reset (.queue 0) 0xFFFF0) 0xFFFF0 = rspOk ∧
    ownSelect 0xFFFF0 = none ∧ msixAt 0xFFFF0 = none ∧ windowOf 0xFFFF0 = none ∧ aliasAt 0xFFFF0 = none ∧
    regAt 0xFFFF0 = none := by decide +kernel
theorem test_meets_UnusedOffsetsReadZero_2 : regAt 0x01A00000 = none ∧ regAt (2 ^ 25 - 4) = none := by decide +kernel

theorem test_meets_ReadsChangeOnlyTheLatchAndChallenge : windowOf 0x10 = none ∧ (∀ i, regAt 0x10 ≠ some (.TIM_NOW_LO, i)) ∧
    regAt 0x10 ≠ some (.SEC_CHALLENGE, 0) ∧
    (∀ i, regAt 0x10 ≠ some (.DBG_ACU_REG, i) ∧ regAt 0x10 ≠ some (.DBG_ACU_DATA, i)) ∧ dbgLocked Block.reset 0 = true ∧ mrising none Block.reset.timLatch = true := by
  have h : regAt 0x10 = some (.GLB_PARAM3, 0) := by decide +kernel
  rw [h]
  exact ⟨by decide, fun i => by simp, by simp, fun i => by simp, by decide +kernel, rfl⟩
/-! ### Each check of WellFormed refuses a term -/

theorem test_wf_bar_write_32 : (Instr.registerWrite (.queue 0) ⟨⟨2, 0, false, 0xF⟩, .served⟩).wf = false := by decide
theorem test_wf_bar_write_64 : (Instr.registerWrite (.queue 0) ⟨⟨4, 0, true, 0xFF⟩, .served⟩).wf = false := by decide
theorem test_wf_bar_write_ok : (Instr.registerWrite (.queue 0) ⟨⟨8, 0, true, 0xFF⟩, .served⟩).wf = true := by decide
theorem test_wf_shadow_write : (Instr.rwlShadowWrite (.queue 0) ⟨⟨1, 0, false, 0xF⟩, .served⟩).wf = false := by decide
theorem test_wf_clear_write : (Instr.counterClearWrite (.queue 0) ⟨⟨4, 0, true, 0xFF⟩, .served⟩).wf = false := by decide
theorem test_wf_bar2_beyond : (Instr.bar2Access ⟨⟨false, 2 ^ 28, [none]⟩, .served⟩).wf = false := by decide
theorem test_wf_bar2_empty : (Instr.bar2Access ⟨⟨false, 0, []⟩, .served⟩).wf = false := by decide
theorem test_wf_staging_crosses : (Instr.stagingAccess 0 0 0 ⟨⟨false, 63, [none, none]⟩, .served⟩).wf = false := by decide
theorem test_wf_record_crosses : (Instr.recordStoreAccess 0 0 ⟨⟨false, 63, [none, none]⟩, .served⟩).wf = false := by decide
theorem test_wf_record_ok : (Instr.recordStoreAccess 0 0 ⟨⟨false, 62, [none, none]⟩, .served⟩).wf = true := by decide
theorem test_wf_master_empty : (Instr.fabricMasterRequest 0 0 ⟨0, ⟨⟨true, 0, []⟩, .served⟩⟩ none).wf = false := by decide
theorem test_wf_master_answer : (Instr.fabricMasterRequest 0 0 ⟨0, ⟨⟨false, 0, [none]⟩, .served⟩⟩ (some [])).wf = false := by decide
theorem test_wf_window_data : (Instr.geckoWindowAccess 0 0 0 ⟨⟨false, 0, [none]⟩, .served⟩ []).wf = false := by decide
theorem test_wf_call_short : (Instr.chorusCall 0 24 [1]).wf = false := by decide
theorem test_wf_capture_long : (Instr.captureEdge 0 0 (List.replicate 16385 {})).wf = false := by decide +kernel
theorem test_wf_read_code : (Instr.read 0 (.queue 0) (0x01 + 2 ^ 60) {}).wf = false := by decide +kernel
theorem test_wf_read_reserved_bit : (Instr.read 0 (.queue 0) (0x01 + 2 ^ 63) {}).wf = false := by decide +kernel
theorem test_wf_read_ok : (Instr.read 0 (.queue 0) 0x01 {}).wf = true := by decide +kernel
theorem test_wf_write_code : (Instr.write 0 (.queue 0) (0x02 + 2 ^ 60) [] {}).wf = false := by decide +kernel
theorem test_wf_write_long : (Instr.write 0 (.queue 0) 0x02 (List.replicate 65 0) {}).wf = false := by decide +kernel
theorem test_wf_msg_code : (Instr.msg 0 (0x03 + 2 ^ 61) ⟨0, .served⟩).wf = false := by decide +kernel

/-! ### Figures of the spec's worked examples -/

/-- 00 "Worked example": GLB_PARAM0 and GLB_PARAM1 as the driver reads them. -/
theorem test_glb_param :
    (barRead Block.reset (.queue 0) 0x4).2.1 = 0x10402020 ∧ (barRead Block.reset (.queue 0) 0x8).2.1 = 0x0840780B := by
  decide +kernel

/-- 13 R300: the alias of MILL_EDGE, 0x0030_0040, is 0x003C_0040, and that of WEIR_PERIOD, 0x0020_0004, is 0x002C_0004. -/
theorem test_aliases : aliasAt 0x003C0040 = some (.MILL_EDGE, 0) ∧ aliasAt 0x002C0004 = some (.WEIR_PERIOD, 0) ∧
    regAt 0x00300040 = some (.MILL_EDGE, 0) ∧ regAt 0x00200004 = some (.WEIR_PERIOD, 0) := by decide +kernel

/-- 02 R33: d0 stands at position 3, so that it enters c0, c1 and c7; c7 takes in c0 and c1 as well. -/
theorem test_check_bits_of_d0 : freshWord code64 1 = 1 + 2 ^ 64 + 2 ^ 65 + 2 ^ 71 := by decide +kernel

/-- 04 "Worked example": the four words of an A.MAC. -/
theorem test_mac_word : mopFields 0x000000000001E320F0C9399000014015 =
    { opc := 0x15, msel := 0, rnd := 0, fupd := 1, fmt := 1, base0 := 400, wid0 := 39, base1 := 100, wid1 := 15,
      base2 := 200, wid2 := 15, maddr := 0, rsvd := 0, prm := 0, cnt := 0 } := by decide +kernel

/-- 09 "Worked example": ADD W5, W4, W3 with SF = 1 is 0x06B4_9C00. -/
theorem test_acu_add_word : acuDecode 0x06B49C00 = some .add ∧ aRd 0x06B49C00 = 0x15 ∧ aRa 0x06B49C00 = 0x14 ∧
    aRb 0x06B49C00 = 0x13 ∧ aSf 0x06B49C00 = true := by decide +kernel

/-- 09 "Worked example": DADJ W2, W2, W3 with CI = 0 is 0x0652_9816. -/
theorem test_acu_dadj_word : acuDecode 0x06529816 = some .dadj ∧ aRd 0x06529816 = 0x12 ∧ aRa 0x06529816 = 0x12 ∧
    aRb 0x06529816 = 0x13 ∧ aCi 0x06529816 = false := by decide +kernel

/-- 09 "Worked example": the sum of the time of day, no carry. -/
theorem test_dadd_time_of_day : (daddRes 0x23595987 0x25 0).v = 0x23596012 ∧ (daddRes 0x23595987 0x25 0).cf = some false := by
  decide +kernel

/-- 09 "Worked example": its fields adjusted; the day has rolled over. -/
theorem test_dadj_time_of_day : (dadjRes 0x23596012 0x24606000 0).v = 0x00000012 ∧ (dadjRes 0x23596012 0x24606000 0).cf = some true := by
  decide +kernel

/-- 11 "Worked example": K = 3 at 89 bits beside the 5 of K itself, 100 for K = 2 and 92 for K = 4. -/
theorem test_rice_partition :
    let us := residuals 1 [] [100, 103, 101, 98, 98, 98, 98, 98, 98, 98, 98, 98, 98, 98, 98, 98]
    us.take 4 = [200, 6, 3, 5] ∧ riceK us = 3 ∧ riceCost 3 us = 89 ∧ riceCost 2 us = 100 ∧ riceCost 4 us = 92 := by
  decide +kernel

/-- A step takes the command at the front: a write of WEIR_PERIOD goes to its shadow, and the next command stays. -/
theorem test_step_front : ∃ b, step { toBlock := Block.reset, pending := [.rwlShadowWrite (.queue 0) ⟨⟨0x00200004, 200000, false, 0xF⟩, .served⟩,
    .perstNAssert 0] } = .next { toBlock := b, pending := [.perstNAssert 0] } ∧
    b.shadow = [(rkey 0 .WEIR_PERIOD 0, (0x00FFFFFF, 200000))] := ⟨_, rfl, by decide +kernel⟩
end

section
/-! What a write leaves in each field of a register, by the field's type (00 R5-R7). -/

namespace Sys2Proof.Machine

/-! ### Fields of a word, bit by bit -/

/-- A bit of a word whose field `[hi:lo]` is set is the value's inside the field and the word's own outside it. -/
theorem getLsbD_wset (w : Word) (hi lo v j : Nat) :
    (wset w hi lo v).getLsbD j = if lo ≤ j ∧ j ≤ hi then decide (j < 32) && v.testBit (j - lo) else w.getLsbD j := by
  unfold wset
  have e : (2 ^ (hi + 1 - lo) - 1).testBit (j - lo) = decide (j - lo < hi + 1 - lo) := Nat.testBit_two_pow_sub_one ..
  simp only [BitVec.getLsbD_or, BitVec.getLsbD_and, BitVec.getLsbD_not, BitVec.getLsbD_ofNat, Nat.testBit_mul_two_pow, e]
  by_cases h32 : j < 32
  · by_cases hlo : lo ≤ j
    · by_cases hhi : j ≤ hi
      · have : j - lo < hi + 1 - lo := by omega
        simp [h32, hlo, hhi, this]
      · have : ¬ j - lo < hi + 1 - lo := by omega
        simp [h32, hlo, hhi, this]
    · simp [h32, hlo]
  · simp [h32, BitVec.getLsbD_of_ge w j (by omega)]

theorem testBit_wbits (w : Word) (hi lo i : Nat) :
    (wbits w hi lo).testBit i = (decide (i < hi + 1 - lo) && w.getLsbD (lo + i)) := by
  unfold wbits
  rw [BitVec.testBit_toNat, BitVec.getLsbD_extractLsb']

/-- Fields of two words are equal when their bits are. -/
theorem wbits_congr {u w : Word} {hi lo : Nat} (h : ∀ j, lo ≤ j → j ≤ hi → u.getLsbD j = w.getLsbD j) :
    wbits u hi lo = wbits w hi lo := by
  apply Nat.eq_of_testBit_eq
  intro i
  rw [testBit_wbits, testBit_wbits]
  by_cases hi' : i < hi + 1 - lo
  · rw [h (lo + i) (by omega) (by omega)]
  · simp [hi']

/-- The bits of a word in the field `[hi:lo]`, in their places. -/
theorem getLsbD_wbits_shifted (w : Word) (hi lo j : Nat) :
    (BitVec.ofNat 32 (wbits w hi lo * 2 ^ lo)).getLsbD j = (decide (lo ≤ j ∧ j ≤ hi) && w.getLsbD j) := by
  rw [BitVec.getLsbD_ofNat, Nat.testBit_mul_two_pow, testBit_wbits]
  by_cases hlo : lo ≤ j
  · have e : lo + (j - lo) = j := by omega
    by_cases h32 : j < 32
    · have : j - lo < hi + 1 - lo ↔ j ≤ hi := by omega
      simp [hlo, h32, e, this]
    · simp [h32, BitVec.getLsbD_of_ge w j (by omega)]
  · simp [hlo]

/-! ### One field of a write (00 R5, R7) -/

/-- What a write of `w` leaves in field `f` of a word that held `old`, by the field's type. -/
def fieldAfter (f : FieldSpec) (old w : Word) : Nat :=
  match f.ty with
  | .rw => if legalOk f.legal (wbits w f.hi f.lo) then wbits w f.hi f.lo else wbits old f.hi f.lo
  | .rwl => if legalOk f.legal (wbits w f.hi f.lo) then wbits w f.hi f.lo else wbits old f.hi f.lo
  | .w1c => wbits (old &&& ~~~w) f.hi f.lo
  | .w1s => wbits (old ||| w) f.hi f.lo
  | .ro => wbits old f.hi f.lo
  | .live => wbits old f.hi f.lo
  | .wo => wbits old f.hi f.lo

/-- A write of `w` gives field `f` a reserved value. -/
def writesReserved (f : FieldSpec) (w : Word) : Prop :=
  (f.ty = .rw ∨ f.ty = .rwl ∨ f.ty = .wo) ∧ legalOk f.legal (wbits w f.hi f.lo) = false

/-- Only the field's bits of the old word matter. -/
theorem fieldAfter_congr {f : FieldSpec} {u old : Word} (w : Word)
    (h : ∀ j, f.lo ≤ j → j ≤ f.hi → u.getLsbD j = old.getLsbD j) : fieldAfter f u w = fieldAfter f old w := by
  have e : wbits u f.hi f.lo = wbits old f.hi f.lo := wbits_congr h
  have ec : wbits (u &&& ~~~w) f.hi f.lo = wbits (old &&& ~~~w) f.hi f.lo :=
    wbits_congr fun j hl hh => by simp [h j hl hh]
  have es : wbits (u ||| w) f.hi f.lo = wbits (old ||| w) f.hi f.lo :=
    wbits_congr fun j hl hh => by simp [h j hl hh]
  unfold fieldAfter
  rw [e, ec, es]

/-- A write of one field leaves the bits outside it. -/
theorem writeField_keeps_outside (w : Word) (a : Word × Bool) {f : FieldSpec} {j : Nat} (h : j < f.lo ∨ f.hi < j) :
    (writeField w a f).1.getLsbD j = a.1.getLsbD j := by
  have hn : ¬ (f.lo ≤ j ∧ j ≤ f.hi) := by omega
  have hset : (wset a.1 f.hi f.lo (wbits w f.hi f.lo)).getLsbD j = a.1.getLsbD j := by rw [getLsbD_wset, if_neg hn]
  unfold writeField
  cases f.ty
  case rw | rwl => dsimp only; split <;> simp only [hset]
  case w1c | w1s =>
    simp only [BitVec.getLsbD_and, BitVec.getLsbD_or, BitVec.getLsbD_not, getLsbD_wbits_shifted, decide_eq_false hn]
    by_cases h32 : j < 32
    · simp [h32]
    · simp [BitVec.getLsbD_of_ge a.1 j (by omega)]
  all_goals rfl

/-- A write of one field leaves in it what its type says. -/
theorem wbits_writeField (w : Word) (a : Word × Bool) {f : FieldSpec} (hf : f.hi < 32) :
    wbits (writeField w a f).1 f.hi f.lo = fieldAfter f a.1 w := by
  have hset : wbits (wset a.1 f.hi f.lo (wbits w f.hi f.lo)) f.hi f.lo = wbits w f.hi f.lo :=
    wbits_congr fun j hl hh => by
      have e : f.lo + (j - f.lo) = j := by omega
      have hj : j < 32 := by omega
      have hw : j - f.lo < f.hi + 1 - f.lo := by omega
      rw [getLsbD_wset, if_pos ⟨hl, hh⟩, testBit_wbits, e]
      simp [hj, hw]
  unfold writeField fieldAfter
  cases f.ty
  case rw | rwl => dsimp only; split <;> simp only [hset]
  case w1c | w1s =>
    refine wbits_congr fun j hl hh => ?_
    simp only [BitVec.getLsbD_and, BitVec.getLsbD_or, BitVec.getLsbD_not, getLsbD_wbits_shifted, hl, hh]
    simp
  all_goals rfl

/-- A write of one field marks the write exactly when it gives a reserved value. -/
theorem writeField_marks_iff (w : Word) (a : Word × Bool) (f : FieldSpec) :
    (writeField w a f).2 = true ↔ a.2 = true ∨ writesReserved f w := by
  unfold writeField writesReserved
  cases f.ty
  case rw | rwl => dsimp only; split <;> simp_all
  all_goals simp

/-! ### All the fields of a write -/

/-- Two fields share no bit. -/
def FieldSpec.apart (f g : FieldSpec) : Prop := f.hi < g.lo ∨ g.hi < f.lo

theorem FieldSpec.outside_of_apart {f g : FieldSpec} (h : f.apart g) {j : Nat} (hl : f.lo ≤ j) (hh : j ≤ f.hi) :
    j < g.lo ∨ g.hi < j := by
  unfold FieldSpec.apart at h
  omega

theorem foldl_writeField_keeps_outside (w : Word) {j : Nat} (fs : List FieldSpec) (a : Word × Bool)
    (h : ∀ f ∈ fs, j < f.lo ∨ f.hi < j) : (fs.foldl (writeField w) a).1.getLsbD j = a.1.getLsbD j := by
  induction fs generalizing a with
  | nil => rfl
  | cons f fs ih =>
    rw [List.forall_mem_cons] at h
    rw [List.foldl_cons, ih _ h.2, writeField_keeps_outside w a h.1]

/-- Fields that share no bit are written each by its own type. -/
theorem wbits_foldl_writeField (w : Word) (fs : List FieldSpec) (a : Word × Bool) (hp : fs.Pairwise FieldSpec.apart)
    (hw : ∀ f ∈ fs, f.hi < 32) : ∀ f ∈ fs, wbits (fs.foldl (writeField w) a).1 f.hi f.lo = fieldAfter f a.1 w := by
  induction fs generalizing a with
  | nil => intro f hf; cases hf
  | cons g fs ih =>
    obtain ⟨hg, hp⟩ := List.pairwise_cons.mp hp
    rw [List.forall_mem_cons] at hw ⊢
    rw [List.foldl_cons]
    constructor
    · calc wbits (fs.foldl (writeField w) (writeField w a g)).1 g.hi g.lo
          = wbits (writeField w a g).1 g.hi g.lo := wbits_congr fun j hl hh =>
            foldl_writeField_keeps_outside w fs _ fun f hf => FieldSpec.outside_of_apart (hg f hf) hl hh
        _ = fieldAfter g a.1 w := wbits_writeField w a hw.1
    · intro f hf
      rw [ih _ hp hw.2 f hf]
      exact fieldAfter_congr w fun j hl hh =>
        writeField_keeps_outside w a (FieldSpec.outside_of_apart (Or.symm (hg f hf)) hl hh)

theorem foldl_writeField_marks_iff (w : Word) (fs : List FieldSpec) (a : Word × Bool) :
    (fs.foldl (writeField w) a).2 = true ↔ a.2 = true ∨ ∃ f ∈ fs, writesReserved f w := by
  induction fs generalizing a with
  | nil => simp
  | cons f fs ih =>
    rw [List.foldl_cons, ih, writeField_marks_iff, or_assoc]
    simp only [List.mem_cons, or_and_right, exists_or, exists_eq_left]

/-! ### The register tables -/

/-- Every field of a register lies within its word. -/
theorem regSpec_fields_fit (r : Reg) : ∀ f ∈ (regSpec r).fields, f.hi < 32 := by
  cases r <;> decide

/-- No two fields of a register share a bit. -/
theorem regSpec_fields_apart (r : Reg) : (regSpec r).fields.Pairwise FieldSpec.apart := by
  unfold FieldSpec.apart
  cases r <;> decide

theorem fieldsBut_nil (r : Reg) : fieldsBut r [] = (regSpec r).fields := by simp [fieldsBut]

/-- Once a write-only field has been cleared, or already reads 0, it goes on reading 0. -/
theorem foldl_readable_zero (fs : List FieldSpec) (w : Word) (f : FieldSpec) (hw : f.hi < 32) (hty : f.ty = .wo)
    (h : f ∈ fs ∨ wbits w f.hi f.lo = 0) :
    wbits (fs.foldl (fun w f => if f.ty == .wo then wset w f.hi f.lo 0 else w) w) f.hi f.lo = 0 := by
  induction fs generalizing w with
  | nil => exact h.resolve_left (List.not_mem_nil)
  | cons g fs ih =>
    rw [List.foldl_cons]
    apply ih
    rcases h with h | h
    · rcases List.mem_cons.mp h with rfl | h
      · exact .inr (by rw [hty]; exact wset_zero_self w _ _ hw)
      · exact .inl h
    · right
      split
      · exact wset_zero_keeps w _ _ _ _ h
      · exact h

/-- A write-only field reads as zero (00 R5). -/
theorem readable_writeOnly (r : Reg) (w : Word) (f : FieldSpec) (hf : f ∈ (regSpec r).fields) (hty : f.ty = .wo) :
    wbits (readable r w) f.hi f.lo = 0 :=
  foldl_readable_zero _ w f (regSpec_fields_fit r f hf) hty (.inl hf)

/-- Settles O28: the fields of a register share no bit, so that the fold of `writeField` treats each by its own type. -/
theorem fieldsChangeByType : Obligations.FieldsChangeByType := by
  unfold Obligations.FieldsChangeByType
  intro r old w
  dsimp only
  rw [fieldsBut_nil]
  refine ⟨fun f hf => ⟨?_, readable_writeOnly r old f hf⟩, fun j hj => foldl_writeField_keeps_outside w _ _ hj, ?_⟩
  · exact wbits_foldl_writeField w _ (old, false) (regSpec_fields_apart r) (regSpec_fields_fit r) f hf
  · rw [foldl_writeField_marks_iff]
    simp [writesReserved]

end Sys2Proof.Machine
end

section
/-! What the registers, the planes and the PE registers hold at reset (17 R383-R391, 02 R31). -/

namespace Sys2Proof.Machine

/-! ### Registers at reset (17 R383-R391) -/

/-- Registers whose reset word depends on their place, or on the module, and not on their fields alone. -/
def resetByPlace : List Reg :=
  [.FLT_SRC_CFG, .FLT_SRC_LEAK, .FLT_SRC_ESC, .FLT_REACT, .CMD_IRQ_MAP, .CMD_FW_VERSION, .NOC_DOMAIN]

/-- Any other register holds its fields' reset values. -/
theorem resetWord_of_fields {r : Reg} (h : r ∉ resetByPlace) (inst : Nat) :
    resetWord r inst = BitVec.ofNat 32 (fieldsReset (regSpec r).fields) := by
  unfold resetWord
  split
  case h_8 => rfl
  all_goals exact absurd (by decide) h

theorem rget_reset_of_fields {p : Reg × Word}
    (h : p.1 ∉ resetByPlace ∧ BitVec.ofNat 32 (fieldsReset (regSpec p.1).fields) = p.2) (n : Nat) {inst : Nat}
    (hi : inst < 2 ^ 25) : rget Block.reset n p.1 inst = p.2 := by
  rw [rget_reset n p.1 inst hi, resetWord_of_fields h.1, h.2]

/-- An index below 2^11 stands in the upper part of a register's `inst`. -/
theorem ix_lt {i : Nat} (h : i < 2 ^ 11) : ix i < 2 ^ 25 := by unfold ix; omega

theorem ixIdx_ix (i : Nat) : ixIdx (ix i) = i := by unfold ixIdx ix; omega

theorem ixSel_of_lt {src : Nat} (h : src < 256) : ixSel src = src := Nat.mod_eq_of_lt (by omega)

theorem rget_reset_irqMap (n : Nat) {i : Nat} (h : i < 32) : rget Block.reset n .CMD_IRQ_MAP (ix i) = BitVec.ofNat 32 i := by
  rw [rget_reset _ _ _ (ix_lt (by omega))]
  show BitVec.ofNat 32 (ixIdx (ix i)) = _
  rw [ixIdx_ix]

theorem rget_reset_domain (n : Nat) {d : Nat} (h : d < 8) :
    rget Block.reset n .NOC_DOMAIN (ix d) = if d = 5 ∨ d = 6 then 0 else 0x80000000 := by
  rw [rget_reset _ _ _ (ix_lt (by omega))]
  simp [resetWord, ixIdx_ix]

theorem rget_reset_react (n : Nat) {l : Nat} (h : l < 5) :
    rget Block.reset n .FLT_REACT (ix l) = BitVec.ofNat 32 (reactReset l) := by
  rw [rget_reset _ _ _ (ix_lt (by omega))]
  show BitVec.ofNat 32 (reactReset (ixIdx (ix l))) = _
  rw [ixIdx_ix]

theorem rget_reset_srcCfg (n : Nat) {src : Nat} (h : src < 256) :
    rget Block.reset n .FLT_SRC_CFG src = BitVec.ofNat 32 (srcCfgReset src) := by
  rw [rget_reset _ _ _ (by omega)]
  show BitVec.ofNat 32 (srcCfgReset (ixSel src)) = _
  rw [ixSel_of_lt h]

theorem rget_reset_srcLeak (n : Nat) {src : Nat} (h : src < 256) :
    rget Block.reset n .FLT_SRC_LEAK src = BitVec.ofNat 32 (srcLeakReset src) := by
  rw [rget_reset _ _ _ (by omega)]
  show BitVec.ofNat 32 (srcLeakReset (ixSel src)) = _
  rw [ixSel_of_lt h]

theorem rget_reset_srcEsc (n : Nat) {src : Nat} (h : src < 256) :
    rget Block.reset n .FLT_SRC_ESC src = if (srcDefault src).isSome then 0xEA602710 else 0 := by
  rw [rget_reset _ _ _ (by omega)]
  show (if (srcDefault (ixSel src)).isSome then _ else _) = _
  rw [ixSel_of_lt h]

theorem srcLeakReset_of_level {src : Nat} {level : Option Nat} (hl : srcDefault src = level) :
    BitVec.ofNat 32 (srcLeakReset src) = (if level = some 0 then 3600000 else if level = some 1 then 600000 else 0 : Word) := by
  unfold srcLeakReset
  rw [hl]
  by_cases h0 : level = some 0
  · subst h0
    exact (if_pos rfl).symm
  · by_cases h1 : level = some 1
    · subst h1
      exact ((if_neg h0).trans (if_pos rfl)).symm
    · rw [if_neg h0, if_neg h1]
      split
      · exact absurd rfl h0
      · exact absurd rfl h1
      · rfl

theorem srcCfgReset_of_none {src : Nat} (hl : srcDefault src = none) : srcCfgReset src = 0 := by
  unfold srcCfgReset
  rw [hl]

theorem srcCfgReset_of_level {src l : Nat} (hl : srcDefault src = some l) :
    srcCfgReset src = src * 2 ^ 24 + (if l = 0 then 16 else if l = 1 then 8 else 0) * 2 ^ 16 + 2 * 2 ^ 12
      + l * 2 ^ 8 + l * 2 ^ 4 + 1 := by
  unfold srcCfgReset
  rw [hl]

/-- The registers of a fault source at reset, by the default level of R391. -/
theorem srcRegs_reset (n : Nat) {src : Nat} (h : src < 256) {level : Option Nat} (hl : srcDefault src = level) :
    rget Block.reset n .FLT_SRC_CFG src = (match (generalizing := false) level with
      | none => 0
      | some l => BitVec.ofNat 32 (src * 2 ^ 24 + (if l = 0 then 16 else if l = 1 then 8 else 0) * 2 ^ 16 + 2 * 2 ^ 12
          + l * 2 ^ 8 + l * 2 ^ 4 + 1)) ∧
    rget Block.reset n .FLT_SRC_LEAK src = (if level = some 0 then 3600000 else if level = some 1 then 600000 else 0) ∧
    rget Block.reset n .FLT_SRC_ESC src = if level = none then 0 else 0xEA602710 := by
  rw [rget_reset_srcCfg n h, rget_reset_srcLeak n h, rget_reset_srcEsc n h, srcLeakReset_of_level hl]
  cases level with
  | none =>
    rw [srcCfgReset_of_none hl, hl]
    exact ⟨rfl, rfl, (if_neg Bool.false_ne_true).trans (if_pos rfl).symm⟩
  | some l =>
    rw [srcCfgReset_of_level hl, hl]
    exact ⟨rfl, rfl, (if_pos rfl).trans (if_neg nofun).symm⟩

/-! ### Planes and PE registers at reset (02 R31) -/

theorem rowGet_reset (tk row addr : Nat) : rowGet Block.reset tk row addr = 0 := rfl

theorem zeroRow_clean : (decodeStored code64 0).found = .clean := by decide +kernel

theorem peGet_reset (tk row : Nat) {reg : Nat} (h : reg < 5) :
    peGet Block.reset tk row reg = if reg = peM then BitVec.allOnes 64 else 0 := by
  have hk : peKey tk row reg % 8 = reg := by unfold peKey; omega
  show (if peKey tk row reg % 8 = 2 then BitVec.allOnes 64 else 0) = _
  rw [hk]
  rfl

/-- Settles O57: an empty register file reads as the reset words of the tables, which are compared list by list. -/
theorem resetHoldsTheSpecsValues : Obligations.ResetHoldsTheSpecsValues := by
  unfold Obligations.ResetHoldsTheSpecsValues
  refine ⟨fun p hp n inst hi => rget_reset_of_fields ?_ n hi, fun n i hi => rget_reset_irqMap n hi,
    fun n d hd => rget_reset_domain n hd, ?react, ?sources,
    fun tk row addr => ⟨rowGet_reset tk row addr, zeroRow_clean⟩, fun tk row reg hr => peGet_reset tk row hr,
    reset_memory_wf, rfl, rfl, rfl, rfl, rfl, rfl⟩
  · revert p
    decide
  case react =>
    intro n p hp
    have hr : p.1 < 5 ∧ BitVec.ofNat 32 (reactReset p.1) = p.2 := by
      revert p
      decide
    rw [rget_reset_react n hr.1, hr.2]
  case sources =>
    intro n src hs
    refine srcRegs_reset n hs ?_
    revert src
    decide +kernel

end Sys2Proof.Machine
end

section
/-! Writes of BAR0 as they are served, and where they land (00 R5, 01 R12-R16, 13 R300, 14 R336,
R337); BAR2 accesses (01 R15-R20). -/

namespace Sys2Proof.Machine

/-! ### A request on its way (16 R364, R370) -/

theorem overNet_served (s : Block) (n : Nat) (ones : List (BitVec 8)) (out : Block → Block) (act : Block → Option MemAns) :
    overNet s n .served ones out act = act s := by
  unfold overNet
  dsimp only [lostThere, lostBack]
  exact Option.map_id'

/-- A request that is lost on its way has no effect at its target; its limit expires. -/
theorem overNet_lostThere (s : Block) (n : Nat) (r : Fin 48) (ones : List (BitVec 8)) (out : Block → Block)
    (act : Block → Option MemAns) :
    overNet s n (.lost r false) ones out act = some ⟨rspTimeout, ones, out (raise s n SRC.NOC_FLIT_UE r 0)⟩ := rfl

/-- One whose answer is late, or lost on its way back, has its effect; its limit expires all the same. -/
theorem overNet_late {s : Block} {act : Block → Option MemAns} {a : MemAns} (h : act s = some a) (n : Nat)
    (ones : List (BitVec 8)) (out : Block → Block) :
    overNet s n .late ones out act = some ⟨rspTimeout, ones, out (fsat a.st n F.NOC_LATE_COUNT 0)⟩ := by
  unfold overNet
  dsimp only [lostThere]
  rw [h]
  rfl

theorem overNet_lostBack {s : Block} {act : Block → Option MemAns} {a : MemAns} (h : act s = some a) (n : Nat)
    (r : Fin 48) (ones : List (BitVec 8)) (out : Block → Block) :
    overNet s n (.lost r true) ones out act = some ⟨rspTimeout, ones, out (raise a.st n SRC.NOC_FLIT_UE r 0)⟩ := by
  unfold overNet
  dsimp only [lostThere]
  rw [h]
  rfl

theorem netWrite_served (s : Block) (c : Ctx) (b : BarWrite) : netWrite s c ⟨b, .served⟩ = barWrite s c b := by
  unfold netWrite overNet1
  dsimp only
  rw [overNet_served]
  rfl

/-! ### The requests of the host and their arrival (01 R19, 14 R321, R322) -/

/-- A request of the host has no effect while the primary is in D3hot, Rest or Off. -/
theorem hostTlp_unanswered {s : Block} (h : s.d3hot = true ∨ (pow s 0).off = true ∨ pState s 0 = 4) (t : HostTlp) :
    hostTlp t s = s := by
  unfold hostTlp
  exact if_pos (by simpa [or_assoc] using h)

/-- In Furl and Brake it wakes the primary and waits. -/
theorem hostTlp_wakes {s : Block} (hd : s.d3hot = false) (ho : (pow s 0).off = false) (hp : pState s 0 = 2 ∨ pState s 0 = 3)
    (t : HostTlp) : hostTlp t s = tlpWake { s with tlpQ := s.tlpQ ++ [t] } := by
  have hn : pState s 0 ≠ 4 := by omega
  unfold hostTlp
  rw [if_neg (by simp [hd, ho, hn]), if_pos (by simpa [tlpAsleep] using hp)]

/-! ### The register commands, as they are served -/

/-- A command that completes with the effect `f` takes a block where `f` takes it. -/
theorem gives_of_done {c : Instr} {s t : Block} (f : Block → Block) (hc : ∀ st : State, exec c st = done st (f st.toBlock))
    (h : f s = t) : Gives c s t := by
  intro q
  rw [hc, h]
  rfl

theorem gives_registerWrite {c : Ctx} {b : NetWrite} {s t : Block} (h : registerWrite c b s = t) :
    Gives (.registerWrite c b) s t := gives_of_done (registerWrite c b) (fun _ => rfl) h

theorem gives_bar2Access {req : NetReq} {s t : Block} (h : bar2Access req s = t) : Gives (.bar2Access req) s t :=
  gives_of_done (bar2Access req) (fun _ => rfl) h

theorem registerWrite_now {s : Block} {c : Ctx} (h : servedNow s c = true) (b : NetWrite) :
    registerWrite c b s = (netWrite (arrived s c) c b).2 := ctxReq_served s c (.write c b) _ h rfl

theorem registerWrite_served {s : Block} {c : Ctx} (h : servedNow s c = true) (b : BarWrite) :
    Gives (.registerWrite c ⟨b, .served⟩) s (barWrite (arrived s c) c b).2 :=
  gives_registerWrite (by rw [registerWrite_now h, netWrite_served])

theorem rwlShadowWrite_served {s : Block} {c : Ctx} (h : servedNow s c = true) {b : BarWrite} {r : Reg}
    (hn : namedReg b.off = some r) (hr : isRwl r = true) :
    Gives (.rwlShadowWrite c ⟨b, .served⟩) s (barWrite (arrived s c) c b).2 := by
  refine gives_of_done (rwlShadowWrite c ⟨b, .served⟩) (fun _ => rfl) ?_
  unfold rwlShadowWrite
  rw [if_pos (by rw [hn]; exact hr), ← netWrite_served]
  exact registerWrite_now h ⟨b, .served⟩

theorem counterClearWrite_served {s : Block} {c : Ctx} (h : servedNow s c = true) {b : BarWrite} {r : Reg} {i k : Nat}
    {fs : List Fld} (hr : regAt b.off = some (r, i)) (hc : clearOf r = some (k, fs)) (hk : b.data.getLsbD k = true) :
    Gives (.counterClearWrite c ⟨b, .served⟩) s (barWrite (arrived s c) c b).2 := by
  refine gives_of_done (counterClearWrite c ⟨b, .served⟩) (fun _ => rfl) ?_
  unfold counterClearWrite
  rw [hr, Option.bind_some, hc]
  dsimp only
  rw [if_pos hk, ← netWrite_served]
  exact registerWrite_now h ⟨b, .served⟩

theorem selectWrite_served {s : Block} {c : Ctx} (h : servedNow s c = true) (q : Option (Fin 16)) (i : Fin 11) (w : Word) :
    Gives (.selectWrite c q i w) s (if accessCode (arrived s c) 0 0x00100100 = rspOk then
        selWrite (arrived s c) (match q with
          | some q => q.val
          | none => ctxNum c) i w
      else arrived s c) :=
  gives_of_done (selectWrite c q i w) (fun _ => rfl) (ctxReq_served s c (.select c q i w) _ h rfl)

/-- Every CLEAR bit lies in the register's word. -/
theorem clearOf_bit_lt {r : Reg} {k : Nat} {fs : List Fld} (h : clearOf r = some (k, fs)) : k < 32 := by
  unfold clearOf at h
  split at h <;> simp only [Option.some.injEq, Prod.mk.injEq, reduceCtorEq] at h <;> omega

/-! ### Where a word lands (01 R12-R14) -/

section
variable {s : Block} {c : Ctx} {n off : Nat}

theorem barWord_served {w : Word} (h : pathCode s c (accessNode s c off) off = rspOk) :
    barWord s c off w = writeAt s c (accessNode s c off) off w := if_pos h

theorem barWord_denied {w : Word} (h : pathCode s c (accessNode s c off) off ≠ rspOk) :
    barWord s c off w = (pathCode s c (accessNode s c off) off, deniedBy s c (accessNode s c off) off) := if_neg h

theorem writeAt_select {i : Nat} (h : ownSelect off = some i) (w : Word) :
    writeAt s c n off w = (rspOk, selWrite s (ctxNum c) i w) := by
  unfold writeAt
  rw [h]

variable (hs : ownSelect off = none)
include hs

theorem writeAt_msix {i : Nat} (h : msixAt off = some i) (w : Word) : writeAt s c n off w = (rspOk, msixWrite s i w) := by
  unfold writeAt
  rw [hs, h]

variable (hm : msixAt off = none)
include hm

theorem writeAt_window {r o : Nat} (h : windowOf off = some (r, o)) (w : Word) :
    writeAt s c n off w = ((windowReq s n r ⟨true, o, enBytes 4 w.toNat⟩ []).code,
      (windowReq s n r ⟨true, o, enBytes 4 w.toNat⟩ []).st) := by
  unfold writeAt
  rw [hs, hm, h]

variable (hw : windowOf off = none)
include hw

theorem writeAt_shadowed {r : Reg} {i : Nat} (h : aliasAt off = some (r, i)) (w : Word) :
    writeAt s c n off w = (rspOk, rwlWrite s c n r i (selVal s (ctxNum c) (regSpec r).sel) w) := by
  unfold writeAt
  rw [hs, hm, hw, h]

variable (ha : aliasAt off = none)
include ha

theorem writeAt_register {r : Reg} {i : Nat} (h : regAt off = some (r, i)) (w : Word) :
    writeAt s c n off w = (rspOk, writeReg s c n r i (selVal s (ctxNum c) (regSpec r).sel) w) := by
  unfold writeAt
  rw [hs, hm, hw, ha, h]

theorem writeAt_nothing (h : regAt off = none) (w : Word) : writeAt s c n off w = (rspOk, s) := by
  unfold writeAt
  rw [hs, hm, hw, ha, h]

end

/-- A write of an RWL register goes to the shadow (13 R300). -/
theorem writeReg_rwl {r : Reg} (h : isRwl r = true) (s : Block) (c : Ctx) (n idx sel : Nat) (w : Word) :
    writeReg s c n r idx sel w = rwlWrite s c n r idx sel w := if_pos h

/-! ### BAR0 writes by their width (01 R14) -/

section
variable {s : Block} {c : Ctx} {b : BarWrite}

theorem barWrite_word (hw : b.wide = false) (ha : b.off % 4 = 0) (hb : b.be.extractLsb' 0 4 = 0xF) :
    barWrite s c b = barWord s c b.off (b.data.setWidth 32) := by
  unfold barWrite
  simp [hw, ha, hb]

/-- An unaligned write, or a narrow one without all of its bytes, changes nothing. -/
theorem barWrite_malformed
    (h : b.wide = false ∧ (b.be.extractLsb' 0 4 ≠ 0xF ∨ b.off % 4 ≠ 0) ∨ b.wide = true ∧ b.off % 8 ≠ 0) :
    barWrite s c b = (rspOk, s) := by
  unfold barWrite
  dsimp only
  simp only [Bool.and_eq_true, decide_eq_true_eq, beq_iff_eq]
  rcases h with ⟨hw, hn⟩ | ⟨hw, ha⟩
  · rw [hw, if_neg Bool.false_ne_true, if_neg fun h => hn.elim (· h.2) (· h.1)]
  · rw [hw, if_pos rfl, if_pos ha]

theorem allBytes_iff (be : BitVec 8) : (be.extractLsb' 0 4 == 0xF && be.extractLsb' 4 4 == 0xF) = true ↔ be = 0xFF := by
  revert be
  decide

theorem barWrite_pair {t : Block} (hw : b.wide = true) (ha : b.off % 8 = 0) (hb : b.be = 0xFF)
    (hp : pathCode s c (accessNode s c b.off) b.off = rspOk)
    (ht : pairWrite s c (accessNode s c b.off) b.off b.data = some t) : barWrite s c b = (rspOk, t) := by
  unfold barWrite
  dsimp only
  rw [if_pos hw, if_neg (by simp [ha]), if_pos (by rw [(allBytes_iff _).mpr hb, hp]; rfl), ht]

/-- A wide write of no pair, or one that is not whole or denied, writes its two words, the lower first. -/
theorem barWrite_twoWords (hw : b.wide = true) (ha : b.off % 8 = 0)
    (h : ¬ (b.be = 0xFF ∧ pathCode s c (accessNode s c b.off) b.off = rspOk) ∨
      pairWrite s c (accessNode s c b.off) b.off b.data = none) :
    (barWrite s c b).2 =
      (let t := if b.be.extractLsb' 0 4 = 0xF then (barWord s c b.off (b.data.setWidth 32)).2 else s
       if b.be.extractLsb' 4 4 = 0xF then (barWord t c (b.off + 4) (b.data.extractLsb' 32 32)).2 else t) := by
  have hn : (if (b.be.extractLsb' 0 4 == 0xF && b.be.extractLsb' 4 4 == 0xF &&
      decide (pathCode s c (accessNode s c b.off) b.off = rspOk)) = true
      then pairWrite s c (accessNode s c b.off) b.off b.data else none) = none := by
    rcases h with h | h
    · exact if_neg fun hc => h (by simpa only [Bool.and_eq_true _ (decide _), allBytes_iff, decide_eq_true_eq] using hc)
    · rw [h, ite_self]
  unfold barWrite
  dsimp only
  rw [if_pos hw, if_neg fun hn => hn ha, hn]
  dsimp only
  simp only [apply_ite Prod.snd, beq_iff_eq]

end

/-- A full word that comes through has at its offset the effect of `writeAt`. -/
theorem barWrite_lands {s : Block} {c : Ctx} {b : BarWrite} (hp : pathCode s c (accessNode s c b.off) b.off = rspOk)
    (hw : b.wide = false) (ha : b.off % 4 = 0) (hb : b.be.extractLsb' 0 4 = 0xF) :
    barWrite s c b = writeAt s c (accessNode s c b.off) b.off (b.data.setWidth 32) := by
  rw [barWrite_word hw ha hb, barWord_served hp]

/-! ### BAR2 (01 R15, R17-R20) -/

/-- What a BAR2 request for target `t` of module `n` does as it goes on its way: a module that is
powered down answers so (01 R16). -/
def bar2Act (n : Nat) (t : Nat × Nat) (req : MemReq) (s : Block) : Option MemAns :=
  if served s n || cutFrom s 0 n then bar2Way s n t req else some ⟨rspPwrOff, onesData req, s⟩

section
variable {s : Block} {req : MemReq}

/-- An access past 256 MiB, or of no byte, does nothing. -/
theorem bar2Try_outside (h : 2 ^ 28 < req.addr + req.bytes.length ∨ req.bytes = []) (way : BusWay) :
    bar2Try ⟨req, way⟩ s = some s := by
  unfold bar2Try
  exact if_pos (by simpa using h)

variable (ha : req.addr + req.bytes.length ≤ 2 ^ 28) (hb : req.bytes ≠ [])
include ha hb

theorem bar2_inside : (decide (2 ^ 28 < req.addr + req.bytes.length) || req.bytes.isEmpty) = false := by
  rw [decide_eq_false (Nat.not_lt.mpr ha), Bool.false_or]
  simpa using hb

/-- A module that is not in the table answers as isolated. -/
theorem bar2Try_absent (hp : nodePresent s (selGet s 0 0) = false) (way : BusWay) :
    bar2Try ⟨req, way⟩ s = some (answer ownHost ⟨rspIsolated, onesData req, s⟩) := by
  unfold bar2Try
  dsimp only
  rw [bar2_inside ha hb, if_neg Bool.false_ne_true, hp, Bool.not_false, if_pos rfl]

theorem bar2Try_present (hp : nodePresent s (selGet s 0 0) = true) (way : BusWay) :
    bar2Try ⟨req, way⟩ s = (overNet s 0 way (onesData req) (bar2TimedOut (selGet s 0 0) (bar2Target s (selGet s 0 0) req))
      (bar2Act (selGet s 0 0) (bar2Target s (selGet s 0 0) req) req)).map (answer ownHost) := by
  unfold bar2Try
  dsimp only
  rw [bar2_inside ha hb, if_neg Bool.false_ne_true, hp, Bool.not_true, if_neg Bool.false_ne_true]
  rfl

end

/-- The request that stalls stands first among those that wait, with its limit running. -/
theorem tlpHold_bar2 (req : NetReq) (l : List HostTlp) (s : Block) :
    tlpHold (.bar2 req none) l s =
      { stgWaits s (selGet s 0 0) with tlpQ := .bar2 req (some (limitOf s 0 (selGet s 0 0))) :: l } := rfl

/-- A BAR2 access of the host that is served as it arrives, or stalls. -/
theorem bar2Access_now {s : Block} (h : servedNow s (.queue 0) = true) {req : NetReq} {o : Option Block}
    (ho : bar2Try req (arrived s (.queue 0)) = o) :
    bar2Access req s = o.getD (tlpHold (.bar2 req none) [] (arrived s (.queue 0))) :=
  hostTlp_served s 0 (.bar2 req none) o h ho

/-- How far a BAR2 request for target `t` gets: one for the primary itself has no way to go. -/
def bar2Path (s : Block) (n : Nat) (t : Nat × Nat) : BusPath := if n = 0 then .there else busPath s 0 ownHost n t.1

section
variable {s : Block} {n : Nat} {t : Nat × Nat}

theorem bar2Way_there (h : bar2Path s n t = .there) (req : MemReq) : bar2Way s n t req = bar2Req s n req := by
  unfold bar2Path at h
  unfold bar2Way
  split at h
  · rename_i hn
    exact if_pos hn
  · rename_i hn
    rw [if_neg hn, h]

theorem busPath_of_bar2Path {p : BusPath} (hp : p ≠ .there) (h : bar2Path s n t = p) :
    n ≠ 0 ∧ busPath s 0 ownHost n t.1 = p := by
  unfold bar2Path at h
  split at h
  · exact absurd h.symm hp
  · rename_i hn
    exact ⟨hn, h⟩

theorem bar2Way_gone (h : bar2Path s n t = .gone) (req : MemReq) :
    bar2Way s n t req = some ⟨rspTimeout, onesData req, bar2TimedOut n t s⟩ := by
  obtain ⟨hn, h⟩ := busPath_of_bar2Path (by nofun) h
  unfold bar2Way
  rw [if_neg hn, h]

theorem bar2Way_lacks {m r : Nat} (h : bar2Path s n t = .lacks m r) (req : MemReq) :
    bar2Way s n t req = some ⟨rspNoRoute, onesData req, noRouteRaise s m r⟩ := by
  obtain ⟨hn, h⟩ := busPath_of_bar2Path (by nofun) h
  unfold bar2Way
  rw [if_neg hn, h]

end

/-- What a served BAR2 access to a module in the table comes to. -/
theorem bar2Access_present {s : Block} {req : MemReq} (hs : servedNow s (.queue 0) = true)
    (ha : req.addr + req.bytes.length ≤ 2 ^ 28) (hb : req.bytes ≠ [])
    (hp : nodePresent (arrived s (.queue 0)) (selGet (arrived s (.queue 0)) 0 0) = true) :
    bar2Access ⟨req, .served⟩ s =
      ((bar2Act (selGet (arrived s (.queue 0)) 0 0)
          (bar2Target (arrived s (.queue 0)) (selGet (arrived s (.queue 0)) 0 0) req) req (arrived s (.queue 0))).map
        (answer ownHost)).getD (tlpHold (.bar2 ⟨req, .served⟩ none) [] (arrived s (.queue 0))) := by
  rw [bar2Access_now hs (bar2Try_present ha hb hp .served), overNet_served]

/-- A BAR2 access that is served as it arrives is answered by what its way leads to. -/
theorem bar2Access_answered (req : MemReq) (s : Block) (hs : servedNow s (.queue 0) = true)
    (ha : req.addr + req.bytes.length ≤ 2 ^ 28) (hb : req.bytes ≠ []) :
    let b := arrived s (.queue 0)
    let n := selGet b 0 0
    let t := bar2Target b n req
    Gives (.bar2Access ⟨req, .served⟩) s (if !nodePresent b n then answer ownHost ⟨rspIsolated, onesData req, b⟩
      else if !(served b n || cutFrom b 0 n) then answer ownHost ⟨rspPwrOff, onesData req, b⟩
      else
        match (if n = 0 then BusPath.there else busPath b 0 ownHost n t.1) with
        | .gone => answer ownHost ⟨rspTimeout, onesData req, bar2TimedOut n t b⟩
        | .lacks m r => answer ownHost ⟨rspNoRoute, onesData req, noRouteRaise b m r⟩
        | .there =>
          if req.addr < 2 ^ 27 then
            (match stgReq b n ownHost 0 req with
            | some a => answer ownHost a
            | none => { stgWaits b n with tlpQ := [.bar2 ⟨req, .served⟩ (some (limitOf b 0 n))] })
          else answer ownHost (recReq b n ownHost { req with addr := apertureByte b n req.addr })) := by
  intro b n t
  apply gives_bar2Access
  cases hp : nodePresent b n
  case false => exact bar2Access_now hs (bar2Try_absent ha hb hp .served)
  rw [bar2Access_present hs ha hb hp]
  show ((bar2Act n t req b).map (answer ownHost)).getD _ = if (!(served b n || cutFrom b 0 n)) = true then _ else _
  unfold bar2Act
  cases hc : (served b n || cutFrom b 0 n)
  case false => rfl
  show ((bar2Way b n t req).map (answer ownHost)).getD _ = match bar2Path b n t with
    | .gone => _
    | .lacks m r => _
    | .there => _
  cases hw : bar2Path b n t with
  | gone => rw [bar2Way_gone hw]; rfl
  | lacks m r => rw [bar2Way_lacks hw]; rfl
  | there =>
    rw [bar2Way_there hw]
    unfold bar2Req
    dsimp only
    split
    · cases stgReq b n ownHost 0 req <;> rfl
    · rfl

/-- A BAR2 access whose request or answer does not come through in time: the first has no effect at its
module, the others have. -/
theorem bar2Access_untimely (req : MemReq) (r : Fin 48) (s : Block) (hs : servedNow s (.queue 0) = true)
    (ha : req.addr + req.bytes.length ≤ 2 ^ 28) (hb : req.bytes ≠ [])
    (hp : nodePresent (arrived s (.queue 0)) (selGet (arrived s (.queue 0)) 0 0) = true) :
    let b := arrived s (.queue 0)
    let n := selGet b 0 0
    let t := bar2Target b n req
    let w := bar2Act n t req b
    let out := fun (x : Block) => answer ownHost ⟨rspTimeout, onesData req, bar2TimedOut n t x⟩
    Gives (.bar2Access ⟨req, .lost r false⟩) s (out (raise b 0 SRC.NOC_FLIT_UE r 0)) ∧
    ∀ a, w = some a → Gives (.bar2Access ⟨req, .late⟩) s (out (fsat a.st 0 F.NOC_LATE_COUNT 0)) ∧
      Gives (.bar2Access ⟨req, .lost r true⟩) s (out (raise a.st 0 SRC.NOC_FLIT_UE r 0)) := by
  intro b n t w out
  have reach := fun way => bar2Access_now hs (bar2Try_present ha hb hp way)
  refine ⟨gives_bar2Access ?_, fun a hw => ⟨gives_bar2Access ?_, gives_bar2Access ?_⟩⟩
  · rw [reach, overNet_lostThere]; rfl
  · rw [reach, overNet_late hw]; rfl
  · rw [reach, overNet_lostBack hw]; rfl

/-! ### A BAR0 write that does not come through in time (16 R364, R370) -/

theorem netWrite_lostThere (s : Block) (c : Ctx) (b : BarWrite) (r : Fin 48) :
    (netWrite s c ⟨b, .lost r false⟩).2 = regTimedOut (ctxHome (ctxNum c)) (ctxEp c) (accessNode s c b.off) b.off
      (raise s (ctxHome (ctxNum c)) SRC.NOC_FLIT_UE r 0) := rfl

theorem netWrite_lostBack (s : Block) (c : Ctx) (b : BarWrite) (r : Fin 48) :
    (netWrite s c ⟨b, .lost r true⟩).2 = regTimedOut (ctxHome (ctxNum c)) (ctxEp c) (accessNode s c b.off) b.off
      (raise (barWrite s c b).2 (ctxHome (ctxNum c)) SRC.NOC_FLIT_UE r 0) := rfl

theorem netWrite_late (s : Block) (c : Ctx) (b : BarWrite) :
    (netWrite s c ⟨b, .late⟩).2 = regTimedOut (ctxHome (ctxNum c)) (ctxEp c) (accessNode s c b.off) b.off
      (fsat (barWrite s c b).2 (ctxHome (ctxNum c)) F.NOC_LATE_COUNT 0) := rfl

/-! ### The obligation -/

/-- A full word that comes through leaves what `writeAt` leaves at its offset. -/
theorem registerWrite_lands {s t : Block} {c : Ctx} {b : BarWrite} (hs : servedNow s c = true)
    (hp : pathCode (arrived s c) c (accessNode (arrived s c) c b.off) b.off = rspOk) (hw : b.wide = false)
    (ha : b.off % 4 = 0) (hb : b.be.extractLsb' 0 4 = 0xF) {k : Nat}
    (ht : writeAt (arrived s c) c (accessNode (arrived s c) c b.off) b.off (b.data.setWidth 32) = (k, t)) :
    Gives (.registerWrite c ⟨b, .served⟩) s t := by
  have h := registerWrite_served hs b
  rwa [barWrite_lands hp hw ha hb, ht] at h

/-- The register that an offset names, and what a word that comes through does to it where its fields are RWL (13 R300). -/
theorem writeAt_rwl {s : Block} {c : Ctx} {n off : Nat} {r : Reg} {i : Nat} (h1 : ownSelect off = none)
    (h2 : msixAt off = none) (h3 : windowOf off = none)
    (h : aliasAt off = some (r, i) ∨ aliasAt off = none ∧ regAt off = some (r, i)) (hr : isRwl r = true) (w : Word) :
    namedReg off = some r ∧
      writeAt s c n off w = (rspOk, rwlWrite s c n r i (selVal s (ctxNum c) (regSpec r).sel) w) := by
  unfold namedReg
  rcases h with h | ⟨h4, h⟩
  · rw [h]
    exact ⟨rfl, writeAt_shadowed h1 h2 h3 h w⟩
  · rw [h4, h]
    exact ⟨rfl, by rw [writeAt_register h1 h2 h3 h4 h, writeReg_rwl hr]⟩

/-- Settles O27: each access by the lemma on what it reaches. -/
theorem registerWritesLand : Obligations.RegisterWritesLand := by
  unfold Obligations.RegisterWritesLand
  refine ⟨
    fun c b s r i hs hp hw ha hb h1 h2 h3 h4 h5 => registerWrite_lands hs hp hw ha hb (writeAt_register h1 h2 h3 h4 h5 _),
    fun c b s i hs hp hw ha hb h1 => registerWrite_lands hs hp hw ha hb (writeAt_select h1 _),
    fun c b s i hs hp hw ha hb h1 h2 => registerWrite_lands hs hp hw ha hb (writeAt_msix h1 h2 _),
    fun c b s r o hs hp hw ha hb h1 h2 h3 => registerWrite_lands hs hp hw ha hb (writeAt_window h1 h2 h3 _),
    fun c b s r i hs hp hw ha hb h1 h2 h3 h4 => registerWrite_lands hs hp hw ha hb (writeAt_shadowed h1 h2 h3 h4 _),
    fun c b s hs hp hw ha hb h1 h2 h3 h4 h5 => registerWrite_lands hs hp hw ha hb (writeAt_nothing h1 h2 h3 h4 h5 _),
    ?denied, ?malformed, ?pair, ?twoWords, fun c off w s => rfl, ?rwl, fun s c n r idx sel w => rfl,
    fun c qc i w s hs => selectWrite_served hs qc i w, ?clear, ?outside, bar2Access_answered, fun s n a => rfl,
    bar2Access_untimely, ?untimely, ?unanswered, ?wakes, ?waits⟩
  case denied =>
    intro c b s hs hp hw ha hb
    have h := registerWrite_served hs b
    rwa [barWrite_word hw ha hb, barWord_denied hp] at h
  case malformed =>
    intro c b s hs hm
    have h := registerWrite_served hs b
    rwa [barWrite_malformed hm] at h
  case pair =>
    intro c b s t hs hw ha hb hp ht
    have h := registerWrite_served hs b
    rwa [barWrite_pair hw ha hb hp ht] at h
  case twoWords =>
    intro c b s hs hw ha hn
    have h := registerWrite_served hs b
    rwa [barWrite_twoWords hw ha hn] at h
  case rwl =>
    intro c b s r i hs hp hw ha hb h1 h2 h3 h4 hr
    obtain ⟨hn, he⟩ := writeAt_rwl h1 h2 h3 h4 hr _
    have h := rwlShadowWrite_served hs hn hr
    rwa [barWrite_lands hp hw ha hb, he] at h
  case clear =>
    intro c b s r i k fs hs hp hw ha hb h1 h2 h3 h4 h5 hc hk hr
    have h := counterClearWrite_served hs h5 hc hk
    rw [barWrite_lands hp hw ha hb, writeAt_register h1 h2 h3 h4 h5] at h
    exact ⟨h, writeReg_clears _ c _ r i _ _ k fs hc (by simp [clearOf_bit_lt hc, hk]) hr⟩
  case outside => exact fun req way s hs ho => gives_bar2Access (bar2Access_now hs (bar2Try_outside ho way))
  case untimely =>
    intro c b r s hs
    exact ⟨gives_registerWrite ((registerWrite_now hs _).trans (netWrite_lostThere _ c b r)),
      gives_registerWrite ((registerWrite_now hs _).trans (netWrite_lostBack _ c b r)),
      gives_registerWrite ((registerWrite_now hs _).trans (netWrite_late _ c b))⟩
  case unanswered =>
    exact fun k b req s h => ⟨gives_registerWrite (hostTlp_unanswered h _), gives_bar2Access (hostTlp_unanswered h _)⟩
  case wakes =>
    exact fun k b req s hd ho hp =>
      ⟨gives_registerWrite (hostTlp_wakes hd ho hp _), gives_bar2Access (hostTlp_wakes hd ho hp _)⟩
  case waits =>
    exact fun k b req s hd ho hp hq => ⟨gives_registerWrite (hostTlp_waits s k _ hd ho hp hq),
      gives_bar2Access (hostTlp_waits s k _ hd ho hp hq)⟩

end Sys2Proof.Machine
end

section
/-! The architecture's rules of one step (01 R10), of BAR0 offsets that hold nothing (01 R13), and of what a read of
BAR0 leaves (01 R14, 18 R411). -/

namespace Sys2Proof.Machine

/-! ### A step runs the front command (01 R10, 14 R325) -/

/-- Every command is a function of the block: it completes, and the queue neither matters to it nor changes. -/
theorem exec_gives (c : Instr) : ∃ f : Block → Block, ∀ b, Gives c b (f b) := by
  cases c <;> exact ⟨_, fun _ _ => rfl⟩

/-- Settles O55: each command completes by `exec_gives`; both clauses on `step` are its own two cases. -/
theorem stepRunsTheFrontCommand : Obligations.StepRunsTheFrontCommand := by
  unfold Obligations.StepRunsTheFrontCommand
  refine ⟨fun _ _ _ => rfl, fun c b q => ?_, fun _ => rfl⟩
  obtain ⟨f, hf⟩ := exec_gives c
  exact ⟨f b, hf b q⟩

/-! ### Offsets that hold nothing (01 R13) -/

/-- A bound that no offset of a register set reaches. -/
def RegSpec.bound (sp : RegSpec) : Nat :=
  match sp.strides with
  | [] => sp.base + 1
  | (t, c) :: _ => sp.base + t * c

theorem regMatch_of_bound_le {sp : RegSpec} {off : Nat} (hs : ∀ p ∈ sp.strides, 0 < p.1) (h : sp.bound ≤ off) :
    regMatch sp off = none := by
  obtain ⟨base, strides, sel, fields⟩ := sp
  unfold regMatch
  dsimp only
  cases strides with
  | nil =>
    change base + 1 ≤ off at h
    rw [if_neg (by omega), if_neg (by omega)]
  | cons p rest =>
    obtain ⟨t, c⟩ := p
    change base + t * c ≤ off at h
    have ht : 0 < t := hs (t, c) (List.mem_cons_self ..)
    have hc : ¬ (off - base) / t < c := by
      rw [Nat.div_lt_iff_lt_mul ht, Nat.mul_comm]
      omega
    have hb : ¬ off < base := fun hlt => by omega
    cases rest <;>
      simp only [if_neg hb, decide_eq_false hc, Bool.and_false, Bool.false_and, Bool.false_eq_true, if_false]

/-- No register lies in the reserved range at the end of BAR0, and no stride is zero. -/
theorem regSpec_bound (r : Reg) : (∀ p ∈ (regSpec r).strides, 0 < p.1) ∧ (regSpec r).bound ≤ 0x01A00000 := by
  cases r <;> decide

theorem regAt_reserved {off : Nat} (h : 0x01A00000 ≤ off) : regAt off = none := by
  unfold regAt
  rw [List.findSome?_eq_none_iff]
  intro r _
  obtain ⟨hs, hb⟩ := regSpec_bound r
  rw [regMatch_of_bound_le hs (Nat.le_trans hb h), Option.map_none]

/-- An RWL register's second offset stands 0xC0000 above its first, in the same megabyte (13 R300). -/
theorem aliasAt_reserved {off : Nat} (h : 0x01A00000 ≤ off) : aliasAt off = none := by
  unfold aliasAt
  dsimp only
  split
  · rw [regAt_reserved (by omega)]
  · rfl

theorem ownSelect_eq_none {off : Nat} (h : 0x0010012C ≤ off) : ownSelect off = none :=
  if_neg (by simp only [Bool.and_eq_true, decide_eq_true_eq]; omega)

theorem msixAt_eq_none {off : Nat} (h : 0x00109020 ≤ off) : msixAt off = none :=
  if_neg (by simp only [Bool.and_eq_true, decide_eq_true_eq]; omega)

theorem windowOf_eq_none {off : Nat} (h : 0x00E90000 ≤ off) : windowOf off = none :=
  if_neg (by simp only [Bool.and_eq_true, decide_eq_true_eq]; omega)

/-! ### Where a read lands (01 R12-R14) -/

section
variable {s : Block} {c : Ctx} {n off : Nat}

theorem barRead_served (h : pathCode s c (accessNode s c off) off = rspOk) :
    barRead s c off = readAt s c (accessNode s c off) off := if_pos h

theorem barRead_denied (h : pathCode s c (accessNode s c off) off ≠ rspOk) :
    barRead s c off = (pathCode s c (accessNode s c off) off, BitVec.allOnes 32, deniedBy s c (accessNode s c off) off) :=
  if_neg h

theorem readAt_nothing (h1 : ownSelect off = none) (h2 : msixAt off = none) (h3 : windowOf off = none)
    (h4 : aliasAt off = none) (h5 : regAt off = none) : readAt s c n off = (rspOk, 0, s) := by
  unfold readAt
  rw [h1, h2, h3, h4, h5]

/-- An access that is answered OK has come to its target. -/
theorem regPath_of_pathCode_ok (h : pathCode s c n off = rspOk) :
    regPath s (ctxHome (ctxNum c)) (ctxEp c) n off = .there := by
  unfold pathCode at h
  cases hp : regPath s (ctxHome (ctxNum c)) (ctxEp c) n off with
  | there => rfl
  | lacks m r => rw [hp] at h; exact absurd h (show rspNoRoute ≠ rspOk by decide)
  | gone => rw [hp] at h; exact absurd h (show rspTimeout ≠ rspOk by decide)

end

/-- Settles O59: an offset that holds nothing answers zero by the last case of `readAt` and of `writeAt`; the reserved
range lies above every register, select, MSI-X word and window. -/
theorem unusedOffsetsReadZero : Obligations.UnusedOffsetsReadZero := by
  unfold Obligations.UnusedOffsetsReadZero
  refine ⟨fun s c off w hp h1 h2 h3 h4 h5 => ⟨?_, ?_⟩, fun off h _ => ⟨ownSelect_eq_none (by omega),
    msixAt_eq_none (by omega), windowOf_eq_none (by omega), aliasAt_reserved h, regAt_reserved h⟩⟩
  · rw [barRead_served hp, readAt_nothing h1 h2 h3 h4 h5]
  · rw [barWord_served hp, writeAt_nothing h1 h2 h3 h4 h5]

/-! ### What a read leaves (01 R14) -/

/-- `t` is `s` but for the model's own count of free values (log 2). -/
def SameButFreeCtr (s t : Block) : Prop := t = { s with freeCtr := t.freeCtr }

theorem SameButFreeCtr.refl (s : Block) : SameButFreeCtr s s := rfl

theorem drawFree_same (s : Block) : SameButFreeCtr s (drawFree s).2 := rfl

/-- A floating pin draws a free value; nothing else of the block changes. -/
theorem pinBits_same (s : Block) (n p : Nat) : SameButFreeCtr s (pinBits s n p).2 := by
  unfold pinBits
  dsimp only
  split
  · exact drawFree_same s
  split
  · exact .refl s
  split
  · exact .refl s
  split
  · exact .refl s
  · exact drawFree_same s

/-- A locked function of the register path reads 0 and the access is recorded (19 R430). -/
theorem readReg_locked {s : Block} {n : Nat} (h : dbgLocked s n = true) (c : Ctx) (i : Nat) :
    readReg s c n .DBG_ACU_REG i = (0, fset s n F.SEC_STATUS_DENIED 1) ∧
      readReg s c n .DBG_ACU_DATA i = (0, fset s n F.SEC_STATUS_DENIED 1) :=
  ⟨if_pos h, if_pos h⟩

/-- The register is neither of the two whose read changes state (01 R14), nor one whose read is recorded while it is
locked (19 R430). -/
def ReadKeepsState (s : Block) (n : Nat) (r : Reg) (i : Nat) : Prop :=
  r ≠ .TIM_NOW_LO ∧ (r, i) ≠ (.SEC_CHALLENGE, 0) ∧
    ((r ≠ .DBG_ACU_REG ∧ r ≠ .DBG_ACU_DATA) ∨ dbgLocked s n = false)

theorem readReg_same {s : Block} {n i : Nat} {r : Reg} (c : Ctx) (h : ReadKeepsState s n r i) :
    SameButFreeCtr s (readReg s c n r i).2 := by
  obtain ⟨hnow, hchal, hdbg⟩ := h
  unfold readReg
  dsimp only
  split
  case h_1 => exact .refl s
  case h_2 => exact pinBits_same s n i
  case h_3 => exact absurd rfl hnow
  case h_4 =>
    rw [if_neg (fun hi => hchal (by rw [hi]))]
    exact .refl s
  case h_5 =>
    rw [if_neg (Bool.eq_false_iff.mp (hdbg.resolve_left fun h => h.1 rfl))]
    exact .refl s
  case h_6 =>
    rw [if_neg (Bool.eq_false_iff.mp (hdbg.resolve_left fun h => h.2 rfl))]
    exact .refl s
  case h_7 => exact .refl s

/-- A served read of anything but a region's window keeps the state, if the read of the register there does. -/
theorem readAt_same {s : Block} {c : Ctx} {n off : Nat} (hw : windowOf off = none)
    (hr : ∀ r i, regAt off = some (r, i) → ReadKeepsState s n r i) : SameButFreeCtr s (readAt s c n off).2.2 := by
  unfold readAt
  rw [hw]
  split
  · exact .refl s
  split
  · exact .refl s
  dsimp only
  split
  · exact .refl s
  split
  · next r i h => exact readReg_same c (hr r i h)
  · exact .refl s

/-! ### The latch of device time (18 R411) -/

/-- TIM_NOW_HI reads bits 79:48 of the instant its context latched last. -/
theorem readReg_nowHi (s : Block) (c : Ctx) (n : Nat) :
    (readReg s c n .TIM_NOW_HI 0).1 = BitVec.ofNat 32 (timLatched s (ctxNum c) n / 2 ^ 16 / 2 ^ 32) := rfl

theorem readReg_nowFrac (s : Block) (c : Ctx) (n : Nat) :
    (readReg s c n .TIM_NOW_FRAC 0).1 = BitVec.ofNat 32 (timLatched s (ctxNum c) n % 2 ^ 16) := rfl

/-- After a read of TIM_NOW_LO the context holds the instant of the read, whatever device time does then. -/
theorem timLatched_readReg_nowLo {s : Block} (h : mrising none s.timLatch = true) (c : Ctx) (n i later : Nat) :
    timLatched { (readReg s c n .TIM_NOW_LO i).2 with now := later } (ctxNum c) n = devTime s n :=
  mget_mput_self _ _ _ _ h

/-- Settles O60: a read that is served by `readAt_same`, one that is not by what `deniedBy` leaves; the latch by
`timLatched_readReg_nowLo`. -/
theorem readsChangeOnlyTheLatchAndChallenge : Obligations.ReadsChangeOnlyTheLatchAndChallenge := by
  unfold Obligations.ReadsChangeOnlyTheLatchAndChallenge
  refine ⟨fun s c off hw hnow hchal hdbg => ?same, fun s c n i h => readReg_locked h c i, fun s c n i hm hd => ?latch⟩
  case same =>
    by_cases hp : pathCode s c (accessNode s c off) off = rspOk
    · rw [regEnd_there _ _ _ _ _ (regPath_of_pathCode_ok hp), barRead_served hp]
      refine readAt_same hw fun r i hr => ⟨?_, ?_, ?_⟩
      · rintro rfl
        exact hnow i hr
      · intro h
        exact hchal (hr.trans (congrArg some h))
      · refine hdbg.imp_left fun h => ⟨?_, ?_⟩
        · rintro rfl
          exact (h i).1 hr
        · rintro rfl
          exact (h i).2 hr
    · rw [barRead_denied hp]
      unfold deniedBy
      cases regEnd s (ctxHome (ctxNum c)) (ctxEp c) (accessNode s c off) off <;> rfl
  case latch =>
    have hlatch := timLatched_readReg_nowLo hm c n i
    refine ⟨?_, rfl, fun later => ?_⟩
    · exact BitVec.toNat_ofNat ..
    · dsimp only
      rw [readReg_nowHi, readReg_nowFrac, hlatch later, BitVec.toNat_ofNat, BitVec.toNat_ofNat]
      omega

end Sys2Proof.Machine
end

section
/-! The array ops without safe points: abandoned, held at the gate, or run on every tile of the gang (03 R77); the integer
ops among them (04 R106), and the logic, shift and move ops (04 R107, R108). -/

namespace Sys2Proof.Machine

/-! ### What the next op of a gang does (03 R77, 02 R38) -/

section
variable {opc fl : Nat} {body : Block → List Nat → Mop → Acc × Option Nat} {n g : Nat} {s : Block} {m : Mop}

theorem runOp_abandoned (h : abandonedOp s n g opc fl = some m) : runOp opc fl body n g s = abandonOp s n g m := by
  unfold runOp
  rw [h]

theorem runOp_gated (ha : abandonedOp s n g opc fl = none) (hr : readyOp s n g opc fl = some m)
    (hg : gated s n g m = true) : runOp opc fl body n g s = s := by
  unfold runOp
  rw [ha, hr]
  exact if_pos hg

theorem runOp_runs (ha : abandonedOp s n g opc fl = none) (hr : readyOp s n g opc fl = some m)
    (hg : gated s n g m = false) (hl : netLive s n g m = true) :
    runOp opc fl body n g s =
      let r := body s (gangTiles s n g) m
      if r.1.bad then faultStop r.1.st n g (some m.num) SRC.NEWT_PLANE_UE else finishOp r.1.st n g m r.1.flags r.2 := by
  unfold runOp
  rw [ha, hr]
  dsimp only
  rw [if_neg (by simp [hg]), if_neg (by simp [hl])]

end

/-- A command that is `runOp` of an opcode runs that opcode: the three cases are those of `runOp`. -/
theorem runsOp_of_exec {c : Node → GangIx → Instr} {opc fl : Nat}
    {body : Node → GangIx → Block → List Nat → Mop → Acc × Option Nat}
    (hc : ∀ (n : Node) (g : GangIx) (st : State), exec (c n g) st = done st (runOp opc fl (body n g) n g st.toBlock)) :
    RunsOp c opc fl body := by
  intro n g s m
  have gives {t : Block} (h : runOp opc fl (body n g) n g s = t) : Gives (c n g) s t := gives_of_done _ (hc n g) h
  exact ⟨fun ha hr => ⟨fun hg hl => gives (runOp_runs ha hr hg hl), fun hg => gives (runOp_gated ha hr hg)⟩,
    fun ha => gives (runOp_abandoned ha)⟩

/-! ### The obligations -/

/-- Settles O38: each command is `runOp` of its opcode with the function of its op. -/
theorem arrayIntegerOpsRun : Obligations.ArrayIntegerOpsRun := by
  unfold Obligations.ArrayIntegerOpsRun
  and_intros <;> exact runsOp_of_exec fun _ _ _ => rfl

/-- Settles O39: as the integer ops. -/
theorem arrayLogicShiftAndMoveOpsRun : Obligations.ArrayLogicShiftAndMoveOpsRun := by
  unfold Obligations.ArrayLogicShiftAndMoveOpsRun
  and_intros <;> exact runsOp_of_exec fun _ _ _ => rfl

end Sys2Proof.Machine
end

section
/-! A gang's stop, the decision on its frontier op, its drain, and what goes on after it (06 R158-R163, 03 R76, R77,
04 R119). -/

namespace Sys2Proof.Machine

/-! ### Rows of the host, and what a clocked unit does -/

/-- A register write of the host that is a row of its own and takes effect at once is the register's own effect. -/
theorem gives_row {c : Instr} {n b : Nat} {s t : Block} (w : HostRow) (h : takenNow s n b = true)
    (hc : ∀ st : State, exec c st = done st (hostTlp (.row w) st.toBlock)) (hw : rowAt w = (.queue 0, n, b))
    (ht : rowAct w s = t) : Gives c s t :=
  gives_of_done (hostTlp (.row w)) hc ((row_now h w hw).trans ht)

/-- A unit of a module in Run does what it does. -/
theorem gives_inRun {c : Instr} {n : Node} {s t : Block} (f : Block → Block) (h : inRun s n = true)
    (hc : ∀ st : State, exec c st = done st (whenRun n f st.toBlock)) (ht : f s = t) : Gives c s t :=
  gives_of_done (whenRun n f) hc ((if_pos h).trans ht)

section
variable {n : Node} {g : GangIx} {s t : Block}

theorem gives_gangStopWrite (h : takenNow s n 0x3 = true) (ht : gangStopWrite n g s = t) :
    Gives (.gangStopWrite n g) s t := gives_row (.gangStopWrite n g) h (fun _ => rfl) rfl ht

theorem gives_gangEnWrite {en : Bool} (h : takenNow s n 0x3 = true) (ht : gangEnWrite n g en s = t) :
    Gives (.gangEnWrite n g en) s t := gives_row (.gangEnWrite n g en) h (fun _ => rfl) rfl ht

theorem gives_gangResumeWrite (h : takenNow s n 0x3 = true) (ht : resumeGang s n g = t) :
    Gives (.gangResumeWrite n g) s t := gives_row (.gangResumeWrite n g) h (fun _ => rfl) rfl ht

theorem gives_resumeDiscard (h : takenNow s n 0x3 = true) (ht : discardHeld s n g = t) :
    Gives (.resumeDiscard n g) s t := gives_row (.resumeDiscard n g) h (fun _ => rfl) rfl ht

theorem gives_yieldDecision (h : inRun s n = true) (ht : yieldDecision n g s = t) : Gives (.yieldDecision n g) s t :=
  gives_inRun (yieldDecision n g) h (fun _ => rfl) ht

theorem gives_stopComplete (h : inRun s n = true) (ht : stopComplete n g s = t) : Gives (.stopComplete n g) s t :=
  gives_inRun (stopComplete n g) h (fun _ => rfl) ht

theorem gives_gangDrainDone (h : inRun s n = true) (ht : gangDrainDone n g s = t) : Gives (.gangDrainDone n g) s t :=
  gives_inRun (gangDrainDone n g) h (fun _ => rfl) ht

end

/-! ### Stop requests (06 R158, R159) -/

section
variable {n g : Nat} {s : Block}

theorem stopRequest_idle (h : gState s n g = gIdle) (c : StopCause) :
    stopRequest s n g c = enterStopped s n g (joinCause (gang s n g).closing c) 0 := if_pos h

/-- In RUN, with nothing dispatched that has not retired, the stop is over at once. -/
theorem stopRequest_undispatched (h : gState s n g = gRun) (hd : newestStarted (gang s n g) = none) (c : StopCause) :
    stopRequest s n g c = enterStopped (withdraw s n g 0) n g (joinCause (gang s n g).closing c)
      (stopSrc (joinCause (gang s n g).closing c)) := by
  unfold stopRequest
  rw [if_neg (by rw [h]; decide), if_pos h, hd]

/-- Else it waits for the newest op that any tile has dispatched. -/
theorem stopRequest_dispatched {fr : Nat} (h : gState s n g = gRun) (hd : newestStarted (gang s n g) = some fr)
    (c : StopCause) :
    stopRequest s n g c = setGState (withdraw (putGang s n g { gang s n g with
      stop := some (joinCause (gang s n g).closing c), frontier := some fr, finalEnable := false }) n g fr) n g gYielding := by
  unfold stopRequest
  rw [if_neg (by rw [h]; decide), if_pos h, hd]

end

theorem gangStopWrite_accepting {n : Node} {g : GangIx} {s : Block} (h : gState s n g = gIdle ∨ gState s n g = gRun) :
    gangStopWrite n g s = stopRequest s n g .host := if_pos (by simpa using h)

/-! ### The decision on the frontier op (03 R76, R77) -/

/-- The gang yields or drains, and what becomes of its frontier op `m` is still to be decided. -/
structure YieldOpen (s : Block) (n g : Nat) (m : Mop) : Prop where
  state : gState s n g = gYielding ∨ gState s n g = gDraining
  complete : (gang s n g).complete = false
  abandon : (gang s n g).abandon = false
  cmax : (gang s n g).cmax = none
  op : (gang s n g).frontier.bind (findOp (gang s n g)) = some m

/-- The guard of `yieldDecision` lets it decide. -/
theorem YieldOpen.undecided {s : Block} {n g : Nat} {m : Mop} (h : YieldOpen s n g m) :
    ¬ (!(gState s n g == gYielding || gState s n g == gDraining) || (gang s n g).complete || (gang s n g).abandon
      || (gang s n g).cmax.isSome) = true := by
  obtain ⟨hst, hc, ha, hm, -⟩ := h
  rcases hst with hst | hst <;> simp [hst, hc, ha, hm]

section
variable {n : Node} {g : GangIx} {s : Block} {m : Mop}

theorem yieldDecision_completes (h : YieldOpen s n g m) (hm : m.cls = 0 ∨ m.cls = 1 ∧ (m.passed = true ∨ m.doneBy ≠ [])) :
    yieldDecision n g s = putGang s n g { gang s n g with complete := true, finalEnable := true } := by
  unfold yieldDecision
  dsimp only
  rw [if_neg h.undecided, h.op]
  rcases hm with h0 | ⟨h1, hp⟩
  · exact if_pos h0
  · dsimp only
    rw [if_neg (by omega), if_pos h1, if_pos (by simpa using hp)]

theorem yieldDecision_abandons (h : YieldOpen s n g m) (hc : m.cls = 1) (hp : m.passed = false) (hd : m.doneBy = []) :
    yieldDecision n g s = putGang s n g { gang s n g with abandon := true } := by
  unfold yieldDecision
  dsimp only
  rw [if_neg h.undecided, h.op]
  dsimp only
  rw [if_neg (by omega), if_pos hc, if_neg (by simp [hp, hd])]

/-- Every tile has parked or finished a resumable op: it completes if one has finished, and goes on to the highest cursor
otherwise. -/
theorem yieldDecision_resumable (h : YieldOpen s n g m) (hc : 1 < m.cls)
    (hall : ((gangTiles s n g).all fun tk => m.doneBy.contains tk || (m.parkedAt.any fun p => p.1 == tk)) = true) :
    yieldDecision n g s =
      if m.doneBy.isEmpty then
        let c := m.parkedAt.foldl (fun c p => max c p.2) 0
        unpark (putGang s n g { gang s n g with cmax := some c }) (gangTiles s n g) m.num (some c)
      else unpark (putGang s n g { gang s n g with complete := true }) (gangTiles s n g) m.num none := by
  unfold yieldDecision
  dsimp only
  rw [if_neg h.undecided, h.op]
  dsimp only
  rw [if_neg (by omega), if_neg (by omega), if_pos hall]

end

/-! ### The end of a stop (06 R159, R163) -/

/-- The gang once its stop has ended; an abort discards what is held and queued. -/
def stopEnded (b : Block) (n g : Nat) (c : StopCause) : Block :=
  let b := enterStopped b n g c (stopSrc c)
  if c = .abort then discardAll b n g else b

section
variable {n : Node} {g : GangIx} {s : Block} {c : StopCause} {fr : Nat}

/-- The ops up to the frontier have retired. -/
theorem stopComplete_retired (hs : (gang s n g).stop = some c) (hf : (gang s n g).frontier = some fr)
    (hst : gState s n g = gYielding)
    (hfl : (gang s n g).flight = [] ∨ ∃ m rest, (gang s n g).flight = m :: rest ∧ fr < m.num) :
    stopComplete n g s = stopEnded s n g (joinCause (gang s n g).closing c) := by
  unfold stopComplete
  dsimp only
  rw [hs, hf]
  dsimp only
  rw [if_neg (Decidable.not_not.mpr hst)]
  rcases hfl with h | ⟨m, rest, h, hm⟩
  · rw [h]
    rfl
  · rw [h]
    exact if_pos hm

/-- The frontier op rests: the tiles let go of it, and it is held. -/
theorem stopComplete_rests {m : Mop} {rest : List Mop} {kind cur : Nat} (hs : (gang s n g).stop = some c)
    (hf : (gang s n g).frontier = some fr) (hst : gState s n g = gYielding) (hfl : (gang s n g).flight = m :: rest)
    (hm : m.num = fr) (hr : restKind s (gang s n g) (gangTiles s n g) m = some (kind, cur)) :
    let b := letGo s (gangTiles s n g) fr kind
    let b := if mopCroaks (mopFields m.word) then b else gatherFlags b n g (if kind = 2 then m.flags else {})
    let held := { freshOp m cur with
      gave := if kind = 2 then m.gave.join m.flags else m.gave, kept := opLatches b (gkey n g) fr }
    let b := holdResume (putGang (releaseSlots b (gkey n g) fr) n g { gang s n g with flight := held :: rest }) n g held kind cur
    stopComplete n g s = stopEnded b n g (joinCause (gang s n g).closing c) := by
  unfold stopComplete
  dsimp only
  rw [hs, hf]
  dsimp only
  rw [if_neg (Decidable.not_not.mpr hst), hfl]
  dsimp only
  rw [if_neg (by omega), if_pos hm, hr]
  rfl

end

/-! ### Draining (06 R162) -/

/-- The gang in OFF once it has drained, its ACU told. -/
def drainEnded (b : Block) (n g : Nat) : Block :=
  irqAcu (setGState (putGang b n g (clearYield (gang b n g))) n g gOff) n g cGangStopped

section
variable {n : Node} {g : GangIx} {s : Block}

theorem gangDrainDone_empty (hst : gState s n g = gDraining) (hfl : (gang s n g).flight = []) :
    gangDrainDone n g s = drainEnded s n g := by
  unfold gangDrainDone
  dsimp only
  rw [if_neg (Decidable.not_not.mpr hst), hfl]
  rfl

/-- The last op in flight rests: the tiles let go of it, and it ends without retiring. -/
theorem gangDrainDone_rests {m : Mop} {kind cur : Nat} (hst : gState s n g = gDraining) (hfl : (gang s n g).flight = [m])
    (hr : restKind s (gang s n g) (gangTiles s n g) m = some (kind, cur)) :
    let b := letGo s (gangTiles s n g) m.num kind
    let b := releaseSlots (if kind = 2 then gatherFlags b n g m.flags else b) (gkey n g) m.num
    gangDrainDone n g s = drainEnded (putGang b n g (addLost { gang s n g with flight := [] } [m.num])) n g := by
  unfold gangDrainDone
  dsimp only
  rw [if_neg (Decidable.not_not.mpr hst), hfl]
  dsimp only
  rw [hr]
  rfl

end

section
variable {n g : Nat} {s : Block}

theorem startDrain_inactive (h : gState s n g = gOff ∨ gState s n g = gDraining) :
    startDrain s n g = putGang s n g { gang s n g with crkQueue := [] } := if_pos (by simpa using h)

/-- A gang that accepts: what no tile has dispatched is discarded, and the gate is closed where something was dispatched. -/
theorem startDrain_accepting (h : gState s n g = gIdle ∨ gState s n g = gRun) :
    let gone := ((gang s n g).flight.filter fun m => !m.started).map (·.num)
    let fr := newestStarted (gang s n g)
    let b := gone.foldl (fun b k => releaseSlots (dropFromTiles b (gangTiles s n g) k .idle) (gkey n g) k) s
    let b := putGang b n g (endProgram (addLost { gang s n g with
      flight := (gang s n g).flight.filter (·.started), stop := none, closing := none, crkQueue := [], frontier := fr,
      finalEnable := fr.isNone } gone) 0x03 0)
    startDrain s n g = fput (setGState (clearResume b n g) n g gDraining) n F.MILL_GANG_CTRL_EN g 0 := by
  have hin : ¬ (gState s n g = gOff || gState s n g = gDraining) = true := by rcases h with h | h <;> rw [h] <;> decide
  have hy : gState s n g ≠ gYielding := by rcases h with h | h <;> rw [h] <;> decide
  have hs : gState s n g ≠ gStopped := by rcases h with h | h <;> rw [h] <;> decide
  unfold startDrain
  dsimp only
  rw [if_neg hin, if_neg hy, if_neg hs]

/-! ### Starting, resuming and discarding (06 R158, R160, 04 R119) -/

/-- A gang that no GANG_RUN program occupies starts in IDLE. -/
theorem gangEnable_starts (hst : gState s n g = gOff) (hg : gangFormed s n g = true) (hl : l4Open s n = false)
    (hp : (gang s n g).program = none) :
    gangEnable s n g = fput (setGState (rput (putGang s n g
      { gang s n g with accepted := 0, lost := [], verdict := none, program := none }) n .MILL_RETIRED g 0) n g gIdle)
      n F.MILL_GANG_CTRL_EN g 1 := by
  unfold gangEnable
  dsimp only
  rw [if_neg (by simp [hl]), if_neg (Decidable.not_not.mpr hst), if_neg (by simp [hg]), hp]

theorem gangEnable_rejected (h : l4Open s n = true ∨ gState s n g = gOff ∧ gangFormed s n g = false) :
    gangEnable s n g = millReject s n := by
  unfold gangEnable
  rcases h with hl | ⟨hst, hg⟩
  · exact if_pos hl
  · have hf : (!gangFormed s n g) = true := by simp [hg]
    rw [if_neg (Decidable.not_not.mpr hst), if_pos hf]
    exact ite_self _

theorem resumeGang_stopped (h : gState s n g = gStopped) :
    let b := fput (clearResume s n g) n F.MILL_GANG_STATUS_CAUSE g 0
    resumeGang s n g = setGState b n g (if (gang b n g).flight.isEmpty then gIdle else gRun) := if_pos h

theorem resumeGang_rejected (h : gState s n g ≠ gStopped) : resumeGang s n g = millReject s n := if_neg h

theorem discardHeld_held {m : Mop} {rest : List Mop} (h : gState s n g = gStopped)
    (hv : fbit s n F.MILL_RESUME_CTRL_VALID g = true) (hfl : (gang s n g).flight = m :: rest) :
    discardHeld s n g = clearResume (putGang s n g (addLost { gang s n g with flight := rest } [m.num])) n g := by
  unfold discardHeld
  rw [if_pos h, if_pos hv, hfl]

theorem discardHeld_rejected (h : gState s n g ≠ gStopped) : discardHeld s n g = millReject s n := if_neg h

end

/-! ### The obligation -/

/-- Settles O6: each clause is the command's own case of the operation it stands for. -/
theorem gangStopsAndResumes : Obligations.GangStopsAndResumes := by
  unfold Obligations.GangStopsAndResumes
  refine ⟨?stopIdle, ?stopUndispatched, ?stopDispatched, ?completes, ?abandons, ?resumable, ?retired, ?rests, ?drained,
    ?lastRests, ?starts, ?enRejected, fun n g s ht => gives_gangEnWrite ht rfl, fun n g s => startDrain_inactive,
    fun n g s => startDrain_accepting, ?resumes, ?rejected, ?discards⟩
  case stopIdle =>
    exact fun n g s ht h => gives_gangStopWrite ht ((gangStopWrite_accepting (.inl h)).trans (stopRequest_idle h _))
  case stopUndispatched =>
    exact fun n g s ht h hd =>
      gives_gangStopWrite ht ((gangStopWrite_accepting (.inr h)).trans (stopRequest_undispatched h hd _))
  case stopDispatched =>
    exact fun n g s fr ht h hd =>
      gives_gangStopWrite ht ((gangStopWrite_accepting (.inr h)).trans (stopRequest_dispatched h hd _))
  case completes =>
    exact fun n g s m hn hst hc ha hx hf hm =>
      gives_yieldDecision hn (yieldDecision_completes ⟨hst, hc, ha, hx, hf⟩ hm)
  case abandons =>
    exact fun n g s m hn hst hc ha hx hf hm hp hd =>
      gives_yieldDecision hn (yieldDecision_abandons ⟨hst, hc, ha, hx, hf⟩ hm hp hd)
  case resumable =>
    exact fun n g s m hn hst hc ha hx hf hm hall =>
      gives_yieldDecision hn (yieldDecision_resumable ⟨hst, hc, ha, hx, hf⟩ hm hall)
  case retired =>
    exact fun n g s c fr hn hs hf hst hfl hc =>
      gives_stopComplete hn ((stopComplete_retired hs hf hst hfl).trans (if_neg hc))
  case rests =>
    exact fun n g s c fr m rest kind cur hn hs hf hst hfl hm hr =>
      gives_stopComplete hn (stopComplete_rests hs hf hst hfl hm hr)
  case drained => exact fun n g s hn hst hfl => gives_gangDrainDone hn (gangDrainDone_empty hst hfl)
  case lastRests =>
    exact fun n g s m kind cur hn hst hfl hr => gives_gangDrainDone hn (gangDrainDone_rests hst hfl hr)
  case starts => exact fun n g s ht hst hg hl hp => gives_gangEnWrite ht (gangEnable_starts hst hg hl hp)
  case enRejected => exact fun n g s ht h => gives_gangEnWrite ht (gangEnable_rejected h)
  case resumes => exact fun n g s ht h => gives_gangResumeWrite ht (resumeGang_stopped h)
  case rejected =>
    exact fun n g s ht h =>
      ⟨gives_gangResumeWrite ht (resumeGang_rejected h), gives_resumeDiscard ht (discardHeld_rejected h)⟩
  case discards => exact fun n g s m rest ht h hv hfl => gives_resumeDiscard ht (discardHeld_held h hv hfl)

end Sys2Proof.Machine
end

section
/-! The fields of a macro-op word, laid one after another from bit 0 up (04 R91). -/

namespace Sys2Proof.Machine

/-! ### Fields side by side -/

/-- Values laid side by side from bit 0 up, each cut to its width. -/
def layFields : List Nat → List Nat → Nat
  | k :: ks, v :: vs => v % 2 ^ k + 2 ^ k * layFields ks vs
  | _, _ => 0

/-- The fields of a number, of the widths given, from bit 0 up. -/
def readFields : List Nat → Nat → List Nat
  | [], _ => []
  | k :: ks, w => w % 2 ^ k :: readFields ks (w / 2 ^ k)

theorem layFields_readFields (ks : List Nat) (w : Nat) : layFields ks (readFields ks w) = w % 2 ^ ks.sum := by
  induction ks generalizing w with
  | nil => simp [layFields, Nat.mod_one]
  | cons k ks ih => rw [readFields, layFields, ih, Nat.mod_mod, List.sum_cons, Nat.pow_add, Nat.mod_mul]

theorem readFields_layFields {ks vs : List Nat} (h : ks.length = vs.length) :
    readFields ks (layFields ks vs) = ks.zipWith (fun k v => v % 2 ^ k) vs := by
  induction ks generalizing vs with
  | nil => rfl
  | cons k ks ih =>
    cases vs with
    | nil => contradiction
    | cons v vs =>
      have hlt : v % 2 ^ k < 2 ^ k := Nat.mod_lt v (Nat.two_pow_pos k)
      rw [layFields, readFields, Nat.add_mul_mod_self_left, Nat.mod_mod, Nat.add_mul_div_left _ _ (Nat.two_pow_pos k),
        Nat.div_eq_of_lt hlt, Nat.zero_add, ih (Nat.succ.inj h), List.zipWith_cons_cons]

theorem layFields_lt (ks vs : List Nat) : layFields ks vs < 2 ^ ks.sum := by
  induction ks generalizing vs with
  | nil => exact Nat.one_pos
  | cons k ks ih =>
    cases vs with
    | nil => exact Nat.two_pow_pos _
    | cons v vs =>
      calc v % 2 ^ k + 2 ^ k * layFields ks vs
          < 2 ^ k + 2 ^ k * layFields ks vs := Nat.add_lt_add_right (Nat.mod_lt _ (Nat.two_pow_pos k)) _
        _ = 2 ^ k * (layFields ks vs + 1) := by rw [Nat.mul_succ, Nat.add_comm]
        _ ≤ 2 ^ k * 2 ^ ks.sum := Nat.mul_le_mul_left _ (ih vs)
        _ = 2 ^ (k :: ks).sum := by rw [List.sum_cons, Nat.pow_add]

/-! ### The macro-op word (04 R91) -/

/-- The widths of the fields of a macro-op word, from bit 0 up. -/
def mopWidths : List Nat := [8, 3, 3, 2, 16, 11, 6, 11, 6, 11, 6, 11, 2, 16, 16]

/-- The fields of a macro-op word in the order of their bits. -/
def MopF.toList (f : MopF) : List Nat :=
  [f.opc, f.msel, f.rnd, f.fupd, f.fmt, f.base0, f.wid0, f.base1, f.wid1, f.base2, f.wid2, f.maddr, f.rsvd, f.prm, f.cnt]

theorem MopF.toList_injective : Function.Injective MopF.toList := by
  rintro ⟨⟩ ⟨⟩ h
  simpa [MopF.toList] using h

theorem toList_mopFields (w : BitVec 128) : (mopFields w).toList = readFields mopWidths w.toNat := by
  simp [MopF.toList, mopFields, bitsOf, mopWidths, readFields, Nat.div_div_eq_div_mul]

theorem mopWord_eq_layFields (f : MopF) : mopWord f = BitVec.ofNat 128 (layFields mopWidths f.toList) := by
  refine congrArg (BitVec.ofNat 128) ?_
  simp only [MopF.toList, mopWidths, layFields, Nat.mul_add, ← Nat.mul_assoc, ← Nat.pow_add]
  omega

/-! ### The obligation -/

/-- Settles O51: a word is its fields side by side, which is undone field by field. -/
theorem macroOpWordsRoundTrip : Obligations.MacroOpWordsRoundTrip := by
  unfold Obligations.MacroOpWordsRoundTrip
  refine ⟨fun w => ?word, fun f _ _ _ _ _ _ _ _ _ _ _ _ _ _ _ => ?fields⟩
  case word =>
    have hw : w.toNat < 2 ^ mopWidths.sum := w.isLt
    rw [mopWord_eq_layFields, toList_mopFields, layFields_readFields, Nat.mod_eq_of_lt hw, BitVec.ofNat_toNat,
      BitVec.setWidth_eq]
  case fields =>
    have hfit : mopWidths.zipWith (fun k v => v % 2 ^ k) f.toList = f.toList := by
      simp only [mopWidths, MopF.toList, List.zipWith_cons_cons, List.zipWith_nil_left, Nat.mod_eq_of_lt, *]
    have hlen : mopWidths.length = f.toList.length := rfl
    have hlt : layFields mopWidths f.toList < 2 ^ 128 := layFields_lt mopWidths f.toList
    apply MopF.toList_injective
    rw [toList_mopFields, mopWord_eq_layFields, BitVec.toNat_ofNat, Nat.mod_eq_of_lt hlt, readFields_layFields hlen,
      hfit]

end Sys2Proof.Machine
end

section
/-! Elements in the planes, bit by bit down the columns (04 R91, R93), and the array's floating-point ops, which write
them (04 R106, R112). -/

namespace Sys2Proof.Machine

/-! ### Rows of bits and column values -/

/-- A number built bit by bit from a list, its head lowest, has at bit `j` the bit of item `j`. -/
theorem testBit_foldr_b2n {α : Type} (bit : α → Bool) (l : List α) (j : Nat) :
    (l.foldr (fun x acc => 2 * acc + b2n (bit x)) 0).testBit j = (l[j]?.map bit).getD false := by
  induction l generalizing j with
  | nil => simp
  | cons x l ih =>
    cases j with
    | zero => cases h : bit x <;> simp [b2n, h]
    | succ j =>
      have hdiv (n : Nat) : (2 * n + b2n (bit x)) / 2 = n := by
        unfold b2n
        split <;> omega
      rw [List.foldr_cons, Nat.testBit_succ, hdiv, ih, List.getElem?_cons_succ]

theorem testBit_colVal (ws : List DWord) (c i : Nat) :
    (colVal ws c).testBit i = (ws[i]?.map (·.getLsbD c)).getD false := testBit_foldr_b2n _ ws i

theorem getLsbD_packWord (vals : List Nat) {c : Nat} (hc : c < 64) (i : Nat) :
    (packWord vals i).getLsbD c = (vals.getD c 0).testBit i := by
  rw [packWord, BitVec.getLsbD_ofNat, testBit_foldr_b2n, List.getD_eq_getElem?_getD]
  cases vals[c]? <;> simp [hc]

/-! ### The obligations -/

/-- Settles O52: bit `i` of column `c` is bit `c` of row `i`, which is bit `i` of value `c`; there are `w` rows. -/
theorem rowsHoldTheirElements : Obligations.RowsHoldTheirElements := by
  unfold Obligations.RowsHoldTheirElements
  intro vals w c _ hc
  apply Nat.eq_of_testBit_eq
  intro i
  rw [testBit_colVal, Nat.testBit_mod_two_pow, List.getElem?_map]
  by_cases hi : i < w
  · simp [hi, getLsbD_packWord vals hc]
  · simp [hi]

/-- Settles O40: each command is `runOp` of its opcode with FL = 1 and the function of its op, as the integer ops. -/
theorem arrayFloatOpsRun : Obligations.ArrayFloatOpsRun := by
  unfold Obligations.ArrayFloatOpsRun
  and_intros <;> exact runsOp_of_exec fun _ _ _ => rfl

end Sys2Proof.Machine
end

section
/-! The array's integer results, wrapped to the width of operand 0 and marked by V (05 R123, R124), and the special values
and invalid operations of its floating point (05 R128-R130, R135). -/

namespace Sys2Proof.Machine

/-! ### Stored integers and wrapping (05 R123, R124) -/

theorem wrapTo_cast (w : Nat) (v : Int) : (wrapTo w v : Int) = v % ((2 ^ w : Nat) : Int) :=
  Int.toNat_of_nonneg (Int.emod_nonneg _ (Int.natCast_ne_zero.mpr (Nat.ne_of_gt (Nat.two_pow_pos w))))

theorem wrapTo_lt (w : Nat) (v : Int) : wrapTo w v < 2 ^ w := by
  have h : v % ((2 ^ w : Nat) : Int) < ((2 ^ w : Nat) : Int) :=
    Int.emod_lt_of_pos v (Int.natCast_pos.mpr (Nat.two_pow_pos w))
  rw [← wrapTo_cast] at h
  exact Int.ofNat_lt.mp h

/-- Reading bits as a stored integer keeps them modulo 2^w. -/
theorem stored_emod (signed : Bool) (w bits : Nat) :
    stored signed w bits % ((2 ^ w : Nat) : Int) = bits % ((2 ^ w : Nat) : Int) := by
  have hmod : ((bits % 2 ^ w : Nat) : Int) % ((2 ^ w : Nat) : Int) = bits % ((2 ^ w : Nat) : Int) := by
    rw [Int.natCast_emod, Int.emod_emod]
  unfold stored signedOf
  split
  · split
    · exact hmod
    · exact (Int.sub_emod_right _ _).trans hmod
  · exact hmod

theorem stored_wrapTo_emod (signed : Bool) (w : Nat) (v : Int) :
    stored signed w (wrapTo w v) % ((2 ^ w : Nat) : Int) = v % ((2 ^ w : Nat) : Int) := by
  rw [stored_emod, wrapTo_cast, Int.emod_emod]

/-- The bits written stand for the exact value modulo 2^w. -/
theorem dvd_stored_wrapTo_sub (signed : Bool) (w : Nat) (v : Int) :
    ((2 ^ w : Nat) : Int) ∣ stored signed w (wrapTo w v) - v :=
  Int.dvd_of_emod_eq_zero (Int.emod_eq_emod_iff_emod_sub_eq_zero.mp (stored_wrapTo_emod signed w v))

/-- A value that an integer operand of the width can hold. -/
def inIntRange (signed : Bool) (w : Nat) (v : Int) : Prop := (intRange signed w).1 ≤ v ∧ v ≤ (intRange signed w).2

/-- The range of an operand holds 2^w values. -/
theorem intRange_span (signed : Bool) {w : Nat} (hw : 0 < w) :
    (intRange signed w).2 - (intRange signed w).1 + 1 = ((2 ^ w : Nat) : Int) := by
  have h2 : 2 ^ w = 2 ^ (w - 1) * 2 := (Nat.two_pow_pred_mul_two hw).symm
  unfold intRange
  split <;> dsimp only <;> omega

theorem stored_inIntRange (signed : Bool) {w : Nat} (hw : 0 < w) (bits : Nat) :
    inIntRange signed w (stored signed w bits) := by
  have h2 : 2 ^ w = 2 ^ (w - 1) * 2 := (Nat.two_pow_pred_mul_two hw).symm
  have hlt : bits % 2 ^ w < 2 ^ w := Nat.mod_lt _ (Nat.two_pow_pos w)
  unfold inIntRange intRange stored signedOf
  generalize bits % 2 ^ w = b at hlt
  cases signed
  · simp only [Bool.false_eq_true, if_false]
    omega
  · simp only [if_true]
    split <;> omega

/-- Two values of one range that agree modulo 2^w are equal. -/
theorem eq_of_dvd_sub_of_inIntRange {signed : Bool} {w : Nat} (hw : 0 < w) {u v : Int} (hu : inIntRange signed w u)
    (hv : inIntRange signed w v) (h : ((2 ^ w : Nat) : Int) ∣ u - v) : u = v := by
  obtain ⟨hu1, hu2⟩ := hu
  obtain ⟨hv1, hv2⟩ := hv
  have hspan := intRange_span signed hw
  have hlt : (u - v).natAbs < ((2 ^ w : Nat) : Int).natAbs := by omega
  exact Int.sub_eq_zero.mp (Int.eq_zero_of_dvd_of_natAbs_lt_natAbs h hlt)

/-- Wrapping keeps the value exactly within the range. -/
theorem stored_wrapTo_eq_iff (signed : Bool) {w : Nat} (hw : 0 < w) (v : Int) :
    stored signed w (wrapTo w v) = v ↔ inIntRange signed w v := by
  constructor
  · intro h
    exact h ▸ stored_inIntRange signed hw (wrapTo w v)
  · intro hv
    exact eq_of_dvd_sub_of_inIntRange hw (stored_inIntRange signed hw _) hv (dvd_stored_wrapTo_sub signed w v)

theorem intResult_v_eq_false_iff (signed : Bool) (w : Nat) (v : Int) :
    (intResult signed w v).flags.v = false ↔ stored signed w (wrapTo w v) = v := by
  simp [intResult]

/-- Settles O53: the stored integer of the bits written is the one value of the operand's range, which holds 2^w values, that
equals the exact value modulo 2^w. -/
theorem integerResultsWrapAndFlag : Obligations.IntegerResultsWrapAndFlag := by
  unfold Obligations.IntegerResultsWrapAndFlag
  intro signed w v hw
  exact ⟨wrapTo_lt w v, dvd_stored_wrapTo_sub signed w v,
    (intResult_v_eq_false_iff signed w v).trans (stored_wrapTo_eq_iff signed hw v),
    fun hlo hhi => (stored_wrapTo_eq_iff signed hw v).mpr ⟨hlo, hhi⟩⟩

/-! ### Floating-point operands that are not numbers, and invalid operations (05 R130) -/

section
variable {t : Fmt} {mode : RMode} {ftz : Bool} {a b : Nat} {sa sb : Bool} {ma : Nat} {xa xb : Int}

/-- A NaN operand decides the result before any other case of the three operations. -/
theorem float_ops_of_nan (h : ((fval t ftz a).isNan || (fval t ftz b).isNan) = true) :
    let r : FRes := ⟨t.qnan, { iv := (fval t ftz a).isSNan || (fval t ftz b).isSNan }⟩
    fAdd t mode ftz a b = r ∧ fMul t mode ftz a b = r ∧ fDiv t mode ftz a b = r := by
  unfold fAdd fMul fDiv
  generalize fval t ftz a = va at h ⊢
  generalize fval t ftz b = vb at h ⊢
  cases va with
  | nan => exact ⟨rfl, rfl, rfl⟩
  | inf | fin =>
    cases vb with
    | nan => exact ⟨rfl, rfl, rfl⟩
    | inf | fin => exact absurd h Bool.false_ne_true

theorem fAdd_inf_opposite (ha : fval t ftz a = .inf sa) (hb : fval t ftz b = .inf (!sa)) :
    fAdd t mode ftz a b = invalidNan t := by
  unfold fAdd
  rw [ha, hb]
  exact if_neg (by simp)

theorem fMul_inf_zero (ha : fval t ftz a = .inf sa) (hb : fval t ftz b = .fin sb 0 xb) :
    fMul t mode ftz a b = invalidNan t := by
  unfold fMul
  rw [ha, hb]
  rfl

theorem fMul_zero_inf (ha : fval t ftz a = .fin sa 0 xa) (hb : fval t ftz b = .inf sb) :
    fMul t mode ftz a b = invalidNan t := by
  unfold fMul
  rw [ha, hb]
  rfl

theorem fDiv_inf_inf (ha : fval t ftz a = .inf sa) (hb : fval t ftz b = .inf sb) :
    fDiv t mode ftz a b = invalidNan t := by
  unfold fDiv
  rw [ha, hb]

/-- Zero over zero is invalid; any other number over zero is an infinity with DZ. -/
theorem fDiv_by_zero (ha : fval t ftz a = .fin sa ma xa) (hb : fval t ftz b = .fin sb 0 xb) :
    fDiv t mode ftz a b = if ma = 0 then invalidNan t else ⟨t.inf (sa != sb), { dz := true }⟩ := by
  unfold fDiv
  rw [ha, hb]
  rfl

theorem fSqrt_negative (ha : fval t ftz a = .fin true ma xa) (hm : ma ≠ 0) : fSqrt t mode ftz a = invalidNan t := by
  unfold fSqrt
  rw [ha]
  exact (if_neg hm).trans (if_pos rfl)

end

/-- Settles O54: each clause is the case of its operation for the operands' classes. -/
theorem floatSpecialValues : Obligations.FloatSpecialValues := by
  unfold Obligations.FloatSpecialValues
  intro t mode ftz a b
  exact ⟨float_ops_of_nan,
    fun _ => fAdd_inf_opposite,
    fun _ _ _ ha hb => ⟨fMul_inf_zero ha hb, fMul_zero_inf hb ha⟩,
    fun _ _ => fDiv_inf_inf,
    fun _ _ _ _ ha hb => (fDiv_by_zero ha hb).trans (if_pos rfl),
    fun _ _ _ _ _ ha hm hb => (fDiv_by_zero ha hb).trans (if_neg hm),
    fun _ _ => fSqrt_negative⟩

end Sys2Proof.Machine
end

section
/-! The commands on gangs, tasks, streams, drive outputs, epochs and snapshots, taken and not begun (14 R332, R338, R339). -/

namespace Sys2Proof.Machine

/-! ### Whose work an opcode's row runs (14 R332) -/

section
variable {op : Nat} {act : CmdFl → Block → Block} {s t : Block} {f : CmdFl}

/-- A row of the command that is next does that command's work. -/
theorem runCmd_next (hn : nextCmd s = some f) (hop : f.op = op) : runCmd op act s = act f s := by
  unfold runCmd
  rw [hn]
  exact if_pos hop

/-- On a node in Run, Idle or Furl the command's work is done. -/
theorem runNode_next (hn : nextCmd s = some f) (hop : f.op = op) (hoff : (pow s f.node).off = false)
    (hp : pState s f.node < 3) : runNode op act s = act f s := by
  have hup : ¬ ((pow s f.node).off || decide (3 ≤ pState s f.node)) = true := by simp [hoff, hp]
  exact (runCmd_next hn hop).trans (if_neg hup)

theorem gives_runCmd {c : Instr} (hc : ∀ st : State, exec c st = done st (runCmd op act st.toBlock))
    (hn : nextCmd s = some f) (hop : f.op = op) (ht : act f s = t) : Gives c s t :=
  gives_of_done (runCmd op act) hc ((runCmd_next hn hop).trans ht)

theorem gives_runNode {c : Instr} (hc : ∀ st : State, exec c st = done st (runNode op act st.toBlock))
    (hn : nextCmd s = some f) (hop : f.op = op) (hoff : (pow s f.node).off = false) (hp : pState s f.node < 3)
    (ht : act f s = t) : Gives c s t :=
  gives_of_done (runNode op act) hc ((runNode_next hn hop hoff hp).trans ht)

end

/-! ### When GANG_RUN is held back (14 R339) -/

/-- GANG_RUN is held back exactly when one of its four conditions fails. -/
theorem gangRun_busy_iff {s : Block} {n g k : Nat} :
    (gState s n g ≠ gOff || !gangFormed s n g || taskState s n g k ≠ 0 || l4Open s n) = true ↔
      ¬ (gState s n g = gOff ∧ gangFormed s n g = true ∧ taskState s n g k = 0 ∧ l4Open s n = false) := by
  simp only [Bool.or_eq_true, decide_eq_true_eq, Bool.not_eq_true', ← Bool.not_eq_true, Classical.not_and_iff_not_or_not,
    Classical.not_not, or_assoc]

/-! ### The obligation -/

/-- Settles O36: each command is next and its node serves, so its row does its work; GANG_RUN, GANG_RESUME and TASK_START
test for BUSY first, where the statement tests for the work. -/
theorem commandsOnGangsTasksAndOutputs : Obligations.CommandsOnGangsTasksAndOutputs := by
  unfold Obligations.CommandsOnGangsTasksAndOutputs
  refine ⟨?gangRun, ?gangStop, ?gangResume, ?gangDisable, ?taskStart, ?taskStop, ?streamCtrl, ?driveMute, ?driveUnmute,
    ?epochCommit, ?epochStage, ?snapshot⟩
  case gangRun =>
    exact fun s f hn hop hoff hp => gives_runNode (fun _ => rfl) hn hop hoff hp
      ((ite_congr (propext gangRun_busy_iff) (fun _ => rfl) (fun _ => rfl)).trans (ite_not _ _ _))
  case gangResume | taskStart =>
    exact fun s f hn hop hoff hp => gives_runNode (fun _ => rfl) hn hop hoff hp (ite_not _ _ _)
  case gangStop | gangDisable | taskStop | streamCtrl | driveMute | driveUnmute | snapshot =>
    exact fun s f hn hop hoff hp => gives_runNode (fun _ => rfl) hn hop hoff hp rfl
  case epochCommit | epochStage =>
    exact fun s f hn hop => gives_runCmd (fun _ => rfl) hn hop rfl

end Sys2Proof.Machine
end

section
/-! What the instruction at a task's PC does to the task: the integer, floating-point and control instructions of an ACU
(08 R167-R201, 09 R206-R224). -/

namespace Sys2Proof.Machine

/-! ### The command of the instruction at the PC -/

/-- The command of instruction `o`, which stands at the task's PC, has the effect of the word there. -/
theorem gives_atInstr {c : Instr} {o : AOp} {way : BusWay} {n : Node} {a : AcuIx} {k : TaskIx} {s b t : Block} {w : Word}
    (hc : ∀ st : State, exec c st = done st (acuStep o n a k way st.toBlock)) (h : AtInstr s n a k o w b)
    (ht : acuRun o w way b n a k = t) : Gives c s t :=
  gives_of_done (acuStep o n a k way) hc ((acuStep_at way h).trans ht)

/-- The command of an instruction other than a load executes it. -/
theorem executes_of_acuRun {c : Node → AcuIx → TaskIx → Instr} {o : AOp}
    {act : Word → Block → Nat → Nat → Nat → Block}
    (hc : ∀ (n : Node) (a : AcuIx) (k : TaskIx) (st : State),
      exec (c n a k) st = done st (acuStep o n a k .served st.toBlock))
    (hr : ∀ (w : Word) (b : Block) (n a k : Nat), acuRun o w .served b n a k = act w b n a k) : Executes c o act :=
  fun n a k _ w b h => gives_atInstr (hc n a k) h (hr w b n a k)

/-! ### Products (08 R172) -/

/-- A product is written at once, or joins those still to be written, in the task that has committed. -/
theorem mulEnd_eq_putTask (s : Block) (n a k p : Nat) : mulEnd s n a k p =
    putTask (commit s n a k) (taskKey n a k)
      (if fbit (commit s n a k) n F.ACU_CTRL_MDEXP a then
        { task (commit s n a k) (taskKey n a k) with
          products := (task (commit s n a k) (taskKey n a k)).products
            ++ [(3, BitVec.ofNat 32 (p / 2 ^ 32), BitVec.ofNat 32 p)] }
      else
        { task (commit s n a k) (taskKey n a k) with
          mdh := BitVec.ofNat 32 (p / 2 ^ 32), mdl := BitVec.ofNat 32 p }) :=
  (apply_ite (putTask (commit s n a k) (taskKey n a k)) _ _ _).symm

/-! ### The obligations -/

/-- Settles O43: each command executes its instruction, whose effect is the function of its operation. -/
theorem acuIntegerInstructionsRun : Obligations.AcuIntegerInstructionsRun := by
  unfold Obligations.AcuIntegerInstructionsRun
  iterate 32 refine ⟨executes_of_acuRun (fun _ _ _ _ => rfl) fun _ _ _ _ _ => rfl, ?_⟩
  exact ⟨fun _ _ _ _ _ => rfl, mulEnd_eq_putTask⟩

/-- Settles O44: as the integer instructions; what stays outstanding is what `fpEnd` adds. -/
theorem acuFloatInstructionsRun : Obligations.AcuFloatInstructionsRun := by
  unfold Obligations.AcuFloatInstructionsRun
  iterate 16 refine ⟨executes_of_acuRun (fun _ _ _ _ => rfl) fun _ _ _ _ _ => rfl, ?_⟩
  exact fun _ _ _ _ _ _ _ => rfl

/-- Settles O45: as the integer instructions. -/
theorem acuControlInstructionsRun : Obligations.AcuControlInstructionsRun := by
  unfold Obligations.AcuControlInstructionsRun
  and_intros <;> exact executes_of_acuRun (fun _ _ _ _ => rfl) fun _ _ _ _ _ => rfl

end Sys2Proof.Machine
end

section
/-! What the loads and stores of an ACU do to the task and its store buffer (08 R171, R192, R194, 09 R214). -/

namespace Sys2Proof.Machine

/-! ### Loads (08 R170, R171) -/

section
variable {s t : Block} {n a k : Nat} {w : Word} {way : BusWay}

/-- A load whose address its check serves waits, is refused, or has its bytes as their answers say. -/
theorem loadBytes_checked {addr len : Nat} {plain aligned : Bool}
    (h : accChecks s n a plain aligned ((accParts addr len).map (·.1)) = .ok) :
    let r := loadParts s n a way (accParts addr len)
    loadBytes s n a k addr len plain aligned way =
      if loadHeld s n a k (accParts addr len) then .wait
      else if r.code = rspOk then .ok (ofBytes r.data) r.st else .trap r.st := by
  unfold loadBytes
  dsimp only
  rw [h]

section
variable {len v : Nat} {signed plain : Bool}

theorem runLoad_wait (h : loadBytes s n a k (memAddr s n a k w) len plain (memAddr s n a k w % len == 0) way = .wait) :
    runLoad len signed plain way w s n a k = taskWait s n a k wMem := by
  unfold runLoad
  dsimp only
  rw [h]

theorem runLoad_trap
    (h : loadBytes s n a k (memAddr s n a k w) len plain (memAddr s n a k w % len == 0) way = .trap t) :
    runLoad len signed plain way w s n a k = accessTrap t n a k (memAddr s n a k w) := by
  unfold runLoad
  dsimp only
  rw [h]

theorem runLoad_ok
    (h : loadBytes s n a k (memAddr s n a k w) len plain (memAddr s n a k w % len == 0) way = .ok v t) :
    runLoad len signed plain way w s n a k = loadEnd t n a k
      [(codeSlot t n a k (aRd w), BitVec.ofNat 32 (if signed then wrapTo 32 (signedOf (8 * len) v) else v))] := by
  unfold runLoad
  dsimp only
  rw [h]

end

theorem runLdd_wait (h : loadBytes s n a k (memAddr s n a k w) 8 true (memAddr s n a k w % 8 == 0) way = .wait) :
    runLdd way w s n a k = taskWait s n a k wMem := by
  unfold runLdd
  dsimp only
  rw [h]

theorem runLdd_trap (h : loadBytes s n a k (memAddr s n a k w) 8 true (memAddr s n a k w % 8 == 0) way = .trap t) :
    runLdd way w s n a k = accessTrap t n a k (memAddr s n a k w) := by
  unfold runLdd
  dsimp only
  rw [h]

theorem runLdd_ok {v : Nat} (h : loadBytes s n a k (memAddr s n a k w) 8 true (memAddr s n a k w % 8 == 0) way = .ok v t) :
    runLdd way w s n a k = loadEnd t n a k
      [(codeSlot t n a k (aRd w), BitVec.ofNat 32 v), (codeSlot t n a k (aRd w + 1), BitVec.ofNat 32 (v / 2 ^ 32))] := by
  unfold runLdd
  dsimp only
  rw [h]

/-- LWG at an aligned address that its check serves. -/
theorem runLwg_checked (h8 : memAddr s n a k w % 8 = 0)
    (h : accChecks s n a false true ((groupParts (memAddr s n a k w)).map (·.1)) = .ok) :
    let r := loadParts s n a way (groupParts (memAddr s n a k w))
    runLwg way w s n a k =
      if loadHeld s n a k (groupParts (memAddr s n a k w)) then taskWait s n a k wMem
      else if r.code ≠ rspOk then accessTrap r.st n a k (memAddr s n a k w)
      else loadEnd r.st n a k ((List.range 8).map fun i =>
        (callerSlot s n a k + i, BitVec.ofNat 32 (ofBytes ((r.data.drop (4 * i)).take 4)))) := by
  unfold runLwg
  dsimp only
  rw [if_neg (Decidable.not_not.mpr h8), h]

end

/-! ### Stores (08 R192, R194) -/

/-- No part of a store adds more than one entry: it joins the youngest, or comes behind it. -/
theorem length_sbPush_le (sb : List SbEntry) (k addr : Nat) (be : BitVec 8) (data : DWord) (join tied : Bool) :
    (sbPush sb k addr be data join tied).length ≤ sb.length + 1 := by
  unfold sbPush
  split
  next y old hrev =>
    have hlen : sb.length = old.length + 1 := by rw [← List.length_reverse, hrev, List.length_cons]
    split
    · simp [hlen]
    · simp
  next => simp

/-- The store buffer `sb` with a store of `len` bytes of `v`: one entry, or two tied ones where it crosses a doubleword. -/
def sbStore (sb : List SbEntry) (k addr len v : Nat) : List SbEntry :=
  let room := 8 - addr % 8
  let x := storePart addr len v
  let p := storePart addr room v
  let q := storePart ((addr + room) % 2 ^ 32) (len - room) (v / 256 ^ room)
  if len ≤ room then sbPush sb k x.1 x.2.1 x.2.2 true false
  else sbPush (sbPush sb k p.1 p.2.1 p.2.2 false true) k q.1 q.2.1 q.2.2 false false

/-- The store of task `k` commits with the store buffer `sb`, or waits for room. -/
def sbCommit (s : Block) (n a k : Nat) (sb : List SbEntry) : Block :=
  if 16 < sb.length then taskWait s n a k wStore else commit (putAcu s n a { acu s n a with sb := sb }) n a k

section
variable {s t : Block} {n a k : Nat} {w : Word} {len v : Nat} {plain : Bool}

theorem runStore_stall (h : accChecks s n a plain (memAddr s n a k w % len == 0)
    ((accParts (memAddr s n a k w) len).map (·.1)) = .stall) :
    runStore len v plain w s n a k = taskWait s n a k wMem := by
  unfold runStore
  dsimp only
  rw [h]

theorem runStore_refused (h : accChecks s n a plain (memAddr s n a k w % len == 0)
    ((accParts (memAddr s n a k w) len).map (·.1)) = .refused t) :
    runStore len v plain w s n a k = accessTrap t n a k (memAddr s n a k w) := by
  unfold runStore
  dsimp only
  rw [h]

/-- A store that its check serves enters the store buffer, whole or split. -/
theorem runStore_ok (h : accChecks s n a plain (memAddr s n a k w % len == 0)
    ((accParts (memAddr s n a k w) len).map (·.1)) = .ok) :
    runStore len v plain w s n a k = sbCommit s n a k (sbStore (acu s n a).sb k (memAddr s n a k w) len v) := by
  unfold runStore
  dsimp only
  rw [h]
  unfold accParts sbStore
  dsimp only
  by_cases hroom : len ≤ 8 - memAddr s n a k w % 8
  · rw [if_pos hroom, if_pos hroom]
    rfl
  · rw [if_neg hroom, if_neg hroom]
    rfl

end

/-! ### The obligation -/

/-- Settles O46: each load is `runLoad`, or LDD and LWG, on what its bytes come to; each store is `runStore`, or SWG, on what
its check finds. -/
theorem acuLoadsAndStoresRun : Obligations.AcuLoadsAndStoresRun := by
  unfold Obligations.AcuLoadsAndStoresRun
  refine ⟨?ldb, ?ldbu, ?ldh, ?ldhu, ?ld, ?ldd, ?ldbElse, ?ldbuElse, ?ldhElse, ?ldhuElse, ?ldElse, ?lddElse, ?loadBytes, ?lwg,
    ?loadEnd, ?stb, ?stbElse, ?sth, ?sthElse, ?st, ?stElse, ?std, ?stdElse, ?sbPush, ?swg⟩
  case ldb | ldbu | ldh | ldhu | ld =>
    exact fun n a k way s w b t v hat h => gives_atInstr (fun _ => rfl) hat (runLoad_ok h)
  case ldd =>
    exact fun n a k way s w b t v hat h => gives_atInstr (fun _ => rfl) hat (runLdd_ok h)
  case ldbElse | ldbuElse | ldhElse | ldhuElse | ldElse =>
    exact fun n a k way s w b hat => ⟨fun h => gives_atInstr (fun _ => rfl) hat (runLoad_wait h),
      fun t h => gives_atInstr (fun _ => rfl) hat (runLoad_trap h)⟩
  case lddElse =>
    exact fun n a k way s w b hat => ⟨fun h => gives_atInstr (fun _ => rfl) hat (runLdd_wait h),
      fun t h => gives_atInstr (fun _ => rfl) hat (runLdd_trap h)⟩
  case loadBytes =>
    exact fun b n a k addr len plain aligned way h => loadBytes_checked h
  case lwg =>
    exact fun n a k way s w b hat h8 h => gives_atInstr (fun _ => rfl) hat (runLwg_checked h8 h)
  case loadEnd =>
    exact fun _ _ _ _ _ => rfl
  case stb | sth | st | std =>
    exact fun n a k s w b hat h => gives_atInstr (fun _ => rfl) hat (runStore_ok h)
  case stbElse | sthElse | stElse | stdElse =>
    exact fun n a k s w b hat => ⟨fun h => gives_atInstr (fun _ => rfl) hat (runStore_stall h),
      fun t h => gives_atInstr (fun _ => rfl) hat (runStore_refused h)⟩
  case sbPush =>
    exact length_sbPush_le
  case swg =>
    -- the four doublewords of a group enter one after the other, none of them tied
    exact fun n a k s w b hat => gives_atInstr (fun _ => rfl) hat rfl

end Sys2Proof.Machine
end

section
/-! What happens to the tasks and units of an ACU beside its instructions: divides and late flags, wakes, traps, fetches, the
store buffer, and the writes that start, stop and ring them (08 R170-R202). -/

namespace Sys2Proof.Machine

/-! ### The divider and the floating-point unit (08 R174, R200) -/

theorem divideComplete_some {n : Node} {a : AcuIx} {s : Block} {d : DivSt} (h : (acu s n a).divider = some d) :
    divideComplete n a s =
      let b := putAcu s n a { acu s n a with divider := none }
      let b := putTask b (taskKey n a d.task) { task b (taskKey n a d.task) with mdh := d.rem, mdl := d.quot }
      let b := pswPut b n a d.task F.ACU_TASK_PSW_V (b2n d.v)
      commit (if d.dz then pswPut b n a d.task F.ACU_TASK_PSW_DZ 1 else b) n a d.task := by
  unfold divideComplete
  dsimp only
  rw [h]

theorem fpReport_some {n : Node} {a : AcuIx} {k : TaskIx} {i : Nat} {s : Block} {op : FpOp}
    (h : (task s (taskKey n a k)).fps[i]? = some op) :
    fpReport n a k i s =
      let b := putTask s (taskKey n a k) { task s (taskKey n a k) with fps := dropAt (task s (taskKey n a k)).fps i }
      let b := rput b n .ACU_TASK_FSR (at2 a k) (rget b n .ACU_TASK_FSR (at2 a k) ||| BitVec.ofNat 32 op.flags)
      if Nat.land op.flags (fget b n F.ACU_TASK_FSR_TE (at2 a k)) = 0 || (syncPend b n a k).testBit 0 then b
      else pendSyncSet (putTask b (taskKey n a k) { task b (taskKey n a k) with fpAddr := op.pc }) (taskKey n a k) 0 := by
  unfold fpReport
  dsimp only
  rw [h]

/-! ### Wakes (08 R170, R201) -/

/-- An FBAR that waits commits once no op is outstanding. -/
theorem fbarFirst_waiting {s : Block} {n a k : Nat} (hrun : taskRun s n a k = runWait)
    (hwhy : fget s n F.ACU_TASK_STATUS_WAIT (at2 a k) = wFbar) :
    fbarFirst s n a k = if (task s (taskKey n a k)).fps.isEmpty then commit s n a k else s := by
  unfold fbarFirst
  simp only [hrun, hwhy, decide_true, beq_self_eq_true, Bool.true_and]

theorem taskWake_waiting {n : Node} {a : AcuIx} {k : TaskIx} {s : Block} (hon : taskState s n a k = 2)
    (hrun : taskRun s n a k = runWait) :
    let why := fget s n F.ACU_TASK_STATUS_WAIT (at2 a k)
    taskWake n a k s =
      if why = wMem then if memoryMayWake s n a k then setRun (serve s n a k) n a k runReady 0 else s
      else if why = wFbar then if (task s (taskKey n a k)).fps.isEmpty then commit s n a k else s
      else if taskMayWake s n a k then setRun s n a k runReady 0 else s := by
  unfold taskWake
  dsimp only
  rw [if_pos (by simp [hon, hrun])]
  exact ite_congr rfl (fun _ => rfl) fun _ => ite_congr rfl (fbarFirst_waiting hrun) fun _ => rfl

section
variable {s : Block} {n a k : Nat}

theorem taskMayWake_div (h : fget s n F.ACU_TASK_STATUS_WAIT (at2 a k) = wDiv) :
    taskMayWake s n a k = (acu s n a).divider.isNone := if_pos h

theorem taskMayWake_mill (h : fget s n F.ACU_TASK_STATUS_WAIT (at2 a k) = wMill) :
    taskMayWake s n a k = (gang s n a).presented.isNone := by
  unfold taskMayWake
  dsimp only
  rw [if_neg (by rw [h]; decide), if_pos h]

end

/-! ### Traps and fetches (08 R170, R181, R182) -/

section
variable {o : AOp} {n : Node} {a : AcuIx} {k : TaskIx} {way : BusWay} {s : Block}

theorem trapEntry_taken {c : Nat} (hup : inRun s n = true) (hon : taskState s n a k = 2)
    (hrun : taskRun s n a k = runReady ∨ taskRun s n a k = runWait) (hc : takeable s n a k = some c) :
    trapEntry n a k s =
      let b := abandonInstr (fbarFirst s n a k) n a k
      causeTaken (enterTrap b n a k c (taskPc b n a k) (causeW11 b n a k c)) n a k c := by
  unfold trapEntry
  dsimp only
  rw [if_pos (by simp [hup, hon, hrun]), hc]

/-- A fetch past the instruction cache that has not been served waits for memory. -/
theorem acuGo_unserved {n a k : Nat} (want : AOp → Bool) (hfar : fetchFar s n a (taskPc s n a k) = true)
    (hserved : (task s (taskKey n a k)).served = false) : acuGo want way s n a k = some (taskWait s n a k wMem) := by
  unfold acuGo
  dsimp only
  rw [if_pos (by simp [hfar, hserved])]

/-- With no cause to be taken, what the fetched word does happens. -/
theorem acuStep_of_acuGo {t : Block} (hopen : acuOpen s n a k = true) (hnone : takeable s n a k = none)
    (hgo : acuGo (· == o) way (noteSelected s n a k) n a k = some t) : acuStep o n a k way s = t := by
  unfold acuStep
  rw [if_pos hopen, hgo, hnone]
  rfl

/-- With a cause to be taken, only what enters the trap window happens. -/
theorem acuStep_of_takeable {c : Nat} (hopen : acuOpen s n a k = true) (hc : takeable s n a k = some c) :
    acuStep o n a k way s = (match acuGo (· == o) way (noteSelected s n a k) n a k with
      | some t => if pswF t n a k F.ACU_TASK_PSW_TW == 1 then t else s
      | none => s) := by
  unfold acuStep
  rw [if_pos hopen, hc]
  rfl

end

/-! ### The store buffer (08 R192, R194) -/

section
variable {n : Node} {a : AcuIx} {s : Block} {e f : SbEntry} {rest : List SbEntry}

theorem storeDrain_whole (way : BusWay) (hsb : (acu s n a).sb = e :: rest) (he : e.tied = false) :
    storeDrain n a way s = drainEntry way (putAcu s n a { acu s n a with sb := rest }) n a e := by
  have htake : drainTake (acu s n a).sb = ([e], rest) := by simp [hsb, drainTake, he]
  unfold storeDrain
  rw [htake]
  rfl

/-- The second half of a split store is served. -/
theorem storeDrain_split (way : BusWay) (hsb : (acu s n a).sb = e :: f :: rest) (he : e.tied = true) (hf : f.tied = false) :
    storeDrain n a way s =
      drainEntry .served (drainEntry way (putAcu s n a { acu s n a with sb := rest }) n a e) n a f := by
  have htake : drainTake (acu s n a).sb = ([e, f], rest) := by simp [hsb, drainTake, he, hf]
  unfold storeDrain
  rw [htake]
  rfl

end

/-- An access that leaves the ACU goes over the networks. -/
theorem acuNet_of_leaves {s : Block} {n a addr : Nat} (h : leavesAcu s n a addr = true) (way : BusWay) (ones : List (BitVec 8))
    (act : Block → MemAns) : acuNet s n a addr way ones act = overNet1 s n way ones (acuTimedOut n a addr) act := if_pos h

/-! ### The RAM test, and EN (08 R198, R202) -/

theorem ramTestWindow_tested {n : Node} {a : AcuIx} {s : Block} (fails : Bool) (h : fget s n F.ACU_RAM_TEST_STATE a = 2) :
    let c := fget s n F.ACU_RAM_TEST_CURSOR a
    ramTestWindow n a fails false s =
      fput (if fails then raise s n SRC.ACU_RAM_TEST_FAIL (a.val * 64) c else s) n F.ACU_RAM_TEST_CURSOR a ((c + 1) % 2048) :=
  if_pos (by simp [h])

theorem ramTestWindow_yielded (n : Node) (a : AcuIx) (fails : Bool) (s : Block) : ramTestWindow n a fails true s = s :=
  if_neg (by simp)

theorem taskDrainDone_drained {n : Node} {a : AcuIx} {k : TaskIx} {s : Block} (hst : taskState s n a k = 1)
    (hd : taskDrained s n a k = true) :
    taskDrainDone n a k s = setRun (fput s n F.ACU_TASK_CTRL_STATE (at2 a k) 0) n a k runOff 0 :=
  if_pos (by simp [hst, hd])

/-! ### The obligation -/

/-- Settles O47: each clause is the command's own case of the operation it stands for. -/
theorem acuTasksTrapsAndUnits : Obligations.AcuTasksTrapsAndUnits := by
  unfold Obligations.AcuTasksTrapsAndUnits
  refine ⟨?divide, ?report, ?wake, ?trapEntry, ?enterTrap, ?illegal, ?farFetch, ?causeFirst, ?drain, ?drainSplit, ?drainEntry,
    ?net, ?ramTest, ?start, ?stop, ?drained, ?doorbells⟩
  case divide =>
    exact fun n a s d h => gives_of_done (divideComplete n a) (fun _ => rfl) (divideComplete_some h)
  case report =>
    exact fun n a k i s op h => gives_of_done (fpReport n a k i) (fun _ => rfl) (fpReport_some h)
  case wake =>
    exact fun n a k s hon hrun => ⟨gives_of_done (taskWake n a k) (fun _ => rfl) (taskWake_waiting hon hrun),
      taskMayWake_div, taskMayWake_mill⟩
  case trapEntry =>
    exact fun n a k s c hup hon hrun hc =>
      gives_of_done (trapEntry n a k) (fun _ => rfl) (trapEntry_taken hup hon hrun hc)
  case enterTrap =>
    exact fun _ _ _ _ _ _ _ => ⟨rfl, rfl⟩
  case illegal =>
    exact fun o n a k way s w b hopen hnone hf hd => acuStep_illegal o way hopen hnone hf (.inl hd)
  case farFetch =>
    exact fun o n a k way s hopen hnone hfar hserved => acuStep_of_acuGo hopen hnone (acuGo_unserved _ hfar hserved)
  case causeFirst =>
    exact fun o n a k way s c hopen hc => acuStep_of_takeable hopen hc
  case drain =>
    exact fun n a way s e rest hsb he => gives_of_done (storeDrain n a way) (fun _ => rfl) (storeDrain_whole way hsb he)
  case drainSplit =>
    exact fun n a way s e f rest hsb he hf =>
      gives_of_done (storeDrain n a way) (fun _ => rfl) (storeDrain_split way hsb he hf)
  case drainEntry =>
    exact fun _ _ _ _ _ => rfl
  case net =>
    intro n a addr r ones act s h
    simp only [acuNet_of_leaves h]
    exact ⟨rfl, rfl, rfl, rfl⟩
  case ramTest =>
    exact fun n a fails s hup h =>
      ⟨gives_inRun (ramTestWindow n a fails false) hup (fun _ => rfl) (ramTestWindow_tested fails h),
        gives_inRun (ramTestWindow n a fails true) hup (fun _ => rfl) (ramTestWindow_yielded n a fails s)⟩
  case start =>
    exact fun n a k s h hst => gives_row (.taskEnWrite n a k true) h (fun _ => rfl) rfl (if_pos hst)
  case stop =>
    exact fun n a k s h hst => gives_row (.taskEnWrite n a k false) h (fun _ => rfl) rfl (if_pos hst)
  case drained =>
    exact fun n a k s hst hd => gives_of_done (taskDrainDone n a k) (fun _ => rfl) (taskDrainDone_drained hst hd)
  case doorbells =>
    exact fun n a h w s hup => ⟨gives_row (.acuIpiWrite n a h) hup (fun _ => rfl) rfl rfl,
      gives_row (.acuBellWrite n a w) hup (fun _ => rfl) rfl rfl⟩

end Sys2Proof.Machine
end

section
/-! The bits of an ACU instruction word: which fields lie side by side in each format, and that a word that decodes is the word
built from its fields (09 R204, R206, R208, R214-R218, R220, R224). -/

namespace Sys2Proof.Machine

/-! ### Fields side by side -/

theorem wbits_eq_div_mod (w : Word) (hi lo : Nat) : wbits w hi lo = w.toNat / 2 ^ lo % 2 ^ (hi + 1 - lo) := by
  rw [wbits, BitVec.extractLsb'_toNat, Nat.shiftRight_eq_div_pow]

/-- A field is its upper part above its lower part, wherever it is cut. -/
theorem wbits_cut (w : Word) {hi lo : Nat} (mid : Nat) (hlo : lo ≤ mid) (hhi : mid ≤ hi) :
    wbits w hi lo = wbits w hi (mid + 1) * 2 ^ (mid + 1 - lo) + wbits w mid lo := by
  have hupper : w.toNat / 2 ^ (mid + 1) = w.toNat / 2 ^ lo / 2 ^ (mid + 1 - lo) := by
    rw [Nat.div_div_eq_div_mul, ← Nat.pow_add, Nat.add_sub_cancel' (by omega)]
  have hwidth : hi + 1 - lo = mid + 1 - lo + (hi + 1 - (mid + 1)) := by omega
  rw [wbits_eq_div_mod, wbits_eq_div_mod, wbits_eq_div_mod, hupper, hwidth, Nat.pow_add, Nat.mod_mul, Nat.add_comm,
    Nat.mul_comm]

theorem b2n_getLsbD (w : Word) (i : Nat) : b2n (w.getLsbD i) = wbits w i i := by
  rw [wbits_eq_div_mod, Nat.add_sub_cancel_left, Nat.pow_one, ← BitVec.testBit_toNat, b2n, Nat.testBit_eq_decide_div_mod_eq]
  rcases Nat.mod_two_eq_zero_or_one (w.toNat / 2 ^ i) with h | h <;> simp [h]

theorem toNat_eq_wbits (w : Word) : w.toNat = wbits w 31 0 := by
  rw [wbits_eq_div_mod, Nat.pow_zero, Nat.div_one, Nat.mod_eq_of_lt w.isLt]

theorem toNat_eq_aOp (w : Word) : w.toNat = aOp w * 2 ^ 26 + wbits w 25 0 := by
  rw [toNat_eq_wbits, wbits_cut w 25 (by decide) (by decide), aOp]

/-- A number of 32 bits that is a word's is the word. -/
theorem ofNat_eq_of_toNat {w : Word} {x : Nat} (h : w.toNat = x) : BitVec.ofNat 32 x = w := by
  rw [← h, BitVec.ofNat_toNat, BitVec.setWidth_eq]

section
variable {w : Word} {op rd ra rb imm low func fop : Nat}

/-! ### The formats -/

theorem operands_eq (w : Word) : wbits w 25 0 = aRd w * 2 ^ 21 + aRa w * 2 ^ 16 + aImm w := by
  rw [wbits_cut w 20 (by decide) (by decide), wbits_cut w (hi := 20) 15 (by decide) (by decide), ← Nat.add_assoc,
    aRd, aRa, aImm]

theorem aImm_eq (w : Word) : aImm w = aRb w * 2 ^ 11 + wbits w 10 0 :=
  wbits_cut w 10 (by decide) (by decide)

theorem iWord_eq (hop : aOp w = op) (hrd : aRd w = rd) (hra : aRa w = ra) : iWord op rd ra (aImm w) = w := by
  subst hop hrd hra
  apply ofNat_eq_of_toNat
  rw [toNat_eq_aOp, operands_eq]
  omega

theorem rWord_eq (hop : aOp w = op) (hrd : aRd w = rd) (hra : aRa w = ra) (hrb : aRb w = rb) (hlow : wbits w 10 0 = low) :
    rWord op rd ra rb low = w := by
  subst hop hrd hra hrb hlow
  apply ofNat_eq_of_toNat
  rw [toNat_eq_aOp, operands_eq, aImm_eq]
  omega

/-- The low bits of an instruction with SF or CI (09 R208). -/
theorem lowBits_eq_int (w : Word) :
    wbits w 10 0 = b2n (aSf w) * 2 ^ 10 + wbits w 9 7 * 2 ^ 7 + b2n (aCi w) * 2 ^ 6 + aFunc w := by
  have hsf : wbits w 10 0 = wbits w 10 10 * 2 ^ 10 + wbits w 9 0 := wbits_cut w 9 (by decide) (by decide)
  have hz : wbits w 9 0 = wbits w 9 7 * 2 ^ 7 + wbits w 6 0 := wbits_cut w 6 (by decide) (by decide)
  have hci : wbits w 6 0 = wbits w 6 6 * 2 ^ 6 + wbits w 5 0 := wbits_cut w 5 (by decide) (by decide)
  rw [hsf, hz, hci, aSf, aCi, aFunc, b2n_getLsbD, b2n_getLsbD, ← Nat.add_assoc, ← Nat.add_assoc]

/-- The low bits of a floating-point instruction (09 R220). -/
theorem lowBits_eq_fp (w : Word) : wbits w 10 0 = aRm w * 2 ^ 8 + b2n (aD w) * 2 ^ 7 + aFop w := by
  have hrm : wbits w 10 0 = wbits w 10 8 * 2 ^ 8 + wbits w 7 0 := wbits_cut w 7 (by decide) (by decide)
  have hd : wbits w 7 0 = wbits w 7 7 * 2 ^ 7 + wbits w 6 0 := wbits_cut w 6 (by decide) (by decide)
  rw [hrm, hd, aRm, aD, aFop, b2n_getLsbD, ← Nat.add_assoc]

/-- The low bits of a mill or system instruction (09 R217, R218, R224). -/
theorem lowBits_eq_func (w : Word) : wbits w 10 0 = wbits w 10 6 * 2 ^ 6 + aFunc w :=
  wbits_cut w 5 (by decide) (by decide)

theorem lowBits_of_func (hz : wbits w 10 6 = 0) (hf : aFunc w = func) : wbits w 10 0 = func := by
  rw [lowBits_eq_func, hz, hf, Nat.zero_mul, Nat.zero_add]

/-! ### OP 0x20 and 0x21 (09 R215) -/

theorem bcondWord_acuFields (hop : aOp w = 0x20) : acuWordOf .bcond (acuFields w) = w := by
  apply ofNat_eq_of_toNat
  rw [toNat_eq_aOp, hop, wbits_cut w (hi := 25) 21 (by decide) (by decide), ← Nat.add_assoc]
  rfl

theorem callWord_acuFields (hop : aOp w = 0x21) : acuWordOf .call (acuFields w) = w :=
  ofNat_eq_of_toNat (by rw [toNat_eq_aOp, hop]; rfl)

/-! ### OP 0x01 (09 R208) -/

theorem sfWord_acuFields (hop : aOp w = 0x01) (hz : wbits w 9 7 = 0) (hci : aCi w = false) (hf : aFunc w = func) :
    sfWord (acuFields w) func = w :=
  rWord_eq hop rfl rfl rfl (by rw [lowBits_eq_int, hz, hci, hf]; simp [b2n, acuFields])

theorem ciWord_acuFields (hop : aOp w = 0x01) (hz : wbits w 9 7 = 0) (hsf : aSf w = false) (hf : aFunc w = func) :
    ciWord (acuFields w) func = w :=
  rWord_eq hop rfl rfl rfl (by rw [lowBits_eq_int, hz, hsf, hf]; simp [b2n, acuFields])

theorem mdWord_acuFields (hop : aOp w = 0x01) (hrd : aRd w = 0) (hz : wbits w 9 7 = 0) (hci : aCi w = false)
    (hsf : aSf w = false) (hf : aFunc w = func) : mdWord (acuFields w) func = w :=
  rWord_eq hop hrd rfl rfl (by rw [lowBits_eq_int, hz, hci, hsf, hf]; simp [b2n])

/-! ### OP 0x28 (09 R220) -/

theorem fpWord2_acuFields (hop : aOp w = 0x28) (hf : aFop w = fop) : fpWord2 (acuFields w) fop = w :=
  rWord_eq hop rfl rfl rfl (by rw [lowBits_eq_fp, hf]; rfl)

theorem fpWord1_acuFields (hop : aOp w = 0x28) (hrb : aRb w = 0) (hf : aFop w = fop) : fpWord1 (acuFields w) fop = w :=
  rWord_eq hop rfl rfl hrb (by rw [lowBits_eq_fp, hf]; rfl)

theorem fpWordN_acuFields {rb : Nat} (hop : aOp w = 0x28) (hrb : aRb w = rb) (hrm : aRm w = 0) (hf : aFop w = fop) :
    fpWordN (acuFields w) rb fop = w :=
  rWord_eq hop rfl rfl hrb (by rw [lowBits_eq_fp, hrm, hf, Nat.zero_mul, Nat.zero_add]; rfl)

/-! ### OP 0x30 and 0x31 (09 R217, R218, R224) -/

/-- A word with only OP and FUNC: no bit of [25:6] is set. -/
theorem rWord_eq_of_func (hop : aOp w = op) (hz : wbits w 25 6 = 0) (hf : aFunc w = func) : rWord op 0 0 0 func = w := by
  subst hop hf
  apply ofNat_eq_of_toNat
  rw [toNat_eq_aOp, wbits_cut w (hi := 25) 5 (by decide) (by decide), hz, aFunc]
  omega

/-- A word with RD, RA and FUNC: no bit of [15:6] is set. -/
theorem rWord_eq_of_rd_ra (hop : aOp w = op) (hz : wbits w 15 6 = 0) (hf : aFunc w = func) :
    rWord op (aRd w) (aRa w) 0 func = w := by
  have hcut : wbits w 15 6 = aRb w * 2 ^ 5 + wbits w 10 6 := wbits_cut w 10 (by decide) (by decide)
  exact rWord_eq hop rfl rfl (by omega) (lowBits_of_func (by omega) hf)

/-- RA holds a number of two bits where bits [20:18] are 0. -/
theorem aRa_mod_four (h : wbits w 20 18 = 0) : aRa w = aRa w % 4 := by
  have hcut : aRa w = wbits w 20 18 * 2 ^ 2 + wbits w 17 16 := wbits_cut w 17 (by decide) (by decide)
  have hlt : wbits w 17 16 < 2 ^ 2 := (w.extractLsb' 16 2).isLt
  omega

/-! ### The groups of the decoder -/

theorem okIf_eq_some {b : Bool} {o o' : AOp} : okIf b o = some o' ↔ b = true ∧ o = o' := by
  rw [okIf, Option.ite_none_right_eq_some, Option.some.injEq]

end

section
variable {w : Word} {o : AOp}

theorem acuWordOf_of_decInt (hop : aOp w = 0x01) (h : decInt w = some o) : acuWordOf o (acuFields w) = w := by
  unfold decInt at h
  split at h
  case h_22 => contradiction
  all_goals
    obtain ⟨hb, rfl⟩ := okIf_eq_some.1 h
    simp only [Bool.and_eq_true, beq_iff_eq, Bool.not_eq_true'] at hb
    rename_i hf
  -- NEG, then MUL to DIVU, DADD to DADJ, and those that accept SF.
  case h_5 =>
    obtain ⟨⟨⟨⟨-, hz⟩, hci⟩, hsf⟩, hrb⟩ := hb
    exact rWord_eq hop rfl rfl hrb (by rw [lowBits_eq_int, hz, hci, hsf, hf]; rfl)
  case h_15 | h_16 | h_17 | h_18 =>
    obtain ⟨⟨⟨⟨⟨hrd, -⟩, -⟩, hz⟩, hci⟩, hsf⟩ := hb
    exact mdWord_acuFields hop hrd hz hci hsf hf
  case h_19 | h_20 | h_21 =>
    obtain ⟨⟨-, hz⟩, hsf⟩ := hb
    exact ciWord_acuFields hop hz hsf hf
  all_goals
    obtain ⟨⟨-, hz⟩, hci⟩ := hb
    exact sfWord_acuFields hop hz hci hf

theorem acuWordOf_of_decFp (hop : aOp w = 0x28) (h : decFp w = some o) : acuWordOf o (acuFields w) = w := by
  unfold decFp at h
  dsimp only at h
  split at h
  -- FCMP: its relation is in the low bits of FOP.
  case h_16 =>
    obtain ⟨hrel, h⟩ := Option.ite_none_right_eq_some.1 h
    obtain ⟨hb, rfl⟩ := okIf_eq_some.1 h
    simp only [Bool.and_eq_true, beq_iff_eq, decide_eq_true_eq] at hb hrel
    have hf : aFop w = 0x10 + aFop w % 8 := by omega
    exact fpWordN_acuFields hop rfl hb.2 hf
  all_goals
    obtain ⟨hb, rfl⟩ := okIf_eq_some.1 h
    simp only [Bool.and_eq_true, beq_iff_eq] at hb
    rename_i hf
  case h_1 | h_2 | h_3 | h_4 | h_5 => exact fpWord2_acuFields hop hf
  -- FMIN and FMAX, then FNEG and FABS.
  case h_7 | h_8 => exact fpWordN_acuFields hop rfl hb.2 hf
  case h_9 | h_10 =>
    obtain ⟨⟨-, hrb⟩, hrm⟩ := hb
    exact fpWordN_acuFields hop hrb hrm hf
  -- FSQRT and the conversions.
  all_goals
    obtain ⟨⟨-, hrb⟩, -⟩ := hb
    exact fpWord1_acuFields hop hrb hf

theorem acuWordOf_of_decMill (hop : aOp w = 0x30) (h : decMill w = some o) : acuWordOf o (acuFields w) = w := by
  unfold decMill at h
  split at h
  case h_6 => contradiction
  all_goals
    obtain ⟨hb, rfl⟩ := okIf_eq_some.1 h
    simp only [Bool.and_eq_true, beq_iff_eq] at hb
    rename_i hf
  case h_1 =>
    obtain ⟨⟨⟨-, hra⟩, hrb⟩, hz⟩ := hb
    exact rWord_eq hop rfl (aRa_mod_four hra) hrb (lowBits_of_func hz hf)
  case h_2 =>
    obtain ⟨⟨⟨-, hra⟩, hrb⟩, hz⟩ := hb
    exact rWord_eq hop rfl hra hrb (lowBits_of_func hz hf)
  case h_3 =>
    obtain ⟨⟨-, hrb⟩, hz⟩ := hb
    exact rWord_eq hop rfl rfl hrb (lowBits_of_func hz hf)
  case h_4 | h_5 => exact rWord_eq_of_func hop hb hf

theorem acuWordOf_of_decSys (hop : aOp w = 0x31) (h : decSys w = some o) : acuWordOf o (acuFields w) = w := by
  unfold decSys at h
  split at h
  case h_11 => contradiction
  all_goals
    obtain ⟨hb, rfl⟩ := okIf_eq_some.1 h
    simp only [Bool.and_eq_true, beq_iff_eq] at hb
    rename_i hf
  -- MFSR and MTSR.
  case h_9 | h_10 => exact rWord_eq_of_rd_ra hop hb.2 hf
  all_goals exact rWord_eq_of_func hop hb hf

end

/-! ### The obligation -/

/-- Settles O48: the decoder's conditions are what the word's format leaves out, group by group. -/
theorem acuWordsRoundTrip : Obligations.AcuWordsRoundTrip := by
  unfold Obligations.AcuWordsRoundTrip
  intro w o h
  unfold acuDecode at h
  dsimp only at h
  split at h
  case h_1 hop => exact acuWordOf_of_decInt hop h
  case h_28 hop => exact acuWordOf_of_decFp hop h
  case h_29 hop => exact acuWordOf_of_decMill hop h
  case h_30 hop => exact acuWordOf_of_decSys hop h
  case h_26 hop => exact Option.some.inj h ▸ callWord_acuFields hop
  case h_31 => contradiction
  all_goals
    obtain ⟨hb, rfl⟩ := okIf_eq_some.1 h
    rename_i hop
  case h_25 => exact bcondWord_acuFields hop
  all_goals simp only [Bool.and_eq_true, beq_iff_eq] at hb
  -- LUI without RA; CMPI, LWG and SWG without RD; the others with both.
  case h_6 => exact iWord_eq hop rfl hb.2
  case h_7 | h_19 | h_24 => exact iWord_eq hop hb.1 rfl
  all_goals exact iWord_eq hop rfl rfl

end Sys2Proof.Machine
end

section
/-! The owners and handovers of the staging banks, and the accesses to the staging memory and the record store as they end, wait or
are served (10 R225-R233, 16 R370-R376). -/

namespace Sys2Proof.Machine

/-! ### Owners and handovers (10 R226) -/

section
variable {n : Node} {bk : Fin 8} {o : Fin 32} {s t : Block}

theorem gives_ownerWrite (h : takenNow s n 0x8 = true) (ht : ownerWrite n bk o s = t) : Gives (.ownerWrite n bk o) s t :=
  gives_row (.ownerWrite n bk o) h (fun _ => rfl) rfl ht

theorem ownerWrite_pending (hp : bankPending s n bk = true) :
    ownerWrite n bk o s = fput s n F.STG_BANK_OWNER_REFUSED (ix bk) 1 := if_pos hp

theorem ownerWrite_reserved (hp : bankPending s n bk = false) (ho : 0x1A ≤ o.val ∧ o.val ≤ 0x1E) :
    ownerWrite n bk o s = stgReject s n := by
  unfold ownerWrite
  rw [if_neg (by simp [hp]), if_pos (by simpa using ho)]

/-- A legal code starts a handover, unless it is that of the master that holds the bank. -/
theorem ownerWrite_legal (hp : bankPending s n bk = false) (ho : ¬ (0x1A ≤ o.val ∧ o.val ≤ 0x1E)) :
    ownerWrite n bk o s = if o.val = bankCurrent s n bk then s
      else fput (fput s n F.STG_BANK_OWNER_OWNER (ix bk) o) n F.STG_BANK_OWNER_PENDING (ix bk) 1 := by
  unfold ownerWrite
  rw [if_neg (by simp [hp]), if_neg (by simpa using ho)]

/-- A handover whose bank has drained is done, and the packets that stalled for it go on. -/
theorem handoverAll_drained (hp : bankPending s n bk = true) (hd : bankDrained s n bk = true) :
    let f := flushBank s n bk
    let h := releaseHeld (fput (fput f n F.STG_BANK_OWNER_CURRENT (ix bk) (bankOwner f n bk)) n F.STG_BANK_OWNER_PENDING (ix bk) 0)
      n bk
    handoverAll n bk s = if bankPending h n bk then h else releaseReqs h n (16 + bk.val) := by
  intro f h
  have hc : handoverCommit n bk s = h := if_pos (by simp [hp, hd])
  unfold handoverAll
  rw [hc]
  cases hh : bankPending h n bk <;> simp [hp, hh]

end

/-! ### How a staging request ends (10 R225-R231, 16 R371, R374, R376) -/

section
variable {s b : Block} {n m al : Nat} {req : MemReq}

theorem stgReq_beyond (h : 2 ^ 27 < req.addr + req.bytes.length ∨ 2 ^ 27 ≤ req.addr) :
    stgReq s n m al req = some ⟨rspDecErr, onesData req, s⟩ := if_pos (by simpa using h)

section
variable (hlen : req.addr + req.bytes.length ≤ 2 ^ 27) (haddr : req.addr < 2 ^ 27)
include hlen haddr

/-- A request within the memory passes the check of its bounds. -/
theorem stgReq_bounds : ¬ (decide (2 ^ 27 < req.addr + req.bytes.length) || decide (2 ^ 27 ≤ req.addr)) = true := by
  simp only [Bool.or_eq_true, decide_eq_true_eq]
  omega

theorem stgReq_ended {k : Nat} (hnet : netEnd s n m (0x20 + bankOf req.addr) (bankAddr al req.addr) = some (k, b)) :
    stgReq s n m al req = some ⟨k, onesData req, b⟩ := by
  unfold stgReq
  dsimp only
  rw [if_neg (stgReq_bounds hlen haddr), hnet]

variable (hnet : netEnd s n m (0x20 + bankOf req.addr) (bankAddr al req.addr) = none)
include hnet

theorem stgReq_isolated (hi : isolatedEp s n (0x20 + bankOf req.addr) = true) :
    stgReq s n m al req = some ⟨rspIsolated, onesData req, s⟩ := by
  unfold stgReq
  dsimp only
  rw [if_neg (stgReq_bounds hlen haddr), hnet]
  exact if_pos hi

variable (hi : isolatedEp s n (0x20 + bankOf req.addr) = false)
include hi

theorem stgReq_misaligned (hal : al ≠ 0) (hsz : aliasSizeOk req = false) :
    stgReq s n m al req = some ⟨rspDecErr, onesData req, s⟩ := by
  unfold stgReq
  dsimp only
  rw [if_neg (stgReq_bounds hlen haddr), hnet]
  dsimp only
  rw [if_neg (by simp [hi]), if_pos (by simp [hal, hsz])]

variable (hal : al = 0 ∨ aliasSizeOk req = true)
include hal

theorem stgReq_pwrOff (hd : domAccess s n 7 = none) : stgReq s n m al req = some (pwrOffAns s req) := by
  unfold stgReq
  dsimp only
  rw [if_neg (stgReq_bounds hlen haddr), hnet]
  dsimp only
  rw [if_neg (by simp [hi]), if_neg (by rcases hal with h | h <;> simp [h]), hd]

/-- A request past the bridges is treated as its bank treats the master. -/
theorem stgReq_past {x : Treat} (hd : domAccess s n 7 = some b) (hx : bankTreat b n (bankOf req.addr) m = x) :
    stgReq s n m al req = stgPast b n al req x := by
  unfold stgReq
  dsimp only
  rw [if_neg (stgReq_bounds hlen haddr), hnet]
  dsimp only
  rw [if_neg (by simp [hi]), if_neg (by rcases hal with h | h <;> simp [h]), hd, ← hx]

end

end

/-! ### Staging accesses on their way (16 R364, R370) -/

section
variable {n : Node} {m : Fin 32} {al : Fin 3} {req : MemReq} {s b : Block}

theorem gives_stagingAccess {x : NetReq} {t : Block} (h : inRun s n = true) (ht : stagingAccess n m al x s = t) :
    Gives (.stagingAccess n m al x) s t := gives_inRun (stagingAccess n m al x) h (fun _ => rfl) ht

theorem stagingAccess_answered {a : MemAns} (h : stgReq s n m al req = some a) :
    stagingAccess n m al ⟨req, .served⟩ s = answer m a := by
  unfold stagingAccess
  dsimp only
  rw [overNet_served, h]

/-- A request that stalls waits past the bridges, with its limit running. -/
theorem stagingAccess_stalled (h : stgReq s n m al req = none) (hd : domAccess s n 7 = some b) :
    stagingAccess n m al ⟨req, .served⟩ s =
      { b with stgHeld := b.stgHeld ++ [⟨n, m, al, req, limitOf b n n, false⟩] } := by
  have hw : stgWaits s n = b := by
    unfold stgWaits
    rw [hd]
    rfl
  unfold stagingAccess
  dsimp only
  rw [overNet_served, h, hw]

/-- What the initiator gets once its limit has expired. -/
def stgExpired (s : Block) (n : Node) (m : Fin 32) (al : Fin 3) (req : MemReq) : Block :=
  answer m ⟨rspTimeout, onesData req, timedOut s n m (0x20 + bankOf req.addr) n (bankAddr al req.addr) 4⟩

theorem stagingAccess_lostThere (r : Fin 48) :
    stagingAccess n m al ⟨req, .lost r false⟩ s = stgExpired (raise s n SRC.NOC_FLIT_UE r 0) n m al req := by
  unfold stagingAccess
  dsimp only
  rw [overNet_lostThere]
  rfl

theorem stagingAccess_late {a : MemAns} (h : stgReq s n m al req = some a) :
    stagingAccess n m al ⟨req, .late⟩ s = stgExpired (fsat a.st n F.NOC_LATE_COUNT 0) n m al req := by
  unfold stagingAccess
  dsimp only
  rw [overNet_late h]
  rfl

theorem stagingAccess_lostBack {a : MemAns} (h : stgReq s n m al req = some a) (r : Fin 48) :
    stagingAccess n m al ⟨req, .lost r true⟩ s = stgExpired (raise a.st n SRC.NOC_FLIT_UE r 0) n m al req := by
  unfold stagingAccess
  dsimp only
  rw [overNet_lostBack h]
  rfl

end

/-! ### The obligation on the staging memory -/

/-- Settles O7: each clause is the case of OWNER_WRITE, of the handover, or of how the request ends. -/
theorem stagingOwnersAndAccesses : Obligations.StagingOwnersAndAccesses := by
  unfold Obligations.StagingOwnersAndAccesses
  refine ⟨?refused, ?reserved, ?starts, ?same, ?handover, ?beyond, ?ended, ?isolated, ?misaligned, ?pwrOff, ?serves, ?nonOwner,
    ?stalls, ?lostThere, ?lostBack⟩
  case refused => exact fun n b o s ht hp => gives_ownerWrite ht (ownerWrite_pending hp)
  case reserved => exact fun n b o s ht hp ho => gives_ownerWrite ht (ownerWrite_reserved hp ho)
  case starts => exact fun n b o s ht hp ho hc => gives_ownerWrite ht ((ownerWrite_legal hp ho).trans (if_neg hc))
  case same => exact fun n b o s ht hp ho hc => gives_ownerWrite ht ((ownerWrite_legal hp ho).trans (if_pos hc))
  case handover =>
    exact fun n b s hp hd =>
      gives_of_done (handoverServe n b) (fun _ => rfl) (congrArg tlpRelease (handoverAll_drained hp hd))
  case beyond => exact fun n m al req s hn h => gives_stagingAccess hn (stagingAccess_answered (stgReq_beyond h))
  case ended =>
    exact fun n m al req s b k hn hl ha hp => gives_stagingAccess hn (stagingAccess_answered (stgReq_ended hl ha hp))
  case isolated =>
    exact fun n m al req s hn hl ha hp hi => gives_stagingAccess hn (stagingAccess_answered (stgReq_isolated hl ha hp hi))
  case misaligned =>
    exact fun n m al req s hn hl ha hp hi h0 hs =>
      gives_stagingAccess hn (stagingAccess_answered (stgReq_misaligned hl ha hp hi h0 hs))
  case pwrOff =>
    exact fun n m al req s hn hl ha hp hi hs hd =>
      gives_stagingAccess hn (stagingAccess_answered (stgReq_pwrOff hl ha hp hi hs hd))
  case serves =>
    exact fun n m al req s b hn hl ha hp hi hs hd hx =>
      gives_stagingAccess hn (stagingAccess_answered (stgReq_past hl ha hp hi hs hd hx))
  case nonOwner =>
    exact fun n m al req s b hn hl ha hp hi hs hd hx =>
      gives_stagingAccess hn (stagingAccess_answered (stgReq_past hl ha hp hi hs hd hx))
  case stalls =>
    exact fun n m al req s b hn hl ha hp hi hs hd hx =>
      gives_stagingAccess hn (stagingAccess_stalled (stgReq_past hl ha hp hi hs hd hx) hd)
  case lostThere => exact fun n m al req s r hn => gives_stagingAccess hn (stagingAccess_lostThere r)
  case lostBack =>
    exact fun n m al req s a hn h =>
      ⟨gives_stagingAccess hn (stagingAccess_late h), fun r => gives_stagingAccess hn (stagingAccess_lostBack h r)⟩

end Sys2Proof.Machine
end

section
/-! Accesses to the record store as they end or are served, its scrub, the test of the staging memory, and the rings
(10 R231-R237, 16 R370-R376). -/

namespace Sys2Proof.Machine

/-! ### How a record store request ends (10 R233, 16 R371, R374, R376) -/

section
variable {s b : Block} {n e : Nat} {req : MemReq}

theorem recReq_beyond (h : recBytes < req.addr + req.bytes.length) : recReq s n e req = ⟨rspDecErr, onesData req, s⟩ := if_pos h

section
variable (hlen : req.addr + req.bytes.length ≤ recBytes)
include hlen

theorem recReq_ended {k : Nat} (hnet : netEnd s n e (0x28 + recStackOf req.addr) (recLocal req.addr) = some (k, b)) :
    recReq s n e req = ⟨k, onesData req, b⟩ := by
  unfold recReq
  rw [if_neg (Nat.not_lt.mpr hlen), hnet]

variable (hnet : netEnd s n e (0x28 + recStackOf req.addr) (recLocal req.addr) = none)
include hnet

theorem recReq_isolated (hi : isolatedEp s n (0x28 + recStackOf req.addr) = true) :
    recReq s n e req = ⟨rspIsolated, onesData req, s⟩ := by
  unfold recReq
  rw [if_neg (Nat.not_lt.mpr hlen), hnet]
  exact if_pos hi

variable (hi : isolatedEp s n (0x28 + recStackOf req.addr) = false)
include hi

theorem recReq_pwrOff (hd : domAccess s n 4 = none) : recReq s n e req = pwrOffAns s req := by
  unfold recReq
  rw [if_neg (Nat.not_lt.mpr hlen), hnet]
  dsimp only
  rw [if_neg (by simp [hi]), hd]

theorem recReq_past (hd : domAccess s n 4 = some b) : recReq s n e req = recPast b n req := by
  unfold recReq
  rw [if_neg (Nat.not_lt.mpr hlen), hnet]
  dsimp only
  rw [if_neg (by simp [hi]), hd]

end

theorem recPast_write (hw : req.wr = true) :
    let r := memWrite b .record n 0 req.addr req.bytes
    recPast b n req = ⟨if r.1 then rspOk else rspDecErr, [], r.2⟩ := if_pos hw

theorem recPast_read {bs : List (BitVec 8)} (hw : req.wr = false)
    (hl : memLoad b .record n req.addr req.bytes.length = (some bs, s)) : recPast b n req = ⟨rspOk, bs, s⟩ := by
  unfold recPast
  rw [if_neg (by simp [hw]), hl]

theorem recPast_unread (hw : req.wr = false) (hl : memLoad b .record n req.addr req.bytes.length = (none, s)) :
    recPast b n req = ⟨rspDecErr, onesData req, s⟩ := by
  unfold recPast
  rw [if_neg (by simp [hw]), hl]

end

/-! ### Record store accesses on their way (16 R364, R370) -/

section
variable {n : Node} {m : Fin 32} {req : MemReq} {s : Block}

theorem gives_recordStoreAccess {x : NetReq} {t : Block} (h : inRun s n = true) (ht : recordStoreAccess n m x s = t) :
    Gives (.recordStoreAccess n m x) s t := gives_inRun (recordStoreAccess n m x) h (fun _ => rfl) ht

theorem recordStoreAccess_served {a : MemAns} (h : recReq s n m req = a) :
    recordStoreAccess n m ⟨req, .served⟩ s = answer m a := by
  unfold recordStoreAccess overNet1
  dsimp only
  rw [overNet_served, Option.getD_some, h]

/-- What the initiator gets once its limit has expired. -/
def recExpired (s : Block) (n : Node) (m : Fin 32) (req : MemReq) : Block :=
  answer m ⟨rspTimeout, onesData req, timedOut s n m (0x28 + recStackOf req.addr) n (recLocal req.addr) 4⟩

theorem recordStoreAccess_lostThere (r : Fin 48) :
    recordStoreAccess n m ⟨req, .lost r false⟩ s = recExpired (raise s n SRC.NOC_FLIT_UE r 0) n m req := rfl

theorem recordStoreAccess_late :
    recordStoreAccess n m ⟨req, .late⟩ s = recExpired (fsat (recReq s n m req).st n F.NOC_LATE_COUNT 0) n m req := rfl

theorem recordStoreAccess_lostBack (r : Fin 48) :
    recordStoreAccess n m ⟨req, .lost r true⟩ s =
      recExpired (raise (recReq s n m req).st n SRC.NOC_FLIT_UE r 0) n m req := rfl

end

/-! ### The scrub and the test (10 R231, R233) -/

/-- A step of the scrub checks the block at its cursor, counts a pass after the last one, and goes on. -/
theorem recScrubStep_scrubs {n : Node} {s : Block} (hst : fget s n F.REC_SCRUB_STATE = 2) (hn : inRun s n = true)
    (hd : fget s n F.NOC_DOMAIN_BRIDGE (ix 4) = 0) :
    let c := mget (fun _ => 0) s.recCursor n
    let b := (memReadWords s .record n ((List.range 8).map (· + 8 * c))).2
    let b := if c + 1 = recBytes / 64 then fwrap b n F.REC_SCRUB_PASSES 0 else b
    recScrubStep n s = { b with recCursor := mput (fun _ => 0) b.recCursor n ((c + 1) % (recBytes / 64)) } :=
  if_pos (by simp [hst, hn, hd])

/-- A step of the test, not made to yield, checks the window at its cursor in every bank, raises STG_TEST_FAIL for each bank with a
failing cell, and goes on. -/
theorem stgTestWindow_tests {n : Node} {fails : BitVec 8} {s : Block} (hst : fget s n F.STG_TEST_STATE = 2) :
    let w := fget s n F.STG_TEST_CURSOR
    let b := (List.range 8).foldl (fun s b =>
      if fails.getLsbD b then raise (checkWindow .stg n (b * 2 ^ 21 + 64 * w) s) n SRC.STG_TEST_FAIL b 0
      else checkWindow .stg n (b * 2 ^ 21 + 64 * w) s) s
    stgTestWindow n fails false s = fset b n F.STG_TEST_CURSOR ((w + 1) % 32768) := if_pos (by simp [hst])

/-! ### Rings (10 R235-R237) -/

section
variable {n : Node} {r : Fin 32} {s t : Block}

theorem gives_ringTrigger (h : takenNow s n 0x9 = true) (ht : ringFire s n r 0 = t) : Gives (.ringTrigger n r) s t :=
  gives_row (.ringTrigger n r) h (fun _ => rfl) rfl ht

theorem gives_ringEnWrite {en : Bool} (h : takenNow s n 0x9 = true) (ht : ringEn n r en s = t) :
    Gives (.ringEnWrite n r en) s (ringBack n r t) :=
  gives_row (.ringEnWrite n r en) h (fun _ => rfl) rfl (congrArg (ringBack n r) ht)

end

section
variable {n r bit : Nat} {s : Block}

/-- A source that TRIGSRC names triggers a ring that is not triggered. -/
theorem ringFire_fires (ht : ringF s n r F.REC_RING_CTRL_TRIGGERED = 0)
    (hb : (ringF s n r F.REC_RING_CTRL_TRIGSRC).testBit bit = true) :
    ringFire s n r bit = { fput s n F.REC_RING_CTRL_TRIGGERED (ix r) 1 with
      trigGone := mput (fun _ => 0) s.trigGone (ringKey n r) 0 } := if_pos (by simp [ht, hb])

theorem ringFire_unmoved
    (h : ringF s n r F.REC_RING_CTRL_TRIGGERED ≠ 0 ∨ (ringF s n r F.REC_RING_CTRL_TRIGSRC).testBit bit = false) :
    ringFire s n r bit = s := if_neg (by rcases h with h | h <;> simp [h])

end

section
variable {n : Node} {r : Fin 32} {s : Block}

theorem ringEn_starts (h : ringF s n r F.REC_RING_CTRL_STATE = 0) :
    ringEn n r true s = setRingCount (fput (fput s n F.REC_RING_CTRL_EN (ix r) 1) n F.REC_RING_CTRL_STATE (ix r) 2) n r 0 := by
  unfold ringEn
  rw [h]
  rfl

theorem ringEn_drains (h : ringF s n r F.REC_RING_CTRL_STATE = 2) :
    ringEn n r false s = fput (fput s n F.REC_RING_CTRL_EN (ix r) 0) n F.REC_RING_CTRL_STATE (ix r) 1 := by
  unfold ringEn
  rw [h]
  rfl

end

/-! ### The obligation on the record store -/

/-- Settles O8: each clause is the case of how the request ends, of a step of the scrub or the test, or of a ring's register. -/
theorem recordStoreAndRings : Obligations.RecordStoreAndRings := by
  unfold Obligations.RecordStoreAndRings
  refine ⟨?writes, ?reads, ?beyond, ?ended, ?isolated, ?pwrOff, ?lostThere, ?lostBack, ?scrub, ?test, ?cleared, ?fires, ?unmoved,
    ?freezes, ?thaws, ?starts, ?drains, ?drained⟩
  case writes =>
    exact fun n m req s b hn hl hp hi hd hw =>
      gives_recordStoreAccess hn (recordStoreAccess_served ((recReq_past hl hp hi hd).trans (recPast_write hw)))
  case reads =>
    intro n m req s b bs b2 hn hl hp hi hd hw hm
    have h := recReq_past (e := m) hl hp hi hd
    cases bs with
    | some bs => exact gives_recordStoreAccess hn (recordStoreAccess_served (h.trans (recPast_read hw hm)))
    | none => exact gives_recordStoreAccess hn (recordStoreAccess_served (h.trans (recPast_unread hw hm)))
  case beyond => exact fun n m req s hn h => gives_recordStoreAccess hn (recordStoreAccess_served (recReq_beyond h))
  case ended =>
    exact fun n m req s b k hn hl hp => gives_recordStoreAccess hn (recordStoreAccess_served (recReq_ended hl hp))
  case isolated =>
    exact fun n m req s hn hl hp hi => gives_recordStoreAccess hn (recordStoreAccess_served (recReq_isolated hl hp hi))
  case pwrOff =>
    exact fun n m req s hn hl hp hi hd => gives_recordStoreAccess hn (recordStoreAccess_served (recReq_pwrOff hl hp hi hd))
  case lostThere => exact fun n m req s r hn => gives_recordStoreAccess hn (recordStoreAccess_lostThere r)
  case lostBack =>
    exact fun n m req s hn =>
      ⟨gives_recordStoreAccess hn recordStoreAccess_late, fun r => gives_recordStoreAccess hn (recordStoreAccess_lostBack r)⟩
  case scrub =>
    exact fun n s hst hn hd => gives_of_done (recScrubStep n) (fun _ => rfl) (recScrubStep_scrubs hst hn hd)
  case test =>
    exact fun n fails s hn hst => gives_inRun (stgTestWindow n fails false) hn (fun _ => rfl) (stgTestWindow_tests hst)
  case cleared => exact fun n s => gives_of_done (recClearDone n) (fun _ => rfl) rfl
  case fires => exact fun n r s ht h hb => gives_ringTrigger ht (ringFire_fires h hb)
  case unmoved => exact fun n r s ht h => gives_ringTrigger ht (ringFire_unmoved h)
  case freezes => exact fun n r s h => gives_of_done (ringFreeze n r) (fun _ => rfl) (if_pos h)
  case thaws => exact fun n r s ht => gives_row (.ringResume n r) ht (fun _ => rfl) rfl rfl
  case starts => exact fun n r s ht h => gives_ringEnWrite ht (ringEn_starts h)
  case drains => exact fun n r s ht h => gives_ringEnWrite ht (ringEn_drains h)
  case drained => exact fun n r s hn h => gives_inRun (ringDrainDone n r) hn (fun _ => rfl) (if_pos h)

end Sys2Proof.Machine
end

section
/-! The transfers and enables of the Wheel engines, and the lanes and JESD204C links of the sensor ports as they start, lock, come
up and fail (10 R238-R244, 11 R245-R252). -/

namespace Sys2Proof.Machine

/-! ### The device-wide enable rule (01 R19) -/

section
variable {s : Block} {n inst : Nat} {en st : Fld}

theorem enWrite_starts (h : fget s n st inst = 0) : enWrite s n en st inst true = fput (fput s n en inst 1) n st inst 2 := if_pos h

theorem enWrite_drains (h : fget s n st inst = 2) : enWrite s n en st inst false = fput (fput s n en inst 0) n st inst 1 := if_pos h

end

/-! ### Wheel engines (10 R238, R243, R244) -/

/-- A Wheel may make a transfer for tile `t`: the tile waits in the op `m`, A.WIN or A.WOUT, the op's slot is latched for it as `l`,
which leaves the state `b`, and no handover holds the transfer up. -/
structure WheelServes (s b : Block) (n : Node) (t : TileIx) (gn g : Nat) (m : Mop) (l : Latch) : Prop where
  owner : tileOwner s (tkey n t) = some (gn, g)
  op : (tile s (tkey n t)).mop.bind (findOp (gang s gn g)) = some m
  opc : (mopFields m.word).opc = 0x53 ∨ (mopFields m.word).opc = 0x54
  waits : (tile s (tkey n t)).whlReady = false
  latched : takeLatch s n (gkey gn g) m = (some l, b)
  free : xferStalls b n ((mopFields m.word).prm % 4)
    (slotOf b n (ix ((mopFields m.word).prm % 4 * 64 + (mopFields m.word).prm / 4 % 64))) = false

theorem wheelTransfer_serves {s b : Block} {n : Node} {t : TileIx} {gn g : Nat} {m : Mop} {l : Latch}
    (h : WheelServes s b n t gn g m l) (k : Half) (way : BusWay) :
    let e := (mopFields m.word).prm % 4
    let i := ix (e * 64 + (mopFields m.word).prm / 4 % 64)
    wheelTransfer n t k way s = if (mopFields m.word).opc = 0x53 then xferIn b gn g (tkey n t) e i (slotOf b n i) m l way
      else xferOut b gn g (tkey n t) e i k.toNat (slotOf b n i) m l way := by
  obtain ⟨hown, hop, hopc, hw, hl, hx⟩ := h
  obtain ⟨num, hnum, hm⟩ := Option.bind_eq_some_iff.1 hop
  have hgo : ¬ ((decide ((mopFields m.word).opc ≠ 0x53) && decide ((mopFields m.word).opc ≠ 0x54))
      || (tile s (tkey n t)).whlReady) = true := by
    rcases hopc with h | h <;> simp [h, hw]
  unfold wheelTransfer
  dsimp only
  rw [hown, hnum]
  dsimp only
  rw [hm]
  dsimp only
  rw [if_neg hgo, hl]
  dsimp only
  rw [if_neg (by simp [hx])]

section
variable {n : Node} {e : Fin 4} {s t : Block}

theorem gives_wheelTransfer {x : TileMove} (h : inRun s n = true) (ht : wheelTransfer n x.tile x.upto x.way s = t) :
    Gives (.wheelTransfer n x) s t := gives_inRun (wheelTransfer n x.tile x.upto x.way) h (fun _ => rfl) ht

theorem gives_wheelEnWrite {en : Bool} (h : takenNow s n 0x7 = true)
    (ht : enWrite s n F.WHL_ENG_EN F.WHL_ENG_STATE (ix e) en = t) : Gives (.wheelEnWrite n e en) s t :=
  gives_row (.wheelEnWrite n e en) h (fun _ => rfl) rfl ht

theorem wheelDrainDone_drained (hst : fget s n F.WHL_ENG_STATE (ix e) = 1) (ho : slotsOwed s n e = 0) :
    wheelDrainDone n e s = irqAll (fput s n F.WHL_ENG_STATE (ix e) 0) n cWheel := if_pos (by simp [hst, ho])

end

/-! ### JESD204C links (11 R246-R249) -/

section
variable {n : Node} {k : Fin 16} {s : Block}

theorem gives_jlinkEnWrite {en : Bool} {t : Block} (h : takenNow s n 0xA = true) (ht : jlinkEnWrite n k en s = t) :
    Gives (.jlinkEnWrite n k en) s t := gives_row (.jlinkEnWrite n k en) h (fun _ => rfl) rfl ht

/-- An OFF link starts if it may. -/
theorem jlinkEnWrite_off (h : fget s n F.SP_JLINK_CFG0_STATE (ix k) = 0) :
    jlinkEnWrite n k true s = if jlinkMayStart s n k then
      fput (fput s n F.SP_JLINK_CFG0_EN (ix k) 1) n F.SP_JLINK_CFG0_STATE (ix k) 2 else spReject s n := by
  unfold jlinkEnWrite
  rw [h]
  rfl

theorem jlinkEnWrite_stops (h : fget s n F.SP_JLINK_CFG0_STATE (ix k) = 2) :
    jlinkEnWrite n k false s =
      muteSinks (putJlink (setJlinkUp (fput (fput s n F.SP_JLINK_CFG0_EN (ix k) 0) n F.SP_JLINK_CFG0_STATE (ix k) 0) n k false)
        n k {}) n 1 mcFault fun j => j == k.val := by
  unfold jlinkEnWrite
  rw [h]
  rfl

/-- A link that is ON comes up at the SYSREF at `t`, once its lanes are UP. -/
theorem jlinkUp_aligns {t : Nat} (hs : mget (fun _ => none) s.sysref n = some t) (hon : jlinkOn s n k = true)
    (hup : jlinkIsUp s n k = false) (hf : linkFresh s n k t = true)
    (hl : ((jlanes s n k).all fun p => laneState s n p == lnUp) = true) :
    let num := 256 * (jcfg s n k).e * octetNum
    jlinkUp n k s = putJlink (setJlinkUp s n k true) n k
      { t0 := t, emb := ((s.now - t) * quadRate s n (jcfg s n k).first + num - 1) / num } := by
  have hgo : (jlinkOn s n k && !jlinkIsUp s n k && linkFresh s n k t
      && (jlanes s n k).all fun p => laneState s n p == lnUp) = true := by simp only [hon, hup, hf, hl]; rfl
  unfold jlinkUp
  rw [hs]
  exact if_pos hgo

end

/-! ### Lanes (11 R245, R249, R252) -/

section
variable {n : Node} {p : Fin 24} {s t : Block}

theorem gives_sensorLaneLock (ht : sensorLaneLock n p s = t) : Gives (.sensorLaneLock n p) s t :=
  gives_of_done (sensorLaneLock n p) (fun _ => rfl) ht

theorem gives_laneSignalLoss (ht : laneSignalLoss n p s = t) : Gives (.laneSignalLoss n p) s t :=
  gives_of_done (laneSignalLoss n p) (fun _ => rfl) ht

/-- What SENSOR_LANE_LOCK does to a lane that may lock. -/
theorem sensorLaneLock_gains (ha : laneActive s n p = true) (hd : fget s n F.NOC_DOMAIN_BRIDGE (ix 5) ≠ 2)
    (hst : laneState s n p = lnNoSignal ∨ laneState s n p = lnLocking) :
    sensorLaneLock n p s =
      if laneRate s n p ≠ quadRate s n p then spReject (setLaneState s n p lnLocking) n
      else if rateOk s n p then putLane (setLaneState s n p lnUp) n p { lane s n p with syncAt := s.now }
      else setLaneState s n p lnLocking :=
  if_pos (by rcases hst with h | h <;> simp [ha, hd, h])

theorem laneAlignLoss_jesd (hst : laneState s n p = lnUp) (hm : rxMode s n p = mJesd) :
    laneAlignLoss n p s = raise (linksDown (setLaneState s n p lnLocking) n p) n SRC.SP_LINK_DOWN p 0 :=
  if_pos (by simp [hst, hm])

/-- A lane loses its signal: its front-end leaves, or its links go down. -/
theorem laneSignalLoss_loses (hst : laneState s n p = lnUp ∨ laneState s n p = lnLocking) :
    laneSignalLoss n p s = raise (if rxMode (setLaneState s n p lnNoSignal) n p = mWsl then
      feLeave (setLaneState s n p lnNoSignal) n p else linksDown (setLaneState s n p lnNoSignal) n p) n SRC.SP_LINK_DOWN p 0 :=
  if_pos (by simpa using hst)

end

/-! ### The obligation on the Wheels and the sensor lanes -/

/-- Settles O9: each clause is the command's own case of the operation it stands for. -/
theorem wheelsAndSensorLanes : Obligations.WheelsAndSensorLanes := by
  unfold Obligations.WheelsAndSensorLanes
  refine ⟨?win, ?wout, ?starts, ?drains, ?drained, ?linkStarts, ?linkRejected, ?linkStops, ?linkUp, ?locks, ?mismatch, ?alignLoss,
    ?linkLoss, ?wslLoss⟩
  case win =>
    exact fun n t k way s b gn g num m l hn ho hnum hm hopc hw hl hx =>
      gives_wheelTransfer hn ((wheelTransfer_serves
        ⟨ho, Option.bind_eq_some_iff.2 ⟨num, hnum, hm⟩, .inl hopc, hw, hl, hx⟩ k way).trans (if_pos hopc))
  case wout =>
    exact fun n t k way s b gn g num m l hn ho hnum hm hopc hw hl hx =>
      gives_wheelTransfer hn ((wheelTransfer_serves
        ⟨ho, Option.bind_eq_some_iff.2 ⟨num, hnum, hm⟩, .inr hopc, hw, hl, hx⟩ k way).trans (if_neg (by omega)))
  case starts => exact fun n e s ht h => gives_wheelEnWrite ht (enWrite_starts h)
  case drains => exact fun n e s ht h => gives_wheelEnWrite ht (enWrite_drains h)
  case drained =>
    exact fun n e s hn hst ho => gives_inRun (wheelDrainDone n e) hn (fun _ => rfl) (wheelDrainDone_drained hst ho)
  case linkStarts => exact fun n k s ht h hm => gives_jlinkEnWrite ht ((jlinkEnWrite_off h).trans (if_pos hm))
  case linkRejected =>
    exact fun n k s ht h hm => gives_jlinkEnWrite ht ((jlinkEnWrite_off h).trans (if_neg (by simp [hm])))
  case linkStops => exact fun n k s ht h => gives_jlinkEnWrite ht (jlinkEnWrite_stops h)
  case linkUp =>
    exact fun n k s t hs hon hup hf hl => gives_of_done (jlinkUp n k) (fun _ => rfl) (jlinkUp_aligns hs hon hup hf hl)
  case locks =>
    exact fun n p s ha hd hst hr ho =>
      gives_sensorLaneLock ((sensorLaneLock_gains ha hd hst).trans ((if_neg (by simp [hr])).trans (if_pos ho)))
  case mismatch =>
    exact fun n p s ha hd hst hr => gives_sensorLaneLock ((sensorLaneLock_gains ha hd hst).trans (if_pos hr))
  case alignLoss =>
    exact fun n p s hst hm => gives_of_done (laneAlignLoss n p) (fun _ => rfl) (laneAlignLoss_jesd hst hm)
  case linkLoss =>
    exact fun n p s hst hm => gives_laneSignalLoss ((laneSignalLoss_loses hst).trans (by rw [if_neg hm]))
  case wslLoss =>
    exact fun n p s hst hm => gives_laneSignalLoss ((laneSignalLoss_loses hst).trans (by rw [if_pos hm]))

end Sys2Proof.Machine
end

section
/-! What comes over the lanes of the sensor ports: JESD204C blocks, SYSREF pulses, packets of the Worlith Sensor Link and raw words
(11 R247-R253, 12 R284). -/

namespace Sys2Proof.Machine

/-! ### SYSREF (11 R247) -/

/-- A period that is not 0 in nanoseconds is not 0 in the unit of device time. -/
theorem sysrefPeriod_ne_zero {n : Nat} {s : Block} (h : fget s n F.SP_SYSREF_PERIOD_NS ≠ 0) :
    fget s n F.SP_SYSREF_PERIOD_NS * 2 ^ 16 ≠ 0 := Nat.mul_ne_zero h (by decide)

/-! ### Packets of the Worlith Sensor Link (11 R250-R252) -/

section
variable {n : Node} {p : Fin 24} {bytes : List (BitVec 8)} {period : Nat} {s t : Block}

theorem gives_samples (h : inRun s n = true) (ht : samples n p bytes period s = t) : Gives (.samples n p bytes period) s t :=
  gives_inRun (samples n p bytes period) h (fun _ => rfl) ht

theorem gives_timeSync {start : Bool} (h : inRun s n = true) (ht : timeSync n p start bytes s = t) :
    Gives (.timeSync n p ⟨start, bytes⟩) s t := gives_inRun (timeSync n p start bytes) h (fun _ => rfl) ht

theorem gives_control {toFrontEnd : Bool} (h : inRun s n = true) (ht : control n p toFrontEnd bytes s = t) :
    Gives (.control n p toFrontEnd bytes) s t := gives_inRun (control n p toFrontEnd bytes) h (fun _ => rfl) ht

variable (hu : wslUp s n p = true)
include hu

theorem timeSync_starts :
    let b := atTime s ((lane s n p).syncAt + 1000000 * 2 ^ 16)
    timeSync n p true bytes s = wslSend (putLane b n p { lane b n p with syncAt := b.now }) n p 3 0 (leBytes 8 (devNs b n)) :=
  if_neg (by simp [hu])

theorem control_toFrontEnd (hl : bytes.length ≤ 2048) : control n p true bytes s = wslSend s n p 4 0 bytes :=
  (if_neg (by simp [hu])).trans (if_pos hl)

theorem samples_taken {k : WslPkt} (hk : wslParse bytes = some k) (ht : k.typ = 1) (hl : samplesLenOk k = true)
    (hd : (lane (wslSeen s n p k) n p).down = false) (hf : fbit (wslSeen s n p k) n F.CHR_FE_PRESENT p = true) :
    samples n p bytes period s = wslSamples (wslSeen s n p k) n p k period := by
  unfold samples
  rw [if_neg (by simp [hu]), hk]
  dsimp only
  rw [if_pos (by simp [ht, hl]), if_neg (by simp [hd, hf])]

theorem timeSync_answers {k : WslPkt} (hk : wslParse bytes = some k) (ht : k.typ = 3) :
    timeSync n p false bytes s = wslSend (wslSeen s n p k) n p 3 0 (leBytes 8 (devNs s n)) := by
  unfold timeSync
  rw [if_neg (by simp [hu]), if_neg Bool.false_ne_true, hk]
  exact if_pos ht

theorem control_fromFrontEnd {k : WslPkt} (hk : wslParse bytes = some k) (ht : k.typ = 4) :
    control n p false bytes s = { wslSeen s n p k with ctlIn := s.ctlIn ++ [(n.val, p.val, k.payload)] } := by
  unfold control
  rw [if_neg (by simp [hu]), if_neg Bool.false_ne_true, hk]
  exact if_pos ht

/-! Bytes that are no packet are discarded and counted, whatever was to come. -/

section
variable (hk : wslParse bytes = none)
include hk

theorem samples_discards : samples n p bytes period s = wslBad s n p := by
  unfold samples
  rw [if_neg (by simp [hu]), hk]

theorem timeSync_discards : timeSync n p false bytes s = wslBad s n p := by
  unfold timeSync
  rw [if_neg (by simp [hu]), if_neg Bool.false_ne_true, hk]

theorem control_discards : control n p false bytes s = wslBad s n p := by
  unfold control
  rw [if_neg (by simp [hu]), if_neg Bool.false_ne_true, hk]

end

end

/-! ### Raw lanes (11 R253, 12 R284) -/

section
variable {n : Node} {p : Fin 24} {w : DWord} {s : Block} (hl : regionLive s n (p / 3) = true)
include hl

theorem rawLaneWord_in (hm : rxMode s n p = mRaw) :
    rawLaneWord n p false w s = { s with
      rawIn := mput (fun _ => []) s.rawIn (n.val * 32 + p.val) (mget (fun _ => []) s.rawIn (n.val * 32 + p.val) ++ [w]) } :=
  (if_neg (by simp [hl])).trans (if_pos hm)

theorem rawLaneWord_out (hm : txMode s n p = mRaw) :
    rawLaneWord n p true w s = { s with
      rawOut := mput (fun _ => []) s.rawOut (n.val * 32 + p.val) (mget (fun _ => []) s.rawOut (n.val * 32 + p.val) ++ [w]) } :=
  (if_neg (by simp [hl])).trans (if_pos hm)

end

/-! ### The obligation on sensor packets and pulses -/

/-- Settles O10: each clause is the command's own case of the operation it stands for. -/
theorem sensorPacketsAndPulses : Obligations.SensorPacketsAndPulses := by
  unfold Obligations.SensorPacketsAndPulses
  refine ⟨?block, ?pulse, ?samples, ?syncAnswers, ?syncStarts, ?controlIn, ?controlOut, ?discards, ?rawIn, ?rawOut⟩
  case block =>
    exact fun n k bad octs s hn hon hup =>
      gives_inRun (jesdBlockReceive n k bad octs) hn (fun _ => rfl) (if_pos (by simp [hon, hup]))
  case pulse =>
    exact fun n s hp => gives_of_done (sysrefPulse n) (fun _ => rfl) (if_neg (sysrefPeriod_ne_zero hp))
  case samples =>
    exact fun n p bytes period s k hn hu hk ht hl hd hf => gives_samples hn (samples_taken hu hk ht hl hd hf)
  case syncAnswers => exact fun n p bytes s k hn hu hk ht => gives_timeSync hn (timeSync_answers hu hk ht)
  case syncStarts => exact fun n p bytes s hn hu => gives_timeSync hn (timeSync_starts hu)
  case controlIn => exact fun n p bytes s k hn hu hk ht => gives_control hn (control_fromFrontEnd hu hk ht)
  case controlOut => exact fun n p bytes s hn hu hl => gives_control hn (control_toFrontEnd hu hl)
  case discards =>
    exact fun n p bytes period s hn hu hk =>
      ⟨gives_samples hn (samples_discards hu hk), gives_timeSync hn (timeSync_discards hu hk),
        gives_control hn (control_discards hu hk)⟩
  case rawIn =>
    exact fun n p w s hn hm hl => gives_inRun (rawLaneWord n p false w) hn (fun _ => rfl) (rawLaneWord_in hl hm)
  case rawOut =>
    exact fun n p w s hn hm hl => gives_inRun (rawLaneWord n p true w) hn (fun _ => rfl) (rawLaneWord_out hl hm)

end Sys2Proof.Machine
end

section
/-! The streams of the channel engine: container writes, lost samples, blocks, and a stream's enable and drain
(11 R254-R262). -/

namespace Sys2Proof.Machine

section
variable {n : Node} {t : Fin 64} {s b : Block}

theorem gives_streamEnWrite {en : Bool} (h : takenNow s n 0xB = true) (hb : streamEnWrite n t en s = b) :
    Gives (.streamEnWrite n t en) s b := gives_row (.streamEnWrite n t en) h (fun _ => rfl) rfl hb

/-- The oldest container write completes once its memory answers (11 R257, R259). -/
theorem sampleWriteDone_answered {w : ChWrite} {rest : List ChWrite} {a : MemAns} (hw : (strm s n t).writes = w :: rest)
    (ha : strmReq s n t ⟨true, sampleAddr s n t w.slot w.num, (container w.value).map some⟩ = some a) :
    sampleWriteDone n t s =
      countSample (putStrm a.st n t { strm a.st n t with writes := rest }) n t w (a.code ≠ rspOk) := by
  unfold sampleWriteDone
  rw [hw]
  dsimp only
  rw [ha]

/-- A channel of a running stream loses one sample, at its due time and the lateness limit (11 R260). -/
theorem sampleLostDue_loses {c : Fin 16384} {due : Nat} (hv : rtValid (chan s n c).route = true)
    (hst : strmState s n (rtStream (chan s n c).route) = 2) (hd : nextDue s n c = some due) :
    sampleLostDue n c s = queueLost n c 1 (atTime s (due + lateLimit s n (rtStream (chan s n c).route))) := by
  unfold sampleLostDue
  dsimp only
  rw [if_pos (by simp [hv, hst]), hd]

theorem blockComplete_ready (hst : strmState s n t = 2) (hr : blockReady s n t = true) (hc : completeBlock s n t = some b) :
    blockComplete n t s = b := by
  unfold blockComplete
  rw [if_pos (by simp [hst, hr]), hc, Option.getD_some]

/-- An OFF stream starts if the routes that come into effect are legal (11 R254, R255, R262). -/
theorem streamEnWrite_off (hst : strmState s n t = 0) :
    let a := ((chanIds s n).filter fun c => atBoundary s n t c).foldl (fun s c => adopt n t 0 true s c) s
    let b := (strmChans a n t).foldl (fun s c =>
      putChan s n c { chan s n c with start := 0, pos := 0, last := none, since := 0, prev := 0 }) a
    streamEnWrite n t true s = if routesOk a n t then
        fput (fput (put64 (putStrm b n t {}) n .CH_STRM_BLOCK t 0 0) n F.CH_STRM_CTRL_EN (ix t) 1) n F.CH_STRM_CTRL_STATE (ix t) 2
      else strmReject s n t := by
  unfold streamEnWrite
  rw [hst]
  rfl

theorem streamEnWrite_drains (hst : strmState s n t = 2) :
    streamEnWrite n t false s = fput (fput s n F.CH_STRM_CTRL_EN (ix t) 0) n F.CH_STRM_CTRL_STATE (ix t) 1 := by
  unfold streamEnWrite
  rw [hst]
  rfl

/-- A DRAINING stream whose writes are all made completes its block and reads OFF (11 R262). -/
theorem streamDrainDone_drained (hst : strmState s n t = 1) (hw : (strm (drainWrites s n t) n t).writes = [])
    (hc : completeBlock (drainWrites s n t) n t = some b) :
    streamDrainDone n t s = fput (putStrm b n t {}) n F.CH_STRM_CTRL_STATE (ix t) 0 := by
  unfold streamDrainDone
  dsimp only
  rw [if_pos hst, if_pos (by simp [hw]), hc]

end

/-! ### The obligation on the streams -/

/-- Settles O11: each clause is the command's own case of the operation it stands for. -/
theorem streamsRunAndDrain : Obligations.StreamsRunAndDrain := by
  unfold Obligations.StreamsRunAndDrain
  refine ⟨?written, ?lost, ?completes, ?starts, ?drains, ?drained⟩
  case written =>
    exact fun n t s w rest a hn hw ha =>
      gives_inRun (sampleWriteDone n t) hn (fun _ => rfl) (sampleWriteDone_answered hw ha)
  case lost =>
    exact fun n c s due hn hv hst hd => gives_inRun (sampleLostDue n c) hn (fun _ => rfl) (sampleLostDue_loses hv hst hd)
  case completes =>
    exact fun n t s b hn hst hr hc => gives_inRun (blockComplete n t) hn (fun _ => rfl) (blockComplete_ready hst hr hc)
  case starts => exact fun n t s ht hst => gives_streamEnWrite ht (streamEnWrite_off hst)
  case drains => exact fun n t s ht hst => gives_streamEnWrite ht (streamEnWrite_drains hst)
  case drained =>
    exact fun n t s c hn hst hw hc => gives_inRun (streamDrainDone n t) hn (fun _ => rfl) (streamDrainDone_drained hst hw hc)

end Sys2Proof.Machine
end

section
/-! The drive outputs: how they fetch and play, their mutes and unmutes, their enables, and the inhibit pin (11 R263-R269, R453). -/

namespace Sys2Proof.Machine

/-! ### Playing (11 R263, R264) -/

/-- A drive output does its work while its module is clocked, VIN low or not (20 R438). -/
theorem gives_clocked {c : Instr} {n : Node} {s t : Block} (f : Block → Block) (h : clocked s n = true)
    (hc : ∀ st : State, exec c st = done st (whenClocked n f st.toBlock)) (ht : f s = t) : Gives c s t :=
  gives_of_done (whenClocked n f) hc ((if_pos h).trans ht)

section
variable {n : Node} {o : Fin 256} {s t : Block}

theorem gives_driveSampleDue (h : clocked s n = true) (ht : driveSampleDue n o s = t) : Gives (.driveSampleDue n o) s t :=
  gives_clocked (driveSampleDue n o) h (fun _ => rfl) ht

end

/-! ### READY (11 R263) -/

section
variable {n : Node} {o : Fin 256} {half : Fin 3} {v : DWord} {s t : Block}

theorem gives_drvReadyWrite (h : takenNow s n 0xC = true) (ht : drvReadyWrite n o half v s = t) :
    Gives (.drvReadyWrite n o half v) s t := gives_row (.drvReadyWrite n o half v) h (fun _ => rfl) rfl ht

theorem drvReadyWrite_raises (h : drvState s n o = 0 ∨ drvReady s n o ≤ halfWrite (drvReady s n o) half v.toNat) :
    drvReadyWrite n o half v s = dlmReady (put64 s n .DRV_READY 0 o (halfWrite (drvReady s n o) half v.toNat)) n o :=
  if_neg (by simpa [Classical.or_iff_not_imp_left] using h)

theorem drvReadyWrite_refuses (hon : drvState s n o ≠ 0) (h : halfWrite (drvReady s n o) half v.toNat < drvReady s n o) :
    drvReadyWrite n o half v s = drvReject s n := if_pos (by simp [hon, h])

end

/-! ### A mute, by the play state it meets (11 R266, R267) -/

section
variable {s : Block} {n o bit : Nat}

theorem muteOut_off (h : drvState s n o = 0) : muteOut s n o bit = s := if_pos h

variable (hon : drvState s n o ≠ 0)
include hon

/-- An output that is MUTED, or on its way there, gains the cause. -/
theorem muteOut_muted (hp : drvPlay s n o = pMuted ∨ drvPlay s n o = pRampDown) :
    muteOut s n o bit = drvSet s n o (drvPlay s n o) (Nat.lor (drvCause s n o) (2 ^ bit)) := by
  unfold muteOut
  rw [if_neg hon]
  rcases hp with hp | hp <;> rw [hp] <;> rfl

/-- A ramp up turns round at the step it has reached. -/
theorem muteOut_rampUp (hp : drvPlay s n o = pRampUp) :
    muteOut s n o bit = drvSet (putDrv s n o { drv s n o with step := (drv s n o).nr - (drv s n o).step }) n o pRampDown
      (Nat.lor (drvCause s n o) (2 ^ bit)) := by
  unfold muteOut
  rw [if_neg hon, hp]
  rfl

theorem muteOut_playing (hp : drvPlay s n o = pPlaying) :
    let x := { drv s n o with
      step := 0, nr := rampLen (fget s n F.DRV_RAMP_RAMP_MS o) (drv s n o).period, block := fget s n F.DRV_RAMP_BLOCK o }
    muteOut s n o bit = drvSet (putDrv s n o x) n o pRampDown (Nat.lor (drvCause s n o) (2 ^ bit)) := by
  unfold muteOut
  rw [if_neg hon, hp]
  rfl

end

/-! ### An unmute (11 R267) -/

section
variable {s : Block} {n o : Nat}

/-- The pin does not inhibit the output, it has a period, and READY covers a ramp from its position. -/
structure MayUnmute (s : Block) (n o : Nat) : Prop where
  free : inhibited s n = false
  paced : (drv s n o).period ≠ 0
  covered : drvPos s n o + rampLen (fget s n F.DRV_RAMP_RAMP_MS o) (drv s n o).period < drvReady s n o

theorem not_mayUnmute (h : inhibited s n = true ∨ (drv s n o).period = 0 ∨
    drvReady s n o ≤ drvPos s n o + rampLen (fget s n F.DRV_RAMP_RAMP_MS o) (drv s n o).period) : ¬ MayUnmute s n o := by
  rintro ⟨hi, hper, hr⟩
  rcases h with h | h | h
  · exact Bool.false_ne_true (hi.symm.trans h)
  · exact hper h
  · exact Nat.not_lt.mpr h hr

theorem unmuteOut_notOn (h : drvState s n o ≠ 2) : unmuteOut s n o = fput s n F.DRV_STATUS_UNMUTE_REFUSED o 1 := if_pos h

variable (hon : drvState s n o = 2)
include hon

theorem unmuteOut_rampDown (hp : drvPlay s n o = pRampDown) : unmuteOut s n o = fput s n F.DRV_STATUS_UNMUTE_REFUSED o 1 := by
  unfold unmuteOut
  dsimp only
  rw [if_neg (by simp [hon]), hp]
  rfl

variable (hp : drvPlay s n o = pMuted)
include hp

theorem unmuteOut_starts (h : MayUnmute s n o) :
    let x := { drv s n o with
      step := 0, nr := rampLen (fget s n F.DRV_RAMP_RAMP_MS o) (drv s n o).period, under := none
      block := fget s n F.DRV_RAMP_BLOCK o }
    unmuteOut s n o = drvSet (fput (putDrv s n o x) n F.DRV_STATUS_LOOPING o 0) n o pRampUp 0 := by
  obtain ⟨hi, hper, hr⟩ := h
  unfold unmuteOut
  dsimp only
  rw [if_neg (by simp [hon]), hp]
  exact if_pos (by simp [hi, hper, hr])

theorem unmuteOut_refuses (h : ¬ MayUnmute s n o) : unmuteOut s n o = fput s n F.DRV_STATUS_UNMUTE_REFUSED o 1 := by
  unfold unmuteOut
  dsimp only
  rw [if_neg (by simp [hon]), hp]
  refine if_neg fun hc => h ?_
  simp only [Bool.and_eq_true, Bool.not_eq_true', decide_eq_true_eq] at hc
  obtain ⟨⟨hi, hper⟩, hr⟩ := hc
  exact ⟨hi, hper, hr⟩

end

section
variable {n : Node} {o : Fin 256} {s t : Block}

theorem gives_driveMuteWrite (h : takenNow s n 0xC = true) (ht : muteOut s n o mcCommand = t) :
    Gives (.driveMuteWrite n o) s t := gives_row (.driveMuteWrite n o) h (fun _ => rfl) rfl ht

theorem gives_driveUnmuteWrite (h : takenNow s n 0xC = true) (ht : unmuteOut s n o = t) :
    Gives (.driveUnmuteWrite n o) s t := gives_row (.driveUnmuteWrite n o) h (fun _ => rfl) rfl ht

end

/-! ### Enables (11 R267, R269, R453) -/

section
variable {n : Node} {o : Fin 256} {s t : Block}

theorem gives_driveEnWrite {en : Bool} (h : takenNow s n 0xC = true) (ht : driveEnWrite n o en s = t) :
    Gives (.driveEnWrite n o en) s t := gives_row (.driveEnWrite n o en) h (fun _ => rfl) rfl ht

theorem driveEnWrite_rejects (hst : drvState s n o = 0) (hr : fget s n F.DRV_RINGLEN_RINGLEN o = 0) :
    driveEnWrite n o true s = drvReject s n := by
  unfold driveEnWrite
  rw [hst]
  exact if_pos hr

/-- An OFF output with a ring takes START and PERIOD of its group as they stand, and starts MUTED. -/
theorem driveEnWrite_starts (hst : drvState s n o = 0) (hr : fget s n F.DRV_RINGLEN_RINGLEN o ≠ 0) :
    let g := fget s n F.DRV_CFG_GROUP o
    let x : DrvSt := { start := get64 s n .DRV_GRP_START g, period := (rget s n .DRV_GRP_PERIOD (ix g)).toNat }
    let b := putDrv s n o x
    let b := put64 b n .DRV_POS 0 o (firstDue x b.now)
    let b := fput (fput b n F.DRV_CFG_EN o 1) n F.DRV_CFG_STATE o 2
    driveEnWrite n o true s = drvSet (fput b n F.DRV_STATUS_LOOPING o 0) n o pMuted (drvCause b n o) := by
  unfold driveEnWrite
  rw [hst]
  exact if_neg hr

/-- An ON output starts its mute; it is OFF at once if it was MUTED. -/
theorem driveEnWrite_drains (hst : drvState s n o = 2) :
    let b := muteOut (fput (fput s n F.DRV_CFG_EN o 0) n F.DRV_CFG_STATE o 1) n o mcEn
    driveEnWrite n o false s = if drvPlay b n o = pMuted then fput b n F.DRV_CFG_STATE o 0 else b := by
  unfold driveEnWrite
  rw [hst]
  rfl

end

/-! ### The inhibit pin (11 R268) -/

section
variable {n : Node} {s t : Block}

theorem gives_inhibitAssert (ht : inhibitAssert n s = t) : Gives (.inhibitAssert n) s t :=
  gives_of_done (inhibitAssert n) (fun _ => rfl) ht

end

/-! ### The obligation on the drive outputs -/

/-- Settles O12: each clause is the command's own case of the operation it stands for; a mute and an unmute go by the play state. -/
theorem driveOutputsPlayAndMute : Obligations.DriveOutputsPlayAndMute := by
  unfold Obligations.DriveOutputsPlayAndMute
  refine ⟨?fetches, ?sendsSafe, ?plays, ?readyRaises, ?readyRefused, ?muteOff, ?muteMuted, ?muteRampUp, ?mutePlaying, ?muteAll,
    ?unmutes, ?unmuteRefused, ?enRejected, ?starts, ?drains, ?inhibits, ?inhibitsOnce, ?releases⟩
  case fetches =>
    exact fun n o count s hc hon => gives_clocked (driveFetch n o count) hc (fun _ => rfl) (if_neg hon)
  case sendsSafe => exact fun n o s hc hoff => gives_driveSampleDue hc (if_pos hoff)
  case plays => exact fun n o s hc hon hper => gives_driveSampleDue hc ((if_neg hon).trans (if_neg hper))
  case readyRaises => exact fun n o half v s ht h => gives_drvReadyWrite ht (drvReadyWrite_raises h)
  case readyRefused => exact fun n o half v s ht hon h => gives_drvReadyWrite ht (drvReadyWrite_refuses hon h)
  case muteOff => exact fun n o s ht hoff => gives_driveMuteWrite ht (muteOut_off hoff)
  case muteMuted => exact fun n o s ht hon hp => gives_driveMuteWrite ht (muteOut_muted hon hp)
  case muteRampUp => exact fun n o s ht hon hp => gives_driveMuteWrite ht (muteOut_rampUp hon hp)
  case mutePlaying => exact fun n o s ht hon hp => gives_driveMuteWrite ht (muteOut_playing hon hp)
  case muteAll => exact fun n s ht => gives_row (.muteAllWrite n) ht (fun _ => rfl) rfl rfl
  case unmutes =>
    exact fun n o s ht hon hp hi hper hr => gives_driveUnmuteWrite ht (unmuteOut_starts hon hp ⟨hi, hper, hr⟩)
  case unmuteRefused =>
    intro n o s ht h
    apply gives_driveUnmuteWrite ht
    by_cases hon : drvState s n o = 2
    · rcases h with h | h | ⟨hp, h⟩
      · exact absurd hon h
      · exact unmuteOut_rampDown hon h
      · exact unmuteOut_refuses hon hp (not_mayUnmute h)
    · exact unmuteOut_notOn hon
  case enRejected => exact fun n o s ht hst hr => gives_driveEnWrite ht (driveEnWrite_rejects hst hr)
  case starts => exact fun n o s ht hst hr => gives_driveEnWrite ht (driveEnWrite_starts hst hr)
  case drains => exact fun n o s ht hst => gives_driveEnWrite ht (driveEnWrite_drains hst)
  case inhibits => exact fun n s hi => gives_inhibitAssert (if_neg (by simp [hi]))
  case inhibitsOnce => exact fun n s hi => gives_inhibitAssert (if_pos hi)
  case releases => exact fun n s => gives_of_done (inhibitRelease n) (fun _ => rfl) rfl

end Sys2Proof.Machine
end

section
/-! The Log engine's records, host ring and enables, and the deadline monitors (11 R270-R276, 17 R392-R395). -/

namespace Sys2Proof.Machine

/-! ### The writers' records (11 R270) -/

section
variable {c : Ctx} {n : Node} {d : DWord} {s t : Block}

/-- A write of LOG_EVENT is a request of its writer, the host or not. -/
theorem gives_logEventWrite (h : takenBy s c n 0xD = true) (ht : logEventWrite c n d s = t) : Gives (.logEventWrite c n d) s t :=
  gives_of_done (ctxReq c (.row (.logEventWrite c n d))) (fun _ => rfl) ((ctxReq_row s c n 0xD _ h rfl).trans ht)

end

/-! ### The host ring (11 R275, R276) -/

section
variable {n : Node} {s t : Block}

/-- The oldest record of the spool goes into the host ring once the whole of it fits. -/
theorem logHostCopy_copies {pos len : Nat} {area : Word} {rest : List (Nat × Nat × Word)}
    (hq : (logSt s n).queue = (pos, len, area) :: rest) (hon : fget s n F.LOG_CTRL_STATE ≠ 0)
    (hr : get64 s n .LOG_HOST_WPTR + len ≤ get64 s n .LOG_HOST_RPTR + 2 ^ fget s n F.LOG_HOST_SIZE_SIZE_LOG2) :
    let w := get64 s n .LOG_HOST_WPTR
    let d := ringRead s n area pos len
    let b := put64 (hostRing d.2 n w d.1) n .LOG_HOST_WPTR 0 0 (w + len)
    let due := (logSt s n).unsigDue.getD (b.now + fget b n F.LOG_IRQ_TIMER_US * 1000 * 2 ^ 16)
    let b := putLog b n { logSt b n with queue := rest, unsigDue := some due }
    let b := if fget b n F.LOG_CTRL_STATE = 2 then spoolGaps b n else b
    logHostCopy n s = if (logSt s n).sigAt + 1024 * fget b n F.LOG_IRQ_THRESH_KIB ≤ w + len then logIrq b n else b := by
  unfold logHostCopy
  dsimp only
  rw [hq]
  exact (if_neg hon).trans (if_neg (Nat.not_lt.mpr hr))

theorem logIrqTimer_due {due : Nat} (h : (logSt s n).unsigDue = some due) : logIrqTimer n s = logIrq (atTime s due) n := by
  unfold logIrqTimer
  rw [h]

theorem gives_logRptrWrite {half : Fin 3} {v : DWord} (h : takenNow s n 0xD = true) (ht : logRptrWrite n half v s = t) :
    Gives (.logRptrWrite n half v) s t := gives_row (.logRptrWrite n half v) h (fun _ => rfl) rfl ht

theorem gives_logEnWrite {en : Bool} (h : takenNow s n 0xD = true) (ht : logEnWrite n en s = t) :
    Gives (.logEnWrite n en) s t := gives_row (.logEnWrite n en) h (fun _ => rfl) rfl ht

theorem logEnWrite_starts (hst : fget s n F.LOG_CTRL_STATE = 0) :
    let b := put64 (put64 (fset (fset s n F.LOG_CTRL_EN 1) n F.LOG_CTRL_STATE 2) n .LOG_HOST_WPTR 0 0 0) n .LOG_HOST_RPTR 0 0 0
    logEnWrite n true s = putLog b n { logSt b n with sigAt := 0, unsigDue := none } := by
  unfold logEnWrite
  rw [hst]
  rfl

theorem logEnWrite_drains (hst : fget s n F.LOG_CTRL_STATE = 2) :
    logEnWrite n false s = fset (fset s n F.LOG_CTRL_EN 0) n F.LOG_CTRL_STATE 1 := by
  unfold logEnWrite
  rw [hst]
  rfl

end

/-! ### Deadline monitors (17 R392-R394) -/

section
variable {s : Block} {n m a : Nat} (hon : dlmOn s n m = true)
include hon

theorem dlmArm_arms (hp : dlmPhase s n m ≠ dlmArmed) :
    dlmArm s n m a = setDlmPhase (put64 s n .DLM_DEADLINE 0 m ((a + get64 s n .DLM_OFFSET 0 m) % 2 ^ 64)) n m dlmArmed :=
  (if_neg (by simp [hon])).trans (if_neg hp)

theorem dlmArm_rearms (hp : dlmPhase s n m = dlmArmed) :
    dlmArm s n m a = raise (fput s n F.DLM_STATUS_REARM m 1) n SRC.DLM_REARM m 0 :=
  (if_neg (by simp [hon])).trans (if_pos hp)

end

section
variable {n : Node} {m : Fin 64} {s t : Block}

/-- A write of ARM to a monitor that software arms is an arming event, at ABS or now (17 R392). -/
theorem gives_dlmArmWrite (h : takenNow s n 0x13 = true) (hsrc : fget s n F.DLM_CTRL_ARM_SRC m = 0)
    (ht : dlmArm s n m (if fbit s n F.DLM_CTRL_ABS m then get64 s n .DLM_ABS 0 m else nowNs s) = t) :
    Gives (.dlmArmWrite n m) s t := gives_row (.dlmArmWrite n m) h (fun _ => rfl) rfl ((if_pos hsrc).trans ht)

/-- A write of DONE to a monitor that software completes is a completion event (17 R393). -/
theorem gives_dlmDoneWrite (h : takenNow s n 0x13 = true) (hsrc : fget s n F.DLM_CTRL_DONE_SRC m = 0)
    (ht : dlmDone s n m = t) : Gives (.dlmDoneWrite n m) s t :=
  gives_row (.dlmDoneWrite n m) h (fun _ => rfl) rfl ((if_pos hsrc).trans ht)

theorem gives_dlmEnWrite {en : Bool} (h : takenNow s n 0x13 = true) (ht : dlmEnWrite n m en s = t) :
    Gives (.dlmEnWrite n m en) s t := gives_row (.dlmEnWrite n m en) h (fun _ => rfl) rfl ht

theorem dlmEnWrite_on (hst : fget s n F.DLM_CTRL_STATE m = 0) :
    dlmEnWrite n m true s = fput (fput s n F.DLM_CTRL_EN m 1) n F.DLM_CTRL_STATE m 2 := by
  unfold dlmEnWrite
  rw [hst]
  rfl

theorem dlmEnWrite_off (hst : fget s n F.DLM_CTRL_STATE m = 2) :
    dlmEnWrite n m false s = setDlmPhase (fput (fput s n F.DLM_CTRL_EN m 0) n F.DLM_CTRL_STATE m 0) n m dlmIdle := by
  unfold dlmEnWrite
  rw [hst]
  rfl

end

/-! ### The obligation on the log and the deadline monitors -/

/-- Settles O13: each clause is the command's own case of the operation it stands for. -/
theorem logAndDeadlines : Obligations.LogAndDeadlines := by
  unfold Obligations.LogAndDeadlines
  refine ⟨?event, ?eventOff, ?copies, ?timer, ?rptr, ?rptrRefused, ?starts, ?drains, ?drained, ?arms, ?rearms, ?done, ?expires,
    ?monitorOn, ?monitorOff⟩
  case event => exact fun c n d s ht hon => gives_logEventWrite ht (if_pos hon)
  case eventOff => exact fun c n d s ht hoff => gives_logEventWrite ht (if_neg (by simp [hoff]))
  case copies =>
    exact fun n s pos len area rest hn hq hon hr =>
      gives_inRun (logHostCopy n) hn (fun _ => rfl) (logHostCopy_copies hq hon hr)
  case timer => exact fun n s due h => gives_of_done (logIrqTimer n) (fun _ => rfl) (logIrqTimer_due h)
  case rptr =>
    exact fun n half v s ht hw hr => gives_logRptrWrite ht (if_neg (by simp [Nat.not_lt.mpr hw, Nat.not_lt.mpr hr]))
  case rptrRefused => exact fun n half v s ht h => gives_logRptrWrite ht (if_pos (by simpa using h))
  case starts => exact fun n s ht hst => gives_logEnWrite ht (logEnWrite_starts hst)
  case drains => exact fun n s ht hst => gives_logEnWrite ht (logEnWrite_drains hst)
  case drained =>
    exact fun n s hn hst hq => gives_inRun (logDrainDone n) hn (fun _ => rfl) (if_pos (by simp [hst, hq]))
  case arms => exact fun n m s ht hsrc hon hp => gives_dlmArmWrite ht hsrc (dlmArm_arms hon hp)
  case rearms => exact fun n m s ht hsrc hon hp => gives_dlmArmWrite ht hsrc (dlmArm_rearms hon hp)
  case done => exact fun n m s ht hsrc hon => gives_dlmDoneWrite ht hsrc (if_neg (by simp [hon]))
  case expires =>
    exact fun n m s hon hp => gives_of_done (deadlineExpiry n m) (fun _ => rfl) (if_pos (by simp [hon, hp]))
  case monitorOn => exact fun n m s ht hst => gives_dlmEnWrite ht (dlmEnWrite_on hst)
  case monitorOff => exact fun n m s ht hst => gives_dlmEnWrite ht (dlmEnWrite_off hst)

end Sys2Proof.Machine
end

section
/-! The queue of waiting commands over a step (14 R325, log 1), and which flit a router's output sends (16 R369). -/

namespace Sys2Proof.Machine

/-! ### The queue over a step -/

/-- A step takes the front command off the queue and leaves the rest; on an empty queue there is nothing to take. -/
theorem step_pending {s s' : State} (h : step s = .next s') : s'.pending = s.pending.tail := by
  obtain ⟨b, q⟩ := s
  cases q with
  | nil =>
    rw [step_nil] at h
    injection h with h
    rw [← h]
    rfl
  | cons c q =>
    obtain ⟨f, hf⟩ := exec_gives c
    rw [step_cons, hf b q] at h
    injection h with h
    rw [← h]
    rfl

/-- Settles O56: what is left waiting is a tail of what was, so what holds of every waiting command goes on to hold. -/
theorem queueStaysWellFormed : Obligations.QueueStaysWellFormed := by
  unfold Obligations.QueueStaysWellFormed
  refine ⟨fun s s' hwf h => ⟨step_pending h, fun c hc => hwf c ?_⟩, rfl⟩
  rw [step_pending h] at hc
  exact List.mem_of_mem_tail hc

/-! ### The order in which a router's output serves its heads (16 R369) -/

/-- How many inputs after the one served last an input comes. -/
def turnsAfter (last : Nat) (h : Nat × BitVec 128) : Nat := (h.1 + 7 - last) % 8

/-- Head `a` is served no later than head `b`: it is older, or as old and not later in turn. -/
def ServedBefore (last : Nat) (a b : Nat × BitVec 128) : Prop :=
  flAge b.2 ≤ flAge a.2 ∧ (flAge b.2 = flAge a.2 → turnsAfter last a ≤ turnsAfter last b)

theorem ServedBefore.refl (last : Nat) (a : Nat × BitVec 128) : ServedBefore last a a := ⟨Nat.le_refl _, fun _ => Nat.le_refl _⟩

theorem ServedBefore.trans {last : Nat} {a b c : Nat × BitVec 128} (hab : ServedBefore last a b) (hbc : ServedBefore last b c) :
    ServedBefore last a c := by
  obtain ⟨hage, hturn⟩ := hab
  obtain ⟨hage', hturn'⟩ := hbc
  exact ⟨by omega, fun h => Nat.le_trans (hturn (by omega)) (hturn' (by omega))⟩

/-- Where the rest of the heads has a winner, the winner of all is it or the first head, whichever is served before the other. -/
theorem nextHead_cons_some {last : Nat} {h b : Nat × BitVec 128} {l : List (Nat × BitVec 128)} (hb : nextHead last l = some b) :
    ∃ w, nextHead last (h :: l) = some w ∧ (w = h ∨ w = b) ∧ ServedBefore last w h ∧ ServedBefore last w b := by
  rw [nextHead, hb]
  dsimp only
  split
  case isTrue hlt => exact ⟨b, rfl, .inr rfl, ⟨by omega, fun _ => by omega⟩, .refl last b⟩
  case isFalse hle =>
    split
    case isTrue hlt => exact ⟨h, rfl, .inl rfl, .refl last h, ⟨by omega, fun _ => by omega⟩⟩
    case isFalse hge =>
      split
      case isTrue hturn => exact ⟨b, rfl, .inr rfl, ⟨by omega, fun _ => Nat.le_of_lt hturn⟩, .refl last b⟩
      case isFalse hturn => exact ⟨h, rfl, .inl rfl, .refl last h, ⟨by omega, fun _ => Nat.le_of_not_lt hturn⟩⟩

theorem nextHead_isSome {last : Nat} {l : List (Nat × BitVec 128)} (hl : l ≠ []) : ∃ h, nextHead last l = some h := by
  cases l with
  | nil => exact absurd rfl hl
  | cons h l =>
    cases hb : nextHead last l with
    | none => exact ⟨h, by rw [nextHead, hb]⟩
    | some b =>
      obtain ⟨w, hw, _⟩ := nextHead_cons_some (h := h) hb
      exact ⟨w, hw⟩

/-- The head served next is one of the heads, and is served before every one of them. -/
theorem nextHead_first {last : Nat} {l : List (Nat × BitVec 128)} {w : Nat × BitVec 128} (hw : nextHead last l = some w) :
    w ∈ l ∧ ∀ o ∈ l, ServedBefore last w o := by
  induction l generalizing w with
  | nil => exact absurd hw (by simp [nextHead])
  | cons h l ih =>
    cases hb : nextHead last l with
    | none =>
      have hnil : l = [] := by
        by_contra hl
        obtain ⟨b, hb'⟩ := nextHead_isSome (last := last) hl
        simp [hb'] at hb
      subst hnil
      have hwh : w = h := by simpa [nextHead] using hw.symm
      subst hwh
      exact ⟨List.mem_singleton_self w, by simpa using ServedBefore.refl last w⟩
    | some b =>
      obtain ⟨w', hw', hor, hh, hbb⟩ := nextHead_cons_some (h := h) hb
      obtain rfl : w' = w := Option.some.inj (hw'.symm.trans hw)
      obtain ⟨hmem, hall⟩ := ih hb
      refine ⟨?_, fun o ho => ?_⟩
      · rcases hor with rfl | rfl
        · exact List.mem_cons_self
        · exact List.mem_cons_of_mem _ hmem
      · rcases List.mem_cons.1 ho with rfl | ho
        · exact hh
        · exact hbb.trans (hall o ho)

/-- Settles O31: by induction on the heads, the one sent is served before every other. -/
theorem routersServeTheOldestFlit : Obligations.RoutersServeTheOldestFlit := by
  unfold Obligations.RoutersServeTheOldestFlit
  exact fun last l => ⟨nextHead_isSome, fun _ h => nextHead_first h⟩

end Sys2Proof.Machine
end

section
/-! What the fabric's cells, RAM blocks, stream ports, target windows, and trigger and interrupt lines do (12 R279-R286). -/

namespace Sys2Proof.Machine

/-! ### Long tracks (12 R281) -/

section
variable {n : Node} {track : Fin 1024} {user : BitVec 16} {s : Block}

/-- A track that has raised no contention in the last 1 ms raises it as soon as two drivers drive it. -/
theorem fabricContention_quiet (hq : contQuiet s n track = true) :
    let b := { s with contAt := mput (fun _ => none) s.contAt (n.val * 1024 + track.val) (some s.now) }
    fabricContention n track user s = match (List.range 16).filter (driving s n track user) with
      | w :: l :: _ => raise (if fbit b n F.GKO_CONTENTION_VALID then b else rput b n .GKO_CONTENTION 0
          (BitVec.ofNat 32 (2 ^ 31 + track.val * 2 ^ 16 + w * 2 ^ 8 + l))) n SRC.FABRIC_CONTENTION 0 0
      | _ => s := by
  unfold fabricContention
  rcases (List.range 16).filter (driving s n track user) with _ | ⟨w, _ | ⟨l, rest⟩⟩
  · rfl
  · rfl
  · exact if_pos hq

theorem fabricContention_unquiet (hq : contQuiet s n track = false) : fabricContention n track user s = s := by
  unfold fabricContention
  rcases (List.range 16).filter (driving s n track user) with _ | ⟨w, _ | ⟨l, rest⟩⟩
  · rfl
  · rfl
  · exact if_neg (ne_true_of_eq_false hq)

end

/-! ### RAM blocks (12 R279) -/

section
variable {n : Node} {r : Fin 8} {m : Fin 64} {b oneClock : Bool} {w w2 : BitVec 14} {d : DWord} {s : Block}
  (hr : rgRuns s n r = true) (hp : (b && portShape s n r m b == 5) = false)
include hr hp

theorem regionRamRead_reads :
    let a := ramRead s n r m (portShape s n r m b) w.toNat
    regionRamRead n r m b w none oneClock s =
      answer (1024 + rgKey n r) ⟨b2n a.2.1, leBytes 8 a.1, ramLatched a.2.2 n r m b (portShape s n r m b) w.toNat a.1⟩ :=
  if_pos (by rw [hr, hp]; rfl)

/-- A read with a write of the same cycle through the other port. -/
theorem regionRamRead_meets :
    let shape := portShape s n r m b
    let other := portShape s n r m (!b)
    let a := ramRead s n r m shape w.toNat
    let meet := ramMeet shape w.toNat other w2.toNat && decide (w2.toNat < shapeDepth other)
    let v : Nat × Block := if meet && !oneClock then ((drawFree a.2.2).1.toNat % 2 ^ shapeWidth shape, (drawFree a.2.2).2)
      else (a.1, a.2.2)
    regionRamRead n r m b w (some (w2, d)) oneClock s = answer (1024 + rgKey n r)
      ⟨b2n a.2.1, leBytes 8 v.1, ramWordPut (ramLatched v.2 n r m b shape w.toNat v.1) n r m other w2.toNat d.toNat⟩ := by
  unfold regionRamRead ramLatched
  dsimp only
  rw [if_pos (by rw [hr, hp]; rfl)]
  -- Drawing a free value leaves the check bits of the word as they are.
  split <;> rfl

end

/-! ### Stream ports (12 R283) -/

section
variable {n : Node} {port : Fin 32} {beat : BitVec 128} {period : Word} {taken : BitVec 7} {s : Block}

theorem inboundBeat_enters (hr : rgRuns s n (port / 4) = true)
    (hl : (mget (fun _ => []) s.gkoIn (n.val * 32 + port.val)).length < 64) :
    let q := mget (fun _ => []) s.gkoIn (n.val * 32 + port.val)
    inboundBeat n port beat period taken s = takeBeats n port taken.toNat
      { s with gkoIn := mput (fun _ => []) s.gkoIn (n.val * 32 + port.val) (q ++ [(beat, period.toNat)]) } := by
  unfold inboundBeat
  dsimp only
  rw [if_neg (by simp [hr]), if_pos hl]

theorem inboundBeat_drops (hr : rgRuns s n (port / 4) = true)
    (hl : 64 ≤ (mget (fun _ => []) s.gkoIn (n.val * 32 + port.val)).length) :
    inboundBeat n port beat period taken s = takeBeats n port taken.toNat (streamDrop s n (port / 4)) := by
  unfold inboundBeat
  dsimp only
  rw [if_neg (by simp [hr]), if_neg (Nat.not_lt.mpr hl)]

theorem inboundBeat_stopped (hr : rgRuns s n (port / 4) = false) :
    inboundBeat n port beat period taken s = takeBeats n port taken.toNat s := by
  unfold inboundBeat
  dsimp only
  rw [if_pos (by simp [hr])]

end

/-- When an outbound beat is due. -/
def beatDue (b : BitVec 128) : Nat := (b.extractLsb' 64 64).toNat * 2 ^ 16 + (b.extractLsb' 48 16).toNat

section
variable {n : Node} {port : Fin 32} {taken : Bool} {s : Block} {b : BitVec 128} {rest : List (BitVec 128)}
  (hq : mget (fun _ => []) s.gkoOut (n.val * 32 + port.val) = b :: rest)
include hq

theorem outboundBeatExpire_takes (hd : s.now ≤ beatDue b) : outboundBeatExpire n port true s =
    { s with gkoOut := mput (fun _ => []) s.gkoOut (n.val * 32 + port.val) rest } := by
  unfold outboundBeatExpire
  dsimp only
  rw [hq]
  exact if_pos (decide_eq_true hd)

theorem outboundBeatExpire_drops (hd : taken = false ∨ beatDue b < s.now) : outboundBeatExpire n port taken s =
    streamDrop (atTime { s with gkoOut := mput (fun _ => []) s.gkoOut (n.val * 32 + port.val) rest } (beatDue b)) n (port / 4) := by
  have hd' : ¬ (taken && decide (s.now ≤ beatDue b)) = true := by
    rcases hd with h | h <;> simp [h]
  unfold outboundBeatExpire
  dsimp only
  rw [hq]
  exact if_neg hd'

end

/-! ### Target windows (12 R286, 16 R370-R374) -/

section
variable {n : Node} {r : Fin 8} {who : BitVec 8} {req : MemReq} {data : List (BitVec 8)} {s b : Block}

theorem gives_geckoWindowAccess {x : NetReq} (h : inRun s n = true) (ht : geckoWindowAccess n r who x data s = b) :
    Gives (.geckoWindowAccess n r who x data) s b := gives_inRun (geckoWindowAccess n r who x data) h (fun _ => rfl) ht

theorem geckoWindowAccess_ended {k : Nat} (h : netEnd s n who.toNat (0x50 + r) req.addr = some (k, b)) :
    geckoWindowAccess n r who ⟨req, .served⟩ data s = answer who.toNat ⟨k, onesData req, b⟩ := by
  unfold geckoWindowAccess overNet1
  dsimp only
  rw [overNet_served, h]
  rfl

/-- A request whose path ends nowhere before its window comes there. -/
theorem geckoWindowAccess_there (h : netEnd s n who.toNat (0x50 + r) req.addr = none) :
    geckoWindowAccess n r who ⟨req, .served⟩ data s = answer who.toNat
      (if isolatedEp s n (0x50 + r) then ⟨rspIsolated, onesData req, s⟩ else windowReq s n r req data) := by
  unfold geckoWindowAccess overNet1
  dsimp only
  rw [overNet_served, h]
  rfl

theorem windowReq_serves (h : rgServes s n r = true) :
    windowReq s n r req data = ⟨rspOk, if req.wr then [] else data, { s with gkoWin := s.gkoWin ++ [(n.val, r.val, req)] }⟩ :=
  if_pos h

theorem windowReq_closed (h : rgServes s n r = false) : windowReq s n r req data = ⟨rspIsolated, onesData req, s⟩ :=
  if_neg (ne_true_of_eq_false h)

/-- A window that is isolated or whose region does not serve gives one and the same answer. -/
theorem windowAnswer_isolated (h : isolatedEp s n (0x50 + r) = true ∨ rgServes s n r = false) :
    (if isolatedEp s n (0x50 + r) then ⟨rspIsolated, onesData req, s⟩ else windowReq s n r req data) =
      (⟨rspIsolated, onesData req, s⟩ : MemAns) := by
  split
  case isTrue => rfl
  case isFalse hi => exact windowReq_closed (h.resolve_left hi)

end

/-! ### The obligation on cells and beats -/

/-- Settles O14: each clause is the command's own case of the operation it stands for. -/
theorem fabricCellsAndBeats : Obligations.FabricCellsAndBeats := by
  unfold Obligations.FabricCellsAndBeats
  refine ⟨?contends, ?unquiet, ?reads, ?meets, ?enters, ?full, ?stopped, ?takes, ?drops, ?passes, ?isolated, ?ended, ?lost,
    ?trigger, ?irq⟩
  case contends =>
    exact fun n track user s hn hq =>
      gives_inRun (fabricContention n track user) hn (fun _ => rfl) (fabricContention_quiet hq)
  case unquiet =>
    exact fun n track user s hn hq =>
      gives_inRun (fabricContention n track user) hn (fun _ => rfl) (fabricContention_unquiet hq)
  case reads =>
    exact fun n r m b w one s hn hr hp =>
      gives_inRun (regionRamRead n r m b w none one) hn (fun _ => rfl) (regionRamRead_reads hr hp)
  case meets =>
    exact fun n r m b w w2 d one s hn hr hp =>
      gives_inRun (regionRamRead n r m b w (some (w2, d)) one) hn (fun _ => rfl) (regionRamRead_meets hr hp)
  case enters =>
    exact fun n port beat period taken s hn hr hl =>
      gives_inRun (inboundBeat n port beat period taken) hn (fun _ => rfl) (inboundBeat_enters hr hl)
  case full =>
    exact fun n port beat period taken s hn hr hl =>
      gives_inRun (inboundBeat n port beat period taken) hn (fun _ => rfl) (inboundBeat_drops hr hl)
  case stopped =>
    exact fun n port beat period taken s hn hr =>
      gives_inRun (inboundBeat n port beat period taken) hn (fun _ => rfl) (inboundBeat_stopped hr)
  case takes =>
    exact fun n port s b rest hn hq hd =>
      gives_inRun (outboundBeatExpire n port true) hn (fun _ => rfl) (outboundBeatExpire_takes hq hd)
  case drops =>
    exact fun n port taken s b rest hn hq hd =>
      gives_inRun (outboundBeatExpire n port taken) hn (fun _ => rfl) (outboundBeatExpire_drops hq hd)
  case passes =>
    intro n r who req data s hn he hi hs
    refine gives_geckoWindowAccess hn ((geckoWindowAccess_there he).trans ?_)
    rw [if_neg (ne_true_of_eq_false hi), windowReq_serves hs]
  case isolated =>
    exact fun n r who req data s hn he h =>
      gives_geckoWindowAccess hn ((geckoWindowAccess_there he).trans (congrArg (answer who.toNat) (windowAnswer_isolated h)))
  case ended =>
    exact fun n r who req data s b k hn he => gives_geckoWindowAccess hn (geckoWindowAccess_ended he)
  case lost => exact fun n r who req data d s hn => gives_geckoWindowAccess hn rfl
  case trigger => exact fun n l s hn h => gives_inRun (geckoTrigger n l) hn (fun _ => rfl) (if_pos h)
  case irq => exact fun n l s hn h => gives_inRun (geckoIrqLine n l) hn (fun _ => rfl) (if_pos h)

end Sys2Proof.Machine
end

section
/-! The regions of the fabric as they are enabled, drained and checked, and their captures (12 R289, R293-R297). -/

namespace Sys2Proof.Machine

/-! ### Enables and drains (12 R293) -/

section
variable {n : Node} {r : Fin 8} {en : Bool} {s t : Block}

theorem gives_regionEnWrite (h : takenNow s n 0xE = true) (ht : regionEnWrite n r en s = t) : Gives (.regionEnWrite n r en) s t :=
  gives_row (.regionEnWrite n r en) h (fun _ => rfl) rfl ht

theorem regionEnWrite_loading (hl : inLoad s n r = true) :
    regionEnWrite n r en s = fput s n F.GKO_REGION_CTRL_EN (ix r) (b2n en) := if_pos hl

variable (hl : inLoad s n r = false)
include hl

theorem regionEnWrite_draining (hst : rgState s n r = 1) :
    regionEnWrite n r en s = if en then s else fput s n F.GKO_REGION_CTRL_EN (ix r) 0 :=
  (if_neg (ne_true_of_eq_false hl)).trans (if_pos hst)

/-- EN = 1 starts a region in HOLD, and no other. -/
theorem regionEnWrite_on (hst : rgState s n r ≠ 1) :
    regionEnWrite n r true s = if rgState s n r = 0 ∧ rgPhase s n r = phHold then
      releaseRegion (fput s n F.GKO_REGION_CTRL_EN (ix r) 1) n r else gkoReject s n := by
  unfold regionEnWrite
  rw [if_neg (ne_true_of_eq_false hl), if_neg hst, if_pos rfl]
  simp only [Bool.and_eq_true, decide_eq_true_eq]

theorem regionEnWrite_off (hst : rgState s n r = 2) (hst' : rgState (fput s n F.GKO_REGION_CTRL_EN (ix r) 0) n r = 2) :
    regionEnWrite n r false s = drainRegion (fput s n F.GKO_REGION_CTRL_EN (ix r) 0) n r := by
  unfold regionEnWrite
  rw [if_neg (ne_true_of_eq_false hl), if_neg (by omega), if_neg Bool.false_ne_true]
  exact if_pos hst'

end

/-! ### Configuration words (12 R294, R295) -/

theorem configWordCheck_checks {n : Node} {r : Fin 8} {w : BitVec 19} {flips : BitVec 72} {s : Block} (hp : rgPhase s n r = phRun)
    (hw : 8 * w.toNat < (region s n r).image.length) :
    let b := putUpset s n r w.toNat (mget (fun _ => 0) (region s n r).upset w.toNat ^^^ flips)
    let t := raise b n SRC.GKO_CFG_UE r 0
    configWordCheck n r w flips s = match (decodeStored code64 (cfgWord b n r w.toNat).toNat).found with
      | .clean => b
      | .fixed _ => raise (fsat (putUpset b n r w.toNat 0) n F.GKO_REGION_STATUS_CFG_CE_COUNT (ix r)) n SRC.GKO_CFG_CE r 0
      | .bad => match mget (fun _ => none) t.caps n with
        | some c => if c.todo.contains r.val || c.recs.any (fun p => p.1 == r.val) then
            { t with caps := mput (fun _ => none) t.caps n (some { c with upset := c.upset ++ [r.val] }) }
          else faultRegion t n r
        | none => faultRegion t n r :=
  if_pos (by simp [hp, hw])

/-! ### Captures (12 R296) -/

section
variable {n : Node} {s : Block}

theorem capture_busy {freeze : Bool} {regions : BitVec 8} (hb : fbit s n F.GKO_CAPTURE_CTRL_BUSY = true) :
    capture n freeze regions s = s := if_pos hb

/-- A capture that is not busy sets its fields, and takes the named regions that run or are frozen. -/
theorem capture_takes {freeze : Bool} {regions : BitVec 8} (hb : fbit s n F.GKO_CAPTURE_CTRL_BUSY = false) :
    let b := fset (fset s n F.GKO_CAPTURE_CTRL_FREEZE (b2n freeze)) n F.GKO_CAPTURE_CTRL_REGIONS regions.toNat
    let named := (List.range 8).filter fun r => regions.getLsbD r
    let ok := named.filter fun r => rgPhase b n r == phRun || rgPhase b n r == phFrozen
    let t := if ok.length = named.length then b else fset b n F.GKO_CAPTURE_CTRL_REFUSED 1
    capture n freeze regions s = if (rget b n .GKO_CAPTURE_DEST).toNat % 128 ≠ 0 then fset b n F.GKO_CAPTURE_CTRL_REFUSED 1
      else if ok.isEmpty then t
      else fset { t with caps := mput (fun _ => none) t.caps n (some
        { time := get64 t n .GKO_CAPTURE_TIME, freeze := freeze, dest := (rget t n .GKO_CAPTURE_DEST).toNat, todo := ok }) } n
        F.GKO_CAPTURE_CTRL_BUSY 1 := if_neg (ne_true_of_eq_false hb)

variable {c : CapSt} (hc : mget (fun _ => none) s.caps n = some c)
include hc

theorem captureEdge_records {r : Fin 8} {cells : List CellIn} (hr : c.todo.contains r.val = true) :
    let b := atTime s (c.time * 2 ^ 16)
    let ffs := edgeFfs b n r cells
    let p := ramPortBytes b n r
    let record := captureRecord p.2 n r (c.freeze || rgPhase b n r == phFrozen) (ffs.flatMap (fun v => leBytes 2 v.toNat) ++ p.1)
    let t := if c.freeze && rgPhase b n r = phRun then
      freezeRegion (putRegion p.2 n r { region p.2 n r with ffs := some ffs }) n r else p.2
    captureEdge n r cells s = { t with
      caps := mput (fun _ => none) t.caps n
        (some { c with todo := c.todo.filter (· != r.val), recs := c.recs ++ [(r.val, record)] }) } := by
  unfold captureEdge
  rw [hc]
  exact if_pos hr

theorem captureWritten_ends (ht : c.todo = []) :
    let b := c.recs.foldl (fun t p => recWrites n ownGecko p.2.length (64 * c.dest + 8192 * p.1) p.2 t) s
    let b := fset (fset b n F.GKO_CAPTURE_CTRL_DONE 1) n F.GKO_CAPTURE_CTRL_BUSY 0
    captureWritten n s =
      loadResume (c.upset.foldl (fun t r => faultRegion t n r) { b with caps := mput (fun _ => none) b.caps n none }) n := by
  unfold captureWritten
  rw [hc]
  exact if_pos (by rw [ht]; rfl)

end

theorem captureResume_busy {n : Node} {s : Block} (hb : fbit s n F.GKO_CAPTURE_CTRL_BUSY = true) : captureResume n s = s :=
  if_pos hb

/-! ### The obligation on regions and captures -/

/-- Settles O15: each clause is the command's own case; captures and resumes of a module that is not in Run do nothing either. -/
theorem fabricRegionsAndCaptures : Obligations.FabricRegionsAndCaptures := by
  unfold Obligations.FabricRegionsAndCaptures
  refine ⟨?loading, ?releases, ?rejected, ?draining, ?drains, ?drained, ?checks, ?takes, ?busy, ?edge, ?written, ?resumes⟩
  case loading => exact fun n r s en ht hl => gives_regionEnWrite ht (regionEnWrite_loading hl)
  case releases =>
    exact fun n r s ht hl hst hp =>
      gives_regionEnWrite ht ((regionEnWrite_on hl (by omega)).trans (if_pos ⟨hst, hp⟩))
  case rejected =>
    exact fun n r s ht hl hst h =>
      gives_regionEnWrite ht ((regionEnWrite_on hl hst).trans (if_neg fun ⟨h0, hp⟩ => h.elim (· h0) (· hp)))
  case draining =>
    exact fun n r s ht hl hst =>
      ⟨gives_regionEnWrite ht (regionEnWrite_draining hl hst), gives_regionEnWrite ht (regionEnWrite_draining hl hst)⟩
  case drains => exact fun n r s ht hl hst hst' => gives_regionEnWrite ht (regionEnWrite_off hl hst hst')
  case drained =>
    exact fun n r s hst hp ho => gives_of_done (regionDrainDone n r) (fun _ => rfl) (if_pos (by simp [hst, hp, ho]))
  case checks =>
    exact fun n r w flips s hn hp hw =>
      gives_inRun (configWordCheck n r w flips) hn (fun _ => rfl) (configWordCheck_checks hp hw)
  case takes =>
    exact fun n freeze regions s hn hb => gives_inRun (capture n freeze regions) hn (fun _ => rfl) (capture_takes hb)
  case busy =>
    refine fun n freeze regions s hb =>
      ⟨gives_of_done (whenRun n (capture n freeze regions)) (fun _ => rfl) ?_, gives_of_done (whenRun n (captureResume n)) (fun _ => rfl) ?_⟩
    · exact (congrArg (fun t => if inRun s n then t else s) (capture_busy hb)).trans (ite_self s)
    · exact (congrArg (fun t => if inRun s n then t else s) (captureResume_busy hb)).trans (ite_self s)
  case edge =>
    exact fun n r cells s c hn hc hr => gives_inRun (captureEdge n r cells) hn (fun _ => rfl) (captureEdge_records hc hr)
  case written => exact fun n s c hn hc ht => gives_inRun (captureWritten n) hn (fun _ => rfl) (captureWritten_ends hc ht)
  case resumes =>
    exact fun n s hn hb => gives_inRun (captureResume n) hn (fun _ => rfl) (if_neg (ne_true_of_eq_false hb))

end Sys2Proof.Machine
end

section
/-! Epoch boundaries, seals, votes, commits and their outcomes, snapshots, and publications (13 R299-R314). -/

namespace Sys2Proof.Machine

/-! ### Boundaries and discards (13 R299, R304) -/

section
variable {s t : Block} {n : Node}

theorem epochBoundary_other (h : isPrimary s = false ∨ fget s 0 F.WEIR_CTRL_MODE ≠ 0) : epochBoundary s = s :=
  if_neg (by rcases h with h | h <;> simp [h])

theorem gives_weirCommitWrite (h : takenNow s n 0x2 = true) (ht : weirCommitWrite n s = t) : Gives (.weirCommitWrite n) s t :=
  gives_row (.weirCommitWrite n) h (fun _ => rfl) rfl ht

theorem gives_weirDiscard (h : takenNow s n 0x2 = true) (ht : weirDiscard n s = t) : Gives (.weirDiscard n) s t :=
  gives_row (.weirDiscard n) h (fun _ => rfl) rfl ht

/-- Only the Weir of node 0, where it is the primary, starts commits and discards. -/
theorem weirPrimary_iff : (n.val = 0 && isPrimary s) = true ↔ n.val = 0 ∧ isPrimary s = true := by
  simp only [Bool.and_eq_true, decide_eq_true_eq]

theorem not_weirPrimary (h : n.val ≠ 0 ∨ isPrimary s = false) : ¬ (n.val = 0 && isPrimary s) = true := by
  rcases h with h | h <;> simp [h]

end

/-! ### Seals and votes (13 R301, R308, R310) -/

section
variable {n : Node} {s : Block} {c : CommitSt} (hc : s.commit = some c)
include hc

theorem prepareCommit_votes {e0 e1 e2 : BitVec 104} (hta : c.ta = none) (hn : c.nodes.contains n.val = true)
    (hg : c.gone.contains n.val = false) (hp : c.prepared.contains n.val = false) (hi : wPhase s n ≠ wpIsolated) :
    let b := if n.val = 0 then s else sealNode s c n
    let v := voteCopy c.epoch true
    let r := pickCopy copyGen copyOk (v ^^^ e0) (v ^^^ e1) (v ^^^ e2)
    let b := if r.2 then raise b n SRC.SETTINGS_DIVERGENT 0 0 else b
    let yes := match r.1 with
      | some k => copyYes k
      | none => false
    let b := setWPhase (putWeir b n { weir b n with copies := [v ^^^ e0, v ^^^ e1, v ^^^ e2], voted := yes }) n wpVoted
    prepareCommit n e0 e1 e2 s =
      { b with commit := some { c with prepared := c.prepared ++ [n.val], sent := c.sent ++ [(n.val, yes)] } } := by
  unfold prepareCommit
  rw [hc]
  exact if_pos (by simp only [hta, hn, hg, hp, decide_eq_true hi]; rfl)

section
variable {p : Nat} {yes : Bool} (hv : c.sent.find? (fun p => p.1 == n.val) = some (p, yes))
include hv

/-- A vote that has come is sent no more; what it does depends on the commit and on the vote. -/
theorem vote_comes :
    let d := { c with sent := c.sent.filter fun p => p.1 != n.val }
    let e := { d with votes := c.votes ++ [n.val] }
    let ta := nowNs s + b2n (decide (s.now % 2 ^ 16 ≠ 0)) + (if c.nodes.length ≤ 1 then 600 else 2500)
    vote n s = if c.failed then { s with commit := some d }
      else if !yes then failCommit { s with commit := some d } none
      else { s with commit := some (if c.nodes.all fun m => e.votes.contains m then { e with ta := some ta } else e) } := by
  unfold vote
  rw [hc]
  dsimp only
  rw [hv]
  rfl

end

end

/-! ### Commits, applies and acknowledgements (13 R308) -/

section
variable {n : Node} {s : Block} {c : CommitSt} (hc : s.commit = some c)
include hc

theorem commitMsg_takes {ta : Nat} (hta : c.ta = some ta) (hs : (weir s n).sealedAt.isSome = true) (hn : (weir s n).ta = none)
    (hi : wPhase s n ≠ wpIsolated) (ha : c.acks.contains n.val = false) :
    commitMsg n s = if s.now ≤ ta * 2 ^ 16 then putWeir s n { weir s n with ta := some ta }
      else applyNodes (epochLate s n) c [n.val] (nowNs s) := by
  unfold commitMsg
  rw [hc]
  dsimp only
  rw [hta]
  exact if_pos (by simp only [hs, hn, decide_eq_true hi, ha]; rfl)

theorem applyEpoch_applies {ta k : Nat} {ks : List Nat} (hta : c.ta = some ta)
    (hks : c.nodes.filter (fun n => (weir s n).ta.isSome) = k :: ks) :
    applyEpoch s = applyNodes (atTime s (ta * 2 ^ 16)) c (k :: ks) ta := by
  unfold applyEpoch
  rw [hc]
  dsimp only
  rw [hta, hks]

theorem applyEpoch_waits (h : c.ta = none ∨ c.nodes.filter (fun n => (weir s n).ta.isSome) = []) : applyEpoch s = s := by
  unfold applyEpoch
  rw [hc]
  dsimp only
  rcases h with h | h
  · rw [h]
  · rw [h]
    cases c.ta <;> rfl

theorem commitAck_takes (hta : c.ta.isSome = true) (hn : c.nodes.contains n.val = true)
    (ht : (weir s n).ta.isSome = true ∨ epochOf s n = c.epoch) (ha : c.acks.contains n.val = false) :
    commitAck n s = checkEnd { s with commit := some { c with acks := c.acks ++ [n.val] } } := by
  have ht' : ((weir s n).ta.isSome || epochOf s n == c.epoch) = true := by simpa using ht
  unfold commitAck
  rw [hc]
  exact if_pos (by simp only [hta, hn, ht', ha]; rfl)

theorem abandon_gives (hf : c.failed = true) (hp : c.prepared.contains n.val = true) (hs : (weir s n).sealedAt.isSome = true)
    (hi : wPhase s n ≠ wpIsolated) : abandon n s = checkEnd (abandonNode s n) := by
  unfold abandon
  rw [hc]
  exact if_pos (by simp only [hf, hp, hs, decide_eq_true hi]; rfl)

theorem voteTimeout_fails (hf : c.failed = false) (hta : c.ta = none) :
    voteTimeout s = failCommit (atTime s ((c.t0 + fget s 0 F.WEIR_VOTE_VOTE_US * 1000) * 2 ^ 16)) none := by
  unfold voteTimeout
  rw [hc]
  exact if_neg (by simp [hf, hta])

end

/-! ### Late nodes and lost outcomes (13 R309, R312) -/

section
variable {n : Node} {s : Block}

theorem commitLate_sealed {t0 e lim : Nat} (hp : (weir s n).part = some (t0, e, lim)) (hl : (weir s n).late = false) :
    commitLate n s = epochLate (atTime s ((t0 + lim) * 2 ^ 16)) n := by
  unfold commitLate
  dsimp only
  rw [hp]
  exact if_neg (ne_true_of_eq_false hl)

theorem commitLate_unprepared {c : CommitSt} (hw : (weir s n).part = none) (hc : s.commit = some c)
    (hn : c.nodes.contains n.val = true) (hp : c.prepared.contains n.val = false) (hg : c.gone.contains n.val = false)
    (hl : (weir s n).late = false) : commitLate n s = epochLate (atTime s ((c.t0 + lateNs s c) * 2 ^ 16)) n := by
  unfold commitLate
  dsimp only
  rw [hw, hc]
  dsimp only
  rw [if_pos (by simp only [hn, hp, hg]; rfl)]
  exact if_neg (ne_true_of_eq_false hl)

/-- A node that has voted YES and has no outcome is isolated. -/
theorem isolateNode_voted {t : Nat} (hs : (weir s n).sealedAt = some t) (hv : (weir s n).voted = true) (hp : wPhase s n = wpVoted)
    (hta : (weir s n).ta = none) :
    let b := setWPhase (raise (atTime s ((t + outcomeWait s n) * 2 ^ 16)) n SRC.PARTNER_LOST 0 0) n wpIsolated
    isolateNode s n = if n.val = 0 then b else splitAll (leaveTable (setRole b n roIsolated) n) n := by
  unfold isolateNode
  dsimp only
  rw [hs]
  exact if_pos (by simp only [hv, hp, hta]; rfl)

theorem isolateNode_unsealed (hs : (weir s n).sealedAt = none) : isolateNode s n = s := by
  unfold isolateNode
  dsimp only
  rw [hs]

/-- Once the node is isolated where it must be, the primary reports one whose acknowledgement is missing. -/
theorem outcomeTimeout_after {i : Block} (h : isolateNode s n = i) :
    outcomeTimeout n s = match i.commit with
      | none => i
      | some c =>
        if c.ta.isSome && !c.acks.contains n.val && !c.gone.contains n.val && c.nodes.contains n.val then
          let j := splitAll (leaveTable (raise (atTime i ((c.t0 + outcomeWait s n) * 2 ^ 16)) 0 SRC.PARTNER_LOST n 0) n) n
          checkEnd { j with commit := some { c with gone := c.gone ++ [n.val] } }
        else checkEnd i := by
  subst h
  rfl

theorem outcomeTimeout_unacknowledged {c : CommitSt} (hs : (weir s n).sealedAt = none) (hc : s.commit = some c)
    (hta : c.ta.isSome = true) (ha : c.acks.contains n.val = false) (hg : c.gone.contains n.val = false)
    (hn : c.nodes.contains n.val = true) :
    let b := atTime s ((c.t0 + outcomeWait s n) * 2 ^ 16)
    let t := splitAll (leaveTable (raise b 0 SRC.PARTNER_LOST n 0) n) n
    outcomeTimeout n s = checkEnd { t with commit := some { c with gone := c.gone ++ [n.val] } } := by
  rw [outcomeTimeout_after (isolateNode_unsealed hs), hc]
  exact if_pos (by simp only [hta, ha, hg, hn]; rfl)

end

/-! ### Snapshots (13 R313, R314) -/

theorem snapshotImageDone_ready {n dn : Node} {g : GangIx} {s : Block} {x : SnapSt} {i : SnapImg} {e ta : Nat}
    (hx : s.snaps.find? (fun x => x.imgs.any fun i => i.dn == dn.val && i.g == g.val && i.node == n.val) = some x)
    (hi : x.imgs.find? (fun i => i.dn == dn.val && i.g == g.val && i.node == n.val) = some i) (ht : x.taken = some (e, ta))
    (hr : snapReady s i ((gangTiles s dn g).filter fun tk => tk / 1024 == n.val) = true) :
    let d := match i.made with
      | some m => (m, s)
      | none => snapMake s x i e ta
    let r := snapRecord d.2 n x.ring d.1.1 d.1.2
    let b := if r.1 then r.2 else raise r.2 n SRC.WEIR_SNAP_DROP 0 0
    let y := { x with imgs := x.imgs.filter (· != i), dropped := x.dropped || !r.1 }
    snapshotImageDone n dn g s = if y.imgs.isEmpty then
        cmdEnd { b with snaps := b.snaps.filter fun z => !(z.q == x.q && z.cid == x.cid) } x.q x.cid
          (if y.dropped then { status := stFaulted, detail := SRC.WEIR_SNAP_DROP, epoch := e, r0 := e } else { status := stOk, epoch := e, r0 := e })
      else { b with snaps := b.snaps.map fun z => if z.q = x.q && z.cid = x.cid then y else z } := by
  unfold snapshotImageDone
  rw [hx]
  dsimp only
  rw [hi, ht]
  exact if_pos hr

/-! ### Publications (13 R305, R307) -/

section
variable {n : Node} {p : Fin 32} {copy : Fin 4} {en : Bool} {s t : Block}

theorem gives_pubReady (h : takenNow s n 0x2 = true) (ht : pubReadyWrite n p copy s = t) : Gives (.pubReady n p copy) s t :=
  gives_row (.pubReady n p copy) h (fun _ => rfl) rfl ht

theorem gives_pubEnWrite (h : takenNow s n 0x2 = true) (ht : pubEnWrite n p en s = t) : Gives (.pubEnWrite n p en) s t :=
  gives_row (.pubEnWrite n p en) h (fun _ => rfl) rfl ht

/-- READY of a publication that is not OFF is taken for the copy being written, and refused for another. -/
theorem pubReadyWrite_on (hst : pubF s n p F.WEIR_PUB_CTRL_STATE ≠ 0) :
    pubReadyWrite n p copy s = if pubF s n p F.WEIR_PUB_STATE_WRITE = copy.val then
      { s with pubReady := mput (fun _ => false) s.pubReady (n.val * 32 + p.val) true }
      else setPub s n p F.WEIR_PUB_STATE_READY_REFUSED 1 := if_neg hst

theorem pubEnWrite_starts (hst : pubF s n p F.WEIR_PUB_CTRL_STATE = 0) :
    let b := setPub (setPub s n p F.WEIR_PUB_CTRL_EN 1) n p F.WEIR_PUB_CTRL_STATE 2
    let b := setPub (setPub b n p F.WEIR_PUB_STATE_WRITE 1) n p F.WEIR_PUB_STATE_FRONT 0
    let b := setPub (setPub b n p F.WEIR_PUB_STATE_SEALS 0) n p F.WEIR_PUB_STATE_PUBS 0
    let b := setPub (setPub b n p F.WEIR_PUB_STATE_VALID 0) n p F.WEIR_PUB_STATE_PEND_VALID 0
    pubEnWrite n p true s = { b with pubReady := mput (fun _ => false) b.pubReady (n.val * 32 + p.val) false } := by
  unfold pubEnWrite
  rw [hst]
  rfl

theorem pubEnWrite_drains (hst : pubF s n p F.WEIR_PUB_CTRL_STATE = 2) :
    pubEnWrite n p false s = setPub (setPub s n p F.WEIR_PUB_CTRL_EN 0) n p F.WEIR_PUB_CTRL_STATE 1 := by
  unfold pubEnWrite
  rw [hst]
  rfl

/-- Any other write of EN is ignored. -/
theorem pubEnWrite_ignored
    (h : en = true ∧ pubF s n p F.WEIR_PUB_CTRL_STATE ≠ 0 ∨ en = false ∧ pubF s n p F.WEIR_PUB_CTRL_STATE ≠ 2) :
    pubEnWrite n p en s = s := by
  unfold pubEnWrite
  split
  · simp_all
  · simp_all
  · rfl

end

/-! ### The obligations -/

/-- Settles O16: each clause is the command's own case; a vote that comes is judged by whether the commit has failed, and then by what it
says. -/
theorem boundariesSealsAndVotes : Obligations.BoundariesSealsAndVotes := by
  unfold Obligations.BoundariesSealsAndVotes
  refine ⟨?boundary, ?none, ?primary, ?rejected, ?prepare, ?yes, ?no, ?dropped⟩
  case boundary =>
    exact fun s hp hm => gives_of_done epochBoundary (fun _ => rfl) (if_pos (by simp [hp, hm]))
  case none => exact fun s h => gives_of_done epochBoundary (fun _ => rfl) (epochBoundary_other h)
  case primary =>
    exact fun n s ht hn hp =>
      ⟨gives_weirCommitWrite ht (if_pos (weirPrimary_iff.2 ⟨hn, hp⟩)), gives_weirDiscard ht (if_pos (weirPrimary_iff.2 ⟨hn, hp⟩))⟩
  case rejected =>
    exact fun n s ht h =>
      ⟨gives_weirCommitWrite ht (if_neg (not_weirPrimary h)), gives_weirDiscard ht (if_neg (not_weirPrimary h))⟩
  case prepare =>
    exact fun n e0 e1 e2 s c hc hta hn hg hp hi =>
      gives_of_done (prepareCommit n e0 e1 e2) (fun _ => rfl) (prepareCommit_votes hc hta hn hg hp hi)
  case yes | no =>
    intro n s c p hc hv hf
    refine gives_of_done (vote n) (fun _ => rfl) ((vote_comes hc hv).trans ?_)
    rw [if_neg (ne_true_of_eq_false hf)]
    rfl
  case dropped =>
    exact fun n s c p hc hv hf => gives_of_done (vote n) (fun _ => rfl) ((vote_comes hc hv).trans (if_pos hf))

/-- Settles O17: each clause is the command's own case; the outcome of a node is looked at after its own isolation. -/
theorem commitsAppliesAndAcks : Obligations.CommitsAppliesAndAcks := by
  unfold Obligations.CommitsAppliesAndAcks
  refine ⟨?commit, ?applies, ?waits, ?ack, ?abandon, ?timeout, ?late, ?lateUnprepared, ?isolated, ?unacknowledged⟩
  case commit =>
    exact fun n s c ta hc hta hs hn hi ha =>
      gives_of_done (commitMsg n) (fun _ => rfl) (commitMsg_takes hc hta hs hn hi ha)
  case applies =>
    exact fun s c ta k ks hc hta hks =>
      gives_of_done applyMsg (fun _ => rfl) (congrArg checkEnd (applyEpoch_applies hc hta hks))
  case waits =>
    exact fun s c hc h => gives_of_done applyMsg (fun _ => rfl) (congrArg checkEnd (applyEpoch_waits hc h))
  case ack =>
    exact fun n s c hc hta hn ht ha => gives_of_done (commitAck n) (fun _ => rfl) (commitAck_takes hc hta hn ht ha)
  case abandon =>
    exact fun n s c hc hf hp hs hi => gives_of_done (abandon n) (fun _ => rfl) (abandon_gives hc hf hp hs hi)
  case timeout =>
    exact fun s c hc hf hta => gives_of_done voteTimeout (fun _ => rfl) (voteTimeout_fails hc hf hta)
  case late =>
    exact fun n s t0 e lim hp hl => gives_of_done (commitLate n) (fun _ => rfl) (commitLate_sealed hp hl)
  case lateUnprepared =>
    exact fun n s c hw hc hn hp hg hl =>
      gives_of_done (commitLate n) (fun _ => rfl) (commitLate_unprepared hw hc hn hp hg hl)
  case isolated =>
    exact fun n s t hs hv hp hta =>
      gives_of_done (outcomeTimeout n) (fun _ => rfl) (outcomeTimeout_after (isolateNode_voted hs hv hp hta))
  case unacknowledged =>
    exact fun n s c hs hc hta ha hg hn =>
      gives_of_done (outcomeTimeout n) (fun _ => rfl) (outcomeTimeout_unacknowledged hs hc hta ha hg hn)

/-- Settles O18: each clause is the command's own case, by the state of the publication and the copy that WRITE names. -/
theorem snapshotsAndPublications : Obligations.SnapshotsAndPublications := by
  unfold Obligations.SnapshotsAndPublications
  refine ⟨?image, ?ready, ?refused, ?off, ?starts, ?drains, ?ignored⟩
  case image =>
    exact fun n dn g s x i e ta hx hi ht hr =>
      gives_of_done (snapshotImageDone n dn g) (fun _ => rfl) (snapshotImageDone_ready hx hi ht hr)
  case ready => exact fun n p copy s ht hst hw => gives_pubReady ht ((pubReadyWrite_on hst).trans (if_pos hw))
  case refused => exact fun n p copy s ht hst hw => gives_pubReady ht ((pubReadyWrite_on hst).trans (if_neg hw))
  case off => exact fun n p copy s ht hst => gives_pubReady ht (if_pos hst)
  case starts => exact fun n p s ht hst => gives_pubEnWrite ht (pubEnWrite_starts hst)
  case drains => exact fun n p s ht hst => gives_pubEnWrite ht (pubEnWrite_drains hst)
  case ignored => exact fun n p en s ht h => gives_pubEnWrite ht (pubEnWrite_ignored h)

end Sys2Proof.Machine
end

section
/-! Isolation, router swaps and forwarding, the domains powered down in Run, time limits, and the master channels of the fabric
(12 R285, 16 R369-R377, 18 R410). -/

namespace Sys2Proof.Machine

/-! ### Routers (16 R364, R369, R373) -/

section
variable {n : Node} {r : Fin 48} {s : Block}

theorem swapDrainDone_drained (hp : rtrPhase s n r = 1) (hi : (router s n r).inputs = []) :
    let b := fput (fput s n F.NOC_RTR_CTRL_BANK (ix r) (1 - activeBank s n r)) n F.NOC_RTR_CTRL_PHASE (ix r) 0
    swapDrainDone n r s =
      (List.range 8).foldl (fun s d => if bridgeOf s n d = brOpen && !bridgeHold s n d then releaseReqs s n d else s) b :=
  if_pos (by rw [hp, hi]; rfl)

theorem swapDrainDone_waits (h : rtrPhase s n r ≠ 1 ∨ (router s n r).inputs ≠ []) : swapDrainDone n r s = s :=
  if_neg (by rcases h with h | h <;> simp [h])

theorem nocReconfStall_stalls (hp : rtrPhase s n r = 1) (hs : (router s n r).stalled = false) :
    let b := putRouter (atTime s ((router s n r).swapAt + 10000 * 2 ^ 16)) n r { router s n r with stalled := true }
    nocReconfStall n r s = raise (fput b n F.NOC_RTR_CTRL_STALL (ix r) 1) n SRC.NOC_RECONF_STALL 0 0 :=
  if_pos (by simp [hp, hs])

theorem nocReconfStall_once (h : rtrPhase s n r ≠ 1 ∨ (router s n r).stalled = true) : nocReconfStall n r s = s :=
  if_neg (by rcases h with h | h <;> simp [h])

end

section
variable (n r : Nat) (s : Block)

/-- What becomes of a flit that comes to an input. -/
theorem flitArrive_eq (a : RtrIn) :
    let x := router s n r
    flitArrive n r s a = if rtrPhase s n r ≠ 0 then s
      else if a.found = .uncorrectable then raise s n SRC.NOC_FLIT_UE r 0
      else if tyDefined (flType a.flit) = false then respondAck s a.flit rspDecErr
      else if flType a.flit = tyWdata ∧ x.drops.contains (flWriter a.flit) = true then
        putRouter s n r { x with drops := x.drops.erase (flWriter a.flit) }
      else putInput s n r (netOf (flType a.flit)) a.input (inputQ s n r (netOf (flType a.flit)) a.input ++ [⟨a.flit, s.now⟩]) := by
  unfold flitArrive
  simp only [Bool.not_eq_true', Bool.and_eq_true, decide_eq_true_eq]

/-- An input with a flit shows it as a head, or discards it for want of a route. -/
theorem headFlits_cons {net i : Nat} (l : List Nat) {h : RtrFlit} {q : List RtrFlit} (hq : inputQ s n r net i = h :: q) :
    headFlits n r net (i :: l) s =
      if 8 ≤ flitPort s n r h.flit then headFlits n r net l (noRoute (putInput s n r net i q) n r h.flit)
      else ((i, aged h.flit ((s.now - h.since) / 2 ^ 16)) :: (headFlits n r net l s).1, (headFlits n r net l s).2) := by
  rw [headFlits, hq]

end

/-! ### Domains and bridges (16 R375-R377, 18 R410) -/

/-- One bit of a write of DOWN. -/
theorem domWrite_eq (n d : Nat) (w : BitVec 4) (s : Block) :
    let b := setDomDown s n d true
    let c := setDomDown s n d false
    domWrite w n s d = if w.getLsbD (d - 4) then
        (if d = 6 ∧ s.nodeTab.length ≠ 1 then fset c n F.GOV_STATE_CFG_REJECT 1
        else if bridgeOf b n d = brOpen then setBridge b n d brClosing
        else if (b.heldReqs.any fun h => h.node == n && h.dom == d) then
          putPow b n { pow b n with downAgain := (pow b n).downAgain ||| BitVec.ofNat 8 (2 ^ d) }
        else b)
      else if bridgeOf c n d = brClosing then setBridge c n d brOpen else c := by
  unfold domWrite govReject
  simp only [Bool.and_eq_true, decide_eq_true_eq]

section
variable {n : Node} {d : Fin 8} {s : Block}

/-- Only the domain of the staging memory can owe a response: a request that stalls behind its bridges. -/
theorem domOwes_eq_false (h : d.val ≠ 7 ∨ (s.heldReqs.any fun h => h.node == n.val && decide (16 ≤ h.dom)) = false ∧
    (s.stgHeld.any fun h => h.node == n.val) = false) : domOwes s n d = false := by
  unfold domOwes
  rcases h with h | ⟨h1, h2⟩
  · rw [beq_eq_false_iff_ne.2 h, Bool.false_and]
  · rw [h1, h2, Bool.or_false, Bool.and_false]

theorem domOwes_staging (h : (s.heldReqs.any fun h => h.node == n.val && decide (16 ≤ h.dom)) = true ∨
    (s.stgHeld.any fun h => h.node == n.val) = true) : domOwes s n 7 = true := by
  unfold domOwes
  rcases h with h | h
  · rw [h]; rfl
  · rw [h, Bool.or_true]; rfl

theorem bridgeClosed_closes (hb : bridgeOf s n d = brClosing) (ho : domOwes s n d = false) :
    let b := setBridge s n d brClosed
    bridgeClosed n d s = if d.val = 5 then lanesOff b n
      else if d.val = 6 then (List.range 8).foldl (fun s l => if lstate s n l = lsOff then s else setLstate s n l lsDown) b
      else b := if_pos (by simp [hb, ho])

theorem bridgeClosed_owes (ho : domOwes s n d = true) : bridgeClosed n d s = s := if_neg (by simp [ho])

theorem domainWakeDone_wakes
    (h : bridgeOf s n d ≠ brOpen ∧ (s.heldReqs.any fun h => h.node == n.val && h.dom == d.val) = true ∨
      bridgeOf s n d = brClosed ∧ domDown s n d = false) : domainWakeDone n d s = wakeDomain s n d :=
  if_pos (by
    rcases h with ⟨hb, hh⟩ | ⟨hb, hd⟩
    · simp only [bne_iff_ne.2 hb, hh]; rfl
    · simp only [hb, hd]; simp)

end

/-! ### Time limits (16 R370) -/

section
variable {n : Node} {e : BitVec 8} {tag : BitVec 12} {s : Block}

theorem gives_initiatorTimeout {t : Block} (ht : initiatorExpire n e tag s = t) : Gives (.initiatorTimeout n e tag) s t :=
  gives_of_done (initiatorExpire n e tag) (fun _ => rfl) ht

theorem initiatorExpire_packet {r : OutReq} (h : outReq s n e.toNat tag.toNat = some r) :
    let b := loadResume (dropReq (atTime s r.due) n e.toNat tag.toNat) n
    let b := { b with rsps := b.rsps ++ [⟨whoIs n e.toNat, rspTimeout, reqOnes r.flit⟩] }
    let m := flDnode r.flit
    let c := raiseVia b n SRC.NOC_TIMEOUT (flSrc r.flit) 0 (if n.val = m then 4 else firstPair b n m)
    initiatorExpire n e tag s = nocRecord c n rspTimeout (flSrc r.flit) (flDst r.flit) m (flAddr r.flit) := by
  unfold initiatorExpire
  rw [if_pos (by rw [h]; rfl)]
  unfold initiatorTimeout
  rw [h]
  rfl

/-- Where no packet is outstanding, it is a stalled request whose limit expires. -/
theorem initiatorExpire_held (h : outReq s n e.toNat tag.toNat = none) : initiatorExpire n e tag s = heldExpire n e.toNat s :=
  if_neg (by rw [h]; exact Bool.false_ne_true)

/-- A request that stalls in the staging memory, and is not the host's own at the head of its queue. -/
theorem heldExpire_staging {m : Nat} (h : m ≠ ownHost ∨ n.val ≠ 0 ∨ s.tlpQ = []) :
    heldExpire n m s = heldLate n (s.stgHeld.findIdx? fun h => h.node == n.val && h.master == m && !h.late) s := by
  unfold heldExpire
  split
  case h_1 hq =>
    refine if_neg ?_
    simp only [Bool.and_eq_true, decide_eq_true_eq]
    rintro ⟨hm, hn⟩
    rcases h with h | h | h
    · exact h hm
    · exact h hn
    · exact absurd (h.symm.trans hq) (List.cons_ne_nil _ _).symm
  case h_2 => rfl

theorem heldLate_answers {k : Nat} {h : HeldAcc} (hk : s.stgHeld[k]? = some h) :
    let b := atTime { s with stgHeld := s.stgHeld.set k { h with late := true } } h.due
    heldLate n (some k) s = answer h.master ⟨rspTimeout, onesData h.req,
      expired b n h.master (0x20 + bankOf h.req.addr) n (bankAddr h.al h.req.addr) 4⟩ := by
  unfold heldLate
  rw [Option.bind_some, hk]
  rfl

/-- The host's own request, which stalls at the head of its queue. -/
theorem heldExpire_host {req : NetReq} {due : Nat} {l : List HostTlp} (hq : s.tlpQ = .bar2 req (some due) :: l) :
    let m := selGet s 0 0
    let t := bar2Target s m req.toMemReq
    let b := expired (atTime s due) 0 ownHost t.1 m t.2 (viaPair s 0 m)
    heldExpire 0 ownHost s = tlpRelease (answer ownHost ⟨rspTimeout, onesData req.toMemReq,
      { b with stgHeld := b.stgHeld ++ [⟨m, ownHost, 0, req.toMemReq, due, true⟩], tlpQ := l }⟩) := by
  unfold heldExpire
  rw [hq]
  rfl

end

/-! ### Master channels of the fabric (12 R285) -/

section
variable {n : Node} {r : Fin 8} {tag : BitVec 10} {req : NetReq} {ans : Option (List (BitVec 8))} {s b : Block}

theorem gives_fabricMasterRequest (ht : fabricMasterRequest n r tag req ans s = b) :
    Gives (.fabricMasterRequest n r ⟨tag, req⟩ ans) s b :=
  gives_of_done (fabricMasterRequest n r tag req ans) (fun _ => rfl) ht

theorem fabricMasterRequest_sends {t : Option (Nat × Nat)} {f : BitVec 128} (ho : masterOpen s n r = true)
    (hl : req.bytes.length ≠ 0) (ha : req.addr % 64 + req.bytes.length ≤ 64) (ht : t = fabricTarget req.addr)
    (hf : f = fabricFlit n r tag req.toMemReq ((t.map (·.1)).getD 0) ((t.map (·.2)).getD req.addr))
    (hs : sendReq s n (flType f) f = some b) : fabricMasterRequest n r tag req ans s = fabricGo n r f req ans t b := by
  subst ht hf
  unfold fabricMasterRequest
  dsimp only
  rw [if_pos (by simp [ho, hl, ha]), hs]

theorem fabricMasterRequest_closed
    (h : masterOpen s n r = false ∨ req.bytes.length = 0 ∨ 64 < req.addr % 64 + req.bytes.length) :
    fabricMasterRequest n r tag req ans s = s := by
  refine if_neg ?_
  simp only [Bool.and_eq_true, decide_eq_true_eq]
  rintro ⟨⟨ho, hl⟩, ha⟩
  rcases h with h | h | h
  · exact absurd (ho.symm.trans h) (by decide)
  · exact hl h
  · omega

theorem fabricGo_target (f : BitVec 128) (dst a : Nat) :
    fabricGo n r f req ans (some (dst, a)) s = if 0x4A ≤ dst ∧ dst < 0x50 then
        respond f (epReg s (.region n r) n (req.addr - 0x100000000) req.toMemReq)
      else sentBy s f req.way fun s => packetDeliver s (.region n r) f { req.toMemReq with addr := a } ans := by
  unfold fabricGo
  simp only [Bool.and_eq_true, decide_eq_true_eq]

end

/-! ### The obligation on routers, domains and time limits -/

/-- Settles O30: each clause is the command's own case, or the equation of the operation it goes through. -/
theorem networkSwapsDomainsAndTimeouts : Obligations.NetworkSwapsDomainsAndTimeouts := by
  unfold Obligations.NetworkSwapsDomainsAndTimeouts
  refine ⟨?isolate, ?swap, ?swapped, ?drains, ?stall, ?stalled, ?down, ?downBit, ?closes, ?owes, ?wakes, ?forward, ?arrive, ?heads,
    ?send, ?packet, ?staging, ?host, ?master, ?go, ?closed⟩
  case isolate => exact fun n k w s ht => gives_row (.nocIsolateWrite n k w) ht (fun _ => rfl) rfl rfl
  case swap => exact fun n r s ht => gives_row (.routerSwap n r) ht (fun _ => rfl) rfl rfl
  case swapped => exact fun n r s hp hi => gives_of_done (swapDrainDone n r) (fun _ => rfl) (swapDrainDone_drained hp hi)
  case drains => exact fun n r s h => gives_of_done (swapDrainDone n r) (fun _ => rfl) (swapDrainDone_waits h)
  case stall => exact fun n r s hp hs => gives_of_done (nocReconfStall n r) (fun _ => rfl) (nocReconfStall_stalls hp hs)
  case stalled => exact fun n r s h => gives_of_done (nocReconfStall n r) (fun _ => rfl) (nocReconfStall_once h)
  case down => exact fun n w s ht => gives_row (.domainDownWrite n w) ht (fun _ => rfl) rfl rfl
  case downBit => exact domWrite_eq
  case closes =>
    exact fun n d s hb ho => gives_of_done (bridgeClosed n d) (fun _ => rfl) (bridgeClosed_closes hb (domOwes_eq_false ho))
  case owes => exact fun n s h => gives_of_done (bridgeClosed n 7) (fun _ => rfl) (bridgeClosed_owes (domOwes_staging h))
  case wakes => exact fun n d s h => gives_of_done (domainWakeDone n d) (fun _ => rfl) (domainWakeDone_wakes h)
  case forward => exact fun n r out ins s hn => gives_inRun (routerForward n r out ins) hn (fun _ => rfl) rfl
  case arrive => exact fun n r a s => flitArrive_eq n r s a
  case heads => exact fun n r net i l h q s hq => headFlits_cons n r s l hq
  case send =>
    intro n r out net s
    unfold sendHead
    rfl
  case packet => exact fun n e tag s r h => gives_initiatorTimeout (initiatorExpire_packet h)
  case staging =>
    intro n e tag s k h hr hh hk hg
    refine gives_initiatorTimeout (((initiatorExpire_held hr).trans (heldExpire_staging hh)).trans ?_)
    rw [hk]
    exact heldLate_answers hg
  case host =>
    exact fun tag s req due l hr hq => gives_initiatorTimeout ((initiatorExpire_held hr).trans (heldExpire_host hq))
  case master =>
    exact fun n r tag req ans s b t f ho hl ha ht hf hs =>
      gives_fabricMasterRequest (fabricMasterRequest_sends ho hl ha ht hf hs)
  case go => exact fun n r f req ans dst a s => ⟨fabricGo_target f dst a, rfl⟩
  case closed => exact fun n r tag req ans s h => gives_fabricMasterRequest (fabricMasterRequest_closed h)

end Sys2Proof.Machine
end

section
/-! The command queues: doorbells, enables and drains, how commands are taken, and how they are answered (14 R325-R334). -/

namespace Sys2Proof.Machine

/-! ### Doorbells and enables (14 R327, R328) -/

section
variable {s t : Block}

/-- A request of the host that is served as it arrives, and does not stall, has its effect on the block as it finds it. -/
theorem hostTlp_now (h : servedNow s (.queue 0) = true) (x : HostTlp) (ht : tlpApply x (arrived s (.queue 0)) = some t) :
    hostTlp x s = t := hostTlp_served s 0 x _ h ht

variable {q : Fin 16} {v : Half} {en : Bool} (h : servedNow s (.queue 0) = true)
include h

theorem gives_sqTailWrite (ht : sqTailWrite q v (arrived s (.queue 0)) = t) : Gives (.sqTailWrite q v) s t :=
  gives_of_done (hostTlp (.sqTail q v)) (fun _ => rfl) (hostTlp_now h _ (congrArg some ht))

theorem gives_cqHeadWrite (ht : cqHeadWrite q v (arrived s (.queue 0)) = t) : Gives (.cqHeadWrite q v) s t :=
  gives_of_done (hostTlp (.cqHead q v)) (fun _ => rfl) (hostTlp_now h _ (congrArg some ht))

theorem gives_queueEnWrite (ht : queueEnWrite q en (arrived s (.queue 0)) = t) : Gives (.queueEnWrite q en) s t :=
  gives_of_done (hostTlp (.queueEn q en)) (fun _ => rfl) (hostTlp_now h _ (congrArg some ht))

end

section
variable {q : Fin 16} {v : Half} {en : Bool} {s : Block}

theorem sqTailWrite_stopped (hst : qState s q ≠ 2) : sqTailWrite q v s = s := if_pos hst

theorem sqTailWrite_run (hst : qState s q = 2) :
    sqTailWrite q v s = if sqSize s q ≤ v.toNat then doorbellBad s q else fput s 0 F.CMD_Q_SQ_TAIL_SQ_TAIL (ix q) v.toNat :=
  if_neg (not_not.2 hst)

theorem cqHeadWrite_stopped (hst : qState s q ≠ 2) : cqHeadWrite q v s = s := if_pos hst

/-- The completion head may come up to the tail, not past it. -/
theorem cqHeadWrite_run (hst : qState s q = 2) :
    cqHeadWrite q v s = if v.toNat < cqSize s q ∧
        (v.toNat + cqSize s q - cqHead s q) % cqSize s q ≤ (cqTail s q + cqSize s q - cqHead s q) % cqSize s q then
      fput s 0 F.CMD_Q_CQ_HEAD_CQ_HEAD (ix q) v.toNat
      else raise (fput s 0 F.CMD_Q_STATUS_CFG_REJECT (ix q) 1) 0 SRC.CMD_QUEUE_ERROR q 0 := by
  refine (if_neg (not_not.2 hst)).trans ?_
  split
  case isTrue hbad =>
    simp only [Bool.or_eq_true, decide_eq_true_eq] at hbad
    exact (if_neg (by omega)).symm
  case isFalse hok =>
    simp only [Bool.or_eq_true, decide_eq_true_eq] at hok
    exact (if_pos (by omega)).symm

theorem queueEnWrite_starts (hst : qState s q = 0) :
    let b := fput (fput s 0 F.CMD_Q_CTRL_EN (ix q) 1) 0 F.CMD_Q_CTRL_STATE (ix q) 2
    let b := fput (fput b 0 F.CMD_Q_STATUS_SQ_HEAD (ix q) 0) 0 F.CMD_Q_COUNT_CQ_TAIL (ix q) 0
    let b := fput (fput b 0 F.CMD_Q_SQ_TAIL_SQ_TAIL (ix q) 0) 0 F.CMD_Q_CQ_HEAD_CQ_HEAD (ix q) 0
    queueEnWrite q true s = { b with phases := mput (fun _ => true) s.phases q true } := by
  unfold queueEnWrite
  rw [hst]
  rfl

theorem queueEnWrite_drains (hst : qState s q = 2) :
    let b := fput (fput s 0 F.CMD_Q_CTRL_EN (ix q) 0) 0 F.CMD_Q_CTRL_STATE (ix q) 1
    queueEnWrite q false s = (s.flight.filter fun f => f.q == q.val).foldl (stopFlight stCancelled false) b := by
  unfold queueEnWrite
  rw [hst]
  rfl

/-- A queue that drains takes no write of EN; EN as it stands changes nothing. -/
theorem queueEnWrite_ignored (h : qState s q = 1 ∨ qState s q = if en then 2 else 0) : queueEnWrite q en s = s := by
  unfold queueEnWrite
  cases en <;> rcases h with h | h <;> rw [h] <;> rfl

end

/-- Settles O32: each clause is the queue's own case, on the block as the write finds it. -/
theorem queuesTakeDoorbellsAndDrain : Obligations.QueuesTakeDoorbellsAndDrain := by
  unfold Obligations.QueuesTakeDoorbellsAndDrain
  refine ⟨?tail, ?tailBad, ?head, ?stopped, ?starts, ?drains, ?ignored, ?drained⟩
  case tail =>
    exact fun q v s h hst hv => gives_sqTailWrite h ((sqTailWrite_run hst).trans (if_neg (Nat.not_le.mpr hv)))
  case tailBad => exact fun q v s h hst hv => gives_sqTailWrite h ((sqTailWrite_run hst).trans (if_pos hv))
  case head => exact fun q v s h hst => gives_cqHeadWrite h (cqHeadWrite_run hst)
  case stopped =>
    exact fun q v s h hst => ⟨gives_sqTailWrite h (sqTailWrite_stopped hst), gives_cqHeadWrite h (cqHeadWrite_stopped hst)⟩
  case starts => exact fun q s h hst => gives_queueEnWrite h (queueEnWrite_starts hst)
  case drains => exact fun q s h hst => gives_queueEnWrite h (queueEnWrite_drains hst)
  case ignored => exact fun q en s h hst => gives_queueEnWrite h (queueEnWrite_ignored hst)
  case drained =>
    exact fun q s hst hf => gives_of_done (queueDrainDone q) (fun _ => rfl) (if_pos (by simp only [hst, hf]; rfl))

/-! ### Taking (14 R326-R333) -/

section
variable {q : Fin 16} {pkt : BitVec 512} {fence : BitVec 16} {miss : Fin 4} {way : BusWay} {s : Block}

/-- FLAGS.FENCE of each queue's next packet, with that of the packet `pkt` of queue `q`. -/
def fencesWith (q : Fin 16) (pkt : BitVec 512) (fence : BitVec 16) : BitVec 16 :=
  if pkt.getLsbD 41 then fence ||| BitVec.ofNat 16 (2 ^ q.val) else fence &&& ~~~BitVec.ofNat 16 (2 ^ q.val)

theorem gives_commandTake {t : Block} (ht : commandTake q pkt fence miss way s = t) :
    Gives (.commandTake q pkt ⟨fence, miss, way⟩) s t := gives_of_done (commandTake q pkt fence miss way) (fun _ => rfl) ht

theorem commandTake_takes (ht : taking s = true) (hq : turnQueue s (fencesWith q pkt fence) = some q.val) :
    let head := (sqHead s q + 1) % sqSize s q
    let ps := (List.range 7).map (pktP pkt)
    let b := fput s 0 F.CMD_Q_STATUS_SQ_HEAD (ix q) head
    commandTake q pkt fence miss way s = { b with
      flight := s.flight ++ [{ q := q, cid := pktCid pkt, op := pktOp pkt, node := pktNode pkt, irq := pkt.getLsbD 40, head := head,
                               ps := ps, past := opClass (pktOp pkt) != some 2 && opClass (pktOp pkt) != some 3,
                               dup := (cmdOf s q (pktCid pkt)).isSome, result := packetError s q pkt ps,
                               sels := (List.range 11).map (selGet s q.val), miss := miss, way := way }]
      lastQueue := q.val } :=
  if_pos (by rw [ht, Bool.true_and]; exact decide_eq_true hq)

theorem commandTake_waits (h : taking s = false ∨ turnQueue s (fencesWith q pkt fence) ≠ some q.val) :
    commandTake q pkt fence miss way s = s := by
  refine if_neg ?_
  rw [Bool.and_eq_true, decide_eq_true_eq]
  rintro ⟨ht, hq⟩
  exact h.elim (fun h => absurd (ht.symm.trans h) (by decide)) (· hq)

end

/-- The checks of R333 in their order. -/
theorem packetError_eq (s : Block) (q : Nat) (pkt : BitVec 512) (ps : List Nat) :
    packetError s q pkt ps =
      if opClass (pktOp pkt) = none ∨ fbit s 0 F.NVS_STATUS_RECOVERY = true ∧ recoveryOk (pktOp pkt) ps = false then
        some { status := 0x10 }
      else match badParam s q pkt ps with
        | some d => some { status := 0x11, detail := d }
        | none => if badNode s q pkt ps then some { status := 0x12 } else none := by
  unfold packetError
  simp only [Bool.or_eq_true, Bool.and_eq_true, Bool.not_eq_true', Option.isNone_iff_eq_none]
  rfl

/-! ### Whose turn it is, and its node (14 R329, R332) -/

section
variable {s : Block} {op : Nat} {act : CmdFl → Block → Block}

/-- Work whose node is in Brake, Rest or Off is not done. -/
theorem runNode_asleep {f : CmdFl} (hn : nextCmd s = some f) (hop : f.op = op)
    (hd : (pow s f.node).off = true ∨ 3 ≤ pState s f.node) : runNode op act s = endWith { status := 0x21 } f s :=
  (runCmd_next hn hop).trans (if_pos (by simpa using hd))

/-- Where no command of the opcode is next, those whose source stalled are tried. -/
theorem runCmd_retries (h : ∀ f, nextCmd s = some f → f.op ≠ op) : runCmd op act s = retryCmds act (stalledCmds s op) s := by
  unfold runCmd
  split
  case h_1 f hf => exact if_neg (h f hf)
  case h_2 => rfl

end

/-! ### Answering (14 R331, R334) -/

theorem commandCompletion_ends {q : Fin 16} {cid : Half} {s : Block} {f : CmdFl} (hd : s.d3hot = false) (hr : inRun s 0 = true)
    (hf : (dupOf s q cid.toNat).or (cmdOf s q cid.toNat) = some f) :
    commandCompletion q cid s = match f.result with
      | some r => writeReply s f r
      | none => if f.step = 0 then s
        else match (finish s f).1 with
          | some r => writeReply (finish s f).2 f r
          | none => (finish s f).2 := by
  unfold commandCompletion
  rw [if_neg (by simp [hd, hr]), hf] <;> rfl

theorem bytesLE_length (k v : Nat) : (bytesLE k v).length = k := by
  induction k generalizing v with
  | zero => rfl
  | succ k ih => exact congrArg (· + 1) (ih (v / 256))

@[simp] theorem leBytes_length (k v : Nat) : (leBytes k v).length = k := by
  rw [leBytes, List.length_map, bytesLE_length]

theorem replyBytes_length (f : CmdFl) (phase : Bool) (r : Reply) : (replyBytes f phase r).length = 32 := by
  simp only [replyBytes, List.length_append, leBytes_length]

/-- Settles O33: taking, running and completing are each the case that its hypotheses name; a reply is nine fields of 32 bytes. -/
theorem commandsAreTakenAndAnswered : Obligations.CommandsAreTakenAndAnswered := by
  unfold Obligations.CommandsAreTakenAndAnswered
  refine ⟨?takes, ?waits, ?checks, ?asleep, ?retries, ?completes, ?reply, ?bytes⟩
  case takes => exact fun q pkt fence miss way s ht hq => gives_commandTake (commandTake_takes ht hq)
  case waits => exact fun q pkt fence miss way s h => gives_commandTake (commandTake_waits h)
  case checks => exact packetError_eq
  case asleep => exact fun s f op act hn hop hd => runNode_asleep hn hop hd
  case retries => exact fun s op act h => ⟨runCmd_retries h, fun f fs => rfl⟩
  case completes =>
    exact fun q cid s f hd hr hf => gives_of_done (commandCompletion q cid) (fun _ => rfl) (commandCompletion_ends hd hr hf)
  case reply => exact fun s f r => rfl
  case bytes => exact fun s f r => ⟨rfl, replyBytes_length f _ r⟩

end Sys2Proof.Machine
end

section
/-! The host's commands that read, write and report, and those on settings and images (14 R335-R342, 19 R421-R432, 03 R84,
12 R288). -/

namespace Sys2Proof.Machine

/-! ### ABORT (14 R335, 13 R316) -/

/-- A command past its commit point, or whose result is known, is not stopped, unless it is already being aborted. -/
theorem stopFlight_past {status : Nat} {halt : Bool} {s : Block} {f : CmdFl} (h : f.past = true ∨ f.result.isSome = true) :
    stopFlight status halt s f = s := if_pos (by rcases h with h | h <;> simp [h])

section
variable {s b : Block} {f t u : CmdFl} (hn : nextCmd s = some f) (hop : f.op = 0x0102)
include hn hop

theorem gives_abort_unknown (ht : cmdOf s (pf f.ps 0 19 16) (pf f.ps 0 15 0) = none)
    (hb : (if (mget (fun _ => []) s.doneCids (pf f.ps 0 19 16)).contains (pf f.ps 0 15 0) then endWith { status := 2 } f s
      else endWith { status := 0x11, detail := 8 } f s) = b) : Gives .abort s b := by
  refine gives_runCmd (fun _ => rfl) hn hop ?_
  dsimp only
  rw [ht]
  exact hb

/-- How an ABORT of a command in flight ends depends on what stopping that command leaves of it. -/
theorem gives_abort_known (ht : cmdOf s (pf f.ps 0 19 16) (pf f.ps 0 15 0) = some t)
    (hu : cmdOf (stopFlight stAborted true s t) (pf f.ps 0 19 16) (pf f.ps 0 15 0) = some u)
    (hb : (if t.result.isNone && (u.result.map (·.status)) == some stAborted then endOk f (stopFlight stAborted true s t)
      else if u.result.isNone && u.aborting then begun (stopFlight stAborted true s t) f
      else endWith { status := stTooLate } f (stopFlight stAborted true s t)) = b) : Gives .abort s b := by
  refine gives_runCmd (fun _ => rfl) hn hop ?_
  dsimp only
  rw [ht]
  dsimp only
  rw [hu]
  exact hb

end

/-! ### REG_READ and REG_WRITE (14 R336, R342) -/

/-- An answer ends a command's accesses unless its code is OK or that of a decoding error. -/
theorem codeEnds_iff (code : Nat) : codeEnds code = true ↔ code ≠ rspOk ∧ code ≠ rspDecErr := by
  unfold codeEnds
  rw [Bool.and_eq_true, bne_iff_ne, bne_iff_ne]

theorem regReads_cons (f : CmdFl) (way : BusWay) (k o : Nat) (os : List Nat) (s : Block) :
    let a := readTaken f (if k = 0 then way else .served) o s
    let r := regReads f way (if k = 0 then 4 else k - 1) os a.2.2
    regReads f way k (o :: os) s = if a.1 ≠ rspOk ∧ a.1 ≠ rspDecErr then (a.1, [], a.2.2) else (r.1, a.2.1 :: r.2.1, r.2.2) := by
  intro a r
  rw [regReads, ← ite_congr (propext (codeEnds_iff a.1)) (fun _ => rfl) (fun _ => rfl)]

theorem regWrites_cons (f : CmdFl) (way : BusWay) (k o : Nat) (w : Word) (os : List (Nat × Word)) (s : Block) :
    let a := writeTaken f (if k = 0 then way else .served) o w s
    regWrites f way k ((o, w) :: os) s =
      if a.1 ≠ rspOk ∧ a.1 ≠ rspDecErr then a else regWrites f way (if k = 0 then 4 else k - 1) os a.2 := by
  intro a
  rw [regWrites, ← ite_congr (propext (codeEnds_iff a.1)) (fun _ => rfl) (fun _ => rfl)]

theorem regReads_nil (f : CmdFl) (way : BusWay) (k : Nat) (s : Block) : regReads f way k [] s = (rspOk, [], s) := by
  rw [regReads]

theorem regWrites_nil (f : CmdFl) (way : BusWay) (k : Nat) (s : Block) : regWrites f way k [] s = (rspOk, s) := by
  rw [regWrites]

/-- The code of a path that ends before its target. -/
theorem regEnd_code {s : Block} {h e n off : Nat} (hp : regPath s h e n off ≠ .there) : ∃ r, regEnd s h e n off = some r ∧
    r.1 = if regPath s h e n off = .gone then rspTimeout else rspNoRoute := by
  unfold regEnd
  split
  case h_1 h => exact absurd h hp
  case h_2 h => exact ⟨_, rfl, by rw [h]; rfl⟩
  case h_3 h => exact ⟨_, rfl, by rw [h]; rfl⟩

section
variable {f : CmdFl} {o : Nat} {s : Block} {ones : List (BitVec 8)} {act : Block → MemAns} (ho : o / 2 ^ 20 ≠ 1)
include ho

/-- An access outside the CMD block that is served goes as far as its path. -/
theorem cmdNet_served : cmdNet f .served o s ones act =
    match regEnd s 0 ownCmd (accessNode s (cmdCtx f) o) o with
    | some r => ⟨r.1, ones, r.2⟩
    | none => act s := by
  unfold cmdNet overNet1
  dsimp only
  rw [if_neg ho, overNet_served]
  rfl

variable (hp : regPath s 0 ownCmd (accessNode s (cmdCtx f) o) o = .there)
include hp

theorem cmdNet_there : cmdNet f .served o s ones act = act s := by
  rw [cmdNet_served ho, regEnd_there _ _ _ _ _ hp]

/-- One whose answer comes late has had its effect. -/
theorem cmdNet_late : cmdNet f .late o s ones act = ⟨rspTimeout, ones,
    regTimedOut 0 ownCmd (accessNode s (cmdCtx f) o) o (fsat (act s).st 0 F.NOC_LATE_COUNT 0)⟩ := by
  unfold cmdNet overNet1
  dsimp only
  rw [if_neg ho, overNet_late (a := act s) (by rw [regEnd_there _ _ _ _ _ hp])]
  rfl

end

theorem backTaken_other {o : Nat} (ho : o / 2 ^ 20 ≠ 1) (s t : Block) : backTaken s o t = { t with sels := s.sels } := if_neg ho

section
variable {f : CmdFl} {o : Nat} {w : Word} {s : Block} (ho : o / 2 ^ 20 ≠ 1)
include ho

theorem readTaken_ended (hp : regPath (atTaken f o s) 0 ownCmd (accessNode (atTaken f o s) (cmdCtx f) o) o ≠ .there) :
    (readTaken f .served o s).1 =
      if regPath (atTaken f o s) 0 ownCmd (accessNode (atTaken f o s) (cmdCtx f) o) o = .gone then rspTimeout else rspNoRoute := by
  obtain ⟨r, hr, hc⟩ := regEnd_code hp
  unfold readTaken
  rw [cmdNet_served ho, hr]
  exact hc

variable (hp : regPath (atTaken f o s) 0 ownCmd (accessNode (atTaken f o s) (cmdCtx f) o) o = .there)
include hp

theorem writeTaken_there : writeTaken f .served o w s =
    ((barWord (atTaken f o s) (cmdCtx f) o w).1, { (barWord (atTaken f o s) (cmdCtx f) o w).2 with sels := s.sels }) := by
  unfold writeTaken
  rw [cmdNet_there ho hp]
  exact Prod.ext rfl (backTaken_other ho _ _)

theorem writeTaken_late : writeTaken f .late o w s = (rspTimeout,
    { regTimedOut 0 ownCmd (accessNode (atTaken f o s) (cmdCtx f) o) o
        (fsat (barWord (atTaken f o s) (cmdCtx f) o w).2 0 F.NOC_LATE_COUNT 0) with sels := s.sels }) := by
  unfold writeTaken
  rw [cmdNet_late ho hp]
  exact Prod.ext rfl (backTaken_other ho _ _)

end

/-! ### The obligation on reading, writing and reporting -/

/-- Settles O34: each command is next, so its row does its work; ABORT by what is left of its target, register accesses one by one. -/
theorem commandsReadWriteAndReport : Obligations.CommandsReadWriteAndReport := by
  unfold Obligations.CommandsReadWriteAndReport
  refine ⟨?nop, ?identify, ?dma, ?stopped, ?votes, ?tooLate, ?unknown, ?regRead, ?reads, ?access, ?regWrite, ?writes, ?faultAck,
    ?ring, ?blackBox, ?power, ?run, ?topology, ?rescan⟩
  case nop | topology | rescan => intros; exact gives_runCmd (fun _ => rfl) ‹_› ‹_› rfl
  case identify | faultAck => intros; exact gives_runNode (fun _ => rfl) ‹_› ‹_› ‹_› ‹_› rfl
  case dma => exact fun a bytes r s f => ⟨rfl, rfl, rfl⟩
  case stopped =>
    exact fun s f t u hn hop ht hu hr hs => gives_abort_known hn hop ht hu (if_pos (by rw [hr, hs]; rfl))
  case votes =>
    exact fun s f t u hn hop ht hu hr ha =>
      gives_abort_known hn hop ht hu ((if_neg (by simp [hr])).trans (if_pos (by simp [hr, ha])))
  case tooLate =>
    intro s f t hn hop ht h
    have hstop : stopFlight stAborted true s t = s := stopFlight_past (h.imp And.left id)
    have hown : ¬ (t.result.isNone && (t.result.map (·.status)) == some stAborted) = true := by
      cases t.result <;> simp
    have hwait : ¬ (t.result.isNone && t.aborting) = true := by
      rcases h with ⟨_, h⟩ | h
      · simp [h]
      · rw [Option.isNone_eq_false_iff.2 h]; exact Bool.false_ne_true
    refine gives_abort_known hn hop ht (u := t) (by rw [hstop]; exact ht) ?_
    rw [if_neg hown, if_neg hwait, hstop]
    rfl
  case unknown => exact fun s f hn hop ht => gives_abort_unknown hn hop ht (apply_ite (fun r => endWith r f s) _ _ _).symm
  case regRead =>
    exact fun s f hn hop => gives_runCmd (fun _ => rfl) hn hop (apply_ite (fun r => endWith r f _) _ _ _).symm
  case reads => exact fun f way k o os s => ⟨regReads_nil f way k s, regReads_cons f way k o os s⟩
  case access =>
    refine fun f o w s ho => ⟨?_, fun hp => ⟨writeTaken_there ho hp, writeTaken_late ho hp⟩⟩
    rintro _ rfl hp
    exact readTaken_ended ho hp
  case regWrite => exact fun s f hn hop => gives_runCmd (fun _ => rfl) hn hop rfl
  case writes => exact fun f way k o w os s => ⟨regWrites_nil f way k s, regWrites_cons f way k o w os s⟩
  case ring => exact fun dma s f hn hop hoff hp he => gives_runNode (fun _ => rfl) hn hop hoff hp (if_pos he)
  case blackBox => exact fun dma s f hn hop hoff hp he => gives_runNode (fun _ => rfl) hn hop hoff hp (if_neg he)
  case power => exact fun s f hn hop ht => gives_runCmd (fun _ => rfl) hn hop (if_neg ht)
  case run => exact fun s f hn hop ht => gives_runCmd (fun _ => rfl) hn hop (if_pos ht)

/-! ### Commit points (14 R338) -/

section
variable {s : Block} {f : CmdFl} (hop : f.op = 0x0200 ∨ f.op = 0x0300 ∨ f.op = 0x0301 ∨ f.op = 0x0302)
include hop

/-- A store, a load or a boot selection before its commit point goes on to it. -/
theorem finish_passes (hp : f.past = false) : finish s f = (none, passCommit s f) := by
  unfold finish
  rcases hop with h | h | h | h <;> rw [h, hp] <;> rfl

theorem passCommit_eq :
    let t := cmdPast s f.q f.cid
    passCommit s f = if (pow s f.node).off = true ∨ 3 ≤ pState s f.node then cmdEnd s f.q f.cid { status := 0x21 }
      else if f.op = 0x0300 then putSlot t f.node (pf f.ps 0 15 0) .empty
      else if f.op = 0x0301 then (if anyRunning s f.node then cmdEnd s f.q f.cid { status := 0x13 }
        else loadBeginMicro t f.node (if f.nums.isEmpty then none else some f.bytes))
      else t := by
  unfold passCommit
  by_cases hd : (pow s f.node).off = true ∨ 3 ≤ pState s f.node
  · exact (if_pos (by simpa using hd)).trans (if_pos hd).symm
  · refine (if_neg (by simpa using hd)).trans (Eq.trans ?_ (if_neg hd).symm)
    rcases hop with h | h | h | h <;> simp [h, stBusy]

end

/-! ### The obligation on settings and images -/

/-- A source's bytes are taken up, or how it failed or stalled. -/
theorem withSource_eq (x : Sourced) (f : CmdFl) (s : Block) (act : List (BitVec 8) → Block → Block) :
    withSource x f s act = match x with
      | none => if pf f.ps 2 32 32 = 1 then stallCmd f (stgWaits s f.node) else s
      | some (.error r, b) => endWith r f b
      | some (.ok bs, b) => act bs b := by
  rcases x with _ | ⟨_ | _, _⟩ <;> rfl

/-- Settles O35: each command is next and its node serves, so its row does its work, by what its source or its image gives. -/
theorem commandsOnSettingsAndImages : Obligations.CommandsOnSettingsAndImages := by
  unfold Obligations.CommandsOnSettingsAndImages
  refine ⟨?store, ?read, ?image, ?microcode, ?boot, ?fabric, ?commit⟩
  case store =>
    exact fun data bad dma s f hn hop hoff hp =>
      gives_runNode (fun _ => rfl) hn hop hoff hp (ite_congr rfl (fun _ => rfl) (fun _ => withSource_eq _ f s _))
  case read =>
    intro s f dma hn hop hoff hp
    refine gives_runNode (fun _ => rfl) hn hop hoff hp ?_
    dsimp only
    cases (readPage s f.node (pf f.ps 0 15 0)).1 <;> rfl
  case image =>
    exact fun data fail dma s f hn hop hoff hp =>
      gives_runNode (fun _ => rfl) hn hop hoff hp (ite_congr rfl (fun _ => rfl) (fun _ => withSource_eq _ f s _))
  case microcode => exact fun s f hn hop hoff hp => gives_runNode (fun _ => rfl) hn hop hoff hp rfl
  case boot => exact fun bad s f hn hop hoff hp => gives_runNode (fun _ => rfl) hn hop hoff hp rfl
  case fabric => exact fun s f hn hop hoff hp => gives_runNode (fun _ => rfl) hn hop hoff hp rfl
  case commit => exact fun s f hop hp => ⟨finish_passes hop hp, passCommit_eq hop⟩

end Sys2Proof.Machine
end

section
/-! The host's link, and the ladder of power states: how states are asked for, entered and left (14 R320-R324, R343; 18 R405-R409,
R416; 20 R441). -/

namespace Sys2Proof.Machine

/-! ### Vectors and the link (14 R320-R324, R343, 20 R441) -/

section
variable {s t : Block}

theorem vectorMask_off (s : Block) (v : Nat) :
    vectorMask s v false = if s.d3hot = false ∧ mget (fun _ => false) s.pba v = true then
        { s with unmasked := mput (fun _ => false) s.unmasked v true
                 pba := mput (fun _ => false) s.pba v false
                 msgs := s.msgs ++ [v] }
      else { s with unmasked := mput (fun _ => false) s.unmasked v true } := by
  unfold vectorMask
  simp only [Bool.not_false, Bool.true_and, Bool.and_eq_true, Bool.not_eq_true']

theorem gives_vectorUnmask {v : BitVec 8} (h : servedNow s (.queue 0) = true)
    (ht : vectorMask (arrived s (.queue 0)) v.toNat false = t) : Gives (.vectorUnmask v) s t :=
  gives_of_done (vectorUnmask v) (fun _ => rfl) (hostTlp_now h (.unmask v) (congrArg some ht))

end

section
variable {n : Node} {rate width : Fin 5} {lanes : BitVec 16} {reversed loss : Bool} {s : Block}

theorem linkTrained_trains (ho : (pow s n).off = false) (hq : (pow s n).quietEp = false) (hp : pState s n ≠ 4)
    (hw : linkWidth lanes reversed width ≠ 0) :
    let b := putPow s n
      { pow s n with rate := [25, 50, 80, 160, 320].getD rate 25, width := linkWidth lanes reversed width }
    let b := { b with pcieUp := mput (fun _ => false) b.pcieUp n true }
    linkTrained n rate width lanes reversed s = if role b n = roUnattached then setRole b n roCandidate else b :=
  if_neg (by simp [ho, hq, hp, hw])

theorem linkTrained_silent (h : (pow s n).off = true ∨ (pow s n).quietEp = true ∨ pState s n = 4 ∨
    linkWidth lanes reversed width = 0) : linkTrained n rate width lanes reversed s = s :=
  if_pos (by simpa [or_assoc] using h)

/-- All lanes that a link of that width uses train. -/
def lanesTrain (lanes : BitVec 16) (reversed : Bool) (w : Nat) : Bool :=
  (List.range w).all fun i => lanes.getLsbD (if reversed then 15 - i else i)

theorem linkWidth_zero : linkWidth lanes reversed 0 = if lanesTrain lanes reversed 1 then 1 else 0 := rfl

theorem linkWidth_succ (k : Nat) : linkWidth lanes reversed (k + 1) =
    if lanesTrain lanes reversed (2 ^ (k + 1)) then 2 ^ (k + 1) else linkWidth lanes reversed k := by
  rw [linkWidth]
  rfl

/-- The primary has no power, or rests. -/
theorem endpointDown_iff : ((pow s 0).off || decide (pState s 0 = 4)) = true ↔ (pow s 0).off = true ∨ pState s 0 = 4 := by
  simp

theorem functionLevelReset_down (h : (pow s 0).off = true ∨ pState s 0 = 4) : functionLevelReset loss s = s :=
  if_pos (endpointDown_iff.2 h)

theorem functionLevelReset_up (ho : (pow s 0).off = false) (hp : pState s 0 ≠ 4) :
    functionLevelReset loss s = if loss then
        { interfaceReset s with pcieUp := mput (fun _ => false) (interfaceReset s).pcieUp 0 false }
      else interfaceReset s :=
  if_neg (by simp [ho, hp])

theorem d0Write_down (h : (pow s 0).off = true ∨ pState s 0 = 4) : d0Write s = s := if_pos (endpointDown_iff.2 h)

theorem d0Write_up (ho : (pow s 0).off = false) (hp : pState s 0 ≠ 4) :
    let b := fset { s with d3hot := false } 0 F.GOV_STATE_D3_HELD 0
    d0Write s = startExit ((List.range 256).foldl (fun s v =>
      if mget (fun _ => false) s.unmasked v then vectorMask s v false else s) b) 0 wkTlp :=
  if_neg (by simp [ho, hp])

theorem perstNAssert_eq : perstNAssert n s =
    if (pow s n).off = true ∨ (pow s n).resetting = true ∨ role s n = roSecondary then s
    else if 3 ≤ pState s n then putPow s n { pow s n with perst := true }
    else endpointReset (if n.val = 0 then interfaceReset s else s) n := by
  unfold perstNAssert
  simp only [Bool.or_eq_true, decide_eq_true_eq, or_assoc]

end

/-- Settles O37: the vector's write as it arrives, and each of the link's events on its own side of the power it needs. -/
theorem hostLinkTrainsResetsAndWakes : Obligations.HostLinkTrainsResetsAndWakes := by
  unfold Obligations.HostLinkTrainsResetsAndWakes
  refine ⟨?unmask, ?trains, ?silent, ?width, ?reset, ?wake, ?down, ?perst⟩
  case unmask => exact fun v s h => gives_vectorUnmask h (vectorMask_off _ _)
  case trains =>
    exact fun n rate width lanes rev s ho hq hp hw =>
      gives_of_done (linkTrained n rate width lanes rev) (fun _ => rfl) (linkTrained_trains ho hq hp hw)
  case silent =>
    exact fun n rate width lanes rev s h =>
      gives_of_done (linkTrained n rate width lanes rev) (fun _ => rfl) (linkTrained_silent h)
  case width => exact fun lanes rev k => ⟨linkWidth_zero, linkWidth_succ k⟩
  case reset =>
    exact fun loss s ho hp => gives_of_done (functionLevelReset loss) (fun _ => rfl) (functionLevelReset_up ho hp)
  case wake => exact fun s ho hp => gives_of_done d0Write (fun _ => rfl) (d0Write_up ho hp)
  case down =>
    exact fun loss s h =>
      ⟨gives_of_done (functionLevelReset loss) (fun _ => rfl) (functionLevelReset_down h),
        gives_of_done d0Write (fun _ => rfl) (d0Write_down h)⟩
  case perst => exact fun n s => gives_of_done (perstNAssert n) (fun _ => rfl) perstNAssert_eq

/-! ### Requests for a lower state (18 R405) -/

section
variable {n : Node} {target : BitVec 3} {all : Bool} {s : Block}

theorem govReqWrite_reserved (h : 5 ≤ target.toNat) : govReqWrite n target all s = govReject s n := if_pos h

theorem govReqWrite_taken (h5 : target.toNat < 5) (h0 : target ≠ 0)
    (hb : powerBusy s (namedNodes s all n) target.toNat none = false) :
    govReqWrite n target all s = powerGo s (namedNodes s all n) target.toNat := by
  unfold govReqWrite powerRequest
  dsimp only
  rw [if_neg (Nat.not_le.2 h5), if_neg h0, hb]
  rfl

theorem govReqWrite_busy (h5 : target.toNat < 5) (h0 : target ≠ 0)
    (hb : powerBusy s (namedNodes s all n) target.toNat none = true) : govReqWrite n target all s = govReject s n := by
  unfold govReqWrite powerRequest
  dsimp only
  rw [if_neg (Nat.not_le.2 h5), if_neg h0, hb]
  rfl

theorem gives_govReqWrite {t : Block} (h : takenNow s n 0x14 = true) (ht : govReqWrite n target all s = t) :
    Gives (.govReqWrite n target all) s t :=
  gives_row (.govReqWrite n target all) h (fun _ => rfl) rfl ht

end

/-! ### Entering a state (18 R406, R409) -/

section
variable {n : Node} {s : Block} {t : Nat}

/-- What an entry does once its ACUs are quiet. -/
theorem powerEntryDone_enters (he : (pow s n).entry = some t) (hm : allMuted s n = true)
    (ht : (s.events.any fun e => e.node == n.val && (e.src == SRC.GOV_TEMP_TRIP || e.src == SRC.GOV_RAIL_FAULT)) = false)
    (hr : replyFirst s n = false) (hl : ((pow s n).leaving && nodePresent s n) = false)
    (hq : (List.range 16).all (acuQuiet (if 3 ≤ t then drainTasks s n else s) n) = true) :
    let b := closingDomains (if 3 ≤ t then drainTasks s n else s) n t
    let c := enterState (putPow b n { pow b n with wakeAfter := none }) n t
    powerEntryDone n s = if (domsDown t).any (domOwes b n) then b
      else primaryLast (match (pow b n).wakeAfter with
        | some src => startExit c n src
        | none => c) := by
  unfold powerEntryDone
  rw [he]
  dsimp only
  rw [hm, ht, hr, hl, hq]
  rfl

/-- While an ACU still works, an entry drains and waits. -/
theorem powerEntryDone_drains (he : (pow s n).entry = some t) (hm : allMuted s n = true)
    (ht : (s.events.any fun e => e.node == n.val && (e.src == SRC.GOV_TEMP_TRIP || e.src == SRC.GOV_RAIL_FAULT)) = false)
    (hr : replyFirst s n = false) (hl : ((pow s n).leaving && nodePresent s n) = false)
    (hq : (List.range 16).all (acuQuiet (if 3 ≤ t then drainTasks s n else s) n) = false) :
    powerEntryDone n s = if 3 ≤ t then drainTasks s n else s := by
  unfold powerEntryDone
  rw [he]
  dsimp only
  rw [hm, ht, hr, hl, hq]
  rfl

end

/-! ### Waking (18 R407) -/

section
variable {n src t : Nat} {s : Block}

/-- A source that is masked, or finds no power, a node that wakes already or one too hot, wakes nothing. -/
theorem startExit_ignored (h : (pow s n).off = true ∨ (fget s n F.GOV_WAKE_CTRL_SRC_MASK).testBit src = false ∨
    (pow s n).exit.isSome = true ∨ (pow s n).hot = true) : startExit s n src = s :=
  if_pos (by simpa [or_assoc] using h)

variable (ho : (pow s n).off = false) (hm : (fget s n F.GOV_WAKE_CTRL_SRC_MASK).testBit src = true)
  (hx : (pow s n).exit = none) (hh : (pow s n).hot = false)
include ho hm hx hh

theorem startExit_begins (he : (pow s n).entry = none) (hw : wakes (pState s n) src = true) :
    startExit s n src = if (pow s n).vinLow then putPow s n { pow s n with held := some src }
      else setMoving (putPow s n { pow s n with exit := some src, held := none }) n true := by
  unfold startExit
  dsimp only
  rw [if_neg (by simp [ho, hm, hx, hh]), he]
  exact if_neg (by simp [hw])

/-- During an entry the wake waits for its end. -/
theorem startExit_waits (he : (pow s n).entry = some t) (hw : wakes t src = true) :
    startExit s n src = putPow s n { pow s n with wakeAfter := some src } := by
  unfold startExit
  dsimp only
  rw [if_neg (by simp [ho, hm, hx, hh]), he]
  exact if_pos hw

end

section
variable {n : Node} {s : Block}

theorem wakeTimer_due (he : fbit s n F.GOV_WAKE_CTRL_TIMER_EN = true)
    (hs : pState s n ≠ 0 ∨ (pow s n).entry.isSome = true) (ho : (pow s n).off = false) :
    wakeTimer n s = startExit (atDev s n (get64 s n .GOV_WAKE * 2 ^ 16)) n wkTimer :=
  if_pos (by simpa [he, ho] using hs)

theorem keepAliveWake_sent (h : (pow s n).keepAlive = true) :
    keepAliveWake n s = startExit (putPow s n { pow s n with keepAlive := false }) n wkKeep := if_pos h

end

/-! ### Reaching Run (18 R408, R409) -/

/-- A node on its way back to Run whose supply holds arrives there. -/
theorem powerExitDone_arrives {n : Node} {s : Block} {src : Nat} (hx : (pow s n).exit = some src)
    (hv : (pow s n).vinLow = false) :
    let st := pState s n
    let b := setMoving (fset (fset s n F.GOV_STATE_STATE 0) n F.GOV_STATE_WAKE_SRC (2 ^ src)) n false
    let b := putPow b n { pow b n with exit := none, after := none, inL1 := false, reload := (pow b n).reload || decide (3 ≤ st) }
    let b := if st = 2 then openDomains b n else b
    let b := if st = 1 || st = 2 then thawRegions b n st else clearRecord (clearStaging b n) n
    let b := if st = 4 then startLinks b n else b
    let b := if st = 4 then
        (if n.val = 0 then fset (setRole b 0 roPrimary) 0 F.WEIR_STATUS_PRIMARY 1 else callAll (setRole b n roUnattached) n)
      else if st = 3 && n.val = 0 then fset b 0 F.WEIR_STATUS_PRIMARY 1
      else b
    let b := if n.val = 0 && (st = 2 || st = 3) then sendKeepAlive b else b
    let b := if (pow b n).perst then endpointReset b n else b
    powerExitDone n s = match (pow s n).after with
      | some t => startEntry b n t
      | none => b := by
  unfold powerExitDone
  rw [hx]
  exact if_neg (ne_true_of_eq_false hv)

/-! ### The BMC, and the link's own state (18 R416, 14 R321) -/

section
variable {n : Node} {addr : BitVec 2} {ptr : BitVec 8} {bytes : List (BitVec 8)} {en : Bool} {s : Block}

theorem bmcWrite_addressed (ho : (pow s n).off = false) (ha : (pow s n).bmcAddr = addr) :
    bmcWrite n addr ptr bytes s = bytes.foldl (fun s b =>
      putPow (bmcByteWrite s n (pow s n).bmcPtr.toNat b) n
        { pow (bmcByteWrite s n (pow s n).bmcPtr.toNat b) n with bmcPtr := (pow s n).bmcPtr + 1 })
      (putPow s n { pow s n with bmcPtr := ptr }) :=
  if_neg (by simp [ho, ha])

theorem bmcWrite_elsewhere (h : (pow s n).off = true ∨ (pow s n).bmcAddr ≠ addr) : bmcWrite n addr ptr bytes s = s :=
  if_pos (by simpa using h)

theorem aspmL1Entry_eq : aspmL1Entry en s = putPow s 0 { pow s 0 with
    aspm := en, inL1 := (pow s 0).inL1 || (en && decide (pState s 0 ≤ 1) && mget (fun _ => false) s.pcieUp 0) } := by
  unfold aspmL1Entry
  cases hl : (en && decide (pState s 0 ≤ 1) && mget (fun _ => false) s.pcieUp 0)
  case true =>
    dsimp only
    rw [Bool.or_true]
    rfl
  case false =>
    dsimp only
    rw [Bool.or_false]
    rfl

end

/-- Settles O23: each request, entry, wake and exit takes the case of its own. -/
theorem powerRequestsAndWakes : Obligations.PowerRequestsAndWakes := by
  unfold Obligations.PowerRequestsAndWakes
  refine ⟨?d3hot, ?reserved, ?run, ?taken, ?busy, ?enters, ?drains, ?pin, ?pinWaits, ?pinIgnored, ?tlp, ?timer, ?keep, ?exit,
    ?bmc, ?bmcElsewhere, ?aspm⟩
  case d3hot => exact fun s => gives_of_done d3hotWrite (fun _ => rfl) rfl
  case reserved => exact fun n target all s h h5 => gives_govReqWrite h (govReqWrite_reserved h5)
  case run => exact fun n all s h => gives_govReqWrite h rfl
  case taken => exact fun n target all s h h5 h0 hb => gives_govReqWrite h (govReqWrite_taken h5 h0 hb)
  case busy => exact fun n target all s h h5 h0 hb => gives_govReqWrite h (govReqWrite_busy h5 h0 hb)
  case enters =>
    exact fun n s t he hm ht hr hl hq =>
      gives_of_done (powerEntryDone n) (fun _ => rfl) (powerEntryDone_enters he hm ht hr hl hq)
  case drains =>
    exact fun n s t he hm ht hr hl hq =>
      gives_of_done (powerEntryDone n) (fun _ => rfl) (powerEntryDone_drains he hm ht hr hl hq)
  case pin =>
    exact fun n s ho hm hx hh he hw => gives_of_done (wakeNLow n) (fun _ => rfl) (startExit_begins ho hm hx hh he hw)
  case pinWaits =>
    exact fun n s t ho hm hx hh he hw => gives_of_done (wakeNLow n) (fun _ => rfl) (startExit_waits ho hm hx hh he hw)
  case pinIgnored => exact fun n s h => gives_of_done (wakeNLow n) (fun _ => rfl) (startExit_ignored h)
  case tlp => exact fun s => gives_of_done tlpWake (fun _ => rfl) rfl
  case timer => exact fun n s he hs ho => gives_of_done (wakeTimer n) (fun _ => rfl) (wakeTimer_due he hs ho)
  case keep => exact fun n s h => gives_of_done (keepAliveWake n) (fun _ => rfl) (keepAliveWake_sent h)
  case exit =>
    exact fun n s src hx hv =>
      gives_of_done (powerExitServe n) (fun _ => rfl) (congrArg tlpRelease (powerExitDone_arrives hx hv))
  case bmc =>
    exact fun n addr ptr bytes s ho ha => gives_of_done (bmcWrite n addr ptr bytes) (fun _ => rfl) (bmcWrite_addressed ho ha)
  case bmcElsewhere =>
    exact fun n addr ptr bytes s h => gives_of_done (bmcWrite n addr ptr bytes) (fun _ => rfl) (bmcWrite_elsewhere h)
  case aspm => exact fun en s => gives_of_done (aspmL1Entry en) (fun _ => rfl) aspmL1Entry_eq

end Sys2Proof.Machine
end

section
/-! Clock stretch, throttling, temperatures and rails (18 R398-R403; 20 R438, R439). -/

namespace Sys2Proof.Machine

/-! ### Droops and throttle levels (18 R399-R401) -/

section
variable {n : Node} {g : Fin 1096} {d : BitVec 10} {s : Block}

theorem sagStretch_stretches (hk : sagStep d.toNat (fget s n F.GOV_SAG_SAG_MV) ≠ 0) (hp : pState s n = 0) :
    sagStretch n g d s = putIsland (foldIsland s n g) n g
      { k := max (island s n g).k (sagStep d.toNat (fget s n F.GOV_SAG_SAG_MV)),
        since := if (island s n g).k = 0 then s.now else (island s n g).since, due := none } :=
  (if_neg (not_not.2 hp)).trans (if_neg hk)

/-- A droop below the threshold lets a stretched island recover. -/
theorem sagStretch_recovers (hk : sagStep d.toNat (fget s n F.GOV_SAG_SAG_MV) = 0) (hp : pState s n = 0)
    (hs : (island s n g).k ≠ 0) (hd : (island s n g).due = none) :
    sagStretch n g d s = putIsland s n g { island s n g with due := some (s.now + 20 * 2 ^ 16) } :=
  (if_neg (not_not.2 hp)).trans ((if_pos hk).trans (if_neg (by simp [hs, hd])))

theorem sagRecover_due {due : Nat} (h : (island s n g).due = some due) :
    let b := atTime s due
    let x := island s n g
    let t := putIsland (foldIsland b n g) n g (if x.k ≤ 1 then {} else { x with k := x.k - 1, due := some (b.now + eightCycles b n g) })
    sagRecover n g s = if decide (g.val < 1024) && sustained b n (dieOf g) && !sustained t n (dieOf g) then
      putSagLevel t n (dieOf g) (sagLevel t n (dieOf g)) else t := by
  unfold sagRecover
  dsimp only
  rw [h]

end

section
variable {n : Node} {d : Fin 4} {s : Block}

theorem sagSustained_rises (hr : inRun s n = true) (hs : sustained s n d = true) (hl : sagLevel s n d = 0) :
    sagSustained n d s = raise (putSagLevel s n d 1) n SRC.GOV_SAG 0 0 :=
  if_pos (by simp [hr, hs, hl])

theorem throttleStep_rises (hl : sagLevel s n d ≠ 0) (hs : sustained s n d = true) : throttleStep n d s =
    putSagLevel (atTime s (mget (fun _ => 0) (pow s n).dieStep d + 10000 * 2 ^ 16)) n d (min 7 (sagLevel s n d + 1)) :=
  (if_neg hl).trans (if_pos hs)

theorem throttleStep_falls (hl : sagLevel s n d ≠ 0) (hs : sustained s n d = false) : throttleStep n d s =
    putSagLevel (atTime s (mget (fun _ => 0) (pow s n).dieStep d + 100000 * 2 ^ 16)) n d (sagLevel s n d - 1) :=
  (if_neg hl).trans (if_neg (ne_true_of_eq_false hs))

end

/-- Settles O21: a droop, a recovery and a step each at their time; POWER_SAMPLE is read off its definition. -/
theorem sagAndThrottle : Obligations.SagAndThrottle := by
  unfold Obligations.SagAndThrottle
  refine ⟨?stretches, ?recovers, ?back, ?sustained, ?rises, ?falls, ?power⟩
  case stretches =>
    exact fun n g d s hk hp => gives_of_done (sagStretch n g d) (fun _ => rfl) (sagStretch_stretches hk hp)
  case recovers =>
    exact fun n g d s hk hp hs hd => gives_of_done (sagStretch n g d) (fun _ => rfl) (sagStretch_recovers hk hp hs hd)
  case back => exact fun n g s due h => gives_of_done (sagRecover n g) (fun _ => rfl) (sagRecover_due h)
  case sustained =>
    exact fun n d s hr hs hl => gives_of_done (sagSustained n d) (fun _ => rfl) (sagSustained_rises hr hs hl)
  case rises => exact fun n d s hl hs => gives_of_done (throttleStep n d) (fun _ => rfl) (throttleStep_rises hl hs)
  case falls => exact fun n d s hl hs => gives_of_done (throttleStep n d) (fun _ => rfl) (throttleStep_falls hl hs)
  case power => exact fun n dw s => gives_of_done (powerSample n dw) (fun _ => rfl) rfl

/-! ### Temperatures (18 R402) -/

section
variable {n : Node} {t0 t1 t2 t3 io : BitVec 8} {s : Block} (ho : (pow s n).off = false)
include ho

theorem tempSample_warm (hp : pState s n < 3) :
    let ts := [t0, t1, t2, t3, io]
    let warn : Int := fget s n F.GOV_TEMP_WARN_C
    let b := putPow s n { pow s n with temps := ts, hot := ts.any fun t => decide (warn - 10 < t.toInt) }
    let b := (ts.filter fun t => decide (warn < t.toInt)).foldl (fun s _ => raise s n SRC.GOV_TEMP_HIGH 0 0) b
    let trips := ts.filter fun t => decide (110 < t.toInt)
    let b := trips.foldl (fun s _ => raise s n SRC.GOV_TEMP_TRIP 0 0) b
    tempSample n t0 t1 t2 t3 io s = if trips.isEmpty then b else startEntry b n 3 := by
  have hc : decide (3 ≤ pState s n) = false := decide_eq_false (Nat.not_le.2 hp)
  unfold tempSample
  dsimp only
  rw [if_neg (ne_true_of_eq_false ho), hc]
  rfl

/-- In Brake and Rest the compute dies have no power to be read with. -/
theorem tempSample_cold (hp : 3 ≤ pState s n) :
    let ts : List (BitVec 8) := [0x80, 0x80, 0x80, 0x80, io]
    let warn : Int := fget s n F.GOV_TEMP_WARN_C
    tempSample n t0 t1 t2 t3 io s =
      putPow s n { pow s n with temps := ts, hot := ts.any fun t => decide (warn - 10 < t.toInt) } := by
  have hc : decide (3 ≤ pState s n) = true := decide_eq_true hp
  unfold tempSample
  dsimp only
  rw [if_neg (ne_true_of_eq_false ho), hc]
  rfl

end

/-! ### Rails and supplies (18 R403, 20 R438, R439) -/

section
variable {n : Node} {rail : Option (Fin 18 × Bool)} {fail : Bool} {s : Block} {due : Nat} {back : BitVec 9}

theorem railOutOfRange_powered (ho : (pow s n).off = false) : rail.isSome = true ∨ fail = true →
    let vin := rail.any fun r => r.1.val == 8 && !r.2
    let b := putPow s n { pow s n with
      vinLow := (pow s n).vinLow || vin, pfail := (pow s n).pfail || fail,
      lowIo := (pow s n).lowIo ||| (rail.map fun r => lowBank r.1).getD 0,
      rail := some ((pow s n).rail.getD (nowNs s + 1000000000)) }
    let b := if vin then holdExit b n else b
    let c := match rail with
      | some r => if vin then b else raise b n SRC.GOV_RAIL_FAULT 0 r.1
      | none => b
    railOutOfRange n rail fail s = if 3 ≤ pState b n then b
      else if vin || fail then supplyEvent c n ((pow s n).vinLow || (pow s n).pfail) else c := by
  intro hr
  refine if_neg ?_
  rcases hr with h | h
  · simp [ho, Option.isSome_iff_ne_none.1 h]
  · simp [ho, h]

theorem railFaultTimeout_ends (hd : (pow s n).rail = some due) (hm : allMuted s n = true ∨ due ≤ nowNs s) :
    let b := putPow s n { pow s n with lowIo := (pow s n).lowIo &&& ~~~back.setWidth 8, pfail := (pow s n).pfail && !back.getLsbD 8 }
    let b := putPow b n { pow b n with rail := none }
    railFaultTimeout n back s =
      if (back.getLsbD 8 && !(pow s n).vinLow) || (pow s n).vinLow && pState s n = 4 then b else startEntry b n 4 := by
  have hw : ¬ (!allMuted s n && decide (nowNs s < due)) = true := by
    rcases hm with h | h
    · simp [h]
    · simp [Nat.not_lt.2 h]
  unfold railFaultTimeout
  dsimp only
  rw [hd]
  exact if_neg hw

theorem railFaultTimeout_closed (hd : (pow s n).rail = none) : railFaultTimeout n back s = putPow s n { pow s n with
    lowIo := (pow s n).lowIo &&& ~~~back.setWidth 8, pfail := (pow s n).pfail && !back.getLsbD 8 } := by
  unfold railFaultTimeout
  dsimp only
  rw [hd]

theorem vinCollapse_up (ho : (pow s n).off = false) (hp : pState s n ≠ 4) :
    vinCollapse n s = enterState (putPow (tearStores s n) n
      { pow s n with
        vinLow := true, rail := none, exit := none, wakeAfter := none, after := none,
        held := ((pow s n).held <|> (pow s n).wakeAfter <|> (pow s n).exit),
        started := (pow s n).started && !fbit s n F.NVS_STATUS_RECOVERY }) n 4 :=
  (if_neg (ne_true_of_eq_false ho)).trans (if_neg hp)

theorem vinCollapse_rest (ho : (pow s n).off = false) (hp : pState s n = 4) :
    vinCollapse n s = setMoving (putPow s n
      { pow s n with
        vinLow := true, rail := none, exit := none, wakeAfter := none, after := none,
        held := ((pow s n).held <|> (pow s n).wakeAfter <|> (pow s n).exit) }) n false :=
  (if_neg (ne_true_of_eq_false ho)).trans (if_pos hp)

theorem vinReturn_low (h : (pow s n).vinLow = true) :
    let b := putPow s n { pow s n with vinLow := false, held := none }
    vinReturn n s = match (pow s n).held with
      | some src => startExit b n src
      | none => b := by
  unfold vinReturn
  dsimp only
  rw [h]
  rfl

end

/-- A field takes a value of its range, and rejects another. -/
theorem rangeWrite_eq (s : Block) (n : Nat) (f : Fld) (v lo hi : Nat) :
    rangeWrite s n f v lo hi = if lo ≤ v ∧ v ≤ hi then fset s n f v else govReject s n := by
  unfold rangeWrite
  simp only [Bool.and_eq_true, decide_eq_true_eq]

theorem govClkWrite_eq (n : Node) (w : Word) (s : Block) :
    let b := if 750 ≤ wbits w 31 16 ∧ wbits w 31 16 ≤ 1500 then fset s n F.GOV_CLK_TILE_MHZ (wbits w 31 16) else govReject s n
    govClkWrite n w s =
      if 600 ≤ wbits w 15 0 ∧ wbits w 15 0 ≤ 1200 then fset b n F.GOV_CLK_ACU_MHZ (wbits w 15 0) else govReject b n := by
  unfold govClkWrite
  rw [rangeWrite_eq, rangeWrite_eq]

/-- Settles O22: each sample, rail event and supply event by the power that the node has. -/
theorem temperaturesAndRails : Obligations.TemperaturesAndRails := by
  unfold Obligations.TemperaturesAndRails
  refine ⟨?warm, ?cold, ?rail, ?ends, ?closed, ?collapse, ?rest, ?vaux, ?back, ?clock⟩
  case warm =>
    exact fun n t0 t1 t2 t3 io s ho hp => gives_of_done (tempSample n t0 t1 t2 t3 io) (fun _ => rfl) (tempSample_warm ho hp)
  case cold =>
    exact fun n t0 t1 t2 t3 io s ho hp => gives_of_done (tempSample n t0 t1 t2 t3 io) (fun _ => rfl) (tempSample_cold ho hp)
  case rail =>
    exact fun n rail fail s ho hr =>
      gives_of_done (railOutOfRange n rail fail) (fun _ => rfl) (railOutOfRange_powered ho hr)
  case ends =>
    exact fun n s due back hd hm => gives_of_done (railFaultTimeout n back) (fun _ => rfl) (railFaultTimeout_ends hd hm)
  case closed =>
    exact fun n s back hd => gives_of_done (railFaultTimeout n back) (fun _ => rfl) (railFaultTimeout_closed hd)
  case collapse => exact fun n s ho hp => gives_of_done (vinCollapse n) (fun _ => rfl) (vinCollapse_up ho hp)
  case rest => exact fun n s ho hp => gives_of_done (vinCollapse n) (fun _ => rfl) (vinCollapse_rest ho hp)
  case vaux => exact fun n s => gives_of_done (vauxLoss n) (fun _ => rfl) rfl
  case back => exact fun n s h => gives_of_done (vinReturn n) (fun _ => rfl) (vinReturn_low h)
  case clock =>
    exact fun n w s h => gives_row (.govClkWrite n w) h (fun _ => rfl) rfl (govClkWrite_eq n w s)

end Sys2Proof.Machine
end

section
/-! Device time, and settings, security and boot (18 R408, R411-R415; 19 R420, R427, R430, R431; 20 R437, R440). -/

namespace Sys2Proof.Machine

/-! ### The two reads that change state (18 R411, 19 R430) -/

section
variable {c : Ctx} {s : Block}

theorem timNowRead_served (h : servedNow s c = true)
    (hp : pathCode (arrived s c) c (accessNode (arrived s c) c 0x01500008) 0x01500008 = rspOk) :
    let b := arrived s c
    let n := accessNode b c 0x01500008
    timNowRead c s = answer (ctxNum c) ⟨rspOk, leBytes 4 (BitVec.ofNat 32 (devNs b n)).toNat,
      { b with timLatch := mput (fun _ => 0) b.timLatch (latchAt (ctxNum c) n) (devTime b n) }⟩ := by
  refine ctxReq_served s c (.timNow c) _ h (congrArg some ?_)
  rw [barReadAns_served _ _ _ hp, readAt_timNow]
  rfl

theorem timNowRead_denied (h : servedNow s c = true)
    (hp : pathCode (arrived s c) c (accessNode (arrived s c) c 0x01500008) 0x01500008 ≠ rspOk) :
    let b := arrived s c
    let n := accessNode b c 0x01500008
    timNowRead c s = answer (ctxNum c) ⟨pathCode b c n 0x01500008, leBytes 4 (2 ^ 32 - 1), deniedBy b c n 0x01500008⟩ :=
  ctxReq_served s c (.timNow c) _ h (congrArg some (barReadAns_denied _ _ _ hp))

theorem challengeRead_served (h : servedNow s c = true)
    (hp : pathCode (arrived s c) c (accessNode (arrived s c) c 0x01800010) 0x01800010 = rspOk) :
    let n := accessNode (arrived s c) c 0x01800010
    let b := drawChallenge (arrived s c) n
    challengeRead c s = answer (ctxNum c) ⟨rspOk, leBytes 4 (rget b n .SEC_CHALLENGE 0).toNat, b⟩ := by
  refine ctxReq_served s c (.challenge c) _ h (congrArg some ?_)
  rw [barReadAns_served _ _ _ hp, readAt_challenge]
  rfl

theorem challengeRead_denied (h : servedNow s c = true)
    (hp : pathCode (arrived s c) c (accessNode (arrived s c) c 0x01800010) 0x01800010 ≠ rspOk) :
    let b := arrived s c
    let n := accessNode b c 0x01800010
    challengeRead c s = answer (ctxNum c) ⟨pathCode b c n 0x01800010, leBytes 4 (2 ^ 32 - 1), deniedBy b c n 0x01800010⟩ :=
  ctxReq_served s c (.challenge c) _ h (congrArg some (barReadAns_denied _ _ _ hp))

end

/-! ### The reference and PPS (18 R412, R413) -/

section
variable {n : Node} {s : Block}

theorem refLock_takes (ho : ownTime s n = true) (hr : fget s n F.TIM_CTRL_REFSEL ≠ 0) :
    refLock n s = leaveHoldover (fset s n F.TIM_STATUS_REF_LOCK 1) n := if_pos (by simp [ho, hr])

theorem refinLoss_takes (ho : ownTime s n = true) (hr : fget s n F.TIM_CTRL_REFSEL ≠ 0) (hh : (tim s n).hold = none) :
    refinLoss n s = raise (enterHoldover s n) n SRC.TIM_REF_LOSS 0 0 := if_pos (by simp [ho, hr, hh])

/-- A node without time or reference of its own takes no notice of REFIN. -/
theorem refLock_ignored (h : ownTime s n = false ∨ fget s n F.TIM_CTRL_REFSEL = 0) : refLock n s = s :=
  if_neg (by rcases h with h | h <;> simp [h])

theorem refinLoss_ignored (h : ownTime s n = false ∨ fget s n F.TIM_CTRL_REFSEL = 0) : refinLoss n s = s :=
  if_neg (by rcases h with h | h <;> simp [h])

theorem ppsEdge_other (ho : ownTime s n = false) : ppsEdge n s = s := if_pos (by simp [ho])

theorem ppsEdge_aligns (ho : ownTime s n = true)
    (hl : n.val ≠ 0 ∨ (tim s 0).setDue = none ∨ fbit s 0 F.TIM_STATUS_PPS_LOCK = false) :
    let b := putTim s n { tim s n with ppsAt := some (devNs s n) }
    ppsEdge n s = if fbit b n F.TIM_CTRL_PPS_ALIGN then
      fset b n F.TIM_STATUS_PPS_LOCK (b2n (decide (ppsError b n (devNs b n) ≤ 5))) else b := by
  have hno : ¬ (n.val = 0 && (tim s 0).setDue.isSome && fbit s 0 F.TIM_STATUS_PPS_LOCK) = true := by
    rcases hl with h | h | h <;> simp [h]
  exact (if_neg (by simp [ho])).trans (if_neg hno)

/-- With the PPS locked, an edge makes the load that waits for it. -/
theorem ppsEdge_loads (ho : ownTime s (0 : Node) = true) (hd : (tim s 0).setDue.isSome = true)
    (hl : fbit s 0 F.TIM_STATUS_PPS_LOCK = true) :
    ppsEdge 0 s = putTim (timeLoadNow s) 0 { tim (timeLoadNow s) 0 with ppsAt := some (devNs (timeLoadNow s) 0) } :=
  (if_neg (by simp [show ownTime s 0 = true from ho])).trans (if_pos (by simp [hd, hl]))

theorem timPpsLoss_lost {t : Nat} (ht : (tim s n).ppsAt = some t) (ho : ownTime s n = true)
    (ha : fbit s n F.TIM_CTRL_PPS_ALIGN = true) :
    let b := atDev s n ((t + oneSec + 1100000000) * 2 ^ 16)
    timPpsLoss n s =
      raise (fset (putTim b n { tim b n with ppsAt := none }) n F.TIM_STATUS_PPS_LOCK 0) n SRC.TIM_PPS_LOSS 0 0 := by
  unfold timPpsLoss
  rw [ht]
  exact if_pos (by simp [ho, ha])

theorem ppsOutPulse_pulses (he : fbit s n F.TIM_CTRL_PPS_OUT_EN = true) (ho : (pow s n).off = false) :
    let from_ := match (tim s n).outAt with
      | some t => max (t + 1) ((devTime s n + 2 ^ 16 - 1) / 2 ^ 16)
      | none => (devTime s n + 2 ^ 16 - 1) / 2 ^ 16
    let due := (from_ + oneSec - 1) / oneSec * oneSec
    let b := putTim (atDev s n (due * 2 ^ 16)) n { tim s n with outAt := some due }
    ppsOutPulse n s = { b with pulses := b.pulses ++ [⟨n, due, fget b n F.TIM_CTRL_PPS_WIDTH_US⟩] } :=
  if_pos (by simp [he, ho])

/-! ### Loading the time, and holdover (18 R414, R415) -/

theorem timSetWrite_schedules (hv : nowNs s ≤ get64 s 0 .TIM_SET) (hb : systemBusy s = false) : timSetWrite 0 s =
    putTim (fset s 0 F.TIM_STATUS_SET_PENDING 1) 0 { tim s 0 with setDue := some (nowNs s + oneSec) } :=
  if_neg (by simp [hb, hv])

theorem timSetWrite_refused (h : n.val ≠ 0 ∨ get64 s 0 .TIM_SET < nowNs s ∨ systemBusy s = true) :
    timSetWrite n s = fset s n F.TIM_STATUS_CFG_REJECT 1 :=
  if_pos (by simpa [or_assoc] using h)

theorem timeLoad_due {due : Nat} (hd : (tim s 0).setDue = some due) (hl : fbit s 0 F.TIM_STATUS_PPS_LOCK = false) :
    timeLoad s = timeLoadNow (atTime s (due * 2 ^ 16)) := by
  unfold timeLoad
  rw [hd]
  exact if_neg (ne_true_of_eq_false hl)

theorem timHoldoverLimit_passes {t : Nat} (ht : (tim s n).hold = some t) (hw : (tim s n).warned = false)
    (ho : (pow s n).off = false) (hl : fget s n F.TIM_HOLD_LIMIT_NS ≠ 65535) :
    let b := atDev s n (t + (fget s n F.TIM_HOLD_LIMIT_NS + 1) * oneSec * 2 ^ 16)
    timHoldoverLimit n s = raise (putTim b n { tim b n with warned := true }) n SRC.TIM_HOLDOVER_LIMIT 0 0 := by
  unfold timHoldoverLimit
  rw [ht]
  exact if_neg (by simp [hw, ho, hl])

end

/-- Settles O24: the read of TIM_NOW_LO by its path, and each event of the timebase by what the node has of its own. -/
theorem timeKeepsAndLoads : Obligations.TimeKeepsAndLoads := by
  unfold Obligations.TimeKeepsAndLoads
  refine ⟨?read, ?denied, ?lock, ?loss, ?ignored, ?edge, ?loads, ?other, ?ppsLoss, ?pulse, ?set, ?refused, ?load, fun _ => rfl,
    ?limit⟩
  case read => exact fun c s h hp => gives_of_done (timNowRead c) (fun _ => rfl) (timNowRead_served h hp)
  case denied => exact fun c s h hp => gives_of_done (timNowRead c) (fun _ => rfl) (timNowRead_denied h hp)
  case lock => exact fun n s ho hr => gives_of_done (refLock n) (fun _ => rfl) (refLock_takes ho hr)
  case loss => exact fun n s ho hr hh => gives_of_done (refinLoss n) (fun _ => rfl) (refinLoss_takes ho hr hh)
  case ignored =>
    exact fun n s h =>
      ⟨gives_of_done (refLock n) (fun _ => rfl) (refLock_ignored h),
        gives_of_done (refinLoss n) (fun _ => rfl) (refinLoss_ignored h)⟩
  case edge => exact fun n s ho hl => gives_of_done (ppsEdge n) (fun _ => rfl) (ppsEdge_aligns ho hl)
  case loads => exact fun s ho hd hl => gives_of_done (ppsEdge 0) (fun _ => rfl) (ppsEdge_loads ho hd hl)
  case other => exact fun n s ho => gives_of_done (ppsEdge n) (fun _ => rfl) (ppsEdge_other ho)
  case ppsLoss => exact fun n s t ht ho ha => gives_of_done (timPpsLoss n) (fun _ => rfl) (timPpsLoss_lost ht ho ha)
  case pulse => exact fun n s he ho => gives_of_done (ppsOutPulse n) (fun _ => rfl) (ppsOutPulse_pulses he ho)
  case set => exact fun s h hv hb => gives_row (.timSetWrite 0) h (fun _ => rfl) rfl (timSetWrite_schedules hv hb)
  case refused => exact fun n s h hr => gives_row (.timSetWrite n) h (fun _ => rfl) rfl (timSetWrite_refused hr)
  case load => exact fun s due hd hl => gives_of_done timeLoad (fun _ => rfl) (timeLoad_due hd hl)
  case limit =>
    exact fun n s t ht hw ho hl => gives_of_done (timHoldoverLimit n) (fun _ => rfl) (timHoldoverLimit_passes ht hw ho hl)

/-! ### The patrol and challenges (19 R420, R430) -/

section
variable {n : Node} {s : Block}

/-- In Run the patrol does what it found. -/
theorem mramPatrol_run {addr : BitVec 23} {found : WordCheck} (hr : inRun s n = true) :
    mramPatrol n addr found s = match found with
      | .clean => s
      | .correctable => raise (fsat s n F.NVS_ECC_CE_COUNT 0) n SRC.NVS_CE 0 0
      | .uncorrectable => nvInvalidate (raise (fsat s n F.NVS_ECC_UE_COUNT 0) n SRC.NVS_UE 0 0) n (8 * addr.toNat) :=
  (if_neg (by simp [hr])).trans (by cases found <;> rfl)

theorem challengeExpiry_drawn {ch : List (BitVec 8)} (h : (nvsOf s n).challenge = some ch) : challengeExpiry n s =
    putNvs (atTime s (((nvsOf s n).chalDue + 1) * 2 ^ 16)) n { nvsOf s n with challenge := none } := by
  unfold challengeExpiry
  dsimp only
  rw [h]

/-! ### The ACU register path (19 R430, R431) -/

variable {a : Fin 16} {k : Fin 64} {reg : BitVec 6}

theorem dbgOpen_locked (h : (fget s n F.SEC_UNLOCK_UNLOCKED).testBit 0 = false) :
    dbgOpen s n a k reg.toNat = (false, fset s n F.SEC_STATUS_DENIED 1) :=
  if_pos (by simp [dbgLocked, h])

/-- The block as an unlocked access finds it: REG taken, or reported as reserved. -/
def dbgReg (s : Block) (n : Node) (a : Fin 16) (k : Fin 64) (reg : BitVec 6) : Block :=
  if 40 ≤ reg.toNat then fput s n F.ACU_STATUS_CFG_REJECT a 1 else fput s n F.DBG_ACU_REG_REG (at2 a k) reg.toNat

theorem dbgOpen_unlocked (h : (fget s n F.SEC_UNLOCK_UNLOCKED).testBit 0 = true) :
    dbgOpen s n a k reg.toNat = if taskState (dbgReg s n a k reg) n a k ≠ 0 then
        (false, fput (dbgReg s n a k reg) n F.ACU_STATUS_CFG_REJECT a 1) else (true, dbgReg s n a k reg) :=
  if_neg (by simp [dbgLocked, h])

theorem dbgRegRead_locked (h : (fget s n F.SEC_UNLOCK_UNLOCKED).testBit 0 = false) :
    dbgRegRead n a k reg s = fset s n F.SEC_STATUS_DENIED 1 := by
  unfold dbgRegRead
  rw [dbgOpen_locked h]
  rfl

theorem dbgRegWrite_locked (h : (fget s n F.SEC_UNLOCK_UNLOCKED).testBit 0 = false) :
    dbgRegWrite n a k reg s = fset s n F.SEC_STATUS_DENIED 1 := by
  unfold dbgRegWrite
  rw [dbgOpen_locked h]
  rfl

theorem dbgRegRead_unlocked (h : (fget s n F.SEC_UNLOCK_UNLOCKED).testBit 0 = true) :
    let b := dbgReg s n a k reg
    dbgRegRead n a k reg s = if taskState b n a k ≠ 0 then fput b n F.ACU_STATUS_CFG_REJECT a 1
      else rput b n .DBG_ACU_DATA (at2 a k) (slotGet (task b (taskKey n a k)) (fget b n F.DBG_ACU_REG_REG (at2 a k))) := by
  unfold dbgRegRead
  rw [dbgOpen_unlocked h]
  by_cases ht : taskState (dbgReg s n a k reg) n a k ≠ 0
  · simp only [if_pos ht]
    rfl
  · simp only [if_neg ht]
    rfl

/-- A write of register 0 is discarded. -/
theorem dbgRegWrite_unlocked (h : (fget s n F.SEC_UNLOCK_UNLOCKED).testBit 0 = true) :
    let b := dbgReg s n a k reg
    let g := fget b n F.DBG_ACU_REG_REG (at2 a k)
    let t := task b (taskKey n a k)
    dbgRegWrite n a k reg s = if taskState b n a k ≠ 0 then fput b n F.ACU_STATUS_CFG_REJECT a 1
      else if g = 0 then b
      else putTask b (taskKey n a k) { t with regs := mput (fun _ => 0) t.regs g (rget b n .DBG_ACU_DATA (at2 a k)) } := by
  unfold dbgRegWrite
  rw [dbgOpen_unlocked h]
  by_cases ht : taskState (dbgReg s n a k reg) n a k ≠ 0
  · simp only [if_pos ht]
    rfl
  by_cases hg : fget (dbgReg s n a k reg) n F.DBG_ACU_REG_REG (at2 a k) = 0
  · simp only [if_neg ht, if_pos hg]
    exact if_neg (by simp [hg])
  · simp only [if_neg ht, if_neg hg]
    exact if_pos (by simp [hg])

/-! ### Boot, reset and reload (18 R408, 20 R437, R440) -/

variable {high recovery link : Bool} {straps : BitVec 10} {addr : BitVec 2}

theorem powerGood_starts (h : (pow s n).started = false) : powerGood n recovery straps link s =
    bootNode s n recovery (straps.setWidth 2) (~~~straps.extractLsb' 2 8) link := if_neg (ne_true_of_eq_false h)

theorem resetNAssert_powered (h : (pow s n).off = false) :
    let b := if (pow s n).resetting then s else putPow (muteAll s n mcPower) n { pow s n with resetting := true }
    resetNAssert n high recovery addr link s = if !allMuted b n || (pow s n).vinLow then b
      else if high then bootNode (tearStores b n) n recovery addr (pow s n).lowIo link
      else putPow (wipeAll (tearStores b n) n) n { off := true, inReset := true, lowIo := (pow s n).lowIo } :=
  if_neg (ne_true_of_eq_false h)

theorem reloadDone_reloads (hl : (pow s n).reload = true) (hr : inRun s n = true) :
    let b := bootFabric (bootMicro (applyCalibration (applyPages s n) n) n) n
    reloadDone n s = setReady (putPow b n { pow b n with reload := false }) n := if_pos (by simp [hl, hr])

end

/-- Settles O26: the patrol and the accesses by what the node lets through, the boot and the reset by its power. -/
theorem settingsSecurityAndBoot : Obligations.SettingsSecurityAndBoot := by
  unfold Obligations.SettingsSecurityAndBoot
  refine ⟨?patrol, ?draws, ?denied, ?unlock, ?expires, ?locked, ?debug, ?boot, ?reset, ?reload⟩
  case patrol =>
    exact fun n addr s hr =>
      ⟨gives_of_done (mramPatrol n addr .clean) (fun _ => rfl) (mramPatrol_run hr),
        gives_of_done (mramPatrol n addr .correctable) (fun _ => rfl) (mramPatrol_run hr),
        gives_of_done (mramPatrol n addr .uncorrectable) (fun _ => rfl) (mramPatrol_run hr)⟩
  case draws => exact fun c s h hp => gives_of_done (challengeRead c) (fun _ => rfl) (challengeRead_served h hp)
  case denied => exact fun c s h hp => gives_of_done (challengeRead c) (fun _ => rfl) (challengeRead_denied h hp)
  case unlock => exact fun n scope s h => gives_row (.secUnlock n scope) h (fun _ => rfl) rfl rfl
  case expires => exact fun n s ch h => gives_of_done (challengeExpiry n) (fun _ => rfl) (challengeExpiry_drawn h)
  case locked =>
    exact fun n a k reg s h hl =>
      ⟨gives_row (.dbgRegRead n a k reg) h (fun _ => rfl) rfl (dbgRegRead_locked hl),
        gives_row (.dbgRegWrite n a k reg) h (fun _ => rfl) rfl (dbgRegWrite_locked hl)⟩
  case debug =>
    exact fun n a k reg s h hl =>
      ⟨gives_row (.dbgRegRead n a k reg) h (fun _ => rfl) rfl (dbgRegRead_unlocked hl),
        gives_row (.dbgRegWrite n a k reg) h (fun _ => rfl) rfl (dbgRegWrite_unlocked hl)⟩
  case boot =>
    exact fun n recovery straps link s h =>
      gives_of_done (powerGood n recovery straps link) (fun _ => rfl) (powerGood_starts h)
  case reset =>
    exact fun n high recovery addr link s h =>
      gives_of_done (resetNAssert n high recovery addr link) (fun _ => rfl) (resetNAssert_powered h)
  case reload => exact fun n s hl hr => gives_of_done (reloadDone n) (fun _ => rfl) (reloadDone_reloads hl hr)

end Sys2Proof.Machine
end

section
/-! Span links, and how Chorus discovers, elects, fences and keeps time (15 R346-R361). -/

namespace Sys2Proof.Machine

/-! ### Training (15 R346) -/

section
variable {n pn : Node} {l pl : Fin 8} {asym : Word} {s : Block}

theorem spanLinkUp_trains (ho : linkOn s n l = true) (hpo : linkOn s pn pl = true) (hp : linkPowered s n = true)
    (hpp : linkPowered s pn = true) (hs : lstate s n l = lsTraining ∨ lstate s n l = lsDown) :
    let b := putLink s n l { link s n l with
      partner := some (pn.val, pl.val), lastFlit := s.now, rxNext := 0, asked := false, asym := asym.toInt }
    let b := fput b n F.SPAN_LINK_STATUS_PARTNER_LINK l pl
    let b := fput b n F.SPAN_LINK_STATUS_PARTNER_NODE l (if nodePresent b pn then pn else 0)
    spanLinkUp n l pn pl asym s = setLstate b n l
      (if s.fenced.contains n.val || s.fenced.contains pn.val || role s n == roIsolated then lsFenced else lsUp) :=
  if_pos (by simp only [ho, hpo, hp, hpp, Bool.true_and]; simpa using hs)

theorem spanTrainRetry_tries (ho : linkOn s n l = true) (hs : lstate s n l = lsTraining ∨ lstate s n l = lsDown) :
    let b := atTime s ((link s n l).lastTry + 10000000 * 2 ^ 16)
    spanTrainRetry n l s = putLink (setLstate b n l lsTraining) n l { link s n l with lastTry := b.now } :=
  if_pos (by simp only [ho, Bool.true_and]; simpa using hs)

theorem spanLinkEnWrite_on (h : fget s n F.SPAN_LINK_CTRL_STATE l = 0) :
    let b := fput (fput s n F.SPAN_LINK_CTRL_EN l 1) n F.SPAN_LINK_CTRL_STATE l 2
    spanLinkEnWrite n l true s = putLink (setLstate b n l lsTraining) n l { link b n l with lastTry := b.now } := by
  unfold spanLinkEnWrite
  rw [h]
  rfl

theorem spanLinkEnWrite_off (h : fget s n F.SPAN_LINK_CTRL_STATE l = 2) : spanLinkEnWrite n l false s =
    requeueFlit (setLstate (fput (fput s n F.SPAN_LINK_CTRL_EN l 0) n F.SPAN_LINK_CTRL_STATE l 0) n l lsOff) n l := by
  unfold spanLinkEnWrite
  rw [h]
  rfl

theorem linkDownDetect_live (h : linkLive s n l = true) :
    let b := setLstate (atTime s ((link s n l).lastFlit + 1000 * 2 ^ 16)) n l lsDown
    let b := if parentLink s n == some l.val && lstate s n (mateOf l) != lsUp then enterHoldover b n else b
    linkDownDetect n l s =
      raise (requeueFlit (putLink b n l { link s n l with asked := false, lastTry := b.now }) n l) n SRC.SPAN_LINK_DOWN l 0 :=
  if_pos h

end

/-! ### Flits (15 R347, R348) -/

section
variable {n : Node} {l : Fin 8} {seq : BitVec 32} {put : List BunelFlit} {s : Block} {pn pl : Nat} {found : WordCheck}
  (hl : linkLive s n l = true) (hp : (link s n l).partner = some (pn, pl))
include hl hp

/-- A flit that FEC does not save is asked for again. -/
theorem flitReceive_lost :
    let b := putPair s pn (pairOf pl) (pairWait s pn (pairOf pl) ++ put)
    flitReceive n l seq .uncorrectable put s =
      fsat (putLink (sendFlit b pn pl).2 n l { link b n l with asked := true }) pn F.SPAN_LINK_ERR_REPLAYS pl := by
  unfold flitReceive
  rw [hl, hp]

/-- One that comes in shows that the link lives, and is taken if it is the next. -/
theorem flitReceive_comes (hf : found ≠ .uncorrectable) :
    let b := putPair s pn (pairOf pl) (pairWait s pn (pairOf pl) ++ put)
    let b := if found = .correctable then fsat b n F.SPAN_LINK_ERR_FEC_CORR l else b
    let r := sendFlit b pn pl
    let x := link s n l
    flitReceive n l seq found put s = if seq.toNat = x.rxNext % 2 ^ 32 then
        putLink (ackFlit r.2 pn pl) n l
          { x with lastFlit := b.now, rxNext := x.rxNext + 1, asked := false, inbox := x.inbox ++ r.1.toList }
      else putLink b n l { x with lastFlit := b.now } := by
  unfold flitReceive
  rw [hl, hp]
  cases found with
  | uncorrectable => exact absurd rfl hf
  | clean => rfl
  | correctable => rfl

end

/-- Settles O19: the training of a link by its state, its flits by what FEC finds and by their numbers. -/
theorem spanLinksTrainAndCarry : Obligations.SpanLinksTrainAndCarry := by
  unfold Obligations.SpanLinksTrainAndCarry
  refine ⟨?up, ?retry, ?next, ?other, ?lost, ?down, ?on, ?off⟩
  case up =>
    exact fun n l pn pl asym s ho hpo hp hpp hs =>
      gives_of_done (spanLinkUp n l pn pl asym) (fun _ => rfl) (spanLinkUp_trains ho hpo hp hpp hs)
  case retry =>
    exact fun n l s ho hs => gives_of_done (spanTrainRetry n l) (fun _ => rfl) (spanTrainRetry_tries ho hs)
  case next =>
    exact fun n l seq put s pn pl found hl hp hf hn =>
      gives_of_done (flitReceive n l seq found put) (fun _ => rfl) ((flitReceive_comes hl hp hf).trans (if_pos hn))
  case other =>
    exact fun n l seq put s pn pl found hl hp hf hn =>
      gives_of_done (flitReceive n l seq found put) (fun _ => rfl) ((flitReceive_comes hl hp hf).trans (if_neg hn))
  case lost =>
    exact fun n l seq put s pn pl hl hp =>
      gives_of_done (flitReceive n l seq .uncorrectable put) (fun _ => rfl) (flitReceive_lost hl hp)
  case down => exact fun n l s h => gives_of_done (linkDownDetect n l) (fun _ => rfl) (linkDownDetect_live h)
  case on =>
    exact fun n l s h hs => gives_row (.spanLinkEnWrite n l true) h (fun _ => rfl) rfl (spanLinkEnWrite_on hs)
  case off =>
    exact fun n l s h hs => gives_row (.spanLinkEnWrite n l false) h (fun _ => rfl) rfl (spanLinkEnWrite_off hs)

/-! ### Calls and answers on links (15 R352) -/

section
variable {n : Node} {port : Fin 32} {bytes : List (BitVec 8)} {s : Block} (hp : 24 ≤ port.val)
  (hl : linkLive s n (port.val - 24) = true) (hb : bytes.length = 64)
include hp hl hb

theorem chorusCall_link :
    let l := port.val - 24
    let b := sendCall (putLink s n l { link s n l with heard := bytes, lastFlit := s.now }) n port
    chorusCall n port bytes s =
      if role b 0 = roPrimary && nodePresent b n && !b.fenced.contains n.val then judge b n l (parseCall bytes) else b :=
  (if_neg (Nat.not_lt.2 hp)).trans (if_pos (by simp [hl, hb]))

theorem chorusAnswer_link : chorusAnswer n port bytes s =
    putLink s n (port.val - 24) { link s n (port.val - 24) with heard := bytes, lastFlit := s.now } :=
  (if_neg (Nat.not_lt.2 hp)).trans (if_pos (by simp [hl, hb]))

end

/-! ### Calls and answers on WSL lanes (11 R251, 15 R359) -/

section
variable {n : Node} {port : Fin 32} {bytes : List (BitVec 8)} {s : Block} {k : WslPkt} (hp : port.val < 24)
  (hu : wslUp s n port = true)
include hp hu

/-- On a lane that is up a call says what its packet is. -/
theorem chorusCall_lane : chorusCall n port bytes s = match wslParse bytes with
    | some k => if k.typ = 5 then wslSend (wslSeen s n port k) n port 6 0 (callBytes s n port) else wslBad s n port
    | none => wslBad s n port :=
  (if_pos hp).trans ((if_neg (by simp [hu])).trans (by cases wslParse bytes <;> rfl))

theorem chorusAnswer_lane : chorusAnswer n port bytes s = match wslParse bytes with
    | some k =>
      if k.typ = 6 && k.payload.length = 16 && leAt k.payload 9 2 ≤ 4096 then feAnswer (wslSeen s n port k) n port k.payload
      else wslBad s n port
    | none => wslBad s n port :=
  (if_pos hp).trans ((if_neg (by simp [hu])).trans (by cases wslParse bytes <;> rfl))

theorem chorusCall_unread (h : wslParse bytes = none) : chorusCall n port bytes s = wslBad s n port := by
  rw [chorusCall_lane hp hu, h]

theorem chorusAnswer_unread (h : wslParse bytes = none) : chorusAnswer n port bytes s = wslBad s n port := by
  rw [chorusAnswer_lane hp hu, h]

variable (h : wslParse bytes = some k)
include h

theorem chorusCall_packet : chorusCall n port bytes s =
    if k.typ = 5 then wslSend (wslSeen s n port k) n port 6 0 (callBytes s n port) else wslBad s n port := by
  rw [chorusCall_lane hp hu, h]

theorem chorusAnswer_packet : chorusAnswer n port bytes s =
    if k.typ = 6 ∧ k.payload.length = 16 ∧ leAt k.payload 9 2 ≤ 4096 then feAnswer (wslSeen s n port k) n port k.payload
    else wslBad s n port := by
  rw [chorusAnswer_lane hp hu, h]
  simp only [Bool.and_eq_true, decide_eq_true_eq, and_assoc]

end

/-! ### The election, losses and fences (15 R353, R357, R358) -/

/-- Without a rival and without a primary in reach the candidate is elected. -/
theorem primaryElection_elects {s : Block} (hc : role s 0 = roCandidate)
    (hr : ((List.range 64).any fun n => n != 0 && role s n == roCandidate && reaches s 0 n &&
      decide ((Config.serialNumber n).toNat < (Config.serialNumber 0).toNat)) = false)
    (hh : ((List.range 8).any fun l => linkLive s 0 l && !(link s 0 l).heard.isEmpty &&
      leAt (link s 0 l).heard 29 1 == roPrimary) = false) :
    let b := atTime s ((pow s 0).readyAt + 50000000 * 2 ^ 16)
    primaryElection s = { fset (setRole b 0 roPrimary) 0 F.WEIR_STATUS_PRIMARY 1 with posHeld := [(0, 0, 0)] } :=
  if_pos (by simp only [hc, hr, hh]; rfl)

section
variable {n lost : Node} {s : Block}

theorem lossReport_known {d : Fin 4} {p : Nat} (hp : pairPeer s n d = some p) (hd : pairDown s n d = true)
    (hn : nodePresent s n = true) (hpn : nodePresent s p = true) (hne : p ≠ n.val) :
    let lost := if hopsTo0 s n < hopsTo0 s p || (hopsTo0 s n = hopsTo0 s p && n.val < p) then p else n.val
    lossReport n d s = if s.fenced.contains lost || lost = 0 then s else loseNode s lost := by
  unfold lossReport
  rw [hp]
  exact if_pos (by simp [hd, hn, hpn, hne])

/-- The lost node fences every link. -/
theorem fence_self (h : s.fenced.contains lost.val = true) :
    let mine := (List.range 8).filter fun l => linkLive s lost l
    fence lost lost s = muteAll (dropFlits (mine.foldl (fun s l => setLstate s lost l lsFenced) s) lost) lost mcFault := by
  unfold fence
  rw [if_neg (by simpa using h)]
  dsimp only
  rw [if_pos rfl]
  simp only [beq_self_eq_true, Bool.true_or, Bool.and_true]

theorem fence_other (h : s.fenced.contains lost.val = true) (hne : n ≠ lost) :
    let mine := (List.range 8).filter fun l => linkLive s n l && (match (link s n l).partner with
      | some (p, _) => p == lost.val
      | none => false)
    fence n lost s = splitFrom lost (mine.foldl (fun s l => setLstate s n l lsFenced) s) n := by
  unfold fence
  rw [if_neg (by simpa using h)]
  dsimp only
  rw [if_neg hne, beq_eq_false_iff_ne.2 hne]
  rfl

theorem primaryUnreachable_secondary (hs : role s n = roSecondary) (hr : s.fenced.contains n.val = true ∨ reaches s n 0 = false) :
    let b := ((List.range 8).filter fun l => linkLive s n l).foldl (fun s l => setLstate s n l lsFenced) (setRole s n roIsolated)
    let b := muteAll (raise b n SRC.PARTNER_LOST 0 0) n mcFault
    primaryUnreachable n s =
      if n.val = 0 || b.fenced.contains n.val || !(admitted b).any (fun m => m.node == n.val) then b else splitAll (loseNode b n) n := by
  refine if_pos ?_
  rw [decide_eq_true hs]
  rcases hr with h | h <;> rw [h]
  · rfl
  · exact Bool.or_true _

theorem frontEndLeave_silent {p : Fin 24} (ha : fbit s n F.CHR_FE_ADMITTED p = true) (hu : 3 ≤ (lane s n p).unans) :
    frontEndLeave n p s = feLeave s n p := if_pos (by simp [ha, hu])

/-- A module takes its time over the link to its parent. -/
theorem timeTransfer_parent {l : Fin 8} {t1 t2 t3 t4 : DWord} (h : parentLink s n = some l.val) :
    let off := ((t2 - t1).toInt - (t4 - t3).toInt) / 2 - (link s n l).asym
    let b := rput s n .SPAN_LINK_TIME l (BitVec.ofInt 32 off)
    let b := putTim b n { tim b n with skew := (tim b n).skew + off * 65536 / 1000 }
    let b := if (tim (rput s n .SPAN_LINK_TIME l (BitVec.ofInt 32 off)) n).hold.isSome then leaveHoldover b n else b
    let bound : Int := 1000 + 125 * (hopsTo0 b n - 8 : Nat)
    timeTransfer n l t1 t2 t3 t4 s = if -bound ≤ off && off ≤ bound then
        { b with unlockAt := mput (fun _ => none) b.unlockAt n none }
      else match mget (fun _ => none) b.unlockAt n with
        | none => { b with unlockAt := mput (fun _ => none) b.unlockAt n (some b.now) }
        | some t => if t + 1000000 * 2 ^ 16 ≤ b.now then raise b n SRC.SPAN_TIME_UNLOCK 0 0 else b := if_pos h

end

/-- Settles O20: calls and answers by the port they come over, and each loss, fence and transfer by its condition. -/
theorem chorusDiscoversAndFences : Obligations.ChorusDiscoversAndFences := by
  unfold Obligations.ChorusDiscoversAndFences
  refine ⟨?period, ?call, ?answer, ?laneCall, ?laneCallBad, ?laneAnswer, ?laneAnswerBad, ?unread, ?election, ?loss, ?fenceSelf,
    ?fenceOther, ?unreachable, ?leave, ?time⟩
  case period => exact fun n s => gives_of_done (callPeriod n) (fun _ => rfl) rfl
  case call =>
    exact fun n port bytes s hp hl hb => gives_of_done (chorusCall n port bytes) (fun _ => rfl) (chorusCall_link hp hl hb)
  case answer =>
    exact fun n port bytes s hp hl hb => gives_of_done (chorusAnswer n port bytes) (fun _ => rfl) (chorusAnswer_link hp hl hb)
  case laneCall =>
    exact fun n port bytes s k hp hu h h5 =>
      gives_of_done (chorusCall n port bytes) (fun _ => rfl) ((chorusCall_packet hp hu h).trans (if_pos h5))
  case laneCallBad =>
    exact fun n port bytes s k hp hu h h5 =>
      gives_of_done (chorusCall n port bytes) (fun _ => rfl) ((chorusCall_packet hp hu h).trans (if_neg h5))
  case laneAnswer =>
    exact fun n port bytes s k hp hu h h6 hlen hch =>
      gives_of_done (chorusAnswer n port bytes) (fun _ => rfl)
        ((chorusAnswer_packet hp hu h).trans (if_pos ⟨h6, hlen, hch⟩))
  case laneAnswerBad =>
    exact fun n port bytes s k hp hu h h6 =>
      gives_of_done (chorusAnswer n port bytes) (fun _ => rfl) ((chorusAnswer_packet hp hu h).trans (if_neg fun hk => h6 hk.1))
  case unread =>
    exact fun n port bytes s hp hu h =>
      ⟨gives_of_done (chorusCall n port bytes) (fun _ => rfl) (chorusCall_unread hp hu h),
        gives_of_done (chorusAnswer n port bytes) (fun _ => rfl) (chorusAnswer_unread hp hu h)⟩
  case election =>
    exact fun s hc hr hh => gives_of_done primaryElection (fun _ => rfl) (primaryElection_elects hc hr hh)
  case loss =>
    exact fun n d s p hp hd hn hpn hne => gives_of_done (lossReport n d) (fun _ => rfl) (lossReport_known hp hd hn hpn hne)
  case fenceSelf =>
    rintro n _ s h rfl
    exact gives_of_done (fence n n) (fun _ => rfl) (fence_self h)
  case fenceOther => exact fun n lost s h hne => gives_of_done (fence n lost) (fun _ => rfl) (fence_other h hne)
  case unreachable =>
    exact fun n s hs hr => gives_of_done (primaryUnreachable n) (fun _ => rfl) (primaryUnreachable_secondary hs hr)
  case leave =>
    exact fun n p s ha hu => gives_of_done (frontEndLeave n p) (fun _ => rfl) (frontEndLeave_silent ha hu)
  case time =>
    exact fun n l t1 t2 t3 t4 s h => gives_of_done (timeTransfer n l t1 t2 t3 t4) (fun _ => rfl) (timeTransfer_parent h)

end Sys2Proof.Machine
end

section
/-! The fault collector and the black box (17 R378-R390, 19 R429). -/

namespace Sys2Proof.Machine

/-! ### Events (17 R378, R380) -/

section
variable {n : Node} {k : Fin 64} {s : Block}

/-- A node whose collector runs takes its oldest events. -/
theorem faultEvent_takes (ho : (pow s n).off = false) (hp : pState s n < 3) (hc : collects s n = true) :
    let mine := (s.events.filter fun e => e.node == n.val).take (k.val + 1)
    let b := { s with events := mine.foldl (fun (l : List FaultEv) e => l.erase e) s.events }
    let known := mine.filter fun e => (srcDefault e.src).isSome
    let b := known.foldl (fun s e => fwrap s n F.FLT_SRC_TOTAL_EVENTS e.src) b
    let live := known.filter fun e => cfgF b n e.src F.FLT_SRC_CFG_EN == 1
    faultEvent n k s = (sortEvents b live).foldl (takeEvent (decide (2 ≤ live.length))) b :=
  if_neg (by simp [ho, hc, hp])

theorem faultEvent_ignored (h : (pow s n).off = true ∨ 3 ≤ pState s n ∨ collects s n = false) : faultEvent n k s = s :=
  if_pos (by simpa [or_assoc] using h)

end

/-! ### Quiet windows (17 R390) -/

section
variable {n : Node} {src : BitVec 8} {inst : Half} {s : Block} {w : Quiet}
  (hw : (quiets s n).find? (fun w => w.src == src.toNat && w.inst == inst.toNat) = some w)
include hw

theorem quietWindowEnd_waits (hwait : w.waiting = true) :
    let others := (quiets s n).filter fun w => !(w.src == src.toNat && w.inst == inst.toNat)
    quietWindowEnd n src inst s = if quietBusy s n w.src w.inst then atTime s ((w.due + 1) * 2 ^ 16)
      else putQuiets (restartBlock s n w.src w.inst) n
        (if nowNs s ≤ w.due then others ++ [{ w with waiting := false }] else others) := by
  unfold quietWindowEnd
  dsimp only
  rw [hw]
  exact if_pos hwait

theorem quietWindowEnd_runs (hwait : w.waiting = false) :
    let others := (quiets s n).filter fun w => !(w.src == src.toNat && w.inst == inst.toNat)
    quietWindowEnd n src inst s = if blockBack s n w && !w.back then
        putQuiets s n (others ++ [{ w with back := true, due := min w.due (nowNs s + 1000) }])
      else putQuiets (atTime s ((w.due + 1) * 2 ^ 16)) n others := by
  unfold quietWindowEnd
  dsimp only
  rw [hw]
  exact if_neg (ne_true_of_eq_false hwait)

end

/-! ### Timers (17 R383, R385) -/

section
variable {n : Node} {src : BitVec 8} {s : Block} {due : Nat}

theorem leakTimer_due (h : (fsrc s n src.toNat).leakDue = some due) :
    let b := atTime s (due * 2 ^ 16)
    let c := srcCount b n src.toNat - 1
    let b := fput b n F.FLT_SRC_STATUS_COUNT src.toNat c
    let ms := (rget b n .FLT_SRC_LEAK src.toNat).toNat
    leakTimer n src s = putFsrc b n src.toNat
      { fsrc s n src.toNat with leakDue := if c = 0 || ms = 0 then none else some (due + ms * msNs) } := by
  unfold leakTimer
  dsimp only
  rw [h]

/-- The highest open fault is recorded again. -/
theorem escalationTimer_due {o : OpenF} (h : (fsrc s n src.toNat).escDue = some due)
    (ho : ((fsrc s n src.toNat).opens.find? fun o => o.level == topLevel (fsrc s n src.toNat).opens) = some o) :
    let b := putFsrc (atTime s (due * 2 ^ 16)) n src.toNat { fsrc s n src.toNat with escDue := none }
    escalationTimer n src s = makeRecord b n src.toNat o.inst o.detail (topLevel (fsrc s n src.toNat).opens + 1)
      (cfgF b n src.toNat F.FLT_SRC_CFG_LEVEL) 2 false := by
  unfold escalationTimer
  dsimp only
  rw [h]
  dsimp only
  rw [ho]

end

/-! ### The black box (19 R429) -/

theorem blackboxWrite_eq (n : Node) (s : Block) : blackboxWrite n s = match (nvsOf s n).bbWait with
    | [] => s
    | b :: rest =>
      let body := b ++ leBytes 4 (nvsOf s n).boots
      let bb := (nvsOf s n).bb ++ [⟨(nvsOf s n).bbNum, body ++ leBytes 4 (crcBytes body), true⟩]
      putNvs s n { nvsOf s n with bbWait := rest, bbNum := (nvsOf s n).bbNum + 1, bb := if 1024 < bb.length then bb.drop 1 else bb } := by
  cases hb : (nvsOf s n).bbWait <;> simp only [blackboxWrite, hb]

/-- Settles O25: events by whether the collector runs, windows and timers by what they wait for. -/
theorem faultsAreRecordedAndWritten : Obligations.FaultsAreRecordedAndWritten := by
  unfold Obligations.FaultsAreRecordedAndWritten
  refine ⟨?takes, ?ignored, ?waits, ?runs, ?leak, ?escalates, ?ack, ?write⟩
  case takes => exact fun n k s ho hp hc => gives_of_done (faultEvent n k) (fun _ => rfl) (faultEvent_takes ho hp hc)
  case ignored => exact fun n k s h => gives_of_done (faultEvent n k) (fun _ => rfl) (faultEvent_ignored h)
  case waits =>
    exact fun n src inst s w hw hwait =>
      gives_of_done (quietWindowEnd n src inst) (fun _ => rfl) (quietWindowEnd_waits hw hwait)
  case runs =>
    exact fun n src inst s w hw hwait =>
      gives_of_done (quietWindowEnd n src inst) (fun _ => rfl) (quietWindowEnd_runs hw hwait)
  case leak => exact fun n src s due h => gives_of_done (leakTimer n src) (fun _ => rfl) (leakTimer_due h)
  case escalates =>
    exact fun n src s due o h ho => gives_of_done (escalationTimer n src) (fun _ => rfl) (escalationTimer_due h ho)
  case ack =>
    exact fun n src s h =>
      ⟨gives_row (.faultAckWrite n src) h (fun _ => rfl) rfl rfl, gives_row (.clearFirst n) h (fun _ => rfl) rfl rfl⟩
  case write =>
    exact fun n s h =>
      gives_of_done (whenServed n (blackboxWrite n)) (fun _ => rfl) ((if_pos h).trans (blackboxWrite_eq n s))

end Sys2Proof.Machine
end

section
/-! Packets of the networks on chip: requests, their delivery, answers and snoops (16 R363-R376). -/

namespace Sys2Proof.Machine

/-! ### Sending (16 R363, R370) -/

section
variable {n ty : Nat} {f : BitVec 128} {s : Block}

/-- A request well formed, whose tag is free, is outstanding. -/
theorem sendReq_sends (ht : flType f = ty) (hn : flSnode f = n) (hs : flSrc f ≤ 0x1C) (ha : flAge f = 0)
    (hz : flBits f 60 4 = 0) (hf : outReq s n (flSrc f) (flTag f) = none) (hl : ty = tyMsg ∨ flAddr f % 64 + flLen f < 64) :
    sendReq s n ty f = some { s with outReqs := s.outReqs ++ [⟨n, flSrc f, flTag f, f, limitOf s n (flDnode f)⟩] } := by
  have hform : formed n ty f = true := by
    unfold formed
    rw [ht, hn, ha, hz, decide_eq_true hs, beq_self_eq_true, beq_self_eq_true]
    simpa using hl
  exact if_pos (by rw [hform, hf]; rfl)

theorem sendReq_inUse (hf : (outReq s n (flSrc f) (flTag f)).isSome = true) : sendReq s n ty f = none :=
  if_neg (by simp [Option.isSome_iff_ne_none.1 hf])

end

section
variable {n : Node} {c : Ctx} {f : BitVec 128} {data : List (BitVec 8)} {p : PacketIn} {x : MsgIn} {s b : Block}

theorem nocRead_sent (h : sendReq s n tyRead f = some b) :
    nocRead n c f p s = sentBy b f p.way fun s => packetDeliver s c f (flitReq f []) p.ans := by
  unfold nocRead
  rw [h]

theorem nocWrite_sent (h : sendReq s n tyWrite f = some b) : nocWrite n c f data p s =
    sentBy b f p.way fun s => packetDeliver s c f (flitReq f data) (p.ans.map fun _ => []) := by
  unfold nocWrite
  rw [h]

theorem nocMsg_sent (h : sendReq s n tyMsg f = some b) :
    nocMsg n f x s = sentBy b f x.way fun s => msgDeliver s f x.cause := by
  unfold nocMsg
  rw [h]

variable (hf : (outReq s n (flSrc f) (flTag f)).isSome = true)
include hf

theorem nocRead_inUse : nocRead n c f p s = s := by
  unfold nocRead
  rw [sendReq_inUse hf]

theorem nocWrite_inUse : nocWrite n c f data p s = s := by
  unfold nocWrite
  rw [sendReq_inUse hf]

theorem nocMsg_inUse : nocMsg n f x s = s := by
  unfold nocMsg
  rw [sendReq_inUse hf]

end

/-! ### Delivery (16 R365-R367, R371) -/

/-- The module is the sender's own or in the table. -/
def targetNear (s : Block) (f : BitVec 128) : Prop := flDnode f = flSnode f ∨ nodePresent s (flDnode f) = true

/-- The target's module takes requests: it has power and is neither in Brake nor in Rest. -/
def targetRuns (s : Block) (f : BitVec 128) : Prop := (pow s (flDnode f)).off = false ∧ pState s (flDnode f) < 3

section
variable {s : Block} {c : Ctx} {f : BitVec 128} {req : MemReq} {ans : Option (List (BitVec 8))} {cause : Fin 32}

theorem comesThrough_iff : comesThrough s f = true ↔
    targetNear s f ∧ targetRuns s f ∧ isolatedEp s (flDnode f) (flDst f) = false := by
  simp only [comesThrough, targetNear, targetRuns, Bool.and_eq_true, Bool.or_eq_true, Bool.not_eq_true', beq_iff_eq,
    decide_eq_true_eq, and_assoc]

/-- The two conditions as the deliveries test them. -/
theorem targetAbsent_iff : (!nodePresent s (flDnode f) && decide (flDnode f ≠ flSnode f)) = true ↔ ¬ targetNear s f := by
  simp [targetNear, and_comm]

theorem targetAsleep_iff : ((pow s (flDnode f)).off || decide (3 ≤ pState s (flDnode f))) = true ↔ ¬ targetRuns s f := by
  simp [targetRuns, or_iff_not_imp_left]

theorem packetDeliver_absent (h : ¬ targetNear s f) : packetDeliver s c f req ans = respond f ⟨rspIsolated, onesData req, s⟩ :=
  if_pos (targetAbsent_iff.2 h)

theorem msgDeliver_absent (h : ¬ targetNear s f) : msgDeliver s f cause = respondAck s f rspIsolated :=
  if_pos (targetAbsent_iff.2 h)

section
variable (hn : targetNear s f)
include hn

theorem packetDeliver_asleep (h : ¬ targetRuns s f) : packetDeliver s c f req ans = respond f ⟨rspPwrOff, onesData req, s⟩ :=
  (if_neg fun ha => targetAbsent_iff.1 ha hn).trans (if_pos (targetAsleep_iff.2 h))

theorem msgDeliver_asleep (h : ¬ targetRuns s f) : msgDeliver s f cause = respondAck s f rspPwrOff :=
  (if_neg fun ha => targetAbsent_iff.1 ha hn).trans (if_pos (targetAsleep_iff.2 h))

variable (hr : targetRuns s f)
include hr

theorem packetDeliver_runs : packetDeliver s c f req ans = targetDeliver s c f req ans :=
  (if_neg fun ha => targetAbsent_iff.1 ha hn).trans (if_neg fun ha => targetAsleep_iff.1 ha hr)

theorem msgDeliver_runs : msgDeliver s f cause = msgTake s f cause :=
  (if_neg fun ha => targetAbsent_iff.1 ha hn).trans (if_neg fun ha => targetAsleep_iff.1 ha hr)

theorem packetDeliver_isolated (hi : isolatedEp s (flDnode f) (flDst f) = true) :
    packetDeliver s c f req ans = respond f ⟨rspIsolated, onesData req, s⟩ :=
  (packetDeliver_runs hn hr).trans (if_pos hi)

theorem msgDeliver_isolated (hi : isolatedEp s (flDnode f) (flDst f) = true) :
    msgDeliver s f cause = respondAck s f rspIsolated :=
  (msgDeliver_runs hn hr).trans (if_pos hi)

end

variable (h : comesThrough s f = true)
include h

theorem msgDeliver_comes : msgDeliver s f cause = if flDst f < 16 then
      respondAck (if 11 ≤ cause.val ∧ cause.val < 16 then s else irqAcu s (flDnode f) (flDst f) cause) f rspOk
    else if flDst f = ownCmd then respondAck s f rspOk
    else respondAck s f rspDecErr := by
  obtain ⟨hn, hr, hi⟩ := comesThrough_iff.1 h
  rw [msgDeliver_runs hn hr]
  refine (if_neg (ne_true_of_eq_false hi)).trans ?_
  simp only [Bool.and_eq_true, decide_eq_true_eq]

theorem packetDeliver_plain (hd : epDomain (flDst f) = none) :
    packetDeliver s c f req ans = if flDst f < 16 then respond f (epRam s (flDnode f) (flDst f) req)
      else if 0x30 ≤ flDst f ∧ flDst f ≤ 0x49 then
        respond f (epReg s c (if flDst f = 0x31 then 0 else flDnode f) ((flDst f - 0x30) * 2 ^ 20 + req.addr % 2 ^ 20) req)
      else if 0x50 ≤ flDst f ∧ flDst f ≤ 0x57 then
        (if (req.bytes.length ≠ 4 ∧ req.bytes.length ≠ 8) ∨ req.addr % req.bytes.length ≠ 0 ∨ 2 ^ 16 < req.addr + req.bytes.length then
          respond f ⟨rspDecErr, onesData req, s⟩
        else match ans with
          | some d => respond f (windowReq s (flDnode f) (flDst f - 0x50) req d)
          | none => if rgServes s (flDnode f) (flDst f - 0x50) then s else respond f ⟨rspIsolated, onesData req, s⟩)
      else respond f ⟨rspDecErr, onesData req, s⟩ := by
  rw [packetDeliver_comes s c f req ans h, hd]
  simp only [Bool.and_eq_true, Bool.or_eq_true, decide_eq_true_eq, or_assoc] <;>
    cases ans <;> rfl

/-- A request to a memory comes to the bridges of its domain. -/
theorem packetDeliver_memory {d : Nat} (hd : epDomain (flDst f) = some d) : packetDeliver s c f req ans = memDeliver s f d req := by
  rw [packetDeliver_comes s c f req ans h, hd]

end

/-- Past the bridges a request is answered, or stalls for a handover. -/
theorem memForward_eq (s : Block) (f : BitVec 128) (own : Bool) (req : MemReq) :
    memForward s f own req = match epMem s f own req with
      | some a => respond f a
      | none => holdReq s f (16 + (flDst f - 0x20)) req := by
  unfold memForward
  cases epMem s f own req <;> rfl

theorem memDeliver_eq (s : Block) (f : BitVec 128) (d : Nat) (req : MemReq) :
    memDeliver s f d req = if bridgeOf s (flDnode f) d = brOpen then
        (if bridgeHold s (flDnode f) d then holdReq s f d req else memForward s f false req)
      else if fbit s (flDnode f) F.NOC_DOMAIN_WAKE_ON_ACCESS (ix d) = false then respond f ⟨rspPwrOff, onesData req, s⟩
      else if bridgeOf s (flDnode f) d = brClosing then memForward (setBridge s (flDnode f) d brOpen) f false req
      else holdReq s f d req := by
  unfold memDeliver
  simp only [Bool.not_eq_true']

/-! ### On the way (16 R364, R367, R374) -/

section
variable {f : BitVec 128} {r : Fin 48} {act : Block → Block} {s : Block}

theorem byPath_eq : byPath s f act = match busPath s (flSnode f) (flSrc f) (flDnode f) (flDst f) with
    | .gone => s
    | .lacks k r => respondAck (noRouteRaise s k r) f rspNoRoute
    | .there => act s := by
  cases hb : busPath s (flSnode f) (flSrc f) (flDnode f) (flDst f) <;> simp only [byPath, hb]

theorem sentBy_served : sentBy s f .served act = byPath s f act := rfl

theorem sentBy_late : sentBy s f .late act = byPath s f act := rfl

theorem sentBy_lostThere : sentBy s f (.lost r false) act = raise s (flSnode f) SRC.NOC_FLIT_UE r 0 := rfl

/-- An answer that is discarded on its way leaves the rest of what the request did. -/
theorem sentBy_lostBack : sentBy s f (.lost r true) act =
    if (byPath s f act).rspFlits.length = s.rspFlits.length then byPath s f act
    else raise { byPath s f act with rspFlits := s.rspFlits } (flSnode f) SRC.NOC_FLIT_UE r 0 := rfl

end

/-! ### Answers (16 R364, R370) -/

section
variable {n : Node} {e : BitVec 8} {tag : BitVec 12} {s : Block} {x : RspFlit} {rest : List RspFlit} {r : OutReq}

theorem nocAck_first (hx : takeFirst (rspFor n e.toNat tag.toNat false) s.rspFlits = some (x, rest))
    (hr : outReq { s with rspFlits := rest } n e.toNat tag.toNat = some r) :
    let b := loadResume (dropReq { s with rspFlits := rest } n e.toNat tag.toNat) n
    nocAck n e tag s = { b with rsps := b.rsps ++ [⟨whoIs n e.toNat, if 6 ≤ flCode x.flit then rspDecErr else flCode x.flit,
      if x.data.isEmpty then reqOnes r.flit else x.data⟩] } := by
  unfold nocAck
  rw [hx]
  dsimp only
  rw [hr]

theorem nocAck_late (hx : takeFirst (rspFor n e.toNat tag.toNat false) s.rspFlits = some (x, rest))
    (hr : outReq { s with rspFlits := rest } n e.toNat tag.toNat = none) :
    nocAck n e tag s = fsat { s with rspFlits := rest } n F.NOC_LATE_COUNT 0 := by
  unfold nocAck
  rw [hx]
  dsimp only
  rw [hr]

theorem nocHeld_notice (hx : takeFirst (rspFor n e.toNat tag.toNat true) s.rspFlits = some (x, rest)) :
    let due := s.now + domExitNs ((epDomain (flSrc x.flit)).getD 7) * 2 ^ 16 + usTime (fget s n F.NOC_TIMEOUT_LOCAL_US)
    nocHeld n e tag s = { s with
      rspFlits := rest
      outReqs := s.outReqs.map fun r => if isReq n e.toNat tag.toNat r then { r with due := due } else r } := by
  unfold nocHeld
  rw [hx]

end

/-! ### Snoops (16 R363) -/

section
variable {n : Node} {f : BitVec 128} {line : BitVec 21} {s : Block}

theorem snoopInv_lets (ht : flType f = tySnoopInv) (hn : flDnode f = n.val) (ha : flDst f < 16) :
    let x := acu s n (flDst f)
    snoopInv n f line s =
      snoopReply (putAcu s n (flDst f) { x with dcache := mput (fun _ => none) x.dcache line.toNat none }) f :=
  if_pos (by simp [ht, hn, ha])

theorem snoopWbinv_flushes (ht : flType f = tySnoopWbinv) (hn : flDnode f = n.val) (ha : flDst f < 16) :
    snoopWbinv n f line s = snoopReply (flushLineOf n line.toNat s (flDst f)) f :=
  if_pos (by simp [ht, hn, ha])

theorem snoopAck_taken {e : BitVec 8} {x : SnoopMsg} {rest : List SnoopMsg}
    (hx : takeFirst (fun x : SnoopMsg => flDst x.flit == e.toNat && flDnode x.flit == n.val) s.snoopAcks = some (x, rest)) :
    snoopAck n e s = { s with snoopAcks := rest } := by
  unfold snoopAck
  rw [hx]

end

/-- Settles O29: a request by its tag, its way and where it comes, an answer by the request it is for. -/
theorem packetsRequestsAndAnswers : Obligations.PacketsRequestsAndAnswers := by
  unfold Obligations.PacketsRequestsAndAnswers
  refine ⟨?read, ?write, ?msg, ?inUse, ?way, ?ends, ?msgComes, ?plain, ?memory, ?first, ?late, ?held, ?inv, ?wbinv, ?snooped⟩
  case read =>
    exact fun n c f p s ht hn hs ha hz hf hl =>
      gives_of_done (nocRead n c f p) (fun _ => rfl) (nocRead_sent (sendReq_sends ht hn hs ha hz hf (.inr hl)))
  case write =>
    exact fun n c f data p s ht hn hs ha hz hf hl =>
      gives_of_done (nocWrite n c f data p) (fun _ => rfl) (nocWrite_sent (sendReq_sends ht hn hs ha hz hf (.inr hl)))
  case msg =>
    exact fun n f x s ht hn hs ha hz hf =>
      gives_of_done (nocMsg n f x) (fun _ => rfl) (nocMsg_sent (sendReq_sends ht hn hs ha hz hf (.inl rfl)))
  case inUse =>
    exact fun n c f data p x s hf =>
      ⟨gives_of_done (nocRead n c f p) (fun _ => rfl) (nocRead_inUse hf),
        gives_of_done (nocWrite n c f data p) (fun _ => rfl) (nocWrite_inUse hf),
        gives_of_done (nocMsg n f x) (fun _ => rfl) (nocMsg_inUse hf)⟩
  case way =>
    intro f r act s t
    have ht : byPath s f act = t := byPath_eq
    exact ⟨ht, ht, sentBy_lostThere, ht ▸ sentBy_lostBack⟩
  case ends =>
    exact fun c f req ans cause s =>
      ⟨fun hn => ⟨packetDeliver_absent hn, msgDeliver_absent hn⟩,
        fun ⟨hn, hr⟩ => ⟨packetDeliver_asleep hn hr, msgDeliver_asleep hn hr⟩,
        fun ⟨hn, hr, hi⟩ => ⟨packetDeliver_isolated hn hr hi, msgDeliver_isolated hn hr hi⟩⟩
  case msgComes => exact fun f cause s h => msgDeliver_comes h
  case plain => exact fun c f req ans s h hd => packetDeliver_plain h hd
  case memory =>
    intro c f req ans s d h hd go
    have hgo : ∀ t, memForward t f false req = go t := fun t => memForward_eq t f false req
    rw [packetDeliver_memory h hd, memDeliver_eq, hgo, hgo]
  case first =>
    exact fun n e tag s x rest r hx hr => gives_of_done (nocAck n e tag) (fun _ => rfl) (nocAck_first hx hr)
  case late =>
    exact fun n e tag s x rest hx hr => gives_of_done (nocAck n e tag) (fun _ => rfl) (nocAck_late hx hr)
  case held => exact fun n e tag s x rest hx => gives_of_done (nocHeld n e tag) (fun _ => rfl) (nocHeld_notice hx)
  case inv =>
    exact fun n f line s ht hn ha => gives_of_done (snoopInv n f line) (fun _ => rfl) (snoopInv_lets ht hn ha)
  case wbinv =>
    exact fun n f line s ht hn ha => gives_of_done (snoopWbinv n f line) (fun _ => rfl) (snoopWbinv_flushes ht hn ha)
  case snooped => exact fun n e s x rest hx => gives_of_done (snoopAck n e) (fun _ => rfl) (snoopAck_taken hx)

end Sys2Proof.Machine
end

section
/-! Tile cycles, waits and exchange steps (02 R41-R47; 03 R59-R79). -/

namespace Sys2Proof.Machine

/-! ### One tile cycle (03 R59, R79, R88) -/

/-- Tile `t` runs op `m` of gang `g` of node `gn` and owes no cycle; its fetch of the microword gives `word` and leaves `b`. -/
structure MicroFetch (s : Block) (n : Node) (t : TileIx) (gn g : Nat) (m : Mop) (word : Option Nat) (b : Block) : Prop where
  op : tileOp s (tkey n t) = some (gn, g, m)
  phase : (tile s (tkey n t)).phase = .run
  run : inRun s n = true
  owed : (tile (agedTile s (tkey n t)) (tkey n t)).owed = 0
  fetch : fetchStore (agedTile s (tkey n t)) (tkey n t) 0 (tile (agedTile s (tkey n t)) (tkey n t)).upc.toNat = (word, b)

/-- What a tile does with a nano-word it has read. -/
def nanoCycle (s : Block) (gn g : Nat) (m : Mop) (tk : Nat) (u : MicroF) (w : NanoF) : Block :=
  if nanoBad w then illegalWord s tk
  else if w.nop = 3 && edgeMismatch s (gangRect s gn g) m tk w.dir then edgeAgainst s tk
  else
    match cycleWait s gn g m tk w with
    | (some why, s) => waitFor s tk why
    | (none, s) => runCycle s gn g m tk u w

/-- What a tile does with a microword it has read. -/
def microCycle (s : Block) (gn g : Nat) (m : Mop) (tk : Nat) (u : MicroF) : Block :=
  if microBad u (tile s tk).cls (tile s tk).rep (tile s tk).stack.length then illegalWord s tk
  else if gateHeld s gn g m tk u then waitFor s tk .gate
  else
    match fetchStore s tk 1 u.nano with
    | (none, s) => faultStopTile s tk SRC.NEWT_STORE_UE
    | (some nw, s) => nanoCycle s gn g m tk u (nanoFields nw)

section
variable {s b : Block} {n : Node} {t : TileIx} {gn g : Nat} {m : Mop} {uw : Nat}

theorem tileCycle_guard (phase : (tile s (tkey n t)).phase = .run) (run : inRun s n = true) :
    ¬ (((tile s (tkey n t)).phase ≠ .run || !inRun s n) = true) := by
  simp [phase, run]

theorem tileCycle_owes (op : tileOp s (tkey n t) = some (gn, g, m)) (phase : (tile s (tkey n t)).phase = .run)
    (run : inRun s n = true) (owed : (tile (agedTile s (tkey n t)) (tkey n t)).owed ≠ 0) :
    tileCycle n t s = putTile (agedTile s (tkey n t)) (tkey n t)
      { tile (agedTile s (tkey n t)) (tkey n t) with owed := (tile (agedTile s (tkey n t)) (tkey n t)).owed - 1 } := by
  unfold tileCycle
  dsimp only
  rw [op]
  dsimp only
  rw [if_neg (tileCycle_guard phase run)]
  exact if_pos owed

/-- An uncorrectable microword stops the gang. -/
theorem tileCycle_unread (h : MicroFetch s n t gn g m none b) :
    tileCycle n t s = faultStopTile b (tkey n t) SRC.NEWT_STORE_UE := by
  obtain ⟨op, phase, run, owed, fetch⟩ := h
  unfold agedTile at owed fetch
  unfold tileCycle
  dsimp only
  rw [op]
  dsimp only
  rw [if_neg (tileCycle_guard phase run), if_neg (not_not.mpr owed), fetch]

theorem tileCycle_read (h : MicroFetch s n t gn g m (some uw) b) :
    tileCycle n t s = microCycle b gn g m (tkey n t) (microFields uw) := by
  obtain ⟨op, phase, run, owed, fetch⟩ := h
  unfold agedTile at owed fetch
  unfold tileCycle
  dsimp only
  rw [op]
  dsimp only
  rw [if_neg (tileCycle_guard phase run), if_neg (not_not.mpr owed), fetch]
  rfl

end

section
variable {s b : Block} {gn g : Nat} {m : Mop} {tk : Nat} {u : MicroF} {w : NanoF}

theorem microCycle_bad (h : microBad u (tile s tk).cls (tile s tk).rep (tile s tk).stack.length = true) :
    microCycle s gn g m tk u = illegalWord s tk := if_pos h

/-- A microword that is legal and not held at the gate goes on to its nano-word. -/
theorem microCycle_open (h : microBad u (tile s tk).cls (tile s tk).rep (tile s tk).stack.length = false)
    (hg : gateHeld s gn g m tk u = false) :
    microCycle s gn g m tk u = match fetchStore s tk 1 u.nano with
      | (none, s) => faultStopTile s tk SRC.NEWT_STORE_UE
      | (some nw, s) => nanoCycle s gn g m tk u (nanoFields nw) := by
  unfold microCycle
  rw [if_neg (by simp [h]), if_neg (by simp [hg])]

theorem microCycle_gated (h : microBad u (tile s tk).cls (tile s tk).rep (tile s tk).stack.length = false)
    (hg : gateHeld s gn g m tk u = true) : microCycle s gn g m tk u = waitFor s tk .gate := by
  unfold microCycle
  rw [if_neg (by simp [h]), if_pos hg]

theorem microCycle_unread (h : microBad u (tile s tk).cls (tile s tk).rep (tile s tk).stack.length = false)
    (hg : gateHeld s gn g m tk u = false) (hf : fetchStore s tk 1 u.nano = (none, b)) :
    microCycle s gn g m tk u = faultStopTile b tk SRC.NEWT_STORE_UE := by
  rw [microCycle_open h hg, hf]

theorem microCycle_read {nw : Nat} (h : microBad u (tile s tk).cls (tile s tk).rep (tile s tk).stack.length = false)
    (hg : gateHeld s gn g m tk u = false) (hf : fetchStore s tk 1 u.nano = (some nw, b)) :
    microCycle s gn g m tk u = nanoCycle b gn g m tk u (nanoFields nw) := by
  rw [microCycle_open h hg, hf]

theorem nanoCycle_bad (h : nanoBad w = true) : nanoCycle s gn g m tk u w = illegalWord s tk := if_pos h

theorem nanoCycle_against (h : nanoBad w = false) (hx : w.nop = 3)
    (he : edgeMismatch s (gangRect s gn g) m tk w.dir = true) : nanoCycle s gn g m tk u w = edgeAgainst s tk := by
  unfold nanoCycle
  rw [if_neg (by simp [h]), if_pos (by simp [hx, he])]

/-- A legal nano-word that meets no edge mismatch waits or runs. -/
theorem nanoCycle_open (h : nanoBad w = false)
    (he : w.nop = 3 → edgeMismatch s (gangRect s gn g) m tk w.dir = false) :
    nanoCycle s gn g m tk u w = match cycleWait s gn g m tk w with
      | (some why, s) => waitFor s tk why
      | (none, s) => runCycle s gn g m tk u w := by
  have hm : ¬ (w.nop = 3 && edgeMismatch s (gangRect s gn g) m tk w.dir) = true := by
    simpa using he
  unfold nanoCycle
  rw [if_neg (by simp [h]), if_neg hm]

theorem nanoCycle_waits {why : TWait} (h : nanoBad w = false)
    (he : w.nop = 3 → edgeMismatch s (gangRect s gn g) m tk w.dir = false)
    (hw : cycleWait s gn g m tk w = (some why, b)) : nanoCycle s gn g m tk u w = waitFor b tk why := by
  rw [nanoCycle_open h he, hw]

theorem nanoCycle_runs (h : nanoBad w = false)
    (he : w.nop = 3 → edgeMismatch s (gangRect s gn g) m tk w.dir = false)
    (hw : cycleWait s gn g m tk w = (none, b)) : nanoCycle s gn g m tk u w = runCycle b gn g m tk u w := by
  rw [nanoCycle_open h he, hw]

end

theorem gives_tileCycle {n : Node} {t : TileIx} {s b : Block} (h : tileCycle n t s = b) : Gives (.tileCycle n t) s b :=
  gives_of_done (tileCycle n t) (fun _ => rfl) h

/-! ### The obligation on tile cycles -/

/-- Settles O1: each clause follows the microword and its nano-word to the branch that its hypotheses name. -/
theorem tileCycleRunsItsMicroword : Obligations.TileCycleRunsItsMicroword := by
  unfold Obligations.TileCycleRunsItsMicroword
  refine ⟨?runs, ?waits, ?owes, ?microBad, ?gated, ?nanoBad, ?against, ?microUe, ?nanoUe⟩
  case runs =>
    exact fun n t s s2 s3 s4 gn g m uw nw op ph run owed hu hb hg hn hnb he hw =>
      gives_tileCycle ((tileCycle_read ⟨op, ph, run, owed, hu⟩).trans
        ((microCycle_read hb hg hn).trans (nanoCycle_runs hnb he hw)))
  case waits =>
    exact fun n t s s2 s3 s4 gn g m uw nw why op ph run owed hu hb hg hn hnb he hw =>
      gives_tileCycle ((tileCycle_read ⟨op, ph, run, owed, hu⟩).trans
        ((microCycle_read hb hg hn).trans (nanoCycle_waits hnb he hw)))
  case owes => exact fun n t s gn g m op ph run owed => gives_tileCycle (tileCycle_owes op ph run owed)
  case microBad =>
    exact fun n t s s2 gn g m uw op ph run owed hu hb =>
      gives_tileCycle ((tileCycle_read ⟨op, ph, run, owed, hu⟩).trans (microCycle_bad hb))
  case gated =>
    exact fun n t s s2 gn g m uw op ph run owed hu hb hg =>
      gives_tileCycle ((tileCycle_read ⟨op, ph, run, owed, hu⟩).trans (microCycle_gated hb hg))
  case nanoBad =>
    exact fun n t s s2 s3 gn g m uw nw op ph run owed hu hb hg hn hnb =>
      gives_tileCycle ((tileCycle_read ⟨op, ph, run, owed, hu⟩).trans
        ((microCycle_read hb hg hn).trans (nanoCycle_bad hnb)))
  case against =>
    exact fun n t s s2 s3 gn g m uw nw op ph run owed hu hb hg hn hnb hx he =>
      gives_tileCycle ((tileCycle_read ⟨op, ph, run, owed, hu⟩).trans
        ((microCycle_read hb hg hn).trans (nanoCycle_against hnb hx he)))
  case microUe =>
    exact fun n t s s2 gn g m op ph run owed hu => gives_tileCycle (tileCycle_unread ⟨op, ph, run, owed, hu⟩)
  case nanoUe =>
    exact fun n t s s2 s3 gn g m uw op ph run owed hu hb hg hn =>
      gives_tileCycle ((tileCycle_read ⟨op, ph, run, owed, hu⟩).trans (microCycle_unread hb hg hn))

/-! ### Exchange steps (02 R42, R47) -/

section
variable {n : Node} {t : TileIx} {d : Side} {s : Block} {o : Nat} {st : ExStep} {rest : List ExStep}

theorem gives_exchangeStepArrival {wrap : Bool} {b : Block} (h : inRun s n = true) (hb : exchangeStepArrival n t d wrap s = b) :
    Gives (.exchangeStepArrival n t d wrap) s b := gives_inRun (exchangeStepArrival n t d wrap) h (fun _ => rfl) hb

/-- Inside one gang the step is present at once. -/
theorem exchangeStepArrival_inner (hn : neighbour s (tkey n t) d = some o)
    (ho : (tile s o).outbox.get (oppSide d) = st :: rest) (hl : edgeLive s (tkey n t) d o = true)
    (hg : tileOwner s (tkey n t) ≠ none) (he : tileOwner s (tkey n t) = tileOwner s o)
    (hc : usesCont s (tkey n t) d = false) :
    exchangeStepArrival n t d false s = stepCrossed s (tkey n t) o d st rest := by
  have hi : (tileOwner s (tkey n t)).isSome = true := Option.isSome_iff_ne_none.mpr hg
  unfold exchangeStepArrival
  dsimp only
  rw [if_neg Bool.false_ne_true, hn]
  dsimp only
  rw [ho]
  dsimp only
  rw [if_neg (by simp [hl, hc, hi, ← he]), if_neg (by simp [hc, hi, ← he])]
  rfl

/-- Across a CONT side the step is present, and stops the gang if it goes against the tile's exchange. -/
theorem exchangeStepArrival_cont (hn : neighbour s (tkey n t) d = some o)
    (ho : (tile s o).outbox.get (oppSide d) = st :: rest) (hl : edgeLive s (tkey n t) d o = true)
    (hc : usesCont s (tkey n t) d = true) :
    exchangeStepArrival n t d false s =
      if arrivalAgainst (stepCrossed s (tkey n t) o d st rest) (tkey n t) d then
        edgeAgainst (stepCrossed s (tkey n t) o d st rest) (tkey n t)
      else stepCrossed s (tkey n t) o d st rest := by
  unfold exchangeStepArrival
  dsimp only
  rw [if_neg Bool.false_ne_true, hn]
  dsimp only
  rw [ho]
  dsimp only
  rw [if_neg (by simp [hl, hc])]
  simp only [hc, Bool.not_true, Bool.and_false, Bool.not_false, Bool.true_and]
  rfl

theorem exchangeStepArrival_wrap {gn g : Nat} (hg : tileOwner s (tkey n t) = some (gn, g))
    (hw : wrapTile s (gangRect s gn g) (tkey n t) d = some o) (ho : (tile s o).wrapOut.get (oppSide d) = st :: rest) :
    exchangeStepArrival n t d true s = stepWrapped s (tkey n t) o d st rest := by
  unfold exchangeStepArrival
  dsimp only
  rw [if_pos rfl, hg, Option.bind_some, hw]
  dsimp only
  rw [ho]
  rfl

end

/-! ### Waits (03 R66, R67, R77; 02 R43) -/

section
variable {n : Node} {t : TileIx} {s b : Block} {tk gn g : Nat} {m : Mop}

/-- A tile that does not wait for its neighbour sends nothing. -/
theorem nbrSend_other (h : (tile s tk).wait ≠ .nbr) : nbrSend s tk = s := by
  unfold nbrSend
  exact if_neg (by simp [h])

theorem nbrSend_unsent {w : NanoF} (hp : (tile s tk).phase = .wait) (hw : (tile s tk).wait = .nbr)
    (hs : (tile s tk).sent = false) (hop : tileOp s tk = some (gn, g, m)) (hn : nextNano s tk = some w) :
    nbrSend s tk = if sendRoom s (gangRect s gn g) m tk w.dir then sendStep s (gangRect s gn g) m tk w.dir else s := by
  unfold nbrSend
  dsimp only
  rw [if_pos (by simp [hp, hw, hs]), hop, hn]

/-- A wait whose condition holds ends. -/
theorem newtWaitEnd_over (hb : b = nbrSend s (tkey n t)) (hp : (tile b (tkey n t)).phase = .wait)
    (hw : (tile b (tkey n t)).wait ≠ .qsettle) (ho : waitOver b (tkey n t) = true) :
    newtWaitEnd n t s = putTile b (tkey n t) { tile b (tkey n t) with phase := .run, wait := .none } := by
  unfold newtWaitEnd
  dsimp only
  rw [← hb, if_pos (by simp [hp, ho])]
  split
  · contradiction
  · rfl

/-- A QSETTLE wait ends with the newest quiet result visible. -/
theorem newtWaitEnd_settled {v : Bool} {k : Nat} (hp : (tile s (tkey n t)).phase = .wait)
    (hw : (tile s (tkey n t)).wait = .qsettle) (hq : (tile s (tkey n t)).qpend.getLast? = some (v, k)) :
    newtWaitEnd n t s = putTile s (tkey n t) { tile s (tkey n t) with qr := v, qpend := [], phase := .run, wait := .none } := by
  have ho : waitOver s (tkey n t) = true := by
    unfold waitOver
    dsimp only
    rw [hw]
  unfold newtWaitEnd
  dsimp only
  rw [nbrSend_other (by simp [hw]), if_pos (by simp [hp, ho]), hw, hq]

theorem finalGate_passes (hop : tileOp s (tkey n t) = some (gn, g, m)) (hp : (tile s (tkey n t)).phase = .wait)
    (hw : (tile s (tkey n t)).wait = .gate) (ha : (gang s gn g).abandon = false ∨ (gang s gn g).frontier ≠ some m.num)
    (hf : (gang s gn g).finalEnable = true) :
    finalGate n t s = putTile s (tkey n t) { tile s (tkey n t) with phase := .run, wait := .none } := by
  unfold finalGate
  dsimp only
  rw [hop]
  dsimp only
  rw [if_pos (by simp [hp, hw]), if_neg (by rcases ha with h | h <;> simp [h]), if_pos hf]

theorem finalGate_abandons (hop : tileOp s (tkey n t) = some (gn, g, m)) (hp : (tile s (tkey n t)).phase = .wait)
    (hw : (tile s (tkey n t)).wait = .gate) (ha : (gang s gn g).abandon = true)
    (hf : (gang s gn g).frontier = some m.num) : finalGate n t s = tileAbandon s (tkey n t) := by
  unfold finalGate
  dsimp only
  rw [hop]
  dsimp only
  rw [if_pos (by simp [hp, hw]), if_pos (by simp [ha, hf])]

/-- A wait of one of the kinds `ws` that outlasts WAIT_LIMIT stops the gang (02 R43, 03 R67). -/
theorem waitStall_limit {src : Nat} {ws : List TWait} (hb : b = nbrSend s tk) (hg : tileOwner b tk = some (gn, g))
    (hp : (tile b tk).phase = .wait) (hw : (tile b tk).wait ∈ ws) (ho : waitOver b tk = false) (hl : waitLimit b gn g ≠ 0) :
    waitStall tk src ws s = faultStopTile (raise (atTime b ((tile b tk).since + waitLimit b gn g * 65536 + 1))
      (tk / 1024) src (tk % 1024) 0) tk src := by
  have hl' : wbits (rget b gn .MILL_EDGE g) 31 16 ≠ 0 := fun h => hl (by simp [waitLimit, h])
  unfold waitStall
  dsimp only
  rw [← hb, hg]
  dsimp only
  rw [if_pos (by simp [hl', hp, hw, ho])]
  rfl

end

/-! ### The obligation on waits and steps -/

/-- Settles O2: each clause is the command's own case of the exchange, the wait or the gate. -/
theorem tileWaitsAndStepsComplete : Obligations.TileWaitsAndStepsComplete := by
  unfold Obligations.TileWaitsAndStepsComplete
  refine ⟨?inner, ?cont, ?against, ?wrap, ?ends, ?settled, ?sends, ?passes, ?abandons, ?edgeStall, ?waitStall⟩
  case inner =>
    exact fun n t d s o st rest run hn ho hl hg he hc =>
      gives_exchangeStepArrival run (exchangeStepArrival_inner hn ho hl hg he hc)
  case cont =>
    exact fun n t d s o st rest run hn ho hl hc ha =>
      gives_exchangeStepArrival run ((exchangeStepArrival_cont hn ho hl hc).trans (if_neg (by simp [ha])))
  case against =>
    exact fun n t d s o st rest run hn ho hl hc ha =>
      gives_exchangeStepArrival run ((exchangeStepArrival_cont hn ho hl hc).trans (if_pos ha))
  case wrap =>
    exact fun n t d s gn g o st rest run hg hw ho =>
      gives_exchangeStepArrival run (exchangeStepArrival_wrap hg hw ho)
  case ends =>
    exact fun n t s b run hb hp hw ho =>
      gives_inRun (newtWaitEnd n t) run (fun _ => rfl) (newtWaitEnd_over hb hp hw ho)
  case settled =>
    exact fun n t s v k run hp hw hq =>
      gives_inRun (newtWaitEnd n t) run (fun _ => rfl) (newtWaitEnd_settled hp hw hq)
  case sends => exact fun n t s gn g m w hp hw hs hop hn => nbrSend_unsent hp hw hs hop hn
  case passes =>
    exact fun n t s gn g m run hop hp hw ha hf =>
      gives_inRun (finalGate n t) run (fun _ => rfl) (finalGate_passes hop hp hw ha hf)
  case abandons =>
    exact fun n t s gn g m run hop hp hw ha hf =>
      gives_inRun (finalGate n t) run (fun _ => rfl) (finalGate_abandons hop hp hw ha hf)
  case edgeStall =>
    exact fun n t s b gn g run hb hg hp hw ho hl =>
      gives_inRun (newtEdgeStall n t) run (fun _ => rfl) (waitStall_limit hb hg hp (by simpa using hw) ho hl)
  case waitStall =>
    exact fun n t s b gn g run hb hg hp hw ho hl =>
      gives_inRun (newtWaitStall n t) run (fun _ => rfl) (waitStall_limit hb hg hp (by simpa using hw) ho hl)

end Sys2Proof.Machine
end

section
/-! The upkeep of the Newt stores and planes, inspections and store accesses, and dispatch (02 R49-R55, R450; 03 R71, R80-R90). -/

namespace Sys2Proof.Machine

/-! ### The number of a tile (02) -/

@[simp] theorem tkey_div (n t : Nat) (h : t < 1024) : tkey n t / 1024 = n := by
  unfold tkey
  omega

@[simp] theorem tkey_mod (n t : Nat) (h : t < 1024) : tkey n t % 1024 = t := by
  unfold tkey
  omega

/-! ### Patrols and scrub (02 R49-R51; 03 R87, R90) -/

section
variable {n : Node} {t : TileIx} {s : Block}

theorem storeCeWriteback_stores {st ad w : Nat} {rest : List (Nat × Nat × Nat)}
    (h : (tile s (tkey n t)).storeWb = (st, ad, w) :: rest) :
    storeCeWriteback n t s =
      storePut (putTile s (tkey n t) { tile s (tkey n t) with storeWb := rest }) (tkey n t) st ad w := by
  unfold storeCeWriteback
  dsimp only
  rw [h]

/-- A patrol goes on to its next word and, with scrub ON, fetches the one it was at. -/
theorem patrolWord_at (n : Node) (t : TileIx) (s : Block) :
    let p := (tile s (tkey n t)).patrol
    let b := putTile s (tkey n t) { tile s (tkey n t) with patrol := if p = 10751 then 0 else p + 1 }
    let store := if p < 8192 then 0 else if p < 10240 then 1 else 2
    patrolWord s (tkey n t) =
      if fget b n F.NEWT_SCRUB_CTRL_STATE = 2 then (fetchStore b (tkey n t) store (p - storeBase store)).2 else b := by
  unfold patrolWord
  dsimp only
  rw [tkey_div _ _ t.isLt]

/-- With scrub ON a slot rewrites the repair queue and reads the rows at CURSOR. -/
theorem scrubSlotOf_on (h : fget s n F.NEWT_SCRUB_CTRL_STATE = 2) :
    let addr := fget (repairRows s (tkey n t)) n F.NEWT_SCRUB_STATUS_CURSOR t
    let b := (List.range 64).foldl (scrubRow (tile s (tkey n t)).repair (tkey n t) addr) (repairRows s (tkey n t))
    scrubSlotOf s (tkey n t) =
      fput (if addr = 2047 then fwrap b n F.NEWT_SCRUB_STATUS_PASSES t else b) n F.NEWT_SCRUB_STATUS_CURSOR t
        ((addr + 1) % 2048) := by
  unfold scrubSlotOf
  dsimp only
  rw [tkey_div _ _ t.isLt, tkey_mod _ _ t.isLt, if_neg (not_not.mpr h)]

theorem scrubSlotOf_off (h : fget s n F.NEWT_SCRUB_CTRL_STATE ≠ 2) : scrubSlotOf s (tkey n t) = s := by
  unfold scrubSlotOf
  dsimp only
  rw [tkey_div _ _ t.isLt, if_pos h]

/-- A slot in Run, due or forced. -/
theorem gives_scrubSlot {b : Block} (h : inRun s n = true) (hb : scrubSlotOf s (tkey n t) = b) :
    Gives (.scrubSlot n t) s b ∧ Gives (.scrubForcedSlot n t) s b :=
  ⟨gives_of_done (scrubSlot n t) (fun _ => rfl) ((if_pos h).trans hb),
    gives_of_done (scrubForcedSlot n t) (fun _ => rfl) ((if_pos h).trans hb)⟩

theorem scrubIdleWake_sleeping (h : fget s n F.GOV_STATE_STATE = 1 ∨ fget s n F.GOV_STATE_STATE = 2) :
    scrubIdleWake n t s = patrolWord (scrubSlotOf s (tkey n t)) (tkey n t) := if_pos (by simpa using h)

theorem gives_scrubEnWrite {en : Bool} {b : Block} (h : takenNow s n 0x5 = true)
    (hb : enWrite s n F.NEWT_SCRUB_CTRL_EN F.NEWT_SCRUB_CTRL_STATE 0 en = b) : Gives (.scrubEnWrite n en) s b :=
  gives_row (.scrubEnWrite n en) h (fun _ => rfl) rfl hb

end

/-! ### The obligation on upkeep -/

/-- Settles O3: each clause is the command's own case of the write-back, the patrol or the scrub slot. -/
theorem storeAndScrubUpkeep : Obligations.StoreAndScrubUpkeep := by
  unfold Obligations.StoreAndScrubUpkeep
  refine ⟨?ce, ?patrol, ?slotOn, ?slotOff, ?wake, ?writeback, ?on, ?drain, ?drained⟩
  case ce =>
    exact fun n t s st ad w rest h => gives_of_done (storeCeWriteback n t) (fun _ => rfl) (storeCeWriteback_stores h)
  case patrol =>
    exact fun n t s h =>
      gives_of_done (storePatrolCheck n t) (fun _ => rfl) ((if_pos h).trans (patrolWord_at n t s))
  case slotOn => exact fun n t s h hs => gives_scrubSlot h (scrubSlotOf_on hs)
  case slotOff => exact fun n t s h hs => gives_scrubSlot h (scrubSlotOf_off hs)
  case wake =>
    exact fun n t s h hs => gives_of_done (scrubIdleWake n t) (fun _ => rfl)
      ((scrubIdleWake_sleeping h).trans (congrArg (patrolWord · (tkey n t)) (scrubSlotOf_on hs)))
  case writeback => exact fun n t s => gives_of_done (scrubWriteback n t) (fun _ => rfl) rfl
  case on => exact fun n s h h0 => gives_scrubEnWrite h (if_pos h0)
  case drain => exact fun n s h h2 => gives_scrubEnWrite h (if_pos h2)
  case drained =>
    exact fun n s h1 hall => gives_of_done (scrubDrainDone n) (fun _ => rfl) ((if_pos hall).trans (if_pos h1))

/-! ### Inspections (02 R53-R55, R450) -/

section
variable {c n t cmd kind row addr : Nat} {s : Block}

/-- An inspection of a context that is not busy, of a legal kind and register, starts. -/
theorem inspStart_begins (hb : fbit s (ctxHome c) F.NEWT_INSP_STATUS_BUSY (ctxInst c) = false)
    (hk : kind < 2 ∨ kind = 2 ∧ addr ≤ 4) :
    inspStart s c n t cmd kind row addr = inspBegun s c n t cmd kind row addr := by
  have h3 : kind ≠ 3 := by omega
  have hr : ¬ (kind = 3 || (kind = 2 && decide (4 < addr))) = true := by
    simp only [Bool.or_eq_true, Bool.and_eq_true, decide_eq_true_eq]
    omega
  unfold inspStart
  dsimp only
  rw [if_neg (by simp [hb]), if_neg h3, if_neg hr]
  rfl

end

section
variable {c : Ctx} {s : Block} {p n t : Nat} {w : Word}

/-- The inspection of context `c`, of tile `t` of module `n`, is the next of its tile to complete (02 R450). -/
def InspNext (s : Block) (c : Ctx) (p n t : Nat) (w : Word) : Prop :=
  (s.insps.find? fun p => p.1 == ctxNum c) = some (p, n, t, w) ∧
    ((s.insps.takeWhile fun p => p.1 != ctxNum c).any fun p => p.2.1 == n && p.2.2.1 == t) = false

theorem inspectionDone_next (h : InspNext s c p n t w) :
    inspectionDone c s =
      let b := inspEnded s (ctxNum c)
      if planesOff b n then
        let b := inspFlag b (ctxNum c) F.NEWT_INSP_STATUS_REFUSED true
        if wbits w 31 30 = 1 then putInspData b (ctxNum c) (2 ^ 64 - 1) else b
      else if wbits w 31 30 = 1 then inspRead b (ctxNum c) (tkey n t) (wbits w 29 28) (wbits w 5 0) (wbits w 26 16)
      else if tileStopped b (tkey n t) then
        inspWrite b (ctxNum c) (tkey n t) (wbits w 29 28) (wbits w 5 0) (wbits w 26 16)
      else inspFlag b (ctxNum c) F.NEWT_INSP_STATUS_REFUSED true := by
  obtain ⟨hf, hb⟩ := h
  unfold inspectionDone
  dsimp only
  rw [hf]
  dsimp only
  rw [if_neg (by simp [hb])]
  rfl

theorem gives_inspectionDone {b : Block} (h : inspectionDone c s = b) : Gives (.inspectionDone c) s b :=
  gives_of_done (inspectionDone c) (fun _ => rfl) h

end

/-! ### Store words (03 R80-R83) -/

section
variable {n : Node} {t : TileIx} {s : Block}

/-- A store operation on a tile with none in progress, of a store and a word that exist. -/
theorem storeStart_begins {cmd store addr : Nat} {bcast raw : Bool} (ho : (tile s (tkey n t)).storeOp = none) (hs : store < 3)
    (ha : cmd = 3 ∨ addr < storeSize store) :
    storeStart s n t cmd store bcast raw addr =
      let b := fput (fput (fput (fput s n F.NEWT_STORE_CTRL_BCAST t (b2n bcast)) n F.NEWT_STORE_CTRL_RAW t (b2n raw)) n
        F.NEWT_STORE_CTRL_ADDR t addr) n F.NEWT_STORE_CTRL_STORE t store
      let bc := bcast && cmd ≠ 1
      putTile (fput b n F.NEWT_STORE_STATUS_BUSY t 1) (tkey n t) { tile s (tkey n t) with
        storeOp := some ⟨cmd, store, bc, raw, addr,
          cmd = 2 && (if bc then (nodeTiles n).any (tileRunning b) else tileRunning b (tkey n t))⟩ } := by
  have h3 : store ≠ 3 := by omega
  have hr : ¬ (decide (cmd ≠ 3) && decide (storeSize store ≤ addr)) = true := by
    simp only [Bool.and_eq_true, decide_eq_true_eq]
    omega
  unfold storeStart
  dsimp only
  rw [if_neg (by simp [ho]), if_neg h3, if_neg h3, if_neg hr]
  rfl

theorem gives_storeWordRead {store : BitVec 2} {bcast raw : Bool} {addr : BitVec 13} {b : Block} (h : takenNow s n 0x5 = true)
    (hb : storeStart s n t 1 store.toNat bcast raw addr.toNat = b) : Gives (.storeWordRead n t store bcast raw addr) s b :=
  gives_row (.storeWordRead n t store bcast raw addr) h (fun _ => rfl) rfl hb

theorem gives_storeWordWrite {store : BitVec 2} {bcast raw : Bool} {addr : BitVec 13} {b : Block} (h : takenNow s n 0x5 = true)
    (hb : storeStart s n t 2 store.toNat bcast raw addr.toNat = b) : Gives (.storeWordWrite n t store bcast raw addr) s b :=
  gives_row (.storeWordWrite n t store bcast raw addr) h (fun _ => rfl) rfl hb

/-- A tile with its store operation taken off, and DONE. -/
def storeEnded (s : Block) (n t : Nat) : Block :=
  fput (fput (putTile s (tkey n t) { tile s (tkey n t) with storeOp := none }) n F.NEWT_STORE_STATUS_BUSY t 0) n
    F.NEWT_STORE_STATUS_DONE t 1

section
variable {op : StoreOp} (ho : (tile s (tkey n t)).storeOp = some op)
include ho

theorem storeOpDone_refused (hr : op.refused = true) :
    storeOpDone n t s = (if op.bcast then List.range 1024 else [t.val]).foldl
      (fun s t => fput s n F.NEWT_STORE_STATUS_REFUSED t 1) (storeEnded s n t) := by
  unfold storeOpDone
  dsimp only
  rw [ho]
  exact if_pos hr

theorem storeOpDone_read (hr : op.refused = false) (hc : op.cmd = 1) :
    let b := storeEnded s n t
    let w := storeGet b (tkey n t) op.store op.addr
    let d := decodeStored (storeCode op.store) w
    storeOpDone n t s = if op.raw then
        fput (putStoreData b n t (w % 2 ^ (storeCode op.store).k)) n F.NEWT_STORE_CHECK_CHECK t (w / 2 ^ (storeCode op.store).k)
      else fput (fput (putStoreData b n t d.data) n F.NEWT_STORE_STATUS_CE t (match d.found with
        | .fixed _ => 1
        | _ => 0)) n F.NEWT_STORE_STATUS_UE t (match d.found with
        | .bad => 1
        | _ => 0) := by
  unfold storeOpDone
  dsimp only
  rw [ho]
  dsimp only
  rw [if_neg (by simp [hr]), if_pos hc]
  rfl

/-- A write of one tile, or of all of them. -/
theorem storeOpDone_write (hr : op.refused = false) (hc : op.cmd = 2) :
    let b := storeEnded s n t
    let w := storeWriteWord b n t op
    let b' := (nodeTiles n).foldl (fun s tk => clearBad s tk op.store op.addr) (storePutAll b n op.store op.addr w)
    storeOpDone n t s = if op.bcast then (if op.store = 2 then
        { b' with dispCopy := mput (fun _ => none) b'.dispCopy (n * 512 + op.addr) (some (w.testBit 15, bitsOf w 14 13)) } else b')
      else clearBad (storePut b (tkey n t) op.store op.addr w) (tkey n t) op.store op.addr := by
  unfold storeOpDone
  dsimp only
  rw [ho]
  dsimp only
  rw [if_neg (by simp [hr]), if_neg (by omega), if_pos hc]
  rfl

theorem storeOpDone_verify (hr : op.refused = false) (hc : op.cmd = 3) :
    storeOpDone n t s = if op.bcast then (nodeTiles n).foldl verifyTile (storeEnded s n t)
      else verifyTile (storeEnded s n t) (tkey n t) := by
  unfold storeOpDone
  dsimp only
  rw [ho]
  dsimp only
  rw [if_neg (by simp [hr]), if_neg (by omega), if_neg (by omega)]
  rfl

end

theorem gives_storeOpDone {b : Block} (h : storeOpDone n t s = b) : Gives (.storeOpDone n t) s b :=
  gives_of_done (storeOpDone n t) (fun _ => rfl) h

/-! ### Dispatch (03 R71) -/

/-- The next op of a tile's FIFO that may be dispatched, its entry read. -/
theorem dispatchNext_ready {s2 : Block} {gn g num e : Nat} {rest : List Nat} {m : Mop}
    (hg : tileOwner s (tkey n t) = some (gn, g)) (hf : (tile s (tkey n t)).fifo = num :: rest)
    (hm : findOp (gang s gn g) num = some m) (hr : dispatchReady s n t gn g num = true)
    (he : fetchStore s (tkey n t) 2 (mopRoutine (mopFields m.word)) = (some e, s2)) :
    let b := if (tile s (tkey n t)).lastRun.isSome && m.cur = 0 && decide ((mopFields m.word).opc ≠ 0x43) then
        clobber s2 (tkey n t) else s2
    let b := putTile b (tkey n t) (dispatchState (tile b (tkey n t)) m e (gangWidth b gn g) (gangHeight b gn g))
    dispatchNext n t s = latchSlot (putGang b gn g (setOp (gang b gn g) { m with started := true })) n (gkey gn g) m := by
  unfold dispatchReady at hr
  unfold dispatchNext
  dsimp only
  rw [hg, hf]
  dsimp only
  rw [hm]
  dsimp only
  rw [if_pos hr, he]

end

/-! ### The obligation on inspections, store accesses and dispatch -/

/-- Settles O4: each clause is the command's own case of the inspection, the store operation or the dispatch. -/
theorem inspectionsAndStoreAccesses : Obligations.InspectionsAndStoreAccesses := by
  unfold Obligations.InspectionsAndStoreAccesses
  refine ⟨?begins, ?reads, ?writes, ?refuses, ?unpowered, ?storeRead, ?storeWrite, ?verify, ?opRefused, ?opRead, ?opWrite,
    ?opWriteAll, ?opVerify, ?dispatch⟩
  case begins =>
    exact fun c n t kind row addr s h hb hk =>
      ⟨gives_of_done (ctxReq c (.row (.inspectionRead c n t kind row addr))) (fun _ => rfl)
          ((ctxReq_row s c n 0x5 _ h rfl).trans (inspStart_begins hb hk)),
        gives_of_done (ctxReq c (.row (.inspectionWrite c n t kind row addr))) (fun _ => rfl)
          ((ctxReq_row s c n 0x5 _ h rfl).trans (inspStart_begins hb hk))⟩
  case reads =>
    exact fun c s p n t w hf hb hc hp =>
      gives_inspectionDone ((inspectionDone_next ⟨hf, hb⟩).trans ((if_neg (by simp [hp])).trans (if_pos hc)))
  case writes =>
    exact fun c s p n t w hf hb hc hp hs =>
      gives_inspectionDone ((inspectionDone_next ⟨hf, hb⟩).trans
        ((if_neg (by simp [hp])).trans ((if_neg (by omega)).trans (if_pos hs))))
  case refuses =>
    exact fun c s p n t w hf hb hc hp hs =>
      gives_inspectionDone ((inspectionDone_next ⟨hf, hb⟩).trans
        ((if_neg (by simp [hp])).trans ((if_neg (by omega)).trans (if_neg (by simp [hs])))))
  case unpowered =>
    exact fun c s p n t w hf hb hp =>
      gives_inspectionDone ((inspectionDone_next ⟨hf, hb⟩).trans (if_pos hp))
  case storeRead =>
    exact fun n t s store bcast raw addr h ho hs ha =>
      gives_storeWordRead h ((storeStart_begins ho hs (.inr ha)).trans (by simp))
  case storeWrite =>
    exact fun n t s store bcast raw addr h ho hs ha =>
      gives_storeWordWrite h ((storeStart_begins ho hs (.inr ha)).trans (by simp))
  case verify =>
    exact fun n t s bcast _ ho hs => gives_of_done (storeVerify n t bcast) (fun _ => rfl)
      ((storeStart_begins ho hs (.inl rfl)).trans (by simp))
  case opRefused => exact fun n t s op ho hr => gives_storeOpDone (storeOpDone_refused ho hr)
  case opRead => exact fun n t s op ho hr hc => gives_storeOpDone (storeOpDone_read ho hr hc)
  case opWrite =>
    exact fun n t s op ho hr hc hb => gives_storeOpDone ((storeOpDone_write ho hr hc).trans (if_neg (by simp [hb])))
  case opWriteAll =>
    exact fun n t s op ho hr hc hb => gives_storeOpDone ((storeOpDone_write ho hr hc).trans (if_pos hb))
  case opVerify => exact fun n t s op ho hr hc => gives_storeOpDone (storeOpDone_verify ho hr hc)
  case dispatch =>
    exact fun n t s s2 gn g num rest m e hg hf hm hr he =>
      gives_of_done (dispatchNext n t) (fun _ => rfl) (dispatchNext_ready hg hf hm hr he)

end Sys2Proof.Machine
end

section
/-! Millrace's gangs as they accept, deliver, release and retire ops and latch Croak steps (06 R152-R156; 03 R68, R81, R89). -/

namespace Sys2Proof.Machine

/-! ### Acceptance (06 R152, 04 R120; 08 R186) -/

section
variable {n g : Nat} {s : Block} {w : BitVec 128}

/-- An op that passes the checks joins those in flight. -/
theorem acceptOp_passes (h : mopReason (mopFields w) (dispEntry s n (mopRoutine (mopFields w)))
    (edgesOf (rget s n .MILL_EDGE g)) (gangRect s n g) = 0) :
    let x := gang s n g
    let m : Mop :=
      { num := x.accepted + 1, word := w, edges := edgesOf (rget s n .MILL_EDGE g),
        fpctrl := rget (setGState s n g gRun) n .MILL_FPCTRL g, cls := (dispEntry s n (mopRoutine (mopFields w))).getD 0 }
    acceptOp s n g w = putGang (setGState s n g gRun) n g { x with accepted := x.accepted + 1, flight := x.flight ++ [m] } :=
  if_pos h

/-- One that fails a check is recorded and raised, and ends acceptance. -/
theorem acceptOp_fails {r : Nat} (h : mopReason (mopFields w) (dispEntry s n (mopRoutine (mopFields w)))
    (edgesOf (rget s n .MILL_EDGE g)) (gangRect s n g) = r) (hr : r ≠ 0) :
    let x := gang s n g
    let b := putGang (setGState s n g gRun) n g (addLost { x with accepted := x.accepted + 1, closing := some .illegal } [x.accepted + 1])
    let b := putOpRegs (fput (fput b n F.MILL_ILLEGAL_VALID g 1) n F.MILL_ILLEGAL_REASON g r) n g .MILL_ILLEGAL_OP w
    let b := raise b n SRC.ILLEGAL_ARRAY_OP g (2 ^ 31 + r)
    acceptOp s n g w = if x.flight.isEmpty then enterStopped b n g .illegal SRC.ILLEGAL_ARRAY_OP else b := by
  subst h
  exact if_neg hr

end

section
variable {n : Node} {g : GangIx} {s : Block}

theorem millraceAccept_accepts {w : BitVec 128} {k rd : Nat} (hp : (gang s n g).presented = some (w, k, rd))
    (hc : canAccept s n g = true) (hf : fpctrlComing s n g k = false) :
    let b := acceptOp (putGang s n g { gang s n g with presented := none }) n g w
    millraceAccept n g s = commit (gprPut b n g k rd (BitVec.ofNat 32 (gang b n g).accepted)) n g k := by
  unfold millraceAccept
  rw [hp]
  exact if_pos (by simp [hc, hf])

/-! ### Delivery, waves and retirement (06 R152-R154; 03 R81, R89) -/

/-- The oldest op that a tile has not received: it enters the tile's FIFO, or a bad store of the gang stops the gang. -/
theorem macroOpDelivery_open {tn : Node} {t : TileIx} {m : Mop}
    (hm : ((gang s n g).flight.find? fun m => !m.delivered.contains (tkey tn t)) = some m)
    (ho : dlvOpen s n g tn t m = true) :
    macroOpDelivery n g tn t s = match (gangTiles s n g).find? (storeBad s) with
      | some bad => faultStop (raise s (bad / 1024) SRC.NEWT_STORE_UE (bad % 1024) 0) n g none SRC.NEWT_STORE_UE
      | none => putGang (putTile s (tkey tn t) { tile s (tkey tn t) with fifo := (tile s (tkey tn t)).fifo ++ [m.num] }) n g
          (setOp (gang s n g) { m with delivered := m.delivered ++ [tkey tn t] }) := by
  unfold dlvOpen at ho
  unfold macroOpDelivery
  dsimp only
  rw [hm]
  exact (if_pos ho).trans rfl

theorem gives_macroOpDelivery {tn : Node} {t : TileIx} {b : Block} (h : inRun s n = true)
    (hb : macroOpDelivery n g tn t s = b) : Gives (.macroOpDelivery n g tn t) s b :=
  gives_inRun (macroOpDelivery n g tn t) h (fun _ => rfl) hb

theorem coldWaveRelease_waits (hc : coldTiles s n g ≠ []) :
    let b := match (gang s n g).waveAt with
      | some t => atTime s (t + fget s n F.MILL_PACE_INTERVAL g * 2 ^ 16)
      | none => s
    let b := putGang b n g { gang b n g with waveAt := some b.now }
    coldWaveRelease n g s = ((coldTiles s n g).take (2 ^ fget b n F.MILL_PACE_WAVE_LOG2 g)).foldl
      (fun s tk => putTile s tk { tile s tk with released := true }) b := by
  unfold coldWaveRelease
  exact (if_neg (show ¬ (coldTiles s n g).isEmpty = true by simpa using hc)).trans rfl

theorem macroOpRetire_done {m : Mop} {rest : List Mop} (hf : (gang s n g).flight = m :: rest) (hs : m.started = true)
    (hd : opDone (gangTiles s n g) m = true) : macroOpRetire n g s = afterRetire (retireEffects s n g m) n g := by
  unfold macroOpRetire
  rw [hf]
  exact if_pos (by simp [hs, hd])

/-! ### Croak steps (06 R156, 03 R68) -/

/-- A Croak step that every tile has contributed to is latched. -/
theorem croakResultLatch_full {m : Mop} (ns : Half)
    (hm : ((gang s n g).flight.find? fun m => m.started && !(gangTiles s n g).isEmpty && (gangTiles s n g).all fun tk =>
      m.crkIn.any fun c => c.1 == m.crkDone + 1 && c.2.1 == tk) = some m) :
    let k := m.crkDone + 1
    let bit := m.crkIn.any fun c => c.1 == k && c.2.2
    let b := putGang s n g (setOp (gang s n g) { m with crkDone := k, crkIn := m.crkIn.filter fun c => c.1 != k })
    let b := (gangTiles s n g).foldl (fun s tk =>
      if (tile s tk).mop = some m.num then putTile s tk { tile s tk with crf := bit, crkGot := k } else s) b
    let b := fwrap b n F.CRK_COUNT_ROUNDS g
    croakResultLatch n g ns s = fput b n F.CRK_ROUND_MAX_NS g (max (fget b n F.CRK_ROUND_MAX_NS g) ns.toNat) := by
  unfold croakResultLatch
  dsimp only
  rw [hm]

end

/-! ### The obligation on acceptance and delivery -/

/-- Settles O5: each clause is the command's own case of the gang's operation. -/
theorem gangAcceptsAndDelivers : Obligations.GangAcceptsAndDelivers := by
  unfold Obligations.GangAcceptsAndDelivers
  refine ⟨?accepts, fun n g s w h => acceptOp_passes h, fun n g s w r h hr => acceptOp_fails h hr, ?delivers, ?bad, ?wave, ?retires,
    ?croak⟩
  case accepts =>
    exact fun n g s w k rd h hp hc hf =>
      gives_inRun (millraceAccept n g) h (fun _ => rfl) (millraceAccept_accepts hp hc hf)
  case delivers =>
    exact fun n g tn t s m h hm ho hb => gives_macroOpDelivery h ((macroOpDelivery_open hm ho).trans (by rw [hb]))
  case bad =>
    exact fun n g tn t s m bad h hm ho hb => gives_macroOpDelivery h ((macroOpDelivery_open hm ho).trans (by rw [hb]))
  case wave =>
    exact fun n g s h hc => gives_inRun (coldWaveRelease n g) h (fun _ => rfl) (coldWaveRelease_waits hc)
  case retires =>
    exact fun n g s m rest h hf hs hd =>
      gives_inRun (macroOpRetire n g) h (fun _ => rfl) (macroOpRetire_done hf hs hd)
  case croak =>
    exact fun n g ns s m h hm =>
      gives_inRun (croakResultLatch n g ns) h (fun _ => rfl) (croakResultLatch_full ns hm)

end Sys2Proof.Machine
end

section
/-! The control, mask and Croak ops of the array, and the ops with safe points (03 R76-R78; 04 R105-R118, R122). -/

namespace Sys2Proof.Machine

/-! ### Resumable ops (03 R76, R77; 04 R113-R115) -/

section
variable {opc fl upto : Nat} {total : Block → Nat → Nat → Mop → Nat} {step : Nat → Nat → Mop → Nat → Acc → Acc}
  {ready : Block → Nat → Nat → Mop → Bool} {n g : Nat} {s : Block} {m : Mop}

theorem runOp_unlinked {body : Block → List Nat → Mop → Acc × Option Nat} (ha : abandonedOp s n g opc fl = none)
    (hr : readyOp s n g opc fl = some m) (hg : gated s n g m = false) (hl : netLive s n g m = false) :
    runOp opc fl body n g s = holdTiles s (gangTiles s n g) := by
  unfold runOp
  rw [ha, hr]
  dsimp only
  rw [if_neg (by simp [hg]), if_pos (by simp [hl])]

/-- The buffers are not ready: the tiles wait for their Wheel. -/
theorem runResumable_unready (hr : readyOp s n g opc fl = some m) (hb : ready s n g m = false) :
    runResumable opc fl total step ready upto n g s = (gangTiles s n g).foldl holdWheel s := by
  unfold runResumable
  rw [hr]
  exact if_pos (by simp [hb])

/-- A link that the op's exchanges cross is not UP: the tiles wait. -/
theorem runResumable_unlinked (hr : readyOp s n g opc fl = some m) (hb : ready s n g m = true) (hl : netLive s n g m = false) :
    runResumable opc fl total step ready upto n g s = holdTiles s (gangTiles s n g) := by
  unfold runResumable
  rw [hr]
  dsimp only
  rw [if_neg (by simp [hb]), if_pos (by simp [hl])]

/-- The op goes on from the greatest cursor of its tiles to its end or to the safe point of a yield. -/
theorem runResumable_runs (hr : readyOp s n g opc fl = some m) (hb : ready s n g m = true) (hl : netLive s n g m = true) :
    let tiles := gangTiles s n g
    let cur := tiles.foldl (fun c tk => max c (tile s tk).cur.toNat) 0
    let top := total s n g m
    let stop := stopCursor s n g m upto cur top
    let r := (List.range (stop - cur)).foldl (fun acc i => if acc.bad then acc else step n g m (cur + i) acc) ⟨false, {}, s⟩
    let b := setCursor r.st tiles stop
    runResumable opc fl total step ready upto n g s = if r.bad then faultStop r.st n g (some m.num) SRC.NEWT_PLANE_UE
      else if stop = top then finishOp r.st n g m r.flags none
      else tiles.foldl (fun s tk => tilePark s n g m tk) (putGang b n g (setOp (gang b n g) { m with flags := m.flags.join r.flags })) := by
  unfold runResumable
  rw [hr]
  dsimp only
  rw [if_neg (by simp [hb]), if_neg (by simp [hl])]

/-- Of the other ops than A.SCAN, butterflies and A.COUNT no exchange crosses a link. -/
theorem netLive_of_readyOp (hr : readyOp s n g opc fl = some m) (h51 : opc ≠ 0x51) (h52 : opc ≠ 0x52) (h43 : opc ≠ 0x43) :
    netLive s n g m = true := by
  have ho := readyOp_opc hr
  unfold netLive
  dsimp only
  rw [ho, if_neg h51, if_neg h52, if_neg h43]

end

section
variable {n : Node} {g : GangIx} {upto : Half} {s b : Block}

theorem gives_aScan (h : runResumable 0x51 0 scanTotal scanStep always upto.toNat n g s = b) : Gives (.aScan n g upto) s b :=
  gives_of_done _ (fun _ => rfl) h

theorem gives_aBfly (h : runResumable 0x52 0 bflyTotal bflyStep always upto.toNat n g s = b) : Gives (.aBfly n g upto) s b :=
  gives_of_done _ (fun _ => rfl) h

theorem gives_aFbfly (h : runResumable 0x52 1 bflyTotal bflyStep always upto.toNat n g s = b) : Gives (.aFbfly n g upto) s b :=
  gives_of_done _ (fun _ => rfl) h

theorem gives_aWin (h : runResumable 0x53 0 cntTotal winStep buffersReady upto.toNat n g s = b) : Gives (.aWin n g upto) s b :=
  gives_of_done _ (fun _ => rfl) h

end

/-! ### A.MOVN, line by line (04 R116, R118) -/

section
variable {n g upto : Nat} {m : Mop} {line : List Nat} {s : Block}

/-- The op that is next, of this opcode with FL = 0, and that some tile has started. -/
theorem headStarted {opc : Nat} (ho : (mopFields m.word).opc = opc) (hf : mopFl (mopFields m.word) = 0) (hs : m.started = true) :
    ((mopFields m.word).opc = opc && mopFl (mopFields m.word) = 0 && m.started) = true := by
  simp [ho, hf, hs]

theorem runMovn_started (hh : headOp s n g = some m) (ho : (mopFields m.word).opc = 0x33) (hf : mopFl (mopFields m.word) = 0)
    (hs : m.started = true) :
    runMovn upto n g s = (gangLines s n g (axisIsY (movnDir (mopFields m.word)))).foldl (fun s line =>
      if allReady s line m.num then movnLine n g m upto line s else s) s := by
  unfold runMovn
  rw [hh]
  exact if_pos (headStarted ho hf hs)

/-- A line that reaches no CONT side and whose links are up moves bit by bit. -/
theorem movnLine_whole (hc : lineCont s (gangRect s n g) m (movnDir (mopFields m.word)) line = false)
    (hl : lineLive s (gangRect s n g) (movnDir (mopFields m.word)) line = true) (hm : (tile s (line.headD 0)).moved = 0) :
    let c := (tile s (line.headD 0)).cur.toNat
    let top := (mopFields m.word).wid0 + 1
    let stop := stopCursor s n g m upto c top
    let r := (List.range (stop - c)).foldl (fun acc i => movnBit m line (c + i) acc) ⟨false, {}, s⟩
    movnLine n g m upto line s = if r.bad then faultStop (setCursor r.st line stop) n g (some m.num) SRC.NEWT_PLANE_UE
      else movnRest n g m line stop top (c, 0) (setCursor r.st line stop) := by
  have hw : (!lineCont s (gangRect s n g) m (movnDir (mopFields m.word)) line
      && lineLive s (gangRect s n g) (movnDir (mopFields m.word)) line && (tile s (line.headD 0)).moved == 0) = true := by
    rw [hc, hl, hm]
    rfl
  unfold movnLine
  dsimp only
  rw [if_pos hw, hm]
  rfl

/-- Another goes on exchange by exchange; a step against it stops the gang. -/
theorem movnLine_steps (h : lineCont s (gangRect s n g) m (movnDir (mopFields m.word)) line = true ∨
      lineLive s (gangRect s n g) (movnDir (mopFields m.word)) line = false ∨ (tile s (line.headD 0)).moved ≠ 0) :
    let f := mopFields m.word
    let c := (tile s (line.headD 0)).cur.toNat
    let stop := stopCursor s n g m upto c (f.wid0 + 1)
    let r := movnCycles (gangRect s n g) m line stop ((stop - c) * (f.prm % 2 ^ 12 + 2) + 1) ⟨false, {}, s⟩
    movnLine n g m upto line s = if r.2.bad then faultStop r.2.st n g (some m.num) SRC.NEWT_PLANE_UE
      else if r.1 then
        match line.find? fun tk => edgeMismatch r.2.st (gangRect s n g) m tk (movnDir f) with
        | some tk => edgeAgainst r.2.st tk
        | none => r.2.st
      else movnRest n g m line stop (f.wid0 + 1) (c, (tile s (line.headD 0)).moved) r.2.st := by
  have hw : ¬ (!lineCont s (gangRect s n g) m (movnDir (mopFields m.word)) line
      && lineLive s (gangRect s n g) (movnDir (mopFields m.word)) line && (tile s (line.headD 0)).moved == 0) = true := by
    simp only [Bool.and_eq_true, Bool.not_eq_true', beq_iff_eq]
    rintro ⟨⟨hc, hl⟩, hm⟩
    rcases h with h | h | h
    · simp [hc] at h
    · simp [hl] at h
    · exact h hm
  unfold movnLine
  dsimp only
  rw [if_neg hw] <;> rfl

/-! ### A.WOUT and user routines (04 R118, R122; 10 R241) -/

theorem runWout_started {only : Option TileAt} (hh : headOp s n g = some m) (ho : (mopFields m.word).opc = 0x54)
    (hf : mopFl (mopFields m.word) = 0) (hs : m.started = true) :
    runWout only n g s =
      ((gangTiles s n g).filter fun tk => only.all fun x => tk == tkey x.node x.tile).foldl (woutRest n g m) s := by
  unfold runWout
  rw [hh]
  exact if_pos (headStarted ho hf hs)

theorem woutRest_ready {x : Mop} {tk : Nat} (hx : findOp (gang s n g) m.num = some x) (hr : tileReady s x.num tk = true) :
    woutRest n g m s tk = if (tile s tk).cur.toNat = (mopFields x.word).cnt then finishTiles s n g x [tk] {} none
      else if yielding s n g x.num && ((gang s n g).cmax.getD (tile s tk).cur.toNat == (tile s tk).cur.toNat) then
        tilePark s n g x tk
      else holdWheel s tk := by
  unfold woutRest
  dsimp only
  rw [hx]
  exact if_neg (by simp [hr])

end

section
variable {n : Node} {t : TileIx} {s b : Block} {gn g : Nat} {m : Mop}

/-- One cycle of a user routine that runs. -/
theorem userOp_one (hop : tileOp s (tkey n t) = some (gn, g, m)) (hu : mopUser (mopFields m.word) = true)
    (hp : (tile s (tkey n t)).phase = .run) : userOp 1 n t s = tileCycle n t s := by
  unfold userOp
  rw [hop]
  exact if_pos (by simp [hu, hp])

theorem gives_userOp {c : BitVec 12} {k : Nat} (hc : c.toNat = k) (hb : userOp k n t s = b) : Gives (.userOp n t c) s b :=
  gives_of_done (userOp c.toNat n t) (fun _ => rfl) (hc ▸ hb)

end

/-! ### The obligations -/

/-- Settles O41: each command is `runOp` of its opcode with the body of its op; A.COUNT alone crosses links. -/
theorem arrayControlMaskAndCroakOpsRun : Obligations.ArrayControlMaskAndCroakOpsRun := by
  unfold Obligations.ArrayControlMaskAndCroakOpsRun
  refine ⟨fun n g s m ha hr hg hl => gives_of_done _ (fun _ => rfl) (runOp_unlinked ha hr hg hl), ?_⟩
  and_intros <;> exact runsOp_of_exec fun _ _ _ => rfl

/-- Settles O42: each op with safe points is `runResumable` of its opcode, or the lines of A.MOVN, or the tiles of A.WOUT. -/
theorem arrayResumableOpsRun : Obligations.ArrayResumableOpsRun := by
  unfold Obligations.ArrayResumableOpsRun
  refine ⟨?copy, ?scan, ?bfly, ?fbfly, ?win, ?unready, ?unlinked, ?movn, fun n g m upto line s => movnLine_whole,
    fun n g m upto line s => movnLine_steps, ?wout, fun n g m x s tk => woutRest_ready, ?userOne, ?user⟩
  case copy =>
    exact fun n g upto s m hr => gives_of_done _ (fun _ => rfl)
      (runResumable_runs hr rfl (netLive_of_readyOp hr (by decide) (by decide) (by decide)))
  case scan => exact fun n g upto s m hr hl => gives_aScan (runResumable_runs hr rfl hl)
  case bfly => exact fun n g upto s m hr hl => gives_aBfly (runResumable_runs hr rfl hl)
  case fbfly => exact fun n g upto s m hr hl => gives_aFbfly (runResumable_runs hr rfl hl)
  case win =>
    exact fun n g upto s m hr hb =>
      gives_aWin (runResumable_runs hr hb (netLive_of_readyOp hr (by decide) (by decide) (by decide)))
  case unready => exact fun n g upto s m hr hb => gives_aWin (runResumable_unready hr hb)
  case unlinked =>
    exact fun n g upto s m hl =>
      ⟨fun hr => gives_aScan (runResumable_unlinked hr rfl hl), fun hr => gives_aBfly (runResumable_unlinked hr rfl hl),
        fun hr => gives_aFbfly (runResumable_unlinked hr rfl hl)⟩
  case movn =>
    exact fun n g upto s m hh ho hf hs => gives_of_done _ (fun _ => rfl) (runMovn_started hh ho hf hs)
  case wout =>
    exact fun n g only s m hh ho hf hs => gives_of_done _ (fun _ => rfl) (runWout_started hh ho hf hs)
  case userOne => exact fun n t s gn g m hop hu hp => gives_userOp rfl (userOp_one hop hu hp)
  case user => exact fun n t c s k hc => gives_userOp hc rfl

end Sys2Proof.Machine
end

section
/-! The extended Hamming code of the plane rows (02 R33, R34). The check bits, the overall parity and the syndrome are linear over the
exclusive OR, so that each is known from single bits, and what a decoder finds depends on the flipped columns alone. -/

namespace Sys2Proof.Machine

/-! ### Linear functions of the bits -/

/-- A function to one bit that takes the exclusive OR of numbers to that of its values. -/
structure XorLinear (f : Nat → Bool) : Prop where
  zero : f 0 = false
  xor : ∀ a b, f (a ^^^ b) = (f a ^^ f b)

theorem split_top_bit (d n : Nat) (h : d < 2 ^ (n + 1)) :
    d = d % 2 ^ n ^^^ if d.testBit n then 2 ^ n else 0 := by
  apply Nat.eq_of_testBit_eq
  intro i
  rcases Nat.lt_trichotomy i n with hi | rfl | hi
  · split <;> simp [hi, Nat.ne_of_gt hi]
  · split <;> simp_all
  · have h0 : d.testBit i = false := Nat.testBit_lt_two_pow (h.trans_le (Nat.pow_le_pow_right (by omega) hi))
    split <;> simp [h0, Nat.not_lt_of_gt hi, Nat.ne_of_lt hi]

/-- Linear functions that agree on single bits agree. -/
theorem XorLinear.eq_of_bits {f g : Nat → Bool} (hf : XorLinear f) (hg : XorLinear g) (n : Nat)
    (h : ∀ k < n, f (2 ^ k) = g (2 ^ k)) : ∀ d < 2 ^ n, f d = g d := by
  induction n with
  | zero =>
    intro d hd
    obtain rfl : d = 0 := by omega
    rw [hf.zero, hg.zero]
  | succ n ih =>
    intro d hd
    have hlow := ih (fun k hk => h k (by omega)) (d % 2 ^ n) (Nat.mod_lt _ (Nat.two_pow_pos n))
    have htop : f (if d.testBit n then 2 ^ n else 0) = g (if d.testBit n then 2 ^ n else 0) := by
      split
      · exact h n (by omega)
      · rw [hf.zero, hg.zero]
    rw [split_top_bit d n hd, hf.xor, hg.xor, hlow, htop]

theorem xorLinear_testBit (k : Nat) : XorLinear fun d => d.testBit k := ⟨by simp, fun a b => Nat.testBit_xor a b k⟩

theorem XorLinear.comp_land {f : Nat → Bool} (hf : XorLinear f) (m : Nat) : XorLinear fun d => f (d &&& m) :=
  ⟨by simp [hf.zero], fun a b => by rw [Nat.and_xor_distrib_right, hf.xor]⟩

/-- Folding a number onto itself keeps a linear function linear. -/
theorem XorLinear.comp_fold {f : Nat → Bool} (hf : XorLinear f) (i : Nat) : XorLinear fun d => f (d ^^^ d >>> i) := by
  refine ⟨by simp [hf.zero], fun a b => ?_⟩
  rw [Nat.shiftRight_xor_distrib, ← hf.xor]
  congr 1
  ac_rfl

theorem xorLinear_parity : XorLinear parity :=
  ((((((((xorLinear_testBit 0).comp_fold 1).comp_fold 2).comp_fold 4).comp_fold 8).comp_fold 16).comp_fold 32).comp_fold
    64).comp_fold 128

theorem xorOver_cons (k : Nat) (l : List Nat) (p : Nat → Bool) : xorOver (k :: l) p = (p k ^^ xorOver l p) := by
  have hacc (b : Bool) : l.foldl (fun b k => b != p k) b = (b ^^ xorOver l p) := by
    unfold xorOver
    induction l generalizing b with
    | nil => simp
    | cons k l ih => rw [List.foldl_cons, List.foldl_cons, ih, ih (false != p k)]; simp
  rw [← Bool.false_bne (p k), ← hacc]
  rfl

theorem xorLinear_xorOver (l : List Nat) : XorLinear fun d => xorOver l fun k => d.testBit k := by
  induction l with
  | nil => exact ⟨rfl, fun _ _ => rfl⟩
  | cons k l ih =>
    simp only [xorOver_cons]
    exact ⟨by simpa using ih.zero, fun a b => by
      rw [ih.xor, Nat.testBit_xor, Bool.xor_assoc, Bool.xor_assoc, Bool.xor_left_comm (b.testBit k)]⟩

/-! ### The positions of the data bits (02 R33) -/

theorem dataPositions_length : (dataPositions 64).length = 64 := by decide +kernel

theorem dataPositions_rising : (dataPositions 64).Pairwise (· < ·) := by decide +kernel

theorem mem_dataPositions (p : Nat) : p ∈ dataPositions 64 ↔ 3 ≤ p ∧ p ≤ 71 ∧ ∀ i, p ≠ 2 ^ i := by
  have hrange : ∀ p ∈ dataPositions 64, 3 ≤ p ∧ p ≤ 71 := by decide +kernel
  have hpow : ∀ i < 7, 2 ^ i ∉ dataPositions 64 := by decide +kernel
  have hall : ∀ p < 72, 3 ≤ p → (∀ i < 7, p ≠ 2 ^ i) → p ∈ dataPositions 64 := by decide +kernel
  constructor
  · intro h
    obtain ⟨h3, h71⟩ := hrange p h
    refine ⟨h3, h71, fun i hp => ?_⟩
    have hi : i < 7 := (Nat.pow_lt_pow_iff_right (a := 2) (by omega)).mp (by omega)
    exact hpow i hi (hp ▸ h)
  · rintro ⟨h3, h71, hp⟩
    exact hall p (by omega) h3 fun i _ => hp i

/-! ### The check bits (02 R33) -/

/-- A sum of distinct powers of two, one for each bit of `p` below `h`. -/
theorem bits_sum (p : Nat → Bool) (h : Nat) :
    (List.range h).foldl (fun m j => m + 2 ^ j * b2n (p j)) 0 < 2 ^ h ∧
      ∀ j, ((List.range h).foldl (fun m j => m + 2 ^ j * b2n (p j)) 0).testBit j = (decide (j < h) && p j) := by
  induction h with
  | zero => simp
  | succ h ih =>
    obtain ⟨hlt, hbit⟩ := ih
    rw [List.range_succ, List.foldl_append, List.foldl_cons, List.foldl_nil, Nat.add_comm]
    have hb : b2n (p h) < 2 := by
      unfold b2n
      split <;> omega
    constructor
    · have := Nat.mul_le_mul_left (2 ^ h) (show b2n (p h) ≤ 1 by omega)
      rw [Nat.pow_succ]
      omega
    · intro j
      rw [Nat.testBit_two_pow_mul_add _ hlt, hbit]
      rcases Nat.lt_trichotomy j h with hj | rfl | hj
      · simp [hj, show j < h + 1 by omega]
      · cases hp : p j <;> simp [b2n]
      · have h0 : (b2n (p h)).testBit (j - h) = false :=
          Nat.testBit_lt_two_pow (hb.trans_le (Nat.le_self_pow (by omega) 2))
        simp [h0, show ¬ j < h by omega, show ¬ j < h + 1 by omega]

theorem hamming_lt (c : Code) (d : Nat) : hamming c d < 2 ^ c.h := (bits_sum _ _).1

theorem testBit_hamming (c : Code) (d j : Nat) :
    (hamming c d).testBit j = (decide (j < c.h) && parity (d &&& checkMask c j)) := (bits_sum _ _).2 j

theorem hamming_xor (c : Code) (a b : Nat) : hamming c (a ^^^ b) = hamming c a ^^^ hamming c b := by
  apply Nat.eq_of_testBit_eq
  intro j
  rw [Nat.testBit_xor, testBit_hamming, testBit_hamming, testBit_hamming, (xorLinear_parity.comp_land _).xor,
    Bool.and_xor_distrib_left]

theorem hamming_zero (c : Code) : hamming c 0 = 0 := by
  have h := hamming_xor c 0 0
  rwa [Nat.xor_self, Nat.xor_self] at h

theorem encodeCheck_eq (c : Code) (d : Nat) :
    encodeCheck c d = 2 ^ c.h * b2n (parity d != parity (hamming c d)) + hamming c d := by
  unfold encodeCheck
  split
  · next h => rw [h, hamming_zero, Nat.add_comm]
  · rw [Nat.add_comm]

theorem encodeCheck_mod (c : Code) (d : Nat) : encodeCheck c d % 2 ^ c.h = hamming c d := by
  rw [encodeCheck_eq, Nat.mul_add_mod, Nat.mod_eq_of_lt (hamming_lt c d)]

theorem testBit_encodeCheck (c : Code) (d : Nat) {j : Nat} (hj : j < c.h) :
    (encodeCheck c d).testBit j = parity (d &&& checkMask c j) := by
  rw [encodeCheck_eq, Nat.testBit_two_pow_mul_add _ (hamming_lt c d), if_pos hj, testBit_hamming]
  simp [hj]

theorem testBit_encodeCheck_top (c : Code) (d : Nat) :
    (encodeCheck c d).testBit c.h = (parity d != parity (hamming c d)) := by
  rw [encodeCheck_eq, Nat.testBit_two_pow_mul_add _ (hamming_lt c d), if_neg (Nat.lt_irrefl _), Nat.sub_self]
  cases parity d != parity (hamming c d) <;> rfl

theorem encodeCheck_lt (c : Code) (d : Nat) : encodeCheck c d < 2 ^ (c.h + 1) := by
  have h := hamming_lt c d
  have hb : 2 ^ c.h * b2n (parity d != parity (hamming c d)) ≤ 2 ^ c.h := by
    unfold b2n
    split <;> omega
  rw [encodeCheck_eq, Nat.pow_succ]
  omega

/-- The overall check bit makes the parity of the check bits that of the data. -/
theorem parity_encodeCheck64 (d : Nat) : parity (encodeCheck code64 d) = parity d := by
  have hsplit : encodeCheck code64 d = hamming code64 d ^^^ 2 ^ 7 * b2n (parity d != parity (hamming code64 d)) := by
    apply Nat.eq_of_testBit_eq
    intro i
    rw [encodeCheck_eq, Nat.testBit_two_pow_mul_add _ (hamming_lt code64 d), Nat.testBit_xor, Nat.testBit_two_pow_mul]
    split
    · next h => simp [show ¬ 7 ≤ i from Nat.not_le.mpr h]
    · next h =>
      have h7 : 7 ≤ i := Nat.not_lt.mp h
      have h0 : (hamming code64 d).testBit i = false :=
        Nat.testBit_lt_two_pow ((hamming_lt code64 d).trans_le (Nat.pow_le_pow_right (by omega) h7))
      simp [h0, h7]; rfl
  have htop (b : Bool) : parity (2 ^ 7 * b2n b) = b := by cases b <;> decide
  rw [hsplit, xorLinear_parity.xor, htop]
  cases parity d <;> cases parity (hamming code64 d) <;> rfl

/-! ### The stored word (02 R33) -/

theorem freshWord64_eq (d : DWord) : freshWord code64 d.toNat = 2 ^ 64 * encodeCheck code64 d.toNat + d.toNat := by
  have hd : d.toNat % 2 ^ code64.k = d.toNat := Nat.mod_eq_of_lt d.isLt
  unfold freshWord
  rw [hd, Nat.add_comm]
  rfl

theorem freshWord64_mod (d : DWord) : freshWord code64 d.toNat % 2 ^ 64 = d.toNat := by
  rw [freshWord64_eq, Nat.mul_add_mod, Nat.mod_eq_of_lt d.isLt]

theorem freshWord64_div (d : DWord) : freshWord code64 d.toNat / 2 ^ 64 = encodeCheck code64 d.toNat := by
  rw [freshWord64_eq, Nat.mul_add_div (by omega), Nat.div_eq_of_lt d.isLt, Nat.add_zero]

theorem freshWord64_lt (d : DWord) : freshWord code64 d.toNat < 2 ^ 72 := by
  have hc : encodeCheck code64 d.toNat < 2 ^ 8 := encodeCheck_lt code64 d.toNat
  have hd := d.isLt
  rw [freshWord64_eq]
  omega

theorem testBit_freshWord64_data (d : DWord) {k : Nat} (hk : k < 64) :
    (freshWord code64 d.toNat).testBit k = d.getLsbD k := by
  rw [freshWord64_eq, Nat.testBit_two_pow_mul_add _ d.isLt, if_pos hk]
  rfl

theorem testBit_freshWord64_check (d : DWord) (j : Nat) :
    (freshWord code64 d.toNat).testBit (64 + j) = (encodeCheck code64 d.toNat).testBit j := by
  rw [freshWord64_eq, Nat.testBit_two_pow_mul_add _ d.isLt, if_neg (by omega), Nat.add_sub_cancel_left]

/-- The parity of the data is the exclusive OR of all its bits. -/
theorem parity_eq_xorOver (n : Nat) (hn : n ≤ 64) : ∀ d < 2 ^ n, parity d = xorOver (List.range n) fun k => d.testBit k := by
  have hbits : ∀ n ≤ 64, ∀ k < n, parity (2 ^ k) = xorOver (List.range n) fun i => (2 ^ k).testBit i := by decide +kernel
  exact xorLinear_parity.eq_of_bits (xorLinear_xorOver _) n (hbits n hn)

/-- Check bit `j` is the exclusive OR of the data bits whose position has bit `j` set. -/
theorem parity_checkMask {j : Nat} (hj : j < 7) : ∀ d < 2 ^ 64, parity (d &&& checkMask code64 j) =
    xorOver ((List.range 64).filter fun k => ((dataPositions 64).getD k 0).testBit j) fun k => d.testBit k := by
  have hbits : ∀ j < 7, ∀ k < 64, parity (2 ^ k &&& checkMask code64 j) =
      xorOver ((List.range 64).filter fun k => ((dataPositions 64).getD k 0).testBit j) fun i => (2 ^ k).testBit i := by
    decide +kernel
  exact (xorLinear_parity.comp_land _).eq_of_bits (xorLinear_xorOver _) 64 (hbits j hj)

/-- Settles O49: the check bits are linear in the data, and are those of R33 on single bits. -/
theorem planeCheckBits : Obligations.PlaneCheckBits := by
  unfold Obligations.PlaneCheckBits
  refine ⟨dataPositions_length, dataPositions_rising, mem_dataPositions, fun d => ?_⟩
  dsimp only
  refine ⟨freshWord64_lt d, fun k hk => testBit_freshWord64_data d hk, fun j hj => ?_, ?_⟩
  · rw [testBit_freshWord64_check, testBit_encodeCheck code64 d.toNat hj]
    exact parity_checkMask hj d.toNat d.isLt
  · have hd : parity d.toNat = xorOver (List.range 64) fun k => d.getLsbD k :=
      parity_eq_xorOver 64 (by omega) d.toNat d.isLt
    have hlow (j : Nat) (hj : j < 7) : (encodeCheck code64 d.toNat).testBit j = (hamming code64 d.toNat).testBit j := by
      rw [testBit_encodeCheck code64 _ hj, testBit_hamming]
      simp [show j < code64.h from hj]
    have hc : xorOver (List.range 7) (fun j => (freshWord code64 d.toNat).testBit (64 + j)) = parity (hamming code64 d.toNat) := by
      rw [parity_eq_xorOver 7 (by omega) _ (hamming_lt code64 _)]
      exact List.foldl_ext _ _ _ fun b j hj =>
        congrArg (b != ·) ((testBit_freshWord64_check d j).trans (hlow j (List.mem_range.mp hj)))
    rw [hc, ← hd, show 71 = 64 + 7 from rfl, testBit_freshWord64_check]
    exact testBit_encodeCheck_top code64 d.toNat

/-! ### What a decoder finds (02 R34) -/

/-- The word of zeros is decoded as any other. -/
theorem decodeWord_eq (c : Code) (d chk : Nat) :
    decodeWord c d chk =
      let syn := Nat.xor (hamming c d) (chk % 2 ^ c.h)
      if !(parity d != parity chk) then
        if syn = 0 then ⟨d, chk, .clean⟩ else ⟨d, chk, .bad⟩
      else if syn = 0 then ⟨d, Nat.xor chk (2 ^ c.h), .fixed (c.k + c.h)⟩
      else if isPow2 syn then ⟨d, Nat.xor chk syn, .fixed (c.k + Nat.log2 syn)⟩
      else
        match (dataPositions c.k).idxOf? syn with
        | some i => ⟨Nat.xor d (2 ^ i), chk, .fixed i⟩
        | none => ⟨d, chk, .bad⟩ := by
  unfold decodeWord
  split
  · next h =>
    obtain ⟨rfl, rfl⟩ : d = 0 ∧ chk = 0 := by simpa using h
    have hs : Nat.xor (hamming c 0) (0 % 2 ^ c.h) = 0 := by
      rw [hamming_zero, Nat.zero_mod]
      rfl
    dsimp only
    rw [hs]
    rfl
  · rfl

section
variable {c : Code} {d chk : Nat}

theorem decodeWord_clean (ho : parity d = parity chk) (hs : hamming c d ^^^ chk % 2 ^ c.h = 0) :
    decodeWord c d chk = ⟨d, chk, .clean⟩ := by
  rw [decodeWord_eq]
  exact (if_pos (by simp [ho])).trans (if_pos hs)

theorem decodeWord_bad (ho : parity d = parity chk) (hs : hamming c d ^^^ chk % 2 ^ c.h ≠ 0) :
    decodeWord c d chk = ⟨d, chk, .bad⟩ := by
  rw [decodeWord_eq]
  exact (if_pos (by simp [ho])).trans (if_neg hs)

/-- The overall check bit alone is flipped. -/
theorem decodeWord_top (ho : parity d ≠ parity chk) (hs : hamming c d ^^^ chk % 2 ^ c.h = 0) :
    decodeWord c d chk = ⟨d, chk ^^^ 2 ^ c.h, .fixed (c.k + c.h)⟩ := by
  rw [decodeWord_eq]
  exact (if_neg (by simpa using ho)).trans (if_pos hs)

/-- A check bit is flipped. -/
theorem decodeWord_check {j : Nat} (ho : parity d ≠ parity chk) (hs : hamming c d ^^^ chk % 2 ^ c.h = 2 ^ j)
    (hj : isPow2 (2 ^ j) = true) : decodeWord c d chk = ⟨d, chk ^^^ 2 ^ j, .fixed (c.k + j)⟩ := by
  have hs' : Nat.xor (hamming c d) (chk % 2 ^ c.h) = 2 ^ j := hs
  rw [decodeWord_eq]
  dsimp only
  rw [hs', if_neg (by simpa using ho), if_neg (Nat.two_pow_pos j).ne', if_pos hj, Nat.log2_two_pow]
  rfl

/-- A data bit is flipped. -/
theorem decodeWord_data {i p : Nat} (ho : parity d ≠ parity chk) (hs : hamming c d ^^^ chk % 2 ^ c.h = p)
    (hp : isPow2 p = false) (hi : (dataPositions c.k).idxOf? p = some i) (h0 : p ≠ 0) :
    decodeWord c d chk = ⟨d ^^^ 2 ^ i, chk, .fixed i⟩ := by
  have hs' : Nat.xor (hamming c d) (chk % 2 ^ c.h) = p := hs
  rw [decodeWord_eq]
  dsimp only
  rw [hs', if_neg (by simpa using ho), if_neg h0, if_neg (by simp [hp]), hi]
  rfl

end

/-! ### Flipped columns (02 R34) -/

/-- What flipping the columns that are set in `e` adds to the syndrome. -/
def flipSyn (e : Nat) : Nat := hamming code64 (e % 2 ^ 64) ^^^ e / 2 ^ 64 % 2 ^ 7

/-- Whether an odd number of the columns that are set in `e` are flipped. -/
def flipOdd (e : Nat) : Bool := parity (e % 2 ^ 64) ^^ parity (e / 2 ^ 64)

theorem flipSyn_xor (a b : Nat) : flipSyn (a ^^^ b) = flipSyn a ^^^ flipSyn b := by
  unfold flipSyn
  rw [Nat.xor_mod_two_pow, Nat.xor_div_two_pow, Nat.xor_mod_two_pow, hamming_xor]
  ac_rfl

theorem flipOdd_xor (a b : Nat) : flipOdd (a ^^^ b) = (flipOdd a ^^ flipOdd b) := by
  unfold flipOdd
  rw [Nat.xor_mod_two_pow, Nat.xor_div_two_pow, xorLinear_parity.xor, xorLinear_parity.xor, Bool.xor_assoc, Bool.xor_assoc,
    Bool.xor_left_comm (parity (b % 2 ^ 64))]

/-- A stored word with the columns of `e` flipped. -/
theorem decodeStored_flipped (d : DWord) (e : Nat) :
    decodeStored code64 (freshWord code64 d.toNat ^^^ e) =
      decodeWord code64 (d.toNat ^^^ e % 2 ^ 64) (encodeCheck code64 d.toNat ^^^ e / 2 ^ 64) := by
  show decodeWord code64 ((freshWord code64 d.toNat ^^^ e) % 2 ^ 64) ((freshWord code64 d.toNat ^^^ e) / 2 ^ 64) = _
  rw [Nat.xor_mod_two_pow, Nat.xor_div_two_pow, freshWord64_mod, freshWord64_div]

theorem syndrome_flipped (d e : Nat) :
    hamming code64 (d ^^^ e % 2 ^ 64) ^^^ (encodeCheck code64 d ^^^ e / 2 ^ 64) % 2 ^ code64.h = flipSyn e := by
  rw [Nat.xor_mod_two_pow, encodeCheck_mod, hamming_xor]
  unfold flipSyn
  rw [Nat.xor_assoc, Nat.xor_left_comm, ← Nat.xor_assoc, ← Nat.xor_assoc, Nat.xor_xor_cancel_right]
  rfl

theorem parity_flipped (d e : Nat) :
    (parity (d ^^^ e % 2 ^ 64) ^^ parity (encodeCheck code64 d ^^^ e / 2 ^ 64)) = flipOdd e := by
  rw [xorLinear_parity.xor, xorLinear_parity.xor, parity_encodeCheck64]
  unfold flipOdd
  cases parity d <;> simp

/-- One flipped column is odd. -/
theorem flipOdd_column : ∀ i < 72, flipOdd (2 ^ i) = true := by decide +kernel

/-- A data column gives the syndrome that is its position. -/
theorem flipSyn_data : ∀ i < 64, isPow2 (flipSyn (2 ^ i)) = false ∧
    (dataPositions 64).idxOf? (flipSyn (2 ^ i)) = some i ∧ flipSyn (2 ^ i) ≠ 0 := by decide +kernel

theorem flipSyn_check : ∀ j < 7, flipSyn (2 ^ (64 + j)) = 2 ^ j ∧ isPow2 (2 ^ j) = true := by decide +kernel

theorem flipSyn_top : flipSyn (2 ^ 71) = 0 := by decide +kernel

theorem flipSyn_ne : ∀ i < 72, ∀ j < i, flipSyn (2 ^ i) ≠ flipSyn (2 ^ j) := by decide +kernel

section
variable (d : DWord)

theorem decodeStored_fresh :
    decodeStored code64 (freshWord code64 d.toNat) = ⟨d.toNat, encodeCheck code64 d.toNat, .clean⟩ := by
  have h := decodeStored_flipped d 0
  have hs := syndrome_flipped d.toNat 0
  have hp := parity_flipped d.toNat 0
  simp only [Nat.zero_mod, Nat.zero_div, Nat.xor_zero] at h hs hp
  rw [h]
  exact decodeWord_clean (by simpa [show flipOdd 0 = false by decide] using hp) (hs.trans (by decide))

/-- Any one column flipped is put right. -/
theorem decodeStored_one {i : Nat} (hi : i < 72) :
    decodeStored code64 (freshWord code64 d.toNat ^^^ 2 ^ i) = ⟨d.toNat, encodeCheck code64 d.toNat, .fixed i⟩ := by
  have ho : parity (d.toNat ^^^ 2 ^ i % 2 ^ 64) ≠ parity (encodeCheck code64 d.toNat ^^^ 2 ^ i / 2 ^ 64) := by
    have h := parity_flipped d.toNat (2 ^ i)
    rw [flipOdd_column i hi] at h
    simpa using h
  have hs := syndrome_flipped d.toNat (2 ^ i)
  rw [decodeStored_flipped]
  by_cases hdata : i < 64
  · obtain ⟨hp, hx, h0⟩ := flipSyn_data i hdata
    have hlt : 2 ^ i < 2 ^ 64 := Nat.pow_lt_pow_right (by omega) hdata
    rw [decodeWord_data ho hs hp hx h0, Nat.mod_eq_of_lt hlt, Nat.div_eq_of_lt hlt, Nat.xor_xor_cancel_right, Nat.xor_zero]
  · obtain ⟨j, rfl⟩ := Nat.exists_eq_add_of_le (Nat.not_lt.mp hdata)
    have hmod : 2 ^ (64 + j) % 2 ^ 64 = 0 := by rw [Nat.pow_add, Nat.mul_mod_right]
    have hdiv : 2 ^ (64 + j) / 2 ^ 64 = 2 ^ j := by rw [Nat.pow_add, Nat.mul_div_cancel_left _ (by omega)]
    rcases Nat.lt_or_ge j 7 with hj | hj
    · obtain ⟨he, hp⟩ := flipSyn_check j hj
      rw [decodeWord_check ho (hs.trans he) hp, hmod, hdiv, Nat.xor_xor_cancel_right, Nat.xor_zero]
      rfl
    · obtain rfl : j = 7 := by omega
      rw [decodeWord_top ho (hs.trans flipSyn_top), hmod, hdiv, Nat.xor_zero]
      exact congrArg (Decoded.mk _ · _) (Nat.xor_xor_cancel_right _ _)

/-- Any two different columns flipped are found. -/
theorem decodeStored_two {i j : Nat} (hi : i < 72) (hj : j < i) :
    (decodeStored code64 (freshWord code64 d.toNat ^^^ (2 ^ i ^^^ 2 ^ j))).found = .bad := by
  have ho := parity_flipped d.toNat (2 ^ i ^^^ 2 ^ j)
  have hs := syndrome_flipped d.toNat (2 ^ i ^^^ 2 ^ j)
  rw [flipOdd_xor, flipOdd_column i hi, flipOdd_column j (hj.trans hi)] at ho
  rw [decodeStored_flipped, decodeWord_bad (by simpa using ho)]
  rw [hs, flipSyn_xor]
  exact fun h => flipSyn_ne i hi j hj (Nat.xor_eq_zero_iff.mp h)

end

/-- Settles O50: the syndrome and the parity of a flipped word are those of its flipped columns. -/
theorem planeCodeCorrectsOneAndFindsTwo : Obligations.PlaneCodeCorrectsOneAndFindsTwo := by
  unfold Obligations.PlaneCodeCorrectsOneAndFindsTwo
  intro d
  dsimp only
  rw [freshWord64_div]
  exact ⟨decodeStored_fresh d, fun i hi => decodeStored_one d hi, fun i hi j hj => decodeStored_two d hi hj⟩

end Sys2Proof.Machine
end

section
/-! The canonical form of the registers, the selects and the memories, and what keeps it: setting other fields, a choice, a fold
over a list, and an answer that comes with a block (02 R33, 10 R225, R233). -/

namespace Sys2Proof.Machine

/-- The registers, the selects and the memories, in canonical form. -/
structure Maps (regs : SMap Word) (sels : SMap (BitVec 14)) (stg record lram : SMap (BitVec 72))
    (hostMem : SMap (BitVec 8)) : Prop where
  regs : mwf regDefault regs = true
  sels : mwf (fun _ => 0) sels = true
  stg : mwf (fun _ => 0) stg = true
  record : mwf (fun _ => 0) record = true
  lram : mwf (fun _ => 0) lram = true
  hostMem : mwf (fun _ => 0) hostMem = true

/-- The registers, the selects and the memories of the block are in canonical form. -/
def Form (s : Block) : Prop := Maps s.regs s.sels s.stg s.record s.lram s.hostMem

theorem foldl_mput_wf {α β : Type} [DecidableEq β] {dflt : Nat → β} {key : α → Nat} {val : α → β} {l : List α}
    {m : SMap β} (h : mwf dflt m = true) : mwf dflt (l.foldl (fun m p => mput dflt m (key p) (val p)) m) = true :=
  List.foldlRecOn (motive := fun m => mwf dflt m = true) l _ h fun m hm _ _ => mput_wf dflt m _ _ hm

theorem foldl_mdrop_wf {α β : Type} [DecidableEq β] {dflt : Nat → β} {lo hi : α → Nat} {l : List α}
    {m : SMap β} (h : mwf dflt m = true) : mwf dflt (l.foldl (fun m r => mdrop m (lo r) (hi r)) m) = true :=
  List.foldlRecOn (motive := fun m => mwf dflt m = true) l _ h fun m hm _ _ => mdrop_wf dflt m _ _ hm

/-- A block with other fields set is in canonical form with the one it comes from. -/
theorem form_with {t : Block} (h : Maps t.regs t.sels t.stg t.record t.lram t.hostMem) : Form t := h

theorem form_ite {c : Prop} [Decidable c] {a b : Block} (ha : Form a) (hb : Form b) : Form (if c then a else b) := by
  split
  · exact ha
  · exact hb

/-- What `P` says holds of the value, if there is one. -/
def InSome {α : Type} (P : α → Prop) : Option α → Prop
  | none => True
  | some a => P a

theorem InSome.of_eq {α : Type} {P : α → Prop} {o : Option α} {a : α} (h : InSome P o) (e : o = some a) : P a := by
  subst e
  exact h

theorem InSome.getD {α : Type} {P : α → Prop} {o : Option α} {d : α} (h : InSome P o) (hd : P d) : P (o.getD d) := by
  cases o with
  | none => exact hd
  | some a => exact h

theorem InSome.map {α β : Type} {P : α → Prop} {Q : β → Prop} {o : Option α} {g : α → β} (h : InSome P o)
    (hg : ∀ a, P a → Q (g a)) : InSome Q (o.map g) := by
  cases o with
  | none => trivial
  | some a => exact hg a h

theorem inSome_ite {α : Type} {P : α → Prop} {c : Prop} [Decidable c] {a b : Option α} (ha : InSome P a) (hb : InSome P b) :
    InSome P (if c then a else b) := by
  split
  · exact ha
  · exact hb

theorem form_snd {α : Type} {p : α × Block} {a : α} {t : Block} (h : Form p.2) (e : p = (a, t)) : Form t := by
  subst e
  exact h

theorem form_pair {α : Type} {a : α} {t : Block} (h : Form t) : Form (a, t).2 := h

theorem form_triple {α β : Type} {a : α} {b : β} {t : Block} (h : Form t) : Form (a, b, t).2.2 := h

theorem form_foldl {α : Type} {f : Block → α → Block} {l : List α} {s : Block} (hf : ∀ s x, Form s → Form (f s x))
    (h : Form s) : Form (l.foldl f s) := List.foldlRecOn (motive := Form) l f h fun s hs x _ => hf s x hs

theorem form_foldl_snd {α β : Type} {f : β × Block → α → β × Block} {l : List α} {p : β × Block}
    (hf : ∀ p x, Form p.2 → Form (f p x).2) (h : Form p.2) : Form (l.foldl f p).2 :=
  List.foldlRecOn (motive := fun p => Form p.2) l f h fun p hp x _ => hf p x hp

theorem form_foldl_snd_snd {α β γ : Type} {f : β × γ × Block → α → β × γ × Block} {l : List α}
    {p : β × γ × Block} (hf : ∀ p x, Form p.2.2 → Form (f p x).2.2) (h : Form p.2.2) : Form (l.foldl f p).2.2 :=
  List.foldlRecOn (motive := fun p => Form p.2.2) l f h fun p hp x _ => hf p x hp

theorem form_foldl_st {α : Type} {f : Acc → α → Acc} {l : List α} {p : Acc}
    (hf : ∀ p x, Form p.st → Form (f p x).st) (h : Form p.st) : Form (l.foldl f p).st :=
  List.foldlRecOn (motive := fun p => Form p.st) l f h fun p hp x _ => hf p x hp

/-- The block of an instruction fetch that ends is in canonical form. -/
def FetchAns.Form : FetchAns → Prop
  | .ok _ t => Machine.Form t
  | .stall => True
  | .refused t => Machine.Form t

/-- The block of a load that ends is in canonical form. -/
def LoadAns.Form : LoadAns → Prop
  | .wait => True
  | .trap t => Machine.Form t
  | .ok _ t => Machine.Form t

/-- The block of an access that is refused is in canonical form. -/
def AccCheck.Form : AccCheck → Prop
  | .refused t => Machine.Form t
  | _ => True

theorem FetchAns.Form.of_eq {a b : FetchAns} (h : a.Form) (e : a = b) : b.Form := e ▸ h
theorem LoadAns.Form.of_eq {a b : LoadAns} (h : a.Form) (e : a = b) : b.Form := e ▸ h
theorem AccCheck.Form.of_eq {a b : AccCheck} (h : a.Form) (e : a = b) : b.Form := e ▸ h

end Sys2Proof.Machine
end

section
/-! What the functions of Sys2Proof/Machine/Ops.lean answer is in canonical form. -/

namespace Sys2Proof.Machine

variable {s : Block}

/-! ### Registers -/

theorem form_rput {n r inst w} (h : Form s) : Form (rput s n r inst w) := form_with { h with regs := mput_wf _ _ _ _ h.regs }

theorem form_fput {n f inst v} (h : Form s) : Form (fput s n f inst v) := form_rput h

theorem form_fset {n f v} (h : Form s) : Form (fset s n f v) := form_fput h

theorem form_put64 {n r i sel v} (h : Form s) : Form (put64 s n r i sel v) := form_rput (form_rput h)

theorem form_fsat {n f inst} (h : Form s) : Form (fsat s n f inst) := form_fput h

theorem form_fwrap {n f inst} (h : Form s) : Form (fwrap s n f inst) := form_fput h

/-! ### Access contexts (14 R336, 08 R191, 12 R285, 20 R450) -/

theorem form_selPut {c i v} (h : Form s) : Form (selPut s c i v) := form_with { h with sels := mput_wf _ _ _ _ h.sels }

/-! ### Free values and fault events -/

theorem form_drawFree (h : Form s) : Form (drawFree s).2 := form_with h

theorem form_raise {n src inst detail} (h : Form s) : Form (raise s n src inst detail) := form_with h

theorem form_raiseVia {n src inst detail via} (h : Form s) : Form (raiseVia s n src inst detail via) := form_with h

theorem form_atTime {due} (h : Form s) : Form (atTime s due) := form_with h

/-! ### Bunel links (15) -/

theorem form_putLink {n l x} (h : Form s) : Form (putLink s n l x) := form_with h

/-! ### Power (18) -/

theorem form_putPow {n x} (h : Form s) : Form (putPow s n x) := form_with h

theorem form_whenRun {n} {f : Block → Block} (hf : ∀ s, Form s → Form (f s)) (h : Form s) : Form (whenRun n f s) := by
  unfold whenRun
  exact form_ite (hf _ h) h

theorem form_whenClocked {n} {f : Block → Block} (hf : ∀ s, Form s → Form (f s)) (h : Form s) : Form (whenClocked n f s) := by
  unfold whenClocked
  exact form_ite (hf _ h) h

theorem form_whenServed {n} {f : Block → Block} (hf : ∀ s, Form s → Form (f s)) (h : Form s) : Form (whenServed n f s) := by
  unfold whenServed
  exact form_ite (hf _ h) h

/-! ### The timebase (18 R411, R415) -/

theorem form_putTim {n x} (h : Form s) : Form (putTim s n x) := form_with h

theorem form_atDev {n t} (h : Form s) : Form (atDev s n t) := form_atTime h

theorem form_enterHoldover {n} (h : Form s) : Form (enterHoldover s n) := by
  unfold enterHoldover
  exact form_ite (form_fset (form_fset h)) (form_putTim (form_fset (form_fset h)))

theorem form_leaveHoldover {n} (h : Form s) : Form (leaveHoldover s n) := by
  unfold leaveHoldover
  exact form_putTim (form_fset h)

/-! ### Tiles, planes and PE registers (02) -/

theorem form_putTile {tk t} (h : Form s) : Form (putTile s tk t) := form_with h

theorem form_rowPutRaw {tk row addr w} (h : Form s) : Form (rowPutRaw s tk row addr w) := form_with h

theorem form_rowPut {tk row addr d} (h : Form s) : Form (rowPut s tk row addr d) := form_rowPutRaw h

theorem form_pePut {tk row reg v} (h : Form s) : Form (pePut s tk row reg v) := form_with h

theorem form_undefineFrom {tk lo hi} (h : Form s) : Form (undefineFrom s tk lo hi) := form_with h

theorem form_undefine {tk slot} (h : Form s) : Form (undefine s tk slot) := form_undefineFrom h

theorem form_clobber {tk} (h : Form s) : Form (clobber s tk) := form_undefineFrom h

theorem form_clearPlanes {n} (h : Form s) : Form (clearPlanes s n) := form_with h

/-! ### Gangs (06) -/

theorem form_putGang {n g x} (h : Form s) : Form (putGang s n g x) := form_with h

/-! ### The device-wide enable rule (01 R19) -/

theorem form_enWrite {n en st inst v} (h : Form s) : Form (enWrite s n en st inst v) := by
  unfold enWrite
  exact form_ite (form_ite (form_fput (form_fput h)) h) (form_ite (form_fput (form_fput h)) h)

theorem form_drainDone {n st inst} (h : Form s) : Form (drainDone s n st inst) := form_ite (form_fput h) h

end Sys2Proof.Machine
end

section
/-! What the functions of Sys2Proof/Machine/Irq.lean answer is in canonical form. -/

namespace Sys2Proof.Machine

variable {s : Block}

theorem form_irqAcu {n k i} (h : Form s) : Form (irqAcu s n k i) := by
  unfold irqAcu
  exact form_ite (form_rput h) h

theorem form_irqAll {n i} (h : Form s) : Form (irqAll s n i) := form_foldl (fun _ _ ht => form_irqAcu ht) h

theorem form_pendSyncSet {tk b} (h : Form s) : Form (pendSyncSet s tk b) := form_with h

theorem form_msixSend {v} (h : Form s) : Form (msixSend s v) := form_ite (form_with h) (form_with h)

theorem form_vectorMask {v on} (h : Form s) : Form (vectorMask s v on) := by
  unfold vectorMask
  exact form_ite (form_with h) (form_with h)

theorem form_msixWrite {w v} (h : Form s) : Form (msixWrite s w v) := form_ite h (form_ite (form_vectorMask h) (form_with h))

theorem form_hostIrq {n src} (h : Form s) : Form (hostIrq s n src) := by
  unfold hostIrq
  exact form_ite (form_msixSend (form_rput h)) (form_rput h)

end Sys2Proof.Machine
end

section
/-! What the functions of Sys2Proof/Machine/AcuBase.lean answer is in canonical form. -/

namespace Sys2Proof.Machine

variable {s : Block}

theorem form_putTask {tk t} (h : Form s) : Form (putTask s tk t) := form_with h

theorem form_putAcu {n k x} (h : Form s) : Form (putAcu s n k x) := form_with h

/-! ### Run state -/

theorem form_setRun {n k k1 run why} (h : Form s) : Form (setRun s n k k1 run why) := form_fput (form_fput h)

theorem form_taskWait {n k k1 why} (h : Form s) : Form (taskWait s n k k1 why) := form_setRun h

theorem form_noteSelected {n k k1} (h : Form s) : Form (noteSelected s n k k1) := by
  unfold noteSelected
  exact form_putAcu h

/-! ### PC and PSW -/

theorem form_setPc {n k k1 pc} (h : Form s) : Form (setPc s n k k1 pc) := form_rput h

theorem form_setPsw {n k k1 w} (h : Form s) : Form (setPsw s n k k1 w) := form_rput h

theorem form_pswPut {n k k1 f v} (h : Form s) : Form (pswPut s n k k1 f v) := form_fput h

/-! ### Registers (08 R175-R178, 09 R205) -/

theorem form_slotPut {n k k1 i v} (h : Form s) : Form (slotPut s n k k1 i v) := by
  unfold slotPut
  exact form_ite h (form_ite (form_pswPut (form_putTask h)) (form_setPsw (form_putTask h)))

theorem form_gprPut {n k k1 c v} (h : Form s) : Form (gprPut s n k k1 c v) := form_slotPut h

theorem form_pairPut {n k k1 c v} (h : Form s) : Form (pairPut s n k k1 c v) := form_gprPut (form_gprPut h)

/-! ### Commit -/

theorem form_ageTask {n k k1} (h : Form s) : Form (ageTask s n k k1) := by
  unfold ageTask
  exact form_putTask h

theorem form_unserve {n k k1} (h : Form s) : Form (unserve s n k k1) := by
  unfold unserve
  exact form_putTask h

theorem form_commitAt {n k k1 pc} (h : Form s) : Form (commitAt s n k k1 pc) := form_setRun (form_setPc (form_ageTask h))

theorem form_commit {n k k1} (h : Form s) : Form (commit s n k k1) := form_commitAt h

end Sys2Proof.Machine
end

section
/-! What the functions of Sys2Proof/Machine/Mem.lean answer is in canonical form. -/

namespace Sys2Proof.Machine

variable {s : Block}

/-! ### ECC memories -/

theorem form_memPut {m n w v} (h : Form s) : Form (memPut s m n w v) := by
  unfold memPut
  split
  · exact form_with { h with stg := mput_wf _ _ _ _ h.stg }
  · exact form_with { h with record := mput_wf _ _ _ _ h.record }
  · exact form_with { h with lram := mput_wf _ _ _ _ h.lram }

theorem form_memCe {m n w} (h : Form s) : Form (memCe s m n w) := by
  unfold memCe
  split
  · exact form_raise (form_fsat h)
  · exact form_raise (form_fsat h)
  · exact form_raise (form_fsat h)

theorem form_memUe {m n w} (h : Form s) : Form (memUe s m n w) := by
  unfold memUe
  split
  · exact form_raise (form_fsat h)
  · exact form_raise (form_fsat h)
  · exact form_raise (form_fsat h)

theorem form_memRead {m n w} (h : Form s) : Form (memRead s m n w).2 := by
  unfold memRead
  extract_lets d
  split
  · exact h
  · exact form_memCe (form_memPut h)
  · exact form_memUe h

theorem form_memRmw {m n w f} (h : Form s) : Form (memRmw s m n w f).2 := by
  unfold memRmw
  split
  · next he =>
    exact form_memPut (form_snd (form_memRead h) he)
  · next he =>
    exact form_snd (form_memRead h) he

theorem form_memWritePart {m n al addr bytes} {r : Bool × Block} {w} (h : Form r.2) :
    Form (memWritePart m n al addr bytes r w).2 := by
  unfold memWritePart
  extract_lets p q
  have hq : Form q.2 := form_memRmw h
  split
  · exact h
  · split
    · exact form_memPut h
    · exact hq

theorem form_memWrite {m n al addr bytes} (h : Form s) : Form (memWrite s m n al addr bytes).2 :=
  form_foldl_snd (fun _ _ ht => form_memWritePart ht) h

theorem form_memReadWords {m n l} (h : Form s) : Form (memReadWords s m n l).2 := by
  induction l generalizing s m n with
  | nil =>
    exact h
  | cons x l ih =>
    unfold memReadWords
    exact ih (form_memRead h)

theorem form_memLoad {m n addr len} (h : Form s) : Form (memLoad s m n addr len).2 := by
  unfold memLoad
  extract_lets r
  have hr : Form r.2 := form_memReadWords h
  split
  · exact hr
  · exact hr

/-! ### Responses (16 R363) -/

theorem form_answer {who} {x : MemAns} (h : Form x.st) : Form (answer who x) := by
  unfold answer
  exact form_with h

/-! ### Data caches (08 R195, 10 R226, R230) -/

theorem form_cacheCe {n k inst} (h : Form s) : Form (cacheCe s n k inst) := form_raise (form_fsat h)

theorem form_cacheUe {n k inst} (h : Form s) : Form (cacheUe s n k inst) := form_raise (form_fsat h)

theorem form_flushLineOf {n line k} (h : Form s) : Form (flushLineOf n line s k) := by
  unfold flushLineOf
  extract_lets y s1
  have hs1 : Form s1 := form_putAcu h
  split
  · exact h
  · refine form_ite ?_ hs1
    refine form_foldl ?_ hs1
    intro _ _ a
    extract_lets d
    split
    · exact form_memPut a
    · exact form_memPut (form_cacheCe a)
    · exact form_memPut (form_cacheUe a)

theorem form_flushLine {n line} (h : Form s) : Form (flushLine s n line) := form_foldl (fun _ _ ht => form_flushLineOf ht) h

theorem form_flushBank {n b} (h : Form s) : Form (flushBank s n b) :=
  form_foldl (fun _ _ ht => form_foldl (fun _ _ hu => form_flushLineOf hu) ht) h

/-! ### The staging memory (10 R225-R231) -/

theorem form_stgServe {n al req} (h : Form s) : Form (stgServe s n al req).st := by
  unfold stgServe
  extract_lets len lines s1 r
  have hs1 : Form s1 := form_foldl (fun _ _ ht => form_flushLine ht) h
  have hr : Form r.2 := form_memWrite hs1
  split
  · exact hr
  · split
    · next he =>
      exact form_snd (form_memLoad hs1) he
    · next he =>
      exact form_snd (form_memLoad hs1) he

theorem form_stgNonOwner {n b req} (h : Form s) : Form (stgNonOwner s n b req).st := form_raise h

theorem form_stgPast {n al req y} (h : Form s) : InSome (fun p => Form p.st) (stgPast s n al req y) := by
  unfold stgPast
  split
  · exact form_stgServe h
  · exact form_stgNonOwner h
  · trivial

/-! ### The record store (10 R233, R234) -/

theorem form_recPast {n req} (h : Form s) : Form (recPast s n req).st := by
  unfold recPast
  split
  · exact form_memWrite h
  · split
    · next he =>
      exact form_snd (form_memLoad h) he
    · next he =>
      exact form_snd (form_memLoad h) he

end Sys2Proof.Machine
end

section
/-! What the functions of Sys2Proof/Machine/Net.lean answer is in canonical form. -/

namespace Sys2Proof.Machine

variable {s : Block}

/-! ### Flits (16 R363, R364) -/

theorem form_respond {f} {x : MemAns} (h : Form x.st) : Form (respond f x) := by
  unfold respond
  exact form_with h

theorem form_respondAck {f code} (h : Form s) : Form (respondAck s f code) := form_with h

/-! ### Endpoints and router tables (16 R365, R373, R374) -/

theorem form_putRouter {n r x} (h : Form s) : Form (putRouter s n r x) := form_with h

theorem form_noRouteRaise {n r} (h : Form s) : Form (noRouteRaise s n r) := by
  unfold noRouteRaise
  exact form_ite h (form_raise (form_putRouter h))

/-! ### Time limits (16 R370) -/

theorem form_nocRecord {n code src dst dnode addr} (h : Form s) : Form (nocRecord s n code src dst dnode addr) := by
  unfold nocRecord
  exact form_ite h (form_rput (form_rput (form_rput h)))

theorem form_expired {n e dst dnode addr via} (h : Form s) : Form (expired s n e dst dnode addr via) :=
  form_nocRecord (form_raiseVia h)

theorem form_timedOut {n e dst dnode addr via} (h : Form s) : Form (timedOut s n e dst dnode addr via) :=
  form_expired (form_atTime h)

theorem form_netEnd {n e ep addr} (h : Form s) : InSome (fun p => Form p.2) (netEnd s n e ep addr) := by
  unfold netEnd
  split
  · trivial
  · exact form_noRouteRaise h
  · exact form_timedOut h

theorem form_lostThere {n y} (h : Form s) : InSome Form (lostThere s n y) := by
  unfold lostThere
  split
  · exact form_raise h
  · trivial

theorem form_lostBack {n y} (h : Form s) : InSome Form (lostBack s n y) := by
  unfold lostBack
  split
  · exact form_fsat h
  · exact form_raise h
  · trivial

theorem form_overNet {n way ones} {out : Block → Block} {act : Block → Option MemAns} (h : Form s)
    (hout : ∀ s, Form s → Form (out s)) (hact : ∀ s, Form s → InSome (fun p => Form p.st) (act s)) :
    InSome (fun p => Form p.st) (overNet s n way ones out act) := by
  unfold overNet
  split
  · next he =>
    exact hout _ ((form_lostThere h).of_eq he)
  · refine (hact _ h).map ?_
    intro _ a1
    split
    · next he1 =>
      exact hout _ ((form_lostBack a1).of_eq he1)
    · exact a1

theorem form_overNet1 {n way ones} {out : Block → Block} {act : Block → MemAns} (h : Form s) (hout : ∀ s, Form s → Form (out s))
    (hact : ∀ s, Form s → Form (act s).st) :
    Form (overNet1 s n way ones out act).st := by
  have hsome : ∀ s, Form s → InSome (fun p => Form p.st) (some (act s)) := hact
  exact (form_overNet h hout hsome).getD h

/-! ### Bridges (16 R368, R375, R376) -/

theorem form_setBridge {n d v} (h : Form s) : Form (setBridge s n d v) := form_fput h

theorem form_epMem {f own req} (h : Form s) : InSome (fun p => Form p.st) (epMem s f own req) := by
  unfold epMem
  exact inSome_ite (inSome_ite h (inSome_ite h (form_stgPast h))) (inSome_ite (inSome_ite h (form_recPast h)) h)

theorem form_holdReq {f d req} (h : Form s) : Form (holdReq s f d req) := by
  unfold holdReq
  exact form_with h

theorem form_memForward {f own req} (h : Form s) : Form (memForward s f own req) := by
  unfold memForward
  split
  · next he =>
    exact form_respond ((form_epMem h).of_eq he)
  · exact form_holdReq h

theorem form_releaseReqs {m d} (h : Form s) : Form (releaseReqs s m d) := by
  unfold releaseReqs
  exact form_foldl (fun _ _ ht => form_memForward ht) (form_with h)

theorem form_wakeDomain {n d} (h : Form s) : Form (wakeDomain s n d) := by
  unfold wakeDomain
  extract_lets s1 s2 y
  have hs1 : Form s1 := form_setBridge h
  have hs2 : Form s2 := form_ite hs1 (form_releaseReqs hs1)
  exact form_ite (form_setBridge (form_putPow hs2)) hs2

theorem form_memDeliver {f d req} (h : Form s) : Form (memDeliver s f d req) := by
  unfold memDeliver
  exact form_ite (form_ite (form_holdReq h) (form_memForward h))
      (form_ite (form_respond h) (form_ite (form_memForward (form_setBridge h)) (form_holdReq h)))

theorem form_domAccess {n d} (h : Form s) : InSome Form (domAccess s n d) := by
  unfold domAccess
  exact inSome_ite h (inSome_ite trivial (inSome_ite (form_setBridge h) (form_wakeDomain (form_atTime h))))

theorem form_pwrOffAns {req} (h : Form s) : Form (pwrOffAns s req).st := form_with h

end Sys2Proof.Machine
end

section
/-! What the functions of Sys2Proof/Machine/Store.lean answer is in canonical form. -/

namespace Sys2Proof.Machine

variable {s : Block}

/-! ### The staging memory (10 R225-R232) -/

theorem form_stgOwned {n e req} (h : Form s) : Form (stgOwned s n e req).st := by
  unfold stgOwned
  split
  · next he =>
    exact (form_netEnd h).of_eq he
  · split
    · exact h
    · split
      · exact form_pwrOffAns h
      · next he1 =>
        exact form_stgServe ((form_domAccess h).of_eq he1)

theorem form_stgReq {n m al req} (h : Form s) : InSome (fun p => Form p.st) (stgReq s n m al req) := by
  unfold stgReq
  extract_lets b
  refine inSome_ite h ?_
  split
  · next he =>
    exact (form_netEnd h).of_eq he
  · refine inSome_ite h ?_
    refine inSome_ite h ?_
    split
    · exact form_pwrOffAns h
    · next he1 =>
      exact form_stgPast ((form_domAccess h).of_eq he1)

theorem form_stgWaits {n} (h : Form s) : Form (stgWaits s n) := (form_domAccess h).getD h

theorem form_stagingAccess {n m al req} (h : Form s) : Form (stagingAccess n m al req s) := by
  unfold stagingAccess
  extract_lets ep out s1
  have hout : ∀ (s : Block), Form s → Form (out s) := fun _ ht => form_timedOut ht
  have hs1 : Form s1 := form_stgWaits h
  split
  · next he =>
    exact form_answer ((form_overNet h hout (fun _ ht => form_stgReq ht)).of_eq he)
  · exact form_with hs1

theorem form_stgReject {n} (h : Form s) : Form (stgReject s n) := form_fset h

theorem form_ownerWrite {n b o} (h : Form s) : Form (ownerWrite n b o s) :=
  form_ite (form_fput h) (form_ite (form_stgReject h) (form_ite h (form_fput (form_fput h))))

theorem form_releaseHeld {n b} (h : Form s) : Form (releaseHeld s n b) := by
  unfold releaseHeld
  extract_lets mine s1
  have hs1 : Form s1 := form_with h
  refine form_foldl ?_ hs1
  intro _ _ a
  split
  · next he =>
    exact form_ite (form_fsat ((form_stgPast a).of_eq he)) (form_answer ((form_stgPast a).of_eq he))
  · exact a

theorem form_handoverCommit {n b} (h : Form s) : Form (handoverCommit n b s) := by
  unfold handoverCommit
  exact form_ite (form_releaseHeld (form_fput (form_fput (form_flushBank h)))) h

theorem form_checkWindow {m n base} (h : Form s) : Form (checkWindow m n base s) := by
  unfold checkWindow
  refine form_foldl ?_ h
  intro _ _ a
  split
  · exact a
  · exact form_memCe a
  · exact form_memUe a

theorem form_stgTestWindow {n fails yielded} (h : Form s) : Form (stgTestWindow n fails yielded s) := by
  unfold stgTestWindow
  exact form_ite (form_fset (form_foldl (fun _ _ ht => form_ite (form_raise (form_checkWindow ht)) (form_checkWindow ht)) h)) h

theorem form_clearStaging {n} (h : Form s) : Form (clearStaging s n) := by
  unfold clearStaging
  exact form_foldl (fun _ _ ht => form_rput ht) (form_with { h with stg := mdrop_wf _ _ _ _ h.stg })

/-! ### The record store (10 R233, R234) -/

theorem form_recReq {n e req} (h : Form s) : Form (recReq s n e req).st := by
  unfold recReq
  split
  · exact h
  · split
    · next he =>
      exact (form_netEnd h).of_eq he
    · split
      · exact h
      · split
        · exact form_pwrOffAns h
        · next he1 =>
          exact form_recPast ((form_domAccess h).of_eq he1)

theorem form_recWrites {n e k k1 l} (h : Form s) : Form (recWrites n e k k1 l s) := by
  induction k generalizing n e k1 l s with
  | zero =>
    exact h
  | succ k ih =>
    unfold recWrites
    exact form_ite h (ih (form_recReq h))

theorem form_recReads {n e k k1 k2} (h : Form s) : Form (recReads n e k k1 k2 s).2 := by
  induction k generalizing n e k1 k2 s with
  | zero =>
    exact h
  | succ k ih =>
    unfold recReads
    split
    · exact h
    · exact ih (form_recReq h)

theorem form_recordStoreAccess {n m req} (h : Form s) : Form (recordStoreAccess n m req s) := by
  unfold recordStoreAccess
  exact form_answer (form_overNet1 h (fun _ ht => form_timedOut ht) (fun _ ht => form_recReq ht))

theorem form_recScrubStep {n} (h : Form s) : Form (recScrubStep n s) := by
  unfold recScrubStep
  exact form_ite (form_with (form_ite (form_fwrap (form_memReadWords h)) (form_memReadWords h))) h

theorem form_clearRecord {n} (h : Form s) : Form (clearRecord s n) :=
  form_fset (form_with { h with record := mdrop_wf _ _ _ _ h.record })

theorem form_recClearDone {n} (h : Form s) : Form (recClearDone n s) := form_fset h

/-! ### Rings (10 R235-R237) -/

theorem form_setRingCount {n r v} (h : Form s) : Form (setRingCount s n r v) := form_rput (form_rput h)

theorem form_ringPut {n r e k l} (h : Form s) : Form (ringPut n r e k l s) := by
  induction k generalizing n r e l s with
  | zero =>
    exact h
  | succ k ih =>
    unfold ringPut
    exact form_ite h (ih (form_setRingCount (form_recWrites h)))

theorem form_ringTook {n r k} (h : Form s) : Form (ringTook s n r k) := form_ite (form_with h) h

theorem form_ringAppend {n r w bs} (h : Form s) : Form (ringAppend s n r w bs).2 := by
  unfold ringAppend
  split
  · exact form_ringTook (form_ringPut h)
  · exact h

theorem form_ringFire {n r bit} (h : Form s) : Form (ringFire s n r bit) := by
  unfold ringFire
  exact form_ite (form_with (form_fput h)) h

theorem form_ringTrigger {n r} (h : Form s) : Form (ringTrigger n r s) := form_ringFire h

theorem form_ringFreeze {n r} (h : Form s) : Form (ringFreeze n r s) := form_ite (form_fput h) h

theorem form_ringThaw {n r} (h : Form s) : Form (ringThaw n r s) := by
  unfold ringThaw
  exact form_with (form_fput (form_fput h))

theorem form_recReject {n} (h : Form s) : Form (recReject s n) := form_fset h

theorem form_ringEn {n r en} (h : Form s) : Form (ringEn n r en s) := by
  unfold ringEn
  split
  · exact form_setRingCount (form_fput (form_fput h))
  · exact form_fput (form_fput h)
  · exact h

theorem form_ringDrainDone {n r} (h : Form s) : Form (ringDrainDone n r s) := form_ite (form_fput h) h

theorem form_ringAreaWrite {n r w} (h : Form s) : Form (ringAreaWrite s n r w) := by
  unfold ringAreaWrite
  exact form_ite (form_recReject h) (form_rput h)

end Sys2Proof.Machine
end

section
/-! What the functions of Sys2Proof/Machine/AcuCtl.lean answer is in canonical form. -/

namespace Sys2Proof.Machine

variable {s : Block}

theorem form_acuReject {n k} (h : Form s) : Form (acuReject s n k) := form_fput h

theorem form_abandonInstr {n k k1} (h : Form s) : Form (abandonInstr s n k k1) := by
  unfold abandonInstr
  extract_lets s1 y s2 g
  have hs1 : Form s1 := form_unserve h
  have hs2 : Form s2 := by
    unfold s2
    split
    · exact form_ite (form_putAcu hs1) hs1
    · exact hs1
  split
  · exact form_ite (form_putGang hs2) hs2
  · exact hs2

theorem form_startTask {n k k1} (h : Form s) : Form (startTask s n k k1) := by
  unfold startTask
  exact form_setRun (form_fput (form_fput (form_fput h)))

theorem form_stopTask {n k k1} (h : Form s) : Form (stopTask s n k k1) := form_abandonInstr (form_fput (form_fput h))

theorem form_taskEn {n k k1 en} (h : Form s) : Form (taskEn s n k k1 en) := by
  unfold taskEn
  exact form_ite (form_ite (form_startTask h) h) (form_ite (form_stopTask h) h)

theorem form_taskEnWrite {n x k en} (h : Form s) : Form (taskEnWrite n x k en s) := form_taskEn h

theorem form_taskDrainDone {n x k} (h : Form s) : Form (taskDrainDone n x k s) := form_ite (form_setRun (form_fput h)) h

theorem form_acuIpi {n x w} (h : Form s) : Form (acuIpi n x w s) := form_foldl (fun _ _ ht => form_ite (form_irqAcu ht) ht) h

theorem form_acuBell {n x w} (h : Form s) : Form (acuBell n x w s) := form_irqAcu (form_rput h)

theorem form_ramTestWindow {n x fails yielded} (h : Form s) : Form (ramTestWindow n x fails yielded s) := by
  unfold ramTestWindow
  exact form_ite (form_fput (form_ite (form_raise h) h)) h

theorem form_patrolEn {n en st inst v} (h : Form s) : Form (patrolEn s n en st inst v) := form_drainDone (form_enWrite h)

end Sys2Proof.Machine
end

section
/-! What the functions of Sys2Proof/Machine/Gang.lean answer is in canonical form. -/

namespace Sys2Proof.Machine

variable {s : Block}

/-! ### States and causes -/

theorem form_setGState {n g v} (h : Form s) : Form (setGState s n g v) := form_fput h

theorem form_millReject {n} (h : Form s) : Form (millReject s n) := form_fset h

/-! ### The stream -/

theorem form_clearResume {n g} (h : Form s) : Form (clearResume s n g) := form_fput (form_fput (form_fput h))

theorem form_putOpRegs {n g r w} (h : Form s) : Form (putOpRegs s n g r w) := form_foldl (fun _ _ ht => form_rput ht) h

theorem form_holdResume {n g m kind cur} (h : Form s) : Form (holdResume s n g m kind cur) := by
  unfold holdResume
  exact form_fput (form_fput (form_fput (form_putOpRegs h)))

theorem form_releaseSlots {gk num} (h : Form s) : Form (releaseSlots s gk num) := form_with h

theorem form_tileDrop {tk num ph} (h : Form s) : Form (tileDrop tk num ph s) := by
  unfold tileDrop
  exact form_ite (form_putTile h) (form_putTile h)

theorem form_dropFromTiles {tiles num ph} (h : Form s) : Form (dropFromTiles s tiles num ph) :=
  form_foldl (fun _ _ ht => form_tileDrop ht) h

/-! ### Entering STOPPED and OFF -/

theorem form_enterStopped {n g c src} (h : Form s) : Form (enterStopped s n g c src) := by
  unfold enterStopped
  exact form_irqAcu (form_fput (form_setGState (form_putGang h)))

/-! ### Acceptance (06 R152, 04 R120) -/

theorem form_acceptOp {n g w} (h : Form s) : Form (acceptOp s n g w) := by
  unfold acceptOp
  extract_lets y num f cls e reason s1 m s2 s3 s4 s5
  have hs1 : Form s1 := form_setGState h
  have hs2 : Form s2 := form_putGang hs1
  have hs3 : Form s3 := form_fput (form_fput hs2)
  have hs4 : Form s4 := form_putOpRegs hs3
  have hs5 : Form s5 := form_raise hs4
  exact form_ite (form_putGang hs1) (form_ite (form_enterStopped hs5) hs5)

theorem form_millraceAccept {n g} (h : Form s) : Form (millraceAccept n g s) := by
  unfold millraceAccept
  split
  · exact h
  · exact form_ite (form_commit (form_gprPut (form_acceptOp (form_putGang h)))) h

/-! ### Retirement (06 R152) -/

theorem form_gatherFlags {n g f} (h : Form s) : Form (gatherFlags s n g f) := form_rput h

theorem form_fpTrap {n g m} (h : Form s) : Form (fpTrap s n g m) := by
  unfold fpTrap
  extract_lets f te s1 s2 s3 src
  have hs1 : Form s1 := form_fput (form_fput h)
  have hs2 : Form s2 := form_fput hs1
  have hs3 : Form s3 := form_irqAcu hs2
  exact form_ite h (form_ite (form_fput (form_fput h)) (form_ite (form_putGang hs3) hs3))

theorem form_croakReturn {n g m} (h : Form s) : Form (croakReturn s n g m) := by
  unfold croakReturn
  split
  · exact form_ite (form_putGang (form_put64 h)) h
  · exact h

theorem form_retireEffects {n g m} (h : Form s) : Form (retireEffects s n g m) := by
  unfold retireEffects
  extract_lets f s1 s2 s3 s4 y s5 s6
  have hs1 : Form s1 := form_ite h (form_gatherFlags h)
  have hs2 : Form s2 := form_fpTrap hs1
  have hs3 : Form s3 := form_croakReturn hs2
  have hs4 : Form s4 := form_releaseSlots hs3
  have hs5 : Form s5 := form_putGang hs4
  have hs6 : Form s6 := form_fwrap hs5
  exact form_ite (form_putGang hs6) hs6

theorem form_afterRetire {n g} (h : Form s) : Form (afterRetire s n g) := by
  unfold afterRetire
  extract_lets y
  refine form_ite ?_ h
  split
  · exact form_enterStopped h
  · exact form_setGState h

theorem form_macroOpRetire {n g} (h : Form s) : Form (macroOpRetire n g s) := by
  unfold macroOpRetire
  split
  · exact h
  · exact form_ite (form_afterRetire (form_retireEffects h)) h

/-! ### Undefined results (03 R79, R88; 02 R38; 06 R161) -/

theorem form_undefResult {tiles m mf} (h : Form s) : Form (undefResult s tiles m mf) := by
  unfold undefResult
  exact form_foldl (fun _ _ ht => form_clobber (form_foldl (fun _ _ hu => form_undefine hu) ht)) h

/-! ### The fault stop (06 R161) -/

theorem form_retirePrefix {n g tiles} (h : Form s) : Form (retirePrefix s n g tiles) :=
  form_foldl (fun _ _ ht => form_retireEffects ht) h

theorem form_faultLose {n g tiles failed m} (h : Form s) : Form (faultLose s n g tiles failed m) := by
  unfold faultLose
  extract_lets s1 s2
  have hs1 : Form s1 := form_dropFromTiles h
  have hs2 : Form s2 := form_releaseSlots hs1
  exact form_ite hs2 (form_ite (form_undefResult hs2) (form_ite hs2 (form_undefResult hs2)))

theorem form_faultStop {n g failed src} (h : Form s) : Form (faultStop s n g failed src) := by
  unfold faultStop
  extract_lets st tiles s1 rest s2 src1 s3 s4
  have hs1 : Form s1 := form_retirePrefix h
  have hs2 : Form s2 := form_foldl (fun _ _ ht => form_faultLose ht) hs1
  have hs3 : Form s3 := form_putGang hs2
  have hs4 : Form s4 := form_clearResume hs3
  exact form_ite h (form_ite hs4 (form_enterStopped hs4))

theorem form_faultStopTile {tk src} (h : Form s) : Form (faultStopTile s tk src) := by
  unfold faultStopTile
  split
  · exact form_faultStop h
  · exact h

/-! ### Stop requests (06 R159) -/

theorem form_withdraw {n g frontier} (h : Form s) : Form (withdraw s n g frontier) := by
  unfold withdraw
  exact form_putGang (form_foldl (fun _ _ ht => form_putTile ht) h)

theorem form_stopRequest {n g c} (h : Form s) : Form (stopRequest s n g c) := by
  unfold stopRequest
  extract_lets st y c'
  refine form_ite (form_enterStopped h) ?_
  refine form_ite ?_ h
  split
  · exact form_enterStopped (form_withdraw h)
  · exact form_setGState (form_withdraw (form_putGang h))

theorem form_discardAll {n g} (h : Form s) : Form (discardAll s n g) := by
  unfold discardAll
  exact form_clearResume (form_putGang (form_foldl (fun _ _ ht => form_releaseSlots ht) h))

theorem form_abortStop {n g} (h : Form s) : Form (abortStop s n g) := by
  unfold abortStop
  extract_lets st y s1 s2
  have hs1 : Form s1 := form_discardAll h
  have hs2 : Form s2 := form_stopRequest h
  exact form_ite (form_putGang h) (form_ite (form_ite hs1 (form_fput hs1)) (form_ite (form_discardAll hs2) hs2))

/-! ### Delivery, waves and dispatch (06 R149-R154, 03 R71) -/

theorem form_macroOpDelivery {n g tn t} (h : Form s) : Form (macroOpDelivery n g tn t s) := by
  unfold macroOpDelivery
  extract_lets tk tiles y ti
  split
  · exact h
  · refine form_ite ?_ h
    split
    · exact form_faultStop (form_raise h)
    · exact form_putGang (form_putTile h)

theorem form_coldWaveRelease {n g} (h : Form s) : Form (coldWaveRelease n g s) := by
  unfold coldWaveRelease
  extract_lets cold s1 src s2
  have hs1 : Form s1 := by
    unfold s1
    split
    · exact form_atTime h
    · exact h
  have hs2 : Form s2 := form_putGang hs1
  exact form_ite h (form_foldl (fun _ _ ht => form_putTile ht) hs2)

theorem form_reportDone {n g num tk} (h : Form s) : Form (reportDone s n g num tk) := by
  unfold reportDone
  extract_lets y
  split
  · exact form_putGang h
  · exact h

/-! ### Yield decisions and the end of a stop (03 R76, R77; 06 R159, R162) -/

theorem form_unpark {tiles num below} (h : Form s) : Form (unpark s tiles num below) := by
  unfold unpark
  exact form_foldl (fun _ _ ht => form_ite (form_putTile ht) ht) h

theorem form_yieldDecision {n g} (h : Form s) : Form (yieldDecision n g s) := by
  unfold yieldDecision
  extract_lets y st tiles
  refine form_ite h ?_
  split
  · exact h
  · refine form_ite (form_putGang h) ?_
    exact form_ite (form_ite (form_putGang h) (form_putGang h))
        (form_ite (form_ite (form_unpark (form_putGang h)) (form_unpark (form_putGang h))) h)

theorem form_letGo {tiles num kind} (h : Form s) : Form (letGo s tiles num kind) := by
  unfold letGo
  exact form_ite (form_foldl (fun _ _ ht => form_clobber ht) (form_dropFromTiles h)) (form_dropFromTiles h)

theorem form_stopComplete {n g} (h : Form s) : Form (stopComplete n g s) := by
  unfold stopComplete
  extract_lets y tiles
  split
  · refine form_ite h ?_
    extract_lets c1 fin
    have hfin : ∀ (s : Block), Form s → Form (fin s) := fun _ ht => form_ite (form_discardAll (form_enterStopped ht))
        (form_enterStopped ht)
    split
    · exact hfin _ h
    · refine form_ite (hfin _ h) ?_
      refine form_ite ?_ h
      split
      · exact h
      · extract_lets s1 s2 old s3 src held s4
        have hs1 : Form s1 := form_letGo h
        have hs2 : Form s2 := form_ite hs1 (form_gatherFlags hs1)
        have hs3 : Form s3 := form_releaseSlots hs2
        have hs4 : Form s4 := form_putGang hs3
        exact hfin _ (form_holdResume hs4)
  · exact h

theorem form_startDrain {n g} (h : Form s) : Form (startDrain s n g) := by
  unfold startDrain
  extract_lets st src tiles gone s1 fr y s2 s3 s4
  have hs1 : Form s1 := form_foldl (fun _ _ ht => form_releaseSlots (form_dropFromTiles ht)) h
  have hs2 : Form s2 := form_putGang hs1
  have hs3 : Form s3 := form_clearResume hs2
  have hs4 : Form s4 := form_ite (form_fput hs3) hs3
  exact form_ite (form_putGang h) (form_fput (form_setGState hs4))

theorem form_gangDrainDone {n g} (h : Form s) : Form (gangDrainDone n g s) := by
  unfold gangDrainDone
  extract_lets y tiles off
  have hoff : ∀ (s : Block), Form s → Form (off s) := fun _ ht => form_irqAcu (form_setGState (form_putGang ht))
  refine form_ite h ?_
  split
  · exact hoff _ h
  · split
    · exact h
    · exact hoff _ (form_putGang (form_releaseSlots (form_ite (form_gatherFlags (form_letGo h)) (form_letGo h))))
  · exact h

/-! ### Resume (06 R160, 04 R119) -/

theorem form_resumeGang {n g} (h : Form s) : Form (resumeGang s n g) := by
  unfold resumeGang
  exact form_ite (form_setGState (form_fput (form_clearResume h))) (form_millReject h)

theorem form_discardHeld {n g} (h : Form s) : Form (discardHeld s n g) := by
  unfold discardHeld
  refine form_ite ?_ (form_millReject h)
  refine form_ite ?_ h
  split
  · exact form_clearResume (form_putGang h)
  · exact form_clearResume h

end Sys2Proof.Machine
end

section
/-! What the functions of Sys2Proof/Machine/AcuTrap.lean answer is in canonical form. -/

namespace Sys2Proof.Machine

variable {s : Block}

theorem form_trapReg {n k k1 curw i v} (h : Form s) : Form (trapReg s n k k1 curw i v) := form_slotPut h

theorem form_enterTrap {n k k1 cause pc w11} (h : Form s) : Form (enterTrap s n k k1 cause pc w11) := by
  unfold enterTrap
  extract_lets s1 w c s2 s3 s4 s5 s6 s7 s8
  have hs1 : Form s1 := form_unserve h
  have hs2 : Form s2 := form_trapReg hs1
  have hs3 : Form s3 := form_trapReg hs2
  have hs4 : Form s4 := form_trapReg hs3
  have hs5 : Form s5 := by
    unfold s5
    split
    · exact form_trapReg hs4
    · exact hs4
  have hs6 : Form s6 := form_pswPut hs5
  have hs7 : Form s7 := form_pswPut hs6
  have hs8 : Form s8 := form_pswPut hs7
  exact form_setRun (form_setPc hs8)

theorem form_preciseTrap {n k k1 cause w11} (h : Form s) : Form (preciseTrap s n k k1 cause w11) := by
  unfold preciseTrap
  exact form_ite (form_fput (form_setRun (form_raise h))) (form_enterTrap h)

/-! ### Pending causes (08 R181) -/

theorem form_causeTaken {n k k1 cause} (h : Form s) : Form (causeTaken s n k k1 cause) := by
  unfold causeTaken
  exact form_ite (form_with h) (form_ite (form_stopRequest (form_rput h)) (form_rput h))

theorem form_fbarFirst {n k k1} (h : Form s) : Form (fbarFirst s n k k1) := form_ite (form_commit h) h

theorem form_trapEntry {n x k} (h : Form s) : Form (trapEntry n x k s) := by
  unfold trapEntry
  extract_lets run s1
  have hs1 : Form s1 := form_abandonInstr (form_fbarFirst h)
  refine form_ite ?_ h
  split
  · exact h
  · exact form_causeTaken (form_enterTrap hs1)

end Sys2Proof.Machine
end

section
/-! What the functions of Sys2Proof/Machine/Newt.lean answer is in canonical form. -/

namespace Sys2Proof.Machine

variable {s : Block}

/-! ### Plane rows: errors and writes -/

theorem form_recordErrAddr {tk ue col row addr} (h : Form s) : Form (recordErrAddr s tk ue col row addr) := by
  unfold recordErrAddr
  exact form_ite h (form_rput h)

theorem form_planeCe {tk row addr col} (h : Form s) : Form (planeCe s tk row addr col) := by
  unfold planeCe
  exact form_recordErrAddr (form_fsat (form_raise h))

theorem form_planeUe {tk row addr} (h : Form s) : Form (planeUe s tk row addr) := by
  unfold planeUe
  exact form_recordErrAddr (form_fsat (form_raise h))

theorem form_metCe {tk row addr col} (h : Form s) : Form (metCe s tk row addr col) := by
  unfold metCe
  exact form_ite h (form_ite (form_putTile (form_planeCe h)) (form_planeCe h))

theorem form_readRow {tk row addr} (h : Form s) : Form (readRow s tk row addr).2.2 := by
  unfold readRow
  extract_lets d
  split
  · exact h
  · exact form_metCe h
  · exact form_planeUe h

theorem form_rowWritten {tk row addr} (h : Form s) : Form (rowWritten s tk row addr) := by
  unfold rowWritten
  exact form_ite h (form_putTile h)

theorem form_writeRow {tk row addr d} (h : Form s) : Form (writeRow s tk row addr d) := form_rowWritten (form_rowPut h)

theorem form_maskedWrite {tk row addr mask d} (h : Form s) : Form (maskedWrite s tk row addr mask d).2 := by
  unfold maskedWrite
  split
  · exact form_writeRow h
  · extract_lets r old
    have hr : Form r.2.2 := form_readRow h
    split
    · exact hr
    · exact form_writeRow hr

/-! ### Stores (03 R69, R86-R90) -/

theorem form_dropWb {tk store addr} (h : Form s) : Form (dropWb s tk store addr) := by
  unfold dropWb
  exact form_ite h (form_putTile h)

theorem form_storePut {tk store addr w} (h : Form s) : Form (storePut s tk store addr w) := by
  unfold storePut
  exact form_with (form_dropWb h)

theorem form_storePutAll {n store addr w} (h : Form s) : Form (storePutAll s n store addr w) := by
  unfold storePutAll
  exact form_with (form_foldl (fun _ _ ht => form_dropWb ht) h)

theorem form_recordStoreErr {tk ue store addr} (h : Form s) : Form (recordStoreErr s tk ue store addr) := by
  unfold recordStoreErr
  exact form_ite h (form_rput h)

theorem form_storeCe {tk store addr w} (h : Form s) : Form (storeCe s tk store addr w) := by
  unfold storeCe
  exact form_putTile (form_fsat (form_raise (form_recordStoreErr h)))

theorem form_storeUe {tk store addr} (h : Form s) : Form (storeUe s tk store addr) := by
  unfold storeUe
  exact form_fput (form_fsat (form_raise (form_recordStoreErr h)))

theorem form_fetchStore {tk store addr} (h : Form s) : Form (fetchStore s tk store addr).2 := by
  unfold fetchStore
  extract_lets d
  split
  · exact h
  · split
    · exact h
    · exact form_storeCe h
  · exact form_storeUe h

/-! ### The PEs of a tile row in one cycle (02 R26-R29) -/

theorem form_putRowRegs {tk row r} (h : Form s) : Form (putRowRegs s tk row r) :=
  form_pePut (form_pePut (form_pePut (form_pePut (form_pePut h))))

/-! ### Neighbour exchange (02 R41-R47) -/

theorem form_sendStep {r m tk d} (h : Form s) : Form (sendStep s r m tk d) := by
  unfold sendStep
  exact form_putTile h

theorem form_takeStep {r m tk d} (h : Form s) : Form (takeStep s r m tk d) := by
  unfold takeStep
  exact form_putTile h

/-! ### One tile cycle (03 R59) -/

theorem form_waitFor {tk w} (h : Form s) : Form (waitFor s tk w) := by
  unfold waitFor
  exact form_putTile h

theorem form_cycleWait {n g m tk w} (h : Form s) : Form (cycleWait s n g m tk w).2 := by
  unfold cycleWait
  extract_lets t r s1
  have hs1 : Form s1 := form_ite h (form_sendStep h)
  split
  · exact h
  · split
    · exact h
    · split
      · exact h
      · split
        · exact h
        · split
          · split
            · exact h
            · split
              · exact hs1
              · exact hs1
          · exact h

theorem form_peRow {w tk pa qa wa d bits old} {acc : Bool × DWord × Block} {row} (h : Form acc.2.2) :
    Form (peRow w tk pa qa wa d bits old acc row).2.2 := by
  unfold peRow
  extract_lets s rp rq r p q st term wr
  have hs : Form s := h
  have hrp : Form rp.2.2 := by
    unfold rp
    split
    · exact form_readRow hs
    · exact hs
  have hrq : Form rq.2.2 := by
    unfold rq
    split
    · exact form_readRow hrp
    · exact hrp
  have hwr : Form wr.2 := by
    unfold wr
    split
    · exact hrq
    · exact form_maskedWrite hrq
  exact form_putRowRegs hwr

theorem form_tileEnd {tk} (h : Form s) : Form (tileEnd s tk) := by
  unfold tileEnd
  exact form_putTile h

theorem form_tileRan {tk} (h : Form s) : Form (tileRan s tk) := by
  unfold tileRan
  exact form_putTile h

theorem form_tileAbandon {tk} (h : Form s) : Form (tileAbandon s tk) := form_clobber (form_tileEnd h)

theorem form_tilePark {n g m tk} (h : Form s) : Form (tilePark s n g m tk) := by
  unfold tilePark
  extract_lets c src s1
  have hs1 : Form s1 := form_putTile h
  split
  · exact form_putGang hs1
  · exact hs1

theorem form_safePoint {n g m tk} (h : Form s) : Form (safePoint s n g m tk) := by
  unfold safePoint
  refine form_ite h ?_
  refine form_ite ?_ (form_ite (form_tileAbandon h) h)
  split
  · exact form_tilePark h
  · exact form_ite (form_tilePark h) h

theorem form_runCycle {n g m tk u w} (h : Form s) : Form (runCycle s n g m tk u w) := by
  unfold runCycle
  extract_lets r t0 bits rows s1 s2 t quiet g0 g1 g2 g3 cur src t1 s3 s4 s5
  have hrows : Form rows.2.2 := form_foldl_snd_snd (fun _ _ ht => form_peRow ht) h
  have hs1 : Form s1 := hrows
  have hs2 : Form s2 := form_ite (form_takeStep hs1) hs1
  have hs3 : Form s3 := form_putTile hs2
  have hs4 : Form s4 := by
    unfold s4
    split
    · exact form_putGang hs3
    · exact hs3
  have hs5 : Form s5 := form_ite (form_raise (form_putTile hs4)) hs4
  exact form_ite (form_faultStopTile hs1) (form_ite (form_reportDone (form_tileEnd hs5)) (form_ite (form_safePoint hs5) hs5))

theorem form_edgeAgainst {tk} (h : Form s) : Form (edgeAgainst s tk) := form_faultStopTile (form_raise h)

theorem form_illegalWord {tk} (h : Form s) : Form (illegalWord s tk) := form_faultStopTile (form_raise h)

theorem form_tileCycle {tn t} (h : Form s) : Form (tileCycle tn t s) := by
  unfold tileCycle
  extract_lets tk s1 src
  have hs1 : Form s1 := form_putTile h
  split
  · exact h
  · refine form_ite h ?_
    refine form_ite (form_putTile hs1) ?_
    split
    · next he1 =>
      exact form_faultStopTile (form_snd (form_fetchStore hs1) he1)
    · next he1 =>
      extract_lets u ti
      refine form_ite (form_illegalWord (form_snd (form_fetchStore hs1) he1)) ?_
      refine form_ite (form_waitFor (form_snd (form_fetchStore hs1) he1)) ?_
      split
      · next he2 =>
        exact form_faultStopTile (form_snd (form_fetchStore (form_snd (form_fetchStore hs1) he1)) he2)
      · next he2 =>
        extract_lets w
        refine form_ite (form_illegalWord (form_snd (form_fetchStore (form_snd (form_fetchStore hs1) he1)) he2)) ?_
        refine form_ite (form_edgeAgainst (form_snd (form_fetchStore (form_snd (form_fetchStore hs1) he1)) he2)) ?_
        split
        · next he3 =>
          exact form_waitFor (form_snd (form_cycleWait (form_snd (form_fetchStore (form_snd (form_fetchStore hs1) he1)) he2)) he3)
        · next he3 =>
          exact form_runCycle
              (form_snd (form_cycleWait (form_snd (form_fetchStore (form_snd (form_fetchStore hs1) he1)) he2)) he3)

theorem form_nbrSend {tk} (h : Form s) : Form (nbrSend s tk) := by
  unfold nbrSend
  extract_lets t
  refine form_ite ?_ h
  split
  · exact form_ite (form_sendStep h) h
  · exact h

theorem form_newtWaitEnd {tn t} (h : Form s) : Form (newtWaitEnd tn t s) := by
  unfold newtWaitEnd
  exact form_ite (form_putTile (form_nbrSend h)) (form_nbrSend h)

theorem form_finalGate {tn t} (h : Form s) : Form (finalGate tn t s) := by
  unfold finalGate
  extract_lets tk ti
  split
  · exact h
  · exact form_ite (form_ite (form_tileAbandon h) (form_ite (form_putTile h) h)) h

theorem form_exchangeStepArrival {tn t d wrap} (h : Form s) : Form (exchangeStepArrival tn t d wrap s) := by
  unfold exchangeStepArrival
  extract_lets tk
  refine form_ite ?_ ?_
  · split
    · exact h
    · split
      · exact h
      · exact form_putTile (form_putTile h)
  · split
    · exact h
    · split
      · exact h
      · exact form_ite h (form_ite (form_edgeAgainst (form_putTile (form_putTile h))) (form_putTile (form_putTile h)))

theorem form_waitStall {tk src ws} (h : Form s) : Form (waitStall tk src ws s) := by
  unfold waitStall
  extract_lets s1 ti
  have hs1 : Form s1 := form_nbrSend h
  split
  · exact hs1
  · exact form_ite (form_faultStopTile (form_raise (form_atTime hs1))) hs1

theorem form_newtEdgeStall {tn t} (h : Form s) : Form (newtEdgeStall tn t s) := form_waitStall h

theorem form_newtWaitStall {tn t} (h : Form s) : Form (newtWaitStall tn t s) := form_waitStall h

theorem form_croakResultLatch {n g ns} (h : Form s) : Form (croakResultLatch n g ns s) := by
  unfold croakResultLatch
  extract_lets tiles y full
  split
  · exact h
  · exact form_fput (form_fwrap (form_foldl (fun _ _ ht => form_ite (form_putTile ht) ht) (form_putGang h)))

/-! ### Dispatch (03 R71) -/

theorem form_latchSlot {tn gk m} (h : Form s) : Form (latchSlot s tn gk m) := by
  unfold latchSlot
  extract_lets f k was
  refine form_ite ?_ h
  split
  · exact h
  · exact form_with h

theorem form_dispatchNext {tn t} (h : Form s) : Form (dispatchNext tn t s) := by
  unfold dispatchNext
  extract_lets tk ti
  split
  · split
    · exact h
    · refine form_ite ?_ h
      split
      · next he3 =>
        exact form_faultStopTile (form_putGang (form_putTile (form_snd (form_fetchStore h) he3)))
      · next he3 =>
        extract_lets s2 s3 s4
        have hs2 : Form s2 := form_ite (form_clobber (form_snd (form_fetchStore h) he3)) (form_snd (form_fetchStore h) he3)
        have hs3 : Form s3 := form_putTile hs2
        have hs4 : Form s4 := form_putGang hs3
        exact form_latchSlot hs4
  · exact h

end Sys2Proof.Machine
end

section
/-! What the functions of Sys2Proof/Machine/Array.lean answer is in canonical form. -/

namespace Sys2Proof.Machine

variable {s : Block}

/-! ### Running an array op -/

theorem form_abandonOp {n g m} (h : Form s) : Form (abandonOp s n g m) := form_foldl (fun _ _ ht => form_tileAbandon ht) h

theorem form_holdTiles {tiles} (h : Form s) : Form (holdTiles s tiles) := by
  unfold holdTiles
  exact form_foldl (fun _ _ ht => form_ite ht (form_putTile ht)) h

theorem form_holdWheel {tk} (h : Form s) : Form (holdWheel s tk) := by
  unfold holdWheel
  exact form_ite h (form_putTile h)

theorem form_afterOp {n g m tk} (h : Form s) : Form (afterOp s n g m tk) :=
  form_ite (form_undefine (form_undefineFrom h)) (form_clobber h)

theorem form_afterScan {m tk} (h : Form s) : Form (afterScan s m tk) := by
  unfold afterScan
  exact form_ite (form_undefineFrom h) h

theorem form_finishTiles {n g m line flags croak} (h : Form s) : Form (finishTiles s n g m line flags croak) := by
  unfold finishTiles
  exact form_putGang (form_foldl (fun _ _ ht => form_afterScan (form_afterOp (form_tileEnd (form_tileRan ht)))) h)

theorem form_finishOp {n g m flags croak} (h : Form s) : Form (finishOp s n g m flags croak) := form_finishTiles h

theorem form_runOp {opc fl} {body : Block → List ℕ → Mop → Acc × Option ℕ} {n g}
    (hbody : ∀ s x1 x2, Form s → Form (body s x1 x2).1.st) (h : Form s) :
    Form (runOp opc fl body n g s) := by
  unfold runOp
  split
  · exact form_abandonOp h
  · split
    · exact h
    · refine form_ite h ?_
      exact form_ite (form_holdTiles h) (form_ite (form_faultStop (hbody _ _ _ h)) (form_finishOp (hbody _ _ _ h)))

/-! ### Plane cycles of a gang -/

theorem form_everyRow {tiles} {acc : Acc} {step : Acc → ℕ → ℕ → Acc} (h : Form acc.st)
    (hstep : ∀ s x1 x2, Form s.st → Form (step s x1 x2).st) :
    Form (everyRow tiles acc step).st := by
  unfold everyRow
  split
  · exact h
  · exact form_foldl_st (fun _ _ ht => form_foldl_st (fun _ _ hu => hstep _ _ _ hu) ht) h

theorem form_readAll {acc : Acc} {tiles addrs} (h : Form acc.st) : Form (readAll acc tiles addrs).st := by
  unfold readAll
  exact form_foldl_st (fun _ _ ht => form_everyRow ht (fun _ _ _ hu => form_readRow hu)) h

theorem form_readOld {acc : Acc} {tiles addrs mask} (h : Form acc.st) : Form (readOld acc tiles addrs mask).st := by
  unfold readOld
  refine form_foldl_st ?_ h
  intro _ _ a
  refine form_everyRow a ?_
  intro _ _ _ a1
  split
  · exact a1
  · exact form_readRow a1

theorem form_mergeRow {tk row addr mask d} (h : Form s) : Form (mergeRow s tk row addr mask d) :=
  form_ite (form_writeRow h) (form_writeRow h)

theorem form_writeAll {acc : Acc} {tiles addr mask bits} (h : Form acc.st) : Form (writeAll acc tiles addr mask bits).st :=
  form_everyRow (form_readOld h) (fun _ _ _ ht => form_mergeRow ht)

theorem form_writeWords {tk row base mask ws} (h : Form s) : Form (writeWords s tk row base mask ws) :=
  form_foldl (fun _ _ ht => form_mergeRow ht) h

/-! ### Elementwise array ops -/

theorem form_elemRow {pe useD m} {acc : Acc} {tk row} (h : Form acc.st) : Form (elemRow pe useD m acc tk row).st := by
  unfold elemRow
  exact form_pePut (form_ite (form_writeWords h) h)

theorem form_rowsBody {useD} {step : Mop → Acc → ℕ → ℕ → Acc} {tiles m}
    (hstep : ∀ x s1 x2 x3, Form s1.st → Form (step x s1 x2 x3).st) (h : Form s) :
    Form (rowsBody useD step s tiles m).1.st := by
  unfold rowsBody
  extract_lets f acc acc1
  have hacc : Form acc.st := form_readAll h
  have hacc1 : Form acc1.st := by
    unfold acc1
    split
    · exact form_readOld hacc
    · exact hacc
  exact form_everyRow hacc1 (fun _ _ _ ht => hstep _ _ _ _ ht)

theorem form_elemBody {pe useD tiles m} (h : Form s) : Form (elemBody pe useD s tiles m).1.st :=
  form_rowsBody (fun _ _ _ _ ht => form_elemRow ht) h

/-! ### Mask and flag ops (04 R105, R109) -/

theorem form_idleBody {y y1} (h : Form s) : Form (idleBody s y y1).1.st := form_with h

theorem form_clrfRow {m} {acc : Acc} {tk row} (h : Form acc.st) : Form (clrfRow m acc tk row).st := form_pePut h

theorem form_clrfBody {tiles m} (h : Form s) : Form (clrfBody s tiles m).1.st :=
  form_rowsBody (fun _ _ _ _ ht => form_clrfRow ht) h

theorem form_putfRow {m} {acc : Acc} {tk row} (h : Form acc.st) : Form (putfRow m acc tk row).st := by
  unfold putfRow
  exact form_pePut h

theorem form_putfBody {tiles m} (h : Form s) : Form (putfBody s tiles m).1.st :=
  form_rowsBody (fun _ _ _ _ ht => form_putfRow ht) h

theorem form_setmRow {m} {acc : Acc} {tk row} (h : Form acc.st) : Form (setmRow m acc tk row).st := by
  unfold setmRow
  exact form_pePut h

theorem form_setmBody {tiles m} (h : Form s) : Form (setmBody s tiles m).1.st :=
  form_rowsBody (fun _ _ _ _ ht => form_setmRow ht) h

theorem form_getmRow {m} {acc : Acc} {tk row} (h : Form acc.st) : Form (getmRow m acc tk row).st := form_writeRow h

theorem form_getmBody {tiles m} (h : Form s) : Form (getmBody s tiles m).1.st :=
  form_rowsBody (fun _ _ _ _ ht => form_getmRow ht) h

/-! ### Croak ops (04 R112) -/

theorem form_activeVals {tiles f fromF} (h : Form s) : Form (activeVals s tiles f fromF).2.st := by
  unfold activeVals
  extract_lets acc
  have hacc : Form acc.st := form_readAll h
  split
  · exact hacc
  · exact hacc

theorem form_countRounds {n g k} (h : Form s) : Form (countRounds s n g k) := by
  unfold countRounds
  exact form_ite (form_rput h) (form_fput (form_drawFree (form_rput h)))

theorem form_croakBody {n g tiles m} (h : Form s) : Form (croakBody n g s tiles m).1.st := by
  unfold croakBody
  exact form_countRounds (form_activeVals h)

theorem form_cmaxBody {wantMax n g tiles m} (h : Form s) : Form (cmaxBody wantMax n g s tiles m).1.st := by
  unfold cmaxBody
  exact form_countRounds (form_activeVals h)

theorem form_fcmaxBody {wantMax n g tiles m} (h : Form s) : Form (fcmaxBody wantMax n g s tiles m).1.st := by
  unfold fcmaxBody
  exact form_countRounds (form_activeVals h)

theorem form_countBody {n g tiles m} (h : Form s) : Form (countBody n g s tiles m).1.st := by
  unfold countBody
  exact form_countRounds (form_activeVals h)

/-! ### Resumable array ops (04 R113-R118) -/

theorem form_setCursor {tiles c} (h : Form s) : Form (setCursor s tiles c) := by
  unfold setCursor
  exact form_foldl (fun _ _ ht => form_putTile ht) h

theorem form_runResumable {opc fl total} {step : ℕ → ℕ → Mop → ℕ → Acc → Acc} {ready upto n g}
    (hstep : ∀ x x1 x2 x3 s4, Form s4.st → Form (step x x1 x2 x3 s4).st) (h : Form s) :
    Form (runResumable opc fl total step ready upto n g s) := by
  unfold runResumable
  split
  · exact h
  · refine form_ite (form_foldl (fun _ _ ht => form_holdWheel ht) h) ?_
    refine form_ite (form_holdTiles h) ?_
    extract_lets tiles cur top stop r s1 s2
    have hr : Form r.st := by
      unfold r
      refine form_foldl_st ?_ h
      intro _ _ a
      split
      · exact a
      · exact hstep _ _ _ _ _ a
    have hs1 : Form s1 := form_setCursor hr
    have hs2 : Form s2 := form_putGang hs1
    split
    · exact form_faultStop hr
    · exact form_ite (form_finishOp hr) (form_foldl (fun _ _ ht => form_tilePark ht) hs2)

theorem form_copyStep {n g m c} {acc : Acc} (h : Form acc.st) : Form (copyStep n g m c acc).st := by
  unfold copyStep
  exact form_foldl_st (fun _ _ ht => form_writeAll ht) (form_readAll h)

theorem form_winStep {n g m c} {acc : Acc} (h : Form acc.st) : Form (winStep n g m c acc).st := by
  unfold winStep
  exact form_foldl_st (fun _ _ ht => form_writeAll ht) h

/-! ### A.SCAN (04 R114) -/

theorem form_scanStep {n g m c} {acc : Acc} (h : Form acc.st) : Form (scanStep n g m c acc).st := by
  unfold scanStep
  extract_lets f tiles r w k j d acc1 old acc2 old1
  have hacc1 : Form acc1.st := form_readAll h
  have hacc2 : Form acc2.st := form_readAll h
  split
  · exact form_writeAll hacc1
  · exact form_everyRow (form_readOld hacc2) (fun _ _ _ ht => form_writeWords ht)

/-! ### A.BFLY and A.FBFLY (04 R115) -/

theorem form_readRoles {tiles f} {acc : Acc} (h : Form acc.st) : Form (readRoles tiles f acc).st := by
  unfold readRoles
  extract_lets acc1
  have hacc1 : Form acc1.st := form_readAll h
  split
  · exact hacc1
  · exact form_foldl (fun _ _ ht => form_putTile ht) hacc1

theorem form_bflyStep {n g m c} {acc : Acc} (h : Form acc.st) : Form (bflyStep n g m c acc).st := by
  unfold bflyStep
  extract_lets f tiles r w b j src dst dist axisY acc1 first i acc2 old d acc3 out old1
  have hacc1 : Form acc1.st := by
    unfold acc1
    split
    · exact form_readRoles h
    · exact h
  have hacc2 : Form acc2.st := form_readAll hacc1
  have hacc3 : Form acc3.st := form_readAll hacc1
  split
  · exact form_writeAll hacc2
  · exact form_everyRow (form_readOld hacc3) (fun _ _ _ ht => form_writeWords (form_with ht))

/-! ### A.MOVN (04 R116; 02 R44-R47) -/

theorem form_movnBit {m line i} {acc : Acc} (h : Form acc.st) : Form (movnBit m line i acc).st := by
  unfold movnBit
  exact form_writeAll (form_readAll h)

theorem form_movnLoad {m line c} {acc : Acc} (h : Form acc.st) : Form (movnLoad m line c acc).st := by
  unfold movnLoad
  extract_lets acc1 old acc2
  have hacc1 : Form acc1.st := form_readAll h
  have hacc2 : Form acc2.st := form_everyRow hacc1 (fun _ _ _ ht => form_pePut ht)
  split
  · exact hacc1
  · exact form_foldl (fun _ _ ht => form_putTile ht) hacc2

theorem form_movnSend {r m line} (h : Form s) : Form (movnSend r m line s) := by
  unfold movnSend
  exact form_foldl (fun _ _ ht => form_ite (form_putTile ht) ht) h

theorem form_movnShift {r m line} (h : Form s) : Form (movnShift r m line s) := by
  unfold movnShift
  exact form_foldl (fun _ _ ht => form_putTile (form_foldl (fun _ _ hu => form_pePut hu) ht)) h

theorem form_movnCycles {r m line stop k} {y : Acc} (h : Form y.st) : Form (movnCycles r m line stop k y).2.st := by
  induction k generalizing r m line stop y with
  | zero =>
    exact h
  | succ k ih =>
    unfold movnCycles
    extract_lets f d s t c s1 old acc
    have hs : Form s := h
    have hs1 : Form s1 := form_movnSend hs
    have hacc : Form acc.st := form_writeAll h
    split
    · exact h
    · split
      · exact ih (form_movnLoad h)
      · split
        · split
          · exact h
          · split
            · exact h
            · split
              · exact ih (form_movnShift hs1)
              · exact hs1
        · split
          · exact hacc
          · exact ih (form_setCursor hacc)

theorem form_movnRest {n g m line stop top before} (h : Form s) : Form (movnRest n g m line stop top before s) := by
  unfold movnRest
  extract_lets t
  refine form_ite (form_foldl (fun _ _ ht => form_putTile ht) h) ?_
  refine form_ite ?_ (form_foldl (fun _ _ ht => form_tilePark ht) h)
  split
  · exact form_finishTiles h
  · exact h

theorem form_movnLine {n g m upto line} (h : Form s) : Form (movnLine n g m upto line s) := by
  unfold movnLine
  extract_lets f d r t c top stop acc res
  have hacc : Form acc.st := form_foldl_st (fun _ _ ht => form_movnBit ht) h
  have hres : Form res.2.st := by
    unfold res
    split
    · exact form_setCursor hacc
    · exact form_movnCycles h
  refine form_ite (form_faultStop hres) ?_
  refine form_ite ?_ (form_movnRest hres)
  split
  · exact form_edgeAgainst hres
  · exact hres

theorem form_runMovn {upto n g} (h : Form s) : Form (runMovn upto n g s) := by
  unfold runMovn
  split
  · exact h
  · exact form_ite (form_foldl (fun _ _ ht => form_ite (form_movnLine ht) ht) h) h

/-! ### A.WOUT (04 R113, R118, 10 R241) -/

theorem form_woutRest {n g m tk} (h : Form s) : Form (woutRest n g m s tk) := by
  unfold woutRest
  extract_lets c
  split
  · exact h
  · exact form_ite h (form_ite (form_finishTiles h) (form_ite (form_tilePark h) (form_holdWheel h)))

theorem form_runWout {only n g} (h : Form s) : Form (runWout only n g s) := by
  unfold runWout
  split
  · exact h
  · exact form_ite (form_foldl (fun _ _ ht => form_woutRest ht) h) h

/-! ### User routines (04 R122) -/

theorem form_userOp {k tn t} (h : Form s) : Form (userOp k tn t s) := by
  induction k generalizing tn t s with
  | zero =>
    exact h
  | succ k ih =>
    unfold userOp
    split
    · exact form_ite (ih (form_tileCycle h)) h
    · exact h

end Sys2Proof.Machine
end

section
/-! What the functions of Sys2Proof/Machine/Log.lean answer is in canonical form. -/

namespace Sys2Proof.Machine

variable {s : Block}

/-! ### Time and host memory -/

theorem form_hostWrite {addr bs} (h : Form s) : Form (hostWrite s addr bs) :=
  form_with { h with hostMem := foldl_mput_wf h.hostMem }

/-! ### Records (11 R271) -/

theorem form_putLog {n x} (h : Form s) : Form (putLog s n x) := form_with h

theorem form_spoolOne {n time typ flags source pay} (h : Form s) : Form (spoolOne s n time typ flags source pay).2 := by
  unfold spoolOne
  extract_lets seq rec_ r pos a s1 y
  have ha : Form a.2 := form_ringAppend h
  have hs1 : Form s1 := form_put64 ha
  split
  · exact h
  · split
    · exact form_putLog hs1
    · exact ha

theorem form_spoolPieces {n time typ source l} (h : Form s) : Form (spoolPieces n time typ source l s).2 := by
  induction l generalizing n time typ source s with
  | nil =>
    exact h
  | cons x l ih =>
    unfold spoolPieces
    extract_lets r
    have hr : Form r.2 := form_spoolOne h
    split
    · exact ih hr
    · exact hr

theorem form_spoolGap {n key} (h : Form s) : Form (spoolGap s n key).2 := by
  unfold spoolGap
  split
  · exact h
  · extract_lets pay r y2
    have hr : Form r.2 := form_spoolOne h
    split
    · exact form_putLog hr
    · exact hr

theorem form_logDrop {n key blk} (h : Form s) : Form (logDrop s n key blk) := by
  unfold logDrop
  exact form_irqAll (form_raise (form_fset (form_putLog h)))

theorem form_logPost {n time typ source blk pay} (h : Form s) : Form (logPost s n time typ source blk pay).2 := by
  unfold logPost
  extract_lets key g r
  have hg : Form g.2 := form_spoolGap h
  have hr : Form r.2 := form_spoolPieces hg
  split
  · split
    · exact hr
    · exact form_logDrop hr
  · exact form_logDrop hg

theorem form_logPort {n port pay} (h : Form s) : InSome Form (logPort s n port pay) := by
  unfold logPort
  exact inSome_ite (inSome_ite (form_spoolPieces h) trivial) trivial

theorem form_logBlock {n stream stampNs blk hop nch ord slots} (h : Form s) :
    Form (logBlock s n stream stampNs blk hop nch ord slots).2 := by
  unfold logBlock
  extract_lets key p g r
  have hg : Form g.2 := form_spoolGap h
  have hr : Form r.2 := form_spoolPieces hg
  split
  · split
    · split
      · exact hr
      · exact form_logDrop hr
    · exact form_logDrop hg
  · exact form_logDrop h

theorem form_logFault {n src pay} (h : Form s) : Form (logFault s n src pay) := form_ite (form_logPost h) h

theorem form_logEpoch {n} (h : Form s) : Form (logEpoch s n) := form_ite (form_logPost h) h

theorem form_logEventWrite {c n d} (h : Form s) : Form (logEventWrite c n d s) := form_ite (form_logPost h) h

/-! ### The host ring (11 R275, R276) -/

theorem form_logIrq {n} (h : Form s) : Form (logIrq s n) := by
  unfold logIrq
  exact form_hostIrq (form_irqAll (form_putLog h))

theorem form_spoolGaps {n} (h : Form s) : Form (spoolGaps s n) := form_foldl (fun _ _ ht => form_spoolGap ht) h

theorem form_ringBack {n r} (h : Form s) : Form (ringBack n r s) := form_ite (form_spoolGaps h) h

theorem form_ringEnWrite {n r en} (h : Form s) : Form (ringEnWrite n r en s) := form_ringBack (form_ringEn h)

theorem form_ringResume {n r} (h : Form s) : Form (ringResume n r s) := form_ringBack (form_ringThaw h)

theorem form_hostRing {n b bs} (h : Form s) : Form (hostRing s n b bs) := by
  unfold hostRing
  exact form_foldl (fun _ _ ht => form_hostWrite ht) h

theorem form_ringRead {n area pos len} (h : Form s) : Form (ringRead s n area pos len).2 := by
  unfold ringRead
  exact form_recReads (form_recReads h)

theorem form_logHostCopy {n} (h : Form s) : Form (logHostCopy n s) := by
  unfold logHostCopy
  extract_lets y w
  split
  · exact h
  · refine form_ite h ?_
    refine form_ite h ?_
    extract_lets d s1 s2 due src s3 s4
    have hd : Form d.2 := form_ringRead h
    have hs1 : Form s1 := form_hostRing hd
    have hs2 : Form s2 := form_put64 hs1
    have hs3 : Form s3 := form_putLog hs2
    have hs4 : Form s4 := form_ite (form_spoolGaps hs3) hs3
    exact form_ite (form_logIrq hs4) hs4

theorem form_logIrqTimer {n} (h : Form s) : Form (logIrqTimer n s) := by
  unfold logIrqTimer
  split
  · exact form_logIrq (form_atTime h)
  · exact h

theorem form_logReject {n} (h : Form s) : Form (logReject s n) := form_fset h

theorem form_logRptrWrite {n half v} (h : Form s) : Form (logRptrWrite n half v s) := by
  unfold logRptrWrite
  exact form_ite (form_logReject h) (form_put64 h)

theorem form_logEnWrite {n en} (h : Form s) : Form (logEnWrite n en s) := by
  unfold logEnWrite
  split
  · exact form_putLog (form_put64 (form_put64 (form_fset (form_fset h))))
  · exact form_fset (form_fset h)
  · exact h

theorem form_logDrainDone {n} (h : Form s) : Form (logDrainDone n s) := form_ite (form_fset h) h

end Sys2Proof.Machine
end

section
/-! What the functions of Sys2Proof/Machine/CmdBase.lean answer is in canonical form. -/

namespace Sys2Proof.Machine

variable {s : Block}

theorem form_cmdSet {q cid f} (h : Form s) : Form (cmdSet s q cid f) := form_with h

theorem form_cmdEnd {q cid r} (h : Form s) : Form (cmdEnd s q cid r) := form_cmdSet h

theorem form_cmdPast {q cid} (h : Form s) : Form (cmdPast s q cid) := form_cmdSet h

theorem form_cmdStep {q cid k} (h : Form s) : Form (cmdStep s q cid k) := form_cmdSet h

end Sys2Proof.Machine
end

section
/-! What the functions of Sys2Proof/Machine/Dlm.lean answer is in canonical form. -/

namespace Sys2Proof.Machine

variable {s : Block}

theorem form_setDlmPhase {n m v} (h : Form s) : Form (setDlmPhase s n m v) := form_fput h

theorem form_dlmArm {n m k} (h : Form s) : Form (dlmArm s n m k) :=
  form_ite h (form_ite (form_raise (form_fput h)) (form_setDlmPhase (form_put64 h)))

theorem form_dlmMiss {n m} (h : Form s) : Form (dlmMiss s n m) := by
  unfold dlmMiss
  exact form_ite (form_irqAcu (form_hostIrq (form_raise (form_setDlmPhase (form_fwrap h)))))
      (form_hostIrq (form_raise (form_setDlmPhase (form_fwrap h))))

theorem form_dlmLate {n m} (h : Form s) : Form (dlmLate s n m) := by
  unfold dlmLate
  exact form_setDlmPhase (form_fput h)

theorem form_dlmDone {n m} (h : Form s) : Form (dlmDone s n m) :=
  form_ite h (form_ite (form_ite (form_setDlmPhase (form_fwrap h)) (form_dlmLate (form_dlmMiss h)))
      (form_ite (form_dlmLate h) (form_fput h)))

theorem form_dlmArmWrite {n m} (h : Form s) : Form (dlmArmWrite n m s) := form_ite (form_dlmArm h) h

theorem form_dlmDoneWrite {n m} (h : Form s) : Form (dlmDoneWrite n m s) := form_ite (form_dlmDone h) h

theorem form_deadlineExpiry {n m} (h : Form s) : Form (deadlineExpiry n m s) := form_ite (form_dlmMiss (form_atTime h)) h

theorem form_dlmEnWrite {n m en} (h : Form s) : Form (dlmEnWrite n m en s) := by
  unfold dlmEnWrite
  split
  · exact form_fput (form_fput h)
  · exact form_setDlmPhase (form_fput (form_fput h))
  · exact h

theorem form_dlmReady {n o} (h : Form s) : Form (dlmReady s n o) := form_foldl (fun _ _ ht => form_dlmDone ht) h

theorem form_dlmTrigger {n line} (h : Form s) : Form (dlmTrigger s n line) := by
  unfold dlmTrigger
  exact form_foldl (fun _ _ ht => form_dlmArm ht) (form_foldl (fun _ _ ht => form_dlmDone ht) h)

theorem form_dlmApply {n ta} (h : Form s) : Form (dlmApply s n ta) := form_foldl (fun _ _ ht => form_dlmArm ht) h

end Sys2Proof.Machine
end

section
/-! What the functions of Sys2Proof/Machine/Lane.lean answer is in canonical form. -/

namespace Sys2Proof.Machine

variable {s : Block}

/-! ### Lanes (11 R245) -/

theorem form_putLane {n p x} (h : Form s) : Form (putLane s n p x) := form_with h

theorem form_setLaneState {n p v} (h : Form s) : Form (setLaneState s n p v) := form_fput h

theorem form_spReject {n} (h : Form s) : Form (spReject s n) := form_fput h

/-! ### JESD204C links -/

theorem form_putJlink {n k x} (h : Form s) : Form (putJlink s n k x) := form_with h

theorem form_setJlinkUp {n k b} (h : Form s) : Form (setJlinkUp s n k b) := form_fput h

/-! ### The Worlith Sensor Link (11 R250) -/

theorem form_wslSend {n p typ time pay} (h : Form s) : Form (wslSend s n p typ time pay) := by
  unfold wslSend
  exact form_putLane (form_with h)

end Sys2Proof.Machine
end

section
/-! What the functions of Sys2Proof/Machine/Stream.lean answer is in canonical form. -/

namespace Sys2Proof.Machine

variable {s : Block}

/-! ### Channels -/

theorem form_putChan {n c x} (h : Form s) : Form (putChan s n c x) := form_with h

/-! ### Streams -/

theorem form_putStrm {n t x} (h : Form s) : Form (putStrm s n t x) := form_with h

theorem form_strmReject {n t} (h : Form s) : Form (strmReject s n t) := form_fput h

theorem form_adopt {n t blk ok c} (h : Form s) : Form (adopt n t blk ok s c) := by
  unfold adopt
  exact form_putChan (form_ite h (form_strmReject (form_rput h)))

theorem form_boundary {n t blk} (h : Form s) : Form (boundary s n t blk) := by
  unfold boundary
  exact form_foldl (fun _ _ ht => form_adopt ht) h

/-! ### Samples -/

theorem form_queueSample {n c v lost sat} (h : Form s) : Form (queueSample s n c v lost sat) := by
  unfold queueSample
  exact form_putChan (form_putStrm h)

theorem form_queueLost {n c k} (h : Form s) : Form (queueLost n c k s) := by
  induction k generalizing n c s with
  | zero =>
    exact h
  | succ k ih =>
    unfold queueLost
    exact ih (form_queueSample h)

theorem form_noteGrid {n t num stamp per} (h : Form s) : Form (noteGrid s n t num stamp per) := by
  unfold noteGrid
  exact form_ite h (form_putStrm h)

theorem form_takeSample {n v stamp per c} (h : Form s) : Form (takeSample n v stamp per s c) := by
  unfold takeSample
  split
  · exact h
  · exact form_putChan (form_queueSample (form_queueLost (form_noteGrid h)))

theorem form_deliver {n kind source index v stamp per} (h : Form s) : Form (deliver s n kind source index v stamp per) :=
  form_foldl (fun _ _ ht => form_takeSample ht) h

/-! ### Container writes (11 R257, R259) -/

theorem form_strmReq {n t req} (h : Form s) : InSome (fun p => Form p.st) (strmReq s n t req) :=
  inSome_ite (form_stgReq h) (form_recReq h)

theorem form_countSample {n t w refused} (h : Form s) : Form (countSample s n t w refused) := by
  unfold countSample
  extract_lets blk late y b b' s1 s2 s3 s4 s5
  have hs1 : Form s1 := form_putStrm h
  have hs2 : Form s2 := form_fput hs1
  have hs3 : Form s3 := form_ite (form_ite (form_raise hs2) hs2) hs1
  have hs4 : Form s4 := form_fput hs3
  have hs5 : Form s5 := form_ite (form_ite (form_raise hs4) hs4) hs3
  exact form_ite (form_fput hs5) hs5

theorem form_sampleWriteDone {n t} (h : Form s) : Form (sampleWriteDone n t s) := by
  unfold sampleWriteDone
  split
  · exact h
  · split
    · exact h
    · next he1 =>
      exact form_countSample (form_putStrm ((form_strmReq h).of_eq he1))

theorem form_sampleLostDue {n c} (h : Form s) : Form (sampleLostDue n c s) := by
  unfold sampleLostDue
  extract_lets y t
  refine form_ite ?_ h
  split
  · exact h
  · exact form_queueLost (form_atTime h)

/-! ### Blocks (11 R257, R261, R262) -/

theorem form_descriptor {n t blk} (h : Form s) : Form (descriptor s n t blk).2 := by
  unfold descriptor
  extract_lets b d st flags
  have hd : Form d.2 := form_drawFree h
  have hst : Form st.2 := by
    unfold st
    split
    · exact h
    · exact hd
  exact hst

theorem form_blockCopies {n t blk} (h : Form s) : Form (blockCopies s n t blk) := by
  unfold blockCopies
  extract_lets slots bytes a s1 ns r
  have ha : Form a.2 := form_ringAppend h
  have hs1 : Form s1 := form_ite (form_ite ha (form_fput ha)) h
  have hr : Form r.2 := form_logBlock hs1
  exact form_ite (form_ite hr (form_fput hr)) hs1

theorem form_completeBlock {n t} (h : Form s) : InSome Form (completeBlock s n t) := by
  unfold completeBlock
  extract_lets blk hop nbuf d
  have hd : Form d.2 := form_descriptor h
  split
  · trivial
  · next he =>
    extract_lets s1 s2 s3 y1 s4 s5
    have hs1 : Form s1 := form_blockCopies ((form_strmReq hd).of_eq he)
    have hs2 : Form s2 := form_hostIrq (form_irqAll hs1)
    have hs3 : Form s3 := by
      unfold s3
      refine form_ite ?_ hs2
      split
      · exact form_dlmArm hs2
      · exact hs2
    have hs4 : Form s4 := form_putStrm hs3
    have hs5 : Form s5 := form_put64 hs4
    exact form_boundary hs5

theorem form_blockComplete {n t} (h : Form s) : Form (blockComplete n t s) := form_ite ((form_completeBlock h).getD h) h

theorem form_streamEnWrite {n t en} (h : Form s) : Form (streamEnWrite n t en s) := by
  unfold streamEnWrite
  split
  · extract_lets cand s1 s11 s12
    have hs1 : Form s1 := form_foldl (fun _ _ ht => form_adopt ht) h
    have hs11 : Form s11 := form_foldl (fun _ _ ht => form_putChan ht) hs1
    have hs12 : Form s12 := form_put64 (form_putStrm hs11)
    exact form_ite (form_fput (form_fput hs12)) (form_strmReject h)
  · exact form_fput (form_fput h)
  · exact h

theorem form_finishWrites {n t k} (h : Form s) : Form (finishWrites n t k s) := by
  induction k generalizing n t s with
  | zero =>
    exact h
  | succ k ih =>
    unfold finishWrites
    exact ih (form_sampleWriteDone h)

theorem form_drainWrites {n t} (h : Form s) : Form (drainWrites s n t) := by
  unfold drainWrites
  exact form_finishWrites (form_foldl (fun _ _ ht => form_queueLost ht) h)

theorem form_streamDrainDone {n t} (h : Form s) : Form (streamDrainDone n t s) := by
  unfold streamDrainDone
  refine form_ite ?_ h
  extract_lets s1
  have hs1 : Form s1 := form_drainWrites h
  refine form_ite ?_ h
  split
  · next he =>
    exact form_fput (form_putStrm ((form_completeBlock hs1).of_eq he))
  · exact h

end Sys2Proof.Machine
end

section
/-! What the functions of Sys2Proof/Machine/Drive.lean answer is in canonical form. -/

namespace Sys2Proof.Machine

variable {s : Block}

theorem form_putDrv {n o x} (h : Form s) : Form (putDrv s n o x) := form_with h

theorem form_drvReject {n} (h : Form s) : Form (drvReject s n) := form_fset h

/-! ### Changes of PLAY and CAUSE (11 R267) -/

theorem form_drvFire {n} (h : Form s) : Form (drvFire s n) := form_hostIrq (form_irqAll h)

theorem form_drvSet {n o play cause} (h : Form s) : Form (drvSet s n o play cause) := by
  unfold drvSet
  exact form_ite (form_fput (form_fput h)) (form_drvFire (form_fput (form_fput h)))

theorem form_muteOut {n o bit} (h : Form s) : Form (muteOut s n o bit) := by
  unfold muteOut
  refine form_ite h ?_
  extract_lets y cause ramp
  split
  · exact form_drvSet (form_putDrv h)
  · exact form_drvSet (form_putDrv h)
  · exact form_drvSet h

theorem form_muteAll {n bit} (h : Form s) : Form (muteAll s n bit) := form_foldl (fun _ _ ht => form_muteOut ht) h

theorem form_unmuteOut {n o} (h : Form s) : Form (unmuteOut s n o) := by
  unfold unmuteOut
  extract_lets y refuse nr s1
  have hrefuse : Form refuse := form_fput h
  have hs1 : Form s1 := form_putDrv h
  refine form_ite hrefuse ?_
  split
  · exact form_ite (form_drvSet (form_fput hs1)) hrefuse
  · exact hrefuse
  · exact h

/-! ### Playing (11 R263, R264) -/

theorem form_ringSample {n o k} (h : Form s) : Form (ringSample s n o k).2 := by
  unfold ringSample
  exact form_recReq h

theorem form_fetchSamples {n o k} (h : Form s) : Form (fetchSamples n o k s) := by
  induction k generalizing n o s with
  | zero =>
    exact h
  | succ k ih =>
    unfold fetchSamples
    extract_lets y k1 r src
    have hr : Form r.2 := form_ringSample h
    exact form_ite (ih (form_putDrv hr)) h

theorem form_driveFetch {n o count} (h : Form s) : Form (driveFetch n o count s) := form_ite h (form_fetchSamples h)

theorem form_streamDrop {n r} (h : Form s) : Form (streamDrop s n r) := form_fput h

theorem form_gkoBeat {n port index v due} (h : Form s) : Form (gkoBeat s n port index v due) := by
  unfold gkoBeat
  exact form_ite h (form_ite (form_with h) (form_streamDrop h))

theorem form_sinkSend {n o due v} (h : Form s) : Form (sinkSend s n o due v) := by
  unfold sinkSend
  extract_lets kind sink index put
  have hput : ∀ (s : Block) (leave : ℕ) (w : BitVec 24), Form s → Form (put s leave w) := fun _ _ _ ht => form_with ht
  refine form_ite h ?_
  clear_value kind
  split
  · exact hput _ _ _ h
  · exact form_wslSend (hput _ _ _ h)
  · exact form_gkoBeat (hput _ _ _ h)

theorem form_drvSend {n o due v per} (h : Form s) : Form (drvSend s n o due v per) := by
  unfold drvSend
  exact form_deliver (form_sinkSend h)

theorem form_lateCheck {n o due} (h : Form s) : Form (lateCheck s n o due) := by
  unfold lateCheck
  exact form_ite h (form_ite (form_putDrv h) (form_ite h (form_raise (form_putDrv h))))

theorem form_underrun {n o} (h : Form s) : Form (underrun s n o) := by
  unfold underrun
  exact form_foldl (fun _ _ ht => form_ite (form_muteOut ht) (form_ite (form_muteOut ht) ht)) (form_raise (form_putDrv h))

theorem form_underSample {n o i} (h : Form s) : Form (underSample s n o i).2 := by
  unfold underSample
  extract_lets y blk rdy r
  have hr : Form r.2 := form_ringSample h
  split
  · exact form_fput (form_putDrv hr)
  · exact form_fput (form_putDrv h)

theorem form_playSample {n o k} (h : Form s) : Form (playSample s n o k).2 := by
  unfold playSample
  split
  · exact form_underSample h
  · extract_lets s1 src
    have hs1 : Form s1 := form_ite h (form_fetchSamples h)
    split
    · exact form_putDrv hs1
    · exact form_underSample (form_underrun hs1)

theorem form_reachMuted {n o} (h : Form s) : Form (reachMuted s n o) := by
  unfold reachMuted
  exact form_ite (form_fput (form_drvSet (form_putDrv (form_fput h)))) (form_drvSet (form_putDrv (form_fput h)))

theorem form_shape {n o x} (h : Form s) : Form (shape s n o x).2 := by
  unfold shape
  extract_lets d safe
  split
  · exact form_ite (form_drvSet h) (form_putDrv h)
  · exact h
  · exact form_ite (form_reachMuted h) (form_putDrv h)
  · exact h

theorem form_driveSampleDue {n o} (h : Form s) : Form (driveSampleDue n o s) := by
  unfold driveSampleDue
  extract_lets y k due s1 s2 q v s3 src s4
  have hs1 : Form s1 := form_atTime h
  have hs2 : Form s2 := form_ite (form_lateCheck hs1) hs1
  have hq : Form q.2 := by
    unfold q
    split
    · exact hs2
    · exact form_playSample hs2
  have hv : Form v.2 := form_shape hq
  have hs3 : Form s3 := form_drvSend hv
  have hs4 : Form s4 := form_putDrv hs3
  exact form_ite (form_sinkSend h) (form_ite h (form_put64 hs4))

/-! ### Register writes (11 R263, R266-R269, R453) -/

theorem form_drvReadyWrite {n o half v} (h : Form s) : Form (drvReadyWrite n o half v s) := by
  unfold drvReadyWrite
  exact form_ite (form_drvReject h) (form_dlmReady (form_put64 h))

theorem form_driveMuteWrite {n o} (h : Form s) : Form (driveMuteWrite n o s) := form_muteOut h

theorem form_driveUnmuteWrite {n o} (h : Form s) : Form (driveUnmuteWrite n o s) := form_unmuteOut h

theorem form_muteAllWrite {n} (h : Form s) : Form (muteAllWrite n s) := form_muteAll h

theorem form_driveEnWrite {n o en} (h : Form s) : Form (driveEnWrite n o en s) := by
  unfold driveEnWrite
  split
  · exact form_ite (form_drvReject h) (form_drvSet (form_fput (form_fput (form_fput (form_put64 (form_putDrv h))))))
  · exact form_ite (form_fput (form_muteOut (form_fput (form_fput h)))) (form_muteOut (form_fput (form_fput h)))
  · exact h

theorem form_inhibitAssert {n} (h : Form s) : Form (inhibitAssert n s) := form_ite h (form_raise (form_muteAll (form_fset h)))

theorem form_inhibitRelease {n} (h : Form s) : Form (inhibitRelease n s) := form_fset h

theorem form_muteSinks {n kind bit isSink} (h : Form s) : Form (muteSinks s n kind bit isSink) :=
  form_foldl (fun _ _ ht => form_ite (form_muteOut ht) ht) h

end Sys2Proof.Machine
end

section
/-! What the functions of Sys2Proof/Machine/Sensor.lean answer is in canonical form. -/

namespace Sys2Proof.Machine

variable {s : Block}

/-! ### Lanes (11 R245) -/

theorem form_linksDown {n p} (h : Form s) : Form (linksDown s n p) := by
  unfold linksDown
  exact form_muteSinks (form_foldl (fun _ _ ht => form_putJlink (form_setJlinkUp ht)) h)

theorem form_feLeave {n p} (h : Form s) : Form (feLeave s n p) := by
  unfold feLeave
  exact form_muteSinks (form_fput (form_putLane (form_with h)))

theorem form_laneDrop {n p st} (h : Form s) : Form (laneDrop s n p st) := by
  unfold laneDrop
  exact form_ite (form_setLaneState h) (form_ite (form_feLeave (form_setLaneState h)) (form_linksDown (form_setLaneState h)))

theorem form_quadCheck {n p} (h : Form s) : Form (quadCheck s n p) :=
  form_foldl (fun _ _ ht => form_ite (form_spReject (form_laneDrop ht)) ht) h

theorem form_laneCfgWrite {n p w} (h : Form s) : Form (laneCfgWrite s n p w) := by
  unfold laneCfgWrite
  exact form_ite (form_ite (form_spReject h) h)
      (form_quadCheck (form_setLaneState (form_rput (form_laneDrop (form_ite (form_spReject h) h)))))

theorem form_sensorLaneLock {n p} (h : Form s) : Form (sensorLaneLock n p s) := by
  unfold sensorLaneLock
  exact form_ite
      (form_ite (form_spReject (form_setLaneState h)) (form_ite (form_putLane (form_setLaneState h)) (form_setLaneState h))) h

/-! ### JESD204C (11 R246-R249) -/

theorem form_jlinkEnWrite {n k en} (h : Form s) : Form (jlinkEnWrite n k en s) := by
  unfold jlinkEnWrite
  split
  · exact form_ite (form_fput (form_fput h)) (form_spReject h)
  · exact form_muteSinks (form_putJlink (form_setJlinkUp (form_fput (form_fput h))))
  · exact h

theorem form_jlinkUp {n k} (h : Form s) : Form (jlinkUp n k s) := by
  unfold jlinkUp
  split
  · exact h
  · exact form_ite (form_putJlink (form_setJlinkUp h)) h

theorem form_sysrefPulse {n} (h : Form s) : Form (sysrefPulse n s) := by
  unfold sysrefPulse
  extract_lets p due s1 s2
  have hs1 : Form s1 := form_atTime h
  have hs2 : Form s2 := form_with hs1
  exact form_ite h (form_foldl (fun _ _ ht => form_ite (form_ite ht (form_raise ht)) ht) hs2)

theorem form_jframe {n k c frame emb f} (h : Form s) : Form (jframe s n k c frame emb f) := by
  unfold jframe
  exact form_foldl (fun _ _ ht => form_ite (form_deliver ht) ht) h

theorem form_jframes {n k c k1} (h : Form s) : Form (jframes n k c k1 s) := by
  induction k1 generalizing n k c s with
  | zero =>
    exact h
  | succ n1 ih =>
    unfold jframes
    extract_lets y have_ os
    exact form_ite (ih (form_jframe (form_putJlink h))) h

theorem form_jesdBlockReceive {n k bad octs} (h : Form s) : Form (jesdBlockReceive n k bad octs s) := by
  unfold jesdBlockReceive
  refine form_ite ?_ h
  extract_lets c s1 y old new s2 s3 y1
  have hs1 : Form s1 := form_foldl (fun _ _ ht => form_ite (form_fsat (form_fsat ht)) ht) h
  have hs2 : Form s2 := form_putJlink hs1
  have hs3 : Form s3 := form_jframes hs2
  exact form_ite (form_putJlink hs3) hs3

theorem form_laneAlignLoss {n p} (h : Form s) : Form (laneAlignLoss n p s) :=
  form_ite (form_raise (form_linksDown (form_setLaneState h))) h

theorem form_laneSignalLoss {n p} (h : Form s) : Form (laneSignalLoss n p s) := by
  unfold laneSignalLoss
  exact form_ite (form_raise (form_ite (form_feLeave (form_setLaneState h)) (form_linksDown (form_setLaneState h)))) h

/-! ### The Worlith Sensor Link (11 R250-R252) -/

theorem form_wslBad {n p} (h : Form s) : Form (wslBad s n p) := form_fsat h

theorem form_wslSeen {n p k} (h : Form s) : Form (wslSeen s n p k) := by
  unfold wslSeen
  exact form_putLane h

theorem form_wslSamples {n p k period} (h : Form s) : Form (wslSamples s n p k period) := by
  unfold wslSamples
  exact form_foldl (fun _ _ ht => form_deliver ht) h

theorem form_samples {n p bytes period} (h : Form s) : Form (samples n p bytes period s) := by
  unfold samples
  refine form_ite h ?_
  split
  · exact form_ite (form_ite (form_wslSeen h) (form_wslSamples (form_wslSeen h))) (form_wslBad h)
  · exact form_wslBad h

theorem form_timeSync {n p start bytes} (h : Form s) : Form (timeSync n p start bytes s) := by
  unfold timeSync
  refine form_ite h ?_
  refine form_ite (form_wslSend (form_putLane (form_atTime h))) ?_
  split
  · exact form_ite (form_wslSend (form_wslSeen h)) (form_wslBad h)
  · exact form_wslBad h

theorem form_control {n p toFrontEnd bytes} (h : Form s) : Form (control n p toFrontEnd bytes s) := by
  unfold control
  refine form_ite h ?_
  refine form_ite (form_ite (form_wslSend h) h) ?_
  split
  · refine form_ite ?_ (form_wslBad h)
    extract_lets src
    have hsrc : Form src := form_wslSeen h
    clear_value src
    exact form_with hsrc
  · exact form_wslBad h

theorem form_rawLaneWord {n p out w} (h : Form s) : Form (rawLaneWord n p out w s) := by
  unfold rawLaneWord
  exact form_ite h (form_ite (form_ite (form_with h) h) (form_ite (form_with h) h))

end Sys2Proof.Machine
end

section
/-! What the functions of Sys2Proof/Machine/Gecko.lean answer is in canonical form. -/

namespace Sys2Proof.Machine

variable {s : Block}

/-! ### Regions -/

theorem form_putRegion {n r x} (h : Form s) : Form (putRegion s n r x) := form_with h

theorem form_setRgState {n r v} (h : Form s) : Form (setRgState s n r v) := form_fput h

theorem form_setPhase {n r v} (h : Form s) : Form (setPhase s n r v) := form_fput h

theorem form_foldRelease {n r} (h : Form s) : Form (foldRelease s n r) := by
  unfold foldRelease
  exact form_ite (form_putRegion h) h

theorem form_freezeRegion {n r} (h : Form s) : Form (freezeRegion s n r) := form_setPhase (form_foldRelease h)

theorem form_thawRegion {n r} (h : Form s) : Form (thawRegion s n r) := by
  unfold thawRegion
  exact form_ite (form_setPhase h) (form_setPhase (form_putRegion h))

theorem form_gkoReject {n} (h : Form s) : Form (gkoReject s n) := form_fset h

/-! ### RAM blocks (12 R279) -/

theorem form_ramPut {n r i v} (h : Form s) : Form (ramPut s n r i v) := by
  unfold ramPut
  exact form_putRegion h

theorem form_ramBitPut {n r m k b} (h : Form s) : Form (ramBitPut n r m k b s) := by
  unfold ramBitPut
  exact form_ramPut h

theorem form_ramWordPut {n r m shape w v} (h : Form s) : Form (ramWordPut s n r m shape w v) := by
  unfold ramWordPut
  exact form_ite h (form_ite (form_ramPut h) (form_foldl (fun _ _ ht => form_ramBitPut ht) h))

theorem form_ramRead {n r m shape w} (h : Form s) : Form (ramRead s n r m shape w).2.2 := by
  unfold ramRead
  split
  · exact h
  · split
    · exact h
    · extract_lets d
      split
      · exact h
      · exact form_raise (form_fsat h)
      · exact form_raise (form_fsat h)

theorem form_regionRamRead {n r m b w wr oneClock} (h : Form s) : Form (regionRamRead n r m b w wr oneClock s) := by
  unfold regionRamRead
  extract_lets shape other a s1 hit v chk y s2 s3
  have ha : Form a.2.2 := form_ramRead h
  have hs1 : Form s1 := ha
  have hv : Form v.2 := by
    unfold v
    split
    · exact form_drawFree hs1
    · exact hs1
  have hs2 : Form s2 := form_putRegion hv
  have hs3 : Form s3 := by
    unfold s3
    split
    · exact form_ramWordPut hs2
    · exact hs2
  exact form_ite (form_answer hs3) h

/-! ### Long tracks (12 R280, R281, R290) -/

theorem form_fabricContention {n track user} (h : Form s) : Form (fabricContention n track user s) := by
  unfold fabricContention
  split
  · exact form_ite (form_raise (form_ite (form_with h) (form_rput (form_with h)))) h
  · exact h

/-! ### Stream ports (12 R283) -/

theorem form_takeBeats {n port k} (h : Form s) : Form (takeBeats n port k s) := by
  induction k generalizing n port s with
  | zero =>
    exact h
  | succ k ih =>
    unfold takeBeats
    split
    · exact h
    · exact ih (form_deliver (form_with h))

theorem form_inboundBeat {n port beat period taken} (h : Form s) : Form (inboundBeat n port beat period taken s) := by
  unfold inboundBeat
  exact form_takeBeats (form_ite h (form_ite (form_with h) (form_streamDrop h)))

theorem form_outboundBeatExpire {n port taken} (h : Form s) : Form (outboundBeatExpire n port taken s) := by
  unfold outboundBeatExpire
  extract_lets k
  split
  · exact h
  · exact form_ite (form_with h) (form_streamDrop (form_atTime (form_with h)))

/-! ### Trigger and interrupt lines, the target window (12 R286) -/

theorem form_geckoTrigger {n l} (h : Form s) : Form (geckoTrigger n l s) := form_ite (form_dlmTrigger (form_ringFire h)) h

theorem form_fabricIrq {n} (h : Form s) : Form (fabricIrq s n) := form_ite h (form_hostIrq (form_irqAll h))

theorem form_geckoIrqLine {n l} (h : Form s) : Form (geckoIrqLine n l s) := form_ite (form_fabricIrq (form_rput h)) h

theorem form_windowReq {n r req data} (h : Form s) : Form (windowReq s n r req data).st := by
  unfold windowReq
  split
  · exact form_with h
  · exact h

theorem form_geckoWindowAccess {n r who req data} (h : Form s) : Form (geckoWindowAccess n r who req data s) := by
  unfold geckoWindowAccess
  extract_lets q out
  have hout : ∀ (s : Block), Form s → Form (out s) := fun _ ht => form_timedOut ht
  refine form_answer ?_
  refine form_overNet1 h hout ?_
  intro _ a
  split
  · next he =>
    exact (form_netEnd a).of_eq he
  · split
    · exact a
    · exact form_windowReq a

/-! ### Stop and release (12 R287, R289, R291) -/

theorem form_putPin {n p v} (h : Form s) : Form (putPin s n p v) := form_with h

theorem form_pinStop {whole n p} (h : Form s) : Form (pinStop whole n s p) := by
  unfold pinStop
  refine form_ite (form_putPin h) ?_
  split
  · exact form_ite (form_putPin (form_drawFree h)) h
  · exact form_putPin h
  · exact form_putPin h
  · exact form_putPin h

theorem form_stopRegion {n r whole phase} (h : Form s) : Form (stopRegion s n r whole phase) := by
  unfold stopRegion
  exact form_setPhase (form_setRgState (form_with (form_foldl (fun _ _ ht => form_pinStop ht) (form_putRegion h))))

theorem form_releaseRegion {n r} (h : Form s) : Form (releaseRegion s n r) := by
  unfold releaseRegion
  exact form_setPhase (form_setRgState (form_putRegion (form_foldl (fun _ _ ht => form_putPin ht) h)))

/-! ### Loading (12 R288-R292) -/

theorem form_putLoad {n x} (h : Form s) : Form (putLoad s n x) := form_with h

theorem form_drainRegion {n r} (h : Form s) : Form (drainRegion s n r) :=
  form_foldl (fun _ _ ht => form_ite (form_muteOut ht) ht) (form_setRgState h)

theorem form_regionEnWrite {n r en} (h : Form s) : Form (regionEnWrite n r en s) := by
  unfold regionEnWrite
  refine form_ite (form_fput h) ?_
  refine form_ite (form_ite h (form_fput h)) ?_
  exact form_ite (form_ite (form_releaseRegion (form_fput h)) (form_gkoReject h))
      (form_ite (form_drainRegion (form_fput h)) (form_fput h))

theorem form_regionDrainDone {n r} (h : Form s) : Form (regionDrainDone n r s) := form_ite (form_stopRegion h) h

theorem form_loadDrop {n} (h : Form s) : Form (loadDrop s n) := by
  unfold loadDrop
  split
  · exact h
  · exact form_foldl (fun _ _ ht => form_ite (form_drainRegion ht) ht) (form_putLoad h)

theorem form_loadStop {n x} (h : Form s) : Form (loadStop s n x) := by
  unfold loadStop
  exact form_putLoad (form_foldl (fun _ _ ht => form_stopRegion ht) h)

theorem form_loadBegin {n} (h : Form s) : Form (loadBegin s n) := by
  unfold loadBegin
  split
  · exact form_ite (form_putLoad (form_foldl (fun _ _ ht => form_setPhase ht) h)) h
  · exact h

theorem form_loadRegion {x bad n r} (h : Form s) : Form (loadRegion x bad n s r) := by
  unfold loadRegion
  extract_lets s1 s2 s3
  have hs1 : Form s1 := form_putRegion h
  have hs2 : Form s2 := form_fput hs1
  have hs3 : Form s3 := form_rput hs2
  exact form_ite (form_raise (form_setPhase (form_fput hs3))) (form_ite (form_releaseRegion hs3) (form_setPhase hs3))

theorem form_loadFinish {n x} (h : Form s) : Form (loadFinish s n x).2 := by
  unfold loadFinish
  exact form_putLoad (form_foldl (fun _ _ ht => form_loadRegion ht) h)

theorem form_loadGo {n x} (h : Form s) : Form (loadGo s n x) := by
  unfold loadGo
  exact form_ite (form_loadFinish (form_loadStop h)) (form_loadStop h)

theorem form_loadCommit {n e} (h : Form s) : Form (loadCommit s n e) := by
  unfold loadCommit
  split
  · exact form_ite (form_ite (form_putLoad (form_cmdPast h)) (form_loadGo (form_cmdPast h))) h
  · exact h

theorem form_loadResume {n} (h : Form s) : Form (loadResume s n) := by
  unfold loadResume
  split
  · exact form_ite (form_loadGo h) h
  · exact h

/-! ### Configuration upsets (12 R294, R295) -/

theorem form_faultRegion {n r} (h : Form s) : Form (faultRegion s n r) := form_fput (form_stopRegion h)

theorem form_putUpset {n r w v} (h : Form s) : Form (putUpset s n r w v) := by
  unfold putUpset
  exact form_putRegion h

theorem form_configWordCheck {n r w flips} (h : Form s) : Form (configWordCheck n r w flips s) := by
  unfold configWordCheck
  refine form_ite ?_ h
  extract_lets s1 s2
  have hs1 : Form s1 := form_putUpset h
  have hs2 : Form s2 := form_raise hs1
  split
  · exact hs1
  · exact form_raise (form_fsat (form_putUpset hs1))
  · split
    · exact form_ite (form_with hs2) (form_faultRegion hs2)
    · exact form_faultRegion hs2

/-! ### Capture (12 R296, R297) -/

theorem form_capture {n freeze regions} (h : Form s) : Form (capture n freeze regions s) := by
  unfold capture
  refine form_ite h ?_
  extract_lets s1 refused named ok s2
  have hs1 : Form s1 := form_fset (form_fset h)
  have hrefused : Form refused := form_fset hs1
  have hs2 : Form s2 := form_ite hs1 hrefused
  exact form_ite hrefused (form_ite hs2 (form_fset (form_with hs2)))

theorem form_ramPortBytes {n r} (h : Form s) : Form (ramPortBytes s n r).2 := by
  unfold ramPortBytes
  refine form_foldl_snd ?_ h
  intro _ _ a
  extract_lets d o
  have hd : Form d.2 := form_drawFree a
  have ho : Form o.2 := by
    unfold o
    split
    · exact a
    · exact hd
  exact ho

theorem form_captureEdge {n r cells} (h : Form s) : Form (captureEdge n r cells s) := by
  unfold captureEdge
  split
  · exact h
  · refine form_ite ?_ h
    extract_lets s1 ffs p frozen rec_ src s2 c1
    have hs1 : Form s1 := form_atTime h
    have hp : Form p.2 := form_ramPortBytes hs1
    have hs2 : Form s2 := form_ite (form_freezeRegion (form_putRegion hp)) hp
    exact form_with hs2

theorem form_captureWritten {n} (h : Form s) : Form (captureWritten n s) := by
  unfold captureWritten
  split
  · exact h
  · refine form_ite ?_ h
    extract_lets base s1 s2 s3
    have hs1 : Form s1 := form_foldl (fun _ _ ht => form_recWrites ht) h
    have hs2 : Form s2 := form_fset (form_fset hs1)
    have hs3 : Form s3 := form_with hs2
    exact form_loadResume (form_foldl (fun _ _ ht => form_faultRegion ht) hs3)

theorem form_captureResume {n} (h : Form s) : Form (captureResume n s) :=
  form_ite h (form_foldl (fun _ _ ht => form_ite (form_thawRegion ht) ht) h)

end Sys2Proof.Machine
end

section
/-! What the functions of Sys2Proof/Machine/Weir.lean answer is in canonical form. -/

namespace Sys2Proof.Machine

variable {s : Block}

theorem form_putWeir {n x} (h : Form s) : Form (putWeir s n x) := form_with h

theorem form_setWPhase {n v} (h : Form s) : Form (setWPhase s n v) := form_fset h

theorem form_weirReject {n} (h : Form s) : Form (weirReject s n) := form_fset h

/-! ### Sealing (13 R301, R305, R315) -/

theorem form_setPub {n p f v} (h : Form s) : Form (setPub s n p f v) := form_fput h

theorem form_sealPub {n p} (h : Form s) : Form (sealPub n s p) := by
  unfold sealPub
  extract_lets k w s1 s2 s3
  have hs1 : Form s1 := form_setPub (form_setPub h)
  have hs2 : Form s2 := form_setPub hs1
  have hs3 : Form s3 := form_ite (form_fwrap (form_with hs2)) h
  exact form_ite (form_setPub hs3) hs3

theorem form_sealNode {c n} (h : Form s) : Form (sealNode s c n) := by
  unfold sealNode
  exact form_setWPhase (form_putWeir (form_foldl (fun _ _ ht => form_sealPub ht) (form_with h)))

/-! ### Boundaries (13 R299) -/

theorem form_startCommit {cmd} (h : Form s) : Form (startCommit s cmd) := by
  unfold startCommit
  refine form_ite ?_ (form_sealNode (form_with h))
  extract_lets s1
  have hs1 : Form s1 := form_fwrap h
  split
  · exact form_cmdEnd hs1
  · exact hs1

theorem form_explicitBound {cmd} (h : Form s) : Form (explicitBound s cmd) := form_ite (form_with h) (form_startCommit h)

theorem form_nextCommit {l} (h : Form s) : Form (nextCommit l s) := by
  induction l generalizing s with
  | nil =>
    unfold nextCommit
    exact form_with h
  | cons x l ih =>
    unfold nextCommit
    extract_lets s1
    have hs1 : Form s1 := form_startCommit (form_with h)
    exact form_ite hs1 (ih hs1)

theorem form_endCommit (h : Form s) : Form (endCommit s) := form_nextCommit (form_with h)

theorem form_epochBoundary (h : Form s) : Form (epochBoundary s) := by
  unfold epochBoundary
  refine form_ite ?_ h
  extract_lets p from_ due src s1
  have hsrc : Form src := form_atTime h
  clear_value src
  have hs1 : Form s1 := form_with hsrc
  clear_value s1
  exact form_ite (form_fwrap hs1) (form_startCommit hs1)

theorem form_weirCommitWrite {n} (h : Form s) : Form (weirCommitWrite n s) := form_ite (form_explicitBound h) (form_weirReject h)

theorem form_weirDiscard {n} (h : Form s) : Form (weirDiscard n s) := form_ite (form_with h) (form_weirReject h)

/-! ### The vote (13 R308, R310) -/

theorem form_setCommit {c} (h : Form s) : Form { s with commit := c } := form_with h

theorem form_prepareCommit {n e0 e1 e2} (h : Form s) : Form (prepareCommit n e0 e1 e2 s) := by
  unfold prepareCommit
  split
  · exact h
  · refine form_ite ?_ h
    extract_lets s1 v cs r s2 yes w s3
    have hs1 : Form s1 := form_ite h (form_sealNode h)
    have hs2 : Form s2 := form_ite (form_raise hs1) hs1
    have hs3 : Form s3 := form_setWPhase (form_putWeir hs2)
    exact form_setCommit hs3

/-! ### A failed vote (13 R311, R312) -/

theorem form_checkEnd (h : Form s) : Form (checkEnd s) := by
  unfold checkEnd
  split
  · exact h
  · exact form_ite (form_ite (form_endCommit h) h) (form_ite (form_endCommit h) h)

theorem form_failCommit {lost} (h : Form s) : Form (failCommit s lost) := by
  unfold failCommit
  split
  · exact h
  · refine form_ite h ?_
    extract_lets s1 src s2 s3
    have hs1 : Form s1 := form_fwrap h
    have hs2 : Form s2 := form_raise hs1
    have hs3 : Form s3 := by
      unfold s3
      split
      · exact form_cmdEnd hs2
      · exact hs2
    exact form_checkEnd (form_with hs3)

theorem form_abandonNode {n} (h : Form s) : Form (abandonNode s n) := by
  unfold abandonNode
  exact form_setWPhase (form_putWeir (form_with h))

theorem form_abandon {n} (h : Form s) : Form (abandon n s) := by
  unfold abandon
  split
  · exact h
  · exact form_ite (form_checkEnd (form_abandonNode h)) h

theorem form_vote {n} (h : Form s) : Form (vote n s) := by
  unfold vote
  split
  · exact h
  · split
    · exact h
    · exact form_ite (form_with h) (form_ite (form_failCommit (form_with h)) (form_with h))

theorem form_voteTimeout (h : Form s) : Form (voteTimeout s) := by
  unfold voteTimeout
  split
  · exact h
  · exact form_ite h (form_failCommit (form_atTime h))

/-! ### The apply instant (13 R302, R304, R308) -/

theorem form_resetExchange {tk} (h : Form s) : Form (resetExchange s tk) := by
  unfold resetExchange
  exact form_putTile h

theorem form_applyShape {ws n g} (h : Form s) : Form (applyShape ws n s g) := by
  unfold applyShape
  exact form_ite h (form_ite (form_foldl (fun _ _ ht => form_resetExchange ht) (form_rput (form_rput h))) (form_millReject h))

theorem form_applyEdge {ws n g} (h : Form s) : Form (applyEdge ws n s g) := by
  unfold applyEdge
  exact form_ite h (form_ite (form_rput h) (form_millReject (form_rput h)))

theorem form_applyPub {n p} (h : Form s) : Form (applyPub n s p) := by
  unfold applyPub
  exact form_ite (form_setPub (form_setPub (form_setPub (form_setPub h)))) h

theorem form_enterNode {n} (h : Form s) : Form (enterNode s n) := by
  unfold enterNode
  exact form_fset (form_foldl (fun _ _ ht => form_setGState (form_fput (form_putGang ht))) (form_with h))

theorem form_splitGang {n p} (h : Form s) : Form (splitGang n s p) := by
  unfold splitGang
  exact form_ite (form_raise h) (form_faultStop (form_raise h))

theorem form_splitFrom {lost n} (h : Form s) : Form (splitFrom lost s n) :=
  form_ite h (form_foldl (fun _ _ ht => form_splitGang ht) (form_with h))

theorem form_splitAll {lost} (h : Form s) : Form (splitAll s lost) := form_foldl (fun _ _ ht => form_splitFrom ht) h

theorem form_installTable {tab e} (h : Form s) : Form (installTable s tab e) := by
  unfold installTable
  refine form_ite h ?_
  extract_lets here left s1 cut s2 new s3 later
  have hs1 : Form s1 := form_foldl (fun _ _ ht => form_foldl (fun _ _ hu => form_splitFrom hu) ht) h
  have hs2 : Form s2 := form_foldl (fun _ _ ht => form_fput ht) hs1
  have hs3 : Form s3 := form_foldl (fun _ _ ht => form_enterNode ht) hs2
  exact form_hostIrq (form_with hs3)

theorem form_applyFes {n} (h : Form s) : Form (applyFes s n) := by
  unfold applyFes
  exact form_foldl (fun _ _ ht => form_ite (form_putLane (form_fput ht)) (form_ite (form_fput ht) ht)) h

theorem form_signalApply {n e ta t0} (h : Form s) : Form (signalApply s n e ta t0) := by
  unfold signalApply
  extract_lets s1 took s2 src s3 s4
  have hs1 : Form s1 := form_applyFes (form_put64 (form_put64 h))
  have hs2 : Form s2 := form_ite (form_fset hs1) hs1
  have hs3 : Form s3 := form_setWPhase (form_putWeir hs2)
  have hs4 : Form s4 := form_dlmApply (form_logEpoch (form_hostIrq (form_irqAll hs3)))
  exact form_loadCommit hs4

theorem form_snapTile {first last} {acc : List (BitVec 8) × Block} {tk} (h : Form acc.2) :
    Form (snapTile first last acc tk).2 := by
  unfold snapTile
  exact form_foldl_snd (fun _ _ ht => form_foldl_snd (fun _ _ hu => form_readRow hu) ht) h

theorem form_snapMake {x i e ta} (h : Form s) : Form (snapMake s x i e ta).2 := by
  unfold snapMake
  exact form_foldl_snd (fun _ _ ht => form_snapTile ht) h

theorem form_takeImages {x e ta l} (h : Form s) : Form (takeImages x e ta l s).2 := by
  induction l generalizing x e ta s with
  | nil =>
    exact h
  | cons head l ih =>
    unfold takeImages
    split
    · exact ih h
    · exact ih (form_snapMake h)

theorem form_takeSnaps {ns e ta} (h : Form s) : Form (takeSnaps s ns e ta) := by
  unfold takeSnaps
  exact form_foldl (fun _ _ ht => form_ite (form_cmdPast (form_with (form_takeImages ht))) ht) h

theorem form_endSets {cs e} (h : Form s) : Form (endSets s cs e) := form_foldl (fun _ _ ht => form_cmdEnd (form_cmdPast ht)) h

theorem form_endRescans {e} (h : Form s) : Form (endRescans s e) := form_with h

theorem form_applyNodes {c ns ta} (h : Form s) : Form (applyNodes s c ns ta) := by
  unfold applyNodes
  extract_lets ns1 s1 wss s2 s3 s4 mine s5 s6 s7 s8 s9 s10
  have hs1 : Form s1 := form_installTable h
  have hs2 : Form s2 := form_foldl
      (fun _ _ ht => form_foldl (fun _ _ hu => form_ite hu (form_with { hu with regs := mput_wf _ _ _ _ hu.regs })) ht) hs1
  have hs3 : Form s3 := form_foldl (fun _ _ ht => form_foldl (fun _ _ hu => form_applyShape hu) ht) hs2
  have hs4 : Form s4 := form_foldl (fun _ _ ht => form_foldl (fun _ _ hu => form_applyEdge hu) ht) hs3
  have hs5 : Form s5 := form_with hs4
  have hs6 : Form s6 := form_foldl (fun _ _ ht => form_foldl (fun _ _ hu => form_applyPub hu) ht) hs5
  have hs7 : Form s7 := form_takeSnaps hs6
  have hs8 : Form s8 := form_foldl (fun _ _ ht => form_signalApply ht) hs7
  have hs9 : Form s9 := form_endSets hs8
  have hs10 : Form s10 := form_ite (form_endRescans hs9) hs9
  split
  · exact form_ite (form_cmdEnd hs10) hs10
  · exact hs10

theorem form_epochLate {n} (h : Form s) : Form (epochLate s n) := by
  unfold epochLate
  exact form_ite h (form_raise (form_fset (form_putWeir h)))

theorem form_commitMsg {n} (h : Form s) : Form (commitMsg n s) := by
  unfold commitMsg
  split
  · exact h
  · split
    · exact h
    · exact form_ite (form_ite (form_putWeir h) (form_applyNodes (form_epochLate h))) h

theorem form_applyEpoch (h : Form s) : Form (applyEpoch s) := by
  unfold applyEpoch
  split
  · exact h
  · extract_lets ns
    split
    · exact form_applyNodes (form_atTime h)
    · exact h

theorem form_commitAck {n} (h : Form s) : Form (commitAck n s) := by
  unfold commitAck
  split
  · exact h
  · exact form_ite (form_checkEnd (form_with h)) h

theorem form_applyMsg (h : Form s) : Form (applyMsg s) := form_checkEnd (form_applyEpoch h)

theorem form_commitLate {n} (h : Form s) : Form (commitLate n s) := by
  unfold commitLate
  extract_lets due
  have hdue : ∀ (t0 limit : ℕ), Form (due t0 limit) := fun _ _ => form_ite h (form_epochLate (form_atTime h))
  split
  · exact hdue _ _
  · exact form_ite (hdue _ _) h
  · exact h

theorem form_stageTab {t} (h : Form s) : Form (stageTab s t) := by
  unfold stageTab
  exact form_with h

theorem form_noteIsolated {serial} (h : Form s) : Form (noteIsolated s serial) := form_with h

theorem form_leaveTable {n} (h : Form s) : Form (leaveTable s n) := by
  unfold leaveTable
  exact form_stageTab (form_foldl (fun _ _ ht => form_noteIsolated ht) (form_with h))

theorem form_setRole {n v} (h : Form s) : Form (setRole s n v) := form_fset h

theorem form_isolateNode {n} (h : Form s) : Form (isolateNode s n) := by
  unfold isolateNode
  extract_lets w
  split
  · refine form_ite ?_ h
    extract_lets s1
    have hs1 : Form s1 := form_setWPhase (form_raise (form_atTime h))
    exact form_ite hs1 (form_splitAll (form_leaveTable (form_setRole hs1)))
  · exact h

theorem form_outcomeTimeout {n} (h : Form s) : Form (outcomeTimeout n s) := by
  unfold outcomeTimeout
  extract_lets wait s1
  have hs1 : Form s1 := form_isolateNode h
  split
  · exact hs1
  · exact form_ite (form_checkEnd (form_with (form_splitAll (form_leaveTable (form_raise (form_atTime hs1))))))
      (form_checkEnd hs1)

/-! ### Publications (13 R305, R307) -/

theorem form_pubReadyWrite {n p copy} (h : Form s) : Form (pubReadyWrite n p copy s) :=
  form_ite h (form_ite (form_with h) (form_setPub h))

theorem form_pubEnWrite {n p en} (h : Form s) : Form (pubEnWrite n p en s) := by
  unfold pubEnWrite
  split
  · extract_lets s1 s2 s3 s4
    have hs1 : Form s1 := form_setPub (form_setPub h)
    have hs2 : Form s2 := form_setPub (form_setPub hs1)
    have hs3 : Form s3 := form_setPub (form_setPub hs2)
    have hs4 : Form s4 := form_setPub (form_setPub hs3)
    exact form_with hs4
  · exact form_setPub (form_setPub h)
  · exact h

/-! ### Snapshots (13 R313, R314) -/

theorem form_snapRecord {n r head pay} (h : Form s) : Form (snapRecord s n r head pay).2 := by
  unfold snapRecord
  split
  · exact h
  · extract_lets at_ k a put size base first
    have ha : Form a.2 := form_ringAppend (form_ringTook (form_setRingCount h))
    have hput : ∀ (s : Block) (p : ℕ × List (BitVec 8)), Form s → Form (put s p) := fun _ _ ht => form_recWrites ht
    split
    · exact ha
    · exact form_foldl (fun _ _ ht => hput _ _ ht) ha

theorem form_snapshotImageDone {n dn g} (h : Form s) : Form (snapshotImageDone n dn g s) := by
  unfold snapshotImageDone
  split
  · exact h
  · split
    · extract_lets tiles d r s1 y4 rep
      have hd : Form d.2 := by
        unfold d
        split
        · exact h
        · exact form_snapMake h
      have hr : Form r.2 := form_snapRecord hd
      have hs1 : Form s1 := form_ite hr (form_raise hr)
      exact form_ite (form_ite (form_cmdEnd (form_with hs1)) (form_with hs1)) h
    · exact h

end Sys2Proof.Machine
end

section
/-! What the functions of Sys2Proof/Machine/Chorus.lean answer is in canonical form. -/

namespace Sys2Proof.Machine

variable {s : Block}

/-! ### Links (15 R345-R347) -/

theorem form_setLstate {n l v} (h : Form s) : Form (setLstate s n l v) := form_fput h

theorem form_spanLinkUp {n l pn pl asym} (h : Form s) : Form (spanLinkUp n l pn pl asym s) := by
  unfold spanLinkUp
  exact form_ite (form_setLstate (form_fput (form_fput (form_putLink h)))) h

theorem form_spanTrainRetry {n l} (h : Form s) : Form (spanTrainRetry n l s) := by
  unfold spanTrainRetry
  exact form_ite (form_putLink (form_setLstate (form_atTime h))) h

theorem form_putPair {n d q} (h : Form s) : Form (putPair s n d q) := form_with h

theorem form_sendFlit {n l} (h : Form s) : Form (sendFlit s n l).2 := by
  unfold sendFlit
  extract_lets y
  split
  · exact h
  · split
    · exact form_putLink (form_putPair h)
    · exact h

theorem form_ackFlit {n l} (h : Form s) : Form (ackFlit s n l) := by
  unfold ackFlit
  exact form_putLink h

theorem form_requeueFlit {n l} (h : Form s) : Form (requeueFlit s n l) := by
  unfold requeueFlit
  split
  · exact form_ackFlit (form_putPair h)
  · exact h

theorem form_flitReceive {n l seq found put} (h : Form s) : Form (flitReceive n l seq found put s) := by
  unfold flitReceive
  split
  · extract_lets s1 y2
    have hs1 : Form s1 := form_putPair h
    split
    · exact form_fsat (form_putLink (form_sendFlit hs1))
    · extract_lets s2 r
      have hs2 : Form s2 := by
        unfold s2
        split
        · exact form_fsat hs1
        · exact hs1
      have hr : Form r.2 := form_sendFlit hs2
      exact form_ite (form_putLink (form_ackFlit hr)) (form_putLink hs2)
  · exact h

theorem form_spanLinkEnWrite {n l en} (h : Form s) : Form (spanLinkEnWrite n l en s) := by
  unfold spanLinkEnWrite
  split
  · exact form_putLink (form_setLstate (form_fput (form_fput h)))
  · exact form_requeueFlit (form_setLstate (form_fput (form_fput h)))
  · exact h

/-! ### Topology (15 R349-R351) -/

theorem form_linkDownDetect {n l} (h : Form s) : Form (linkDownDetect n l s) := by
  unfold linkDownDetect
  refine form_ite ?_ h
  extract_lets y alone s1 s2
  have hs1 : Form s1 := form_setLstate (form_atTime h)
  have hs2 : Form s2 := form_ite (form_enterHoldover hs1) hs1
  exact form_raise (form_requeueFlit (form_putLink hs2))

/-! ### Calls (15 R352) -/

theorem form_sendCall {n port} (h : Form s) : Form (sendCall s n port) := form_with h

theorem form_callAll {n} (h : Form s) : Form (callAll s n) := by
  unfold callAll
  exact form_foldl (fun _ _ ht => form_ite (form_putLane (form_wslSend ht)) ht)
      (form_foldl (fun _ _ ht => form_ite (form_sendCall ht) ht) h)

theorem form_callPeriod {n} (h : Form s) : Form (callPeriod n s) := by
  unfold callPeriod
  extract_lets s1
  have hs1 : Form s1 := by
    unfold s1
    split
    · exact form_atTime h
    · exact h
  exact form_callAll (form_with hs1)

/-! ### Admission (15 R354-R356) -/

theorem form_admitModule {m} (h : Form s) : Form (admitModule s m) := by
  unfold admitModule
  extract_lets s1 s2 src s3 t
  have hs1 : Form s1 := form_with h
  have hs2 : Form s2 := form_setWPhase (form_putWeir hs1)
  have hs3 : Form s3 := form_putPow (form_setRole hs2)
  exact form_ite (form_stageTab hs3) (form_with hs3)

theorem form_refuse {n l r} (h : Form s) : Form (refuse s n l r) := by
  unfold refuse
  exact form_ite (form_fput (form_setLstate h)) (form_raise (form_putLink (form_fput (form_setLstate h))))

theorem form_judge {n l c} (h : Form s) : Form (judge s n l c) := by
  unfold judge
  split
  · exact h
  · extract_lets r s1 s2 t y1 y2 m
    have hs1 : Form s1 := form_fput h
    have hs2 : Form s2 := form_ite (form_setLstate hs1) hs1
    refine form_ite (form_refuse (form_ite (form_noteIsolated h) h)) ?_
    split
    · exact form_ite hs2 (form_stageTab hs2)
    · exact form_admitModule hs2

theorem form_chorusCall {n port bytes} (h : Form s) : Form (chorusCall n port bytes s) := by
  unfold chorusCall
  extract_lets p l src s1 s2
  have hs1 : Form s1 := form_putLink h
  have hs2 : Form s2 := form_sendCall hs1
  refine form_ite ?_ (form_ite (form_ite (form_judge hs2) hs2) h)
  refine form_ite h ?_
  split
  · exact form_ite (form_wslSend (form_wslSeen h)) (form_wslBad h)
  · exact form_wslBad h

/-! ### Answers and front-ends (15 R359) -/

theorem form_feAdmit {n p pay} (h : Form s) : Form (feAdmit s n p pay) := by
  unfold feAdmit
  exact form_put64 (form_fput (form_fput (form_fput (form_fput h))))

theorem form_feAnswer {n p pay} (h : Form s) : Form (feAnswer s n p pay) := by
  unfold feAnswer
  exact form_ite (form_ite (form_putLane h) (form_feAdmit (form_feLeave (form_putLane h)))) (form_feAdmit (form_putLane h))

theorem form_chorusAnswer {n port bytes} (h : Form s) : Form (chorusAnswer n port bytes s) := by
  unfold chorusAnswer
  extract_lets p src
  refine form_ite ?_ (form_ite (form_putLink h) h)
  refine form_ite h ?_
  split
  · exact form_ite (form_feAnswer (form_wslSeen h)) (form_wslBad h)
  · exact form_wslBad h

theorem form_frontEndLeave {n p} (h : Form s) : Form (frontEndLeave n p s) := form_ite (form_feLeave h) h

/-! ### The primary (15 R353) -/

theorem form_primaryElection (h : Form s) : Form (primaryElection s) := by
  unfold primaryElection
  exact form_ite (form_with (form_fset (form_setRole (form_atTime h)))) h

/-! ### Leaving (15 R357, R358) -/

theorem form_loseNode {m} (h : Form s) : Form (loseNode s m) := by
  unfold loseNode
  extract_lets was s1 s2 inVote s3
  have hs1 : Form s1 := form_leaveTable h
  have hs2 : Form s2 := form_ite (form_with hs1) hs1
  have hs3 : Form s3 := form_ite (form_raise hs2) hs2
  split
  · exact form_failCommit hs2
  · split
    · exact form_ite hs3 (form_checkEnd (form_with hs3))
    · exact hs3

theorem form_lossReport {n d} (h : Form s) : Form (lossReport n d s) := by
  unfold lossReport
  split
  · exact h
  · exact form_ite (form_ite h (form_loseNode h)) (form_ite (form_loseNode h) h)

theorem form_dropFlits {n} (h : Form s) : Form (dropFlits s n) := by
  unfold dropFlits
  exact form_foldl (fun _ _ ht => form_ackFlit ht) (form_with h)

theorem form_fence {n lost} (h : Form s) : Form (fence n lost s) := by
  unfold fence
  refine form_ite h ?_
  extract_lets mine s1
  have hs1 : Form s1 := form_foldl (fun _ _ ht => form_setLstate ht) h
  exact form_ite (form_muteAll (form_dropFlits hs1)) (form_splitFrom hs1)

theorem form_primaryUnreachable {n} (h : Form s) : Form (primaryUnreachable n s) := by
  unfold primaryUnreachable
  extract_lets lively s1 s2
  have hs1 : Form s1 := form_foldl (fun _ _ ht => form_setLstate ht) (form_setRole h)
  have hs2 : Form s2 := form_muteAll (form_raise hs1)
  exact form_ite (form_ite hs2 (form_splitAll (form_loseNode hs2))) h

/-! ### Time transfer (15 R360) -/

theorem form_timeTransfer {n l t1 t2 t3 t4} (h : Form s) : Form (timeTransfer n l t1 t2 t3 t4 s) := by
  unfold timeTransfer
  refine form_ite ?_ h
  extract_lets off s1 y s2 s3 bound
  have hs1 : Form s1 := form_rput h
  have hs2 : Form s2 := form_putTim hs1
  have hs3 : Form s3 := form_ite (form_leaveHoldover hs2) hs2
  refine form_ite (form_with hs3) ?_
  split
  · exact form_with hs3
  · exact form_ite (form_raise hs3) hs3

/-! ### TOPOLOGY_READ and TOPOLOGY_RESCAN (15 R356, R362) -/

theorem form_rescan (h : Form s) : Form (rescan s) := by
  unfold rescan
  exact form_foldl (fun _ _ ht => form_callAll ht) (form_stageTab (form_with h))

end Sys2Proof.Machine
end

section
/-! What the functions of Sys2Proof/Machine/NewtCmd.lean answer is in canonical form. -/

namespace Sys2Proof.Machine

variable {s : Block}

/-! ### Patrol scrub (02 R49-R51) -/

theorem form_repairRows {tk} (h : Form s) : Form (repairRows s tk) := by
  unfold repairRows
  extract_lets s1 src
  have hs1 : Form s1 := by
    unfold s1
    refine form_foldl ?_ h
    intro _ _ a
    extract_lets d
    split
    · exact form_writeRow a
    · exact a
  exact form_putTile hs1

theorem form_scrubRow {queue tk addr row} (h : Form s) : Form (scrubRow queue tk addr s row) := by
  unfold scrubRow
  extract_lets d s1 t
  have hs1 : Form s1 := form_planeUe h
  split
  · exact h
  · exact form_putTile (form_ite h (form_planeCe h))
  · exact form_ite h (form_ite (form_putTile hs1) hs1)

theorem form_scrubSlotOf {tk} (h : Form s) : Form (scrubSlotOf s tk) := by
  unfold scrubSlotOf
  extract_lets n t queue s1 addr s2 s3
  have hs1 : Form s1 := form_repairRows h
  have hs2 : Form s2 := form_foldl (fun _ _ ht => form_scrubRow ht) hs1
  have hs3 : Form s3 := form_ite (form_fwrap hs2) hs2
  exact form_ite h (form_fput hs3)

theorem form_scrubSlot {tn t} (h : Form s) : Form (scrubSlot tn t s) := form_ite (form_scrubSlotOf h) h

theorem form_scrubForcedSlot {tn t} (h : Form s) : Form (scrubForcedSlot tn t s) := form_ite (form_scrubSlotOf h) h

theorem form_patrolWord {tk} (h : Form s) : Form (patrolWord s tk) := by
  unfold patrolWord
  exact form_ite (form_fetchStore (form_putTile h)) (form_putTile h)

theorem form_scrubIdleWake {tn t} (h : Form s) : Form (scrubIdleWake tn t s) := by
  unfold scrubIdleWake
  exact form_ite (form_patrolWord (form_scrubSlotOf h)) h

theorem form_scrubWriteback {tn t} (h : Form s) : Form (scrubWriteback tn t s) := by
  unfold scrubWriteback
  exact form_foldl (fun _ _ ht => form_rowPutRaw ht) (form_putTile h)

theorem form_scrubEnWrite {n en} (h : Form s) : Form (scrubEnWrite n en s) := form_enWrite h

theorem form_scrubDrainDone {n} (h : Form s) : Form (scrubDrainDone n s) := form_ite (form_drainDone h) h

theorem form_storePatrolCheck {tn t} (h : Form s) : Form (storePatrolCheck tn t s) := form_ite (form_patrolWord h) h

theorem form_storeCeWriteback {tn t} (h : Form s) : Form (storeCeWriteback tn t s) := by
  unfold storeCeWriteback
  extract_lets tk src
  split
  · exact h
  · exact form_storePut (form_putTile h)

/-! ### CFG_REJECT of the NEWT block (02 R52) -/

theorem form_newtReject {n t bcast} (h : Form s) : Form (newtReject s n t bcast) := form_ite (form_fset h) (form_fput h)

/-! ### Inspections (02 R53-R55, R450) -/

theorem form_inspFlag {c f v} (h : Form s) : Form (inspFlag s c f v) := form_fput h

theorem form_inspStart {c n t cmd kind row addr} (h : Form s) : Form (inspStart s c n t cmd kind row addr) := by
  unfold inspStart
  extract_lets y i s1 s2 s3 w src
  have hs1 : Form s1 := form_fput (form_fput h)
  have hs2 : Form s2 := form_ite hs1 (form_fput hs1)
  have hs3 : Form s3 := form_foldl (fun _ _ ht => form_inspFlag ht) hs2
  have hsrc : Form src := form_inspFlag hs3
  exact form_ite h (form_ite (form_newtReject (form_inspFlag hs3)) (form_with hsrc))

theorem form_inspectionRead {c n t kind row addr} (h : Form s) : Form (inspectionRead c n t kind row addr s) := form_inspStart h

theorem form_inspectionWrite {c n t kind row addr} (h : Form s) : Form (inspectionWrite c n t kind row addr s) := form_inspStart h

theorem form_putInspData {c v} (h : Form s) : Form (putInspData s c v) := by
  unfold putInspData
  exact form_rput (form_rput h)

theorem form_inspRead {c tk kind row addr} (h : Form s) : Form (inspRead s c tk kind row addr) := by
  unfold inspRead
  refine form_ite ?_ (form_ite (form_fput (form_putInspData h)) (form_putInspData h))
  extract_lets d s1
  have hs1 : Form s1 := form_putInspData h
  split
  · exact hs1
  · exact form_inspFlag hs1
  · exact form_inspFlag hs1

theorem form_inspWrite {c tk kind row addr} (h : Form s) : Form (inspWrite s c tk kind row addr) := by
  unfold inspWrite
  exact form_ite (form_writeRow h) (form_ite (form_rowWritten (form_rowPutRaw h)) (form_pePut h))

theorem form_inspectionDone {c} (h : Form s) : Form (inspectionDone c s) := by
  unfold inspectionDone
  extract_lets k before s1 s2 s3
  have hs1 : Form s1 := form_with h
  have hs2 : Form s2 := form_inspFlag (form_inspFlag hs1)
  have hs3 : Form s3 := form_inspFlag hs2
  split
  · exact h
  · refine form_ite h ?_
    extract_lets tk cmd kind row addr
    exact form_ite (form_ite (form_putInspData hs3) hs3)
        (form_ite (form_inspRead hs2) (form_ite (form_inspWrite hs2) (form_inspFlag hs2)))

/-! ### The register path to the stores (03 R80-R83) -/

theorem form_storeStart {n t cmd store bcast raw addr} (h : Form s) : Form (storeStart s n t cmd store bcast raw addr) := by
  unfold storeStart
  extract_lets tk bc s1 keep s2 store1 refused s3 src
  have hs1 : Form s1 := form_fput (form_fput (form_fput h))
  have hs2 : Form s2 := form_ite (form_newtReject hs1) (form_fput hs1)
  have hs3 : Form s3 := form_fput hs2
  exact form_ite h (form_ite (form_newtReject (form_fput hs2)) (form_putTile hs3))

theorem form_storeWordRead {n t store bcast raw addr} (h : Form s) : Form (storeWordRead n t store bcast raw addr s) :=
  form_storeStart h

theorem form_storeWordWrite {n t store bcast raw addr} (h : Form s) : Form (storeWordWrite n t store bcast raw addr s) :=
  form_storeStart h

theorem form_storeVerify {n t bcast} (h : Form s) : Form (storeVerify n t bcast s) := form_storeStart h

theorem form_putStoreData {n t v} (h : Form s) : Form (putStoreData s n t v) := form_foldl (fun _ _ ht => form_rput ht) h

theorem form_verifyTile {tk} (h : Form s) : Form (verifyTile s tk) := form_rput h

theorem form_clearBad {tk store addr} (h : Form s) : Form (clearBad s tk store addr) := by
  unfold clearBad
  exact form_ite (form_fput h) h

theorem form_setDispCopy {m} (h : Form s) : Form { s with dispCopy := m } := form_with h

theorem form_storeOpDone {n t} (h : Form s) : Form (storeOpDone n t s) := by
  unfold storeOpDone
  extract_lets tk src s1 s2
  have hs1 : Form s1 := form_putTile h
  have hs2 : Form s2 := form_fput (form_fput hs1)
  split
  · exact h
  · refine form_ite (form_foldl (fun _ _ ht => form_fput ht) hs2) ?_
    refine form_ite (form_ite (form_fput (form_putStoreData hs2)) (form_fput (form_fput (form_putStoreData hs2)))) ?_
    refine form_ite ?_ (form_ite (form_foldl (fun _ _ ht => form_verifyTile ht) hs2) (form_verifyTile hs2))
    extract_lets w s3 s4
    have hs3 : Form s3 := form_storePutAll hs2
    have hs4 : Form s4 := form_foldl (fun _ _ ht => form_clearBad ht) hs3
    exact form_ite (form_ite (form_setDispCopy hs4) hs4) (form_clearBad (form_storePut hs2))

end Sys2Proof.Machine
end

section
/-! What the functions of Sys2Proof/Machine/Power.lean answer is in canonical form. -/

namespace Sys2Proof.Machine

variable {s : Block}

/-! ### Island clocks (18 R398, R399) -/

theorem form_putIsland {n i x} (h : Form s) : Form (putIsland s n i x) := form_with h

theorem form_govReject {n} (h : Form s) : Form (govReject s n) := form_fset h

theorem form_rangeWrite {n f v lo hi} (h : Form s) : Form (rangeWrite s n f v lo hi) := form_ite (form_fset h) (form_govReject h)

theorem form_govClkWrite {n w} (h : Form s) : Form (govClkWrite n w s) := form_rangeWrite (form_rangeWrite h)

theorem form_foldIsland {n i} (h : Form s) : Form (foldIsland s n i) := form_ite h (form_foldRelease h)

theorem form_sagStretch {n i d} (h : Form s) : Form (sagStretch n i d s) := by
  unfold sagStretch
  exact form_ite h (form_ite (form_ite h (form_putIsland h)) (form_putIsland (form_foldIsland h)))

theorem form_putSagLevel {n d v} (h : Form s) : Form (putSagLevel s n d v) := by
  unfold putSagLevel
  exact form_putPow h

theorem form_sagRecover {n i} (h : Form s) : Form (sagRecover n i s) := by
  unfold sagRecover
  extract_lets y
  split
  · exact h
  · extract_lets s1 was s2
    have hs1 : Form s1 := form_atTime h
    have hs2 : Form s2 := form_putIsland (form_foldIsland hs1)
    exact form_ite (form_putSagLevel hs2) hs2

theorem form_sagSustained {n d} (h : Form s) : Form (sagSustained n d s) := form_ite (form_raise (form_putSagLevel h)) h

theorem form_throttleStep {n d} (h : Form s) : Form (throttleStep n d s) := by
  unfold throttleStep
  exact form_ite h (form_ite (form_putSagLevel (form_atTime h)) (form_putSagLevel (form_atTime h)))

theorem form_powerSample {n dw} (h : Form s) : Form (powerSample n dw s) := by
  unfold powerSample
  exact form_ite (form_ite (form_raise (form_putPow (form_fset h))) (form_putPow (form_fset h)))
      (form_ite (form_putPow (form_fset h)) (form_fset h))

/-! ### Leaving Run (18 R405, R406) -/

theorem form_setMoving {n b} (h : Form s) : Form (setMoving s n b) := form_fset h

theorem form_startEntry {n t} (h : Form s) : Form (startEntry s n t) := by
  unfold startEntry
  extract_lets y
  refine form_ite h ?_
  refine form_ite (form_putPow h) ?_
  split
  · exact form_putPow h
  · exact form_ite h (form_setMoving (form_putPow (form_muteAll h)))

theorem form_secondaryGo {t n} (h : Form s) : Form (secondaryGo t s n) := by
  unfold secondaryGo
  exact form_ite (form_startEntry (form_leaveTable (form_putPow h))) (form_startEntry h)

theorem form_primaryLast (h : Form s) : Form (primaryLast s) := by
  unfold primaryLast
  split
  · exact form_ite (form_startEntry (form_putPow h)) h
  · exact h

theorem form_powerGo {ns t} (h : Form s) : Form (powerGo s ns t) := by
  unfold powerGo
  extract_lets others s1 src
  have hs1 : Form s1 := form_foldl (fun _ _ ht => form_secondaryGo ht) h
  exact form_ite (form_ite (form_startEntry hs1) (form_primaryLast (form_putPow hs1))) hs1

/-! ### Waking (18 R407) -/

theorem form_startExit {n src} (h : Form s) : Form (startExit s n src) := by
  unfold startExit
  extract_lets y
  refine form_ite h ?_
  split
  · exact form_ite (form_putPow h) h
  · exact form_ite h (form_ite (form_putPow h) (form_setMoving (form_putPow h)))

/-! ### What a state keeps (18 R404, R408) -/

theorem form_wipeRegs {n keep} (h : Form s) : Form (wipeRegs s n keep) := form_with { h with regs := filter_wf _ _ _ h.regs }

theorem form_wipeArray {n} (h : Form s) : Form (wipeArray s n) := by
  have h1 : Form (clearPlanes s n) := form_clearPlanes h
  exact form_with { h1 with lram := mdrop_wf _ _ _ _ h1.lram }

theorem form_wipeStreams {n} (h : Form s) : Form (wipeStreams s n) :=
  form_with { h with stg := mdrop_wf _ _ _ _ h.stg, record := mdrop_wf _ _ _ _ h.record }

theorem form_wipeControl {n} (h : Form s) : Form (wipeControl s n) := by
  unfold wipeControl
  extract_lets mine s1
  have hs1 : Form s1 := form_with { h with sels := mdrop_wf _ _ _ _ (mdrop_wf _ _ _ _ h.sels) }
  exact form_ite (form_with { hs1 with sels := mdrop_wf _ _ _ _ hs1.sels }) hs1

theorem form_wipeNode {n keep} (h : Form s) : Form (wipeNode s n keep) :=
  form_wipeRegs (form_wipeControl (form_wipeStreams (form_wipeArray h)))

theorem form_wipeChorus {n} (h : Form s) : Form (wipeChorus s n) := by
  unfold wipeChorus
  exact form_ite (form_with h) (form_with h)

/-! ### Entering a state (18 R404, R406) -/

theorem form_putFrozen {n rs} (h : Form s) : Form (putFrozen s n rs) := by
  unfold putFrozen
  exact form_putPow h

theorem form_stopRegions {n} (h : Form s) : Form (stopRegions s n) := by
  unfold stopRegions
  exact form_putFrozen (form_foldl (fun _ _ ht => form_stopRegion ht) h)

theorem form_lanesOff {n} (h : Form s) : Form (lanesOff s n) :=
  form_foldl (fun _ _ ht => form_ite ht (form_linksDown (form_setLaneState ht))) h

theorem form_freezeRegions {n} (h : Form s) : Form (freezeRegions s n) := by
  unfold freezeRegions
  exact form_putFrozen (form_foldl (fun _ _ ht => form_freezeRegion (form_putRegion ht)) h)

theorem form_putNvs {n x} (h : Form s) : Form (putNvs s n x) := form_with h

theorem form_closingDomains {n t} (h : Form s) : Form (closingDomains s n t) :=
  form_foldl (fun _ _ ht => form_ite (form_setBridge ht) ht) h

theorem form_closeDomains {n t} (h : Form s) : Form (closeDomains s n t) := form_foldl (fun _ _ ht => form_setBridge ht) h

theorem form_openDomains {n} (h : Form s) : Form (openDomains s n) :=
  form_foldl (fun _ _ ht => form_ite ht (form_wakeDomain ht)) h

theorem form_endpointReset {n} (h : Form s) : Form (endpointReset s n) := by
  unfold endpointReset
  exact form_putPow (form_ite (form_with h) (form_with h))

theorem form_restTime {n} (h : Form s) : Form (restTime s n) := by
  unfold restTime
  exact form_enterHoldover (form_putTim h)

theorem form_enterState {n t} (h : Form s) : Form (enterState s n t) := by
  unfold enterState
  extract_lets s1 s2 y y1 y2 y3
  have hs1 : Form s1 := by
    unfold s1
    split
    · exact form_freezeRegions h
    · exact form_closeDomains (form_lanesOff (form_stopRegions h))
    · exact form_wipeNode (form_closeDomains (form_stopRegions h))
    · exact form_restTime (form_endpointReset (form_wipeChorus (form_wipeNode (form_closeDomains (form_stopRegions h)))))
  have hs2 : Form s2 := form_ite (form_fset (form_fset (form_fset hs1))) hs1
  exact form_setMoving (form_fset (form_putPow hs2))

theorem form_drainTasks {n} (h : Form s) : Form (drainTasks s n) := form_foldl (fun _ _ ht => form_ite (form_stopTask ht) ht) h

theorem form_powerEntryDone {n} (h : Form s) : Form (powerEntryDone n s) := by
  unfold powerEntryDone
  split
  · exact form_primaryLast h
  · extract_lets trips s1 s2 wake src s3
    have hs1 : Form s1 := form_ite (form_drainTasks h) h
    have hs2 : Form s2 := form_closingDomains hs1
    have hs3 : Form s3 := form_enterState (form_putPow hs2)
    refine form_ite h ?_
    refine form_ite hs1 ?_
    refine form_ite hs2 ?_
    refine form_primaryLast ?_
    clear_value wake
    split
    · exact form_startExit hs3
    · exact hs3

/-! ### Reaching Run (18 R408, R409) -/

theorem form_thawRegions {n st} (h : Form s) : Form (thawRegions s n st) := by
  unfold thawRegions
  exact form_putFrozen
      (form_foldl (fun _ _ ht => form_ite (form_ite (form_thawRegion ht) ht) (form_ite (form_releaseRegion ht) ht)) h)

theorem form_startLinks {n} (h : Form s) : Form (startLinks s n) :=
  form_foldl (fun _ _ ht => form_ite (form_spanLinkEnWrite ht) ht) h

theorem form_sendKeepAlive (h : Form s) : Form (sendKeepAlive s) := by
  unfold sendKeepAlive
  exact form_foldl (fun _ _ ht => form_ite ht (form_putPow ht)) h

theorem form_powerExitDone {n} (h : Form s) : Form (powerExitDone n s) := by
  unfold powerExitDone
  split
  · exact h
  · refine form_ite h ?_
    extract_lets st after s1 src s2 s3 s4 s5 s6 s7 s8
    have hs1 : Form s1 := form_setMoving (form_fset (form_fset h))
    have hs2 : Form s2 := form_putPow hs1
    have hs3 : Form s3 := form_ite (form_openDomains hs2) hs2
    have hs4 : Form s4 := form_ite (form_thawRegions hs3) (form_clearRecord (form_clearStaging hs3))
    have hs5 : Form s5 := form_ite (form_startLinks hs4) hs4
    have hs6 : Form s6 := form_ite (form_ite (form_fset (form_setRole hs5)) (form_callAll (form_setRole hs5)))
        (form_ite (form_fset hs5) hs5)
    have hs7 : Form s7 := form_ite (form_sendKeepAlive hs6) hs6
    have hs8 : Form s8 := form_ite (form_endpointReset hs7) hs7
    clear_value after
    split
    · exact form_startEntry hs8
    · exact hs8

theorem form_keepAliveWake {n} (h : Form s) : Form (keepAliveWake n s) := by
  unfold keepAliveWake
  exact form_ite (form_startExit (form_putPow h)) h

theorem form_wakeNLow {n} (h : Form s) : Form (wakeNLow n s) := form_startExit h

theorem form_wakeTimer {n} (h : Form s) : Form (wakeTimer n s) := form_ite (form_startExit (form_atDev h)) h

theorem form_tlpWake (h : Form s) : Form (tlpWake s) := by
  unfold tlpWake
  exact form_startExit (form_putPow h)

theorem form_aspmL1Entry {en} (h : Form s) : Form (aspmL1Entry en s) := by
  unfold aspmL1Entry
  exact form_putPow h

/-! ### Requests (18 R405, 14 R322) -/

theorem form_powerRequest {n t all} (h : Form s) : Form (powerRequest s n t all).2 := by
  unfold powerRequest
  extract_lets ns
  split
  · exact h
  · exact form_powerGo h

theorem form_govReqWrite {n target all} (h : Form s) : Form (govReqWrite n target all s) := by
  unfold govReqWrite
  exact form_ite (form_govReject h) (form_ite h (form_ite (form_powerRequest h) (form_govReject (form_powerRequest h))))

theorem form_d3hotWrite (h : Form s) : Form (d3hotWrite s) := by
  unfold d3hotWrite
  exact form_ite (form_govReject (form_fset (form_with h))) (form_powerGo (form_with h))

/-! ### Temperature and rails (18 R402, R403; 20 R435-R439) -/

theorem form_tempSample {n t0 t1 t2 t3 io} (h : Form s) : Form (tempSample n t0 t1 t2 t3 io s) := by
  unfold tempSample
  extract_lets y cold ts warn hot s1 s2 trips s3
  have hs1 : Form s1 := form_putPow h
  have hs2 : Form s2 := form_foldl (fun _ _ ht => form_raise ht) hs1
  have hs3 : Form s3 := form_foldl (fun _ _ ht => form_raise ht) hs2
  exact form_ite h (form_ite hs1 (form_ite hs3 (form_startEntry hs3)))

theorem form_holdExit {n} (h : Form s) : Form (holdExit s n) := by
  unfold holdExit
  extract_lets y
  split
  · exact form_setMoving (form_putPow h)
  · exact h

theorem form_supplyEvent {n again} (h : Form s) : Form (supplyEvent s n again) := by
  unfold supplyEvent
  extract_lets y r d s1
  have hr : Form r.2 := form_drawFree h
  have hs1 : Form s1 := form_putPow (form_ite hr h)
  exact form_ite (form_with hs1) (form_raise hs1)

theorem form_railOutOfRange {n rail pwrFail} (h : Form s) : Form (railOutOfRange n rail pwrFail s) := by
  unfold railOutOfRange
  extract_lets y vin supply s1 s2 s3
  have hs1 : Form s1 := form_putPow h
  have hs2 : Form s2 := form_ite (form_holdExit hs1) hs1
  have hs3 : Form s3 := by
    unfold s3
    split
    · exact form_ite hs2 (form_raise hs2)
    · exact hs2
  exact form_ite h (form_ite hs2 (form_ite (form_supplyEvent hs3) hs3))

theorem form_railFaultTimeout {n back} (h : Form s) : Form (railFaultTimeout n back s) := by
  unfold railFaultTimeout
  extract_lets y all s1 src s2
  have hs1 : Form s1 := form_putPow h
  have hs2 : Form s2 := form_putPow hs1
  split
  · exact hs1
  · exact form_ite hs1 (form_ite hs2 (form_startEntry hs2))

theorem form_vinReturn {n} (h : Form s) : Form (vinReturn n s) := by
  unfold vinReturn
  extract_lets y s1
  have hs1 : Form s1 := form_putPow h
  refine form_ite h ?_
  split
  · exact form_startExit hs1
  · exact hs1

/-! ### The BMC target (18 R416, R417) -/

theorem form_bmcByteWrite {n off b} (h : Form s) : Form (bmcByteWrite s n off b) := by
  unfold bmcByteWrite
  exact form_ite h (form_ite (form_putPow h) (form_ite (form_startExit (form_putPow h)) (form_putPow (form_powerRequest h))))

theorem form_bmcWrite {n addr ptr bytes} (h : Form s) : Form (bmcWrite n addr ptr bytes s) := by
  unfold bmcWrite
  exact form_ite h (form_foldl (fun _ _ ht => form_putPow (form_bmcByteWrite ht)) (form_putPow h))

end Sys2Proof.Machine
end

section
/-! What the functions of Sys2Proof/Machine/NocBase.lean answer is in canonical form. -/

namespace Sys2Proof.Machine

variable {s : Block}

theorem form_nocReject {n} (h : Form s) : Form (nocReject s n) := form_fset h

/-! ### Isolation (16 R371) -/

theorem form_nocIsolateWrite {n k w} (h : Form s) : Form (nocIsolateWrite n k w s) := by
  unfold nocIsolateWrite
  exact form_ite (form_rput h) (form_ite (form_rput h) (form_nocReject (form_rput h)))

/-! ### Router tables (16 R373, R374) -/

theorem form_tdataWrite {n r port} (h : Form s) : Form (tdataWrite s n r port) := by
  unfold tdataWrite
  exact form_ite (form_nocReject h) (form_putRouter h)

theorem form_routerSwap {n r} (h : Form s) : Form (routerSwap n r s) := by
  unfold routerSwap
  exact form_ite (form_fput (form_putRouter h)) (form_nocReject h)

theorem form_swapDrainDone {n r} (h : Form s) : Form (swapDrainDone n r s) := by
  unfold swapDrainDone
  exact form_ite (form_foldl (fun _ _ ht => form_ite (form_releaseReqs ht) ht) (form_fput (form_fput h))) h

theorem form_nocReconfStall {n r} (h : Form s) : Form (nocReconfStall n r s) := by
  unfold nocReconfStall
  exact form_ite (form_raise (form_fput (form_putRouter (form_atTime h)))) h

/-! ### Domains (16 R375, 18 R410) -/

theorem form_setDomDown {n d b} (h : Form s) : Form (setDomDown s n d b) := by
  unfold setDomDown
  exact form_rput h

theorem form_domWrite {w n d} (h : Form s) : Form (domWrite w n s d) := by
  unfold domWrite
  refine form_ite ?_ (form_ite (form_setBridge (form_setDomDown h)) (form_setDomDown h))
  refine form_ite (form_govReject (form_setDomDown h)) ?_
  extract_lets s1 src
  have hs1 : Form s1 := form_setDomDown h
  exact form_ite (form_setBridge hs1) (form_ite (form_putPow hs1) hs1)

theorem form_domainDownWrite {n w} (h : Form s) : Form (domainDownWrite n w s) := form_foldl (fun _ _ ht => form_domWrite ht) h

theorem form_bridgeClosed {n d} (h : Form s) : Form (bridgeClosed n d s) := by
  unfold bridgeClosed
  refine form_ite ?_ h
  extract_lets s1
  have hs1 : Form s1 := form_setBridge h
  exact form_ite (form_lanesOff hs1) (form_ite (form_foldl (fun _ _ ht => form_ite ht (form_setLstate ht)) hs1) hs1)

end Sys2Proof.Machine
end

section
/-! What the functions of Sys2Proof/Machine/Fault.lean answer is in canonical form. -/

namespace Sys2Proof.Machine

variable {s : Block}

/-! ### Sources -/

theorem form_putFsrc {n src x} (h : Form s) : Form (putFsrc s n src x) := form_with h

/-! ### Quiet windows (17 R390) -/

theorem form_putQuiets {n qs} (h : Form s) : Form (putQuiets s n qs) := form_with h

theorem form_restartBlock {n src inst} (h : Form s) : Form (restartBlock s n src inst) := by
  unfold restartBlock
  extract_lets n64 l
  refine form_ite (form_spanLinkEnWrite (form_spanLinkEnWrite h)) ?_
  split
  · exact form_setLaneState h
  · exact form_foldl (fun _ _ ht => form_jlinkEnWrite (form_jlinkEnWrite ht)) h

theorem form_blockReset {n src inst} (h : Form s) : Form (blockReset s n src inst) := by
  unfold blockReset
  extract_lets qs s1 wait s2
  have hs1 : Form s1 := form_foldl (fun _ _ ht => form_ite (form_muteOut ht) ht) h
  have hs2 : Form s2 := form_ite hs1 (form_restartBlock hs1)
  exact form_ite h (form_putQuiets hs2)

theorem form_quietWindowEnd {n src inst} (h : Form s) : Form (quietWindowEnd n src inst s) := by
  unfold quietWindowEnd
  extract_lets qs mine others
  split
  · exact h
  · exact form_ite (form_ite (form_atTime h) (form_putQuiets (form_restartBlock h)))
      (form_ite (form_putQuiets h) (form_putQuiets (form_atTime h)))

/-! ### Records (17 R379, R381, R382) -/

theorem form_putRecRegs {n r bs} (h : Form s) : Form (putRecRegs s n r bs) := form_foldl (fun _ _ ht => form_rput ht) h

theorem form_pushRec {n r} (h : Form s) : Form (pushRec s n r) := by
  unfold pushRec
  extract_lets ring put s1 was s11
  have hput : ∀ (l : List FRec), Form (put l) := fun _ => form_with h
  have hs1 : Form s1 := hput _
  have hs11 : Form s11 := form_fset hs1
  refine form_ite (hput _) ?_
  clear_value ring
  split
  · exact form_ite hs1 (form_ite hs11 (form_raise hs11))
  · exact hs1

theorem form_bbQueue {n r} (h : Form s) : Form (bbQueue s n r) := by
  unfold bbQueue
  exact form_ite (form_putNvs h) (form_fsat h)

theorem form_blackboxWrite {n} (h : Form s) : Form (blackboxWrite n s) := by
  unfold blackboxWrite
  extract_lets y
  split
  · exact h
  · exact form_putNvs h

theorem form_tearBlackbox {n} (h : Form s) : Form (tearBlackbox s n) := by
  unfold tearBlackbox
  extract_lets y d
  have hd : Form d.2 := form_drawFree h
  split
  · exact h
  · exact form_ite (form_putNvs hd) hd

/-! ### Timers (17 R383, R385) -/

theorem form_openFault {n src o} (h : Form s) : Form (openFault s n src o) := by
  unfold openFault
  exact form_putFsrc h

theorem form_leakWrite {n src w} (h : Form s) : Form (leakWrite s n src w) := by
  unfold leakWrite
  exact form_ite (form_rput h) (form_putFsrc (form_rput h))

/-! ### Reactions (17 R388) -/

theorem form_levelReactions {n src level} (h : Form s) : Form (levelReactions s n src level) := by
  unfold levelReactions
  extract_lets s1 s2
  have hs1 : Form s1 := form_ite (form_hostIrq (form_irqAll h)) h
  have hs2 : Form s2 := form_ite (form_foldl (fun _ _ ht => form_muteAll ht) hs1) hs1
  exact form_ite (form_foldl (fun _ _ ht => form_faultStop ht) hs2) hs2

theorem form_makeRecord {n src inst detail level base flags conseq} (h : Form s) :
    Form (makeRecord s n src inst detail level base flags conseq) := by
  unfold makeRecord
  refine form_ite h ?_
  extract_lets seq first r s1 s2 s3 s4 s5 s6 s7 s8
  have hs1 : Form s1 := form_put64 h
  have hs2 : Form s2 := form_ite (form_putRecRegs (form_fset hs1)) (form_putRecRegs (form_fset hs1))
  have hs3 : Form s3 := form_logFault (form_pushRec hs2)
  have hs4 : Form s4 := form_ite (form_bbQueue hs3) hs3
  have hs5 : Form s5 := form_ite (form_openFault hs4) hs4
  have hs6 : Form s6 := form_levelReactions hs5
  have hs7 : Form s7 := form_ite (form_blockReset hs6) hs6
  have hs8 : Form s8 := form_ite (form_foldl (fun _ _ ht => form_ringFire ht) hs7) hs7
  exact form_ite (form_startExit hs8) hs8

/-! ### Taking events (17 R378, R380, R383, R384) -/

theorem form_countUp {n src} (h : Form s) : Form (countUp s n src).2 := by
  unfold countUp
  extract_lets c
  split
  · exact h
  · exact form_drawFree h

theorem form_countEvent {n src} (h : Form s) : Form (countEvent s n src).2 := by
  unfold countEvent
  extract_lets r s1 y s2 fresh s3
  have hr : Form r.2 := form_countUp h
  have hs1 : Form s1 := hr
  have hs2 : Form s2 := form_fput hs1
  have hs3 : Form s3 := form_fput hs1
  split
  · exact form_putFsrc (form_fput hs2)
  · exact form_ite (form_putFsrc hs3) hs3

theorem form_takeEvent {same e} (h : Form s) : Form (takeEvent same s e) := by
  unfold takeEvent
  extract_lets n conseq p s1 base cls level
  have hp : Form p.2 := by
    unfold p
    split
    · exact h
    · exact form_countEvent h
  have hs1 : Form s1 := hp
  exact form_makeRecord hs1

theorem form_faultEvent {n k} (h : Form s) : Form (faultEvent n k s) := by
  unfold faultEvent
  exact form_ite h (form_foldl (fun _ _ ht => form_takeEvent ht) (form_foldl (fun _ _ ht => form_fwrap ht) (form_with h)))

theorem form_leakTimer {n src} (h : Form s) : Form (leakTimer n src s) := by
  unfold leakTimer
  extract_lets y
  split
  · exact h
  · exact form_putFsrc (form_fput (form_atTime h))

theorem form_escalationTimer {n src} (h : Form s) : Form (escalationTimer n src s) := by
  unfold escalationTimer
  extract_lets y top
  split
  · exact h
  · split
    · exact h
    · exact form_makeRecord (form_putFsrc (form_atTime h))

theorem form_ackSource {n src} (h : Form s) : Form (ackSource s n src) := by
  unfold ackSource
  exact form_putFsrc h

theorem form_faultAckWrite {n src} (h : Form s) : Form (faultAckWrite n src s) := form_ackSource h

theorem form_clearFirst {n} (h : Form s) : Form (clearFirst n s) := form_fset (form_fset h)

end Sys2Proof.Machine
end

section
/-! What the functions of Sys2Proof/Machine/Time.lean answer is in canonical form. -/

namespace Sys2Proof.Machine

variable {s : Block}

theorem form_timReject {n} (h : Form s) : Form (timReject s n) := form_fset h

/-! ### The reference (18 R412) -/

theorem form_refLock {n} (h : Form s) : Form (refLock n s) := form_ite (form_leaveHoldover (form_fset h)) h

theorem form_refinLoss {n} (h : Form s) : Form (refinLoss n s) := form_ite (form_raise (form_enterHoldover h)) h

theorem form_refselWrite {n v} (h : Form s) : Form (refselWrite s n v) := by
  unfold refselWrite
  exact form_ite (form_enterHoldover (form_fset h)) (form_fset h)

/-! ### Loading device time (18 R414) -/

theorem form_shiftHold {by_} (h : Form s) : Form (shiftHold s by_) := by
  unfold shiftHold
  exact form_with h

theorem form_timeLoadNow (h : Form s) : Form (timeLoadNow s) := by
  unfold timeLoadNow
  extract_lets v src s1 src1
  have hs1 : Form s1 := form_putTim (form_fset h)
  have hsrc1 : Form src1 := form_shiftHold hs1
  exact form_ite (form_timReject hs1) (form_with hsrc1)

theorem form_timSetWrite {n} (h : Form s) : Form (timSetWrite n s) := by
  unfold timSetWrite
  exact form_ite (form_timReject h) (form_putTim (form_fset h))

theorem form_timeLoad (h : Form s) : Form (timeLoad s) := by
  unfold timeLoad
  split
  · exact form_ite h (form_timeLoadNow (form_atTime h))
  · exact h

/-! ### PPS (18 R413) -/

theorem form_ppsEdge {n} (h : Form s) : Form (ppsEdge n s) := by
  unfold ppsEdge
  exact form_ite h (form_ite (form_putTim (form_timeLoadNow h)) (form_ite (form_fset (form_putTim h)) (form_putTim h)))

theorem form_timPpsLoss {n} (h : Form s) : Form (timPpsLoss n s) := by
  unfold timPpsLoss
  split
  · exact form_ite (form_raise (form_fset (form_putTim (form_atDev h)))) h
  · exact h

theorem form_ppsOutPulse {n} (h : Form s) : Form (ppsOutPulse n s) := by
  unfold ppsOutPulse
  refine form_ite ?_ h
  extract_lets from_ due src s1
  have hs1 : Form s1 := form_putTim (form_atDev h)
  clear_value s1
  exact form_with hs1

/-! ### Holdover (18 R415) -/

theorem form_timHoldoverLimit {n} (h : Form s) : Form (timHoldoverLimit n s) := by
  unfold timHoldoverLimit
  split
  · exact form_ite h (form_raise (form_putTim (form_atDev h)))
  · exact h

end Sys2Proof.Machine
end

section
/-! What the functions of Sys2Proof/Machine/Nvs.lean answer is in canonical form. -/

namespace Sys2Proof.Machine

variable {s : Block}

/-! ### Settings pages (19 R421-R423) -/

theorem form_putNvCopy {n p c x} (h : Form s) : Form (putNvCopy s n p c x) := by
  unfold putNvCopy
  exact form_putNvs h

theorem form_readPage {n p} (h : Form s) : Form (readPage s n p).2.2 := by
  unfold readPage
  exact form_ite (form_raise h) h

theorem form_storePage {n p data bad} (h : Form s) : Form (storePage s n p data bad) := by
  unfold storePage
  exact form_foldl (fun _ _ ht => form_ite (form_raise (form_putNvCopy ht)) (form_putNvCopy ht)) h

theorem form_tearPage {n p data} (h : Form s) : Form (tearPage s n p data) := by
  unfold tearPage
  exact form_foldl (fun _ _ ht => form_ite (form_putNvCopy ht) (form_ite (form_putNvCopy ht) ht)) (form_drawFree h)

theorem form_readOwner {n} (h : Form s) : Form (readOwner s n) := by
  unfold readOwner
  exact form_putNvs (form_readPage h)

theorem form_applyCalibration {n} (h : Form s) : Form (applyCalibration s n) := form_ite h (form_raise h)

/-! ### Image slots (19 R419, R424-R426) -/

theorem form_putSlot {n k c} (h : Form s) : Form (putSlot s n k c) := form_with h

theorem form_checkImage {n types bs} (h : Form s) : Form (checkImage s n types bs).2 := by
  unfold checkImage
  split
  · split
    · exact h
    · exact form_raise h
  · exact h

theorem form_writeSlots {n k k1 l} (h : Form s) : Form (writeSlots n k k1 l s) := by
  induction k generalizing n k1 l s with
  | zero =>
    exact h
  | succ k ih =>
    unfold writeSlots
    exact form_ite h (ih (form_putSlot h))

theorem form_tearSlots {n k bs} (h : Form s) : Form (tearSlots s n k bs) := by
  unfold tearSlots
  exact form_foldl (fun _ _ ht => form_ite (form_ite (form_putSlot ht) ht) (form_ite (form_putSlot ht) ht)) (form_drawFree h)

theorem form_tearStores {n} (h : Form s) : Form (tearStores s n) := by
  unfold tearStores
  exact form_foldl
      (fun _ _ ht => form_ite
      (form_cmdEnd (form_ite (form_tearPage ht) (form_ite (form_tearPage ht) (form_ite (form_tearSlots ht) ht))))
      (form_ite (form_tearPage ht) (form_ite (form_tearPage ht) (form_ite (form_tearSlots ht) ht)))) (form_tearBlackbox h)

theorem form_slotImage {n k types} (h : Form s) : Form (slotImage s n k types).2 := by
  unfold slotImage
  split
  · exact h
  · exact h
  · exact form_checkImage h

/-! ### Microcode load (03 R84) -/

theorem form_loadStores {n img} (h : Form s) : Form (loadStores s n img) := by
  unfold loadStores
  extract_lets s1
  have hs1 : Form s1 := form_with h
  split
  · exact hs1
  · exact form_foldl (fun _ _ ht => form_ite (form_with ht) (form_with ht)) hs1

theorem form_setAllBad {n b} (h : Form s) : Form (setAllBad s n b) := form_foldl (fun _ _ ht => form_fput ht) h

theorem form_loadBeginMicro {n img} (h : Form s) : Form (loadBeginMicro s n img) := by
  unfold loadBeginMicro
  exact form_foldl (fun _ _ ht => form_putTile ht) (form_loadStores h)

theorem form_loadEndMicro {n crc} (h : Form s) : Form (loadEndMicro s n crc).2 := by
  unfold loadEndMicro
  extract_lets s1 bad s2 s3
  have hs1 : Form s1 := form_foldl (fun _ _ ht => form_verifyTile ht) h
  clear_value s1
  have hs2 : Form s2 := form_ite (form_setAllBad hs1) (form_foldl (fun _ _ ht => form_fput ht) hs1)
  clear_value s2
  have hs3 : Form s3 := form_foldl (fun _ _ ht => form_putTile ht) hs2
  clear_value s3
  exact hs3

theorem form_loadMicroSlot {n k} (h : Form s) : Form (loadMicroSlot s n k).2 := by
  unfold loadMicroSlot
  extract_lets r
  have hr : Form r.2 := form_slotImage h
  split
  · exact hr
  · split
    · exact hr
    · exact form_loadEndMicro (form_loadBeginMicro hr)

/-! ### The patrol (19 R420) -/

theorem form_headInvalidate {n k} (h : Form s) : Form (headInvalidate s n k) := by
  unfold headInvalidate
  refine form_ite ?_ (form_ite (form_putNvs h) h)
  extract_lets d c
  have hd : Form d.2 := form_drawFree h
  split
  · exact form_putNvCopy hd
  · exact hd

theorem form_nvInvalidate {n k} (h : Form s) : Form (nvInvalidate s n k) := by
  unfold nvInvalidate
  split
  · split
    · exact form_ite (form_putNvCopy h) h
    · exact h
  · split
    · exact form_putSlot h
    · exact h
    · exact form_ite (form_putSlot h) h
  · exact form_ite (form_putNvs h) (form_headInvalidate h)

theorem form_mramPatrol {n addr found} (h : Form s) : Form (mramPatrol n addr found s) := by
  unfold mramPatrol
  refine form_ite h ?_
  split
  · exact h
  · exact form_raise (form_fsat h)
  · exact form_nvInvalidate (form_raise (form_fsat h))

/-! ### Unlock (19 R430) -/

theorem form_drawBytes32 (h : Form s) : Form (drawBytes32 s).2 := by
  unfold drawBytes32
  exact form_drawFree (form_drawFree (form_drawFree (form_drawFree h)))

theorem form_drawChallenge {n} (h : Form s) : Form (drawChallenge s n) := by
  unfold drawChallenge
  exact form_ite h (form_putNvs (form_foldl (fun _ _ ht => form_rput ht) (form_drawBytes32 h)))

theorem form_unlockFail {n} (h : Form s) : Form (unlockFail s n) := by
  unfold unlockFail
  exact form_raise (form_ite (form_fset (form_fset (form_putNvs h))) (form_fset (form_putNvs h)))

theorem form_secUnlock {n scope} (h : Form s) : Form (secUnlock n scope s) := by
  unfold secUnlock
  extract_lets s1 v s2
  have hs1 : Form s1 := form_fset h
  have hs2 : Form s2 := form_putNvs hs1
  split
  · exact form_unlockFail hs2
  · exact form_ite (form_fset hs2) (form_unlockFail hs2)

theorem form_challengeExpiry {n} (h : Form s) : Form (challengeExpiry n s) := by
  unfold challengeExpiry
  extract_lets v
  split
  · exact form_putNvs (form_atTime h)
  · exact h

/-! ### The ACU register path (19 R430, R431) -/

theorem form_secDenied {n} (h : Form s) : Form (secDenied s n) := form_fset h

theorem form_dbgOpen {n k k1 reg} (h : Form s) : Form (dbgOpen s n k k1 reg).2 := by
  unfold dbgOpen
  split
  · exact form_secDenied h
  · extract_lets s1
    have hs1 : Form s1 := form_ite (form_acuReject h) (form_fput h)
    split
    · exact form_acuReject hs1
    · exact hs1

theorem form_dbgRegRead {n x k reg} (h : Form s) : Form (dbgRegRead n x k reg s) := by
  unfold dbgRegRead
  exact form_ite (form_rput (form_dbgOpen h)) (form_dbgOpen h)

theorem form_dbgRegWrite {n x k reg} (h : Form s) : Form (dbgRegWrite n x k reg s) := by
  unfold dbgRegWrite
  exact form_ite (form_putTask (form_dbgOpen h)) (form_dbgOpen h)

end Sys2Proof.Machine
end

section
/-! What the functions of Sys2Proof/Machine/Boot.lean answer is in canonical form. -/

namespace Sys2Proof.Machine

variable {s : Block}

theorem form_applyFio {n} (h : Form s) : Form (applyFio s n) := by
  unfold applyFio
  exact form_foldl (fun _ _ ht => form_fput (form_fput ht)) (form_readPage h)

theorem form_applyPages {n} (h : Form s) : Form (applyPages s n) := by
  unfold applyPages
  exact form_readOwner (form_applyFio (form_putPow (form_readPage h)))

theorem form_loadFault {before n} (h : Form s) : Form (loadFault before s n) := form_ite h (form_raise h)

theorem form_bootMicro {n} (h : Form s) : Form (bootMicro s n) := by
  unfold bootMicro
  extract_lets pg k a b
  have hpg : Form pg.2.2 := form_readPage h
  have ha : Form a.2 := form_loadMicroSlot hpg
  have hb : Form b.2 := form_loadMicroSlot ha
  exact form_ite ha (form_ite hb (form_loadFault (form_setAllBad hb)))

theorem form_emptyFabric {n} (h : Form s) : Form (emptyFabric s n) :=
  form_foldl (fun _ _ ht => form_putRegion (form_stopRegion ht)) h

theorem form_bootFabric {n} (h : Form s) : Form (bootFabric s n) := by
  unfold bootFabric
  extract_lets pg k r
  have hpg : Form pg.2.2 := form_readPage h
  have hr : Form r.2 := form_slotImage hpg
  refine form_ite (form_emptyFabric hpg) ?_
  split
  · exact form_ite (form_loadFinish (form_loadStop hr)) (form_emptyFabric (form_loadFinish (form_loadStop hr)))
  · exact form_emptyFabric (form_loadFault hr)

theorem form_bootMemories {n} (h : Form s) : Form (bootMemories s n) := form_clearRecord h

theorem form_setReady {n} (h : Form s) : Form (setReady s n) := form_fset (form_fset h)

theorem form_bootRest {n link} (h : Form s) : Form (bootRest s n link) := by
  unfold bootRest
  extract_lets s1 s2 s3 s4 s5 src
  have hs1 : Form s1 := form_bootFabric (form_bootMemories (form_bootMicro (form_applyCalibration h)))
  have hs2 : Form s2 := form_with hs1
  have hs3 : Form s3 := form_ite (form_enterHoldover hs2) hs2
  have hs4 : Form s4 := form_startLinks hs3
  have hs5 : Form s5 := form_callAll (form_setRole hs4)
  exact form_setReady (form_putPow hs5)

theorem form_startFirmware {n k img} (h : Form s) : Form (startFirmware s n k img) := by
  unfold startFirmware
  exact form_rput (form_fset (form_fset h))

theorem form_bootSlot {n} (h : Form s) : Form (bootSlot s n).2 := by
  unfold bootSlot
  exact form_readPage h

theorem form_bootFrom4 {n link} (h : Form s) : Form (bootFrom4 s n link) := by
  unfold bootFrom4
  extract_lets b r r2
  have hb : Form b.2 := form_bootSlot h
  have hr : Form r.2 := form_slotImage hb
  have hr2 : Form r2.2 := form_slotImage hr
  split
  · exact form_bootRest (form_startFirmware hr)
  · split
    · exact form_bootRest (form_fset (form_startFirmware hr2))
    · exact form_fset hr2

theorem form_dropLatches {n} (h : Form s) : Form (dropLatches s n) := form_with h

theorem form_wipeAll {n} (h : Form s) : Form (wipeAll s n) := by
  unfold wipeAll
  extract_lets s1 y s2
  have hs1 : Form s1 := form_dropLatches (form_wipeChorus (form_wipeNode h))
  clear_value s1
  have hs2 : Form s2 := form_putNvs hs1
  clear_value s2
  exact form_putTim (form_with hs2)

theorem form_bootTime {n} (h : Form s) : Form (bootTime s n) := by
  unfold bootTime
  exact form_ite (form_with (form_foldl (fun _ _ ht => form_putTim ht) h)) (form_putTim h)

theorem form_bootNode {n recovery addr lowIo link} (h : Form s) : Form (bootNode s n recovery addr lowIo link) := by
  unfold bootNode
  extract_lets s1 y s2 s3 s4
  have hs1 : Form s1 := form_bootTime (form_wipeAll h)
  have hs2 : Form s2 := form_putNvs hs1
  have hs3 : Form s3 := form_fset hs2
  have hs4 : Form s4 := form_applyPages (form_putPow hs3)
  exact form_ite (form_fset hs4) (form_bootFrom4 hs4)

theorem form_powerGood {n recovery straps link} (h : Form s) : Form (powerGood n recovery straps link s) :=
  form_ite h (form_bootNode h)

theorem form_vinCollapse {n} (h : Form s) : Form (vinCollapse n s) := by
  unfold vinCollapse
  exact form_ite h (form_ite (form_setMoving (form_putPow h)) (form_enterState (form_putPow (form_tearStores h))))

theorem form_vauxLoss {n} (h : Form s) : Form (vauxLoss n s) := by
  unfold vauxLoss
  extract_lets s1 s2
  have hs1 : Form s1 := form_dropLatches (form_wipeChorus (form_wipeNode (form_tearStores h)))
  have hs2 : Form s2 := form_with hs1
  exact form_putTim (form_putPow hs2)

theorem form_resetNAssert {n high recovery addr link} (h : Form s) : Form (resetNAssert n high recovery addr link s) := by
  unfold resetNAssert
  extract_lets y s1
  have hs1 : Form s1 := form_ite h (form_putPow (form_muteAll h))
  refine form_ite h ?_
  exact form_ite hs1 (form_ite (form_bootNode (form_tearStores hs1)) (form_putPow (form_wipeAll (form_tearStores hs1))))

theorem form_reloadDone {n} (h : Form s) : Form (reloadDone n s) := by
  unfold reloadDone
  exact form_ite (form_setReady (form_putPow (form_bootFabric (form_bootMicro (form_applyCalibration (form_applyPages h)))))) h

end Sys2Proof.Machine
end

section
/-! What the functions of Sys2Proof/Machine/GangCmd.lean answer is in canonical form. -/

namespace Sys2Proof.Machine

variable {s : Block}

theorem form_gangEnable {n g} (h : Form s) : Form (gangEnable s n g) := by
  unfold gangEnable
  refine form_ite (form_millReject h) ?_
  refine form_ite h ?_
  refine form_ite (form_millReject h) ?_
  extract_lets y s1 s2 s3
  have hs1 : Form s1 := by
    unfold s1
    split
    · exact form_cmdEnd h
    · exact h
  have hs2 : Form s2 := form_putGang hs1
  have hs3 : Form s3 := form_rput hs2
  exact form_fput (form_setGState hs3)

theorem form_gangEnWrite {n g en} (h : Form s) : Form (gangEnWrite n g en s) := form_ite (form_gangEnable h) (form_startDrain h)

theorem form_gangStopWrite {n g} (h : Form s) : Form (gangStopWrite n g s) := form_ite (form_stopRequest h) h

theorem form_gangResumeWrite {n g} (h : Form s) : Form (gangResumeWrite n g s) := form_resumeGang h

theorem form_resumeDiscard {n g} (h : Form s) : Form (resumeDiscard n g s) := form_discardHeld h

end Sys2Proof.Machine
end

section
/-! What the functions of Sys2Proof/Machine/CmdQueue.lean answer is in canonical form. -/

namespace Sys2Proof.Machine

variable {s : Block}

/-! ### Selects (00 R8, 14 R336, R337) -/

theorem form_cmdReject (h : Form s) : Form (cmdReject s) := form_fset h

theorem form_selWrite {c i w} (h : Form s) : Form (selWrite s c i w) := by
  unfold selWrite
  exact form_ite (form_selPut h) (form_cmdReject h)

/-! ### Queues (14 R325-R328) -/

theorem form_queueReject {q} (h : Form s) : Form (queueReject s q) := form_fput h

theorem form_doorbellBad {q} (h : Form s) : Form (doorbellBad s q) := form_raise (form_queueReject h)

theorem form_sqTailWrite {q v} (h : Form s) : Form (sqTailWrite q v s) := form_ite h (form_ite (form_doorbellBad h) (form_fput h))

theorem form_cqHeadWrite {q v} (h : Form s) : Form (cqHeadWrite q v s) := by
  unfold cqHeadWrite
  exact form_ite h (form_ite (form_doorbellBad h) (form_fput h))

/-! ### Stopping a command before its commit point (14 R335, 13 R316) -/

theorem form_unstage {nodes} (h : Form s) : Form (unstage s nodes) := by
  unfold unstage
  split
  · exact h
  · exact form_stageTab (form_with h)

theorem form_stopProgram {f halt} (h : Form s) : Form (stopProgram s f halt) := by
  unfold stopProgram
  exact form_ite (form_ite (form_abortStop (form_putGang h)) (form_putGang h)) h

theorem form_stopFlight {status halt f} (h : Form s) : Form (stopFlight status halt s f) := by
  unfold stopFlight
  extract_lets prog s1 s2 s3 s4
  have hs1 : Form s1 := form_with h
  have hs2 : Form s2 := form_ite (form_unstage hs1) hs1
  have hs3 : Form s3 := by
    unfold s3
    split
    · exact form_ite (form_loadDrop hs2) hs2
    · exact hs2
  have hs4 : Form s4 := form_ite (form_stopProgram hs3) hs3
  exact form_ite h (form_ite (form_cmdSet h) (form_cmdEnd hs4))

theorem form_queueEnWrite {q en} (h : Form s) : Form (queueEnWrite q en s) := by
  unfold queueEnWrite
  split
  · exact form_with (form_fput (form_fput (form_fput (form_fput (form_fput (form_fput h))))))
  · exact form_foldl (fun _ _ ht => form_stopFlight ht) (form_fput (form_fput h))
  · exact h

theorem form_queueDrainDone {q} (h : Form s) : Form (queueDrainDone q s) := form_ite (form_fput h) h

/-! ### Replies (14 R331) -/

theorem form_tellAborts {q cid status} (h : Form s) : Form (tellAborts s q cid status) := form_with h

theorem form_setAnswered {p c d} (h : Form s) : Form { s with phases := p, flight := c, doneCids := d } := form_with h

theorem form_writeReply {f r} (h : Form s) : Form (writeReply s f r) := by
  unfold writeReply
  extract_lets q tail phase s1 next s2 done s3 s4
  have hs1 : Form s1 := form_hostWrite h
  have hs2 : Form s2 := form_fput hs1
  have hs3 : Form s3 := form_setAnswered hs2
  have hs4 : Form s4 := form_ite hs3 (form_tellAborts hs3)
  exact form_ite (form_hostIrq hs4) hs4

end Sys2Proof.Machine
end

section
/-! What the functions of Sys2Proof/Machine/Wheel.lean answer is in canonical form. -/

namespace Sys2Proof.Machine

variable {s : Block}

/-! ### Elements (10 R239) -/

theorem form_noteErr {x : XferAcc} {c} (h : Form x.st) : Form (noteErr x c).st := form_with h

theorem form_wheelReq {n eng kind req} {x : XferAcc} (h : Form x.st) : Form (wheelReq n eng kind req x).2.st := by
  unfold wheelReq
  extract_lets t q
  have hq : Form q.st := by
    unfold q
    refine form_overNet1 h (fun _ ht => form_timedOut ht) ?_
    intro _ a
    split
    · exact form_stgOwned a
    · exact form_recReq a
  exact hq

theorem form_recOf {x n eng i} (h : Form s) : Form (recOf x n eng i s).2 := by
  unfold recOf
  split
  · extract_lets addr q
    have hq : Form q.st := form_recReq h
    split
    · exact h
    · split
      · exact hq
      · split
        · exact hq
        · exact hq
  · exact h

theorem form_noteBank {x : XferAcc} {n addr c} (h : Form x.st) : Form (noteBank x n addr c).st := by
  unfold noteBank
  extract_lets a
  have ha : Form a.st := form_noteErr h
  split
  · exact form_raise ha
  · exact ha

theorem form_winElem {n eng x wd i e} {x1 : XferAcc} (h : Form x1.st) : Form (winElem n eng x wd i e x1).2.st := by
  unfold winElem
  split
  · next he =>
    exact form_snd (form_recOf h) he
  · next he =>
    exact form_noteErr (form_snd (form_recOf h) he)
  · next he =>
    extract_lets addr c q v src
    have hq : Form q.2.st := form_wheelReq (form_snd (form_recOf h) he)
    have hsrc : Form src.st := hq
    split
    · exact form_noteBank (form_snd (form_recOf h) he)
    · split
      · exact form_noteErr hq
      · exact hsrc

theorem form_winElems {n eng x wd bad l} {y : XferAcc} (h : Form y.st) : Form (winElems n eng x wd bad l y).2.st := by
  induction l generalizing y with
  | nil => exact h
  | cons o l ih =>
    match o with
    | none => exact ih h
    | some (i, e) =>
      unfold winElems
      refine ih ?_
      split
      · exact h
      · exact form_winElem h

theorem form_portElem {k i e v} (h : Form s) : Form (portElem s k i e v) := form_with h

theorem form_woutElem {n gk eng x wd i e v} {p : Latch × XferAcc} (h : Form p.2.st) :
    Form (woutElem n gk eng x wd i e v p).2.st := by
  unfold woutElem
  extract_lets l a o
  have ha : Form a.st := h
  split
  · exact form_portElem ha
  · split
    · next he =>
      exact form_snd (form_recOf ha) he
    · next he =>
      exact form_noteErr (form_snd (form_recOf ha) he)
    · next he =>
      extract_lets addr c q src
      have hq : Form q.2.st := form_wheelReq (form_snd (form_recOf ha) he)
      have hsrc : Form src.st := hq
      split
      · exact form_noteBank (form_snd (form_recOf ha) he)
      · split
        · exact form_snd (form_recOf ha) he
        · dsimp -zeta only
          split
          · exact form_noteErr hq
          · exact hsrc

/-! ### Transfers (10 R241-R243) -/

theorem form_slotReport {n i gk l code f} (h : Form s) : Form (slotReport s n i gk l code f).2 := by
  unfold slotReport
  extract_lets fl s1 old s2 s3
  have hs1 : Form s1 := form_fput h
  have hs2 : Form s2 := form_fput (form_fput hs1)
  have hs3 : Form s3 := form_raise hs2
  split
  · exact hs1
  · split
    · exact hs2
    · exact form_hostIrq (form_irqAcu hs3)

theorem form_takeLatch {tn gk m} (h : Form s) : Form (takeLatch s tn gk m).2 := by
  unfold takeLatch
  extract_lets f s1
  have hs1 : Form s1 := form_latchSlot h
  split
  · exact hs1
  · exact hs1

theorem form_xferIn {n g tk eng i x m l way} (h : Form s) : Form (xferIn s n g tk eng i x m l way) := by
  unfold xferIn
  exact form_putTile (form_with (form_slotReport (form_winElems h)))

theorem form_foldl_latch {α : Type} {f : Latch × XferAcc → α → Latch × XferAcc} {l : List α} {p : Latch × XferAcc}
    (hf : ∀ p x, Form p.2.st → Form (f p x).2.st) (h : Form p.2.st) : Form (l.foldl f p).2.st :=
  List.foldlRecOn (motive := fun p => Form p.2.st) l f h fun p hp x _ => hf p x hp

theorem form_tail {b : Bool} {p : Latch × XferAcc} (h : Form p.2.st) : Form (b, p).2.2.st := h

theorem form_woutTile {n g tk eng x f bad} {p : Bool × Latch × XferAcc} {e} (h : Form p.2.2.st) :
    Form (woutTile n g tk eng x f bad p e).2.2.st := by
  unfold woutTile
  extract_lets wd base old rd src q
  have hq : Form q.2.2.st := by
    have hrd : Form rd.st := form_readAll h
    exact hrd
  split
  · exact hq
  · exact form_tail (form_foldl_latch (fun _ _ hp => form_foldl_latch (fun _ _ hp => form_woutElem hp) hp) hq)

theorem form_portFresh {k x m} (h : Form s) : Form (portFresh s k x m) := form_ite (form_with h) h

theorem form_foldl_wout {α : Type} {f : Bool × Latch × XferAcc → α → Bool × Latch × XferAcc} {l : List α}
    {p : Bool × Latch × XferAcc} (hf : ∀ p x, Form p.2.2.st → Form (f p x).2.2.st) (h : Form p.2.2.st) :
    Form (l.foldl f p).2.2.st :=
  List.foldlRecOn (motive := fun p => Form p.2.2.st) l f h fun p hp x _ => hf p x hp

theorem form_setPorts {m} (h : Form s) : Form { s with ports := m } := form_with h

theorem form_xferOut {n g tk eng i k x m l way} (h : Form s) : Form (xferOut s n g tk eng i k x m l way) := by
  unfold xferOut
  extract_lets tn f t c stop badSlot code mine key first s1 r q put done
  have hs1 : Form s1 := form_ite (form_portFresh h) h
  have hr : Form r.2.2.st := form_foldl_wout (fun _ _ hp => form_woutTile hp) hs1
  have hq : Form q.2 := form_slotReport hr
  have hput : ∀ s, Form s → Form (put s) := fun _ ht => form_putTile (form_with ht)
  refine form_ite h (form_ite (form_faultStop hr) (form_ite ?_ (hput _ hq)))
  split
  · next he =>
    have ht := (form_logPort hq).of_eq he
    exact hput _ (form_setPorts ht)
  · exact h

theorem form_wheelTransfer {tn t k way} (h : Form s) : Form (wheelTransfer tn t k way s) := by
  unfold wheelTransfer
  extract_lets tk
  split
  · split
    · exact h
    · extract_lets f eng i
      refine form_ite h ?_
      split
      · next he3 =>
        exact form_snd (form_takeLatch h) he3
      · next he3 =>
        extract_lets y4
        refine form_ite (form_snd (form_takeLatch h) he3) ?_
        exact form_ite (form_xferIn (form_snd (form_takeLatch h) he3)) (form_xferOut (form_snd (form_takeLatch h) he3))
  · exact h

/-! ### Engines (10 R244) -/

theorem form_wheelEnWrite {n e en} (h : Form s) : Form (wheelEnWrite n e en s) := form_enWrite h

theorem form_wheelDrainDone {n e} (h : Form s) : Form (wheelDrainDone n e s) := form_ite (form_irqAll (form_fput h)) h

end Sys2Proof.Machine
end

section
/-! What the functions of Sys2Proof/Machine/RegRead.lean answer is in canonical form. -/

namespace Sys2Proof.Machine

variable {s : Block}

/-! ### Pins of the fabric (12 R287) -/

theorem form_pinBits {n p} (h : Form s) : Form (pinBits s n p).2 := by
  unfold pinBits
  extract_lets v r
  have hr : Form r.2 := form_drawFree h
  split
  · exact hr
  · split
    · exact h
    · split
      · exact h
      · split
        · exact h
        · exact hr

/-! ### One read (01 R14, R16) -/

theorem form_readReg {c n r idx} (h : Form s) : Form (readReg s c n r idx).2 := by
  unfold readReg
  extract_lets k p s1
  have hp : Form p.2 := form_pinBits h
  have hs1 : Form s1 := form_drawChallenge h
  split
  · exact h
  · exact hp
  · exact form_with h
  · split
    · exact hs1
    · exact h
  · split
    · exact form_secDenied h
    · exact h
  · split
    · exact form_secDenied h
    · exact h
  · exact h

end Sys2Proof.Machine
end

section
/-! What the functions of Sys2Proof/Machine/Router.lean answer is in canonical form. -/

namespace Sys2Proof.Machine

variable {s : Block}

/-! ### Fields (00 R5-R7) -/

theorem form_setReject {n r idx sel} (h : Form s) : Form (setReject s n r idx sel) := by
  unfold setReject
  split
  · exact h
  · exact form_ite (form_newtReject h) (form_fset h)
  · exact form_spReject h
  · exact form_strmReject h
  · exact form_fput h
  · exact form_queueReject h
  · exact form_acuReject h
  · exact form_govReject h
  · exact form_timReject h
  · exact form_drvReject h
  · exact form_logReject h
  · exact form_fput h

theorem form_writeBut {skip n r idx sel w} (h : Form s) : Form (writeBut skip s n r idx sel w) := by
  unfold writeBut
  exact form_ite (form_setReject (form_rput h)) (form_rput h)

theorem form_writeLocked {isOff free n r idx sel w} (h : Form s) : Form (writeLocked isOff free s n r idx sel w) := by
  unfold writeLocked
  exact form_ite (form_writeBut h) (form_writeBut (form_ite (form_setReject h) h))

theorem form_writeOff {isOff n r idx sel w} (h : Form s) : Form (writeOff isOff s n r idx sel w) :=
  form_ite (form_writeBut h) (form_setReject h)

theorem form_writeClear {n r idx sel w} (h : Form s) : Form (writeClear s n r idx sel w) := by
  unfold writeClear
  split
  · exact form_ite (form_foldl (fun _ _ ht => form_fput ht) h) h
  · exact h

theorem form_writeRecord {n r idx sel w} (h : Form s) : Form (writeRecord s n r idx sel w) := by
  unfold writeRecord
  split
  · exact form_ite (form_foldl (fun _ _ ht => form_rput ht) (form_rput h)) h
  · exact h

theorem form_plain {n r idx sel w} (h : Form s) : Form (plain s n r idx sel w) :=
  form_writeRecord (form_writeClear (form_writeBut h))

/-! ### RWL fields (13 R300) -/

theorem form_rwlWrite {c n r idx sel w} (h : Form s) : Form (rwlWrite s c n r idx sel w) := by
  unfold rwlWrite
  exact form_ite (form_setReject (form_ite (form_with h) (form_with h))) (form_ite (form_with h) (form_with h))

/-! ### The blocks -/

theorem form_inspIdle {c n t w} (h : Form s) : Form (inspIdle s c n t w) := by
  unfold inspIdle
  exact form_ite (form_newtReject (form_rput h)) (form_rput h)

theorem form_storeCtrlWrite {n t w} (h : Form s) : Form (storeCtrlWrite s n t w) := by
  unfold storeCtrlWrite
  exact form_ite (form_newtReject (form_rput h)) (form_rput h)

theorem form_writeNewt {c n r idx sel w} (h : Form s) : Form (writeNewt s c n r idx sel w) := by
  unfold writeNewt
  extract_lets nn t y i s1
  have hs1 : Form s1 := form_rput h
  split
  · exact form_scrubEnWrite (form_writeBut h)
  · split
    · exact form_inspectionRead h
    · exact form_inspectionWrite h
    · exact form_inspIdle h
  · exact form_ite (form_fput hs1) hs1
  · exact form_rput h
  · exact form_rput h
  · exact form_rput h
  · split
    · exact form_storeWordRead h
    · exact form_storeWordWrite h
    · exact form_ite h (form_storeVerify (form_storeCtrlWrite h))
    · exact form_storeCtrlWrite h
  · exact form_plain h

theorem form_writeMill {n r idx sel w} (h : Form s) : Form (writeMill s n r idx sel w) := by
  unfold writeMill
  extract_lets nn g s1 s2
  have hs1 : Form s1 := form_gangEnWrite h
  have hs2 : Form s2 := form_ite (form_gangStopWrite hs1) hs1
  split
  · exact form_ite (form_resumeDiscard h) h
  · exact form_ite (form_gangResumeWrite hs2) hs2
  · exact form_plain h

theorem form_writeAcu {n r idx sel w} (h : Form s) : Form (writeAcu s n r idx sel w) := by
  unfold writeAcu
  extract_lets nn a k
  split
  · exact form_ite (form_plain h) (form_acuReject h)
  · exact form_ite (form_plain h) (form_acuReject h)
  · exact form_ite (form_plain h) (form_acuReject h)
  · exact form_taskEn (form_writeBut h)
  · exact form_ite (form_acuReject h) (form_plain h)
  · exact form_acuIpi h
  · exact form_acuBell h
  · exact form_patrolEn (form_writeBut h)
  · exact form_plain h

theorem form_writeMem {n r idx sel w} (h : Form s) : Form (writeMem s n r idx sel w) := by
  unfold writeMem
  extract_lets nn s1 s2 s3
  have hs1 : Form s1 := form_ite (form_fput h) h
  have hs2 : Form s2 := form_ringEnWrite (form_writeBut h)
  have hs3 : Form s3 := form_ite (form_ringResume hs2) hs2
  split
  · exact form_ownerWrite hs1
  · exact form_patrolEn (form_writeBut h)
  · exact form_patrolEn (form_writeBut h)
  · exact form_ringAreaWrite h
  · exact form_ite (form_ringTrigger hs3) hs3
  · exact form_wheelEnWrite (form_writeBut h)
  · exact form_ite (form_fput h) (form_ite (form_fput (form_plain h)) (form_plain h))

theorem form_writeStream {n r idx sel w} (h : Form s) : Form (writeStream s n r idx sel w) := by
  unfold writeStream
  extract_lets nn a s1 s2 s3
  have hs1 : Form s1 := form_laneCfgWrite h
  have hs2 : Form s2 := form_writeClear h
  have hs3 : Form s3 := form_plain h
  split
  · exact form_ite (form_spReject hs1) hs1
  · exact form_ite (form_fput hs2) hs2
  · exact form_jlinkEnWrite (form_writeBut h)
  · exact form_streamEnWrite (form_writeLocked h)
  · exact form_writeOff h
  · exact form_writeOff h
  · exact form_writeOff h
  · exact form_writeOff h
  · exact form_driveEnWrite (form_writeLocked h)
  · exact form_writeOff h
  · exact form_writeOff h
  · exact form_ite (form_drvReject h) (form_plain h)
  · exact form_drvReadyWrite h
  · exact form_ite (form_fput (form_driveMuteWrite h)) (form_ite (form_driveUnmuteWrite h) (form_ite (form_driveMuteWrite h) h))
  · exact form_ite (form_muteAllWrite hs3) hs3
  · exact form_plain h

theorem form_writeLog {n r idx sel w} (h : Form s) : Form (writeLog s n r idx sel w) := by
  unfold writeLog
  extract_lets nn logOff c go s1
  have hs1 : Form s1 := form_ite h (form_plain h)
  split
  · exact form_logEnWrite (form_writeLocked h)
  · exact form_writeOff h
  · exact form_writeOff h
  · exact form_logRptrWrite h
  · exact h
  · exact form_fabricIrq (form_plain h)
  · clear_value c
    split
    · exact form_capture hs1
    · exact form_captureResume hs1
    · exact hs1
  · exact form_regionEnWrite h
  · exact form_plain h

theorem form_writeWeir {n r idx sel w} (h : Form s) : Form (writeWeir s n r idx sel w) := by
  unfold writeWeir
  extract_lets nn pubOff s1 s2 s3 s4
  have hs1 : Form s1 := form_plain h
  have hs2 : Form s2 := form_ite (form_weirDiscard hs1) hs1
  have hs3 : Form s3 := form_writeLocked h
  have hs4 : Form s4 := form_pubEnWrite hs3
  split
  · exact form_ite (form_weirReject h) (form_ite (form_weirCommitWrite hs2) hs2)
  · exact form_ite (form_pubReadyWrite hs4) hs4
  · exact form_writeOff h
  · exact form_writeOff h
  · exact form_plain h

theorem form_writeCmd {r idx sel w} (h : Form s) : Form (writeCmd s r idx sel w) := by
  unfold writeCmd
  extract_lets qOff
  split
  · exact form_selWrite h
  · exact form_queueEnWrite (form_writeLocked h)
  · exact form_ite (form_plain h) (form_queueReject h)
  · exact form_ite (form_plain h) (form_queueReject h)
  · exact form_sqTailWrite h
  · exact form_cqHeadWrite h
  · exact form_plain h

theorem form_writeNet {n r idx sel w} (h : Form s) : Form (writeNet s n r idx sel w) := by
  unfold writeNet
  extract_lets nn s1
  have hs1 : Form s1 := form_plain h
  split
  · exact form_spanLinkEnWrite h
  · exact form_nocIsolateWrite h
  · exact form_ite (form_routerSwap hs1) hs1
  · exact form_tdataWrite h
  · exact form_plain h

theorem form_srcCfgWrite {n src w} (h : Form s) : Form (srcCfgWrite s n src w) := by
  unfold srcCfgWrite
  exact form_ite (form_fset (form_writeBut h)) (form_writeBut h)

theorem form_dlmCtrlWrite {n m w} (h : Form s) : Form (dlmCtrlWrite s n m w) := by
  unfold dlmCtrlWrite
  extract_lets nn mm locked old moves s1 s2 s3 s4
  have hs1 : Form s1 := form_writeBut h
  have hs2 : Form s2 := form_ite (form_ite (form_fset hs1) hs1) (form_writeBut h)
  have hs3 : Form s3 := form_dlmEnWrite hs2
  have hs4 : Form s4 := form_ite (form_dlmArmWrite hs3) hs3
  exact form_ite (form_dlmDoneWrite hs4) hs4

theorem form_writeFault {n r idx sel w} (h : Form s) : Form (writeFault s n r idx sel w) := by
  unfold writeFault
  extract_lets nn src s1
  have hs1 : Form s1 := form_plain h
  split
  · exact form_ite (form_clearFirst hs1) hs1
  · exact form_ite h (form_plain h)
  · exact form_ite (form_srcCfgWrite h) h
  · exact form_ite (form_leakWrite h) h
  · exact form_ite (form_plain h) h
  · exact form_ite (form_faultAckWrite h) h
  · exact form_dlmCtrlWrite h
  · exact form_ite (form_plain h) (form_fset h)
  · exact form_plain h

theorem form_writeGuard {n r idx sel w} (h : Form s) : Form (writeGuard s n r idx sel w) := by
  unfold writeGuard
  extract_lets nn v s1 s2 a k
  have hs1 : Form s1 := form_writeBut h
  have hs2 : Form s2 := form_ite (form_timReject hs1) (form_refselWrite hs1)
  split
  · exact form_govReqWrite h
  · exact form_govClkWrite h
  · exact form_domainDownWrite h
  · exact form_ite (form_timSetWrite hs2) hs2
  · exact form_ite (form_secUnlock h) (form_plain h)
  · exact form_rput h
  · refine form_ite (form_secDenied h) ?_
    split
    · exact form_dbgRegRead h
    · exact form_dbgRegWrite h
    · exact form_plain h
  · exact form_ite (form_secDenied h) (form_plain h)
  · exact form_plain h

theorem form_writeReg {c n r idx sel w} (h : Form s) : Form (writeReg s c n r idx sel w) := by
  unfold writeReg
  extract_lets b
  refine form_ite (form_rwlWrite h) ?_
  refine form_ite (form_writeCmd h) ?_
  refine form_ite (form_writeWeir h) ?_
  refine form_ite (form_writeMill h) ?_
  refine form_ite (form_writeNewt h) ?_
  refine form_ite (form_writeAcu h) ?_
  refine form_ite (form_writeMem h) ?_
  refine form_ite (form_writeStream h) ?_
  refine form_ite (form_writeLog h) ?_
  exact form_ite (form_writeNet h) (form_ite (form_writeFault h) (form_ite (form_writeGuard h) (form_plain h)))

/-! ### BAR0 (01 R12-R16) -/

theorem form_regTimedOut {h1 e n off} (h : Form s) : Form (regTimedOut h1 e n off s) := form_timedOut h

theorem form_regEnd {h1 e n off} (h : Form s) : InSome (fun p => Form p.2) (regEnd s h1 e n off) := by
  unfold regEnd
  split
  · trivial
  · exact form_noRouteRaise h
  · exact form_regTimedOut h

theorem form_deniedBy {c n off} (h : Form s) : Form (deniedBy s c n off) := ((form_regEnd h).map (fun _ hs => hs)).getD h

theorem form_readAt {c n off} (h : Form s) : Form (readAt s c n off).2.2 := by
  unfold readAt
  split
  · exact h
  · split
    · exact h
    · split
      · exact form_windowReq (form_drawFree h)
      · split
        · exact h
        · split
          · exact form_readReg h
          · exact h

theorem form_writeAt {c n off w} (h : Form s) : Form (writeAt s c n off w).2 := by
  unfold writeAt
  split
  · exact form_selWrite h
  · split
    · exact form_msixWrite h
    · split
      · exact form_windowReq h
      · split
        · exact form_rwlWrite h
        · split
          · exact form_writeReg h
          · exact h

theorem form_barRead {c off} (h : Form s) : Form (barRead s c off).2.2 := by
  unfold barRead
  extract_lets n k
  split
  · exact form_readAt h
  · exact form_deniedBy h

theorem form_barWord {c off w} (h : Form s) : Form (barWord s c off w).2 := by
  unfold barWord
  extract_lets n k
  split
  · exact form_writeAt h
  · exact form_deniedBy h

theorem form_pairWrite {c n off d} (h : Form s) : InSome Form (pairWrite s c n off d) := by
  unfold pairWrite
  split
  · exact form_drvReadyWrite h
  · exact form_logRptrWrite h
  · exact form_logEventWrite h
  · trivial

theorem form_barWrite {c b} (h : Form s) : Form (barWrite s c b).2 := by
  unfold barWrite
  extract_lets lo hi n a
  have ha : Form a.2 := by
    unfold a
    split
    · exact form_barWord h
    · exact h
  have hp : InSome Form (if lo && hi && pathCode s c n b.off = rspOk then pairWrite s c n b.off b.data else none) :=
    inSome_ite (form_pairWrite h) True.intro
  split
  · split
    · exact h
    · split
      · next he =>
        exact hp.of_eq he
      · split
        · exact form_barWord ha
        · exact ha
  · split
    · exact form_barWord h
    · exact h

theorem form_netWrite {c b} (h : Form s) : Form (netWrite s c b).2 := by
  unfold netWrite
  exact form_overNet1 h (fun _ ht => form_regTimedOut ht) (fun _ ht => form_barWrite ht)

end Sys2Proof.Machine
end

section
/-! What the functions of Sys2Proof/Machine/Noc.lean answer is in canonical form. -/

namespace Sys2Proof.Machine

variable {s : Block}

/-! ### Initiators (16 R370) -/

theorem form_dropReq {n e tag} (h : Form s) : Form (dropReq s n e tag) := form_with h

theorem form_sendReq {n ty f} (h : Form s) : InSome Form (sendReq s n ty f) := inSome_ite (form_with h) trivial

/-! ### Targets (16 R365) -/

theorem form_epRam {m k req} (h : Form s) : Form (epRam s m k req).st := by
  unfold epRam
  split
  · exact h
  · split
    · exact h
    · split
      · exact form_memWrite h
      · split
        · next he =>
          exact form_snd (form_memLoad h) he
        · next he =>
          exact form_snd (form_memLoad h) he

theorem form_regRead64 {c m off} (h : Form s) : Form (regRead64 s c m off).st := by
  unfold regRead64
  exact form_readAt (form_readAt h)

theorem form_regWrite64 {c m off d} (h : Form s) : Form (regWrite64 s c m off d).st := by
  unfold regWrite64
  split
  · next he =>
    exact (form_pairWrite h).of_eq he
  · exact form_writeAt (form_writeAt h)

theorem form_epRegWrite {c m off bytes} (h : Form s) : Form (epRegWrite s c m off bytes).st := by
  unfold epRegWrite
  extract_lets whole v lo hi a b
  have ha : Form a.2 := by
    unfold a
    split
    · exact form_writeAt h
    · exact h
  have hb : Form b.2 := by
    unfold b
    split
    · exact form_writeAt ha
    · exact ha
  split
  · exact form_regWrite64 h
  · exact hb

theorem form_epReg {c m off req} (h : Form s) : Form (epReg s c m off req).st := by
  unfold epReg
  extract_lets k len a
  have ha : Form a.2.2 := form_readAt h
  split
  · exact h
  · split
    · exact h
    · split
      · exact form_epRegWrite h
      · split
        · exact form_regRead64 h
        · exact ha

/-! ### Delivery (16 R364, R367, R371, R374-R376) -/

theorem form_targetDeliver {c f req ans} (h : Form s) : Form (targetDeliver s c f req ans) := by
  unfold targetDeliver
  extract_lets m dst len err
  have herr : ∀ (k : ℕ), Form (err k) := fun _ => form_respond h
  refine form_ite (herr _) ?_
  split
  · exact form_memDeliver h
  · refine form_ite (form_respond (form_epRam h)) ?_
    refine form_ite (form_respond (form_epReg h)) ?_
    refine form_ite ?_ (herr _)
    refine form_ite (herr _) ?_
    split
    · exact form_respond (form_windowReq h)
    · exact form_ite h (herr _)

theorem form_byPath {f} {act : Block → Block} (h : Form s) (hact : ∀ s, Form s → Form (act s)) : Form (byPath s f act) := by
  unfold byPath
  extract_lets m
  split
  · exact h
  · exact form_respondAck (form_noRouteRaise h)
  · exact hact _ h

theorem form_sentBy {f way} {act : Block → Block} (h : Form s) (hact : ∀ s, Form s → Form (act s)) :
    Form (sentBy s f way act) := by
  unfold sentBy
  extract_lets n t
  have ht : Form t := form_byPath h hact
  split
  · next he =>
    exact (form_lostThere h).of_eq he
  · split
    · exact form_ite ht (form_raise (form_with ht))
    · exact ht

theorem form_packetDeliver {c f req ans} (h : Form s) : Form (packetDeliver s c f req ans) := by
  unfold packetDeliver
  exact form_ite (form_respond h) (form_ite (form_respond h) (form_targetDeliver h))

theorem form_nocRead {n c f p} (h : Form s) : Form (nocRead n c f p s) := by
  unfold nocRead
  split
  · next he =>
    exact form_sentBy ((form_sendReq h).of_eq he) (fun _ ht => form_packetDeliver ht)
  · exact h

theorem form_nocWrite {n c f data p} (h : Form s) : Form (nocWrite n c f data p s) := by
  unfold nocWrite
  split
  · next he =>
    exact form_sentBy ((form_sendReq h).of_eq he) (fun _ ht => form_packetDeliver ht)
  · exact h

theorem form_msgTake {f cause} (h : Form s) : Form (msgTake s f cause) := by
  unfold msgTake
  exact form_ite (form_respondAck h)
      (form_ite (form_respondAck (form_ite h (form_irqAcu h))) (form_ite (form_respondAck h) (form_respondAck h)))

theorem form_msgDeliver {f cause} (h : Form s) : Form (msgDeliver s f cause) := by
  unfold msgDeliver
  exact form_ite (form_respondAck h) (form_ite (form_respondAck h) (form_msgTake h))

theorem form_nocMsg {n f msg} (h : Form s) : Form (nocMsg n f msg s) := by
  unfold nocMsg
  split
  · exact h
  · next he =>
    exact form_sentBy ((form_sendReq h).of_eq he) (fun _ ht => form_msgDeliver ht)

/-! ### Responses (16 R364, R370) -/

theorem form_nocAck {n e tag} (h : Form s) : Form (nocAck n e tag s) := by
  unfold nocAck
  split
  · exact h
  · extract_lets s1 code s2
    have hs1 : Form s1 := form_with h
    have hs2 : Form s2 := form_loadResume (form_dropReq hs1)
    split
    · exact form_fsat hs1
    · exact form_with hs2

theorem form_nocHeld {n e tag} (h : Form s) : Form (nocHeld n e tag s) := by
  unfold nocHeld
  split
  · exact h
  · exact form_with h

theorem form_initiatorTimeout {n e tag} (h : Form s) : Form (initiatorTimeout n e tag s) := by
  unfold initiatorTimeout
  split
  · exact h
  · exact form_expired (form_with (form_loadResume (form_dropReq (form_atTime h))))

/-! ### Held requests go on (16 R376, 10 R226) -/

theorem form_domainWakeDone {n d} (h : Form s) : Form (domainWakeDone n d s) := by
  unfold domainWakeDone
  exact form_ite (form_wakeDomain h) h

theorem form_handoverAll {n b} (h : Form s) : Form (handoverAll n b s) := by
  unfold handoverAll
  exact form_ite (form_releaseReqs (form_handoverCommit h)) (form_handoverCommit h)

/-! ### Routers (16 R363, R364, R369, R374) -/

theorem form_noRoute {n r f} (h : Form s) : Form (noRoute s n r f) := by
  unfold noRoute
  exact form_noRouteRaise (form_ite (form_respondAck (form_ite (form_putRouter h) h)) (form_ite (form_putRouter h) h))

theorem form_putInput {n r net i q} (h : Form s) : Form (putInput s n r net i q) := by
  unfold putInput
  exact form_putRouter h

theorem form_flitArrive {n r x} (h : Form s) : Form (flitArrive n r s x) := by
  unfold flitArrive
  exact form_ite h (form_ite (form_raise h) (form_ite (form_respondAck h) (form_ite (form_putRouter h) (form_putInput h))))

theorem form_headFlits {n r net l} (h : Form s) : Form (headFlits n r net l s).2 := by
  induction l generalizing n r net s with
  | nil =>
    exact h
  | cons x l ih =>
    unfold headFlits
    split
    · exact ih h
    · split
      · exact ih (form_noRoute (form_putInput h))
      · exact ih h

theorem form_sendHead {n r out net} (h : Form s) : Form (sendHead n r out s net) := by
  unfold sendHead
  extract_lets p s1 y
  have hp : Form p.2 := form_headFlits h
  clear_value p
  have hs1 : Form s1 := hp
  clear_value s1
  split
  · exact hs1
  · extract_lets s2 s3
    have hs2 : Form s2 := form_putRouter hs1
    clear_value s2
    have hs3 : Form s3 := form_putInput hs2
    clear_value s3
    exact form_with hs3

theorem form_routerForward {n r out ins} (h : Form s) : Form (routerForward n r out ins s) :=
  form_foldl (fun _ _ ht => form_sendHead ht) (form_foldl (fun _ _ ht => form_flitArrive ht) h)

/-! ### Snoops (08 R195, 10 R226, R230) -/

theorem form_snoopReply {f} (h : Form s) : Form (snoopReply s f) := form_with h

theorem form_snoopInv {n f line} (h : Form s) : Form (snoopInv n f line s) := by
  unfold snoopInv
  exact form_ite (form_snoopReply (form_putAcu h)) h

theorem form_snoopWbinv {n f line} (h : Form s) : Form (snoopWbinv n f line s) :=
  form_ite (form_snoopReply (form_flushLineOf h)) h

theorem form_snoopAck {n e} (h : Form s) : Form (snoopAck n e s) := by
  unfold snoopAck
  split
  · exact h
  · exact form_with h

/-! ### Master channels of the regions (12 R285) -/

theorem form_fabricGo {n r f req p t} (h : Form s) : Form (fabricGo n r f req p t s) := by
  unfold fabricGo
  split
  · exact form_ite (form_respond (form_epReg h)) (form_sentBy h (fun _ ht => form_packetDeliver ht))
  · exact form_respond h

theorem form_fabricMasterRequest {n r tag req p} (h : Form s) : Form (fabricMasterRequest n r tag req p s) := by
  unfold fabricMasterRequest
  extract_lets len t f
  refine form_ite ?_ h
  split
  · next he =>
    exact form_fabricGo ((form_sendReq h).of_eq he)
  · exact h

end Sys2Proof.Machine
end

section
/-! What the functions of Sys2Proof/Machine/AcuMem.lean answer is in canonical form. -/

namespace Sys2Proof.Machine

variable {s : Block}

/-! ### The address map (08 R191) -/

theorem form_accCheck {n k addr plain aligned} (h : Form s) : AccCheck.Form (accCheck s n k addr plain aligned) := by
  unfold accCheck
  extract_lets bank
  split
  · exact h
  · split
    · trivial
    · exact h
  · trivial
  · trivial
  · trivial
  · split
    · exact h
    · split
      · trivial
      · trivial
      · exact form_raise h

theorem form_accChecks {n k plain aligned l} (h : Form s) : AccCheck.Form (accChecks s n k plain aligned l) := by
  induction l generalizing s n k plain aligned with
  | nil =>
    unfold accChecks
    trivial
  | cons x l ih =>
    unfold accChecks
    split
    · exact ih h
    · exact form_accCheck h

/-! ### The data cache (08 R195, R197) -/

theorem form_evictLine {n k line} (h : Form s) : Form (evictLine s n k line) := by
  unfold evictLine
  extract_lets set d
  have hd : Form d.2 := form_drawFree h
  refine form_ite h ?_
  split
  · exact form_flushLineOf hd
  · exact hd

theorem form_fillLine {n k line} (h : Form s) : Form (fillLine s n k line).2 := by
  unfold fillLine
  extract_lets s1 r words s2 y
  have hs1 : Form s1 := form_flushLine h
  have hr : Form r.2 := form_memReadWords hs1
  have hs2 : Form s2 := form_evictLine hr
  split
  · exact form_putAcu hs2
  · exact hr

theorem form_putLine {n k line l} (h : Form s) : Form (putLine s n k line l) := by
  unfold putLine
  exact form_putAcu h

theorem form_stagingGate {n k sa} (h : Form s) : Form (stagingGate s n k sa).2 := by
  unfold stagingGate
  split
  · next he =>
    exact (form_netEnd h).of_eq he
  · split
    · exact h
    · split
      · exact h
      · next he1 =>
        exact (form_domAccess h).of_eq he1

theorem form_ramGate {n k e} (h : Form s) : Form (ramGate s n k e).2 := by
  unfold ramGate
  split
  · next he =>
    exact (form_netEnd h).of_eq he
  · split
    · exact h
    · exact h

theorem form_missWord {n a w} (h : Form s) : Form (missWord s n a w).2 := by
  unfold missWord
  extract_lets r
  have hr : Form r.2 := form_fillLine h
  exact form_pair hr

theorem form_cachedWord {n a w} (h : Form s) : Form (cachedWord s n a w).2.2 := by
  unfold cachedWord
  extract_lets miss
  have hmiss : ∀ s, Form s → Form (miss s).2.2 := by
    intro s hs
    unfold miss
    extract_lets g
    have hg : Form g.2 := form_stagingGate hs
    split
    · exact form_triple hg
    · split
      · next he =>
        exact form_triple (form_snd (form_missWord hg) he)
      · next he =>
        exact form_triple (form_snd (form_missWord hg) he)
  clear_value miss
  split
  · exact hmiss s h
  · extract_lets d
    split
    · exact form_triple h
    · exact form_triple (form_cacheCe (form_putLine h))
    · split
      · exact form_triple (form_cacheUe h)
      · exact hmiss _ (form_putLine h)

theorem form_linePut {n k w be data l} {direct : Block → ℕ × Block} (h : Form s) (hdirect : ∀ s, Form s → Form (direct s).2) :
    Form (linePut s n k w be data l direct).2 := by
  unfold linePut
  extract_lets mask merge into d
  have hinto : ∀ (s : Block) (v : ℕ), Form s → Form (into s v).2 := fun _ _ ht => form_putLine ht
  split
  · exact hinto _ _ h
  · split
    · exact hinto _ _ h
    · exact hinto _ _ (form_cacheCe h)
    · split
      · exact form_cacheUe h
      · exact hdirect _ (form_putLine h)

theorem form_cachedWrite {n a w be data} (h : Form s) : Form (cachedWrite s n a w be data).2 := by
  unfold cachedWrite
  extract_lets gated bytes direct
  have hgated : ∀ s f, (∀ s, Form s → Form (f s).2) → Form s → Form (gated s f).2 := by
    intro s f hf hs
    unfold gated
    extract_lets g
    have hg : Form g.2 := form_stagingGate hs
    split
    · exact hg
    · exact hf _ hg
  have hdirect : ∀ s, Form s → Form (direct s).2 := by
    intro s hs
    unfold direct
    extract_lets r
    have hr : Form r.2 := form_memWrite (form_flushLine hs)
    exact form_pair hr
  clear_value gated direct
  split
  · exact form_linePut h fun s hs => hgated s direct hdirect hs
  · refine hgated s _ (fun s hs => ?_) h
    extract_lets f
    have hf : Form f := form_fillLine hs
    split
    · exact form_linePut hf hdirect
    · exact hdirect f hf

/-! ### Accesses past the check -/

theorem form_acuTimedOut {n k addr} (h : Form s) : Form (acuTimedOut n k addr s) := by
  unfold acuTimedOut
  exact form_timedOut h

theorem form_acuNet {n k addr way ones} {act : Block → MemAns} (h : Form s) (hact : ∀ s, Form s → Form (act s).st) :
    Form (acuNet s n k addr way ones act).st := by
  unfold acuNet
  split
  · exact form_overNet1 h (fun _ ht => form_acuTimedOut ht) hact
  · exact hact _ h

theorem form_loadAns {len} {r : Option (List (BitVec 8)) × Block} (h : Form r.2) : Form (loadAns len r).st := by
  unfold loadAns
  split
  · exact h
  · exact h

theorem form_storeAns {r : Bool × Block} (h : Form r.2) : Form (storeAns r).st := form_with h

theorem form_acuRegRead {n k off len} (h : Form s) : Form (acuRegRead s n k off len).st := by
  unfold acuRegRead
  extract_lets c y y1
  have hy : Form y.2.2 := form_barRead h
  have hy1 : Form y1.2.2 := form_barRead hy
  split
  · exact hy1
  · exact hy

theorem form_acuRead {n k addr len} (h : Form s) : Form (acuRead s n k addr len).st := by
  unfold acuRead
  extract_lets e g r
  have hg : Form g.2 := form_ramGate h
  have hr : Form r.2.2 := form_cachedWord h
  split
  · exact form_loadAns (form_memLoad h)
  · split
    · exact hg
    · exact form_loadAns (form_memLoad hg)
  · exact hr
  · exact form_stgOwned h
  · exact form_stgOwned h
  · exact form_recReq h
  · exact form_acuRegRead h
  · exact h

/-! ### The store buffer (08 R192, R193) -/

theorem form_storeErr {n k k1 addr} (h : Form s) : Form (storeErr s n k k1 addr) := by
  unfold storeErr
  exact form_pendSyncSet (form_ite (form_raise h) (form_putTask (form_raise h)))

theorem form_drainTo {n k e} (h : Form s) : Form (drainTo s n k e).2 := by
  unfold drainTo
  extract_lets bytes p pick g g1 c off
  have hpick : ∀ (r : MemAns), Form r.st → Form (pick r).2 := fun _ ht => ht
  have hg : Form g.2 := form_ramGate h
  have hg1 : Form g1.2 := form_stagingGate h
  split
  · exact hpick _ (form_storeAns (form_memWrite h))
  · split
    · exact hg
    · exact hpick _ (form_storeAns (form_memWrite hg))
  · split
    · exact form_cachedWrite h
    · exact hpick _ (form_stgNonOwner h)
  · split
    · exact hpick _ (form_stgNonOwner h)
    · split
      · exact hg1
      · exact hpick _ (form_stgServe hg1)
  · split
    · exact hpick _ (form_stgNonOwner h)
    · split
      · exact hg1
      · exact hpick _ (form_stgServe hg1)
  · exact hpick _ (form_recReq h)
  · split
    · exact form_barWrite h
    · split
      · exact form_barWrite h
      · exact form_barWrite h
  · exact h

theorem form_drainEntry {way n k e} (h : Form s) : Form (drainEntry way s n k e) := by
  unfold drainEntry
  exact form_ite (form_acuNet h (fun _ ht => form_drainTo ht)) (form_storeErr (form_acuNet h (fun _ ht => form_drainTo ht)))

theorem form_storeDrain {n x way} (h : Form s) : Form (storeDrain n x way s) := by
  unfold storeDrain
  exact form_foldl_snd (fun _ _ ht => form_drainEntry ht) (form_putAcu h)

/-! ### Instruction fetch (08 R191, R195-R197) -/

theorem form_putIcache {n k c} (h : Form s) : Form (putIcache s n k c) := by
  unfold putIcache
  exact form_putAcu h

theorem form_dropIline {n k line} (h : Form s) : Form (dropIline s n k line) := form_putIcache h

theorem form_evictIline {n k line} (h : Form s) : Form (evictIline s n k line) := by
  unfold evictIline
  extract_lets set d
  have hd : Form d.2 := form_drawFree h
  refine form_ite h ?_
  split
  · exact form_dropIline hd
  · exact hd

theorem form_keepDword {n k addr bs} (h : Form s) : Form (keepDword s n k addr bs) := by
  unfold keepDword
  exact form_putIcache h

theorem form_missFetch {n k pc} (h : Form s) : FetchAns.Form (missFetch s n k pc) := by
  unfold missFetch
  extract_lets d s1 s2
  have hd : Form d.st := form_acuRead h
  have hs1 : Form s1 := form_keepDword (form_evictIline hd)
  have hs2 : Form s2 := form_foldl (fun _ _ ht => form_ite ht (form_ite (form_keepDword (form_acuRead ht)) (form_acuRead ht))) hs1
  split
  · exact hd
  · exact hs2

theorem form_fetchCheck {n k pc} (h : Form s) : AccCheck.Form (fetchCheck s n k pc) := by
  unfold fetchCheck
  extract_lets sp
  split
  · exact h
  · exact form_accCheck h

theorem form_acuFetch {n k pc} (h : Form s) : FetchAns.Form (acuFetch s n k pc) := by
  unfold acuFetch
  split
  · trivial
  · next he =>
    exact (form_fetchCheck h).of_eq he
  · split
    · exact form_missFetch h
    · split
      · exact h
      · exact form_missFetch (form_cacheCe (form_dropIline h))

end Sys2Proof.Machine
end

section
/-! What the functions of Sys2Proof/Machine/AcuAlu.lean answer is in canonical form. -/

namespace Sys2Proof.Machine

variable {s : Block}

/-! ### Results with flags (09 R209) -/

theorem form_putFlags {n k k1 r} (h : Form s) : Form (putFlags s n k k1 r) := by
  unfold putFlags
  extract_lets s1 s2
  have hs1 : Form s1 := form_pswPut (form_pswPut h)
  have hs2 : Form s2 := by
    unfold s2
    split
    · exact form_pswPut hs1
    · exact hs1
  split
  · exact form_pswPut hs2
  · exact hs2

theorem form_aluEnd {n k k1 w setf r} (h : Form s) : Form (aluEnd s n k k1 w setf r) := by
  unfold aluEnd
  exact form_commit (form_ite (form_putFlags (form_gprPut h)) (form_gprPut h))

/-! ### Multiply and divide (09 R208, R209, R211) -/

theorem form_mulEnd {n k k1 p} (h : Form s) : Form (mulEnd s n k k1 p) := by
  unfold mulEnd
  exact form_ite (form_putTask (form_commit h)) (form_putTask (form_commit h))

theorem form_divStart {n k k1 d} (h : Form s) : Form (divStart s n k k1 d) := by
  unfold divStart
  extract_lets y
  split
  · exact form_taskWait h
  · exact form_taskWait (form_putAcu h)

theorem form_divideComplete {n x} (h : Form s) : Form (divideComplete n x s) := by
  unfold divideComplete
  extract_lets y s1
  have hs1 : Form s1 := form_putAcu h
  split
  · exact h
  · exact form_commit (form_ite (form_pswPut (form_pswPut (form_putTask hs1))) (form_pswPut (form_putTask hs1)))

/-! ### Floating point (09 R220, R221; 08 R200) -/

theorem form_fpPut {n k k1 c d v} (h : Form s) : Form (fpPut s n k k1 c d v) := form_ite (form_pairPut h) (form_gprPut h)

theorem form_fpEnd {n k k1 w d r} (h : Form s) : Form (fpEnd s n k k1 w d r) := by
  unfold fpEnd
  exact form_commit (form_putTask (form_fpPut h))

theorem form_fpBin {n k k1 w f} (h : Form s) : Form (fpBin s n k k1 w f) := by
  unfold fpBin
  exact form_fpEnd h

theorem form_fpUn {n k k1 w f} (h : Form s) : Form (fpUn s n k k1 w f) := by
  unfold fpUn
  exact form_fpEnd h

theorem form_fpReport {n x k i} (h : Form s) : Form (fpReport n x k i s) := by
  unfold fpReport
  extract_lets tk t inst s1
  have hs1 : Form s1 := form_putTask h
  split
  · exact h
  · exact form_ite (form_rput hs1) (form_pendSyncSet (form_putTask (form_rput hs1)))

end Sys2Proof.Machine
end

section
/-! What the functions of Sys2Proof/Machine/Acu.lean answer is in canonical form. -/

namespace Sys2Proof.Machine

variable {s : Block}

/-! ### Loads and stores (09 R214; 08 R192, R194) -/

theorem form_accessTrap {n k k1 addr} (h : Form s) : Form (accessTrap s n k k1 addr) := form_preciseTrap h

theorem form_loadPart {n k addr len way} (h : Form s) : Form (loadPart s n k addr len way).st := by
  unfold loadPart
  split
  · exact h
  · exact form_acuNet h (fun _ ht => form_acuRead ht)

theorem form_loadParts {n k way l} (h : Form s) : Form (loadParts s n k way l).st := by
  induction l generalizing s n k way with
  | nil =>
    exact h
  | cons x l ih =>
    unfold loadParts
    exact ih (form_loadPart h)

theorem form_loadBytes {n k k1 addr len plain aligned way} (h : Form s) :
    LoadAns.Form (loadBytes s n k k1 addr len plain aligned way) := by
  unfold loadBytes
  extract_lets parts r
  have hr : Form r.st := form_loadParts h
  split
  · trivial
  · next he =>
    exact (form_accChecks h).of_eq he
  · split
    · trivial
    · split
      · exact hr
      · exact hr

theorem form_loadEnd {n k k1 vals} (h : Form s) : Form (loadEnd s n k k1 vals) := by
  unfold loadEnd
  exact form_ite (form_putTask (form_foldl (fun _ _ ht => form_slotPut ht) (form_commit h)))
      (form_foldl (fun _ _ ht => form_slotPut ht) (form_commit h))

theorem form_runLoad {len signed plain way w n k k1} (h : Form s) : Form (runLoad len signed plain way w s n k k1) := by
  unfold runLoad
  extract_lets addr
  split
  · exact form_taskWait h
  · next he =>
    exact form_accessTrap ((form_loadBytes h).of_eq he)
  · next he =>
    exact form_loadEnd ((form_loadBytes h).of_eq he)

theorem form_runLdd {way w n k k1} (h : Form s) : Form (runLdd way w s n k k1) := by
  unfold runLdd
  extract_lets addr
  split
  · exact form_taskWait h
  · next he =>
    exact form_accessTrap ((form_loadBytes h).of_eq he)
  · next he =>
    exact form_loadEnd ((form_loadBytes h).of_eq he)

theorem form_runLwg {way w n k k1} (h : Form s) : Form (runLwg way w s n k k1) := by
  unfold runLwg
  extract_lets addr parts r slot
  have hr : Form r.st := form_loadParts h
  refine form_ite (form_accessTrap h) ?_
  split
  · exact form_taskWait h
  · next he =>
    exact form_accessTrap ((form_accChecks h).of_eq he)
  · exact form_ite (form_taskWait h) (form_ite (form_accessTrap hr) (form_loadEnd hr))

theorem form_storeParts {n k k1 parts join} (h : Form s) : Form (storeParts s n k k1 parts join) := by
  unfold storeParts
  exact form_ite (form_taskWait h) (form_commit (form_putAcu h))

theorem form_runStore {len v plain w n k k1} (h : Form s) : Form (runStore len v plain w s n k k1) := by
  unfold runStore
  extract_lets addr parts room
  split
  · exact form_taskWait h
  · next he =>
    exact form_accessTrap ((form_accChecks h).of_eq he)
  · clear_value parts
    split
    · exact form_storeParts h
    · exact form_storeParts h

theorem form_runSwg {w n k k1} (h : Form s) : Form (runSwg w s n k k1) := by
  unfold runSwg
  extract_lets addr parts slot t val
  refine form_ite (form_accessTrap h) ?_
  split
  · exact form_taskWait h
  · next he =>
    exact form_accessTrap ((form_accChecks h).of_eq he)
  · exact form_storeParts h

/-! ### Control (09 R215, R216; 08 R176, R184) -/

theorem form_runBcond {w n k k1} (h : Form s) : Form (runBcond w s n k k1) := form_ite (form_commitAt h) (form_commit h)

theorem form_runCall {w n k k1} (h : Form s) : Form (runCall w s n k k1) := by
  unfold runCall
  exact form_commitAt (form_gprPut h)

theorem form_runJrl {w n k k1} (h : Form s) : Form (runJrl w s n k k1) := by
  unfold runJrl
  exact form_ite (form_accessTrap h) (form_commitAt (form_gprPut h))

theorem form_runWadv {n k k1} (h : Form s) : Form (runWadv s n k k1) := by
  unfold runWadv
  exact form_ite (form_preciseTrap h) (form_commit (form_pswPut (form_pswPut h)))

theorem form_runWrev {n k k1} (h : Form s) : Form (runWrev s n k k1) := by
  unfold runWrev
  exact form_ite (form_preciseTrap h) (form_commit (form_pswPut (form_pswPut h)))

theorem form_runReti {n k k1} (h : Form s) : Form (runReti s n k k1) := by
  unfold runReti
  extract_lets w8 w9
  split
  · extract_lets s1 s2
    have hs1 : Form s1 := form_gprPut h
    have hs2 : Form s2 := by
      unfold s2
      split
      · exact form_gprPut hs1
      · exact hs1
    exact form_causeTaken (form_commitAt hs2)
  · exact form_setPsw (form_commitAt h)

/-! ### System (09 R217-R219; 08 R170, R193, R196, R201) -/

theorem form_waitInstr {n k k1} (h : Form s) : Form (waitInstr s n k k1) := form_ite (form_commit h) (form_taskWait h)

theorem form_runSync {n k k1} (h : Form s) : Form (runSync s n k k1) := form_ite (form_taskWait h) (form_commit h)

theorem form_runIsync {n k k1} (h : Form s) : Form (runIsync s n k k1) :=
  form_ite (form_taskWait h) (form_commit (form_putIcache h))

theorem form_runFbar {n k k1} (h : Form s) : Form (runFbar s n k k1) := form_ite (form_taskWait h) (form_commit h)

theorem form_runMfsr {w n k k1} (h : Form s) : Form (runMfsr w s n k k1) :=
  form_ite (form_taskWait h) (form_commit (form_gprPut h))

theorem form_fsrWrite {n k k1 v} (h : Form s) : Form (fsrWrite s n k k1 v) := by
  unfold fsrWrite
  exact form_ite (form_fput (form_acuReject (form_rput h))) (form_rput h)

theorem form_runMtsr {w n k k1} (h : Form s) : Form (runMtsr w s n k k1) := by
  unfold runMtsr
  extract_lets tk v src
  split
  · exact form_commit (form_setPsw h)
  · exact form_commit (form_putTask h)
  · exact form_commit (form_putTask h)
  · exact form_ite (form_taskWait h) (form_commit (form_fsrWrite h))

/-! ### Issuing to the gang (09 R224; 08 R186-R190) -/

theorem form_millDenied {n k k1 why} (h : Form s) : Form (millDenied s n k k1 why) := form_preciseTrap (form_fput h)

theorem form_runMillIss {w n k k1} (h : Form s) : Form (runMillIss w s n k k1) := by
  unfold runMillIss
  exact form_ite (form_millDenied h) (form_ite (form_millDenied h) (form_taskWait (form_putGang h)))

theorem form_runMillRes {w n k k1} (h : Form s) : Form (runMillRes w s n k k1) := by
  unfold runMillRes
  refine form_ite (form_millDenied h) ?_
  split
  · exact form_taskWait h
  · exact form_commit (form_pairPut (form_putGang h))

theorem form_runMillWait {w n k k1} (h : Form s) : Form (runMillWait w s n k k1) := by
  unfold runMillWait
  refine form_ite (form_millDenied h) ?_
  split
  · exact form_taskWait h
  · exact form_commit (form_gprPut h)

theorem form_runMillYield {n k k1} (h : Form s) : Form (runMillYield s n k k1) :=
  form_ite (form_millDenied h) (form_commit (form_stopRequest h))

theorem form_runMillResume {n k k1} (h : Form s) : Form (runMillResume s n k k1) :=
  form_ite (form_millDenied h) (form_commit (form_resumeGang h))

/-! ### The floating-point unit (08 R199) -/

theorem form_fpLong {n k k1} {run : Block} (h : Form s) (h' : Form run) : Form (fpLong s n k k1 run) :=
  form_ite (form_taskWait h) h'

/-! ### The instructions -/

theorem form_fltMac {n k k1 w} (h : Form s) : Form (fltMac s n k k1 w) := by
  unfold fltMac
  exact form_fpEnd h

theorem form_fltCmp {n k k1 w} (h : Form s) : Form (fltCmp s n k k1 w) := by
  unfold fltCmp
  exact form_fpEnd h

theorem form_fltToFloat {n k k1 w} (h : Form s) : Form (fltToFloat s n k k1 w) := by
  unfold fltToFloat
  exact form_fpEnd h

theorem form_fltToInt {signed n k k1 w} (h : Form s) : Form (fltToInt signed s n k k1 w) := by
  unfold fltToInt
  exact form_fpEnd h

theorem form_fltFromInt {signed n k k1 w} (h : Form s) : Form (fltFromInt signed s n k k1 w) := by
  unfold fltFromInt
  exact form_fpEnd h

theorem form_acuRun {o w way n k k1} (h : Form s) : Form (acuRun o w way s n k k1) := by
  unfold acuRun
  extract_lets y y1 c ci cs imm immS sf
  split
  · exact form_aluEnd h
  · exact form_aluEnd h
  · exact form_aluEnd h
  · exact form_aluEnd h
  · exact form_aluEnd h
  · exact form_aluEnd h
  · exact form_aluEnd h
  · exact form_aluEnd h
  · exact form_aluEnd h
  · exact form_aluEnd h
  · exact form_aluEnd h
  · exact form_aluEnd h
  · exact form_aluEnd h
  · exact form_aluEnd h
  · exact form_mulEnd h
  · exact form_mulEnd h
  · exact form_divStart h
  · exact form_divStart h
  · exact form_aluEnd h
  · exact form_aluEnd h
  · exact form_aluEnd h
  · exact form_aluEnd h
  · exact form_aluEnd h
  · exact form_aluEnd h
  · exact form_aluEnd h
  · exact form_aluEnd h
  · exact form_aluEnd h
  · exact form_aluEnd h
  · exact form_aluEnd h
  · exact form_aluEnd h
  · exact form_aluEnd h
  · exact form_aluEnd h
  · exact form_runLoad h
  · exact form_runLoad h
  · exact form_runLoad h
  · exact form_runLoad h
  · exact form_runLoad h
  · exact form_runLdd h
  · exact form_runLwg h
  · exact form_runStore h
  · exact form_runStore h
  · exact form_runStore h
  · exact form_runStore h
  · exact form_runSwg h
  · exact form_runBcond h
  · exact form_runCall h
  · exact form_runJrl h
  · exact form_fpBin h
  · exact form_fpBin h
  · exact form_fpBin h
  · exact form_fltMac h
  · exact form_fpLong h (form_fpBin h)
  · exact form_fpLong h (form_fpUn h)
  · exact form_fpBin h
  · exact form_fpBin h
  · exact form_fpUn h
  · exact form_fpUn h
  · exact form_fltToFloat h
  · exact form_fltToInt h
  · exact form_fltToInt h
  · exact form_fltFromInt h
  · exact form_fltFromInt h
  · exact form_fltCmp h
  · exact form_runMillIss h
  · exact form_runMillRes h
  · exact form_runMillWait h
  · exact form_runMillYield h
  · exact form_runMillResume h
  · exact form_runWadv h
  · exact form_runWrev h
  · exact form_runReti h
  · exact form_preciseTrap h
  · exact form_waitInstr h
  · exact form_runSync h
  · exact form_runIsync h
  · exact form_runFbar h
  · exact form_runMfsr h
  · exact form_runMtsr h

/-! ### Executing the instruction at the PC -/

theorem form_acuWord {want w way n k k1} (h : Form s) : InSome Form (acuWord want w way s n k k1) := by
  unfold acuWord
  split
  · exact form_preciseTrap h
  · exact inSome_ite (form_preciseTrap h) (inSome_ite (form_acuRun h) trivial)

theorem form_acuGo {want way n k k1} (h : Form s) : InSome Form (acuGo want way s n k k1) := by
  unfold acuGo
  extract_lets pc far
  refine inSome_ite (form_taskWait h) ?_
  split
  · exact form_taskWait h
  · next he =>
    exact form_accessTrap ((form_acuFetch h).of_eq he)
  · next he =>
    exact form_acuWord (form_ite (form_unserve ((form_acuFetch h).of_eq he)) ((form_acuFetch h).of_eq he))

theorem form_acuStep {o n x k way} (h : Form s) : Form (acuStep o n x k way s) := by
  unfold acuStep
  refine form_ite ?_ h
  split
  · next he =>
    exact form_ite ((form_acuGo (form_noteSelected h)).of_eq he) h
  · exact h

theorem form_serve {n k k1} (h : Form s) : Form (serve s n k k1) := by
  unfold serve
  exact form_putTask h

theorem form_taskWake {n x k} (h : Form s) : Form (taskWake n x k s) := by
  unfold taskWake
  exact form_ite (form_ite (form_ite (form_setRun (form_serve h)) h) (form_ite (form_fbarFirst h) (form_ite (form_setRun h) h))) h

end Sys2Proof.Machine
end

section
/-! What the functions of Sys2Proof/Machine/HostRow.lean answer is in canonical form. -/

namespace Sys2Proof.Machine

variable {s : Block}

theorem form_rowAct {y} (h : Form s) : Form (rowAct y s) := by
  unfold rowAct
  split
  · exact form_scrubEnWrite h
  · exact form_inspectionRead h
  · exact form_inspectionWrite h
  · exact form_storeWordRead h
  · exact form_storeWordWrite h
  · exact form_gangEnWrite h
  · exact form_gangStopWrite h
  · exact form_gangResumeWrite h
  · exact form_resumeDiscard h
  · exact form_taskEnWrite h
  · exact form_acuIpi h
  · exact form_acuBell h
  · exact form_ownerWrite h
  · exact form_ringTrigger h
  · exact form_ringResume h
  · exact form_ringEnWrite h
  · exact form_wheelEnWrite h
  · exact form_jlinkEnWrite h
  · exact form_streamEnWrite h
  · exact form_drvReadyWrite h
  · exact form_driveMuteWrite h
  · exact form_driveUnmuteWrite h
  · exact form_muteAllWrite h
  · exact form_driveEnWrite h
  · exact form_logEventWrite h
  · exact form_logRptrWrite h
  · exact form_logEnWrite h
  · exact form_regionEnWrite h
  · exact form_weirCommitWrite h
  · exact form_weirDiscard h
  · exact form_pubReadyWrite h
  · exact form_pubEnWrite h
  · exact form_spanLinkEnWrite h
  · exact form_nocIsolateWrite h
  · exact form_routerSwap h
  · exact form_domainDownWrite h
  · exact form_faultAckWrite h
  · exact form_clearFirst h
  · exact form_dlmArmWrite h
  · exact form_dlmDoneWrite h
  · exact form_dlmEnWrite h
  · exact form_govReqWrite h
  · exact form_govClkWrite h
  · exact form_timSetWrite h
  · exact form_secUnlock h
  · exact form_dbgRegRead h
  · exact form_dbgRegWrite h

end Sys2Proof.Machine
end

section
/-! What the functions of Sys2Proof/Machine/HostPort.lean answer is in canonical form. -/

namespace Sys2Proof.Machine

variable {s : Block}

/-! ### BAR2 (01 R15, R17-R20) -/

theorem form_bar2Req {n req} (h : Form s) : InSome (fun p => Form p.st) (bar2Req s n req) :=
  inSome_ite (form_stgReq h) (form_recReq h)

theorem form_bar2TimedOut {n t} (h : Form s) : Form (bar2TimedOut n t s) := form_timedOut h

theorem form_bar2Way {n t req} (h : Form s) : InSome (fun p => Form p.st) (bar2Way s n t req) := by
  unfold bar2Way
  refine inSome_ite (form_bar2Req h) ?_
  split
  · exact form_bar2TimedOut h
  · exact form_noRouteRaise h
  · exact form_bar2Req h

theorem form_bar2Try {req} (h : Form s) : InSome Form (bar2Try req s) := by
  unfold bar2Try
  extract_lets n r t
  refine inSome_ite h (inSome_ite (form_answer h) ?_)
  refine InSome.map (P := fun a => Form a.st) (form_overNet h ?_ ?_) fun _ ha => form_answer ha
  · exact fun _ ht => form_bar2TimedOut ht
  · intro s' ht
    exact inSome_ite (form_bar2Way ht) ht

theorem form_tlpStall {t} (h : Form s) : Form (tlpStall t s).2 := by
  unfold tlpStall
  split
  · exact form_stgWaits h
  · exact h

theorem form_barReadAns {c off} (h : Form s) : Form (barReadAns s c off) := by
  unfold barReadAns
  exact form_answer (form_barRead h)

/-! ### Arrival (01 R19) -/

theorem form_rowThrough {w c n off} (h : Form s) : Form (rowThrough w c n off s) := by
  unfold rowThrough
  split
  · next he =>
    exact (form_regEnd h).of_eq he
  · exact form_ite (form_rowAct h) h

theorem form_rowNet {w} (h : Form s) : Form (rowNet w s) := form_rowThrough h

theorem form_tlpApply {t} (h : Form s) : InSome Form (tlpApply t s) := by
  unfold tlpApply
  split
  · exact form_netWrite h
  · exact form_ite (form_selWrite h) h
  · exact form_bar2Try h
  · exact form_sqTailWrite h
  · exact form_cqHeadWrite h
  · exact form_queueEnWrite h
  · exact form_vectorMask h
  · exact form_barReadAns h
  · exact form_barReadAns h
  · exact form_rowNet h

theorem form_tlpHold {t l} (h : Form s) : Form (tlpHold t l s) := by
  unfold tlpHold
  exact form_with (form_tlpStall h)

theorem form_tlpDrain {l} (h : Form s) : Form (tlpDrain l s) := by
  induction l generalizing s with
  | nil =>
    exact h
  | cons x l ih =>
    unfold tlpDrain
    refine form_ite (form_with h) ?_
    split
    · next he =>
      exact ih ((form_tlpApply h).of_eq he)
    · exact form_tlpHold h

theorem form_tlpRelease (h : Form s) : Form (tlpRelease s) := form_ite h (form_tlpDrain (form_with h))

theorem form_hostTlp {t} (h : Form s) : Form (hostTlp t s) := by
  unfold hostTlp
  refine form_ite h ?_
  refine form_ite (form_tlpWake (form_with h)) ?_
  extract_lets s1
  have hs1 : Form s1 := form_ite (form_tlpWake h) h
  exact form_ite ((form_tlpApply hs1).getD (form_tlpHold hs1)) (form_with hs1)

theorem form_ctxReq {c t} (h : Form s) : Form (ctxReq c t s) := by
  unfold ctxReq
  split
  · exact form_hostTlp h
  · exact (form_tlpApply h).getD h

/-! ### The commands -/

theorem form_registerWrite {c b} (h : Form s) : Form (registerWrite c b s) := form_ctxReq h

theorem form_rwlShadowWrite {c b} (h : Form s) : Form (rwlShadowWrite c b s) := form_ite (form_ctxReq h) h

theorem form_selectWrite {c q i w} (h : Form s) : Form (selectWrite c q i w s) := form_ctxReq h

theorem form_counterClearWrite {c b} (h : Form s) : Form (counterClearWrite c b s) := by
  unfold counterClearWrite
  split
  · exact form_ite (form_ctxReq h) h
  · exact h

theorem form_bar2Access {req} (h : Form s) : Form (bar2Access req s) := form_hostTlp h

theorem form_sqTailBell {q v} (h : Form s) : Form (sqTailBell q v s) := form_hostTlp h

theorem form_cqHeadBell {q v} (h : Form s) : Form (cqHeadBell q v s) := form_hostTlp h

theorem form_queueEnBell {q en} (h : Form s) : Form (queueEnBell q en s) := form_hostTlp h

theorem form_vectorUnmask {v} (h : Form s) : Form (vectorUnmask v s) := form_hostTlp h

theorem form_timNowRead {c} (h : Form s) : Form (timNowRead c s) := form_ctxReq h

theorem form_challengeRead {c} (h : Form s) : Form (challengeRead c s) := form_ctxReq h

theorem form_handoverServe {n b} (h : Form s) : Form (handoverServe n b s) := form_tlpRelease (form_handoverAll h)

theorem form_heldLate {n k} (h : Form s) : Form (heldLate n k s) := by
  unfold heldLate
  split
  · exact h
  · exact form_answer (form_expired (form_atTime (form_with h)))

theorem form_heldExpire {n e} (h : Form s) : Form (heldExpire n e s) := by
  unfold heldExpire
  split
  · exact form_ite (form_tlpRelease (form_answer (form_with (form_expired (form_atTime h))))) (form_heldLate h)
  · exact form_heldLate h

theorem form_initiatorExpire {n e tag} (h : Form s) : Form (initiatorExpire n e tag s) :=
  form_ite (form_initiatorTimeout h) (form_heldExpire h)

theorem form_powerExitServe {n} (h : Form s) : Form (powerExitServe n s) := form_tlpRelease (form_powerExitDone h)

end Sys2Proof.Machine
end

section
/-! What the functions of Sys2Proof/Machine/CmdCheck.lean answer is in canonical form. -/

namespace Sys2Proof.Machine

variable {s : Block}

/-! ### Taking (14 R326, R329) -/

theorem form_commandTake {q pkt fence miss way} (h : Form s) : Form (commandTake q pkt fence miss way s) := by
  unfold commandTake
  exact form_ite (form_with (form_fput h)) h

end Sys2Proof.Machine
end

section
/-! What the functions of Sys2Proof/Machine/CmdWork.lean answer is in canonical form. -/

namespace Sys2Proof.Machine

variable {s : Block}

/-! ### Beginning and ending (14 R332-R334) -/

theorem form_begun {f} (h : Form s) : Form (begun s f) := form_cmdStep h

theorem form_endWith {r f} (h : Form s) : Form (endWith r f s) := form_cmdEnd (form_begun h)

theorem form_endOk {f} (h : Form s) : Form (endOk f s) := form_endWith h

theorem form_endBusy {f} (h : Form s) : Form (endBusy f s) := form_endWith h

theorem form_retryCmds {act : CmdFl → Block → Block} {l} (hact : ∀ x s1, Form s1 → Form (act x s1)) (h : Form s) :
    Form (retryCmds act l s) := by
  induction l generalizing act s with
  | nil =>
    exact h
  | cons x l ih =>
    unfold retryCmds
    extract_lets t
    have ht : Form t := hact _ _ h
    exact form_ite (ih hact h) ht

theorem form_runCmd {op} {act : CmdFl → Block → Block} (hact : ∀ x s1, Form s1 → Form (act x s1)) (h : Form s) :
    Form (runCmd op act s) := by
  unfold runCmd
  split
  · exact form_ite (hact _ _ h) (form_retryCmds hact h)
  · exact form_retryCmds hact h

theorem form_runNode {op} {act : CmdFl → Block → Block} (hact : ∀ x s1, Form s1 → Form (act x s1)) (h : Form s) :
    Form (runNode op act s) := by
  unfold runNode
  refine form_runCmd ?_ h
  intro _ _ a
  exact form_ite (form_endWith a) (hact _ _ a)

theorem form_dmaFault {f} (h : Form s) : Form (dmaFault f s) := by
  unfold dmaFault
  exact form_endWith (form_drawFree h)

theorem form_dmaNote {dma} (h : Form s) : Form (dmaNote dma s) := by
  unfold dmaNote
  extract_lets y r
  have hr : Form r.2 := form_drawFree h
  split
  · exact h
  · exact form_putPow hr
  · exact form_putPow h

theorem form_dmaOut {dma addr bytes r f} (h : Form s) : Form (dmaOut dma addr bytes r f s) := by
  unfold dmaOut
  split
  · exact form_endWith (form_hostWrite h)
  · exact form_dmaFault (form_dmaNote h)
  · exact form_endWith (form_dmaNote h)

/-! ### Sources (14 R338) -/

theorem form_stgBytes {n k k1 k2 l} (h : Form s) : InSome (fun p => Form p.2) (stgBytes n k k1 k2 l s) := by
  induction k generalizing n k1 k2 l s with
  | zero =>
    exact h
  | succ k ih =>
    unfold stgBytes
    refine inSome_ite h ?_
    extract_lets k3
    split
    · trivial
    · next he =>
      split
      · exact (form_stgReq h).of_eq he
      · exact ih ((form_stgReq h).of_eq he)

theorem form_stgSource {f addr len} (h : Form s) : InSome (fun p => Form p.2) (stgSource f addr len s) := by
  unfold stgSource
  exact form_stgBytes h

theorem form_sourceOf {f addr len kind data dma} (h : Form s) :
    InSome (fun p => Form p.2) (sourceOf f addr len kind data dma s) := by
  unfold sourceOf
  refine inSome_ite (form_stgSource h) ?_
  split
  · exact inSome_ite h trivial
  · exact form_drawFree (form_dmaNote h)
  · exact form_dmaNote h

theorem form_stallCmd {f} (h : Form s) : Form (stallCmd f s) := form_cmdSet h

theorem form_withSource {x : Sourced} {f} {act : List (BitVec 8) → Block → Block} (h : InSome (fun p => Form p.2) x)
    (h' : Form s) (hact : ∀ x s1, Form s1 → Form (act x s1)) :
    Form (withSource x f s act) := by
  unfold withSource
  split
  · exact form_ite (form_stallCmd (form_stgWaits h')) h'
  · exact form_endWith h
  · exact hact _ _ h

theorem form_keep {f nums bytes} (h : Form s) : Form (keep f nums bytes s) := form_cmdSet (form_begun h)

/-! ### NOP, IDENTIFY, ABORT -/

theorem form_nopCmd (h : Form s) : Form (nopCmd s) := form_runCmd (fun _ _ ht => form_endOk ht) h

theorem form_identifyCmd {dma} (h : Form s) : Form (identifyCmd dma s) := form_runNode (fun _ _ ht => form_dmaOut ht) h

theorem form_abortCmd (h : Form s) : Form (abortCmd s) := by
  unfold abortCmd
  refine form_runCmd ?_ h
  intro _ _ a
  extract_lets q cid
  split
  · exact form_ite (form_endWith a) (form_endWith a)
  · extract_lets s11
    have hs11 : Form s11 := form_stopFlight a
    split
    · exact form_ite (form_endOk hs11) (form_ite (form_begun hs11) (form_endWith hs11))
    · exact form_endWith hs11

/-! ### REG_READ and REG_WRITE (14 R336, R338, R342) -/

theorem form_cmdNet {f way o ones} {act : Block → MemAns} (h : Form s) (hact : ∀ s, Form s → Form (act s).st) :
    Form (cmdNet f way o s ones act).st := by
  unfold cmdNet
  extract_lets n
  split
  · exact hact _ h
  · refine form_overNet1 h (fun _ ht => form_regTimedOut ht) ?_
    intro _ a
    split
    · next he =>
      exact (form_regEnd a).of_eq he
    · exact hact _ a

theorem form_atTaken {f o} (h : Form s) : Form (atTaken f o s) :=
  form_ite h (form_with { h with sels := foldl_mput_wf h.sels })

theorem form_backTaken {o} {t : Block} (h : Form s) (h' : Form t) : Form (backTaken s o t) :=
  form_ite h' (form_with { h' with sels := h.sels })

theorem form_readTaken {f way o} (h : Form s) : Form (readTaken f way o s).2.2 := by
  unfold readTaken
  exact form_backTaken h (form_cmdNet (form_atTaken h) (fun _ ht => form_barRead ht))

theorem form_writeTaken {f way o w} (h : Form s) : Form (writeTaken f way o w s).2 := by
  unfold writeTaken
  exact form_backTaken h (form_cmdNet (form_atTaken h) (fun _ ht => form_barWord ht))

theorem form_regReads {f way k l} (h : Form s) : Form (regReads f way k l s).2.2 := by
  induction l generalizing f way k s with
  | nil =>
    exact h
  | cons x l ih =>
    unfold regReads
    extract_lets a r
    have ha : Form a.2.2 := form_readTaken h
    have hr : Form r.2.2 := ih ha
    split
    · exact ha
    · exact hr

theorem form_regWrites {f way k l} (h : Form s) : Form (regWrites f way k l s).2 := by
  induction l generalizing f way k s with
  | nil =>
    exact h
  | cons x l ih =>
    unfold regWrites
    extract_lets a
    have ha : Form a.2 := form_writeTaken h
    split
    · exact ha
    · exact ih ha

theorem form_regReadCmd (h : Form s) : Form (regReadCmd s) := by
  unfold regReadCmd
  exact form_runCmd (fun _ _ ht => form_ite (form_endWith (form_regReads ht)) (form_endWith (form_regReads ht))) h

theorem form_regWriteCmd (h : Form s) : Form (regWriteCmd s) := by
  unfold regWriteCmd
  exact form_runCmd (fun _ _ ht => form_endWith (form_regWrites ht)) h

/-! ### Settings and images (19) -/

theorem form_storeSettingsCmd {data bad dma} (h : Form s) : Form (storeSettingsCmd data bad dma s) :=
  form_runNode (fun _ _ ht => form_ite (form_endBusy ht) (form_withSource (form_sourceOf ht) ht (fun _ _ hu => form_keep hu))) h

theorem form_readSettingsCmd {dma} (h : Form s) : Form (readSettingsCmd dma s) := by
  unfold readSettingsCmd
  refine form_runNode ?_ h
  intro _ _ a
  extract_lets r rep
  have hr : Form r.2.2 := form_readPage a
  split
  · exact form_dmaOut hr
  · exact form_endWith hr

theorem form_imageWriteCmd {data fail dma} (h : Form s) : Form (imageWriteCmd data fail dma s) := by
  unfold imageWriteCmd
  exact form_runNode
      (fun _ _ ht => form_ite (form_endBusy ht)
      (form_withSource (form_sourceOf ht) ht
      (fun _ _ hu => form_ite (form_endWith (form_checkImage hu))
      (form_ite (form_endWith (form_checkImage hu)) (form_keep (form_checkImage hu)))))) h

theorem form_imageOf {f types} (h : Form s) : InSome (fun p => Form p.2) (imageOf f types s) := by
  unfold imageOf
  extract_lets bad r
  have hr : Form r.2 := form_slotImage h
  refine inSome_ite ?_ hr
  split
  · trivial
  · next he =>
    exact (form_stgSource h).of_eq he
  · next he =>
    exact form_checkImage ((form_stgSource h).of_eq he)

theorem form_microcodeLoadCmd (h : Form s) : Form (microcodeLoadCmd s) := by
  unfold microcodeLoadCmd
  refine form_runNode ?_ h
  intro _ _ a
  split
  · exact form_stallCmd (form_stgWaits a)
  · next he =>
    exact form_endWith ((form_imageOf a).of_eq he)
  · next he =>
    refine form_ite (form_endWith ((form_imageOf a).of_eq he)) ?_
    refine form_ite (form_endBusy ((form_imageOf a).of_eq he)) ?_
    split
    · exact form_keep ((form_imageOf a).of_eq he)
    · exact form_keep ((form_imageOf a).of_eq he)

theorem form_bootSelectCmd {bad} (h : Form s) : Form (bootSelectCmd bad s) :=
  form_runNode (fun _ _ ht => form_ite (form_endBusy ht) (form_keep ht)) h

/-! ### Gangs and tasks (14 R339, 06 R158-R162, 08 R202) -/

theorem form_runTask {n k k1 pc w} (h : Form s) : Form (runTask s n k k1 pc w) := by
  unfold runTask
  exact form_startTask (form_rput (form_rput h))

theorem form_gangRunCmd (h : Form s) : Form (gangRunCmd s) := by
  unfold gangRunCmd
  exact form_runNode
      (fun _ _ ht => form_ite (form_endBusy ht) (form_runTask (form_begun (form_putGang (form_gangEnable (form_fput ht)))))) h

theorem form_gangStopCmd (h : Form s) : Form (gangStopCmd s) := form_runNode (fun _ _ ht => form_gangStopWrite (form_begun ht)) h

theorem form_gangResumeCmd (h : Form s) : Form (gangResumeCmd s) :=
  form_runNode (fun _ _ ht => form_ite (form_endBusy ht) (form_endOk (form_resumeGang ht))) h

theorem form_gangDisableCmd (h : Form s) : Form (gangDisableCmd s) :=
  form_runNode (fun _ _ ht => form_startDrain (form_begun ht)) h

theorem form_taskStartCmd (h : Form s) : Form (taskStartCmd s) := by
  unfold taskStartCmd
  exact form_runNode (fun _ _ ht => form_ite (form_endBusy ht) (form_endOk (form_runTask ht))) h

theorem form_taskStopCmd (h : Form s) : Form (taskStopCmd s) := form_runNode (fun _ _ ht => form_taskEn (form_begun ht)) h

/-! ### Streams and drive outputs (11) -/

theorem form_streamCtrlCmd (h : Form s) : Form (streamCtrlCmd s) :=
  form_runNode (fun _ _ ht => form_streamEnWrite (form_begun ht)) h

theorem form_driveMuteCmd (h : Form s) : Form (driveMuteCmd s) :=
  form_runNode (fun _ _ ht => form_foldl (fun _ _ hu => form_muteOut hu) (form_begun ht)) h

theorem form_unmuteCount {r : ℕ × Block} {p} (h : Form r.2) : Form (unmuteCount r p).2 := by
  unfold unmuteCount
  exact form_unmuteOut h

theorem form_driveUnmuteCmd (h : Form s) : Form (driveUnmuteCmd s) := by
  unfold driveUnmuteCmd
  exact form_runNode (fun _ _ ht => form_endWith (form_foldl_snd (fun _ _ hu => form_unmuteCount hu) ht)) h

/-! ### Weir (13 R299, R313-R316) -/

theorem form_epochCommitCmd (h : Form s) : Form (epochCommitCmd s) :=
  form_runCmd (fun _ _ ht => form_explicitBound (form_begun ht)) h

theorem form_stageWrite {f p} (h : Form s) : Form (stageWrite f s p) := by
  unfold stageWrite
  split
  · exact h
  · exact form_ite (form_setReject (form_with h)) (form_with h)

theorem form_epochStageCmd (h : Form s) : Form (epochStageCmd s) := by
  unfold epochStageCmd
  refine form_runCmd ?_ h
  intro _ _ a
  extract_lets code
  split
  · exact form_endWith a
  · exact form_foldl (fun _ _ ht => form_stageWrite ht) (form_begun a)

theorem form_snapshotCmd (h : Form s) : Form (snapshotCmd s) := by
  refine form_runNode ?_ h
  intro f s1 hs1
  have hb : Form (begun s1 f) := form_begun hs1
  exact form_with hb

/-! ### Faults (17 R382, R386, 19 R429) -/

theorem form_faultAckCmd (h : Form s) : Form (faultAckCmd s) := form_runNode (fun _ _ ht => form_endOk (form_ackSource ht)) h

theorem form_faultReadCmd {dma} (h : Form s) : Form (faultReadCmd dma s) := by
  unfold faultReadCmd
  exact form_runNode (fun _ _ ht => form_ite (form_dmaOut (form_ite (form_with ht) ht)) (form_dmaOut ht)) h

/-! ### Power, the fabric and the topology -/

theorem form_powerStateCmd (h : Form s) : Form (powerStateCmd s) := by
  unfold powerStateCmd
  exact form_runCmd
      (fun _ _ ht => form_ite (form_foldl (fun _ _ hu => form_ite (form_putPow hu) hu) (form_begun ht))
      (form_ite (form_endBusy ht) (form_powerGo (form_begun ht)))) h

theorem form_fabricLoadCmd (h : Form s) : Form (fabricLoadCmd s) := by
  unfold fabricLoadCmd
  refine form_runNode ?_ h
  intro _ _ a
  extract_lets n
  refine form_ite (form_endBusy a) ?_
  split
  · exact form_stallCmd (form_stgWaits a)
  · next he =>
    exact form_endWith ((form_imageOf a).of_eq he)
  · next he =>
    exact form_endWith ((form_imageOf a).of_eq he)
  · next he =>
    extract_lets y2
    exact form_ite (form_endBusy ((form_imageOf a).of_eq he)) (form_putLoad (form_begun ((form_imageOf a).of_eq he)))

theorem form_topologyReadCmd {dma} (h : Form s) : Form (topologyReadCmd dma s) := form_runCmd (fun _ _ ht => form_dmaOut ht) h

theorem form_topologyRescanCmd (h : Form s) : Form (topologyRescanCmd s) :=
  form_runCmd (fun _ _ ht => form_ite (form_endBusy ht) (form_rescan (form_keep ht))) h

end Sys2Proof.Machine
end

section
/-! What the functions of Sys2Proof/Machine/Cmd.lean answer is in canonical form. -/

namespace Sys2Proof.Machine

variable {s : Block}

/-! ### Completion (14 R334, R338) -/

theorem form_finishWork {f} (h : Form s) : Form (finishWork s f).2 := by
  unfold finishWork
  extract_lets n bad p s1 b s2 s3 r
  have hs1 : Form s1 := form_writeSlots h
  clear_value s1
  have hb : Form b.2 := form_bootSlot hs1
  clear_value b
  have hs2 : Form s2 := form_startFirmware hb
  clear_value s2
  have hs3 : Form s3 := form_ite (form_bootRest (form_ite hs2 (form_fset hs2))) hs1
  clear_value s3
  have hr : Form r.2 := form_loadEndMicro h
  clear_value r
  split
  · exact form_storePage h
  · exact form_storePage h
  · split
    · exact form_putSlot (form_writeSlots h)
    · exact hs3
  · exact hr
  · exact h

theorem form_passCommit {f} (h : Form s) : Form (passCommit s f) := by
  unfold passCommit
  extract_lets n t
  have ht : Form t := form_cmdPast h
  refine form_ite (form_cmdEnd h) ?_
  split
  · exact form_putSlot ht
  · exact form_ite (form_cmdEnd h) (form_loadBeginMicro ht)
  · exact ht

theorem form_finishFabric {f} (h : Form s) : Form (finishFabric s f).2 := by
  unfold finishFabric
  split
  · split
    · exact form_loadBegin h
    · split
      · exact form_loadFinish h
      · exact h
  · exact h

theorem form_finishGang {f} (h : Form s) : Form (finishGang s f).2 := by
  unfold finishGang
  extract_lets n g y done
  have hdone : Form done := form_putGang h
  split
  · exact hdone
  · split
    · exact hdone
    · exact h

theorem form_finish {f} (h : Form s) : Form (finish s f).2 := by
  unfold finish
  extract_lets n g ok
  have hok : ∀ (b : Bool), Form (ok b).2 := fun _ => h
  split
  · exact form_finishGang h
  · exact hok _
  · exact hok _
  · exact hok _
  · exact hok _
  · exact hok _
  · split
    · split
      · exact form_with h
      · exact h
    · exact h
  · exact hok _
  · exact form_finishFabric h
  · split
    · exact form_finishWork h
    · exact form_ite (form_passCommit h) h

theorem form_commandCompletion {q cid} (h : Form s) : Form (commandCompletion q cid s) := by
  unfold commandCompletion
  refine form_ite h ?_
  split
  · exact h
  · split
    · exact form_writeReply h
    · refine form_ite h ?_
      extract_lets y2
      have hy2 : Form y2.2 := form_finish h
      split
      · exact form_writeReply hy2
      · exact hy2

/-! ### Resets of the command interface (14 R322-R324, 20 R441) -/

theorem form_finishSilent {f} (h : Form s) : Form (finishSilent s f) := by
  unfold finishSilent
  refine form_ite ?_ h
  refine form_ite ?_ (form_finishWork h)
  split
  · exact form_ite (form_loadFinish h) h
  · exact h

theorem form_finishTaken (h : Form s) : Form (finishTaken s) := by
  unfold finishTaken
  split
  · exact h
  · split
    · exact form_identifyCmd h
    · exact form_abortCmd h
    · exact form_regReadCmd h
    · exact form_regWriteCmd h
    · exact form_readSettingsCmd h
    · exact form_gangStopCmd h
    · exact form_gangResumeCmd h
    · exact form_gangDisableCmd h
    · exact form_taskStartCmd h
    · exact form_taskStopCmd h
    · exact form_streamCtrlCmd h
    · exact form_driveMuteCmd h
    · exact form_driveUnmuteCmd h
    · exact form_epochCommitCmd h
    · exact form_faultAckCmd h
    · exact form_faultReadCmd h
    · exact form_powerStateCmd h
    · exact form_topologyReadCmd h
    · exact h

theorem form_interfaceReset (h : Form s) : Form (interfaceReset s) := by
  unfold interfaceReset
  extract_lets s1 s2 s3 s4 s5
  have hs1 : Form s1 := form_finishTaken h
  clear_value s1
  have hs2 : Form s2 := form_foldl (fun _ _ ht => form_stopFlight ht) hs1
  clear_value s2
  have hs3 : Form s3 := form_foldl (fun _ _ ht => form_finishSilent ht) hs2
  clear_value s3
  have hs4 : Form s4 := form_foldl (fun _ _ ht => form_ite (form_stopProgram ht) ht) hs3
  clear_value s4
  have hs5 : Form s5 := form_with { hs4 with regs := foldl_mdrop_wf hs4.regs, sels := mdrop_wf _ _ _ _ hs4.sels }
  exact form_fset hs5

theorem form_setPcieUp {m} (h : Form s) : Form { s with pcieUp := m } := form_with h

theorem form_functionLevelReset {loss} (h : Form s) : Form (functionLevelReset loss s) := by
  unfold functionLevelReset
  have hs1 : Form (interfaceReset s) := form_interfaceReset h
  exact form_ite h (form_ite (form_setPcieUp hs1) hs1)

theorem form_perstNAssert {n} (h : Form s) : Form (perstNAssert n s) := by
  unfold perstNAssert
  exact form_ite h (form_ite (form_putPow h) (form_endpointReset (form_ite (form_interfaceReset h) h)))

theorem form_d0Write (h : Form s) : Form (d0Write s) := by
  unfold d0Write
  exact form_ite h (form_startExit (form_foldl (fun _ _ ht => form_ite (form_vectorMask ht) ht) (form_fset (form_with h))))

theorem form_linkTrained {n rate width lanes reversed} (h : Form s) : Form (linkTrained n rate width lanes reversed s) := by
  unfold linkTrained
  extract_lets y w s1 s2
  have hs1 : Form s1 := form_putPow h
  clear_value s1
  have hs2 : Form s2 := form_with hs1
  clear_value s2
  exact form_ite h (form_ite (form_setRole hs2) hs2)

end Sys2Proof.Machine
end

section
/-! Every command keeps the canonical form, and so does every step. -/

namespace Sys2Proof.Machine

/-- The block of an outcome that is a next state is in canonical form. -/
def OutcomeForm : Host.Outcome State Fault Refusal → Prop
  | .next t => Form t.toBlock
  | _ => True

theorem outcomeForm_done {s : State} {b : Block} (h : Form b) : OutcomeForm (done s b) := h

/-- Each command answers the block of one function of the model, which keeps the form. -/
theorem exec_form {c : Instr} {s : State} (h : Form s.toBlock) : OutcomeForm (exec c s) := by
  cases c with
  | registerWrite => exact outcomeForm_done (form_registerWrite h)
  | rwlShadowWrite => exact outcomeForm_done (form_rwlShadowWrite h)
  | selectWrite => exact outcomeForm_done (form_selectWrite h)
  | counterClearWrite => exact outcomeForm_done (form_counterClearWrite h)
  | bar2Access => exact outcomeForm_done (form_bar2Access h)
  | timNowLoRead => exact outcomeForm_done (form_timNowRead h)
  | secChallengeRead => exact outcomeForm_done (form_challengeRead h)
  | tileCycle => exact outcomeForm_done (form_tileCycle h)
  | exchangeStepArrival => exact outcomeForm_done (form_whenRun (fun _ ht => form_exchangeStepArrival ht) h)
  | newtWaitEnd => exact outcomeForm_done (form_whenRun (fun _ ht => form_newtWaitEnd ht) h)
  | finalGate => exact outcomeForm_done (form_whenRun (fun _ ht => form_finalGate ht) h)
  | newtEdgeStall => exact outcomeForm_done (form_whenRun (fun _ ht => form_newtEdgeStall ht) h)
  | newtWaitStall => exact outcomeForm_done (form_whenRun (fun _ ht => form_newtWaitStall ht) h)
  | storeCeWriteback => exact outcomeForm_done (form_storeCeWriteback h)
  | storePatrolCheck => exact outcomeForm_done (form_storePatrolCheck h)
  | scrubSlot => exact outcomeForm_done (form_scrubSlot h)
  | scrubForcedSlot => exact outcomeForm_done (form_scrubForcedSlot h)
  | scrubIdleWake => exact outcomeForm_done (form_scrubIdleWake h)
  | scrubWriteback => exact outcomeForm_done (form_scrubWriteback h)
  | scrubEnWrite | storeWordRead | storeWordWrite | gangEnWrite | gangStopWrite | gangResumeWrite | resumeDiscard
  | taskEnWrite | acuIpiWrite | acuBellWrite | ownerWrite | ringTrigger | ringResume | ringEnWrite | wheelEnWrite
  | jlinkEnWrite | streamEnWrite | drvReadyWrite | driveMuteWrite | driveUnmuteWrite | muteAllWrite | driveEnWrite
  | logRptrWrite | logEnWrite | regionEnWrite | weirCommitWrite | weirDiscard | pubReady | pubEnWrite
  | spanLinkEnWrite | nocIsolateWrite | routerSwap | domainDownWrite | faultAckWrite | clearFirst | dlmArmWrite
  | dlmDoneWrite | dlmEnWrite | govReqWrite | govClkWrite | timSetWrite | secUnlock | dbgRegRead | dbgRegWrite =>
    exact outcomeForm_done (form_hostTlp h)
  | scrubDrainDone => exact outcomeForm_done (form_scrubDrainDone h)
  | inspectionRead | inspectionWrite | logEventWrite =>
    exact outcomeForm_done (form_ctxReq h)
  | inspectionDone => exact outcomeForm_done (form_inspectionDone h)
  | storeVerify => exact outcomeForm_done (form_storeVerify h)
  | storeOpDone => exact outcomeForm_done (form_storeOpDone h)
  | dispatch => exact outcomeForm_done (form_dispatchNext h)
  | aNop | aEnd | aFbar =>
    exact outcomeForm_done (form_runOp (fun _ _ _ ht => form_idleBody ht) h)
  | aClrf => exact outcomeForm_done (form_runOp (fun _ _ _ ht => form_clrfBody ht) h)
  | aGetf | aAdd | aFadd | aSub | aFsub | aNeg | aFneg | aAbs | aFabs | aMul | aFmul | aMac | aFmac | aDiv | aFdiv
  | aRem | aFsqrt | aMin | aFmin | aMax | aFmax | aCmp | aFcmp | aCvt | aFcvt | aAnd | aOr | aXor | aNot | aLogic
  | aShl | aShr | aSar | aRol | aRor | aShli | aShri | aSari | aRoli | aRori | aMov | aFill | aSel =>
    exact outcomeForm_done (form_runOp (fun _ _ _ ht => form_elemBody ht) h)
  | aPutf => exact outcomeForm_done (form_runOp (fun _ _ _ ht => form_putfBody ht) h)
  | aSetm => exact outcomeForm_done (form_runOp (fun _ _ _ ht => form_setmBody ht) h)
  | aGetm => exact outcomeForm_done (form_runOp (fun _ _ _ ht => form_getmBody ht) h)
  | aMovn => exact outcomeForm_done (form_runMovn h)
  | aCroak => exact outcomeForm_done (form_runOp (fun _ _ _ ht => form_croakBody ht) h)
  | aCmax | aCmin =>
    exact outcomeForm_done (form_runOp (fun _ _ _ ht => form_cmaxBody ht) h)
  | aFcmax | aFcmin =>
    exact outcomeForm_done (form_runOp (fun _ _ _ ht => form_fcmaxBody ht) h)
  | aCount => exact outcomeForm_done (form_runOp (fun _ _ _ ht => form_countBody ht) h)
  | aCopy => exact outcomeForm_done (form_runResumable (fun _ _ _ _ _ ht => form_copyStep ht) h)
  | aScan => exact outcomeForm_done (form_runResumable (fun _ _ _ _ _ ht => form_scanStep ht) h)
  | aBfly | aFbfly =>
    exact outcomeForm_done (form_runResumable (fun _ _ _ _ _ ht => form_bflyStep ht) h)
  | aWin => exact outcomeForm_done (form_runResumable (fun _ _ _ _ _ ht => form_winStep ht) h)
  | aWout => exact outcomeForm_done (form_runWout h)
  | userOp => exact outcomeForm_done (form_userOp h)
  | millraceAccept => exact outcomeForm_done (form_whenRun (fun _ ht => form_millraceAccept ht) h)
  | macroOpDelivery => exact outcomeForm_done (form_whenRun (fun _ ht => form_macroOpDelivery ht) h)
  | coldWaveRelease => exact outcomeForm_done (form_whenRun (fun _ ht => form_coldWaveRelease ht) h)
  | macroOpRetire => exact outcomeForm_done (form_whenRun (fun _ ht => form_macroOpRetire ht) h)
  | croakResultLatch => exact outcomeForm_done (form_whenRun (fun _ ht => form_croakResultLatch ht) h)
  | yieldDecision => exact outcomeForm_done (form_whenRun (fun _ ht => form_yieldDecision ht) h)
  | stopComplete => exact outcomeForm_done (form_whenRun (fun _ ht => form_stopComplete ht) h)
  | gangDrainDone => exact outcomeForm_done (form_whenRun (fun _ ht => form_gangDrainDone ht) h)
  | add | addc | sub | subc | neg | and | or | xor | andn | shl | shr | sar | rol | ror | mul | mulu | div | divu
  | dadd | dsub | dadj | addi | andi | ori | xori | lui | cmpi | shli | shri | sari | roli | rori | ldb | ldbu | ldh
  | ldhu | ld | ldd | lwg | stb | sth | st | std | swg | bCond | call | jrl | fadd | fsub | fmul | fmadd | fdiv
  | fsqrt | fmin | fmax | fneg | fabs | fcvtF | fcvtI | fcvtU | fcvtFi | fcvtFu | fcmp | wadv | wrev | reti | trap
  | wait | sync | isync | fbar | mfsr | mtsr | millIss | millRes | millWait | millYield | millResume =>
    exact outcomeForm_done (form_acuStep h)
  | divideComplete => exact outcomeForm_done (form_divideComplete h)
  | fpReport => exact outcomeForm_done (form_fpReport h)
  | taskWake => exact outcomeForm_done (form_taskWake h)
  | trapEntry => exact outcomeForm_done (form_trapEntry h)
  | storeDrain => exact outcomeForm_done (form_storeDrain h)
  | ramTestWindow => exact outcomeForm_done (form_whenRun (fun _ ht => form_ramTestWindow ht) h)
  | taskDrainDone => exact outcomeForm_done (form_taskDrainDone h)
  | handoverCommit => exact outcomeForm_done (form_handoverServe h)
  | stagingAccess => exact outcomeForm_done (form_whenRun (fun _ ht => form_stagingAccess ht) h)
  | stgTestWindow => exact outcomeForm_done (form_whenRun (fun _ ht => form_stgTestWindow ht) h)
  | recordStoreAccess => exact outcomeForm_done (form_whenRun (fun _ ht => form_recordStoreAccess ht) h)
  | recScrubStep => exact outcomeForm_done (form_recScrubStep h)
  | recClearDone => exact outcomeForm_done (form_recClearDone h)
  | ringFreeze => exact outcomeForm_done (form_ringFreeze h)
  | ringDrainDone => exact outcomeForm_done (form_whenRun (fun _ ht => form_ringDrainDone ht) h)
  | wheelTransfer => exact outcomeForm_done (form_whenRun (fun _ ht => form_wheelTransfer ht) h)
  | wheelDrainDone => exact outcomeForm_done (form_whenRun (fun _ ht => form_wheelDrainDone ht) h)
  | jlinkUp => exact outcomeForm_done (form_jlinkUp h)
  | jesdBlockReceive => exact outcomeForm_done (form_whenRun (fun _ ht => form_jesdBlockReceive ht) h)
  | laneAlignLoss => exact outcomeForm_done (form_laneAlignLoss h)
  | sysrefPulse => exact outcomeForm_done (form_sysrefPulse h)
  | laneSignalLoss => exact outcomeForm_done (form_laneSignalLoss h)
  | samples => exact outcomeForm_done (form_whenRun (fun _ ht => form_samples ht) h)
  | timeSync => exact outcomeForm_done (form_whenRun (fun _ ht => form_timeSync ht) h)
  | control => exact outcomeForm_done (form_whenRun (fun _ ht => form_control ht) h)
  | rawLaneWord => exact outcomeForm_done (form_whenRun (fun _ ht => form_rawLaneWord ht) h)
  | sampleWriteDone => exact outcomeForm_done (form_whenRun (fun _ ht => form_sampleWriteDone ht) h)
  | sampleLostDue => exact outcomeForm_done (form_whenRun (fun _ ht => form_sampleLostDue ht) h)
  | blockComplete => exact outcomeForm_done (form_whenRun (fun _ ht => form_blockComplete ht) h)
  | streamDrainDone => exact outcomeForm_done (form_whenRun (fun _ ht => form_streamDrainDone ht) h)
  | driveFetch => exact outcomeForm_done (form_whenClocked (fun _ ht => form_driveFetch ht) h)
  | driveSampleDue => exact outcomeForm_done (form_whenClocked (fun _ ht => form_driveSampleDue ht) h)
  | inhibitAssert => exact outcomeForm_done (form_inhibitAssert h)
  | inhibitRelease => exact outcomeForm_done (form_inhibitRelease h)
  | logHostCopy => exact outcomeForm_done (form_whenRun (fun _ ht => form_logHostCopy ht) h)
  | logIrqTimer => exact outcomeForm_done (form_logIrqTimer h)
  | logDrainDone => exact outcomeForm_done (form_whenRun (fun _ ht => form_logDrainDone ht) h)
  | fabricContention => exact outcomeForm_done (form_whenRun (fun _ ht => form_fabricContention ht) h)
  | regionRamRead => exact outcomeForm_done (form_whenRun (fun _ ht => form_regionRamRead ht) h)
  | inboundBeat => exact outcomeForm_done (form_whenRun (fun _ ht => form_inboundBeat ht) h)
  | outboundBeatExpire => exact outcomeForm_done (form_whenRun (fun _ ht => form_outboundBeatExpire ht) h)
  | fabricMasterRequest => exact outcomeForm_done (form_fabricMasterRequest h)
  | geckoWindowAccess => exact outcomeForm_done (form_whenRun (fun _ ht => form_geckoWindowAccess ht) h)
  | geckoTrigger => exact outcomeForm_done (form_whenRun (fun _ ht => form_geckoTrigger ht) h)
  | geckoIrqLine => exact outcomeForm_done (form_whenRun (fun _ ht => form_geckoIrqLine ht) h)
  | regionDrainDone => exact outcomeForm_done (form_regionDrainDone h)
  | configWordCheck => exact outcomeForm_done (form_whenRun (fun _ ht => form_configWordCheck ht) h)
  | capture => exact outcomeForm_done (form_whenRun (fun _ ht => form_capture ht) h)
  | captureEdge => exact outcomeForm_done (form_whenRun (fun _ ht => form_captureEdge ht) h)
  | captureWritten => exact outcomeForm_done (form_whenRun (fun _ ht => form_captureWritten ht) h)
  | captureResume => exact outcomeForm_done (form_whenRun (fun _ ht => form_captureResume ht) h)
  | epochBoundary => exact outcomeForm_done (form_epochBoundary h)
  | prepareCommit => exact outcomeForm_done (form_prepareCommit h)
  | vote => exact outcomeForm_done (form_vote h)
  | commit => exact outcomeForm_done (form_commitMsg h)
  | applyEpoch => exact outcomeForm_done (form_applyMsg h)
  | snapshotImageDone => exact outcomeForm_done (form_snapshotImageDone h)
  | commitAck => exact outcomeForm_done (form_commitAck h)
  | abandon => exact outcomeForm_done (form_abandon h)
  | voteTimeout => exact outcomeForm_done (form_voteTimeout h)
  | commitLate => exact outcomeForm_done (form_commitLate h)
  | outcomeTimeout => exact outcomeForm_done (form_outcomeTimeout h)
  | sqTailWrite => exact outcomeForm_done (form_sqTailBell h)
  | cqHeadWrite => exact outcomeForm_done (form_cqHeadBell h)
  | queueEnWrite => exact outcomeForm_done (form_queueEnBell h)
  | queueDrainDone => exact outcomeForm_done (form_queueDrainDone h)
  | commandTake => exact outcomeForm_done (form_commandTake h)
  | commandCompletion => exact outcomeForm_done (form_commandCompletion h)
  | nop => exact outcomeForm_done (form_nopCmd h)
  | identify => exact outcomeForm_done (form_identifyCmd h)
  | abort => exact outcomeForm_done (form_abortCmd h)
  | regRead => exact outcomeForm_done (form_regReadCmd h)
  | regWrite => exact outcomeForm_done (form_regWriteCmd h)
  | storeSettings => exact outcomeForm_done (form_storeSettingsCmd h)
  | readSettings => exact outcomeForm_done (form_readSettingsCmd h)
  | imageWrite => exact outcomeForm_done (form_imageWriteCmd h)
  | microcodeLoad => exact outcomeForm_done (form_microcodeLoadCmd h)
  | bootSelect => exact outcomeForm_done (form_bootSelectCmd h)
  | gangRun => exact outcomeForm_done (form_gangRunCmd h)
  | gangStop => exact outcomeForm_done (form_gangStopCmd h)
  | gangResume => exact outcomeForm_done (form_gangResumeCmd h)
  | gangDisable => exact outcomeForm_done (form_gangDisableCmd h)
  | taskStart => exact outcomeForm_done (form_taskStartCmd h)
  | taskStop => exact outcomeForm_done (form_taskStopCmd h)
  | streamCtrl => exact outcomeForm_done (form_streamCtrlCmd h)
  | driveMute => exact outcomeForm_done (form_driveMuteCmd h)
  | driveUnmute => exact outcomeForm_done (form_driveUnmuteCmd h)
  | epochCommit => exact outcomeForm_done (form_epochCommitCmd h)
  | epochStage => exact outcomeForm_done (form_epochStageCmd h)
  | snapshot => exact outcomeForm_done (form_snapshotCmd h)
  | faultAck => exact outcomeForm_done (form_faultAckCmd h)
  | faultRead => exact outcomeForm_done (form_faultReadCmd h)
  | powerState => exact outcomeForm_done (form_powerStateCmd h)
  | fabricLoad => exact outcomeForm_done (form_fabricLoadCmd h)
  | topologyRead => exact outcomeForm_done (form_topologyReadCmd h)
  | topologyRescan => exact outcomeForm_done (form_topologyRescanCmd h)
  | vectorUnmask => exact outcomeForm_done (form_vectorUnmask h)
  | linkTrained => exact outcomeForm_done (form_linkTrained h)
  | functionLevelReset => exact outcomeForm_done (form_functionLevelReset h)
  | d3hotWrite => exact outcomeForm_done (form_d3hotWrite h)
  | d0Write => exact outcomeForm_done (form_d0Write h)
  | perstNAssert => exact outcomeForm_done (form_perstNAssert h)
  | spanLinkUp => exact outcomeForm_done (form_spanLinkUp h)
  | spanTrainRetry => exact outcomeForm_done (form_spanTrainRetry h)
  | flitReceive => exact outcomeForm_done (form_flitReceive h)
  | linkDownDetect => exact outcomeForm_done (form_linkDownDetect h)
  | callPeriod => exact outcomeForm_done (form_callPeriod h)
  | chorusCall => exact outcomeForm_done (form_chorusCall h)
  | chorusAnswer => exact outcomeForm_done (form_chorusAnswer h)
  | primaryElection => exact outcomeForm_done (form_primaryElection h)
  | lossReport => exact outcomeForm_done (form_lossReport h)
  | fence => exact outcomeForm_done (form_fence h)
  | primaryUnreachable => exact outcomeForm_done (form_primaryUnreachable h)
  | frontEndLeave => exact outcomeForm_done (form_frontEndLeave h)
  | timeTransfer => exact outcomeForm_done (form_timeTransfer h)
  | keepAliveWake => exact outcomeForm_done (form_keepAliveWake h)
  | read => exact outcomeForm_done (form_nocRead h)
  | write => exact outcomeForm_done (form_nocWrite h)
  | msg => exact outcomeForm_done (form_nocMsg h)
  | ack => exact outcomeForm_done (form_nocAck h)
  | held => exact outcomeForm_done (form_nocHeld h)
  | snoopInv => exact outcomeForm_done (form_snoopInv h)
  | snoopWbinv => exact outcomeForm_done (form_snoopWbinv h)
  | snoopAck => exact outcomeForm_done (form_snoopAck h)
  | routerForward => exact outcomeForm_done (form_whenRun (fun _ ht => form_routerForward ht) h)
  | initiatorTimeout => exact outcomeForm_done (form_initiatorExpire h)
  | swapDrainDone => exact outcomeForm_done (form_swapDrainDone h)
  | nocReconfStall => exact outcomeForm_done (form_nocReconfStall h)
  | bridgeClosed => exact outcomeForm_done (form_bridgeClosed h)
  | domainWakeDone => exact outcomeForm_done (form_domainWakeDone h)
  | faultEvent => exact outcomeForm_done (form_faultEvent h)
  | quietWindowEnd => exact outcomeForm_done (form_quietWindowEnd h)
  | leakTimer => exact outcomeForm_done (form_leakTimer h)
  | escalationTimer => exact outcomeForm_done (form_escalationTimer h)
  | blackboxWrite => exact outcomeForm_done (form_whenServed (fun _ ht => form_blackboxWrite ht) h)
  | deadlineExpiry => exact outcomeForm_done (form_deadlineExpiry h)
  | sagStretch => exact outcomeForm_done (form_sagStretch h)
  | sagRecover => exact outcomeForm_done (form_sagRecover h)
  | sagSustained => exact outcomeForm_done (form_sagSustained h)
  | throttleStep => exact outcomeForm_done (form_throttleStep h)
  | powerSample => exact outcomeForm_done (form_powerSample h)
  | tempSample => exact outcomeForm_done (form_tempSample h)
  | railOutOfRange => exact outcomeForm_done (form_railOutOfRange h)
  | railFaultTimeout => exact outcomeForm_done (form_railFaultTimeout h)
  | vinCollapse => exact outcomeForm_done (form_vinCollapse h)
  | vauxLoss => exact outcomeForm_done (form_vauxLoss h)
  | powerGood => exact outcomeForm_done (form_powerGood h)
  | resetNAssert => exact outcomeForm_done (form_resetNAssert h)
  | powerEntryDone => exact outcomeForm_done (form_powerEntryDone h)
  | wakeNLow => exact outcomeForm_done (form_wakeNLow h)
  | wakeTimer => exact outcomeForm_done (form_wakeTimer h)
  | powerExitDone => exact outcomeForm_done (form_powerExitServe h)
  | reloadDone => exact outcomeForm_done (form_reloadDone h)
  | refLock => exact outcomeForm_done (form_refLock h)
  | refinLoss => exact outcomeForm_done (form_refinLoss h)
  | ppsEdge => exact outcomeForm_done (form_ppsEdge h)
  | timPpsLoss => exact outcomeForm_done (form_timPpsLoss h)
  | ppsOutPulse => exact outcomeForm_done (form_ppsOutPulse h)
  | timeLoad => exact outcomeForm_done (form_timeLoad h)
  | timHoldoverLimit => exact outcomeForm_done (form_timHoldoverLimit h)
  | bmcWrite => exact outcomeForm_done (form_bmcWrite h)
  | mramPatrol => exact outcomeForm_done (form_mramPatrol h)
  | challengeExpiry => exact outcomeForm_done (form_challengeExpiry h)
  | sensorLaneLock => exact outcomeForm_done (form_sensorLaneLock h)
  | vinReturn => exact outcomeForm_done (form_vinReturn h)
  | tlpWake => exact outcomeForm_done (form_tlpWake h)
  | aspmL1Entry => exact outcomeForm_done (form_aspmL1Entry h)

theorem step_form {s t : State} (h : Form s.toBlock) (e : step s = .next t) : Form t.toBlock := by
  have hstep : OutcomeForm (step s) := by
    unfold step
    split
    · exact form_with h
    · exact exec_form h
  rw [e] at hstep
  exact hstep

end Sys2Proof.Machine
end

section
/-! An aligned word of the record store, written and read back (02 R33, R34, 10 R225, R231, R233). -/

namespace Sys2Proof.Machine

/-! ### Eight aligned bytes as one word -/

/-- The number that the first `k` bytes spell, least significant first. -/
def bytesValue (bs : List (BitVec 8)) (k : Nat) : Nat := (List.range k).foldl (fun v i => v + (bs.getD i 0).toNat * 256 ^ i) 0

/-- The data and the mask of a word after byte `i` of an access that enables every byte. -/
def addByte (bs : List (BitVec 8)) (p : Nat × Nat) (i : Nat) : Nat × Nat := (p.1 + (bs.getD i 0).toNat * 256 ^ i, p.2 + 255 * 256 ^ i)

section
variable {bs : List (BitVec 8)}

theorem bytesValue_succ (k : Nat) : bytesValue bs (k + 1) = bytesValue bs k + (bs.getD k 0).toNat * 256 ^ k := by
  unfold bytesValue
  rw [List.range_succ, List.foldl_append, List.foldl_cons, List.foldl_nil]

theorem bytesValue_lt (k : Nat) : bytesValue bs k < 256 ^ k := by
  induction k with
  | zero => exact Nat.one_pos
  | succ k ih =>
    have hb : (bs.getD k 0).toNat ≤ 255 := Nat.le_of_lt_succ (bs.getD k 0).isLt
    have hm : (bs.getD k 0).toNat * 256 ^ k ≤ 255 * 256 ^ k := Nat.mul_le_mul_right _ hb
    rw [bytesValue_succ, Nat.pow_succ]
    omega

theorem bytesValue_eight_lt : bytesValue bs 8 < 2 ^ 64 := lt_of_lt_of_eq (bytesValue_lt 8) (by norm_num)

theorem bytesValue_byte {i k : Nat} (hi : i < k) : bytesValue bs k / 256 ^ i % 256 = (bs.getD i 0).toNat := by
  induction k with
  | zero => exact absurd hi (Nat.not_lt_zero i)
  | succ k ih =>
    rw [bytesValue_succ]
    rcases Nat.lt_succ_iff_lt_or_eq.mp hi with hlt | rfl
    · obtain ⟨j, rfl⟩ := Nat.exists_eq_add_of_lt hlt
      have hp : (bs.getD (i + j + 1) 0).toNat * 256 ^ (i + j + 1) = 256 ^ i * (256 * ((bs.getD (i + j + 1) 0).toNat * 256 ^ j)) := by ring
      rw [hp, Nat.add_mul_div_left _ _ (Nat.pow_pos (by omega)), Nat.add_mul_mod_self_left]
      exact ih hlt
    · rw [Nat.add_mul_div_right _ _ (Nat.pow_pos (by omega)), Nat.div_eq_of_lt (bytesValue_lt i), Nat.zero_add]
      exact Nat.mod_eq_of_lt (bs.getD i 0).isLt

theorem foldl_addByte (k : Nat) : (List.range k).foldl (addByte bs) (0, 0) = (bytesValue bs k, 256 ^ k - 1) := by
  induction k with
  | zero => rfl
  | succ k ih =>
    have hpos : 0 < 256 ^ k := Nat.pow_pos (by omega)
    rw [List.range_succ, List.foldl_append, ih, List.foldl_cons, List.foldl_nil]
    refine Prod.ext (bytesValue_succ k).symm ?_
    show 256 ^ k - 1 + 255 * 256 ^ k = 256 ^ (k + 1) - 1
    rw [Nat.pow_succ]
    omega

/-- A whole aligned word takes all its bits from the bytes. -/
theorem wordPart_aligned {addr : Nat} (ha : addr % 8 = 0) (h : bs.length = 8) :
    wordPart addr (bs.map some) (addr / 8) = (bytesValue bs 8, ones64) := by
  refine Eq.trans (List.foldl_ext _ (addByte bs) _ fun p i hi => ?_) (foldl_addByte 8)
  have hi8 : i < bs.length := by
    rw [h]
    exact List.mem_range.mp hi
  have hat : (bs.map some)[8 * (addr / 8) + i - addr]? = some (some (bs.getD i 0)) := by
    have hsub : 8 * (addr / 8) + i - addr = i := by omega
    rw [hsub, List.getElem?_map, List.getElem?_eq_getElem hi8, List.getD_eq_getElem _ _ hi8]
    rfl
  rw [if_neg (by omega), hat]
  rfl

theorem wordsOf_aligned {addr : Nat} (ha : addr % 8 = 0) : wordsOf addr 8 = [addr / 8] := by
  have hn : (addr + 8 - 1) / 8 + 1 - addr / 8 = 1 := by omega
  unfold wordsOf
  rw [if_neg (by omega), hn]
  simp

/-- The bytes of a word are those it was made of. -/
theorem bytesFrom_bytesValue {addr : Nat} (ha : addr % 8 = 0) (h : bs.length = 8) :
    bytesFrom addr 8 [bytesValue bs 8] = bs := by
  unfold bytesFrom
  refine List.ext_getElem (by simp [h]) fun i hi hi' => ?_
  have hi8 : i < 8 := h ▸ hi'
  have hdiv : (addr + i) / 8 - addr / 8 = 0 := by omega
  have hmod : (addr + i) % 8 = i := by omega
  apply BitVec.eq_of_toNat_eq
  rw [List.getElem_map, List.getElem_range, hdiv, hmod, List.getD_cons_zero, BitVec.toNat_ofNat, show 2 ^ 8 = 256 from rfl,
    bytesValue_byte hi8, List.getD_eq_getElem _ _ hi']

end

/-! ### A word of a memory, written whole and read -/

section
variable {s : Block} {m : Mem} {n addr : Nat} {bs : List (BitVec 8)}

theorem memWrite_aligned (ha : addr % 8 = 0) (h : bs.length = 8) :
    memWrite s m n 0 addr (bs.map some) = (true, memPut s m n (addr / 8) (freshWord code64 (bytesValue bs 8))) := by
  unfold memWrite
  rw [List.length_map, h, wordsOf_aligned ha, List.foldl_cons, List.foldl_nil]
  unfold memWritePart
  rw [wordPart_aligned ha h]
  rfl

/-- A word stored with its check bits reads as its data, and the read changes nothing. -/
theorem memRead_fresh {w v : Nat} (hv : v < 2 ^ 64) (h : memGet s m n w = freshWord code64 v) :
    memRead s m n w = (some v, s) := by
  have hd : (BitVec.ofNat 64 v).toNat = v := by rw [BitVec.toNat_ofNat, Nat.mod_eq_of_lt hv]
  have hdec := decodeStored_fresh (BitVec.ofNat 64 v)
  rw [hd] at hdec
  unfold memRead
  rw [h, hdec]

theorem memReadWords_one {w : Nat} {o : Option Nat} (h : memRead s m n w = (o, s)) : memReadWords s m n [w] = ([o], s) := by
  rw [memReadWords, h, memReadWords]

theorem memLoad_one {w v len : Nat} (hw : wordsOf addr len = [w]) (h : memRead s m n w = (some v, s)) :
    memLoad s m n addr len = (some (bytesFrom addr len [v]), s) := by
  unfold memLoad
  rw [hw, memReadWords_one h]
  rfl

theorem memLoad_aligned (ha : addr % 8 = 0) (h : bs.length = 8)
    (hg : memGet s m n (addr / 8) = freshWord code64 (bytesValue bs 8)) : memLoad s m n addr 8 = (some bs, s) := by
  rw [memLoad_one (wordsOf_aligned ha) (memRead_fresh bytesValue_eight_lt hg), bytesFrom_bytesValue ha h]

theorem freshWord_bytesValue_lt : freshWord code64 (bytesValue bs 8) < 2 ^ 72 := by
  have hd : (BitVec.ofNat 64 (bytesValue bs 8)).toNat = bytesValue bs 8 := by
    rw [BitVec.toNat_ofNat, Nat.mod_eq_of_lt bytesValue_eight_lt]
  have hf := freshWord64_lt (BitVec.ofNat 64 (bytesValue bs 8))
  rwa [hd] at hf

end

/-- Another word of the record store keeps what it holds. -/
theorem memGet_memPut_record_other {s : Block} {n n' w w' v : Nat} (h : Memory.wf s = true) (hw : w < 2 ^ 34) (hw' : w' < 2 ^ 34)
    (hne : n' ≠ n ∨ w' ≠ w) : memGet (memPut s .record n w v) .record n' w' = memGet s .record n' w' := by
  have hrec : mrising none s.record = true := by
    simp only [Memory.wf, mwf, Bool.and_eq_true] at h
    obtain ⟨⟨⟨-, hr, -⟩, -⟩, -⟩ := h
    exact hr
  have hkey : n' * 2 ^ 34 + w' ≠ n * 2 ^ 34 + w := by omega
  exact congrArg BitVec.toNat (mget_mput_other _ _ _ _ _ hrec hkey)

/-! ### The way to a word is found by the registers and the routers alone (16 R374, R376) -/

section
variable {s t : Block} {n : Nat} (hregs : t.regs = s.regs)
include hregs

theorem rget_congr (r : Reg) (i : Nat) : rget t n r i = rget s n r i := by
  unfold rget
  rw [hregs]

theorem fget_congr (f : Fld) (i : Nat) : fget t n f i = fget s n f i := by
  unfold fget
  rw [rget_congr hregs]

theorem isolatedEp_congr (ep : Nat) : isolatedEp t n ep = isolatedEp s n ep := by
  unfold isolatedEp
  rw [rget_congr hregs]

theorem setBridge_regs_congr (d v : Nat) : (setBridge t n d v).regs = (setBridge s n d v).regs := by
  unfold setBridge fput rput
  rw [rget_congr hregs, hregs]

theorem inRun_congr (hpows : t.pows = s.pows) : inRun t n = inRun s n := by
  unfold inRun clocked pState pow
  rw [fget_congr hregs, hpows]

section
variable (hrouters : t.routers = s.routers)
include hrouters

theorem activePort_congr (q ep : Nat) : activePort t n q ep = activePort s n q ep := by
  unfold activePort activeBank bankEntry router
  rw [fget_congr hregs, hrouters]

theorem routeDefault_congr (ep : Nat) : routeDefault t n ep = routeDefault s n ep := by
  unfold routeDefault activeBankOf activeBank
  rw [hrouters]
  simp only [fget_congr hregs]

theorem pathFrom_congr (ep k q : Nat) : pathFrom t n ep k q = pathFrom s n ep k q := by
  induction k generalizing q with
  | zero => rfl
  | succ k ih =>
    unfold pathFrom
    simp only [activePort_congr hregs hrouters, ih]

theorem netPath_congr (e ep : Nat) : netPath t n e ep = netPath s n e ep := by
  unfold netPath
  rw [routeDefault_congr hregs hrouters, pathFrom_congr hregs hrouters]

theorem netEnd_none_congr {e ep addr : Nat} (h : netEnd s n e ep addr = none) : netEnd t n e ep addr = none := by
  have hp : netPath s n e ep = .there := by
    unfold netEnd at h
    split at h
    · next hp => exact hp
    · exact absurd h (by simp)
    · exact absurd h (by simp)
  unfold netEnd
  rw [netPath_congr hregs hrouters, hp]

end

end

/-! ### An access that leaves the block as it is comes to open bridges (16 R376) -/

section
variable {s : Block} {n : Nat}


@[simp] theorem fsat_now (f : Fld) (i : Nat) : (fsat s n f i).now = s.now := rfl
@[simp] theorem cacheCe_now (a i : Nat) : (cacheCe s n a i).now = s.now := rfl
@[simp] theorem cacheUe_now (a i : Nat) : (cacheUe s n a i).now = s.now := rfl
@[simp] theorem holdReq_now (f : BitVec 128) (d : Nat) (req : MemReq) : (holdReq s f d req).now = s.now := rfl
@[simp] theorem respond_now (f : BitVec 128) (a : MemAns) : (respond f a).now = a.st.now := rfl
@[simp] theorem setBridge_now (d v : Nat) : (setBridge s n d v).now = s.now := rfl
@[simp] theorem memPut_now (m : Mem) (w v : Nat) : (memPut s m n w v).now = s.now := by cases m <;> rfl
@[simp] theorem memCe_now (m : Mem) (w : Nat) : (memCe s m n w).now = s.now := by cases m <;> rfl
@[simp] theorem memUe_now (m : Mem) (w : Nat) : (memUe s m n w).now = s.now := by cases m <;> rfl

@[simp] theorem memRead_now (m : Mem) (w : Nat) : (memRead s m n w).2.now = s.now := by
  unfold memRead
  dsimp only
  split <;> simp

@[simp] theorem memReadWords_now (m : Mem) (l : List Nat) : (memReadWords s m n l).2.now = s.now := by
  induction l generalizing s with
  | nil => rfl
  | cons w l ih => exact ih.trans (memRead_now m w)

@[simp] theorem memLoad_now (m : Mem) (addr len : Nat) : (memLoad s m n addr len).2.now = s.now := by
  unfold memLoad
  dsimp only
  split <;> simp

@[simp] theorem memRmw_now (m : Mem) (w : Nat) (f : Nat → Nat) : (memRmw s m n w f).2.now = s.now := by
  have hr := memRead_now (s := s) (n := n) m w
  unfold memRmw
  split <;> simp_all

@[simp] theorem memWritePart_now (m : Mem) (al addr : Nat) (bs : List (Option (BitVec 8))) (r : Bool × Block) (w : Nat) :
    (memWritePart m n al addr bs r w).2.now = r.2.now := by
  unfold memWritePart
  dsimp only
  split
  · rfl
  · split <;> simp

/-- A fold whose steps leave device time as it is leaves it so. -/
theorem foldl_now {α β : Type} {f : β → α → β} {now : β → Nat} (hf : ∀ b x, now (f b x) = now b) (l : List α) (b : β) :
    now (l.foldl f b) = now b := by
  induction l generalizing b with
  | nil => rfl
  | cons x l ih => exact (ih (f b x)).trans (hf b x)

@[simp] theorem memWrite_now (m : Mem) (al addr : Nat) (bs : List (Option (BitVec 8))) : (memWrite s m n al addr bs).2.now = s.now :=
  foldl_now (now := fun r : Bool × Block => r.2.now) (fun _ _ => memWritePart_now _ _ _ _ _ _) _ _

@[simp] theorem flushLineOf_now (line a : Nat) : (flushLineOf n line s a).now = s.now := by
  unfold flushLineOf
  dsimp only
  split
  · rfl
  · split
    · refine (foldl_now (now := Block.now) (fun b i => ?_) _ _).trans (putAcu_now _ _ _ _)
      split <;> simp
    · rfl

@[simp] theorem flushLine_now (line : Nat) : (flushLine s n line).now = s.now :=
  foldl_now (now := Block.now) (fun _ _ => flushLineOf_now _ _) _ _

@[simp] theorem recPast_now (req : MemReq) : (recPast s n req).st.now = s.now := by
  have hl := memLoad_now (s := s) (n := n) .record req.addr req.bytes.length
  unfold recPast
  split
  · exact memWrite_now _ _ _ _
  · split <;> simp_all

@[simp] theorem stgServe_now (al : Nat) (req : MemReq) : (stgServe s n al req).st.now = s.now := by
  have hf : ∀ l : List Nat, (l.foldl (fun s l => flushLine s n l) s).now = s.now :=
    fun l => foldl_now (now := Block.now) (fun _ _ => flushLine_now _) l s
  unfold stgServe
  dsimp only
  split
  · exact (memWrite_now _ _ _ _).trans (hf _)
  · split
    · next bs b he => exact ((congrArg (fun p => p.2.now) he).symm.trans (memLoad_now _ _ _)).trans (hf _)
    · next b he => exact ((congrArg (fun p => p.2.now) he).symm.trans (memLoad_now _ _ _)).trans (hf _)

theorem stgPast_now {al : Nat} {req : MemReq} {x : Treat} {a : MemAns} (h : stgPast s n al req x = some a) : a.st.now = s.now := by
  cases x with
  | serve => cases h; exact stgServe_now _ _
  | nonOwner => cases h; rfl
  | stall => cases h

theorem epMem_now {f : BitVec 128} {own : Bool} {req : MemReq} {a : MemAns} (h : epMem s f own req = some a) : a.st.now = s.now := by
  unfold epMem at h
  dsimp only at h
  split at h
  · split at h
    · cases h; rfl
    · split at h
      · cases h; rfl
      · exact stgPast_now h
  · split at h
    · split at h
      · cases h; rfl
      · cases h; exact recPast_now _
    · cases h; rfl

@[simp] theorem memForward_now (f : BitVec 128) (own : Bool) (req : MemReq) : (memForward s f own req).now = s.now := by
  unfold memForward
  split
  · next a ha => exact epMem_now ha
  · rfl

@[simp] theorem releaseReqs_now (d : Nat) : (releaseReqs s n d).now = s.now :=
  foldl_now (now := Block.now) (fun _ _ => memForward_now _ _ _) _ _

@[simp] theorem wakeDomain_now (d : Nat) : (wakeDomain s n d).now = s.now := by
  unfold wakeDomain
  dsimp only
  split <;> split <;> simp

/-- A domain that is woken takes time to open: an access that leaves the block as it is wakes none. -/
theorem wakeDomain_atTime_ne {d k : Nat} (hk : 0 < k) : wakeDomain (atTime s (s.now + k)) n d ≠ s := by
  intro h
  have hnow : max s.now (s.now + k) = s.now := (wakeDomain_now d).symm.trans (congrArg Block.now h)
  omega

/-- An access that leaves the block as it is leaves another with the same registers so too. -/
theorem domAccess_same {t : Block} {d : Nat} (hregs : t.regs = s.regs) (h : domAccess s n d = some s) : domAccess t n d = some t := by
  have hb : bridgeOf t n d = bridgeOf s n d := fget_congr hregs _ _
  have hw : fbit t n F.NOC_DOMAIN_WAKE_ON_ACCESS (ix d) = fbit s n F.NOC_DOMAIN_WAKE_ON_ACCESS (ix d) :=
    congrArg (· == 1) (fget_congr hregs _ _)
  unfold domAccess at h ⊢
  dsimp only at h ⊢
  rw [hb, hw]
  split at h
  · next ho => exact if_pos ho
  · next ho =>
    rw [if_neg ho]
    split at h
    · cases h
    · next hwake =>
      rw [if_neg hwake]
      split at h
      · next hc =>
        have hset : setBridge s n d brOpen = s := Option.some.inj h
        have hr : (setBridge t n d brOpen).regs = t.regs := by
          rw [setBridge_regs_congr hregs, hset, hregs]
        rw [if_pos hc]
        exact congrArg some (congrArg (fun r => { t with regs := r }) hr)
      · refine absurd (Option.some.inj h) (wakeDomain_atTime_ne ?_)
        unfold domExitNs
        split <;> omega

end

end Sys2Proof.Machine
end

section
namespace Sys2Proof.Machine

/-! ### An aligned word of the record store, written and read back (10 R231, R233) -/

/-- The block once a word of the record store is written and answered. -/
def recordWritten (s : Block) (n m addr : Nat) (bs : List (BitVec 8)) : Block :=
  answer m ⟨rspOk, [], memPut s .record n (addr / 8) (freshWord code64 (bytesValue bs 8))⟩

section
variable {n : Node} {m : Fin 32} {addr : Nat} {bs : List (BitVec 8)} {s : Block} (hrun : inRun s n = true) (hlen : bs.length = 8)
  (ha : addr % 8 = 0) (hend : addr + 8 ≤ recBytes) (hnet : netEnd s n m (0x28 + recStackOf addr) (recLocal addr) = none)
  (hiso : isolatedEp s n (0x28 + recStackOf addr) = false) (hdom : domAccess s n 4 = some s)
include hrun hlen ha hend hnet hiso hdom

theorem gives_recordWritten :
    Gives (.recordStoreAccess n m ⟨⟨true, addr, bs.map some⟩, .served⟩) s (recordWritten s n m addr bs) := by
  have hbytes : addr + (bs.map some).length ≤ recBytes := by rwa [List.length_map, hlen]
  have hpast : recPast s n ⟨true, addr, bs.map some⟩ =
      ⟨rspOk, [], memPut s .record n (addr / 8) (freshWord code64 (bytesValue bs 8))⟩ := by
    rw [recPast_write rfl, memWrite_aligned ha hlen]
    rfl
  have hreq := recReq_past (req := ⟨true, addr, bs.map some⟩) hbytes hnet hiso hdom
  exact gives_recordStoreAccess hrun (recordStoreAccess_served (hreq.trans hpast))

/-- The word written is read back, and the read changes no word. -/
theorem gives_recordRead (hwf : Memory.wf s = true) :
    Gives (.recordStoreAccess n m ⟨⟨false, addr, List.replicate 8 none⟩, .served⟩) (recordWritten s n m addr bs)
      { recordWritten s n m addr bs with rsps := (recordWritten s n m addr bs).rsps ++ [⟨m, rspOk, bs⟩] } := by
  have hregs : (recordWritten s n m addr bs).regs = s.regs := rfl
  have hrouters : (recordWritten s n m addr bs).routers = s.routers := rfl
  have hword : memGet (recordWritten s n m addr bs) .record n (addr / 8) = freshWord code64 (bytesValue bs 8) :=
    (memGet_memPut s .record n _ _ hwf).trans (Nat.mod_eq_of_lt freshWord_bytesValue_lt)
  have hload : memLoad (recordWritten s n m addr bs) .record n addr (List.replicate 8 none : List (Option (BitVec 8))).length =
      (some bs, recordWritten s n m addr bs) := memLoad_aligned ha hlen hword
  have hpast := recReq_past (req := ⟨false, addr, List.replicate 8 none⟩) hend (netEnd_none_congr hregs hrouters hnet)
    ((isolatedEp_congr hregs _).trans hiso) (domAccess_same hregs hdom)
  exact gives_recordStoreAccess ((inRun_congr hregs rfl).trans hrun)
    (recordStoreAccess_served (hpast.trans (recPast_read rfl hload)))

end

theorem recordWritten_other {s : Block} {n m addr n' w : Nat} {bs : List (BitVec 8)} (hwf : Memory.wf s = true)
    (hend : addr + 8 ≤ recBytes) (hne : n' ≠ n ∨ w ≠ addr / 8) (hw : w < 2 ^ 34) :
    memGet (recordWritten s n m addr bs) .record n' w = memGet s .record n' w := by
  have haddr : addr / 8 < 2 ^ 34 := by
    unfold recBytes at hend
    omega
  exact memGet_memPut_record_other hwf haddr hw hne

end Sys2Proof.Machine
end

section
/-! ### The obligation on the canonical form (02 R33, R34, 10 R225, R231, R233) -/

namespace Sys2Proof.Machine

theorem form_iff {s : Block} :
    Form s ↔ Memory.wf s = true ∧ mwf regDefault s.regs = true ∧ mwf (fun _ => 0) s.sels = true := by
  simp only [Memory.wf, Bool.and_eq_true]
  constructor
  · intro h
    exact ⟨⟨⟨⟨h.stg, h.record⟩, h.lram⟩, h.hostMem⟩, h.regs, h.sels⟩
  · rintro ⟨⟨⟨⟨hstg, hrecord⟩, hlram⟩, hhost⟩, hregs, hsels⟩
    exact ⟨hregs, hsels, hstg, hrecord, hlram, hhost⟩

/-- A register reads as the last word written to its key. -/
theorem rget_rput {s : Block} (h : mwf regDefault s.regs = true) (n n' : Nat) (r r' : Reg) (i i' : Nat) (w : Word) :
    rget (rput s n r i w) n' r' i' = if rkey n' r' i' = rkey n r i then w else rget s n' r' i' := by
  have hr : mrising none s.regs = true := by
    simp only [mwf, Bool.and_eq_true] at h
    exact h.1
  split
  · next hk => exact rget_rput_key s n n' r r' i i' w hk hr
  · next hk => exact rget_rput_other s n n' r r' i i' w hk hr

/-- Settles O58: every function of the model keeps the form, and a word of the record store is read back as its check bits decode. -/
theorem memoriesKeepFormAndReadBack : Obligations.MemoriesKeepFormAndReadBack := by
  unfold Obligations.MemoriesKeepFormAndReadBack
  refine ⟨?keeps, ?registers, ?record⟩
  case keeps =>
    intro s t hmem hregs hsels hstep
    exact form_iff.mp (step_form (form_iff.mpr ⟨hmem, hregs, hsels⟩) hstep)
  case registers =>
    intro s n n' r r' i i' w h
    exact rget_rput h n n' r r' i i' w
  case record =>
    intro n m addr bs s hrun hwf hlen ha hend hnet hiso hdom
    exact ⟨_, gives_recordWritten hrun hlen ha hend hnet hiso hdom, rfl,
      fun n' w hne hw => recordWritten_other hwf hend hne hw,
      _, gives_recordRead hrun hlen ha hend hnet hiso hdom hwf, rfl⟩

end Sys2Proof.Machine
end
